-- ==== Sys2Proof/Word.lean ====
section
/-!
DEFINITION. Sys2Proof/Word.lean: the byte, the smallest unit of every memory and structure of the device.
Object values, counters and fields of structures are natural numbers: each operation that writes one states its wrap,
its saturation or its clamp itself, as the rule it follows does.
-/
namespace Sys2Proof

/-- A byte of memory. -/
abbrev Byte := BitVec 8

end Sys2Proof
end

