-- ==== Sys2Proof/Syntax.lean ====
section
/-!
DEFINITION. Sys2Proof/Syntax.lean: the commands, one constructor per row of spec/opcode_table.json, in the table's order.
The table gives the rows no operands: an operand here is what the event carries from outside (the writer, a written
value, a received packet, a measured level) or what it happens to (a context, a queue, a core, a command in flight by
its id). Log entry 1.
-/
namespace Sys2Proof

/-- Who performs an object operation (R494, R496): the function of a context through its BAR2 window (0 is the physical
function), a Hokutia session, or firmware. Log entry 1. -/
inductive Writer where
  | fn (c : Fin 16)
  | hok (s : Fin 4)
  | fw
  deriving DecidableEq, Repr

/-- How a read of a sector ended: data, data corrected by the memory's code, an uncorrectable word (R237, R277), or a
selvedge-queue word of an instance that failed parity (R479). Log entry 1. -/
inductive ReadRes where
  | ok
  | corrected
  | uncorrectable
  | parity (inst : Nat)
  deriving DecidableEq, Repr

/-- Who reads memory: a command in flight by its id, a stream's transfer, the fetch of a queue's descriptor or next command, the
tile that core k loads, a shard attempt of the loader, or another agent. Log entry 1. -/
inductive Agent where
  | cmd (id : Nat)
  | stream (x : Fin 16) (s : Fin 8)
  | fetch (x : Fin 16) (q : Fin 5)
  | tile (k : Fin 32)
  | shard (i : Nat)
  | other
  deriving DecidableEq, Repr


/-- What befalls a frame on its way to a port (R478, R480): nothing, an ETH_TX queue found empty in its middle, or a word
of ETH_TX that fails parity. -/
inductive TxFault where
  | none
  | underrun
  | parity
  deriving DecidableEq, Repr

/-- A frame of an Exbaene packet that has passed the checks of Table 11.4: the port it arrives on, its IPv6 source
address, whether it carries CE, the symbols FEC corrected in it, the common header (Table 11.5), the extension or body as
one big-endian integer, the bytes that follow the common header, the payload of a DATA packet, and what befalls the frame
of the answer. Log entry 1. -/
structure Rx where
  port : Fin 8
  src : Nat
  ce : Bool
  fix : Nat
  hdr : Nat
  ext : Nat
  len : Nat
  data : List Byte
  reply : TxFault
  deriving DecidableEq, Repr

/-- Why a received frame is bad (R326, R327, R480): an uncorrectable codeword with how many, a failing FCS, a failing
check of Table 11.4 (tagged frames, PAUSE and unsupported PTP messages among them), or a parity failure in ETH_RX. -/
inductive BadFrame where
  | fec (cw : Nat)
  | fcs
  | check
  | parity
  deriving DecidableEq, Repr

/-- The data set of a PTP Announce (R353): domain, priority1, clock class, accuracy, variance, priority2, identity of the
grandmaster, steps removed, identity of the sender, and the interval of delay requests it sets, in ns. -/
structure Announce where
  domain : Nat
  prio1 : Nat
  cls : Nat
  acc : Nat
  var : Nat
  prio2 : Nat
  gm : Nat
  steps : Nat
  sender : Nat
  interval : Nat
  deriving DecidableEq, Repr

/-- A frame at the management port that is no Hokutia message (R504, R505): an IPv6 neighbour solicitation, an ICMPv6 echo request
with its identifier, sequence number and data, or any frame the port drops (longer than 9,216 bytes, tagged, PAUSE, a fragment, with
extension headers, or for a UDP port other than HOK_PORT). -/
inductive MgmtFrame where
  | solicit (src target : Nat)
  | echo (src dst : Nat) (data : List Byte)
  | other
  deriving DecidableEq, Repr

/-- A UDP datagram to HOK_PORT at an address of the management port (R505, R506): the manager's address and UDP port, and its bytes. -/
structure HokRx where
  src : Nat
  sport : Nat
  bytes : List Byte
  deriving DecidableEq, Repr

/-- How a host read completed (R528): its bytes, an error status (UR 1, CA 4 of PCIe), or poisoned data. Log entries 1, 7. -/
inductive HostCpl where
  | data (d : List Byte)
  | error (status : Nat)
  | poisoned
  deriving DecidableEq, Repr

/-- What the host has configured over PCIe (R77, R525, R529): NumVFs, 0 without VF Enable; the functions with Bus Master Enable; the
functions with MSI-X enabled. Log entries 1, 7. -/
structure HostCfg where
  numVfs : Fin 16
  busMaster : List (Fin 16)
  msix : List (Fin 16)
  deriving DecidableEq, Repr

/-- What the sensors and meters read at a step 1 decision (R554, R555): the hottest sensor of each core and of IO0 and IO1 in °C,
module power in W averaged over 1 ms, P48V in mV and mA, P12V_SB in mV, joules since cold reset. Log entry 1. -/
structure Sensors where
  cores : List Int
  io0 : Int
  io1 : Int
  power : Nat
  vin : Nat
  iin : Nat
  vsb : Nat
  joules : Nat
  deriving DecidableEq, Repr
/-- The commands of the block: one constructor per row of the table. Log entry 1. -/
inductive Instr where
  /-- DOORBELL_SQ_TAIL (R82). Software writes a queue's SQ_TAIL doorbell; the device checks it and accepts the new submission count or counts DOORBELL_INVALID. -/
  | doorbellSqTail (fn x : Fin 16) (q : Fin 5) (width v : Nat)
  /-- DOORBELL_CQ_HEAD (R82). Software writes a queue's CQ_HEAD doorbell to return consumed completion records, subject to the doorbell checks. -/
  | doorbellCqHead (fn x : Fin 16) (q : Fin 5) (width v : Nat)
  /-- EVT_HOST (R104). A host write to EVT_HOST adds ADD to an event counter of the context. -/
  | evtHost (fn x : Fin 16) (width v : Nat)
  /-- PATTERN_ADMIT (R85). The device admits the next pattern of a queue: it reads the descriptor, checks the deadline, captures the epoch and fetches commands ahead. -/
  | patternAdmit (x : Fin 16) (q : Fin 5)
  /-- COMMAND_START (R87). The device starts the next command of a queue once every start condition holds. -/
  | commandStart (x : Fin 16) (q : Fin 5)
  /-- COMMAND_COMPLETE (R88). A command completes: its writes become visible, SIGNAL applies, command and pattern records are written and interrupts raised. -/
  | commandComplete (id : Nat)
  /-- NOP (R91). A NOP command does nothing beyond its header fields. -/
  | nop (id : Nat)
  /-- EVT_SIGNAL (R99). A control command adds to or sets an event counter and releases waiters whose condition becomes true. -/
  | evtSignal (id : Nat)
  /-- EVT_WAIT (R98). A control command waits until an event counter reaches VALUE. -/
  | evtWait (id : Nat)
  /-- FENCE (R101). A control command waits until every pattern submitted earlier to the named queues has posted its record. -/
  | fence (id : Nat)
  /-- TIMER_ARM (R102). A control command arms, rearms or disarms one of the context's timers. -/
  | timerArm (id : Nat)
  /-- WRITE_IMM (R98). A control command writes 8 bytes to a context address as one sector-atomic write. -/
  | writeImm (id : Nat)
  /-- YIELD (R131). A control command passes slice ownership to the next context when the yielding context owns the slice. -/
  | yield (id : Nat)
  /-- STEP_MARK (R103). The step boundary: other queues are held, in-flight commands drain, boundary actions run and STEP_NUM is set. -/
  | stepMark (id : Nat)
  /-- TILE_LAUNCH (R94). A tile-queue command releases its tiles to Pricking in ascending index after validation. -/
  | tileLaunch (id : Nat)
  /-- COPY (R95). A Bobbin command copies and converts rows from source to destination. -/
  | copy (id : Nat)
  /-- PREFETCH (R243). A Bobbin command copies raw rows into the next fill of a prefetch buffer under credits. -/
  | prefetch (id : Nat)
  /-- CANCEL (R246). A Bobbin command advances a prefetch buffer's generation, stops its fills and frees its credits. -/
  | cancel (id : Nat)
  /-- GATHER (R309). A Picot command reads table rows by index and optionally pools them into output rows. -/
  | gather (id : Nat)
  /-- SCATTER_ADD (R312). A Picot command folds gradient rows into table rows under the table's optimizer rule, streamed or as a batch. -/
  | scatterAdd (id : Nat)
  /-- ALL_GATHER (R370). A COLL gathers every member's part into every member's destination. -/
  | allGather (id : Nat)
  /-- REDUCE_SCATTER (R370). A COLL reduces all members' parts and leaves each member its own reduced part. -/
  | reduceScatter (id : Nat)
  /-- ALL_REDUCE (R370). A COLL reduces every part across members and gives every member the full result. -/
  | allReduce (id : Nat)
  /-- PARAM_GATHER (R381). A COLL gathers parameters over an outer ring and fans them out over an inner ring. -/
  | paramGather (id : Nat)
  /-- SEND (R385). A COLL converts a part to the wire format and sends it to one member. -/
  | send (id : Nat)
  /-- RECV (R385). A COLL posts receives for a member's SEND and writes its chunks into the destination. -/
  | recv (id : Nat)
  /-- ALL_REDUCE_C4 (R382). A COLL reduces gradients with N4L wire codes, carrying compression remainders in thrum tensors. -/
  | allReduceC4 (id : Nat)
  /-- WAIT_TIMEOUT (R100). A header WAIT, EVT_WAIT or FENCE exceeds its timeout and the command ends with WAIT_TIMEOUT. -/
  | waitTimeout (x : Fin 16) (q : Fin 5)
  /-- STEP_MARK_TIMEOUT (R103). A STEP_MARK's in-flight commands do not complete within WAIT_TMO and it ends with WAIT_TIMEOUT. -/
  | stepMarkTimeout (x : Fin 16)
  /-- TIMER_FIRE (R102). An armed timer falls due and adds 1 to its event counter. -/
  | timerFire (x : Fin 16) (n : Fin 8)
  /-- CTX_ENABLE (R79). A CTX_CTRL ENABLE takes an OFF context to ACTIVE with counters cleared and committed queues RUNNING. -/
  | ctxEnable (wr : Writer) (x : Fin 16)
  /-- CTX_DISABLE (R79). A CTX_CTRL DISABLE stops the context starting commands and waits for those in flight. -/
  | ctxDisable (wr : Writer) (x : Fin 16)
  /-- CTX_DISABLE_DONE (R79). The last in-flight command of a disabling context completes; unstarted patterns are discarded and the context enters OFF. -/
  | ctxDisableDone (x : Fin 16)
  /-- CTX_RESUME (R79). A CTX_CTRL RESUME takes a HALTED context back to ACTIVE. -/
  | ctxResume (wr : Writer) (x : Fin 16)
  /-- Q_START (R108). A Q_CTRL START takes a STOPPED queue to RUNNING. -/
  | qStart (wr : Writer) (x : Fin 16) (q : Fin 5)
  /-- Q_STOP (R108). A Q_CTRL STOP takes a RUNNING queue to STOPPED at the next command boundary. -/
  | qStop (wr : Writer) (x : Fin 16) (q : Fin 5)
  /-- Q_RESUME (R108). A Q_CTRL RESUME takes a HALTED queue to RUNNING after the faulted command. -/
  | qResume (wr : Writer) (x : Fin 16) (q : Fin 5)
  /-- Q_FLUSH (R108). A Q_CTRL FLUSH discards the unstarted commands and patterns of a stopped or halted queue and posts CANCELLED records. -/
  | qFlush (wr : Writer) (x : Fin 16) (q : Fin 5)
  /-- Q_COMMIT (R80). A write of 1 to Q_COMMIT makes a queue's ring objects pending. -/
  | qCommit (wr : Writer) (x : Fin 16) (q : Fin 5)
  /-- Q_COMMIT_APPLY (R80). A pending ring commit applies once the queue is quiet and resets its ring counters. -/
  | qCommitApply (x : Fin 16) (q : Fin 5)
  /-- CTX_COMMIT (R112). A write of 1 to CTX_COMMIT commits class, home die and fault scope for later commands. -/
  | ctxCommit (wr : Writer) (x : Fin 16)
  /-- PRIV_WRITE (R74). A write to a context's PRIV object is clamped and, when it clears privilege, corrects the segment tables. -/
  | privWrite (wr : Writer) (x : Fin 16) (v : Nat)
  /-- SEG_TABLE_WRITE (R30). A write to a staged segment table corrects illegal descriptors it changes. -/
  | segTableWrite (wr : Writer) (x : Fin 16) (off : Nat) (data : List Byte)
  /-- SEG_COMMIT (R26). A write to SEG_COMMIT makes the staged segment table pending, with corrections. -/
  | segCommit (wr : Writer) (x : Fin 16)
  /-- SEG_COMMIT_APPLIED (R32). Every engine of the context has applied the new segment table at its command boundary and the commit object reads 0. -/
  | segCommitApplied (x : Fin 16)
  /-- CORE_ASSIGN (R123). At a tile boundary or idle core with claimants waiting, Pricking chooses and assigns the core's next work. -/
  | coreAssign (k : Fin 32) (saveBad restBad : Bool)
  /-- TILE_START (R571). The spans, program and first plane of an assigned tile have landed and the tile's first execution cycle follows. -/
  | tileStart (k : Fin 32) (bad : Option (Nat × ReadRes))
  /-- TILE_END (R158). A tile reaches its last execution cycle, drains and reports, and any recompute is ordered. -/
  | tileEnd (k : Fin 32) (feed wait drain : Nat) (flips : List (Nat × Nat))
  /-- TILE_OVERRUN (R118). A tile not ended by cycle 720 is stopped, discarded and ends its launch with TILE_OVERRUN. -/
  | tileOverrun (k : Fin 32) (feed wait drain : Nat)
  /-- TILE_STORE_DONE (R115). A tile's OUT store becomes visible and the tile completes. -/
  | tileStoreDone (id : Nat)
  /-- SLICE_EXPIRE (R131). A slice owner's slice length elapses; debt is debited and ownership hands over. -/
  | sliceExpire (be : Bool)
  /-- SECTION_GRANT (R133). Pricking grants a waiting section a core of its die within the NP_EFF limit. -/
  | sectionGrant (k : Fin 32)
  /-- SECTION_END (R133). The owning engine reports a section's phase complete and the core leaves SECTION. -/
  | sectionEnd (id : Nat) (bad : List Nat)
  /-- SECTION_OVERRUN (R136). A section reaches twice its bound and Pricking signals the owning engine's watchdog. -/
  | sectionOverrun (id : Nat)
  /-- FENCE_SW (R141). A write to FENCE_SW fences cores, clamped to keep 8 unfenced per die. -/
  | fenceSw (wr : Writer) (v : Nat)
  /-- BOBBIN_SECTOR_LAND (R244). A sector of a Bobbin chunk arrives; it is written, or discarded if its buffer's generation changed. -/
  | bobbinSectorLand (id n k : Nat) (res : ReadRes)
  /-- PREFETCH_WAIT_TIMEOUT (R245). A PREFETCH waiting for release longer than WAIT_TMO ends with WAIT_TIMEOUT. -/
  | prefetchWaitTimeout (id : Nat)
  /-- PB_COMMIT (R242). A write of 1 to PB_COMMIT makes a prefetch buffer definition pending. -/
  | pbCommit (wr : Writer) (b : Fin 64)
  /-- PB_COMMIT_APPLY (R242). A pending buffer commit applies when no fill or CANCEL is in flight, resetting fill and credits. -/
  | pbCommitApply (b : Fin 64)
  /-- STREAM_REARM (R251). A write to STREAM_REARM marks a stream's shadow pending and takes over at once when the stream is not MOVING. -/
  | streamRearm (wr : Writer) (x : Fin 16) (n : Fin 8)
  /-- STREAM_TRIGGER (R249). A stream's trigger becomes true while its context is ACTIVE and the stream starts transfer k. -/
  | streamTrigger (x : Fin 16) (n : Fin 8)
  /-- STREAM_XFER_DONE (R250). A stream transfer completes, adds to DONE_EVT and the stream rearms, ends or takes over a pending shadow. -/
  | streamXferDone (x : Fin 16) (n : Fin 8)
  /-- STREAM_DEADLINE_MISS (R252). A stream transfer has not completed at its deadline; the miss is logged and counted. -/
  | streamDeadlineMiss (x : Fin 16) (n : Fin 8)
  /-- PACK_COMMIT (R261). A write of 1 to PACK_COMMIT commits a pack region at the context's next command boundary. -/
  | packCommit (wr : Writer) (x : Fin 16) (r : Fin 4)
  /-- NEAR_SCRUB (R238). The near-memory scrub reads, corrects and writes back words once per SCRUB_HOURS. -/
  | nearScrub (a : Nat) (res : ReadRes)
  /-- EXT_READ_RETURN (R274). A tier controller decodes a returned codeword under ECC_MODE and corrects or reports it. -/
  | extReadReturn (r : Agent) (a : Nat) (flips : List (Nat × Nat))
  /-- EXT_SCRUB (R278). The tier scrub reads each sector once per period and writes back corrected codewords. -/
  | extScrub (a : Nat) (flips : List (Nat × Nat)) (raced : Bool)
  /-- COUCH_WRITE (R280). A write reaches a controller and merges into an entry, goes to the write queue, or allocates an entry. -/
  | couchWrite (x : Fin 16) (a : Nat) (d : List Byte)
  /-- COUCH_RETIRE (R281). A couching entry retires on being full, its hold time, occupancy or a reset, with read-modify-writes. -/
  | couchRetire (ctl : Fin 22) (line : Nat) (bad : List Nat) (reset : Bool)
  /-- REGULATOR_REQUEST (R285). A request reaches a tension regulator, which refills its buckets, classifies it and debits it or holds it at the cap. -/
  | regulatorRequest (x : Fin 16) (t : Fin 3) (h : Fin 2) (n : Nat) (tileBound : Bool)
  /-- REGULATOR_RETRY (R285). A request held at its cap is retried when the cap bucket refills. -/
  | regulatorRetry (x : Fin 16) (t : Fin 3) (h : Fin 2)
  /-- REGULATOR_SHARE_UPDATE (R286). Every 10 µs each regulator pair resets its halves' shares from the previous interval's requests. -/
  | regulatorShareUpdate
  /-- SPILL_POOL_COMMIT (R295). A write to SPILL_POOL_COMMIT commits the spill pool range. -/
  | spillPoolCommit (wr : Writer)
  /-- SPILL_REQ (R296). A write to SPILL_REQ starts a spill of a segment to the slow tier or refuses it. -/
  | spillReq (wr : Writer) (x : Fin 16) (v : Nat)
  /-- SPILL_HOLD_TIMEOUT (R296). A spill's hold exceeds WAIT_TMO and the spill ends with TIMEOUT. -/
  | spillHoldTimeout (x : Fin 16)
  /-- SPILL_COPY_DONE (R297). A spill or fill copy completes; the descriptor is retargeted and the hold released. -/
  | spillCopyDone (x : Fin 16)
  /-- FILL_REQ (R298). A write to FILL_REQ starts returning a spilled segment to FILL_BASE or refuses it. -/
  | fillReq (wr : Writer) (x : Fin 16) (v : Nat)
  /-- DRAM_TEMP_POLL (R264). Every 1 ms the controllers poll DRAM temperature and set the refresh rate. -/
  | dramTempPoll (stackC pkgs : List Int)
  /-- COUCH_DRAIN_TIMEOUT (R294). A couching buffer not empty 100 µs into a reset's memory phase discards its entries and logs COUCH_LOST. -/
  | couchDrainTimeout (ctl : Fin 22) (parts : List Nat)
  /-- MEM_TRAINING_DONE (R293). Training after a warm or die reset completes and the halves reopen or go OFFLINE. -/
  | memTrainingDone (h : Fin 4) (slow dead : List Nat) (lanes : List (Nat × Nat × Nat))
  /-- PICOT_LOCK_GRANT (R316). A row lock that a Picot access waited on is released and the waiting access proceeds. -/
  | picotLockGrant (id p : Nat)
  /-- PORTS_COMMIT (R323). A write of 1 to an I/O die's PORTS_COMMIT makes its port configuration pending. -/
  | portsCommit (wr : Writer) (d : Fin 2)
  /-- PORTS_COMMIT_APPLY (R323). A pending port commit applies: values are clamped, changed ports retrain and the carve-out is recomputed. -/
  | portsCommitApply (d : Fin 2)
  /-- LINK_SIGNAL_DETECT (R325). Signal is detected on every lane of a DOWN port and it enters ALIGNING. -/
  | linkSignalDetect (p : Fin 8)
  /-- LINK_UP (R325). Block and FEC lock hold on every lane for 1 ms and the port enters UP. -/
  | linkUp (p : Fin 8)
  /-- LINK_DOWN (R325). Loss of signal or lock for over 10 µs takes the port DOWN. -/
  | linkDown (p : Fin 8)
  /-- LINK_DEGRADED (R325). Uncorrectable codewords or a high corrected-symbol ratio take an UP port to DEGRADED. -/
  | linkDegraded (p : Fin 8) (uncorr corr total : Nat)
  /-- LINK_DEGRADE_CLEAR (R325). A DEGRADED port returns to UP after 60 s without either condition. -/
  | linkDegradeClear (p : Fin 8)
  /-- ETH_FRAME_BAD (R326). A received frame with an uncorrectable FEC codeword, bad FCS or failing Table 11.4 is dropped and counted. -/
  | ethFrameBad (p : Fin 8) (why : BadFrame)
  /-- EXB_DATA_RX (R341). A DATA packet is received, checked against the window and posted receive, placed and acknowledged. -/
  | exbDataRx (f : Rx)
  /-- EXB_ACK_RX (R342). An ACK is received; acknowledged packets are freed, losses declared and rate control updated. -/
  | exbAckRx (f : Rx)
  /-- EXB_OPEN_RX (R337). An OPEN is received and the responder checks it and answers OPEN_ACK or REJECT. -/
  | exbOpenRx (f : Rx)
  /-- EXB_OPEN_ACK_RX (R337). An OPEN_ACK is received and the initiator's session enters OPEN. -/
  | exbOpenAckRx (f : Rx)
  /-- EXB_REJECT_RX (R339). A REJECT is received and the session goes to REJECTED with its reason. -/
  | exbRejectRx (f : Rx)
  /-- EXB_PROBE_RX (R339). A PROBE is received and answered with PROBE_REPLY. -/
  | exbProbeRx (f : Rx)
  /-- EXB_PROBE_REPLY_RX (R343). A PROBE_REPLY is received and counts as progress with a round-trip sample. -/
  | exbProbeReplyRx (f : Rx)
  /-- EXB_STALE_RX (R339). A STALE is received and the session goes to LOST with reason STALE. -/
  | exbStaleRx (f : Rx)
  /-- EXB_CLOSE_RX (R339). A CLOSE is received and the session goes to CLOSED with reason PEER_CLOSED. -/
  | exbCloseRx (f : Rx)
  /-- EXB_STALE_SESSION_RX (R339). A packet for an unknown session or an old incarnation or CGEN is dropped and answered STALE. -/
  | exbStaleSessionRx (f : Rx)
  /-- EXB_DATA_TX (R348). A session sends its next DATA packet as pacing, window and port level allow. -/
  | exbDataTx (n : Nat) (bad : TxFault)
  /-- EXB_ACK_DELAY_EXPIRE (R341). ACK_DELAY_NS passes since the oldest unacknowledged arrival and an ACK is sent. -/
  | exbAckDelayExpire (n : Nat)
  /-- EXB_RTO_EXPIRE (R342). A packet's retransmission timeout passes; it is declared lost and retransmitted. -/
  | exbRtoExpire (n psn : Nat)
  /-- EXB_PROBE_IDLE_EXPIRE (R343). Nothing is received on an OPEN session for PROBE_IDLE_US and a PROBE is sent. -/
  | exbProbeIdleExpire (n : Nat)
  /-- EXB_LOSS_TIMEOUT (R343). LOSS_US passes without progress and the session goes to LOST with reason TIMEOUT. -/
  | exbLossTimeout (n : Nat)
  /-- EXB_OPEN_RESEND (R336). An OPENING session resends OPEN on its retry timer. -/
  | exbOpenResend (n : Nat)
  /-- EXB_REJECT_RETRY (R336). After OPEN_RETRY_MS a session REJECTED for NOT_READY, BUSY or PORT returns to OPENING. -/
  | exbRejectRetry (n : Nat)
  /-- EXB_RNR_EXPIRE (R346). RNR_US after a refusal the sender resends the message from the refused PSN. -/
  | exbRnrExpire (n msg : Nat)
  /-- EXB_RATE_INCREASE (R348). Each INC_US without a decrease raises the session's rate and decays alpha. -/
  | exbRateIncrease (n : Nat)
  /-- PEER_COMMIT (R335). A write of 1 to PEER_COMMIT corrects and applies the peer table, closing changed sessions. -/
  | peerCommit (wr : Writer)
  /-- PTP_ANNOUNCE_RX (R353). An Announce is received and the best master clock algorithm chooses a grandmaster. -/
  | ptpAnnounceRx (p : Fin 8) (a : Announce)
  /-- PTP_SYNC_RX (R355). A Sync is received and the servo updates offset, lock state and frequency. -/
  | ptpSyncRx (p : Fin 8) (domain gm seq : Nat) (twoStep : Bool) (t1 : Nat)
  /-- PTP_FOLLOW_UP_RX (R353). A two-step Follow_Up is received and completes a Sync measurement. -/
  | ptpFollowUpRx (p : Fin 8) (domain gm seq t1 : Nat)
  /-- PTP_DELAY_REQ_TX (R353). The device sends a unicast Delay_Req at the grandmaster's rate. -/
  | ptpDelayReqTx
  /-- PTP_DELAY_RESP_RX (R353). A Delay_Resp is received and the path delay is updated. -/
  | ptpDelayRespRx (p : Fin 8) (domain gm seq t4 : Nat)
  /-- PTP_HOLDOVER (R355). No Sync arrives for 3 s and the servo enters HOLDOVER. -/
  | ptpHoldover
  /-- PLAIT_CHUNK_LAND (R376). A collective chunk lands in a slot and is merged, converted or moved, and the next send released. -/
  | plaitChunkLand (id slot : Nat)
  /-- PLAIT_STALL_TIMEOUT (R387). A COLL exchanges nothing more with a member for COLL_TMO and breaks its group with STALL. -/
  | plaitStallTimeout (id n : Nat)
  /-- PLAIT_NO_START_TIMEOUT (R387). A COLL has exchanged nothing with an awaited member for COLL_FIRST_MS and breaks its group. -/
  | plaitNoStartTimeout (id n : Nat)
  /-- PLAIT_ABORT_NOTICE_RX (R389). An abort notice arrives on a session of a group and breaks it as RELAYED, or is dropped if already BROKEN. -/
  | plaitAbortNoticeRx (id : Nat)
  /-- GROUP_COMMIT (R361). A write of 1 to GROUP_COMMIT makes the group table pending. -/
  | groupCommit (wr : Writer)
  /-- GROUP_COMMIT_APPLY (R361). A pending group commit applies when no affected COLL is in flight, with corrections. -/
  | groupCommitApply
  /-- LOAD_COMMIT (R398). A write of 1 to LOAD_COMMIT requests a model load with the staged load objects. -/
  | loadCommit (wr : Writer)
  /-- LOAD_START (R398). A waiting load's obstacle clears; the manifest is validated and the target enters LOADING or the load ends INVALID. -/
  | loadStart
  /-- SHARD_LANDED (R400). The last byte of a shard attempt lands and its hash starts. -/
  | shardLanded (n : Nat)
  /-- SHARD_HASH_DONE (R400). A shard's hash ends; the shard is VERIFIED or the next attempt starts. -/
  | shardHashDone (n : Nat)
  /-- SHARD_ATTEMPT_TIMEOUT (R401). An attempt has not landed within SHARD_TMO_S and becomes MISSING. -/
  | shardAttemptTimeout (n : Nat)
  /-- LOADER_SHARD_RX (R402). A chain predecessor's SHARD message arrives and lands a shard attempt. -/
  | loaderShardRx (id : Nat)
  /-- LOADER_REFETCH_RX (R402). A REFETCH request from the successor is answered with the shard or UNAVAIL. -/
  | loaderRefetchRx (id : Nat)
  /-- LOADER_UNAVAIL_RX (R402). An UNAVAIL answer makes the predecessor attempt MISSING. -/
  | loaderUnavailRx (id : Nat)
  /-- ACTIVATE (R408). A write to ACTIVATE makes a VERIFIED resident slot CURRENT in one indivisible step. -/
  | activate (wr : Writer) (v : Nat)
  /-- ADMIT_PAUSE_TICK (R411). Once per µs during a paused admission the head pattern's deadline is checked. -/
  | admitPauseTick (x : Fin 16) (q : Fin 5)
  /-- SWAP (R412). A write of 1 to SWAP starts or refuses the exchange of the resident and parked images. -/
  | swap (wr : Writer)
  /-- SWAP_EXCHANGE_DONE (R412). The byte exchange ends; roles swap or an image enters FAILED, and admission resumes. -/
  | swapExchangeDone (bad : List Nat)
  /-- SLOT_COMMIT (R394). A write of 1 to SLOT_COMMIT applies a slot's part regions with corrections while the slot is EMPTY or FAILED. -/
  | slotCommit (wr : Writer) (n : Fin 3)
  /-- SLOT_FLUSH (R395). A write of 1 to SLOT_FLUSH empties a VERIFIED, PARKED or FAILED slot. -/
  | slotFlush (wr : Writer) (n : Fin 3)
  /-- BIND_COMMIT (R407). A write of 1 to BIND_COMMIT makes the context's binding objects pending. -/
  | bindCommit (wr : Writer) (x : Fin 16)
  /-- BIND_COMMIT_APPLY (R407). A pending binding commit applies once the context holds no binding. -/
  | bindCommitApply (x : Fin 16)
  /-- ADD_SWAP (R415). A write of 1 to ADD_SWAP requests a switch of the private addition at the next request boundary. -/
  | addSwap (wr : Writer) (x : Fin 16)
  /-- ARENA_COMMIT (R416). A write of 1 to ARENA_COMMIT defines the arena while no block is allocated. -/
  | arenaCommit (wr : Writer)
  /-- SEQ_JOIN (R417). A write to SEQ_JOIN marks a FREE sequence JOINING for the next step boundary. -/
  | seqJoin (wr : Writer) (x : Fin 16) (v : Nat)
  /-- SEQ_LEAVE (R417). A write to SEQ_LEAVE marks a sequence LEAVING for the next step boundary. -/
  | seqLeave (wr : Writer) (x : Fin 16) (v : Nat)
  /-- SEQ_GROW (R419). A write to SEQ_GROW grants blocks at once, spilling BE blocks or evicting sequences when short. -/
  | seqGrow (wr : Writer) (x : Fin 16) (v : Nat)
  /-- MIR_COMMIT (R424). A write of 1 to MIR_COMMIT makes a context's mirror shard objects pending. -/
  | mirCommit (wr : Writer) (x : Fin 16)
  /-- MIR_DEV_COMMIT (R425). A write of 1 to MIR_DEV_COMMIT makes the stage and store ranges pending. -/
  | mirDevCommit (wr : Writer)
  /-- MIR_DEV_COMMIT_APPLY (R425). A pending stage or store commit applies when no mirror work runs, reallocating the stage or resetting the store. -/
  | mirDevCommitApply
  /-- MIRROR_WAIT_EXPIRE (R426). The previous mirror's sends outlast MIR_WAIT_MS and are abandoned. -/
  | mirrorWaitExpire (x : Fin 16)
  /-- MIRROR_HASH_DONE (R426). A shard's hash ends; its stage header is completed and its final HEADER sent once data is delivered. -/
  | mirrorHashDone (x s : Fin 16)
  /-- PAIRING_HEADER_RX (R428). The partner receives a mirror HEADER and files it under a held entry and slot. -/
  | pairingHeaderRx (id : Nat)
  /-- PAIRING_DATA_RX (R428). The partner receives a mirror DATA chunk and writes it into the slot. -/
  | pairingDataRx (id : Nat)
  /-- PAIRING_RESTORE_REQ_RX (R431). The partner receives a RESTORE_REQ and sends copies or RESTORE_NONE. -/
  | pairingRestoreReqRx (id : Nat)
  /-- PAIRING_RESTORE_DATA_RX (R431). The requester receives restore data and writes or hashes it. -/
  | pairingRestoreDataRx (id : Nat)
  /-- PAIRING_RESTORE_HDR_RX (R431). The requester receives a RESTORE_HDR with INTACT for a copy. -/
  | pairingRestoreHdrRx (id : Nat)
  /-- PAIRING_RESTORE_NONE_RX (R431). The requester receives RESTORE_NONE for a shard. -/
  | pairingRestoreNoneRx (id : Nat)
  /-- RESTORE_REQ (R430). A write of a shard mask to RESTORE_REQ starts a restore under a hold, or is refused. -/
  | restoreReq (wr : Writer) (x : Fin 16) (mask : Nat)
  /-- RESTORE_DONE (R432). Every shard has a result; the chosen copies are written, the hold released and RESTORE_RESULT set. -/
  | restoreDone (x : Fin 16)
  /-- SAMPLER_RUN_DONE (R437). A shadow, referee or rerun ends and the comparator moves towards a verdict. -/
  | samplerRunDone (id : Nat)
  /-- SAMPLER_LAG_DROP (R436). A Sampler run not started within SHADOW_LAG_MS of its due time is dropped. -/
  | samplerLagDrop (id : Nat)
  /-- KAT_PERIOD (R438). Every KAT_PERIOD_S firmware runs the known-answer suite on every unfenced core. -/
  | katPeriod (ns : Nat) (res : List (Fin 32 × Nat × Nat))
  /-- HEALTH_SCORE_TICK (R442). Every 100 ms the device recomputes HEALTH_SCORE and HEALTH_CAPACITY. -/
  | healthScoreTick
  /-- PROBATION_END (R441). PROBATION_S passes without confirmation and the device clears to HEALTHY. -/
  | probationEnd
  /-- HEALTH_REPORT (R443). The device sends a health report every HEALTH_PERIOD_MS or on a change of state or score. -/
  | healthReport
  /-- HEALTH_CLEAR (R441). A write of 1 to HEALTH_CLEAR returns the device to HEALTHY. -/
  | healthClear (wr : Writer) (v : Nat)
  /-- FENCE_FW_CLEAR (R440). A write of a core number to FENCE_FW_CLEAR clears its firmware fence and bin records. -/
  | fenceFwClear (wr : Writer) (v : Nat)
  /-- MIR_FREE (R433). A write to MIR_FREE frees a held mirror entry and its slots. -/
  | mirFree (wr : Writer) (v : Nat)
  /-- OVH_WINDOW (R444). At the end of each 60 s window the device computes OVH_PERMIL and sets SHADOW_PERMIL. -/
  | ovhWindow
  /-- ENGINE_WDT_FIRE (R451). An engine instance takes no internal step with work ready for ENG_WDT_US. -/
  | engineWdtFire (e : Fin 13) (id : Nat)
  /-- CORE_WDT_FIRE (R450). A busy core reaches no tile boundary within CORE_WDT_US. -/
  | coreWdtFire (k : Fin 32)
  /-- CTX_WDT_FIRE (R452). An ACTIVE context makes no progress for CTX_WDT_MS. -/
  | ctxWdtFire (x : Fin 16)
  /-- MEM_WDT_FIRE (R450). A request accepted by a memory controller has not completed after MEM_WDT_US. -/
  | memWdtFire (ctl : Fin 22)
  /-- FW_WDT_FIRE (R450). Firmware fails to kick the sequencer within FW_WDT_MS. -/
  | fwWdtFire
  /-- ENGINE_RESET (R472). A write to ENGINE_RESET starts an engine reset of the named instance. -/
  | engineReset (wr : Writer) (v : Nat)
  /-- CORE_RESET (R472). A write to CORE_RESET starts a core reset of the named core. -/
  | coreReset (wr : Writer) (v : Nat)
  /-- CTX_RESET (R472). A write of 1 to CTX_RESET starts a context reset. -/
  | ctxReset (wr : Writer) (x : Fin 16)
  /-- DIE_RESET (R472). A write to DIE_RESET starts a die reset, or a warm reset for IO1. -/
  | dieReset (wr : Writer) (v : Nat)
  /-- DEVICE_RESET (R472). A write of 1 to DEVICE_RESET starts a device warm reset. -/
  | deviceReset (wr : Writer)
  /-- RESET_LIMIT_EXPIRE (R467). A reset exceeds its limit and the sequencer escalates to the next domain. -/
  | resetLimitExpire (dom target : Nat)
  /-- SWATCH_SAMPLE_TIMEOUT (R455). A core sample not ended at 16 µs is abandoned and SWATCH_INCOMPLETE logged. -/
  | swatchSampleTimeout (k : Fin 32)
  /-- RESET_DONE (R466). A reset completes its work and the affected state takes its post-reset values. -/
  | resetDone (dom target : Nat) (bad : List (Nat × Nat)) (flushed : Nat)
  /-- XQ_RETRY_RESEND (R481). A RETRY control word unacknowledged for 1 µs is sent again. -/
  | xqRetryResend (inst : Nat)
  /-- TIME_SAMPLE (R482). Every 16 ns the time base writes device time into each TIME queue and consumers resynchronise. -/
  | timeSample (bad : List Nat)
  /-- DVFS_DECISION (R486). Firmware chooses each die's target frequency under DVFS_MODE and the LC floor. -/
  | dvfsDecision (auto0 auto1 : Nat)
  /-- PLL_LOCKED (R485). The idle PLL locks; when the setpoint allows, the core clock switches and CLOCK_CHANGED is logged. -/
  | pllLocked (d : Fin 2)
  /-- SETPOINT_REACHED (R485). The core-rail setpoint reaches its target during a frequency change. -/
  | setpointReached (d : Fin 2)
  /-- DVFS_COMMIT (R488). A write of 1 to DVFS_COMMIT commits the DVFS objects for the next 1 ms decision. -/
  | dvfsCommit (wr : Writer)
  /-- FW_DECISION (R500). In each management cycle firmware decides within the policy objects, dropping decisions overridden by software. -/
  | fwDecision (num seen : Nat) (breaks : Bool)
  /-- WIN_READ (R503). A WIN_CMD READ reads an object into WIN_DATA. -/
  | winRead (fn : Fin 16) (object off len : Nat) (active : Bool)
  /-- WIN_WRITE (R503). A WIN_CMD WRITE writes WIN_DATA to an object with checks and clamps. -/
  | winWrite (fn : Fin 16) (object off : Nat) (data : List Byte)
  /-- WIN_WRITE_READ (R503). A WIN_CMD WRITE_READ writes an object and returns the value held. -/
  | winWriteRead (fn : Fin 16) (object off : Nat) (data : List Byte)
  /-- WIN_OP_DONE (R503). An object window operation ends, clearing WIN_BUSY and advancing WIN_DONE. -/
  | winOpDone (fn : Fin 16)
  /-- OBJECT_WRITE (R496). A write to an object with no row of its own is checked, clamped and applied or staged. -/
  | objectWrite (wr : Writer) (num off : Nat) (data : List Byte)
  /-- HOK_HELLO_RX (R507). A HELLO is received and answered with a signed HELLO_ACK or an ERROR. -/
  | hokHelloRx (f : HokRx)
  /-- HOK_REQUEST_RX (R509). A REQUEST is authenticated and executed by SEQ, and a RESPONSE sent. -/
  | hokRequestRx (f : HokRx)
  /-- HOK_NOTIFY_ACK_RX (R514). A NOTIFY_ACK acknowledges a notification. -/
  | hokNotifyAckRx (f : HokRx)
  /-- HOK_CLOSE_RX (R512). A CLOSE ends a Hokutia session. -/
  | hokCloseRx (f : HokRx)
  /-- HOK_IDLE_TIMEOUT (R512). A session with no valid message for HOK_IDLE_S is closed. -/
  | hokIdleTimeout (n : Fin 4)
  /-- NOTIFY_RESEND (R514). An unacknowledged notification is resent after 100 ms, or dropped after 3 resends. -/
  | notifyResend (n : Fin 4) (seq : Nat)
  /-- MGMT_FRAME_RX (R505). A management frame for Neighbor Discovery or ICMPv6 echo is answered, or dropped. -/
  | mgmtFrameRx (f : MgmtFrame)
  /-- HOK_COMMIT (R521). A write of 1 to HOK_COMMIT applies HOK_PORT and HOK_KEYS, closing sessions as needed. -/
  | hokCommit (wr : Writer)
  /-- MGMT_COMMIT (R521). A write of 1 to MGMT_COMMIT applies the management address group after the RESPONSE. -/
  | mgmtCommit (wr : Writer)
  /-- NOTIFY_COMMIT (R521). A write of 1 to NOTIFY_COMMIT applies the notification destinations. -/
  | notifyCommit (wr : Writer)
  /-- STORE_WRITE (R492). A changed persistent object is written to the configuration store under its 10 s spacing. -/
  | storeWrite (num : Nat) (res : Fin 3)
  /-- STORE_ERASE (R493). A write of 0x5A to STORE_ERASE marks the store for erasure at the next cold reset. -/
  | storeErase (wr : Writer) (v : Nat) (res : Fin 3)
  /-- LOG_CLEAR (R518). A write of 1 to LOG_CLEAR moves LOG_OLDEST_SEQ to LOG_NEXT_SEQ. -/
  | logClear (wr : Writer)
  /-- LOG_READ_SEQ_WRITE (R518). A function or session writes its own copy of LOG_READ_SEQ. -/
  | logReadSeqWrite (wr : Writer) (v : Nat)
  /-- LOG_DROPPED (R516). The log unit has room again and writes one record with the count of dropped records. -/
  | logDropped
  /-- HOST_CPL_RX (R528). A PCIe completion for a host read arrives and delivers data or ends the command with an error. -/
  | hostCplRx (r : Agent) (a : Nat) (cpl : HostCpl)
  /-- HOST_CPL_TIMEOUT (R528). A host read does not complete within HOST_CPL_TMO_US and its command ends. -/
  | hostCplTimeout (r : Agent) (a : Nat)
  /-- FLR_VF (R530). An FLR of virtual function c resets and disables context c. -/
  | flrVf (c : Fin 16)
  /-- FLR_PF (R530). An FLR of the physical function resets every context and disables contexts 1–15. -/
  | flrPf
  /-- PCIE_PERST (R530). PCIE_PERST_N, hot reset or link down resets the PCIe partition with the effects of a physical-function FLR. -/
  | pciePerst
  /-- HOST_LINK_CHANGED (R543). The PCIe link rate or width changes. -/
  | hostLinkChanged (rate : Fin 7) (width : Fin 17) (cfg : HostCfg)
  /-- COLD_RESET_RELEASE (R532). COLD_RST_N is released; the boot ROM runs, samples TEST_MODE and reads fuses. -/
  | coldResetRelease (testMode entropyOk fusesOk : Bool)
  /-- FW_VERIFY_DONE (R534). Firmware verification ends; the device proceeds, rolls back to the other bank, or enters RECOVERY. -/
  | fwVerifyDone (bad : List Nat)
  /-- DIE_POWER_DONE (R532). Main rails, dies and PLLs are up and memory training starts. -/
  | diePowerDone (rate : Fin 7) (width : Fin 17)
  /-- MEM_TRAIN_DONE (R532). Start-up memory training with the array test completes and self-test starts. -/
  | memTrainDone (slow dead : List Nat) (lanes : List (Nat × Nat × Nat))
  /-- DEVICE_READY (R532). Self-test completes and the device enters READY. -/
  | deviceReady (res : List (Fin 32 × Nat × Nat)) (cfg : HostCfg)
  /-- FW_STAGE (R537). A write to FW_STAGE writes image bytes into the inactive bank, erasing it on the first write. -/
  | fwStage (wr : Writer) (off : Nat) (data : List Byte)
  /-- FW_STAGE_COMMIT (R537). A write of 1 to FW_STAGE_COMMIT starts verification of the staged image. -/
  | fwStageCommit (wr : Writer)
  /-- FW_STAGE_VERIFY_DONE (R537). The staged image is verified to PENDING or REJECTED, restarting the device from RECOVERY if pending. -/
  | fwStageVerifyDone (bad : Bool)
  /-- FW_SVN_COMMIT (R536). A write of 1 to FW_SVN_COMMIT burns SVN fuses up to the running image's SVN. -/
  | fwSvnCommit (wr : Writer)
  /-- ATTEST_REQ (R540). A write of 1 to ATTEST_REQ captures the nonce and report values and starts signing. -/
  | attestReq (wr : Writer) (x : Fin 16)
  /-- ATTEST_DONE (R540). The signed attestation report is written and ATTEST_STATE becomes DONE. -/
  | attestDone (x : Fin 16)
  /-- ENTROPY_FAILED (R538). The entropy source fails its continuous health test. -/
  | entropyFailed
  /-- ENTROPY_RETEST (R538). Once per second a failed entropy source is retested until three pass. -/
  | entropyRetest (pass : Bool)
  /-- COLD_RST_ASSERT (R551). COLD_RST_N held low for 10 ms is a cold reset: rails off and the standby partition reset. -/
  | coldRstAssert
  /-- INPUT_LOW (R552). P48V lies in 36–40 V for 5 ms; the device keeps running and logs INPUT_LOW. -/
  | inputLow (mv : Nat)
  /-- INPUT_HIGH (R552). P48V lies in 60–62 V for 5 ms; the device logs INPUT_HIGH. -/
  | inputHigh (mv : Nat)
  /-- P48V_TRIP (R552). P48V below 36 V or above 62 V for 50 µs turns the main rails off and records TRIP_LAST. -/
  | p48vTrip (high : Bool)
  /-- P12V_SB_LOSS (R552). P12V_SB below 10.8 V for 1 ms turns the rails off and resets the standby partition. -/
  | p12vSbLoss
  /-- THROTTLE_DECISION (R555). Each 1 ms firmware reads sensors and lowers or raises a die's target under step 1. -/
  | throttleDecision (r : Sensors)
  /-- FAST_THROTTLE (R555). A sensor or input current reaches the step 2 trigger and hardware halves both core clocks. -/
  | fastThrottle (core current : Bool)
  /-- FAST_THROTTLE_RELEASE (R555). Every step 2 trigger has been clear for 1 ms and the divider is removed. -/
  | fastThrottleRelease
  /-- THERMTRIP (R555). A sensor reaches 115 °C or a DRAM 105 °C and the main rails go off with THERMTRIP_N low. -/
  | thermtrip (dram : Bool) (die : Fin 4)
  /-- TAP_RESET (R561). TRST_N low or the application of P12V_SB puts the TAP in Test-Logic-Reset with IDCODE selected. -/
  | tapReset (power : Bool)
  /-- EXTEST (R562). The EXTEST instruction drives and captures the boundary register lands. -/
  | extest (pins load : Nat)
  /-- SAMPLE_PRELOAD (R562). The SAMPLE/PRELOAD instruction samples the lands without disturbing them. -/
  | samplePreload (pins load : Nat)
  /-- CLAMP (R562). The CLAMP instruction holds the lands from the boundary register and selects bypass. -/
  | clamp
  /-- IDCODE (R564). The IDCODE instruction selects the device identification register. -/
  | idcode
  /-- HIGHZ (R562). The HIGHZ instruction releases the drivers and selects bypass. -/
  | highz
  /-- USERCODE (R564). The USERCODE instruction returns SERIAL bits [31:0]. -/
  | usercode
  /-- EXTEST_PULSE (R565). The EXTEST_PULSE instruction sends IEEE 1149.6 pulses on the AC-coupled pairs. -/
  | extestPulse (pins load : Nat)
  /-- EXTEST_TRAIN (R562). The EXTEST_TRAIN instruction sends IEEE 1149.6 pulse trains on the AC-coupled pairs. -/
  | extestTrain (pins load : Nat)
  /-- BYPASS (R562). The BYPASS instruction, or any unlisted code, selects the bypass register. -/
  | bypass (code : Fin 256)
  /-- PICOT_ROW_RETURN (R309). A table row that Picot issued returns from memory and is decoded and combined into its output or merged for an update. -/
  | picotRowReturn (id p : Nat) (res : ReadRes)
  /-- MGMT_LINK_UP (R504). The 1000BASE-T management port completes auto-negotiation and MGMT_LINK becomes UP. -/
  | mgmtLinkUp
  /-- MGMT_LINK_DOWN (R504). The management port loses its link and MGMT_LINK becomes DOWN. -/
  | mgmtLinkDown
  /-- P48V_IN_RANGE (R550). P48V returns within 40–60 V and ALERT_CAUSE bit 6 clears, with no shutdown in force. -/
  | p48vInRange
  deriving DecidableEq, Repr

end Sys2Proof
end

