-- ==== Sys2Proof/Decode.lean ====
section
/-!
DEFINITION. Sys2Proof/Decode.lean: the table of commands gives no row any bits: a command is an event on a register, a link or a pin,
not a word that the block fetches. No word spells one.
-/
namespace Sys2Proof

/-- The command a word spells by the table's bits: none, for every word. Log entry 10. -/
def decodeTableWord (_nbits _w : Nat) : Option Instr := none

end Sys2Proof
end

