-- ==== Sys2Proof/Config.lean ====
section
/-!
DEFINITION. Sys2Proof/Config.lean: what one module fixes (fuses, programmed identity) and the free values, which the
spec leaves open. Each is an opaque constant without a body: nothing in Lean can evaluate it, so whatever is proved
holds for every value of it. Log entries 20 to 29 name them.
-/
namespace Sys2Proof.Config

/-- SERIAL as fused (Table 18.11). -/
opaque serial : Nat
/-- MAC_BASE as fused, bits [47:0] (Table 18.11). -/
opaque macBase : Nat
/-- ROM_VERSION as fused (Table 18.11). -/
opaque romVersion : Nat
/-- The 97 bytes of ID_PUBKEY (Table 18.11). -/
opaque idPubkey : List Nat
/-- The bytes of ID_CERT as programmed (Table 18.11). -/
opaque idCert : List Nat
/-- The vendor and version bits of the device identification register that R564 leaves open. -/
opaque jtagVendorBits : Nat

/-- A free value: the n-th one drawn. The step that draws it advances the counter `State.free`, so no two draws are
related (AN UNDEFINED VALUE of the spec, after which the machine goes on). -/
opaque freeValue : Nat → Nat

/-- The entropy source's n-th draw of a number (R538): nonces, incarnations, key pairs. -/
opaque entropy : Nat → Nat

/-- RECIP of a W32 code: R184 bounds its error to 1 unit in the last place and does not fix the bit. -/
opaque recip : Nat → Nat
/-- RSQRT of a W32 code (R184, as `recip`). -/
opaque rsqrt : Nat → Nat
/-- EXP2 of a W32 code: R184 bounds its error to 2 units in the last place. -/
opaque exp2 : Nat → Nat
/-- LOG2 of a W32 code (R184, as `exp2`). -/
opaque log2 : Nat → Nat

/-- SHA-256 (FIPS 180-4) of a string of bytes, as a number. The spec names the standard and does not restate it. -/
opaque sha256 : List Nat → Nat
/-- SHA-384 (FIPS 180-4) of a string of bytes, as a number. -/
opaque sha384 : List Nat → Nat
/-- ECDSA P-384 verification (FIPS 186-5): key bytes, message bytes, signature. -/
opaque ecdsaVerify : List Nat → List Nat → Nat → Bool
/-- ECDSA P-384 signature of the device's identity key over a message, with a deterministic nonce (R539). -/
opaque ecdsaSign : List Nat → Nat
/-- HMAC-SHA-256 (FIPS 198-1): key, message. -/
opaque hmac : Nat → List Nat → Nat
/-- The x-coordinate of the ECDH product (NIST SP 800-56A): ephemeral private draw, peer's public point. -/
opaque ecdh : Nat → List Nat → Nat
/-- The public point of an ephemeral key pair drawn from the entropy source. -/
opaque ephPublic : Nat → List Nat
/-- HKDF with SHA-256 (RFC 5869): salt, input, info; 64 bytes of output as a number. -/
opaque hkdf : List Nat → Nat → List Nat → Nat

/-- The 4 bytes that a swatch shows for the tag of a block (R456 gives their number and not their layout), by the tag as
the model keeps it: 1 + context + 32 × chain. -/
opaque tagCode : Nat → Nat
/-- The bytes of the firmware bank as manufactured: bank, offset (R534 lays an image out and gives no content). -/
opaque bankImage : Nat → Nat → Nat
/-- The fused SHA-384 digest of the root key of a slot, 0 or 1 (R535). -/
opaque rootDigest : Nat → Nat
/-- FW_SVN_FUSE at manufacture: burned bits (R536). -/
opaque svnFuse : Nat
/-- What a byte of an erased flash bank reads as: the spec gives no value. -/
opaque erasedByte : Nat

end Sys2Proof.Config
end

