-- ==== Sys2Proof/Machine/ObjNum.lean ====
section
/-!
DEFINITION. Sys2Proof/Machine/ObjNum.lean: the number of every object of the dictionary (R490, R519), one name each,
as a function of the indices the owning table's number carries (context x, queue q, core n, port p, die d, …).
The table's pattern B.10.0dk gives die 0 the numbers B.10.000 to B.10.002, which the same table gives to CLOCK_ID, DVFS_MODE and
LC_FLOOR_MHZ: these three keep them, and FREQ_NOW_MHZ, FREQ_MIN_MHZ and FREQ_MAX_MHZ of C0 have the numbers B.10.100 to B.10.102
(DESIGN CHOICE, log entry 12). Every other object of the pattern has the table's number.
-/
namespace Sys2Proof.Machine

/-- 4.00.000 FMT_TABLE_ID: U16 RO, default 0x0100 (Table 02.13, R70). -/
def Obj.fmtTableId : Nat := 0x400000

/-- 4.00.001 FMT_SUPPORTED: BITS RO, default 0x83FF (Table 02.13, R70). -/
def Obj.fmtSupported : Nat := 0x400001

/-- 4.2x.000 DEF_RND: ENUM RW, default 0 (Table 02.13, R70). -/
def Obj.defRnd (x : Nat) : Nat := 0x420000 + x * 0x1000

/-- 4.2x.010 SAT_COUNT: U64 RC, default 0 (Table 02.13, R70). -/
def Obj.satCount (x : Nat) : Nat := 0x420010 + x * 0x1000

/-- 4.2x.011 OVF_COUNT: U64 RC, default 0 (Table 02.13, R70). -/
def Obj.ovfCount (x : Nat) : Nat := 0x420011 + x * 0x1000

/-- 4.2x.012 NONFINITE_COUNT: U64 RC, default 0 (Table 02.13, R70). -/
def Obj.nonfiniteCount (x : Nat) : Nat := 0x420012 + x * 0x1000

/-- 4.2x.013 POISON_IN_COUNT: U64 RC, default 0 (Table 02.13, R70). -/
def Obj.poisonInCount (x : Nat) : Nat := 0x420013 + x * 0x1000

/-- 4.2x.014 POISON_LOST_COUNT: U64 RC, default 0 (Table 02.13, R70). -/
def Obj.poisonLostCount (x : Nat) : Nat := 0x420014 + x * 0x1000

/-- 4.2x.015 HOLE_COUNT: U64 RC, default 0 (Table 02.13, R70). -/
def Obj.holeCount (x : Nat) : Nat := 0x420015 + x * 0x1000

/-- 4.2x.016 CODE_FAULT_COUNT: U64 RC, default 0 (Table 02.13, R70). -/
def Obj.codeFaultCount (x : Nat) : Nat := 0x420016 + x * 0x1000

/-- 4.2x.017 FLUSH_COUNT: U64 RC, default 0 (Table 02.13, R70). -/
def Obj.flushCount (x : Nat) : Nat := 0x420017 + x * 0x1000

/-- 4.2x.018 CONV_ELEMENTS: U64 RC, default 0 (Table 02.13, R70). -/
def Obj.convElements (x : Nat) : Nat := 0x420018 + x * 0x1000

/-- 4.2x.020 CONV_STICKY: BITS RC, default 0x00 (Table 02.13, R70). -/
def Obj.convSticky (x : Nat) : Nat := 0x420020 + x * 0x1000

/-- 4.2x.030 POISON_ACTION: ENUM RW, default 0 (Table 02.13, R70). -/
def Obj.poisonAction (x : Nat) : Nat := 0x420030 + x * 0x1000

/-- 2.00.000 CTX_COUNT: U8 RO, default 16 (Table 03.15, R111). -/
def Obj.ctxCount : Nat := 0x200000

/-- 2.00.001 PRIV_MAX: U8 RO, default 4 (Table 03.15, R111). -/
def Obj.privMax : Nat := 0x200001

/-- 2.00.002 PRIV_COUNT: U8 RO, default 1 (Table 03.15, R111). -/
def Obj.privCount : Nat := 0x200002

/-- 2.00.010 DOORBELL_INVALID_COUNT: U64 RC, default 0 (Table 03.15, R111). -/
def Obj.doorbellInvalidCount : Nat := 0x200010

/-- 2.00.011 ACCESS_DENIED_COUNT: U64 RC, default 0 (Table 03.15, R111). -/
def Obj.accessDeniedCount : Nat := 0x200011

/-- 2.2x.000 SEG_TABLE: BLOB RWC, default 0 (Table 03.15, R111). -/
def Obj.segTable (x : Nat) : Nat := 0x220000 + x * 0x1000

/-- 2.2x.001 SEG_COMMIT: U8 RW, default 0 (Table 03.15, R111). -/
def Obj.segCommit (x : Nat) : Nat := 0x220001 + x * 0x1000

/-- 2.2x.010 CTX_CTRL: ENUM WO, default — (Table 03.15, R111). -/
def Obj.ctxCtrl (x : Nat) : Nat := 0x220010 + x * 0x1000

/-- 2.2x.011 CTX_STATE: ENUM RO, default 1 for x = 0, else 0 (Table 03.15, R111). -/
def Obj.ctxState (x : Nat) : Nat := 0x220011 + x * 0x1000

/-- 2.2x.012 PRIV: BITS RW, default 1 for x = 0, else 0 (Table 03.15, R111). -/
def Obj.priv (x : Nat) : Nat := 0x220012 + x * 0x1000

/-- 2.2x.013 CTX_CLASS: ENUM RWC, default 1 (Table 03.15, R111). -/
def Obj.ctxClass (x : Nat) : Nat := 0x220013 + x * 0x1000

/-- 2.2x.014 HOME_DIE: ENUM RWC, default 0 (Table 03.15, R111). -/
def Obj.homeDie (x : Nat) : Nat := 0x220014 + x * 0x1000

/-- 2.2x.015 FAULT_SCOPE: ENUM RWC, default 1 (Table 03.15, R111). -/
def Obj.faultScope (x : Nat) : Nat := 0x220015 + x * 0x1000

/-- 2.2x.01F CTX_COMMIT: U8 RW, default 0 (Table 03.15, R111). -/
def Obj.ctxCommit (x : Nat) : Nat := 0x22001F + x * 0x1000

/-- 2.2x.020 STEP_NUM: U64 RW, default 0 (Table 03.15, R111). -/
def Obj.stepNum (x : Nat) : Nat := 0x220020 + x * 0x1000

/-- 2.2x.021 WAIT_TMO: U32 RW, default 1,000,000 (Table 03.15, R111). -/
def Obj.waitTmo (x : Nat) : Nat := 0x220021 + x * 0x1000

/-- 2.2x.022 FAULT_STATUS: U16 RO, default 0 (Table 03.15, R111). -/
def Obj.faultStatus (x : Nat) : Nat := 0x220022 + x * 0x1000

/-- 2.2x.023 FAULT_QUEUE: ENUM RO, default 0 (Table 03.15, R111). -/
def Obj.faultQueue (x : Nat) : Nat := 0x220023 + x * 0x1000

/-- 2.2x.024 FAULT_DETAIL: U32 RO, default 0 (Table 03.15, R111). -/
def Obj.faultDetail (x : Nat) : Nat := 0x220024 + x * 0x1000

/-- 2.2x.025 FAULT_COUNT: U64 RC, default 0 (Table 03.15, R111). -/
def Obj.faultCount (x : Nat) : Nat := 0x220025 + x * 0x1000

/-- 2.2x.030 EVENTS: BLOB RO, default 0 (Table 03.15, R111). -/
def Obj.events (x : Nat) : Nat := 0x220030 + x * 0x1000

/-- 2.2x.031 TIMERS_ARMED: BITS RO, default 0x00 (Table 03.15, R111). -/
def Obj.timersArmed (x : Nat) : Nat := 0x220031 + x * 0x1000

/-- 2.2x.032 DEADLINE_MISS_COUNT: U64 RC, default 0 (Table 03.15, R111). -/
def Obj.deadlineMissCount (x : Nat) : Nat := 0x220032 + x * 0x1000

/-- 2.2x.1q0 SQ_BASE: U64 RWC, default 0 (Table 03.15, R111). -/
def Obj.sqBase (x q : Nat) : Nat := 0x220100 + x * 0x1000 + q * 0x10

/-- 2.2x.1q1 SQ_LOG2: U8 RWC, default 8 (Table 03.15, R111). -/
def Obj.sqLog2 (x q : Nat) : Nat := 0x220101 + x * 0x1000 + q * 0x10

/-- 2.2x.1q2 CQ_BASE: U64 RWC, default 0 (Table 03.15, R111). -/
def Obj.cqBase (x q : Nat) : Nat := 0x220102 + x * 0x1000 + q * 0x10

/-- 2.2x.1q3 CQ_LOG2: U8 RWC, default 8 (Table 03.15, R111). -/
def Obj.cqLog2 (x q : Nat) : Nat := 0x220103 + x * 0x1000 + q * 0x10

/-- 2.2x.1q4 IRQ_EN: BITS RWC, default 0 (Table 03.15, R111). -/
def Obj.irqEn (x q : Nat) : Nat := 0x220104 + x * 0x1000 + q * 0x10

/-- 2.2x.1q7 Q_COMMIT: U8 RW, default 0 (Table 03.15, R111). -/
def Obj.qCommit (x q : Nat) : Nat := 0x220107 + x * 0x1000 + q * 0x10

/-- 2.2x.1q8 Q_STATE: ENUM RO, default 0 (Table 03.15, R111). -/
def Obj.qState (x q : Nat) : Nat := 0x220108 + x * 0x1000 + q * 0x10

/-- 2.2x.1q9 SQ_HEAD: U32 RO, default 0 (Table 03.15, R111). -/
def Obj.sqHead (x q : Nat) : Nat := 0x220109 + x * 0x1000 + q * 0x10

/-- 2.2x.1qA SQ_TAIL: U32 RO, default 0 (Table 03.15, R111). -/
def Obj.sqTail (x q : Nat) : Nat := 0x22010A + x * 0x1000 + q * 0x10

/-- 2.2x.1qB CQ_TAIL: U32 RO, default 0 (Table 03.15, R111). -/
def Obj.cqTail (x q : Nat) : Nat := 0x22010B + x * 0x1000 + q * 0x10

/-- 2.2x.1qC CQ_HEAD: U32 RO, default 0 (Table 03.15, R111). -/
def Obj.cqHead (x q : Nat) : Nat := 0x22010C + x * 0x1000 + q * 0x10

/-- 2.2x.1qD Q_CTRL: ENUM WO, default — (Table 03.15, R111). -/
def Obj.qCtrl (x q : Nat) : Nat := 0x22010D + x * 0x1000 + q * 0x10

/-- 2.2x.1qE CMD_DONE: U64 RC, default 0 (Table 03.15, R111). -/
def Obj.cmdDone (x q : Nat) : Nat := 0x22010E + x * 0x1000 + q * 0x10

/-- 2.2x.1qF LANE_MISS: U64 RC, default 0 (Table 03.15, R111). -/
def Obj.laneMiss (x q : Nat) : Nat := 0x22010F + x * 0x1000 + q * 0x10

/-- 3.00.000 PRICKING_ID: U16 RO, default 0x0100 (Table 04.10, R144). -/
def Obj.prickingId : Nat := 0x300000

/-- 3.00.010 SLICE_LC_US: U32 RW, default 200 (Table 04.10, R144). -/
def Obj.sliceLcUs : Nat := 0x300010

/-- 3.00.011 SLICE_BE_US: U32 RW, default 200 (Table 04.10, R144). -/
def Obj.sliceBeUs : Nat := 0x300011

/-- 3.00.012 BE_MIN_SHARE: U8 RW, default 0 (Table 04.10, R144). -/
def Obj.beMinShare : Nat := 0x300012

/-- 3.00.013 NP_CORES_MAX: U8 RW, default 4 (Table 04.10, R144). -/
def Obj.npCoresMax : Nat := 0x300013

/-- 3.00.014 CHAIN_MAX: U16 RW, default 64 (Table 04.10, R144). -/
def Obj.chainMax : Nat := 0x300014

/-- 3.00.015 SWATCH_BOUND_US: U8 RO, default 8 (Table 04.10, R144). -/
def Obj.swatchBoundUs : Nat := 0x300015

/-- 3.00.016 NP_EFF: U16 RO, default 0x0404 (Table 04.10, R144). -/
def Obj.npEff : Nat := 0x300016

/-- 3.00.020 FENCE_FW: BITS RO, default 0 (Table 04.10, R144). -/
def Obj.fenceFw : Nat := 0x300020

/-- 3.00.021 FENCE_SW: BITS RW, default 0 (Table 04.10, R144). -/
def Obj.fenceSw : Nat := 0x300021

/-- 3.00.022 FENCED: BITS RO, default 0 (Table 04.10, R144). -/
def Obj.fenced : Nat := 0x300022

/-- 3.00.030 LC_OWNER: U8 RO, default 0xFF (Table 04.10, R144). -/
def Obj.lcOwner : Nat := 0x300030

/-- 3.00.031 BE_OWNER: U8 RO, default 0xFF (Table 04.10, R144). -/
def Obj.beOwner : Nat := 0x300031

/-- 3.00.040 LC_DISPATCH_MAX_NS: U32 RC, default 0 (Table 04.10, R144). -/
def Obj.lcDispatchMaxNs : Nat := 0x300040

/-- 3.00.041 LC_DISPATCH_OVER: U64 RC, default 0 (Table 04.10, R144). -/
def Obj.lcDispatchOver : Nat := 0x300041

/-- 3.00.042 SAVE_COUNT: U64 RC, default 0 (Table 04.10, R144). -/
def Obj.saveCount : Nat := 0x300042

/-- 3.00.043 SECTION_OVERRUN_COUNT: U64 RC, default 0 (Table 04.10, R144). -/
def Obj.sectionOverrunCount : Nat := 0x300043

/-- 3.2x.000 DEBT_NS: U32 RO, default 0 (Table 04.10, R144). -/
def Obj.debtNs (x : Nat) : Nat := 0x320000 + x * 0x1000

/-- 3.2x.001 CORE_TIME_NS: U64 RC, default 0 (Table 04.10, R144). -/
def Obj.coreTimeNs (x : Nat) : Nat := 0x320001 + x * 0x1000

/-- 3.2x.002 LC_DISPATCH_MAX_NS: U32 RC, default 0 (Table 04.10, R144). -/
def Obj.ctxLcDispatchMaxNs (x : Nat) : Nat := 0x320002 + x * 0x1000

/-- 3.2x.003 BE_WAIT_MAX_NS: U32 RC, default 0 (Table 04.10, R144). -/
def Obj.beWaitMaxNs (x : Nat) : Nat := 0x320003 + x * 0x1000

/-- 3.2x.004 PREEMPTED: U64 RC, default 0 (Table 04.10, R144). -/
def Obj.preempted (x : Nat) : Nat := 0x320004 + x * 0x1000

/-- 3.2x.005 OVERRUN_COUNT: U64 RC, default 0 (Table 04.10, R144). -/
def Obj.overrunCount (x : Nat) : Nat := 0x320005 + x * 0x1000

/-- 3.2x.006 DEFERRED_TILES: U64 RC, default 0 (Table 04.10, R144). -/
def Obj.deferredTiles (x : Nat) : Nat := 0x320006 + x * 0x1000

/-- 3.2x.007 YIELD_COUNT: U64 RC, default 0 (Table 04.10, R144). -/
def Obj.yieldCount (x : Nat) : Nat := 0x320007 + x * 0x1000

/-- 3.bb.000 CORE_STATE: ENUM RO, default 0 (Table 04.10, R144). -/
def Obj.coreState (n : Nat) : Nat := 0x340000 + n * 0x1000

/-- 3.bb.001 CORE_CTX: U8 RO, default 0xFF (Table 04.10, R144). -/
def Obj.coreCtx (n : Nat) : Nat := 0x340001 + n * 0x1000

/-- 3.bb.002 CORE_SPILL: U8 RO, default 0xFF (Table 04.10, R144). -/
def Obj.coreSpill (n : Nat) : Nat := 0x340002 + n * 0x1000

/-- 3.bb.003 CORE_TILES: U64 RC, default 0 (Table 04.10, R144). -/
def Obj.coreTiles (n : Nat) : Nat := 0x340003 + n * 0x1000

/-- 4.50.000 PILLOW_ID: U16 RO, default 0x0100 (Table 05.9, R173). -/
def Obj.pillowId : Nat := 0x450000

/-- 4.50.001 PILLOW_GEOM: U32 RO, default 0x0080_0200 (Table 05.9, R173). -/
def Obj.pillowGeom : Nat := 0x450001

/-- 4.50.002 DRAIN_BUF_BYTES: U32 RO, default 262,144 (Table 05.9, R173). -/
def Obj.drainBufBytes : Nat := 0x450002

/-- 4.2x.040 ACC_SAT_COUNT: U64 RC, default 0 (Table 05.9, R173). -/
def Obj.accSatCount (x : Nat) : Nat := 0x420040 + x * 0x1000

/-- 4.2x.041 PILLOW_CYCLES: U64 RC, default 0 (Table 05.9, R173). -/
def Obj.pillowCycles (x : Nat) : Nat := 0x420041 + x * 0x1000

/-- 4.2x.042 FEED_STALL_CYCLES: U64 RC, default 0 (Table 05.9, R173). -/
def Obj.feedStallCycles (x : Nat) : Nat := 0x420042 + x * 0x1000

/-- 4.2x.043 REBLOCK_ROUNDED: U64 RC, default 0 (Table 05.9, R173). -/
def Obj.reblockRounded (x : Nat) : Nat := 0x420043 + x * 0x1000

/-- 4.2x.044 REDRAIN_COUNT: U64 RC, default 0 (Table 05.9, R173). -/
def Obj.redrainCount (x : Nat) : Nat := 0x420044 + x * 0x1000

/-- 4.nn.000 PILLOW_BUSY: U64 RC, default 0 (Table 05.9, R173). -/
def Obj.pillowBusy (n : Nat) : Nat := 0x460000 + n * 0x1000

/-- 4.nn.001 FEED_BYTES: U64 RC, default 0 (Table 05.9, R173). -/
def Obj.feedBytes (n : Nat) : Nat := 0x460001 + n * 0x1000

/-- 4.nn.002 STREAM_STALL: U64 RC, default 0 (Table 05.9, R173). -/
def Obj.streamStall (n : Nat) : Nat := 0x460002 + n * 0x1000

/-- 4.nn.003 DRAIN_WAIT: U64 RC, default 0 (Table 05.9, R173). -/
def Obj.drainWait (n : Nat) : Nat := 0x460003 + n * 0x1000

/-- 4.51.000 NEEDLE_ID: U16 RO, default 0x0100 (Table 06.12, R202). -/
def Obj.needleId : Nat := 0x451000

/-- 4.51.001 NEEDLE_GEOM: U32 RO, default 0x0808_0420 (Table 06.12, R202). -/
def Obj.needleGeom : Nat := 0x451001

/-- 4.2x.050 NEEDLE_CYCLES: U64 RC, default 0 (Table 06.12, R202). -/
def Obj.needleCycles (x : Nat) : Nat := 0x420050 + x * 0x1000

/-- 4.2x.051 ISAT_COUNT: U64 RC, default 0 (Table 06.12, R202). -/
def Obj.isatCount (x : Nat) : Nat := 0x420051 + x * 0x1000

/-- 4.2x.052 FSAT_COUNT: U64 RC, default 0 (Table 06.12, R202). -/
def Obj.fsatCount (x : Nat) : Nat := 0x420052 + x * 0x1000

/-- 4.2x.053 DOMAIN_COUNT: U64 RC, default 0 (Table 06.12, R202). -/
def Obj.domainCount (x : Nat) : Nat := 0x420053 + x * 0x1000

/-- 4.2x.054 RED_EMITS: U64 RC, default 0 (Table 06.12, R202). -/
def Obj.redEmits (x : Nat) : Nat := 0x420054 + x * 0x1000

/-- 4.nn.010 NEEDLE_BUSY: U64 RC, default 0 (Table 06.12, R202). -/
def Obj.needleBusy (n : Nat) : Nat := 0x460010 + n * 0x1000

/-- 4.nn.011 NEEDLE_PORT_STALL: U64 RC, default 0 (Table 06.12, R202). -/
def Obj.needlePortStall (n : Nat) : Nat := 0x460011 + n * 0x1000

/-- 4.52.000 HOOP_ID: U16 RO, default 0x0100 (Table 07.11, R226). -/
def Obj.hoopId : Nat := 0x452000

/-- 4.52.001 HOOP_SLOTS: U16 RO, default 1,024 (Table 07.11, R226). -/
def Obj.hoopSlots : Nat := 0x452001

/-- 4.52.002 SR_GEN_ID: U16 RO, default 0x0100 (Table 07.11, R226). -/
def Obj.srGenId : Nat := 0x452002

/-- 4.2x.060 SR_SEED: U64 RW, default 0 (Table 07.11, R226). -/
def Obj.srSeed (x : Nat) : Nat := 0x420060 + x * 0x1000

/-- 4.2x.061 UF_ENABLE: ENUM RW, default 1 (Table 07.11, R226). -/
def Obj.ufEnable (x : Nat) : Nat := 0x420061 + x * 0x1000

/-- 4.2x.062 UF_THRESH: U16 RW, default 9,990 (Table 07.11, R226). -/
def Obj.ufThresh (x : Nat) : Nat := 0x420062 + x * 0x1000

/-- 4.2x.063 UF_STEPS: U16 RW, default 64 (Table 07.11, R226). -/
def Obj.ufSteps (x : Nat) : Nat := 0x420063 + x * 0x1000

/-- 4.2x.064 RECOMP_MODE: ENUM RW, default 0 (Table 07.11, R226). -/
def Obj.recompMode (x : Nat) : Nat := 0x420064 + x * 0x1000

/-- 4.2x.065 WIDE_LOG_BASE: U64 RWC, default 0 (Table 07.11, R226). -/
def Obj.wideLogBase (x : Nat) : Nat := 0x420065 + x * 0x1000

/-- 4.2x.066 WIDE_LOG_LOG2: U8 RWC, default 8 (Table 07.11, R226). -/
def Obj.wideLogLog2 (x : Nat) : Nat := 0x420066 + x * 0x1000

/-- 4.2x.067 WIDE_LOG_COMMIT: U8 RW, default 0 (Table 07.11, R226). -/
def Obj.wideLogCommit (x : Nat) : Nat := 0x420067 + x * 0x1000

/-- 4.2x.068 WIDE_LOG_TAIL: U32 RO, default 0 (Table 07.11, R226). -/
def Obj.wideLogTail (x : Nat) : Nat := 0x420068 + x * 0x1000

/-- 4.2x.069 WIDE_LOG_DROP: U64 RC, default 0 (Table 07.11, R226). -/
def Obj.wideLogDrop (x : Nat) : Nat := 0x420069 + x * 0x1000

/-- 4.2x.070 RECOMP1_COUNT: U64 RC, default 0 (Table 07.11, R226). -/
def Obj.recomp1Count (x : Nat) : Nat := 0x420070 + x * 0x1000

/-- 4.2x.071 RECOMP2_COUNT: U64 RC, default 0 (Table 07.11, R226). -/
def Obj.recomp2Count (x : Nat) : Nat := 0x420071 + x * 0x1000

/-- 4.2x.072 PROBE_TILES: U64 RC, default 0 (Table 07.11, R226). -/
def Obj.probeTiles (x : Nat) : Nat := 0x420072 + x * 0x1000

/-- 4.2x.073 PROBED_SLOTS: U64 RC, default 0 (Table 07.11, R226). -/
def Obj.probedSlots (x : Nat) : Nat := 0x420073 + x * 0x1000

/-- 4.2x.074 UF_EVENTS: U64 RC, default 0 (Table 07.11, R226). -/
def Obj.ufEvents (x : Nat) : Nat := 0x420074 + x * 0x1000

/-- 4.2x.075 HISTORY_LOST: U64 RC, default 0 (Table 07.11, R226). -/
def Obj.historyLost (x : Nat) : Nat := 0x420075 + x * 0x1000

/-- 4.3x.000 HOOP_RECORDS: BLOB RWC, default 0 (Table 07.11, R226). -/
def Obj.hoopRecords (x : Nat) : Nat := 0x430000 + x * 0x1000

/-- 4.3x.001 HOOP_COMMIT: U8 RW, default 0 (Table 07.11, R226). -/
def Obj.hoopCommit (x : Nat) : Nat := 0x430001 + x * 0x1000

/-- 4.3x.002 HOOP_IMAGE: BLOB RW, default 0 (Table 07.11, R226). -/
def Obj.hoopImage (x : Nat) : Nat := 0x430002 + x * 0x1000

/-- 4.3x.003 HOOP_FORGET: U16 WO, default — (Table 07.11, R226). -/
def Obj.hoopForget (x : Nat) : Nat := 0x430003 + x * 0x1000

/-- 5.00.000 ONCHIP_ID: U16 RO, default 0x0100 (Table 08.10, R261). -/
def Obj.onchipId : Nat := 0x500000

/-- 5.00.001 NEAR_GEOM: U32 RO, default 0x0010_0080 (Table 08.10, R261). -/
def Obj.nearGeom : Nat := 0x500001

/-- 5.00.010 NEAR_AGENT_MIN: U8 RW, default 5 (Table 08.10, R261). -/
def Obj.nearAgentMin : Nat := 0x500010

/-- 5.00.011 NEAR_REFRESH: ENUM RO, default 0 (Table 08.10, R261). -/
def Obj.nearRefresh : Nat := 0x500011

/-- 5.00.012 SCRUB_HOURS: U8 RW, default 12 (Table 08.10, R261). -/
def Obj.scrubHours : Nat := 0x500012

/-- 5.00.020 CE_SCRATCH: U64 RC, default 0 (Table 08.10, R261). -/
def Obj.ceScratch : Nat := 0x500020

/-- 5.00.021 CE_STAGING: U64 RC, default 0 (Table 08.10, R261). -/
def Obj.ceStaging : Nat := 0x500021

/-- 5.00.022 CE_NEAR: U64 RC, default 0 (Table 08.10, R261). -/
def Obj.ceNear : Nat := 0x500022

/-- 5.00.023 UE_COUNT: U64 RC, default 0 (Table 08.10, R261). -/
def Obj.ueCount : Nat := 0x500023

/-- 5.00.030 BOBBIN_CHUNKS: U16 RO, default 8,192 (Table 08.10, R261). -/
def Obj.bobbinChunks : Nat := 0x500030

/-- 5.2x.000 BOBBIN_BYTES: U64 RC, default 0 (Table 08.10, R261). -/
def Obj.bobbinBytes (x : Nat) : Nat := 0x520000 + x * 0x1000

/-- 5.2x.001 STREAM_MISS_COUNT: U64 RC, default 0 (Table 08.10, R261). -/
def Obj.streamMissCount (x : Nat) : Nat := 0x520001 + x * 0x1000

/-- 5.2x.002 STREAM_LATE_MAX_NS: U32 RC, default 0 (Table 08.10, R261). -/
def Obj.streamLateMaxNs (x : Nat) : Nat := 0x520002 + x * 0x1000

/-- 5.2x.003 REARM_COLLAPSED: U64 RC, default 0 (Table 08.10, R261). -/
def Obj.rearmCollapsed (x : Nat) : Nat := 0x520003 + x * 0x1000

/-- 5.2x.004 PACK_DROP: U64 RC, default 0 (Table 08.10, R261). -/
def Obj.packDrop (x : Nat) : Nat := 0x520004 + x * 0x1000

/-- 5.2x.005 PACK_LOSSY: U64 RC, default 0 (Table 08.10, R261). -/
def Obj.packLossy (x : Nat) : Nat := 0x520005 + x * 0x1000

/-- 5.2x.006 PACK_GRANULES: U64 RC, default 0 (Table 08.10, R261). -/
def Obj.packGranules (x : Nat) : Nat := 0x520006 + x * 0x1000

/-- 5.2x.1s0 STREAM_SHADOW: BLOB RW, default 0 (Table 08.10, R261). -/
def Obj.streamShadow (x s : Nat) : Nat := 0x520100 + x * 0x1000 + s * 0x10

/-- 5.2x.1s1 STREAM_REARM: U8 WO, default — (Table 08.10, R261). -/
def Obj.streamRearm (x s : Nat) : Nat := 0x520101 + x * 0x1000 + s * 0x10

/-- 5.2x.1s2 STREAM_ACTIVE: BLOB RO, default 0 (Table 08.10, R261). -/
def Obj.streamActive (x s : Nat) : Nat := 0x520102 + x * 0x1000 + s * 0x10

/-- 5.2x.1s3 STREAM_STATE: ENUM RO, default 0 (Table 08.10, R261). -/
def Obj.streamState (x s : Nat) : Nat := 0x520103 + x * 0x1000 + s * 0x10

/-- 5.2x.1s4 STREAM_XFER: U32 RO, default 0 (Table 08.10, R261). -/
def Obj.streamXfer (x s : Nat) : Nat := 0x520104 + x * 0x1000 + s * 0x10

/-- 5.2x.1s5 STREAM_PENDING: BITS RO, default 0 (Table 08.10, R261). -/
def Obj.streamPending (x s : Nat) : Nat := 0x520105 + x * 0x1000 + s * 0x10

/-- 5.2x.2r0 PACK_BASE: U64 RWC, default 0 (Table 08.10, R261). -/
def Obj.packBase (x r : Nat) : Nat := 0x520200 + x * 0x1000 + r * 0x10

/-- 5.2x.2r1 PACK_LEN: U64 RWC, default 0 (Table 08.10, R261). -/
def Obj.packLen (x r : Nat) : Nat := 0x520201 + x * 0x1000 + r * 0x10

/-- 5.2x.2r2 PACK_FMT: ENUM RWC, default 0x2 (Table 08.10, R261). -/
def Obj.packFmt (x r : Nat) : Nat := 0x520202 + x * 0x1000 + r * 0x10

/-- 5.2x.2r3 PACK_S: U8 RWC, default 3 (Table 08.10, R261). -/
def Obj.packS (x r : Nat) : Nat := 0x520203 + x * 0x1000 + r * 0x10

/-- 5.2x.2r7 PACK_COMMIT: U8 RW, default 0 (Table 08.10, R261). -/
def Obj.packCommit (x r : Nat) : Nat := 0x520207 + x * 0x1000 + r * 0x10

/-- 5.bb.000 PB_OWNER: U8 RWC, default 0xFF (Table 08.10, R261). -/
def Obj.pbOwner (b : Nat) : Nat := 0x540000 + b * 0x1000

/-- 5.bb.001 PB_BASE: U64 RWC, default 0 (Table 08.10, R261). -/
def Obj.pbBase (b : Nat) : Nat := 0x540001 + b * 0x1000

/-- 5.bb.002 PB_NSLOT: U8 RWC, default 2 (Table 08.10, R261). -/
def Obj.pbNslot (b : Nat) : Nat := 0x540002 + b * 0x1000

/-- 5.bb.003 PB_SLOT_KIB: U32 RWC, default 64 (Table 08.10, R261). -/
def Obj.pbSlotKib (b : Nat) : Nat := 0x540003 + b * 0x1000

/-- 5.bb.004 PB_REL_EVT: U8 RWC, default 0 (Table 08.10, R261). -/
def Obj.pbRelEvt (b : Nat) : Nat := 0x540004 + b * 0x1000

/-- 5.bb.00F PB_COMMIT: U8 RW, default 0 (Table 08.10, R261). -/
def Obj.pbCommit (b : Nat) : Nat := 0x54000F + b * 0x1000

/-- 5.bb.010 PB_GEN: U8 RO, default 0 (Table 08.10, R261). -/
def Obj.pbGen (b : Nat) : Nat := 0x540010 + b * 0x1000

/-- 5.bb.011 PB_FILL: U32 RO, default 0 (Table 08.10, R261). -/
def Obj.pbFill (b : Nat) : Nat := 0x540011 + b * 0x1000

/-- 5.bb.012 PB_REL_BASE: U64 RO, default 0 (Table 08.10, R261). -/
def Obj.pbRelBase (b : Nat) : Nat := 0x540012 + b * 0x1000

/-- 5.bb.013 PB_CREDITS_FREE: U32 RO, default 0 (Table 08.10, R261). -/
def Obj.pbCreditsFree (b : Nat) : Nat := 0x540013 + b * 0x1000

/-- 5.bb.014 PB_DISCARDED: U64 RC, default 0 (Table 08.10, R261). -/
def Obj.pbDiscarded (b : Nat) : Nat := 0x540014 + b * 0x1000

/-- 5.bb.015 PB_WAIT_NS: U64 RC, default 0 (Table 08.10, R261). -/
def Obj.pbWaitNs (b : Nat) : Nat := 0x540015 + b * 0x1000

/-- 5.01.000 EXTMEM_ID: U16 RO, default 0x0100 (Table 09.11, R301). -/
def Obj.extmemId : Nat := 0x501000

/-- 5.01.001 FAST_RATE_MBPS: U32 RO, default 24,576,000 (Table 09.11, R301). -/
def Obj.fastRateMbps : Nat := 0x501001

/-- 5.01.002 SLOW_RATE_MTS: U16 RO, default 9,600 (Table 09.11, R301). -/
def Obj.slowRateMts : Nat := 0x501002

/-- 5.01.003 HALF_ONLINE: BITS RO, default 0xF (Table 09.11, R301). -/
def Obj.halfOnline : Nat := 0x501003

/-- 5.01.010 ECC_MODE: ENUM RW, default 0 (Table 09.11, R301). -/
def Obj.eccMode : Nat := 0x501010

/-- 5.01.011 LANE_ERR_THRESH: U16 RW, default 16 (Table 09.11, R301). -/
def Obj.laneErrThresh : Nat := 0x501011

/-- 5.01.012 LANE_ERR_WINDOW_MS: U32 RW, default 1,000 (Table 09.11, R301). -/
def Obj.laneErrWindowMs : Nat := 0x501012

/-- 5.01.013 EXT_SCRUB_HOURS_FAST: U8 RW, default 24 (Table 09.11, R301). -/
def Obj.extScrubHoursFast : Nat := 0x501013

/-- 5.01.014 EXT_SCRUB_HOURS_SLOW: U8 RW, default 48 (Table 09.11, R301). -/
def Obj.extScrubHoursSlow : Nat := 0x501014

/-- 5.01.015 COUCH_HOLD_NS: U16 RW, default 2,000 (Table 09.11, R301). -/
def Obj.couchHoldNs : Nat := 0x501015

/-- 5.01.020 CE_FAST: U64 RC, default 0 (Table 09.11, R301). -/
def Obj.ceFast : Nat := 0x501020

/-- 5.01.021 CE_SLOW: U64 RC, default 0 (Table 09.11, R301). -/
def Obj.ceSlow : Nat := 0x501021

/-- 5.01.022 UE_EXT: U64 RC, default 0 (Table 09.11, R301). -/
def Obj.ueExt : Nat := 0x501022

/-- 5.01.023 DEFERRED_UE_COUNT: U64 RC, default 0 (Table 09.11, R301). -/
def Obj.deferredUeCount : Nat := 0x501023

/-- 5.01.024 RMW_COUNT: U64 RC, default 0 (Table 09.11, R301). -/
def Obj.rmwCount : Nat := 0x501024

/-- 5.01.025 COUCH_MERGES: U64 RC, default 0 (Table 09.11, R301). -/
def Obj.couchMerges : Nat := 0x501025

/-- 5.01.026 LANE_RETRY_OK: U64 RC, default 0 (Table 09.11, R301). -/
def Obj.laneRetryOk : Nat := 0x501026

/-- 5.01.030 SPILL_POOL_BASE: U64 RWC, default 0 (Table 09.11, R301). -/
def Obj.spillPoolBase : Nat := 0x501030

/-- 5.01.031 SPILL_POOL_LEN: U64 RWC, default 0 (Table 09.11, R301). -/
def Obj.spillPoolLen : Nat := 0x501031

/-- 5.01.032 SPILL_POOL_FREE: U64 RO, default 0 (Table 09.11, R301). -/
def Obj.spillPoolFree : Nat := 0x501032

/-- 5.01.03F SPILL_POOL_COMMIT: U8 RW, default 0 (Table 09.11, R301). -/
def Obj.spillPoolCommit : Nat := 0x50103F

/-- 5.01.040 MIN_CEIL_NEAR: U32 RO, default 2,480,000 (Table 09.11, R301). -/
def Obj.minCeilNear : Nat := 0x501040

/-- 5.01.041 MIN_CEIL_FAST: U32 RO, default 19,680,000 (Table 09.11, R301). -/
def Obj.minCeilFast : Nat := 0x501041

/-- 5.01.042 MIN_CEIL_SLOW: U32 RO, default 832,000 (Table 09.11, R301). -/
def Obj.minCeilSlow : Nat := 0x501042

/-- 5.2x.4t0 MIN_MBPS: U32 RW, default 0 (Table 09.11, R301). -/
def Obj.minMbps (x t : Nat) : Nat := 0x520400 + x * 0x1000 + t * 0x10

/-- 5.2x.4t1 CAP_MBPS: U32 RW, default 0xFFFF_FFFF (Table 09.11, R301). -/
def Obj.capMbps (x t : Nat) : Nat := 0x520401 + x * 0x1000 + t * 0x10

/-- 5.2x.4t2 BURST_KIB: U32 RW, default 1,024 (Table 09.11, R301). -/
def Obj.burstKib (x t : Nat) : Nat := 0x520402 + x * 0x1000 + t * 0x10

/-- 5.2x.4t3 TIER_BYTES: U64 RC, default 0 (Table 09.11, R301). -/
def Obj.tierBytes (x t : Nat) : Nat := 0x520403 + x * 0x1000 + t * 0x10

/-- 5.2x.4t4 GUAR_BYTES: U64 RC, default 0 (Table 09.11, R301). -/
def Obj.guarBytes (x t : Nat) : Nat := 0x520404 + x * 0x1000 + t * 0x10

/-- 5.2x.4t5 HELD_NS: U64 RC, default 0 (Table 09.11, R301). -/
def Obj.heldNs (x t : Nat) : Nat := 0x520405 + x * 0x1000 + t * 0x10

/-- 5.2x.500 SPILL_REQ: U8 WO, default — (Table 09.11, R301). -/
def Obj.spillReq (x : Nat) : Nat := 0x520500 + x * 0x1000

/-- 5.2x.501 FILL_REQ: U8 WO, default — (Table 09.11, R301). -/
def Obj.fillReq (x : Nat) : Nat := 0x520501 + x * 0x1000

/-- 5.2x.502 FILL_BASE: U64 RW, default 0 (Table 09.11, R301). -/
def Obj.fillBase (x : Nat) : Nat := 0x520502 + x * 0x1000

/-- 5.2x.503 SPILL_STATE: ENUM RO, default 0 (Table 09.11, R301). -/
def Obj.spillState (x : Nat) : Nat := 0x520503 + x * 0x1000

/-- 5.2x.504 SPILL_RESULT: U16 RO, default 0 (Table 09.11, R301). -/
def Obj.spillResult (x : Nat) : Nat := 0x520504 + x * 0x1000

/-- 5.2x.505 SPILLED_SEGS: BITS RO, default 0 (Table 09.11, R301). -/
def Obj.spilledSegs (x : Nat) : Nat := 0x520505 + x * 0x1000

/-- 5.2x.506 SPILL_OLD_BASE: U64 RO, default 0 (Table 09.11, R301). -/
def Obj.spillOldBase (x : Nat) : Nat := 0x520506 + x * 0x1000

/-- 5.ss.000 STACK_STATE: ENUM RO, default 0 (Table 09.11, R301). -/
def Obj.stackState (s : Nat) : Nat := 0x590000 + s * 0x1000

/-- 5.ss.001 STACK_TEMP: S32 RO, default 0 (Table 09.11, R301). -/
def Obj.stackTemp (s : Nat) : Nat := 0x590001 + s * 0x1000

/-- 5.ss.002 STACK_SPARES: BLOB RO, default 0 (Table 09.11, R301). -/
def Obj.stackSpares (s : Nat) : Nat := 0x590002 + s * 0x1000

/-- 5.ss.003 STACK_ERASED: BLOB RO, default 0 (Table 09.11, R301). -/
def Obj.stackErased (s : Nat) : Nat := 0x590003 + s * 0x1000

/-- 5.ss.004 STACK_CE: U64 RC, default 0 (Table 09.11, R301). -/
def Obj.stackCe (s : Nat) : Nat := 0x590004 + s * 0x1000

/-- 5.ss.005 STACK_UE: U64 RC, default 0 (Table 09.11, R301). -/
def Obj.stackUe (s : Nat) : Nat := 0x590005 + s * 0x1000

/-- 5.ss.006 STACK_LANE_CE: BLOB RC, default 0 (Table 09.11, R301). -/
def Obj.stackLaneCe (s : Nat) : Nat := 0x590006 + s * 0x1000

/-- 5.pp.000 PKG_STATE: ENUM RO, default 0 (Table 09.11, R301). -/
def Obj.pkgState (p : Nat) : Nat := 0x5A0000 + p * 0x1000

/-- 5.pp.001 PKG_TEMP: S32 RO, default 0 (Table 09.11, R301). -/
def Obj.pkgTemp (p : Nat) : Nat := 0x5A0001 + p * 0x1000

/-- 5.pp.003 PKG_ERASED: BLOB RO, default 0 (Table 09.11, R301). -/
def Obj.pkgErased (p : Nat) : Nat := 0x5A0003 + p * 0x1000

/-- 5.pp.004 PKG_CE: U64 RC, default 0 (Table 09.11, R301). -/
def Obj.pkgCe (p : Nat) : Nat := 0x5A0004 + p * 0x1000

/-- 5.pp.005 PKG_UE: U64 RC, default 0 (Table 09.11, R301). -/
def Obj.pkgUe (p : Nat) : Nat := 0x5A0005 + p * 0x1000

/-- 5.pp.006 PKG_LANE_CE: BLOB RC, default 0 (Table 09.11, R301). -/
def Obj.pkgLaneCe (p : Nat) : Nat := 0x5A0006 + p * 0x1000

/-- 5.02.000 PICOT_ID: U16 RO, default 0x0100 (Table 10.9, R321). -/
def Obj.picotId : Nat := 0x502000

/-- 5.02.001 PICOT_GEOM: U32 RO, default 0x4100_1000 (Table 10.9, R321). -/
def Obj.picotGeom : Nat := 0x502001

/-- 5.02.010 LOCK_WAIT_MAX_NS: U32 RC, default 0 (Table 10.9, R321). -/
def Obj.lockWaitMaxNs : Nat := 0x502010

/-- 5.02.011 BATCH_TORN_COUNT: U64 RC, default 0 (Table 10.9, R321). -/
def Obj.batchTornCount : Nat := 0x502011

/-- 5.2x.600 PICOT_ROWS_READ: U64 RC, default 0 (Table 10.9, R321). -/
def Obj.picotRowsRead (x : Nat) : Nat := 0x520600 + x * 0x1000

/-- 5.2x.601 PICOT_ROWS_WRITTEN: U64 RC, default 0 (Table 10.9, R321). -/
def Obj.picotRowsWritten (x : Nat) : Nat := 0x520601 + x * 0x1000

/-- 5.2x.602 PICOT_DUP_MERGED: U64 RC, default 0 (Table 10.9, R321). -/
def Obj.picotDupMerged (x : Nat) : Nat := 0x520602 + x * 0x1000

/-- 5.2x.603 PICOT_COLD_ROWS: U64 RC, default 0 (Table 10.9, R321). -/
def Obj.picotColdRows (x : Nat) : Nat := 0x520603 + x * 0x1000

/-- 5.2x.604 PICOT_BATCHES: U64 RC, default 0 (Table 10.9, R321). -/
def Obj.picotBatches (x : Nat) : Nat := 0x520604 + x * 0x1000

/-- 5.2x.605 PICOT_LOCK_WAIT_NS: U64 RC, default 0 (Table 10.9, R321). -/
def Obj.picotLockWaitNs (x : Nat) : Nat := 0x520605 + x * 0x1000

/-- 6.00.000 EXB_ID: U16 RO, default 0x0100 (Table 11.20, R358). -/
def Obj.exbId : Nat := 0x600000

/-- 6.00.001 INCARNATION: U32 RO, default set at start-up (Table 11.20, R358). -/
def Obj.incarnation : Nat := 0x600001

/-- 6.00.002 UDP_PORT: U16 RWC, default 47,330 (Table 11.20, R358). -/
def Obj.udpPort : Nat := 0x600002

/-- 6.00.003 HOP_LIMIT: U8 RW, default 64 (Table 11.20, R358). -/
def Obj.hopLimit : Nat := 0x600003

/-- 6.00.004 VIOL_MAX: U16 RW, default 64 (Table 11.20, R358). -/
def Obj.violMax : Nat := 0x600004

/-- 6.00.005 OPEN_RETRY_MS: U16 RW, default 10 (Table 11.20, R358). -/
def Obj.openRetryMs : Nat := 0x600005

/-- 6.00.010 RX_MALFORMED: U64 RC, default 0 (Table 11.20, R358). -/
def Obj.rxMalformed : Nat := 0x600010

/-- 6.00.011 RX_STALE: U64 RC, default 0 (Table 11.20, R358). -/
def Obj.rxStale : Nat := 0x600011

/-- 6.00.012 REPLY_SUPPRESSED: U64 RC, default 0 (Table 11.20, R358). -/
def Obj.replySuppressed : Nat := 0x600012

/-- 6.00.013 HANDSHAKE_FAIL: U64 RC, default 0 (Table 11.20, R358). -/
def Obj.handshakeFail : Nat := 0x600013

/-- 6.00.014 SESSIONS_OPEN: U16 RO, default 0 (Table 11.20, R358). -/
def Obj.sessionsOpen : Nat := 0x600014

/-- 6.01.000 PORTS_COMMIT_IO0: U8 RW, default 0 (Table 11.20, R358). -/
def Obj.portsCommitIo0 : Nat := 0x601000

/-- 6.01.001 PORTS_COMMIT_IO1: U8 RW, default 0 (Table 11.20, R358). -/
def Obj.portsCommitIo1 : Nat := 0x601001

/-- 6.1p.000 PORT_EN: ENUM RWC, default 0 (Table 11.20, R358). -/
def Obj.portEn (p : Nat) : Nat := 0x610000 + p * 0x1000

/-- 6.1p.001 PORT_SPEED: ENUM RWC, default 0 (Table 11.20, R358). -/
def Obj.portSpeed (p : Nat) : Nat := 0x610001 + p * 0x1000

/-- 6.1p.002 PORT_CLASS: ENUM RWC, default 0 (Table 11.20, R358). -/
def Obj.portClass (p : Nat) : Nat := 0x610002 + p * 0x1000

/-- 6.1p.003 PORT_ADDR: BLOB RWC, default 0 (Table 11.20, R358). -/
def Obj.portAddr (p : Nat) : Nat := 0x610003 + p * 0x1000

/-- 6.1p.004 GW_MAC: U64 RWC, default 0 (Table 11.20, R358). -/
def Obj.gwMac (p : Nat) : Nat := 0x610004 + p * 0x1000

/-- 6.1p.005 METRO_BUF_MIB: U8 RWC, default 128 (Table 11.20, R358). -/
def Obj.metroBufMib (p : Nat) : Nat := 0x610005 + p * 0x1000

/-- 6.1p.006 FLOW_PATHS: U8 RWC, default 4 (Table 11.20, R358). -/
def Obj.flowPaths (p : Nat) : Nat := 0x610006 + p * 0x1000

/-- 6.1p.007 MTU: ENUM RWC, default 2 (Table 11.20, R358). -/
def Obj.mtu (p : Nat) : Nat := 0x610007 + p * 0x1000

/-- 6.1p.010 PORT_MAC: U64 RO, default from area 0 (Table 11.20, R358). -/
def Obj.portMac (p : Nat) : Nat := 0x610010 + p * 0x1000

/-- 6.1p.011 LINK_STATE: ENUM RO, default 0 (Table 11.20, R358). -/
def Obj.linkState (p : Nat) : Nat := 0x610011 + p * 0x1000

/-- 6.1p.012 FEC_SYM_CORR: U64 RC, default 0 (Table 11.20, R358). -/
def Obj.fecSymCorr (p : Nat) : Nat := 0x610012 + p * 0x1000

/-- 6.1p.013 FEC_CW_UNCORR: U64 RC, default 0 (Table 11.20, R358). -/
def Obj.fecCwUncorr (p : Nat) : Nat := 0x610013 + p * 0x1000

/-- 6.1p.014 TX_FRAMES: U64 RC, default 0 (Table 11.20, R358). -/
def Obj.txFrames (p : Nat) : Nat := 0x610014 + p * 0x1000

/-- 6.1p.015 RX_FRAMES: U64 RC, default 0 (Table 11.20, R358). -/
def Obj.rxFrames (p : Nat) : Nat := 0x610015 + p * 0x1000

/-- 6.1p.016 RX_DROP: U64 RC, default 0 (Table 11.20, R358). -/
def Obj.rxDrop (p : Nat) : Nat := 0x610016 + p * 0x1000

/-- 6.1p.017 RX_CE: U64 RC, default 0 (Table 11.20, R358). -/
def Obj.rxCe (p : Nat) : Nat := 0x610017 + p * 0x1000

/-- 6.1p.018 LINK_DOWN_COUNT: U64 RC, default 0 (Table 11.20, R358). -/
def Obj.linkDownCount (p : Nat) : Nat := 0x610018 + p * 0x1000

/-- 6.1p.019 METRO_BUF_USED: U32 RO, default 0 (Table 11.20, R358). -/
def Obj.metroBufUsed (p : Nat) : Nat := 0x610019 + p * 0x1000

/-- 6.2x.000 OWN_JOB: U32 RWC, default 0 (Table 11.20, R358). -/
def Obj.ownJob (x : Nat) : Nat := 0x620000 + x * 0x1000

/-- 6.2x.001 OWN_RANK: U32 RWC, default 0 (Table 11.20, R358). -/
def Obj.ownRank (x : Nat) : Nat := 0x620001 + x * 0x1000

/-- 6.2x.002 CGEN: U16 RO, default 0 (Table 11.20, R358). -/
def Obj.cgen (x : Nat) : Nat := 0x620002 + x * 0x1000

/-- 6.2x.003 TX_BYTES: U64 RC, default 0 (Table 11.20, R358). -/
def Obj.txBytes (x : Nat) : Nat := 0x620003 + x * 0x1000

/-- 6.2x.004 RETX_PKTS: U64 RC, default 0 (Table 11.20, R358). -/
def Obj.retxPkts (x : Nat) : Nat := 0x620004 + x * 0x1000

/-- 6.2x.005 RNR_PKTS: U64 RC, default 0 (Table 11.20, R358). -/
def Obj.rnrPkts (x : Nat) : Nat := 0x620005 + x * 0x1000

/-- 6.2x.006 DUP_PKTS: U64 RC, default 0 (Table 11.20, R358). -/
def Obj.dupPkts (x : Nat) : Nat := 0x620006 + x * 0x1000

/-- 6.2x.007 RANGE_DROP: U64 RC, default 0 (Table 11.20, R358). -/
def Obj.rangeDrop (x : Nat) : Nat := 0x620007 + x * 0x1000

/-- 6.2x.008 VIOLATIONS: U64 RC, default 0 (Table 11.20, R358). -/
def Obj.violations (x : Nat) : Nat := 0x620008 + x * 0x1000

/-- 6.2x.009 SESS_LOST_COUNT: U64 RC, default 0 (Table 11.20, R358). -/
def Obj.sessLostCount (x : Nat) : Nat := 0x620009 + x * 0x1000

/-- 6.3k.000 RTO_US: U32 RW, default 40 / 100 / 1,500 (Table 11.20, R358). -/
def Obj.rtoUs (k : Nat) : Nat := 0x630000 + k * 0x1000

/-- 6.3k.001 LOSS_US: U32 RW, default 1,000 / 2,500 / 25,000 (Table 11.20, R358). -/
def Obj.lossUs (k : Nat) : Nat := 0x630001 + k * 0x1000

/-- 6.3k.002 PROBE_IDLE_US: U32 RW, default 250 / 500 / 5,000 (Table 11.20, R358). -/
def Obj.probeIdleUs (k : Nat) : Nat := 0x630002 + k * 0x1000

/-- 6.3k.003 REORDER_NS: U32 RW, default 2,000 / 4,000 / 20,000 (Table 11.20, R358). -/
def Obj.reorderNs (k : Nat) : Nat := 0x630003 + k * 0x1000

/-- 6.3k.004 SEND_WIN_KIB: U32 RW, default 2,048 / 8,192 / 65,536 (Table 11.20, R358). -/
def Obj.sendWinKib (k : Nat) : Nat := 0x630004 + k * 0x1000

/-- 6.3k.005 RATE_INIT_PCT: U8 RW, default 100 / 50 / 25 (Table 11.20, R358). -/
def Obj.rateInitPct (k : Nat) : Nat := 0x630005 + k * 0x1000

/-- 6.3k.006 RAI_PERMIL: U16 RW, default 10 / 10 / 5 (Table 11.20, R358). -/
def Obj.raiPermil (k : Nat) : Nat := 0x630006 + k * 0x1000

/-- 6.3k.007 INC_US: U32 RW, default 10 / 20 / 1,000 (Table 11.20, R358). -/
def Obj.incUs (k : Nat) : Nat := 0x630007 + k * 0x1000

/-- 6.3k.008 RNR_US: U32 RW, default 5 / 10 / 100 (Table 11.20, R358). -/
def Obj.rnrUs (k : Nat) : Nat := 0x630008 + k * 0x1000

/-- 6.3k.009 ACK_EVERY: U8 RW, default 16 (Table 11.20, R358). -/
def Obj.ackEvery (k : Nat) : Nat := 0x630009 + k * 0x1000

/-- 6.3k.00A ACK_DELAY_NS: U32 RW, default 1,000 / 2,000 / 20,000 (Table 11.20, R358). -/
def Obj.ackDelayNs (k : Nat) : Nat := 0x63000A + k * 0x1000

/-- 6.3k.00B DSCP: U8 RW, default 26 (Table 11.20, R358). -/
def Obj.dscp (k : Nat) : Nat := 0x63000B + k * 0x1000

/-- 6.40.000 PTP_EN: ENUM RW, default 0 (Table 11.20, R358). -/
def Obj.ptpEn : Nat := 0x640000

/-- 6.40.001 PTP_PORT: U8 RW, default 0 (Table 11.20, R358). -/
def Obj.ptpPort : Nat := 0x640001

/-- 6.40.002 PTP_DOMAIN: U8 RW, default 0 (Table 11.20, R358). -/
def Obj.ptpDomain : Nat := 0x640002

/-- 6.40.003 PTP_STEP_NS: U32 RW, default 1,000,000 (Table 11.20, R358). -/
def Obj.ptpStepNs : Nat := 0x640003

/-- 6.40.010 PTP_STATE: ENUM RO, default 0 (Table 11.20, R358). -/
def Obj.ptpState : Nat := 0x640010

/-- 6.40.011 PTP_OFFSET_NS: S32 RO, default 0 (Table 11.20, R358). -/
def Obj.ptpOffsetNs : Nat := 0x640011

/-- 6.40.012 PTP_GM_ID: BLOB RO, default 0 (Table 11.20, R358). -/
def Obj.ptpGmId : Nat := 0x640012

/-- 6.40.013 PTP_STEPS: U64 RC, default 0 (Table 11.20, R358). -/
def Obj.ptpSteps : Nat := 0x640013

/-- 6.50.000 PEER_TABLE: BLOB RWC, default 0 (Table 11.20, R358). -/
def Obj.peerTable : Nat := 0x650000

/-- 6.50.001 PEER_COMMIT: U8 RW, default 0 (Table 11.20, R358). -/
def Obj.peerCommit : Nat := 0x650001

/-- 6.50.002 PEER_STATE: BLOB RO, default 0 (Table 11.20, R358). -/
def Obj.peerState : Nat := 0x650002

/-- 6.50.003 PEER_RTT: BLOB RO, default 0 (Table 11.20, R358). -/
def Obj.peerRtt : Nat := 0x650003

/-- 7.00.000 PLAIT_ID: U16 RO, default 0x0100 (Table 12.14, R391). -/
def Obj.plaitId : Nat := 0x700000

/-- 7.00.001 PLAIT_GROUPS: U16 RO, default 1,024 (Table 12.14, R391). -/
def Obj.plaitGroups : Nat := 0x700001

/-- 7.00.002 PLAIT_POOL: U32 RO, default 262,144 (Table 12.14, R391). -/
def Obj.plaitPool : Nat := 0x700002

/-- 7.00.010 COLL_TMO_SHORT_US: U32 RW, default 2,000 (Table 12.14, R391). -/
def Obj.collTmoShortUs : Nat := 0x700010

/-- 7.00.011 COLL_TMO_HALL_US: U32 RW, default 5,000 (Table 12.14, R391). -/
def Obj.collTmoHallUs : Nat := 0x700011

/-- 7.00.012 COLL_TMO_METRO_US: U32 RW, default 50,000 (Table 12.14, R391). -/
def Obj.collTmoMetroUs : Nat := 0x700012

/-- 7.00.013 COLL_FIRST_MS: U32 RW, default 30,000 (Table 12.14, R391). -/
def Obj.collFirstMs : Nat := 0x700013

/-- 7.00.014 ABORT_RELAY: ENUM RW, default 1 (Table 12.14, R391). -/
def Obj.abortRelay : Nat := 0x700014

/-- 7.01.000 GROUP_TABLE: BLOB RWC, default 0 (Table 12.14, R391). -/
def Obj.groupTable : Nat := 0x701000

/-- 7.01.001 MEMBER_POOL: BLOB RWC, default 0 (Table 12.14, R391). -/
def Obj.memberPool : Nat := 0x701001

/-- 7.01.002 GROUP_STATE: BLOB RO, default 0 (Table 12.14, R391). -/
def Obj.groupState : Nat := 0x701002

/-- 7.01.003 GROUP_LOST: BLOB RO, default 0 (Table 12.14, R391). -/
def Obj.groupLost : Nat := 0x701003

/-- 7.01.00F GROUP_COMMIT: U8 RW, default 0 (Table 12.14, R391). -/
def Obj.groupCommit : Nat := 0x70100F

/-- 7.2x.000 COLL_DONE: U64 RC, default 0 (Table 12.14, R391). -/
def Obj.collDone (x : Nat) : Nat := 0x720000 + x * 0x1000

/-- 7.2x.001 MERGE_ELEMS: U64 RC, default 0 (Table 12.14, R391). -/
def Obj.mergeElems (x : Nat) : Nat := 0x720001 + x * 0x1000

/-- 7.2x.002 SECTIONS: U64 RC, default 0 (Table 12.14, R391). -/
def Obj.sections (x : Nat) : Nat := 0x720002 + x * 0x1000

/-- 7.2x.003 PEER_LOST_COUNT: U64 RC, default 0 (Table 12.14, R391). -/
def Obj.peerLostCount (x : Nat) : Nat := 0x720003 + x * 0x1000

/-- 7.2x.004 MISMATCH_COUNT: U64 RC, default 0 (Table 12.14, R391). -/
def Obj.mismatchCount (x : Nat) : Nat := 0x720004 + x * 0x1000

/-- 7.2x.005 C4_RESID_MAX: W32 RC, default 0 (Table 12.14, R391). -/
def Obj.c4ResidMax (x : Nat) : Nat := 0x720005 + x * 0x1000

/-- 7.2x.006 RELAYS_SENT: U64 RC, default 0 (Table 12.14, R391). -/
def Obj.relaysSent (x : Nat) : Nat := 0x720006 + x * 0x1000

/-- 7.2x.007 RELAYS_DROPPED: U64 RC, default 0 (Table 12.14, R391). -/
def Obj.relaysDropped (x : Nat) : Nat := 0x720007 + x * 0x1000

/-- 8.00.000 LIFECYCLE_ID: U16 RO, default 0x0100 (Table 13.11, R422). -/
def Obj.lifecycleId : Nat := 0x800000

/-- 8.00.001 AUTO_ACTIVATE: ENUM RW, default 1 (Table 13.11, R422). -/
def Obj.autoActivate : Nat := 0x800001

/-- 8.00.002 SHARD_TMO_S: U16 RW, default 30 (Table 13.11, R422). -/
def Obj.shardTmoS : Nat := 0x800002

/-- 8.00.003 ADMIT_PAUSE: ENUM RO, default 0 (Table 13.11, R422). -/
def Obj.admitPause : Nat := 0x800003

/-- 8.00.004 ACTIVATE: U8 WO, default — (Table 13.11, R422). -/
def Obj.activate : Nat := 0x800004

/-- 8.00.005 SWAP: U8 WO, default — (Table 13.11, R422). -/
def Obj.swap : Nat := 0x800005

/-- 8.00.006 SWAP_RESULT: ENUM RO, default 0 (Table 13.11, R422). -/
def Obj.swapResult : Nat := 0x800006

/-- 8.00.010 LOAD_MANIFEST: U64 RWC, default 0 (Table 13.11, R422). -/
def Obj.loadManifest : Nat := 0x800010

/-- 8.00.011 LOAD_CTX: U8 RWC, default 0 (Table 13.11, R422). -/
def Obj.loadCtx : Nat := 0x800011

/-- 8.00.012 LOAD_MODE: ENUM RWC, default 0 (Table 13.11, R422). -/
def Obj.loadMode : Nat := 0x800012

/-- 8.00.013 LOAD_SLOT: ENUM RWC, default 3 (Table 13.11, R422). -/
def Obj.loadSlot : Nat := 0x800013

/-- 8.00.014 LOAD_PRED: U16 RWC, default 0xFFFF (Table 13.11, R422). -/
def Obj.loadPred : Nat := 0x800014

/-- 8.00.015 LOAD_SUCC: U16 RWC, default 0xFFFF (Table 13.11, R422). -/
def Obj.loadSucc : Nat := 0x800015

/-- 8.00.016–019 COPY_ADDR_p: U64 RWC, default 0 (Table 13.11, R422). -/
def Obj.copyAddrP (p : Nat) : Nat := 0x800016 + p * 0x1

/-- 8.00.01F LOAD_COMMIT: U8 RW, default 0 (Table 13.11, R422). -/
def Obj.loadCommit : Nat := 0x80001F

/-- 8.00.020 LOAD_STATE: ENUM RO, default 0 (Table 13.11, R422). -/
def Obj.loadState : Nat := 0x800020

/-- 8.00.021 LOAD_DETAIL: U32 RO, default 0 (Table 13.11, R422). -/
def Obj.loadDetail : Nat := 0x800021

/-- 8.00.022 SHARD_STATUS: BLOB RO, default 0 (Table 13.11, R422). -/
def Obj.shardStatus : Nat := 0x800022

/-- 8.00.023 REFETCH_COUNT: U64 RC, default 0 (Table 13.11, R422). -/
def Obj.refetchCount : Nat := 0x800023

/-- 8.00.024 LOAD_BYTES: U64 RC, default 0 (Table 13.11, R422). -/
def Obj.loadBytes : Nat := 0x800024

/-- 8.00.030 ARENA_BASE: U64 RWC, default 0 (Table 13.11, R422). -/
def Obj.arenaBase : Nat := 0x800030

/-- 8.00.031 ARENA_LEN: U64 RWC, default 0 (Table 13.11, R422). -/
def Obj.arenaLen : Nat := 0x800031

/-- 8.00.03F ARENA_COMMIT: U8 RW, default 0 (Table 13.11, R422). -/
def Obj.arenaCommit : Nat := 0x80003F

/-- 8.00.040 ARENA_FREE: U32 RO, default 0 (Table 13.11, R422). -/
def Obj.arenaFree : Nat := 0x800040

/-- 8.00.041 FILL_MARGIN: U8 RW, default 10 (Table 13.11, R422). -/
def Obj.fillMargin : Nat := 0x800041

/-- 8.1s.000 SLOT_STATE: ENUM RO, default 0 (Table 13.11, R422). -/
def Obj.slotState (s : Nat) : Nat := 0x810000 + s * 0x1000

/-- 8.1s.001 SLOT_MODEL_ID: U64 RO, default 0 (Table 13.11, R422). -/
def Obj.slotModelId (s : Nat) : Nat := 0x810001 + s * 0x1000

/-- 8.1s.002 SLOT_EPOCH: U32 RO, default 0 (Table 13.11, R422). -/
def Obj.slotEpoch (s : Nat) : Nat := 0x810002 + s * 0x1000

/-- 8.1s.003 BIND_COUNT: U32 RO, default 0 (Table 13.11, R422). -/
def Obj.bindCount (s : Nat) : Nat := 0x810003 + s * 0x1000

/-- 8.1s.01p PART_BASE_p: U64 RWC, default 0 (Table 13.11, R422). -/
def Obj.partBaseP (s p : Nat) : Nat := 0x810010 + s * 0x1000 + p * 0x1

/-- 8.1s.02p PART_LEN_p: U64 RWC, default 0 (Table 13.11, R422). -/
def Obj.partLenP (s p : Nat) : Nat := 0x810020 + s * 0x1000 + p * 0x1

/-- 8.1s.02F SLOT_COMMIT: U8 RW, default 0 (Table 13.11, R422). -/
def Obj.slotCommit (s : Nat) : Nat := 0x81002F + s * 0x1000

/-- 8.1s.030 SLOT_FLUSH: U8 WO, default — (Table 13.11, R422). -/
def Obj.slotFlush (s : Nat) : Nat := 0x810030 + s * 0x1000

/-- 8.2x.000 MODEL_BIND: ENUM RWC, default 0 (Table 13.11, R422). -/
def Obj.modelBind (x : Nat) : Nat := 0x820000 + x * 0x1000

/-- 8.2x.001–004 MODEL_SEG_p: U8 RWC, default 0xFF (Table 13.11, R422). -/
def Obj.modelSegP (x p : Nat) : Nat := 0x820001 + x * 0x1000 + p * 0x1

/-- 8.2x.005 ADD_SEG: U8 RWC, default 0xFF (Table 13.11, R422). -/
def Obj.addSeg (x : Nat) : Nat := 0x820005 + x * 0x1000

/-- 8.2x.006 ARENA_SEG: U8 RWC, default 0xFF (Table 13.11, R422). -/
def Obj.arenaSeg (x : Nat) : Nat := 0x820006 + x * 0x1000

/-- 8.2x.007 OVF_SEG: U8 RWC, default 0xFF (Table 13.11, R422). -/
def Obj.ovfSeg (x : Nat) : Nat := 0x820007 + x * 0x1000

/-- 8.2x.008 BT_BASE: U64 RWC, default 0 (Table 13.11, R422). -/
def Obj.btBase (x : Nat) : Nat := 0x820008 + x * 0x1000

/-- 8.2x.009 GROW_EVT: U8 RWC, default 0 (Table 13.11, R422). -/
def Obj.growEvt (x : Nat) : Nat := 0x820009 + x * 0x1000

/-- 8.2x.00F BIND_COMMIT: U8 RW, default 0 (Table 13.11, R422). -/
def Obj.bindCommit (x : Nat) : Nat := 0x82000F + x * 0x1000

/-- 8.2x.010 CTX_EPOCH: U32 RO, default 0 (Table 13.11, R422). -/
def Obj.ctxEpoch (x : Nat) : Nat := 0x820010 + x * 0x1000

/-- 8.2x.011 ADD_BASE_A: U64 RW, default 0 (Table 13.11, R422). -/
def Obj.addBaseA (x : Nat) : Nat := 0x820011 + x * 0x1000

/-- 8.2x.012 ADD_LEN_A: U32 RW, default 0 (Table 13.11, R422). -/
def Obj.addLenA (x : Nat) : Nat := 0x820012 + x * 0x1000

/-- 8.2x.013 ADD_BASE_B: U64 RW, default 0 (Table 13.11, R422). -/
def Obj.addBaseB (x : Nat) : Nat := 0x820013 + x * 0x1000

/-- 8.2x.014 ADD_LEN_B: U32 RW, default 0 (Table 13.11, R422). -/
def Obj.addLenB (x : Nat) : Nat := 0x820014 + x * 0x1000

/-- 8.2x.015 ADD_SWAP: U8 WO, default — (Table 13.11, R422). -/
def Obj.addSwap (x : Nat) : Nat := 0x820015 + x * 0x1000

/-- 8.2x.016 ADD_SEL: ENUM RO, default 0 (Table 13.11, R422). -/
def Obj.addSel (x : Nat) : Nat := 0x820016 + x * 0x1000

/-- 8.2x.017 ADD_HOLD_A: U32 RO, default 0 (Table 13.11, R422). -/
def Obj.addHoldA (x : Nat) : Nat := 0x820017 + x * 0x1000

/-- 8.2x.018 ADD_HOLD_B: U32 RO, default 0 (Table 13.11, R422). -/
def Obj.addHoldB (x : Nat) : Nat := 0x820018 + x * 0x1000

/-- 8.2x.020 SEQ_JOIN: U64 WO, default — (Table 13.11, R422). -/
def Obj.seqJoin (x : Nat) : Nat := 0x820020 + x * 0x1000

/-- 8.2x.021 SEQ_LEAVE: U16 WO, default — (Table 13.11, R422). -/
def Obj.seqLeave (x : Nat) : Nat := 0x820021 + x * 0x1000

/-- 8.2x.022 SEQ_GROW: U64 WO, default — (Table 13.11, R422). -/
def Obj.seqGrow (x : Nat) : Nat := 0x820022 + x * 0x1000

/-- 8.2x.023 SEQ_TABLE: BLOB RO, default 0 (Table 13.11, R422). -/
def Obj.seqTable (x : Nat) : Nat := 0x820023 + x * 0x1000

/-- 8.2x.024 SEQ_DEFERRED_COUNT: U64 RC, default 0 (Table 13.11, R422). -/
def Obj.seqDeferredCount (x : Nat) : Nat := 0x820024 + x * 0x1000

/-- 8.2x.025 SEQ_EVICTED_COUNT: U64 RC, default 0 (Table 13.11, R422). -/
def Obj.seqEvictedCount (x : Nat) : Nat := 0x820025 + x * 0x1000

/-- 8.2x.026 BLOCKS_SPILLED: U32 RO, default 0 (Table 13.11, R422). -/
def Obj.blocksSpilled (x : Nat) : Nat := 0x820026 + x * 0x1000

/-- 9.00.000 HEALTH_ID: U16 RO, default 0x0100 (Table 14.16, R446). -/
def Obj.healthId : Nat := 0x900000

/-- 9.00.001 HEALTH_STATE: ENUM RO, default 0 (Table 14.16, R446). -/
def Obj.healthState : Nat := 0x900001

/-- 9.00.002 HEALTH_SCORE: U16 RO, default 1,000 (Table 14.16, R446). -/
def Obj.healthScore : Nat := 0x900002

/-- 9.00.003 HEALTH_REASON: ENUM RO, default 0 (Table 14.16, R446). -/
def Obj.healthReason : Nat := 0x900003

/-- 9.00.004 PROBATION_LEFT_S: U16 RO, default 0 (Table 14.16, R446). -/
def Obj.probationLeftS : Nat := 0x900004

/-- 9.00.005 HEALTH_CAPACITY: U16 RO, default 1,000 (Table 14.16, R446). -/
def Obj.healthCapacity : Nat := 0x900005

/-- 9.00.006 HEALTH_REPORT: BLOB RO, default 0 (Table 14.16, R446). -/
def Obj.healthReport : Nat := 0x900006

/-- 9.00.007 HEALTH_PERIOD_MS: U16 RW, default 1,000 (Table 14.16, R446). -/
def Obj.healthPeriodMs : Nat := 0x900007

/-- 9.00.008 HEALTH_CLEAR: U8 WO, default — (Table 14.16, R446). -/
def Obj.healthClear : Nat := 0x900008

/-- 9.00.009 FENCE_FW_CLEAR: U8 WO, default — (Table 14.16, R446). -/
def Obj.fenceFwClear : Nat := 0x900009

/-- 9.00.010 PROGRESS_BUDGET_PERMIL: U16 RW, default 10 (Table 14.16, R446). -/
def Obj.progressBudgetPermil : Nat := 0x900010

/-- 9.00.011 OVH_PERMIL: U16 RO, default 0 (Table 14.16, R446). -/
def Obj.ovhPermil : Nat := 0x900011

/-- 9.01.000 MIR_STAGE_BASE: U64 RWC, default 0 (Table 14.16, R446). -/
def Obj.mirStageBase : Nat := 0x901000

/-- 9.01.001 MIR_STAGE_LEN: U64 RWC, default 0 (Table 14.16, R446). -/
def Obj.mirStageLen : Nat := 0x901001

/-- 9.01.002 MIR_STORE_BASE: U64 RWC, default 0 (Table 14.16, R446). -/
def Obj.mirStoreBase : Nat := 0x901002

/-- 9.01.003 MIR_STORE_LEN: U64 RWC, default 0 (Table 14.16, R446). -/
def Obj.mirStoreLen : Nat := 0x901003

/-- 9.01.00F MIR_DEV_COMMIT: U8 RW, default 0 (Table 14.16, R446). -/
def Obj.mirDevCommit : Nat := 0x90100F

/-- 9.01.010 MIR_STORE_FREE: U64 RO, default 0 (Table 14.16, R446). -/
def Obj.mirStoreFree : Nat := 0x901010

/-- 9.01.011 MIR_HELD: BLOB RO, default 0 (Table 14.16, R446). -/
def Obj.mirHeld : Nat := 0x901011

/-- 9.01.012 MIR_FREE: U16 WO, default — (Table 14.16, R446). -/
def Obj.mirFree : Nat := 0x901012

/-- 9.01.013 MIR_REFUSED: U64 RC, default 0 (Table 14.16, R446). -/
def Obj.mirRefused : Nat := 0x901013

/-- 9.01.014 MIR_BYTES_SENT: U64 RC, default 0 (Table 14.16, R446). -/
def Obj.mirBytesSent : Nat := 0x901014

/-- 9.10.000 SHADOW_MIN_PERMIL: U16 RW, default 2 (Table 14.16, R446). -/
def Obj.shadowMinPermil : Nat := 0x910000

/-- 9.10.001 SHADOW_MAX_PERMIL: U16 RW, default 20 (Table 14.16, R446). -/
def Obj.shadowMaxPermil : Nat := 0x910001

/-- 9.10.002 SHADOW_PERMIL: U16 RO, default 2 (Table 14.16, R446). -/
def Obj.shadowPermil : Nat := 0x910002

/-- 9.10.003 PROBATION_PERMIL: U16 RW, default 100 (Table 14.16, R446). -/
def Obj.probationPermil : Nat := 0x910003

/-- 9.10.004 KAT_PERIOD_S: U16 RW, default 60 (Table 14.16, R446). -/
def Obj.katPeriodS : Nat := 0x910004

/-- 9.10.005 SHADOW_LAG_MS: U16 RW, default 50 (Table 14.16, R446). -/
def Obj.shadowLagMs : Nat := 0x910005

/-- 9.10.006 BIN_REPEAT: U8 RW, default 3 (Table 14.16, R446). -/
def Obj.binRepeat : Nat := 0x910006

/-- 9.10.007 BIN_WINDOW_H: U16 RW, default 24 (Table 14.16, R446). -/
def Obj.binWindowH : Nat := 0x910007

/-- 9.10.008 SUSPECT_COUNT: U8 RW, default 4 (Table 14.16, R446). -/
def Obj.suspectCount : Nat := 0x910008

/-- 9.10.009 SAMPLER_SEED: U64 RW, default 0 (Table 14.16, R446). -/
def Obj.samplerSeed : Nat := 0x910009

/-- 9.10.00A PROBATION_S: U16 RW, default 900 (Table 14.16, R446). -/
def Obj.probationS : Nat := 0x91000A

/-- 9.10.010 PASSES: U64 RC, default 0 (Table 14.16, R446). -/
def Obj.passes : Nat := 0x910010

/-- 9.10.011 VOIDS: U64 RC, default 0 (Table 14.16, R446). -/
def Obj.voids : Nat := 0x910011

/-- 9.10.012 DROPPED: U64 RC, default 0 (Table 14.16, R446). -/
def Obj.dropped : Nat := 0x910012

/-- 9.10.013 CONFIRMED: U64 RC, default 0 (Table 14.16, R446). -/
def Obj.confirmed : Nat := 0x910013

/-- 9.10.014 UNREPRODUCED: U64 RC, default 0 (Table 14.16, R446). -/
def Obj.unreproduced : Nat := 0x910014

/-- 9.10.015 UNRESOLVED: U64 RC, default 0 (Table 14.16, R446). -/
def Obj.unresolved : Nat := 0x910015

/-- 9.10.016 SAMPLER_CORE_NS: U64 RC, default 0 (Table 14.16, R446). -/
def Obj.samplerCoreNs : Nat := 0x910016

/-- 9.2x.000 MIR_COMMIT: U8 RW, default 0 (Table 14.16, R446). -/
def Obj.mirCommit (x : Nat) : Nat := 0x920000 + x * 0x1000

/-- 9.2x.001 RESTORE_REQ: BITS WO, default — (Table 14.16, R446). -/
def Obj.restoreReq (x : Nat) : Nat := 0x920001 + x * 0x1000

/-- 9.2x.002 RESTORE_RANK: U32 RW, default 0 (Table 14.16, R446). -/
def Obj.restoreRank (x : Nat) : Nat := 0x920002 + x * 0x1000

/-- 9.2x.003 RESTORE_MAX_STEP: U64 RW, default 0 (Table 14.16, R446). -/
def Obj.restoreMaxStep (x : Nat) : Nat := 0x920003 + x * 0x1000

/-- 9.2x.004 RESTORE_STATE: ENUM RO, default 0 (Table 14.16, R446). -/
def Obj.restoreState (x : Nat) : Nat := 0x920004 + x * 0x1000

/-- 9.2x.005 RESTORE_RESULT: BLOB RO, default 0 (Table 14.16, R446). -/
def Obj.restoreResult (x : Nat) : Nat := 0x920005 + x * 0x1000

/-- 9.2x.006 MIR_DONE_EVT: U8 RW, default 0 (Table 14.16, R446). -/
def Obj.mirDoneEvt (x : Nat) : Nat := 0x920006 + x * 0x1000

/-- 9.2x.007 MIR_WAIT_MS: U32 RW, default 1,000 (Table 14.16, R446). -/
def Obj.mirWaitMs (x : Nat) : Nat := 0x920007 + x * 0x1000

/-- 9.2x.008 MIR_LAST_STEP: U64 RO, default 0 (Table 14.16, R446). -/
def Obj.mirLastStep (x : Nat) : Nat := 0x920008 + x * 0x1000

/-- 9.2x.009 SDC_COUNT: U64 RC, default 0 (Table 14.16, R446). -/
def Obj.sdcCount (x : Nat) : Nat := 0x920009 + x * 0x1000

/-- 9.2x.1s0 MIR_ADDR: U64 RWC, default 0 (Table 14.16, R446). -/
def Obj.mirAddr (x s : Nat) : Nat := 0x920100 + x * 0x1000 + s * 0x10

/-- 9.2x.1s1 MIR_LEN: U64 RWC, default 0 (Table 14.16, R446). -/
def Obj.mirLen (x s : Nat) : Nat := 0x920101 + x * 0x1000 + s * 0x10

/-- 9.2x.1s2 MIR_ID: U32 RWC, default 0 (Table 14.16, R446). -/
def Obj.mirId (x s : Nat) : Nat := 0x920102 + x * 0x1000 + s * 0x10

/-- 9.2x.1s3 MIR_PEER: U16 RWC, default 0 (Table 14.16, R446). -/
def Obj.mirPeer (x s : Nat) : Nat := 0x920103 + x * 0x1000 + s * 0x10

/-- 9.2x.1s4 MIR_MODE: ENUM RWC, default 0 (Table 14.16, R446). -/
def Obj.mirMode (x s : Nat) : Nat := 0x920104 + x * 0x1000 + s * 0x10

/-- 9.2x.1s5 MIR_CKPT: U64 RWC, default 0 (Table 14.16, R446). -/
def Obj.mirCkpt (x s : Nat) : Nat := 0x920105 + x * 0x1000 + s * 0x10

/-- 9.2x.1s8 MIR_STATE: ENUM RO, default 0 (Table 14.16, R446). -/
def Obj.mirState (x s : Nat) : Nat := 0x920108 + x * 0x1000 + s * 0x10

/-- 9.bb.000 CORE_BINS: BLOB RO, default 0 (Table 14.16, R446). -/
def Obj.coreBins (n : Nat) : Nat := 0x940000 + n * 0x1000

/-- 9.bb.001 CORE_SAMPLES: U64 RC, default 0 (Table 14.16, R446). -/
def Obj.coreSamples (n : Nat) : Nat := 0x940001 + n * 0x1000

/-- A.00.000 RESET_ID: U16 RO, default 0x0100 (Table 15.15, R472). -/
def Obj.resetId : Nat := 0xA00000

/-- A.00.001 RESET_STATE: ENUM RO, default 0 (Table 15.15, R472). -/
def Obj.resetState : Nat := 0xA00001

/-- A.00.002 LAST_RESET: BLOB RO, default 0 (Table 15.15, R472). -/
def Obj.lastReset : Nat := 0xA00002

/-- A.00.010 ENG_WDT_US: U32 RW, default 1,000 (Table 15.15, R472). -/
def Obj.engWdtUs : Nat := 0xA00010

/-- A.00.011 CORE_WDT_US: U32 RW, default 100 (Table 15.15, R472). -/
def Obj.coreWdtUs : Nat := 0xA00011

/-- A.00.012 CTX_WDT_MS: U32 RW, default 1,000 (Table 15.15, R472). -/
def Obj.ctxWdtMs : Nat := 0xA00012

/-- A.00.013 MEM_WDT_US: U32 RW, default 200 (Table 15.15, R472). -/
def Obj.memWdtUs : Nat := 0xA00013

/-- A.00.014 FW_WDT_MS: U16 RW, default 500 (Table 15.15, R472). -/
def Obj.fwWdtMs : Nat := 0xA00014

/-- A.00.015 DIE_RESET_LIMIT_MS: U16 RW, default 1,000 (Table 15.15, R472). -/
def Obj.dieResetLimitMs : Nat := 0xA00015

/-- A.00.016 WARM_RESET_LIMIT_S: U8 RW, default 8 (Table 15.15, R472). -/
def Obj.warmResetLimitS : Nat := 0xA00016

/-- A.00.017 COLD_REQ_ENABLE: ENUM RW, default 1 (Table 15.15, R472). -/
def Obj.coldReqEnable : Nat := 0xA00017

/-- A.00.018 SWATCH_CTX_CORES: U8 RW, default 4 (Table 15.15, R472). -/
def Obj.swatchCtxCores : Nat := 0xA00018

/-- A.00.020 ENGINE_RESET: U8 WO, default — (Table 15.15, R472). -/
def Obj.engineReset : Nat := 0xA00020

/-- A.00.021 CORE_RESET: U8 WO, default — (Table 15.15, R472). -/
def Obj.coreReset : Nat := 0xA00021

/-- A.00.022 DIE_RESET: U8 WO, default — (Table 15.15, R472). -/
def Obj.dieReset : Nat := 0xA00022

/-- A.00.023 DEVICE_RESET: U8 WO, default — (Table 15.15, R472). -/
def Obj.deviceReset : Nat := 0xA00023

/-- A.00.030 ENGINE_RESETS: U64 RC, default 0 (Table 15.15, R472). -/
def Obj.engineResets : Nat := 0xA00030

/-- A.00.031 CORE_RESETS: U64 RC, default 0 (Table 15.15, R472). -/
def Obj.coreResets : Nat := 0xA00031

/-- A.00.032 CONTEXT_RESETS: U64 RC, default 0 (Table 15.15, R472). -/
def Obj.contextResets : Nat := 0xA00032

/-- A.00.033 DIE_RESETS: U64 RC, default 0 (Table 15.15, R472). -/
def Obj.dieResets : Nat := 0xA00033

/-- A.00.034 WARM_RESETS: U64 RC, default 0 (Table 15.15, R472). -/
def Obj.warmResets : Nat := 0xA00034

/-- A.00.035 ESCALATIONS: U64 RC, default 0 (Table 15.15, R472). -/
def Obj.escalations : Nat := 0xA00035

/-- A.00.036 ABSORBED: U64 RC, default 0 (Table 15.15, R472). -/
def Obj.absorbed : Nat := 0xA00036

/-- A.00.040 COLD_REQ_PENDING: BITS RO, default 0 (Table 15.15, R472). -/
def Obj.coldReqPending : Nat := 0xA00040

/-- A.00.050 SWATCH_HEAD: U8 RO, default 0 (Table 15.15, R472). -/
def Obj.swatchHead : Nat := 0xA00050

/-- A.00.051 SWATCH_SEL: U8 RW, default 0 (Table 15.15, R472). -/
def Obj.swatchSel : Nat := 0xA00051

/-- A.00.052 SWATCH_OFF: U32 RW, default 0 (Table 15.15, R472). -/
def Obj.swatchOff : Nat := 0xA00052

/-- A.00.053 SWATCH_WIN: BLOB RO, default 0 (Table 15.15, R472). -/
def Obj.swatchWin : Nat := 0xA00053

/-- A.2x.000 CTX_RESET: U8 WO, default — (Table 15.15, R472). -/
def Obj.ctxReset (x : Nat) : Nat := 0xA20000 + x * 0x1000

/-- A.2x.001 CTX_WDT_EN: ENUM RW, default 1 (Table 15.15, R472). -/
def Obj.ctxWdtEn (x : Nat) : Nat := 0xA20001 + x * 0x1000

/-- A.2x.002 CTX_RESET_STATE: ENUM RO, default 0 (Table 15.15, R472). -/
def Obj.ctxResetState (x : Nat) : Nat := 0xA20002 + x * 0x1000

/-- A.2x.003 CTX_RESET_LAST_NS: U32 RO, default 0 (Table 15.15, R472). -/
def Obj.ctxResetLastNs (x : Nat) : Nat := 0xA20003 + x * 0x1000

/-- A.2x.004 CTX_RESET_COUNT: U64 RC, default 0 (Table 15.15, R472). -/
def Obj.ctxResetCount (x : Nat) : Nat := 0xA20004 + x * 0x1000

/-- B.00.010 RECOVERY_MODE: ENUM RW, default 0 (Table 15.15, R472). -/
def Obj.recoveryMode : Nat := 0xB00010

/-- B.10.000 CLOCK_ID: U16 RO, default 0x0100 (Table 16.8, R488). -/
def Obj.clockId : Nat := 0xB10000

/-- B.10.001 DVFS_MODE: ENUM RWC, default 1 (Table 16.8, R488). -/
def Obj.dvfsMode : Nat := 0xB10001

/-- B.10.002 LC_FLOOR_MHZ: U16 RWC, default 1,800 (Table 16.8, R488). -/
def Obj.lcFloorMhz : Nat := 0xB10002

/-- B.10.00F DVFS_COMMIT: U8 RW, default 0 (Table 16.8, R488). -/
def Obj.dvfsCommit : Nat := 0xB1000F

/-- B.10.0d0 FREQ_NOW_MHZ: U16 RO, default 1,800 (Table 16.8, R488). -/
def Obj.freqNowMhz (d : Nat) : Nat := 0xB10100 - d * 0xF0

/-- B.10.0d1 FREQ_MIN_MHZ: U16 RWC, default 600 (Table 16.8, R488). -/
def Obj.freqMinMhz (d : Nat) : Nat := 0xB10101 - d * 0xF0

/-- B.10.0d2 FREQ_MAX_MHZ: U16 RWC, default 1,950 (Table 16.8, R488). -/
def Obj.freqMaxMhz (d : Nat) : Nat := 0xB10102 - d * 0xF0

/-- B.10.0d3 FREQ_FIXED_MHZ: U16 RWC, default 1,800 (Table 16.8, R488). -/
def Obj.freqFixedMhz (d : Nat) : Nat := 0xB10003 + d * 0x10

/-- B.10.0d4 VCORE_MV: U16 RO, default 820 (Table 16.8, R488). -/
def Obj.vcoreMv (d : Nat) : Nat := 0xB10004 + d * 0x10

/-- B.10.0d5 FREQ_CHANGES: U64 RC, default 0 (Table 16.8, R488). -/
def Obj.freqChanges (d : Nat) : Nat := 0xB10005 + d * 0x10

/-- B.10.0d6 BELOW_FLOOR_NS: U64 RC, default 0 (Table 16.8, R488). -/
def Obj.belowFloorNs (d : Nat) : Nat := 0xB10006 + d * 0x10

/-- B.10.020 NOC_MHZ: U16 RO, default 2,000 (Table 16.8, R488). -/
def Obj.nocMhz : Nat := 0xB10020

/-- B.10.021 NEAR_MHZ: U16 RO, default 1,200 (Table 16.8, R488). -/
def Obj.nearMhz : Nat := 0xB10021

/-- B.10.022 HBM_CTRL_MHZ: BLOB RO, default 0 (Table 16.8, R488). -/
def Obj.hbmCtrlMhz : Nat := 0xB10022

/-- B.10.023 LP_CTRL_MHZ: BLOB RO, default 0 (Table 16.8, R488). -/
def Obj.lpCtrlMhz : Nat := 0xB10023

/-- B.11.000 XQ_ID: U16 RO, default 0x0100 (Table 16.8, R488). -/
def Obj.xqId : Nat := 0xB11000

/-- B.11.001 XQ_COUNT: U16 RO, default 2,275 (Table 16.8, R488). -/
def Obj.xqCount : Nat := 0xB11001

/-- B.11.010 XQ_PARITY_COUNT: U64 RC, default 0 (Table 16.8, R488). -/
def Obj.xqParityCount : Nat := 0xB11010

/-- B.11.011 XQ_PARITY_LAST: BLOB RO, default 0 (Table 16.8, R488). -/
def Obj.xqParityLast : Nat := 0xB11011

/-- B.11.012 XQ_RETRY_COUNT: U64 RC, default 0 (Table 16.8, R488). -/
def Obj.xqRetryCount : Nat := 0xB11012

/-- B.11.013 XQ_FLUSHED: U64 RC, default 0 (Table 16.8, R488). -/
def Obj.xqFlushed : Nat := 0xB11013

/-- B.11.1p0 TX_CT_WORDS: U8 RW, default 4 (Table 16.8, R488). -/
def Obj.txCtWords (p : Nat) : Nat := 0xB11100 + p * 0x10

/-- B.11.1p1 RX_CT_WORDS: U8 RW, default 1 (Table 16.8, R488). -/
def Obj.rxCtWords (p : Nat) : Nat := 0xB11101 + p * 0x10

/-- B.11.1p2 TX_UNDERRUN: U64 RC, default 0 (Table 16.8, R488). -/
def Obj.txUnderrun (p : Nat) : Nat := 0xB11102 + p * 0x10

/-- 1.00.000 OD_ID: U16 RO, default 0x0100 (Table 17.18, R521). -/
def Obj.odId : Nat := 0x100000

/-- 1.00.001 OD_COUNT: U32 RO, default set at start-up (Table 17.18, R521). -/
def Obj.odCount : Nat := 0x100001

/-- 1.00.002 OD_DIR: BLOB RO, default set at start-up (Table 17.18, R521). -/
def Obj.odDir : Nat := 0x100002

/-- 1.00.010 CLAMP_COUNT: U64 RC, default 0 (Table 17.18, R521). -/
def Obj.clampCount : Nat := 0x100010

/-- 1.00.011 CLAMP_LAST: BLOB RO, default 0 (Table 17.18, R521). -/
def Obj.clampLast : Nat := 0x100011

/-- 1.00.012 RO_WRITE_COUNT: U64 RC, default 0 (Table 17.18, R521). -/
def Obj.roWriteCount : Nat := 0x100012

/-- 1.00.013 FW_OVERRIDE_COUNT: U64 RC, default 0 (Table 17.18, R521). -/
def Obj.fwOverrideCount : Nat := 0x100013

/-- 1.00.014 STORE_WRITES: U64 RO, default 0 (Table 17.18, R521). -/
def Obj.storeWrites : Nat := 0x100014

/-- 1.00.015 STORE_STATE: ENUM RO, default 0 (Table 17.18, R521). -/
def Obj.storeState : Nat := 0x100015

/-- 1.00.016 STORE_ERASE: U8 WO, default — (Table 17.18, R521). -/
def Obj.storeErase : Nat := 0x100016

/-- 1.01.000 MGMT_EN: ENUM RWC, default 1 (Table 17.18, R521). -/
def Obj.mgmtEn : Nat := 0x101000

/-- 1.01.001 MGMT_ADDR: BLOB RWC, default 0 (Table 17.18, R521). -/
def Obj.mgmtAddr : Nat := 0x101001

/-- 1.01.002 MGMT_PREFIX_LEN: U8 RWC, default 64 (Table 17.18, R521). -/
def Obj.mgmtPrefixLen : Nat := 0x101002

/-- 1.01.003 MGMT_GW: BLOB RWC, default 0 (Table 17.18, R521). -/
def Obj.mgmtGw : Nat := 0x101003

/-- 1.01.00F MGMT_COMMIT: U8 RW, default 0 (Table 17.18, R521). -/
def Obj.mgmtCommit : Nat := 0x10100F

/-- 1.01.010 MGMT_LINK: ENUM RO, default 0 (Table 17.18, R521). -/
def Obj.mgmtLink : Nat := 0x101010

/-- 1.01.011 MGMT_MAC: U64 RO, default from area 0 (Table 17.18, R521). -/
def Obj.mgmtMac : Nat := 0x101011

/-- 1.01.012 MGMT_RX_FRAMES: U64 RC, default 0 (Table 17.18, R521). -/
def Obj.mgmtRxFrames : Nat := 0x101012

/-- 1.01.013 MGMT_RX_DROP: U64 RC, default 0 (Table 17.18, R521). -/
def Obj.mgmtRxDrop : Nat := 0x101013

/-- 1.01.014 MGMT_TX_FRAMES: U64 RC, default 0 (Table 17.18, R521). -/
def Obj.mgmtTxFrames : Nat := 0x101014

/-- 1.02.000 HOK_PORT: U16 RWC, default 47,331 (Table 17.18, R521). -/
def Obj.hokPort : Nat := 0x102000

/-- 1.02.001 HOK_IDLE_S: U16 RW, default 60 (Table 17.18, R521). -/
def Obj.hokIdleS : Nat := 0x102001

/-- 1.02.002 HOK_SESSIONS: U8 RO, default 0 (Table 17.18, R521). -/
def Obj.hokSessions : Nat := 0x102002

/-- 1.02.010 HOK_KEYS: BLOB RWC, default 0 (Table 17.18, R521). -/
def Obj.hokKeys : Nat := 0x102010

/-- 1.02.00F HOK_COMMIT: U8 RW, default 0 (Table 17.18, R521). -/
def Obj.hokCommit : Nat := 0x10200F

/-- 1.02.020 HOK_AUTH_FAIL: U64 RC, default 0 (Table 17.18, R521). -/
def Obj.hokAuthFail : Nat := 0x102020

/-- 1.02.021 HOK_MAC_FAIL: U64 RC, default 0 (Table 17.18, R521). -/
def Obj.hokMacFail : Nat := 0x102021

/-- 1.02.022 HOK_REPLAY: U64 RC, default 0 (Table 17.18, R521). -/
def Obj.hokReplay : Nat := 0x102022

/-- 1.03.000 NOTIFY_LEVEL: ENUM RW, default 1 (Table 17.18, R521). -/
def Obj.notifyLevel : Nat := 0x103000

/-- 1.03.001 NOTIFY_DEST: BLOB RWC, default 0 (Table 17.18, R521). -/
def Obj.notifyDest : Nat := 0x103001

/-- 1.03.00F NOTIFY_COMMIT: U8 RW, default 0 (Table 17.18, R521). -/
def Obj.notifyCommit : Nat := 0x10300F

/-- 1.03.010 NOTIFY_LOST: U64 RC, default 0 (Table 17.18, R521). -/
def Obj.notifyLost : Nat := 0x103010

/-- F.00.000 LOG_ID: U16 RO, default 0x0100 (Table 17.18, R521). -/
def Obj.logId : Nat := 0xF00000

/-- F.00.001 LOG_CAPACITY: U32 RO, default 524,288 (Table 17.18, R521). -/
def Obj.logCapacity : Nat := 0xF00001

/-- F.00.002 LOG_NEXT_SEQ: U64 RO, default 0 (Table 17.18, R521). -/
def Obj.logNextSeq : Nat := 0xF00002

/-- F.00.003 LOG_OLDEST_SEQ: U64 RO, default 0 (Table 17.18, R521). -/
def Obj.logOldestSeq : Nat := 0xF00003

/-- F.00.004 LOG_READ_SEQ: U64 RW, default 0 (Table 17.18, R521). -/
def Obj.logReadSeq : Nat := 0xF00004

/-- F.00.005 LOG_WIN: BLOB RO, default 0 (Table 17.18, R521). -/
def Obj.logWin : Nat := 0xF00005

/-- F.00.006 LOG_DROPPED: U64 RC, default 0 (Table 17.18, R521). -/
def Obj.logDropped : Nat := 0xF00006

/-- F.00.007 LOG_CLEAR: U8 WO, default — (Table 17.18, R521). -/
def Obj.logClear : Nat := 0xF00007

/-- 0.00.000 ID_VERSION: U16 RO, default 0x0100 (Table 18.11, R544). -/
def Obj.idVersion : Nat := 0x000000

/-- 0.00.001 PART_NUMBER: BLOB RO, default "OZ9640-A1" (Table 18.11, R544). -/
def Obj.partNumber : Nat := 0x000001

/-- 0.00.002 STEPPING: U8 RO, default 0xA1 (Table 18.11, R544). -/
def Obj.stepping : Nat := 0x000002

/-- 0.00.003 SERIAL: U64 RO, default fused (Table 18.11, R544). -/
def Obj.serial : Nat := 0x000003

/-- 0.00.004 MAC_BASE: U64 RO, default fused (Table 18.11, R544). -/
def Obj.macBase : Nat := 0x000004

/-- 0.00.005 ROM_VERSION: U32 RO, default fused (Table 18.11, R544). -/
def Obj.romVersion : Nat := 0x000005

/-- 0.00.010 ID_PUBKEY: BLOB RO, default fused (Table 18.11, R544). -/
def Obj.idPubkey : Nat := 0x000010

/-- 0.00.011 ID_DIGEST: BLOB RO, default computed (Table 18.11, R544). -/
def Obj.idDigest : Nat := 0x000011

/-- 0.00.012 ID_CERT: BLOB RO, default programmed (Table 18.11, R544). -/
def Obj.idCert : Nat := 0x000012

/-- 0.00.020 FW_VERSION: U32 RO, default from image (Table 18.11, R544). -/
def Obj.fwVersion : Nat := 0x000020

/-- 0.00.021 FW_SVN: U8 RO, default from image (Table 18.11, R544). -/
def Obj.fwSvn : Nat := 0x000021

/-- 0.00.022 FW_BANK: ENUM RO, default 0 (Table 18.11, R544). -/
def Obj.fwBank : Nat := 0x000022

/-- 0.00.023 FW_MEAS: BLOB RO, default 0 (Table 18.11, R544). -/
def Obj.fwMeas : Nat := 0x000023

/-- 0.00.030 BOOT_STATE: ENUM RO, default 0 (Table 18.11, R544). -/
def Obj.bootState : Nat := 0x000030

/-- 0.00.031 BOOT_FAIL: U8 RO, default 0 (Table 18.11, R544). -/
def Obj.bootFail : Nat := 0x000031

/-- 0.10.000 HOST_LINK_RATE: ENUM RO, default 0 (Table 18.11, R544). -/
def Obj.hostLinkRate : Nat := 0x010000

/-- 0.10.001 HOST_LINK_WIDTH: U8 RO, default 0 (Table 18.11, R544). -/
def Obj.hostLinkWidth : Nat := 0x010001

/-- 0.10.002 NUM_VFS: U8 RO, default 0 (Table 18.11, R544). -/
def Obj.numVfs : Nat := 0x010002

/-- 0.10.003 HOST_CPL_TMO_US: U32 RW, default 10,000 (Table 18.11, R544). -/
def Obj.hostCplTmoUs : Nat := 0x010003

/-- 0.10.004 HOST_RO_EN: ENUM RW, default 1 (Table 18.11, R544). -/
def Obj.hostRoEn : Nat := 0x010004

/-- 0.10.010 HOST_CPL_TIMEOUTS: U64 RC, default 0 (Table 18.11, R544). -/
def Obj.hostCplTimeouts : Nat := 0x010010

/-- 0.10.011 HOST_ACCESS_ERRORS: U64 RC, default 0 (Table 18.11, R544). -/
def Obj.hostAccessErrors : Nat := 0x010011

/-- 0.10.012 HOST_POISONED_CPL: U64 RC, default 0 (Table 18.11, R544). -/
def Obj.hostPoisonedCpl : Nat := 0x010012

/-- 0.10.013 HOST_RESET_DROPS: U64 RC, default 0 (Table 18.11, R544). -/
def Obj.hostResetDrops : Nat := 0x010013

/-- 0.10.014 FLR_COUNT: U64 RC, default 0 (Table 18.11, R544). -/
def Obj.flrCount : Nat := 0x010014

/-- D.00.000 SEC_ID: U16 RO, default 0x0100 (Table 18.11, R544). -/
def Obj.secId : Nat := 0xD00000

/-- D.00.010 ENTROPY_STATE: ENUM RO, default 0 (Table 18.11, R544). -/
def Obj.entropyState : Nat := 0xD00010

/-- D.00.011 ENTROPY_FAILS: U64 RC, default 0 (Table 18.11, R544). -/
def Obj.entropyFails : Nat := 0xD00011

/-- D.10.000 FW_STAGE: BLOB WO, default — (Table 18.11, R544). -/
def Obj.fwStage : Nat := 0xD10000

/-- D.10.001 FW_STAGE_COMMIT: U8 WO, default — (Table 18.11, R544). -/
def Obj.fwStageCommit : Nat := 0xD10001

/-- D.10.002 FW_STAGE_STATE: ENUM RO, default 0 (Table 18.11, R544). -/
def Obj.fwStageState : Nat := 0xD10002

/-- D.10.003 FW_STAGE_REASON: ENUM RO, default 0 (Table 18.11, R544). -/
def Obj.fwStageReason : Nat := 0xD10003

/-- D.10.004 FW_BOOT_BANK: ENUM RO, default 0 (Table 18.11, R544). -/
def Obj.fwBootBank : Nat := 0xD10004

/-- D.10.005 FW_SVN_COMMIT: U8 WO, default — (Table 18.11, R544). -/
def Obj.fwSvnCommit : Nat := 0xD10005

/-- D.10.006 FW_SVN_FUSE: U8 RO, default fused (Table 18.11, R544). -/
def Obj.fwSvnFuse : Nat := 0xD10006

/-- D.2x.000 ATTEST_NONCE: BLOB RW, default 0 (Table 18.11, R544). -/
def Obj.attestNonce (x : Nat) : Nat := 0xD20000 + x * 0x1000

/-- D.2x.001 ATTEST_REQ: U8 WO, default — (Table 18.11, R544). -/
def Obj.attestReq (x : Nat) : Nat := 0xD20001 + x * 0x1000

/-- D.2x.002 ATTEST_STATE: ENUM RO, default 0 (Table 18.11, R544). -/
def Obj.attestState (x : Nat) : Nat := 0xD20002 + x * 0x1000

/-- D.2x.003 ATTEST_REPORT: BLOB RO, default 0 (Table 18.11, R544). -/
def Obj.attestReport (x : Nat) : Nat := 0xD20003 + x * 0x1000

/-- B.20.000 POWER_ID: U16 RO, default 0x0100 (Table 19.12, R567). -/
def Obj.powerId : Nat := 0xB20000

/-- B.20.001 POWER_LIMIT_W: U16 RW, default 3,300 (Table 19.12, R567). -/
def Obj.powerLimitW : Nat := 0xB20001

/-- B.20.002 POWER_NOW_W: U16 RO, default 0 (Table 19.12, R567). -/
def Obj.powerNowW : Nat := 0xB20002

/-- B.20.003 VIN_MV: U32 RO, default 0 (Table 19.12, R567). -/
def Obj.vinMv : Nat := 0xB20003

/-- B.20.004 IIN_MA: U32 RO, default 0 (Table 19.12, R567). -/
def Obj.iinMa : Nat := 0xB20004

/-- B.20.005 VSB_MV: U16 RO, default 0 (Table 19.12, R567). -/
def Obj.vsbMv : Nat := 0xB20005

/-- B.20.006 ENERGY_J: U64 RO, default 0 (Table 19.12, R567). -/
def Obj.energyJ : Nat := 0xB20006

/-- B.20.010 INPUT_LOW_COUNT: U64 RC, default 0 (Table 19.12, R567). -/
def Obj.inputLowCount : Nat := 0xB20010

/-- B.20.011 INPUT_HIGH_COUNT: U64 RC, default 0 (Table 19.12, R567). -/
def Obj.inputHighCount : Nat := 0xB20011

/-- B.30.000 THERMAL_ID: U16 RO, default 0x0100 (Table 19.12, R567). -/
def Obj.thermalId : Nat := 0xB30000

/-- B.30.001 THROTTLE_C: U8 RW, default 100 (Table 19.12, R567). -/
def Obj.throttleC : Nat := 0xB30001

/-- B.30.002 THROTTLE_STEP: ENUM RO, default 0 (Table 19.12, R567). -/
def Obj.throttleStep : Nat := 0xB30002

/-- B.30.003 THROTTLE_CAUSE: BITS RO, default 0 (Table 19.12, R567). -/
def Obj.throttleCause : Nat := 0xB30003

/-- B.30.01d TJ_MAX_C: S32 RO, default 0 (Table 19.12, R567). -/
def Obj.tjMaxC (d : Nat) : Nat := 0xB30010 + d * 0x1

/-- B.30.030 THROTTLE_NS: U64 RC, default 0 (Table 19.12, R567). -/
def Obj.throttleNs : Nat := 0xB30030

/-- B.30.031 FAST_THROTTLE_COUNT: U64 RC, default 0 (Table 19.12, R567). -/
def Obj.fastThrottleCount : Nat := 0xB30031

/-- B.30.032 TRIP_LAST: BLOB RO, default 0 (Table 19.12, R567). -/
def Obj.tripLast : Nat := 0xB30032

/-- B.30.040 ALERT_CAUSE: BITS RO, default 0 (Table 19.12, R567). -/
def Obj.alertCause : Nat := 0xB30040

/-- C.00.000 TEST_ID: U16 RO, default 0x0100 (Table 19.12, R567). -/
def Obj.testId : Nat := 0xC00000

/-- C.00.001 JTAG_IDCODE: U32 RO, default R564 (Table 19.12, R567). -/
def Obj.jtagIdcode : Nat := 0xC00001

/-- C.00.002 JTAG_USERCODE: U32 RO, default SERIAL [31:0] (Table 19.12, R567). -/
def Obj.jtagUsercode : Nat := 0xC00002

/-- C.00.003 TAP_INSTR: U8 RO, default 0x04 (Table 19.12, R567). -/
def Obj.tapInstr : Nat := 0xC00003

/-- C.00.004 TAP_DENIED_COUNT: U64 RC, default 0 (Table 19.12, R567). -/
def Obj.tapDeniedCount : Nat := 0xC00004

/-- C.00.005 DEBUG_LOCK: ENUM RO, default 1 (Table 19.12, R567). -/
def Obj.debugLock : Nat := 0xC00005

end Sys2Proof.Machine
end

