-- ==== Sys2Proof/Machine/ObjTable.lean ====
section
/-!
DEFINITION. Sys2Proof/Machine/ObjTable.lean: the object tables of every chapter as data (R490, R519): where an object's
numbers lie, its type, access, size, default, range, multiple, kept bits and whether it is persistent.
-/
namespace Sys2Proof.Machine

/-- One row of an object table (R490). The numbers of the row are base + i * s1 + j * s2 for i below c1 and j below c2.
`typ` and `acc` are the codes of Table 17.1; `lo` and `hi` are the range of the Effect column (hi = 0: none),
`mult` the multiple a value is clamped down to, `keep` the bits that are not reserved (0: all). -/
structure ObjRow where
  base : Nat
  c1 : Nat
  s1 : Nat
  c2 : Nat
  s2 : Nat
  typ : Nat
  acc : Nat
  size : Nat
  dflt : Nat
  lo : Nat
  hi : Nat
  mult : Nat
  keep : Nat
  pers : Bool
  deriving DecidableEq, Repr

/-- Rows of area 0, part 0. -/
def objRows0p0 : List ObjRow := [
  ⟨0x000000, 1, 0x1, 1, 0x1, 1, 0, 2, 256, 0, 0, 1, 0x0, false⟩,  -- 0.00.000 ID_VERSION
  ⟨0x000001, 1, 0x1, 1, 0x1, 8, 0, 16, 0, 0, 0, 1, 0x0, false⟩,  -- 0.00.001 PART_NUMBER
  ⟨0x000002, 1, 0x1, 1, 0x1, 0, 0, 1, 161, 0, 0, 1, 0x0, false⟩,  -- 0.00.002 STEPPING
  ⟨0x000003, 1, 0x1, 1, 0x1, 3, 0, 8, 0, 0, 0, 1, 0x0, false⟩,  -- 0.00.003 SERIAL
  ⟨0x000004, 1, 0x1, 1, 0x1, 3, 0, 8, 0, 0, 0, 1, 0x0, false⟩,  -- 0.00.004 MAC_BASE
  ⟨0x000005, 1, 0x1, 1, 0x1, 2, 0, 4, 0, 0, 0, 1, 0x0, false⟩,  -- 0.00.005 ROM_VERSION
  ⟨0x000010, 1, 0x1, 1, 0x1, 8, 0, 97, 0, 0, 0, 1, 0x0, false⟩,  -- 0.00.010 ID_PUBKEY
  ⟨0x000011, 1, 0x1, 1, 0x1, 8, 0, 32, 0, 0, 0, 1, 0x0, false⟩,  -- 0.00.011 ID_DIGEST
  ⟨0x000012, 1, 0x1, 1, 0x1, 8, 0, 2048, 0, 0, 0, 1, 0x0, false⟩,  -- 0.00.012 ID_CERT
  ⟨0x000020, 1, 0x1, 1, 0x1, 2, 0, 4, 0, 0, 0, 1, 0x0, false⟩,  -- 0.00.020 FW_VERSION
  ⟨0x000021, 1, 0x1, 1, 0x1, 0, 0, 1, 0, 0, 0, 1, 0x0, false⟩,  -- 0.00.021 FW_SVN
  ⟨0x000022, 1, 0x1, 1, 0x1, 6, 0, 1, 0, 0, 0, 1, 0x0, false⟩,  -- 0.00.022 FW_BANK
  ⟨0x000023, 1, 0x1, 1, 0x1, 8, 0, 48, 0, 0, 0, 1, 0x0, false⟩,  -- 0.00.023 FW_MEAS
  ⟨0x000030, 1, 0x1, 1, 0x1, 6, 0, 1, 0, 0, 0, 1, 0x0, false⟩,  -- 0.00.030 BOOT_STATE
  ⟨0x000031, 1, 0x1, 1, 0x1, 0, 0, 1, 0, 0, 0, 1, 0x0, false⟩,  -- 0.00.031 BOOT_FAIL
  ⟨0x010000, 1, 0x1, 1, 0x1, 6, 0, 1, 0, 0, 0, 1, 0x0, false⟩,  -- 0.10.000 HOST_LINK_RATE
  ⟨0x010001, 1, 0x1, 1, 0x1, 0, 0, 1, 0, 0, 0, 1, 0x0, false⟩,  -- 0.10.001 HOST_LINK_WIDTH
  ⟨0x010002, 1, 0x1, 1, 0x1, 0, 0, 1, 0, 0, 0, 1, 0x0, false⟩,  -- 0.10.002 NUM_VFS
  ⟨0x010003, 1, 0x1, 1, 0x1, 2, 1, 4, 10000, 50, 1000000, 1, 0x0, false⟩,  -- 0.10.003 HOST_CPL_TMO_US
  ⟨0x010004, 1, 0x1, 1, 0x1, 6, 1, 1, 1, 0, 1, 1, 0x0, false⟩,  -- 0.10.004 HOST_RO_EN
  ⟨0x010010, 1, 0x1, 1, 0x1, 3, 4, 8, 0, 0, 0, 1, 0x0, false⟩,  -- 0.10.010 HOST_CPL_TIMEOUTS
  ⟨0x010011, 1, 0x1, 1, 0x1, 3, 4, 8, 0, 0, 0, 1, 0x0, false⟩,  -- 0.10.011 HOST_ACCESS_ERRORS
  ⟨0x010012, 1, 0x1, 1, 0x1, 3, 4, 8, 0, 0, 0, 1, 0x0, false⟩,  -- 0.10.012 HOST_POISONED_CPL
  ⟨0x010013, 1, 0x1, 1, 0x1, 3, 4, 8, 0, 0, 0, 1, 0x0, false⟩  -- 0.10.013 HOST_RESET_DROPS
  ]

/-- Rows of area 0, part 1. -/
def objRows0p1 : List ObjRow := [
  ⟨0x010014, 1, 0x1, 1, 0x1, 3, 4, 8, 0, 0, 0, 1, 0x0, false⟩  -- 0.10.014 FLR_COUNT
  ]

/-- The object rows of area 0. -/
def objRows0 : List ObjRow := objRows0p0 ++ objRows0p1

/-- Rows of area 1, part 0. -/
def objRows1p0 : List ObjRow := [
  ⟨0x100000, 1, 0x1, 1, 0x1, 1, 0, 2, 256, 0, 0, 1, 0x0, false⟩,  -- 1.00.000 OD_ID
  ⟨0x100001, 1, 0x1, 1, 0x1, 2, 0, 4, 0, 0, 0, 1, 0x0, false⟩,  -- 1.00.001 OD_COUNT
  ⟨0x100002, 1, 0x1, 1, 0x1, 8, 0, 68680, 0, 0, 0, 1, 0x0, false⟩,  -- 1.00.002 OD_DIR
  ⟨0x100010, 1, 0x1, 1, 0x1, 3, 4, 8, 0, 0, 0, 1, 0x0, false⟩,  -- 1.00.010 CLAMP_COUNT
  ⟨0x100011, 1, 0x1, 1, 0x1, 8, 0, 40, 0, 0, 0, 1, 0x0, false⟩,  -- 1.00.011 CLAMP_LAST
  ⟨0x100012, 1, 0x1, 1, 0x1, 3, 4, 8, 0, 0, 0, 1, 0x0, false⟩,  -- 1.00.012 RO_WRITE_COUNT
  ⟨0x100013, 1, 0x1, 1, 0x1, 3, 4, 8, 0, 0, 0, 1, 0x0, false⟩,  -- 1.00.013 FW_OVERRIDE_COUNT
  ⟨0x100014, 1, 0x1, 1, 0x1, 3, 0, 8, 0, 0, 0, 1, 0x0, false⟩,  -- 1.00.014 STORE_WRITES
  ⟨0x100015, 1, 0x1, 1, 0x1, 6, 0, 1, 0, 0, 0, 1, 0x0, false⟩,  -- 1.00.015 STORE_STATE
  ⟨0x100016, 1, 0x1, 1, 0x1, 0, 3, 1, 0, 0, 0, 1, 0x0, false⟩,  -- 1.00.016 STORE_ERASE
  ⟨0x101000, 1, 0x1, 1, 0x1, 6, 2, 1, 1, 0, 1, 1, 0x0, true⟩,  -- 1.01.000 MGMT_EN
  ⟨0x101001, 1, 0x1, 1, 0x1, 8, 2, 16, 0, 0, 0, 1, 0x0, true⟩,  -- 1.01.001 MGMT_ADDR
  ⟨0x101002, 1, 0x1, 1, 0x1, 0, 2, 1, 64, 1, 128, 1, 0x0, true⟩,  -- 1.01.002 MGMT_PREFIX_LEN
  ⟨0x101003, 1, 0x1, 1, 0x1, 8, 2, 16, 0, 0, 0, 1, 0x0, true⟩,  -- 1.01.003 MGMT_GW
  ⟨0x10100F, 1, 0x1, 1, 0x1, 0, 1, 1, 0, 0, 0, 1, 0x0, false⟩,  -- 1.01.00F MGMT_COMMIT
  ⟨0x101010, 1, 0x1, 1, 0x1, 6, 0, 1, 0, 0, 0, 1, 0x0, false⟩,  -- 1.01.010 MGMT_LINK
  ⟨0x101011, 1, 0x1, 1, 0x1, 3, 0, 8, 0, 0, 0, 1, 0x0, false⟩,  -- 1.01.011 MGMT_MAC
  ⟨0x101012, 1, 0x1, 1, 0x1, 3, 4, 8, 0, 0, 0, 1, 0x0, false⟩,  -- 1.01.012 MGMT_RX_FRAMES
  ⟨0x101013, 1, 0x1, 1, 0x1, 3, 4, 8, 0, 0, 0, 1, 0x0, false⟩,  -- 1.01.013 MGMT_RX_DROP
  ⟨0x101014, 1, 0x1, 1, 0x1, 3, 4, 8, 0, 0, 0, 1, 0x0, false⟩,  -- 1.01.014 MGMT_TX_FRAMES
  ⟨0x102000, 1, 0x1, 1, 0x1, 1, 2, 2, 47331, 1024, 65535, 1, 0x0, true⟩,  -- 1.02.000 HOK_PORT
  ⟨0x102001, 1, 0x1, 1, 0x1, 1, 1, 2, 60, 10, 3600, 1, 0x0, false⟩,  -- 1.02.001 HOK_IDLE_S
  ⟨0x102002, 1, 0x1, 1, 0x1, 0, 0, 1, 0, 0, 0, 1, 0x0, false⟩,  -- 1.02.002 HOK_SESSIONS
  ⟨0x102010, 1, 0x1, 1, 0x1, 8, 2, 1024, 0, 0, 0, 1, 0x0, true⟩  -- 1.02.010 HOK_KEYS
  ]

/-- Rows of area 1, part 1. -/
def objRows1p1 : List ObjRow := [
  ⟨0x10200F, 1, 0x1, 1, 0x1, 0, 1, 1, 0, 0, 0, 1, 0x0, false⟩,  -- 1.02.00F HOK_COMMIT
  ⟨0x102020, 1, 0x1, 1, 0x1, 3, 4, 8, 0, 0, 0, 1, 0x0, false⟩,  -- 1.02.020 HOK_AUTH_FAIL
  ⟨0x102021, 1, 0x1, 1, 0x1, 3, 4, 8, 0, 0, 0, 1, 0x0, false⟩,  -- 1.02.021 HOK_MAC_FAIL
  ⟨0x102022, 1, 0x1, 1, 0x1, 3, 4, 8, 0, 0, 0, 1, 0x0, false⟩,  -- 1.02.022 HOK_REPLAY
  ⟨0x103000, 1, 0x1, 1, 0x1, 6, 1, 1, 1, 0, 2, 1, 0x0, true⟩,  -- 1.03.000 NOTIFY_LEVEL
  ⟨0x103001, 1, 0x1, 1, 0x1, 8, 2, 128, 0, 0, 0, 1, 0x0, true⟩,  -- 1.03.001 NOTIFY_DEST
  ⟨0x10300F, 1, 0x1, 1, 0x1, 0, 1, 1, 0, 0, 0, 1, 0x0, false⟩,  -- 1.03.00F NOTIFY_COMMIT
  ⟨0x103010, 1, 0x1, 1, 0x1, 3, 4, 8, 0, 0, 0, 1, 0x0, false⟩  -- 1.03.010 NOTIFY_LOST
  ]

/-- The object rows of area 1. -/
def objRows1 : List ObjRow := objRows1p0 ++ objRows1p1

/-- Rows of area 2, part 0. -/
def objRows2p0 : List ObjRow := [
  ⟨0x200000, 1, 0x1, 1, 0x1, 0, 0, 1, 16, 0, 0, 1, 0x0, false⟩,  -- 2.00.000 CTX_COUNT
  ⟨0x200001, 1, 0x1, 1, 0x1, 0, 0, 1, 4, 0, 0, 1, 0x0, false⟩,  -- 2.00.001 PRIV_MAX
  ⟨0x200002, 1, 0x1, 1, 0x1, 0, 0, 1, 1, 0, 0, 1, 0x0, false⟩,  -- 2.00.002 PRIV_COUNT
  ⟨0x200010, 1, 0x1, 1, 0x1, 3, 4, 8, 0, 0, 0, 1, 0x0, false⟩,  -- 2.00.010 DOORBELL_INVALID_COUNT
  ⟨0x200011, 1, 0x1, 1, 0x1, 3, 4, 8, 0, 0, 0, 1, 0x0, false⟩,  -- 2.00.011 ACCESS_DENIED_COUNT
  ⟨0x220000, 16, 0x1000, 1, 0x1, 8, 2, 1024, 0, 0, 0, 1, 0x0, false⟩,  -- 2.2x.000 SEG_TABLE
  ⟨0x220001, 16, 0x1000, 1, 0x1, 0, 1, 1, 0, 0, 0, 1, 0x0, false⟩,  -- 2.2x.001 SEG_COMMIT
  ⟨0x220010, 16, 0x1000, 1, 0x1, 6, 3, 1, 0, 0, 0, 1, 0x0, false⟩,  -- 2.2x.010 CTX_CTRL
  ⟨0x220011, 1, 0x1, 1, 0x1, 6, 0, 1, 1, 0, 0, 1, 0x0, false⟩,  -- 2.2x.011 CTX_STATE
  ⟨0x221011, 15, 0x1000, 1, 0x1, 6, 0, 1, 0, 0, 0, 1, 0x0, false⟩,  -- 2.2x.011 CTX_STATE
  ⟨0x220012, 1, 0x1, 1, 0x1, 7, 1, 1, 1, 0, 0, 1, 0x1, false⟩,  -- 2.2x.012 PRIV
  ⟨0x221012, 15, 0x1000, 1, 0x1, 7, 1, 1, 0, 0, 0, 1, 0x1, false⟩,  -- 2.2x.012 PRIV
  ⟨0x220013, 16, 0x1000, 1, 0x1, 6, 2, 1, 1, 0, 1, 1, 0x0, false⟩,  -- 2.2x.013 CTX_CLASS
  ⟨0x220014, 16, 0x1000, 1, 0x1, 6, 2, 1, 0, 0, 1, 1, 0x0, false⟩,  -- 2.2x.014 HOME_DIE
  ⟨0x220015, 16, 0x1000, 1, 0x1, 6, 2, 1, 1, 0, 1, 1, 0x0, false⟩,  -- 2.2x.015 FAULT_SCOPE
  ⟨0x22001F, 16, 0x1000, 1, 0x1, 0, 1, 1, 0, 0, 0, 1, 0x0, false⟩,  -- 2.2x.01F CTX_COMMIT
  ⟨0x220020, 16, 0x1000, 1, 0x1, 3, 1, 8, 0, 0, 0, 1, 0x0, false⟩,  -- 2.2x.020 STEP_NUM
  ⟨0x220021, 16, 0x1000, 1, 0x1, 2, 1, 4, 1000000, 1, 4294967295, 1, 0x0, false⟩,  -- 2.2x.021 WAIT_TMO
  ⟨0x220022, 16, 0x1000, 1, 0x1, 1, 0, 2, 0, 0, 0, 1, 0x0, false⟩,  -- 2.2x.022 FAULT_STATUS
  ⟨0x220023, 16, 0x1000, 1, 0x1, 6, 0, 1, 0, 0, 0, 1, 0x0, false⟩,  -- 2.2x.023 FAULT_QUEUE
  ⟨0x220024, 16, 0x1000, 1, 0x1, 2, 0, 4, 0, 0, 0, 1, 0x0, false⟩,  -- 2.2x.024 FAULT_DETAIL
  ⟨0x220025, 16, 0x1000, 1, 0x1, 3, 4, 8, 0, 0, 0, 1, 0x0, false⟩,  -- 2.2x.025 FAULT_COUNT
  ⟨0x220030, 16, 0x1000, 1, 0x1, 8, 0, 2048, 0, 0, 0, 1, 0x0, false⟩,  -- 2.2x.030 EVENTS
  ⟨0x220031, 16, 0x1000, 1, 0x1, 7, 0, 1, 0, 0, 0, 1, 0x0, false⟩  -- 2.2x.031 TIMERS_ARMED
  ]

/-- Rows of area 2, part 1. -/
def objRows2p1 : List ObjRow := [
  ⟨0x220032, 16, 0x1000, 1, 0x1, 3, 4, 8, 0, 0, 0, 1, 0x0, false⟩,  -- 2.2x.032 DEADLINE_MISS_COUNT
  ⟨0x220100, 16, 0x1000, 5, 0x10, 3, 2, 8, 0, 0, 0, 64, 0x0, false⟩,  -- 2.2x.1q0 SQ_BASE
  ⟨0x220101, 16, 0x1000, 5, 0x10, 0, 2, 1, 8, 4, 16, 1, 0x0, false⟩,  -- 2.2x.1q1 SQ_LOG2
  ⟨0x220102, 16, 0x1000, 5, 0x10, 3, 2, 8, 0, 0, 0, 64, 0x0, false⟩,  -- 2.2x.1q2 CQ_BASE
  ⟨0x220103, 16, 0x1000, 5, 0x10, 0, 2, 1, 8, 4, 16, 1, 0x0, false⟩,  -- 2.2x.1q3 CQ_LOG2
  ⟨0x220104, 16, 0x1000, 5, 0x10, 7, 2, 1, 0, 0, 0, 1, 0x1, false⟩,  -- 2.2x.1q4 IRQ_EN
  ⟨0x220107, 16, 0x1000, 5, 0x10, 0, 1, 1, 0, 0, 0, 1, 0x0, false⟩,  -- 2.2x.1q7 Q_COMMIT
  ⟨0x220108, 16, 0x1000, 5, 0x10, 6, 0, 1, 0, 0, 0, 1, 0x0, false⟩,  -- 2.2x.1q8 Q_STATE
  ⟨0x220109, 16, 0x1000, 5, 0x10, 2, 0, 4, 0, 0, 0, 1, 0x0, false⟩,  -- 2.2x.1q9 SQ_HEAD
  ⟨0x22010A, 16, 0x1000, 5, 0x10, 2, 0, 4, 0, 0, 0, 1, 0x0, false⟩,  -- 2.2x.1qA SQ_TAIL
  ⟨0x22010B, 16, 0x1000, 5, 0x10, 2, 0, 4, 0, 0, 0, 1, 0x0, false⟩,  -- 2.2x.1qB CQ_TAIL
  ⟨0x22010C, 16, 0x1000, 5, 0x10, 2, 0, 4, 0, 0, 0, 1, 0x0, false⟩,  -- 2.2x.1qC CQ_HEAD
  ⟨0x22010D, 16, 0x1000, 5, 0x10, 6, 3, 1, 0, 0, 0, 1, 0x0, false⟩,  -- 2.2x.1qD Q_CTRL
  ⟨0x22010E, 16, 0x1000, 5, 0x10, 3, 4, 8, 0, 0, 0, 1, 0x0, false⟩,  -- 2.2x.1qE CMD_DONE
  ⟨0x22010F, 16, 0x1000, 5, 0x10, 3, 4, 8, 0, 0, 0, 1, 0x0, false⟩  -- 2.2x.1qF LANE_MISS
  ]

/-- The object rows of area 2. -/
def objRows2 : List ObjRow := objRows2p0 ++ objRows2p1

/-- Rows of area 3, part 0. -/
def objRows3p0 : List ObjRow := [
  ⟨0x300000, 1, 0x1, 1, 0x1, 1, 0, 2, 256, 0, 0, 1, 0x0, false⟩,  -- 3.00.000 PRICKING_ID
  ⟨0x300010, 1, 0x1, 1, 0x1, 2, 1, 4, 200, 10, 10000, 1, 0x0, false⟩,  -- 3.00.010 SLICE_LC_US
  ⟨0x300011, 1, 0x1, 1, 0x1, 2, 1, 4, 200, 10, 10000, 1, 0x0, false⟩,  -- 3.00.011 SLICE_BE_US
  ⟨0x300012, 1, 0x1, 1, 0x1, 0, 1, 1, 0, 0, 25, 1, 0x0, false⟩,  -- 3.00.012 BE_MIN_SHARE
  ⟨0x300013, 1, 0x1, 1, 0x1, 0, 1, 1, 4, 1, 4, 1, 0x0, false⟩,  -- 3.00.013 NP_CORES_MAX
  ⟨0x300014, 1, 0x1, 1, 0x1, 1, 1, 2, 64, 1, 256, 1, 0x0, false⟩,  -- 3.00.014 CHAIN_MAX
  ⟨0x300015, 1, 0x1, 1, 0x1, 0, 0, 1, 8, 0, 0, 1, 0x0, false⟩,  -- 3.00.015 SWATCH_BOUND_US
  ⟨0x300016, 1, 0x1, 1, 0x1, 1, 0, 2, 1028, 0, 0, 1, 0x0, false⟩,  -- 3.00.016 NP_EFF
  ⟨0x300020, 1, 0x1, 1, 0x1, 7, 0, 4, 0, 0, 0, 1, 0x0, true⟩,  -- 3.00.020 FENCE_FW
  ⟨0x300021, 1, 0x1, 1, 0x1, 7, 1, 4, 0, 0, 0, 1, 0x0, false⟩,  -- 3.00.021 FENCE_SW
  ⟨0x300022, 1, 0x1, 1, 0x1, 7, 0, 4, 0, 0, 0, 1, 0x0, false⟩,  -- 3.00.022 FENCED
  ⟨0x300030, 1, 0x1, 1, 0x1, 0, 0, 1, 255, 0, 0, 1, 0x0, false⟩,  -- 3.00.030 LC_OWNER
  ⟨0x300031, 1, 0x1, 1, 0x1, 0, 0, 1, 255, 0, 0, 1, 0x0, false⟩,  -- 3.00.031 BE_OWNER
  ⟨0x300040, 1, 0x1, 1, 0x1, 2, 4, 4, 0, 0, 0, 1, 0x0, false⟩,  -- 3.00.040 LC_DISPATCH_MAX_NS
  ⟨0x300041, 1, 0x1, 1, 0x1, 3, 4, 8, 0, 0, 0, 1, 0x0, false⟩,  -- 3.00.041 LC_DISPATCH_OVER
  ⟨0x300042, 1, 0x1, 1, 0x1, 3, 4, 8, 0, 0, 0, 1, 0x0, false⟩,  -- 3.00.042 SAVE_COUNT
  ⟨0x300043, 1, 0x1, 1, 0x1, 3, 4, 8, 0, 0, 0, 1, 0x0, false⟩,  -- 3.00.043 SECTION_OVERRUN_COUNT
  ⟨0x320000, 16, 0x1000, 1, 0x1, 2, 0, 4, 0, 0, 0, 1, 0x0, false⟩,  -- 3.2x.000 DEBT_NS
  ⟨0x320001, 16, 0x1000, 1, 0x1, 3, 4, 8, 0, 0, 0, 1, 0x0, false⟩,  -- 3.2x.001 CORE_TIME_NS
  ⟨0x320002, 16, 0x1000, 1, 0x1, 2, 4, 4, 0, 0, 0, 1, 0x0, false⟩,  -- 3.2x.002 LC_DISPATCH_MAX_NS
  ⟨0x320003, 16, 0x1000, 1, 0x1, 2, 4, 4, 0, 0, 0, 1, 0x0, false⟩,  -- 3.2x.003 BE_WAIT_MAX_NS
  ⟨0x320004, 16, 0x1000, 1, 0x1, 3, 4, 8, 0, 0, 0, 1, 0x0, false⟩,  -- 3.2x.004 PREEMPTED
  ⟨0x320005, 16, 0x1000, 1, 0x1, 3, 4, 8, 0, 0, 0, 1, 0x0, false⟩,  -- 3.2x.005 OVERRUN_COUNT
  ⟨0x320006, 16, 0x1000, 1, 0x1, 3, 4, 8, 0, 0, 0, 1, 0x0, false⟩  -- 3.2x.006 DEFERRED_TILES
  ]

/-- Rows of area 3, part 1. -/
def objRows3p1 : List ObjRow := [
  ⟨0x320007, 16, 0x1000, 1, 0x1, 3, 4, 8, 0, 0, 0, 1, 0x0, false⟩,  -- 3.2x.007 YIELD_COUNT
  ⟨0x340000, 32, 0x1000, 1, 0x1, 6, 0, 1, 0, 0, 0, 1, 0x0, false⟩,  -- 3.bb.000 CORE_STATE
  ⟨0x340001, 32, 0x1000, 1, 0x1, 0, 0, 1, 255, 0, 0, 1, 0x0, false⟩,  -- 3.bb.001 CORE_CTX
  ⟨0x340002, 32, 0x1000, 1, 0x1, 0, 0, 1, 255, 0, 0, 1, 0x0, false⟩,  -- 3.bb.002 CORE_SPILL
  ⟨0x340003, 32, 0x1000, 1, 0x1, 3, 4, 8, 0, 0, 0, 1, 0x0, false⟩  -- 3.bb.003 CORE_TILES
  ]

/-- The object rows of area 3. -/
def objRows3 : List ObjRow := objRows3p0 ++ objRows3p1

/-- Rows of area 4, part 0. -/
def objRows4p0 : List ObjRow := [
  ⟨0x400000, 1, 0x1, 1, 0x1, 1, 0, 2, 256, 0, 0, 1, 0x0, false⟩,  -- 4.00.000 FMT_TABLE_ID
  ⟨0x400001, 1, 0x1, 1, 0x1, 7, 0, 2, 33791, 0, 0, 1, 0x0, false⟩,  -- 4.00.001 FMT_SUPPORTED
  ⟨0x420000, 16, 0x1000, 1, 0x1, 6, 1, 1, 0, 0, 2, 1, 0x0, false⟩,  -- 4.2x.000 DEF_RND
  ⟨0x420010, 16, 0x1000, 1, 0x1, 3, 4, 8, 0, 0, 0, 1, 0x0, false⟩,  -- 4.2x.010 SAT_COUNT
  ⟨0x420011, 16, 0x1000, 1, 0x1, 3, 4, 8, 0, 0, 0, 1, 0x0, false⟩,  -- 4.2x.011 OVF_COUNT
  ⟨0x420012, 16, 0x1000, 1, 0x1, 3, 4, 8, 0, 0, 0, 1, 0x0, false⟩,  -- 4.2x.012 NONFINITE_COUNT
  ⟨0x420013, 16, 0x1000, 1, 0x1, 3, 4, 8, 0, 0, 0, 1, 0x0, false⟩,  -- 4.2x.013 POISON_IN_COUNT
  ⟨0x420014, 16, 0x1000, 1, 0x1, 3, 4, 8, 0, 0, 0, 1, 0x0, false⟩,  -- 4.2x.014 POISON_LOST_COUNT
  ⟨0x420015, 16, 0x1000, 1, 0x1, 3, 4, 8, 0, 0, 0, 1, 0x0, false⟩,  -- 4.2x.015 HOLE_COUNT
  ⟨0x420016, 16, 0x1000, 1, 0x1, 3, 4, 8, 0, 0, 0, 1, 0x0, false⟩,  -- 4.2x.016 CODE_FAULT_COUNT
  ⟨0x420017, 16, 0x1000, 1, 0x1, 3, 4, 8, 0, 0, 0, 1, 0x0, false⟩,  -- 4.2x.017 FLUSH_COUNT
  ⟨0x420018, 16, 0x1000, 1, 0x1, 3, 4, 8, 0, 0, 0, 1, 0x0, false⟩,  -- 4.2x.018 CONV_ELEMENTS
  ⟨0x420020, 16, 0x1000, 1, 0x1, 7, 4, 1, 0, 0, 0, 1, 0x0, false⟩,  -- 4.2x.020 CONV_STICKY
  ⟨0x420030, 16, 0x1000, 1, 0x1, 6, 1, 1, 0, 0, 1, 1, 0x0, false⟩,  -- 4.2x.030 POISON_ACTION
  ⟨0x450000, 1, 0x1, 1, 0x1, 1, 0, 2, 256, 0, 0, 1, 0x0, false⟩,  -- 4.50.000 PILLOW_ID
  ⟨0x450001, 1, 0x1, 1, 0x1, 2, 0, 4, 8389120, 0, 0, 1, 0x0, false⟩,  -- 4.50.001 PILLOW_GEOM
  ⟨0x450002, 1, 0x1, 1, 0x1, 2, 0, 4, 262144, 0, 0, 1, 0x0, false⟩,  -- 4.50.002 DRAIN_BUF_BYTES
  ⟨0x420040, 16, 0x1000, 1, 0x1, 3, 4, 8, 0, 0, 0, 1, 0x0, false⟩,  -- 4.2x.040 ACC_SAT_COUNT
  ⟨0x420041, 16, 0x1000, 1, 0x1, 3, 4, 8, 0, 0, 0, 1, 0x0, false⟩,  -- 4.2x.041 PILLOW_CYCLES
  ⟨0x420042, 16, 0x1000, 1, 0x1, 3, 4, 8, 0, 0, 0, 1, 0x0, false⟩,  -- 4.2x.042 FEED_STALL_CYCLES
  ⟨0x420043, 16, 0x1000, 1, 0x1, 3, 4, 8, 0, 0, 0, 1, 0x0, false⟩,  -- 4.2x.043 REBLOCK_ROUNDED
  ⟨0x420044, 16, 0x1000, 1, 0x1, 3, 4, 8, 0, 0, 0, 1, 0x0, false⟩,  -- 4.2x.044 REDRAIN_COUNT
  ⟨0x460000, 32, 0x1000, 1, 0x1, 3, 4, 8, 0, 0, 0, 1, 0x0, false⟩,  -- 4.nn.000 PILLOW_BUSY
  ⟨0x460001, 32, 0x1000, 1, 0x1, 3, 4, 8, 0, 0, 0, 1, 0x0, false⟩  -- 4.nn.001 FEED_BYTES
  ]

/-- Rows of area 4, part 1. -/
def objRows4p1 : List ObjRow := [
  ⟨0x460002, 32, 0x1000, 1, 0x1, 3, 4, 8, 0, 0, 0, 1, 0x0, false⟩,  -- 4.nn.002 STREAM_STALL
  ⟨0x460003, 32, 0x1000, 1, 0x1, 3, 4, 8, 0, 0, 0, 1, 0x0, false⟩,  -- 4.nn.003 DRAIN_WAIT
  ⟨0x451000, 1, 0x1, 1, 0x1, 1, 0, 2, 256, 0, 0, 1, 0x0, false⟩,  -- 4.51.000 NEEDLE_ID
  ⟨0x451001, 1, 0x1, 1, 0x1, 2, 0, 4, 134743072, 0, 0, 1, 0x0, false⟩,  -- 4.51.001 NEEDLE_GEOM
  ⟨0x420050, 16, 0x1000, 1, 0x1, 3, 4, 8, 0, 0, 0, 1, 0x0, false⟩,  -- 4.2x.050 NEEDLE_CYCLES
  ⟨0x420051, 16, 0x1000, 1, 0x1, 3, 4, 8, 0, 0, 0, 1, 0x0, false⟩,  -- 4.2x.051 ISAT_COUNT
  ⟨0x420052, 16, 0x1000, 1, 0x1, 3, 4, 8, 0, 0, 0, 1, 0x0, false⟩,  -- 4.2x.052 FSAT_COUNT
  ⟨0x420053, 16, 0x1000, 1, 0x1, 3, 4, 8, 0, 0, 0, 1, 0x0, false⟩,  -- 4.2x.053 DOMAIN_COUNT
  ⟨0x420054, 16, 0x1000, 1, 0x1, 3, 4, 8, 0, 0, 0, 1, 0x0, false⟩,  -- 4.2x.054 RED_EMITS
  ⟨0x460010, 32, 0x1000, 1, 0x1, 3, 4, 8, 0, 0, 0, 1, 0x0, false⟩,  -- 4.nn.010 NEEDLE_BUSY
  ⟨0x460011, 32, 0x1000, 1, 0x1, 3, 4, 8, 0, 0, 0, 1, 0x0, false⟩,  -- 4.nn.011 NEEDLE_PORT_STALL
  ⟨0x452000, 1, 0x1, 1, 0x1, 1, 0, 2, 256, 0, 0, 1, 0x0, false⟩,  -- 4.52.000 HOOP_ID
  ⟨0x452001, 1, 0x1, 1, 0x1, 1, 0, 2, 1024, 0, 0, 1, 0x0, false⟩,  -- 4.52.001 HOOP_SLOTS
  ⟨0x452002, 1, 0x1, 1, 0x1, 1, 0, 2, 256, 0, 0, 1, 0x0, false⟩,  -- 4.52.002 SR_GEN_ID
  ⟨0x420060, 16, 0x1000, 1, 0x1, 3, 1, 8, 0, 0, 0, 1, 0x0, false⟩,  -- 4.2x.060 SR_SEED
  ⟨0x420061, 16, 0x1000, 1, 0x1, 6, 1, 1, 1, 0, 1, 1, 0x0, false⟩,  -- 4.2x.061 UF_ENABLE
  ⟨0x420062, 16, 0x1000, 1, 0x1, 1, 1, 2, 9990, 5000, 10000, 1, 0x0, false⟩,  -- 4.2x.062 UF_THRESH
  ⟨0x420063, 16, 0x1000, 1, 0x1, 1, 1, 2, 64, 1, 4096, 1, 0x0, false⟩,  -- 4.2x.063 UF_STEPS
  ⟨0x420064, 16, 0x1000, 1, 0x1, 6, 1, 1, 0, 0, 2, 1, 0x0, false⟩,  -- 4.2x.064 RECOMP_MODE
  ⟨0x420065, 16, 0x1000, 1, 0x1, 3, 2, 8, 0, 0, 0, 32, 0x0, false⟩,  -- 4.2x.065 WIDE_LOG_BASE
  ⟨0x420066, 16, 0x1000, 1, 0x1, 0, 2, 1, 8, 4, 16, 1, 0x0, false⟩,  -- 4.2x.066 WIDE_LOG_LOG2
  ⟨0x420067, 16, 0x1000, 1, 0x1, 0, 1, 1, 0, 0, 0, 1, 0x0, false⟩,  -- 4.2x.067 WIDE_LOG_COMMIT
  ⟨0x420068, 16, 0x1000, 1, 0x1, 2, 0, 4, 0, 0, 0, 1, 0x0, false⟩,  -- 4.2x.068 WIDE_LOG_TAIL
  ⟨0x420069, 16, 0x1000, 1, 0x1, 3, 4, 8, 0, 0, 0, 1, 0x0, false⟩  -- 4.2x.069 WIDE_LOG_DROP
  ]

/-- Rows of area 4, part 2. -/
def objRows4p2 : List ObjRow := [
  ⟨0x420070, 16, 0x1000, 1, 0x1, 3, 4, 8, 0, 0, 0, 1, 0x0, false⟩,  -- 4.2x.070 RECOMP1_COUNT
  ⟨0x420071, 16, 0x1000, 1, 0x1, 3, 4, 8, 0, 0, 0, 1, 0x0, false⟩,  -- 4.2x.071 RECOMP2_COUNT
  ⟨0x420072, 16, 0x1000, 1, 0x1, 3, 4, 8, 0, 0, 0, 1, 0x0, false⟩,  -- 4.2x.072 PROBE_TILES
  ⟨0x420073, 16, 0x1000, 1, 0x1, 3, 4, 8, 0, 0, 0, 1, 0x0, false⟩,  -- 4.2x.073 PROBED_SLOTS
  ⟨0x420074, 16, 0x1000, 1, 0x1, 3, 4, 8, 0, 0, 0, 1, 0x0, false⟩,  -- 4.2x.074 UF_EVENTS
  ⟨0x420075, 16, 0x1000, 1, 0x1, 3, 4, 8, 0, 0, 0, 1, 0x0, false⟩,  -- 4.2x.075 HISTORY_LOST
  ⟨0x430000, 16, 0x1000, 1, 0x1, 8, 2, 131072, 0, 0, 0, 1, 0x0, false⟩,  -- 4.3x.000 HOOP_RECORDS
  ⟨0x430001, 16, 0x1000, 1, 0x1, 0, 1, 1, 0, 0, 0, 1, 0x0, false⟩,  -- 4.3x.001 HOOP_COMMIT
  ⟨0x430002, 16, 0x1000, 1, 0x1, 8, 1, 131072, 0, 0, 0, 1, 0x0, false⟩,  -- 4.3x.002 HOOP_IMAGE
  ⟨0x430003, 16, 0x1000, 1, 0x1, 1, 3, 2, 0, 0, 0, 1, 0x0, false⟩  -- 4.3x.003 HOOP_FORGET
  ]

/-- The object rows of area 4. -/
def objRows4 : List ObjRow := objRows4p0 ++ objRows4p1 ++ objRows4p2

/-- Rows of area 5, part 0. -/
def objRows5p0 : List ObjRow := [
  ⟨0x500000, 1, 0x1, 1, 0x1, 1, 0, 2, 256, 0, 0, 1, 0x0, false⟩,  -- 5.00.000 ONCHIP_ID
  ⟨0x500001, 1, 0x1, 1, 0x1, 2, 0, 4, 1048704, 0, 0, 1, 0x0, false⟩,  -- 5.00.001 NEAR_GEOM
  ⟨0x500010, 1, 0x1, 1, 0x1, 0, 1, 1, 5, 0, 50, 1, 0x0, false⟩,  -- 5.00.010 NEAR_AGENT_MIN
  ⟨0x500011, 1, 0x1, 1, 0x1, 6, 0, 1, 0, 0, 0, 1, 0x0, false⟩,  -- 5.00.011 NEAR_REFRESH
  ⟨0x500012, 1, 0x1, 1, 0x1, 0, 1, 1, 12, 1, 96, 1, 0x0, false⟩,  -- 5.00.012 SCRUB_HOURS
  ⟨0x500020, 1, 0x1, 1, 0x1, 3, 4, 8, 0, 0, 0, 1, 0x0, false⟩,  -- 5.00.020 CE_SCRATCH
  ⟨0x500021, 1, 0x1, 1, 0x1, 3, 4, 8, 0, 0, 0, 1, 0x0, false⟩,  -- 5.00.021 CE_STAGING
  ⟨0x500022, 1, 0x1, 1, 0x1, 3, 4, 8, 0, 0, 0, 1, 0x0, false⟩,  -- 5.00.022 CE_NEAR
  ⟨0x500023, 1, 0x1, 1, 0x1, 3, 4, 8, 0, 0, 0, 1, 0x0, false⟩,  -- 5.00.023 UE_COUNT
  ⟨0x500030, 1, 0x1, 1, 0x1, 1, 0, 2, 8192, 0, 0, 1, 0x0, false⟩,  -- 5.00.030 BOBBIN_CHUNKS
  ⟨0x520000, 16, 0x1000, 1, 0x1, 3, 4, 8, 0, 0, 0, 1, 0x0, false⟩,  -- 5.2x.000 BOBBIN_BYTES
  ⟨0x520001, 16, 0x1000, 1, 0x1, 3, 4, 8, 0, 0, 0, 1, 0x0, false⟩,  -- 5.2x.001 STREAM_MISS_COUNT
  ⟨0x520002, 16, 0x1000, 1, 0x1, 2, 4, 4, 0, 0, 0, 1, 0x0, false⟩,  -- 5.2x.002 STREAM_LATE_MAX_NS
  ⟨0x520003, 16, 0x1000, 1, 0x1, 3, 4, 8, 0, 0, 0, 1, 0x0, false⟩,  -- 5.2x.003 REARM_COLLAPSED
  ⟨0x520004, 16, 0x1000, 1, 0x1, 3, 4, 8, 0, 0, 0, 1, 0x0, false⟩,  -- 5.2x.004 PACK_DROP
  ⟨0x520005, 16, 0x1000, 1, 0x1, 3, 4, 8, 0, 0, 0, 1, 0x0, false⟩,  -- 5.2x.005 PACK_LOSSY
  ⟨0x520006, 16, 0x1000, 1, 0x1, 3, 4, 8, 0, 0, 0, 1, 0x0, false⟩,  -- 5.2x.006 PACK_GRANULES
  ⟨0x520100, 16, 0x1000, 8, 0x10, 8, 1, 64, 0, 0, 0, 1, 0x0, false⟩,  -- 5.2x.1s0 STREAM_SHADOW
  ⟨0x520101, 16, 0x1000, 8, 0x10, 0, 3, 1, 0, 0, 0, 1, 0x0, false⟩,  -- 5.2x.1s1 STREAM_REARM
  ⟨0x520102, 16, 0x1000, 8, 0x10, 8, 0, 64, 0, 0, 0, 1, 0x0, false⟩,  -- 5.2x.1s2 STREAM_ACTIVE
  ⟨0x520103, 16, 0x1000, 8, 0x10, 6, 0, 1, 0, 0, 0, 1, 0x0, false⟩,  -- 5.2x.1s3 STREAM_STATE
  ⟨0x520104, 16, 0x1000, 8, 0x10, 2, 0, 4, 0, 0, 0, 1, 0x0, false⟩,  -- 5.2x.1s4 STREAM_XFER
  ⟨0x520105, 16, 0x1000, 8, 0x10, 7, 0, 1, 0, 0, 0, 1, 0x0, false⟩,  -- 5.2x.1s5 STREAM_PENDING
  ⟨0x520200, 16, 0x1000, 4, 0x10, 3, 2, 8, 0, 0, 0, 4096, 0x0, false⟩  -- 5.2x.2r0 PACK_BASE
  ]

/-- Rows of area 5, part 1. -/
def objRows5p1 : List ObjRow := [
  ⟨0x520201, 16, 0x1000, 4, 0x10, 3, 2, 8, 0, 0, 0, 4096, 0x0, false⟩,  -- 5.2x.2r1 PACK_LEN
  ⟨0x520202, 16, 0x1000, 4, 0x10, 6, 2, 1, 2, 2, 3, 1, 0x0, false⟩,  -- 5.2x.2r2 PACK_FMT
  ⟨0x520203, 16, 0x1000, 4, 0x10, 0, 2, 1, 3, 2, 4, 1, 0x0, false⟩,  -- 5.2x.2r3 PACK_S
  ⟨0x520207, 16, 0x1000, 4, 0x10, 0, 1, 1, 0, 0, 0, 1, 0x0, false⟩,  -- 5.2x.2r7 PACK_COMMIT
  ⟨0x540000, 64, 0x1000, 1, 0x1, 0, 2, 1, 255, 0, 0, 1, 0x0, false⟩,  -- 5.bb.000 PB_OWNER
  ⟨0x540001, 64, 0x1000, 1, 0x1, 3, 2, 8, 0, 0, 0, 65536, 0x0, false⟩,  -- 5.bb.001 PB_BASE
  ⟨0x540002, 64, 0x1000, 1, 0x1, 0, 2, 1, 2, 1, 16, 1, 0x0, false⟩,  -- 5.bb.002 PB_NSLOT
  ⟨0x540003, 64, 0x1000, 1, 0x1, 2, 2, 4, 64, 64, 1048576, 64, 0x0, false⟩,  -- 5.bb.003 PB_SLOT_KIB
  ⟨0x540004, 64, 0x1000, 1, 0x1, 0, 2, 1, 0, 0, 0, 1, 0x0, false⟩,  -- 5.bb.004 PB_REL_EVT
  ⟨0x54000F, 64, 0x1000, 1, 0x1, 0, 1, 1, 0, 0, 0, 1, 0x0, false⟩,  -- 5.bb.00F PB_COMMIT
  ⟨0x540010, 64, 0x1000, 1, 0x1, 0, 0, 1, 0, 0, 0, 1, 0x0, false⟩,  -- 5.bb.010 PB_GEN
  ⟨0x540011, 64, 0x1000, 1, 0x1, 2, 0, 4, 0, 0, 0, 1, 0x0, false⟩,  -- 5.bb.011 PB_FILL
  ⟨0x540012, 64, 0x1000, 1, 0x1, 3, 0, 8, 0, 0, 0, 1, 0x0, false⟩,  -- 5.bb.012 PB_REL_BASE
  ⟨0x540013, 64, 0x1000, 1, 0x1, 2, 0, 4, 0, 0, 0, 1, 0x0, false⟩,  -- 5.bb.013 PB_CREDITS_FREE
  ⟨0x540014, 64, 0x1000, 1, 0x1, 3, 4, 8, 0, 0, 0, 1, 0x0, false⟩,  -- 5.bb.014 PB_DISCARDED
  ⟨0x540015, 64, 0x1000, 1, 0x1, 3, 4, 8, 0, 0, 0, 1, 0x0, false⟩,  -- 5.bb.015 PB_WAIT_NS
  ⟨0x501000, 1, 0x1, 1, 0x1, 1, 0, 2, 256, 0, 0, 1, 0x0, false⟩,  -- 5.01.000 EXTMEM_ID
  ⟨0x501001, 1, 0x1, 1, 0x1, 2, 0, 4, 24576000, 0, 0, 1, 0x0, false⟩,  -- 5.01.001 FAST_RATE_MBPS
  ⟨0x501002, 1, 0x1, 1, 0x1, 1, 0, 2, 9600, 0, 0, 1, 0x0, false⟩,  -- 5.01.002 SLOW_RATE_MTS
  ⟨0x501003, 1, 0x1, 1, 0x1, 7, 0, 1, 15, 0, 0, 1, 0x0, false⟩,  -- 5.01.003 HALF_ONLINE
  ⟨0x501010, 1, 0x1, 1, 0x1, 6, 1, 1, 0, 0, 1, 1, 0x0, false⟩,  -- 5.01.010 ECC_MODE
  ⟨0x501011, 1, 0x1, 1, 0x1, 1, 1, 2, 16, 1, 65535, 1, 0x0, false⟩,  -- 5.01.011 LANE_ERR_THRESH
  ⟨0x501012, 1, 0x1, 1, 0x1, 2, 1, 4, 1000, 1, 86400000, 1, 0x0, false⟩,  -- 5.01.012 LANE_ERR_WINDOW_MS
  ⟨0x501013, 1, 0x1, 1, 0x1, 0, 1, 1, 24, 1, 168, 1, 0x0, false⟩  -- 5.01.013 EXT_SCRUB_HOURS_FAST
  ]

/-- Rows of area 5, part 2. -/
def objRows5p2 : List ObjRow := [
  ⟨0x501014, 1, 0x1, 1, 0x1, 0, 1, 1, 48, 1, 168, 1, 0x0, false⟩,  -- 5.01.014 EXT_SCRUB_HOURS_SLOW
  ⟨0x501015, 1, 0x1, 1, 0x1, 1, 1, 2, 2000, 100, 50000, 1, 0x0, false⟩,  -- 5.01.015 COUCH_HOLD_NS
  ⟨0x501020, 1, 0x1, 1, 0x1, 3, 4, 8, 0, 0, 0, 1, 0x0, false⟩,  -- 5.01.020 CE_FAST
  ⟨0x501021, 1, 0x1, 1, 0x1, 3, 4, 8, 0, 0, 0, 1, 0x0, false⟩,  -- 5.01.021 CE_SLOW
  ⟨0x501022, 1, 0x1, 1, 0x1, 3, 4, 8, 0, 0, 0, 1, 0x0, false⟩,  -- 5.01.022 UE_EXT
  ⟨0x501023, 1, 0x1, 1, 0x1, 3, 4, 8, 0, 0, 0, 1, 0x0, false⟩,  -- 5.01.023 DEFERRED_UE_COUNT
  ⟨0x501024, 1, 0x1, 1, 0x1, 3, 4, 8, 0, 0, 0, 1, 0x0, false⟩,  -- 5.01.024 RMW_COUNT
  ⟨0x501025, 1, 0x1, 1, 0x1, 3, 4, 8, 0, 0, 0, 1, 0x0, false⟩,  -- 5.01.025 COUCH_MERGES
  ⟨0x501026, 1, 0x1, 1, 0x1, 3, 4, 8, 0, 0, 0, 1, 0x0, false⟩,  -- 5.01.026 LANE_RETRY_OK
  ⟨0x501030, 1, 0x1, 1, 0x1, 3, 2, 8, 0, 0, 0, 65536, 0x0, false⟩,  -- 5.01.030 SPILL_POOL_BASE
  ⟨0x501031, 1, 0x1, 1, 0x1, 3, 2, 8, 0, 0, 0, 65536, 0x0, false⟩,  -- 5.01.031 SPILL_POOL_LEN
  ⟨0x501032, 1, 0x1, 1, 0x1, 3, 0, 8, 0, 0, 0, 1, 0x0, false⟩,  -- 5.01.032 SPILL_POOL_FREE
  ⟨0x50103F, 1, 0x1, 1, 0x1, 0, 1, 1, 0, 0, 0, 1, 0x0, false⟩,  -- 5.01.03F SPILL_POOL_COMMIT
  ⟨0x501040, 1, 0x1, 1, 0x1, 2, 0, 4, 2480000, 0, 0, 1, 0x0, false⟩,  -- 5.01.040 MIN_CEIL_NEAR
  ⟨0x501041, 1, 0x1, 1, 0x1, 2, 0, 4, 19680000, 0, 0, 1, 0x0, false⟩,  -- 5.01.041 MIN_CEIL_FAST
  ⟨0x501042, 1, 0x1, 1, 0x1, 2, 0, 4, 832000, 0, 0, 1, 0x0, false⟩,  -- 5.01.042 MIN_CEIL_SLOW
  ⟨0x520400, 16, 0x1000, 3, 0x10, 2, 1, 4, 0, 0, 0, 1, 0x0, false⟩,  -- 5.2x.4t0 MIN_MBPS
  ⟨0x520401, 16, 0x1000, 3, 0x10, 2, 1, 4, 4294967295, 0, 0, 1, 0x0, false⟩,  -- 5.2x.4t1 CAP_MBPS
  ⟨0x520402, 16, 0x1000, 3, 0x10, 2, 1, 4, 1024, 4, 65536, 1, 0x0, false⟩,  -- 5.2x.4t2 BURST_KIB
  ⟨0x520403, 16, 0x1000, 3, 0x10, 3, 4, 8, 0, 0, 0, 1, 0x0, false⟩,  -- 5.2x.4t3 TIER_BYTES
  ⟨0x520404, 16, 0x1000, 3, 0x10, 3, 4, 8, 0, 0, 0, 1, 0x0, false⟩,  -- 5.2x.4t4 GUAR_BYTES
  ⟨0x520405, 16, 0x1000, 3, 0x10, 3, 4, 8, 0, 0, 0, 1, 0x0, false⟩,  -- 5.2x.4t5 HELD_NS
  ⟨0x520500, 16, 0x1000, 1, 0x1, 0, 3, 1, 0, 0, 0, 1, 0x0, false⟩,  -- 5.2x.500 SPILL_REQ
  ⟨0x520501, 16, 0x1000, 1, 0x1, 0, 3, 1, 0, 0, 0, 1, 0x0, false⟩  -- 5.2x.501 FILL_REQ
  ]

/-- Rows of area 5, part 3. -/
def objRows5p3 : List ObjRow := [
  ⟨0x520502, 16, 0x1000, 1, 0x1, 3, 1, 8, 0, 0, 0, 4096, 0x0, false⟩,  -- 5.2x.502 FILL_BASE
  ⟨0x520503, 16, 0x1000, 1, 0x1, 6, 0, 1, 0, 0, 0, 1, 0x0, false⟩,  -- 5.2x.503 SPILL_STATE
  ⟨0x520504, 16, 0x1000, 1, 0x1, 1, 0, 2, 0, 0, 0, 1, 0x0, false⟩,  -- 5.2x.504 SPILL_RESULT
  ⟨0x520505, 16, 0x1000, 1, 0x1, 7, 0, 8, 0, 0, 0, 1, 0x0, false⟩,  -- 5.2x.505 SPILLED_SEGS
  ⟨0x520506, 16, 0x1000, 1, 0x1, 3, 0, 8, 0, 0, 0, 1, 0x0, false⟩,  -- 5.2x.506 SPILL_OLD_BASE
  ⟨0x590000, 12, 0x1000, 1, 0x1, 6, 0, 1, 0, 0, 0, 1, 0x0, false⟩,  -- 5.ss.000 STACK_STATE
  ⟨0x590001, 12, 0x1000, 1, 0x1, 4, 0, 4, 0, 0, 0, 1, 0x0, false⟩,  -- 5.ss.001 STACK_TEMP
  ⟨0x590002, 12, 0x1000, 1, 0x1, 8, 0, 64, 0, 0, 0, 1, 0x0, false⟩,  -- 5.ss.002 STACK_SPARES
  ⟨0x590003, 12, 0x1000, 1, 0x1, 8, 0, 512, 0, 0, 0, 1, 0x0, false⟩,  -- 5.ss.003 STACK_ERASED
  ⟨0x590004, 12, 0x1000, 1, 0x1, 3, 4, 8, 0, 0, 0, 1, 0x0, false⟩,  -- 5.ss.004 STACK_CE
  ⟨0x590005, 12, 0x1000, 1, 0x1, 3, 4, 8, 0, 0, 0, 1, 0x0, false⟩,  -- 5.ss.005 STACK_UE
  ⟨0x590006, 12, 0x1000, 1, 0x1, 8, 4, 9216, 0, 0, 0, 1, 0x0, false⟩,  -- 5.ss.006 STACK_LANE_CE
  ⟨0x5A0000, 8, 0x1000, 1, 0x1, 6, 0, 1, 0, 0, 0, 1, 0x0, false⟩,  -- 5.pp.000 PKG_STATE
  ⟨0x5A0001, 8, 0x1000, 1, 0x1, 4, 0, 4, 0, 0, 0, 1, 0x0, false⟩,  -- 5.pp.001 PKG_TEMP
  ⟨0x5A0003, 8, 0x1000, 1, 0x1, 8, 0, 16, 0, 0, 0, 1, 0x0, false⟩,  -- 5.pp.003 PKG_ERASED
  ⟨0x5A0004, 8, 0x1000, 1, 0x1, 3, 4, 8, 0, 0, 0, 1, 0x0, false⟩,  -- 5.pp.004 PKG_CE
  ⟨0x5A0005, 8, 0x1000, 1, 0x1, 3, 4, 8, 0, 0, 0, 1, 0x0, false⟩,  -- 5.pp.005 PKG_UE
  ⟨0x5A0006, 8, 0x1000, 1, 0x1, 8, 4, 512, 0, 0, 0, 1, 0x0, false⟩,  -- 5.pp.006 PKG_LANE_CE
  ⟨0x502000, 1, 0x1, 1, 0x1, 1, 0, 2, 256, 0, 0, 1, 0x0, false⟩,  -- 5.02.000 PICOT_ID
  ⟨0x502001, 1, 0x1, 1, 0x1, 2, 0, 4, 1090523136, 0, 0, 1, 0x0, false⟩,  -- 5.02.001 PICOT_GEOM
  ⟨0x502010, 1, 0x1, 1, 0x1, 2, 4, 4, 0, 0, 0, 1, 0x0, false⟩,  -- 5.02.010 LOCK_WAIT_MAX_NS
  ⟨0x502011, 1, 0x1, 1, 0x1, 3, 4, 8, 0, 0, 0, 1, 0x0, false⟩,  -- 5.02.011 BATCH_TORN_COUNT
  ⟨0x520600, 16, 0x1000, 1, 0x1, 3, 4, 8, 0, 0, 0, 1, 0x0, false⟩,  -- 5.2x.600 PICOT_ROWS_READ
  ⟨0x520601, 16, 0x1000, 1, 0x1, 3, 4, 8, 0, 0, 0, 1, 0x0, false⟩  -- 5.2x.601 PICOT_ROWS_WRITTEN
  ]

/-- Rows of area 5, part 4. -/
def objRows5p4 : List ObjRow := [
  ⟨0x520602, 16, 0x1000, 1, 0x1, 3, 4, 8, 0, 0, 0, 1, 0x0, false⟩,  -- 5.2x.602 PICOT_DUP_MERGED
  ⟨0x520603, 16, 0x1000, 1, 0x1, 3, 4, 8, 0, 0, 0, 1, 0x0, false⟩,  -- 5.2x.603 PICOT_COLD_ROWS
  ⟨0x520604, 16, 0x1000, 1, 0x1, 3, 4, 8, 0, 0, 0, 1, 0x0, false⟩,  -- 5.2x.604 PICOT_BATCHES
  ⟨0x520605, 16, 0x1000, 1, 0x1, 3, 4, 8, 0, 0, 0, 1, 0x0, false⟩  -- 5.2x.605 PICOT_LOCK_WAIT_NS
  ]

/-- The object rows of area 5. -/
def objRows5 : List ObjRow := objRows5p0 ++ objRows5p1 ++ objRows5p2 ++ objRows5p3 ++ objRows5p4

/-- Rows of area 6, part 0. -/
def objRows6p0 : List ObjRow := [
  ⟨0x600000, 1, 0x1, 1, 0x1, 1, 0, 2, 256, 0, 0, 1, 0x0, false⟩,  -- 6.00.000 EXB_ID
  ⟨0x600001, 1, 0x1, 1, 0x1, 2, 0, 4, 0, 0, 0, 1, 0x0, false⟩,  -- 6.00.001 INCARNATION
  ⟨0x600002, 1, 0x1, 1, 0x1, 1, 2, 2, 47330, 1024, 65535, 1, 0x0, false⟩,  -- 6.00.002 UDP_PORT
  ⟨0x600003, 1, 0x1, 1, 0x1, 0, 1, 1, 64, 1, 255, 1, 0x0, false⟩,  -- 6.00.003 HOP_LIMIT
  ⟨0x600004, 1, 0x1, 1, 0x1, 1, 1, 2, 64, 1, 65535, 1, 0x0, false⟩,  -- 6.00.004 VIOL_MAX
  ⟨0x600005, 1, 0x1, 1, 0x1, 1, 1, 2, 10, 1, 10000, 1, 0x0, false⟩,  -- 6.00.005 OPEN_RETRY_MS
  ⟨0x600010, 1, 0x1, 1, 0x1, 3, 4, 8, 0, 0, 0, 1, 0x0, false⟩,  -- 6.00.010 RX_MALFORMED
  ⟨0x600011, 1, 0x1, 1, 0x1, 3, 4, 8, 0, 0, 0, 1, 0x0, false⟩,  -- 6.00.011 RX_STALE
  ⟨0x600012, 1, 0x1, 1, 0x1, 3, 4, 8, 0, 0, 0, 1, 0x0, false⟩,  -- 6.00.012 REPLY_SUPPRESSED
  ⟨0x600013, 1, 0x1, 1, 0x1, 3, 4, 8, 0, 0, 0, 1, 0x0, false⟩,  -- 6.00.013 HANDSHAKE_FAIL
  ⟨0x600014, 1, 0x1, 1, 0x1, 1, 0, 2, 0, 0, 0, 1, 0x0, false⟩,  -- 6.00.014 SESSIONS_OPEN
  ⟨0x601000, 1, 0x1, 1, 0x1, 0, 1, 1, 0, 0, 0, 1, 0x0, false⟩,  -- 6.01.000 PORTS_COMMIT_IO0
  ⟨0x601001, 1, 0x1, 1, 0x1, 0, 1, 1, 0, 0, 0, 1, 0x0, false⟩,  -- 6.01.001 PORTS_COMMIT_IO1
  ⟨0x610000, 8, 0x1000, 1, 0x1, 6, 2, 1, 0, 0, 1, 1, 0x0, false⟩,  -- 6.1p.000 PORT_EN
  ⟨0x610001, 8, 0x1000, 1, 0x1, 6, 2, 1, 0, 0, 1, 1, 0x0, false⟩,  -- 6.1p.001 PORT_SPEED
  ⟨0x610002, 8, 0x1000, 1, 0x1, 6, 2, 1, 0, 0, 2, 1, 0x0, false⟩,  -- 6.1p.002 PORT_CLASS
  ⟨0x610003, 8, 0x1000, 1, 0x1, 8, 2, 16, 0, 0, 0, 1, 0x0, false⟩,  -- 6.1p.003 PORT_ADDR
  ⟨0x610004, 8, 0x1000, 1, 0x1, 3, 2, 8, 0, 0, 0, 1, 0xFFFFFFFFFFFF, false⟩,  -- 6.1p.004 GW_MAC
  ⟨0x610005, 8, 0x1000, 1, 0x1, 0, 2, 1, 128, 0, 128, 1, 0x0, false⟩,  -- 6.1p.005 METRO_BUF_MIB
  ⟨0x610006, 8, 0x1000, 1, 0x1, 0, 2, 1, 4, 1, 16, 1, 0x0, false⟩,  -- 6.1p.006 FLOW_PATHS
  ⟨0x610007, 8, 0x1000, 1, 0x1, 6, 2, 1, 2, 0, 3, 1, 0x0, false⟩,  -- 6.1p.007 MTU
  ⟨0x610010, 8, 0x1000, 1, 0x1, 3, 0, 8, 0, 0, 0, 1, 0x0, false⟩,  -- 6.1p.010 PORT_MAC
  ⟨0x610011, 8, 0x1000, 1, 0x1, 6, 0, 1, 0, 0, 0, 1, 0x0, false⟩,  -- 6.1p.011 LINK_STATE
  ⟨0x610012, 8, 0x1000, 1, 0x1, 3, 4, 8, 0, 0, 0, 1, 0x0, false⟩  -- 6.1p.012 FEC_SYM_CORR
  ]

/-- Rows of area 6, part 1. -/
def objRows6p1 : List ObjRow := [
  ⟨0x610013, 8, 0x1000, 1, 0x1, 3, 4, 8, 0, 0, 0, 1, 0x0, false⟩,  -- 6.1p.013 FEC_CW_UNCORR
  ⟨0x610014, 8, 0x1000, 1, 0x1, 3, 4, 8, 0, 0, 0, 1, 0x0, false⟩,  -- 6.1p.014 TX_FRAMES
  ⟨0x610015, 8, 0x1000, 1, 0x1, 3, 4, 8, 0, 0, 0, 1, 0x0, false⟩,  -- 6.1p.015 RX_FRAMES
  ⟨0x610016, 8, 0x1000, 1, 0x1, 3, 4, 8, 0, 0, 0, 1, 0x0, false⟩,  -- 6.1p.016 RX_DROP
  ⟨0x610017, 8, 0x1000, 1, 0x1, 3, 4, 8, 0, 0, 0, 1, 0x0, false⟩,  -- 6.1p.017 RX_CE
  ⟨0x610018, 8, 0x1000, 1, 0x1, 3, 4, 8, 0, 0, 0, 1, 0x0, false⟩,  -- 6.1p.018 LINK_DOWN_COUNT
  ⟨0x610019, 8, 0x1000, 1, 0x1, 2, 0, 4, 0, 0, 0, 1, 0x0, false⟩,  -- 6.1p.019 METRO_BUF_USED
  ⟨0x620000, 16, 0x1000, 1, 0x1, 2, 2, 4, 0, 0, 0, 1, 0x0, false⟩,  -- 6.2x.000 OWN_JOB
  ⟨0x620001, 16, 0x1000, 1, 0x1, 2, 2, 4, 0, 0, 131071, 1, 0x0, false⟩,  -- 6.2x.001 OWN_RANK
  ⟨0x620002, 16, 0x1000, 1, 0x1, 1, 0, 2, 0, 0, 0, 1, 0x0, false⟩,  -- 6.2x.002 CGEN
  ⟨0x620003, 16, 0x1000, 1, 0x1, 3, 4, 8, 0, 0, 0, 1, 0x0, false⟩,  -- 6.2x.003 TX_BYTES
  ⟨0x620004, 16, 0x1000, 1, 0x1, 3, 4, 8, 0, 0, 0, 1, 0x0, false⟩,  -- 6.2x.004 RETX_PKTS
  ⟨0x620005, 16, 0x1000, 1, 0x1, 3, 4, 8, 0, 0, 0, 1, 0x0, false⟩,  -- 6.2x.005 RNR_PKTS
  ⟨0x620006, 16, 0x1000, 1, 0x1, 3, 4, 8, 0, 0, 0, 1, 0x0, false⟩,  -- 6.2x.006 DUP_PKTS
  ⟨0x620007, 16, 0x1000, 1, 0x1, 3, 4, 8, 0, 0, 0, 1, 0x0, false⟩,  -- 6.2x.007 RANGE_DROP
  ⟨0x620008, 16, 0x1000, 1, 0x1, 3, 4, 8, 0, 0, 0, 1, 0x0, false⟩,  -- 6.2x.008 VIOLATIONS
  ⟨0x620009, 16, 0x1000, 1, 0x1, 3, 4, 8, 0, 0, 0, 1, 0x0, false⟩,  -- 6.2x.009 SESS_LOST_COUNT
  ⟨0x630000, 1, 0x1, 1, 0x1, 2, 1, 4, 40, 10, 100000, 1, 0x0, false⟩,  -- 6.3k.000 RTO_US
  ⟨0x631000, 1, 0x1, 1, 0x1, 2, 1, 4, 100, 10, 100000, 1, 0x0, false⟩,  -- 6.3k.000 RTO_US
  ⟨0x632000, 1, 0x1, 1, 0x1, 2, 1, 4, 1500, 10, 100000, 1, 0x0, false⟩,  -- 6.3k.000 RTO_US
  ⟨0x630001, 1, 0x1, 1, 0x1, 2, 1, 4, 1000, 100, 10000000, 1, 0x0, false⟩,  -- 6.3k.001 LOSS_US
  ⟨0x631001, 1, 0x1, 1, 0x1, 2, 1, 4, 2500, 100, 10000000, 1, 0x0, false⟩,  -- 6.3k.001 LOSS_US
  ⟨0x632001, 1, 0x1, 1, 0x1, 2, 1, 4, 25000, 100, 10000000, 1, 0x0, false⟩,  -- 6.3k.001 LOSS_US
  ⟨0x630002, 1, 0x1, 1, 0x1, 2, 1, 4, 250, 10, 10000000, 1, 0x0, false⟩  -- 6.3k.002 PROBE_IDLE_US
  ]

/-- Rows of area 6, part 2. -/
def objRows6p2 : List ObjRow := [
  ⟨0x631002, 1, 0x1, 1, 0x1, 2, 1, 4, 500, 10, 10000000, 1, 0x0, false⟩,  -- 6.3k.002 PROBE_IDLE_US
  ⟨0x632002, 1, 0x1, 1, 0x1, 2, 1, 4, 5000, 10, 10000000, 1, 0x0, false⟩,  -- 6.3k.002 PROBE_IDLE_US
  ⟨0x630003, 1, 0x1, 1, 0x1, 2, 1, 4, 2000, 100, 10000000, 1, 0x0, false⟩,  -- 6.3k.003 REORDER_NS
  ⟨0x631003, 1, 0x1, 1, 0x1, 2, 1, 4, 4000, 100, 10000000, 1, 0x0, false⟩,  -- 6.3k.003 REORDER_NS
  ⟨0x632003, 1, 0x1, 1, 0x1, 2, 1, 4, 20000, 100, 10000000, 1, 0x0, false⟩,  -- 6.3k.003 REORDER_NS
  ⟨0x630004, 1, 0x1, 1, 0x1, 2, 1, 4, 2048, 64, 131072, 1, 0x0, false⟩,  -- 6.3k.004 SEND_WIN_KIB
  ⟨0x631004, 1, 0x1, 1, 0x1, 2, 1, 4, 8192, 64, 131072, 1, 0x0, false⟩,  -- 6.3k.004 SEND_WIN_KIB
  ⟨0x632004, 1, 0x1, 1, 0x1, 2, 1, 4, 65536, 64, 131072, 1, 0x0, false⟩,  -- 6.3k.004 SEND_WIN_KIB
  ⟨0x630005, 1, 0x1, 1, 0x1, 0, 1, 1, 100, 1, 100, 1, 0x0, false⟩,  -- 6.3k.005 RATE_INIT_PCT
  ⟨0x631005, 1, 0x1, 1, 0x1, 0, 1, 1, 50, 1, 100, 1, 0x0, false⟩,  -- 6.3k.005 RATE_INIT_PCT
  ⟨0x632005, 1, 0x1, 1, 0x1, 0, 1, 1, 25, 1, 100, 1, 0x0, false⟩,  -- 6.3k.005 RATE_INIT_PCT
  ⟨0x630006, 1, 0x1, 1, 0x1, 1, 1, 2, 10, 1, 100, 1, 0x0, false⟩,  -- 6.3k.006 RAI_PERMIL
  ⟨0x631006, 1, 0x1, 1, 0x1, 1, 1, 2, 10, 1, 100, 1, 0x0, false⟩,  -- 6.3k.006 RAI_PERMIL
  ⟨0x632006, 1, 0x1, 1, 0x1, 1, 1, 2, 5, 1, 100, 1, 0x0, false⟩,  -- 6.3k.006 RAI_PERMIL
  ⟨0x630007, 1, 0x1, 1, 0x1, 2, 1, 4, 10, 1, 100000, 1, 0x0, false⟩,  -- 6.3k.007 INC_US
  ⟨0x631007, 1, 0x1, 1, 0x1, 2, 1, 4, 20, 1, 100000, 1, 0x0, false⟩,  -- 6.3k.007 INC_US
  ⟨0x632007, 1, 0x1, 1, 0x1, 2, 1, 4, 1000, 1, 100000, 1, 0x0, false⟩,  -- 6.3k.007 INC_US
  ⟨0x630008, 1, 0x1, 1, 0x1, 2, 1, 4, 5, 1, 100000, 1, 0x0, false⟩,  -- 6.3k.008 RNR_US
  ⟨0x631008, 1, 0x1, 1, 0x1, 2, 1, 4, 10, 1, 100000, 1, 0x0, false⟩,  -- 6.3k.008 RNR_US
  ⟨0x632008, 1, 0x1, 1, 0x1, 2, 1, 4, 100, 1, 100000, 1, 0x0, false⟩,  -- 6.3k.008 RNR_US
  ⟨0x630009, 3, 0x1000, 1, 0x1, 0, 1, 1, 16, 1, 64, 1, 0x0, false⟩,  -- 6.3k.009 ACK_EVERY
  ⟨0x63000A, 1, 0x1, 1, 0x1, 2, 1, 4, 1000, 100, 1000000, 1, 0x0, false⟩,  -- 6.3k.00A ACK_DELAY_NS
  ⟨0x63100A, 1, 0x1, 1, 0x1, 2, 1, 4, 2000, 100, 1000000, 1, 0x0, false⟩,  -- 6.3k.00A ACK_DELAY_NS
  ⟨0x63200A, 1, 0x1, 1, 0x1, 2, 1, 4, 20000, 100, 1000000, 1, 0x0, false⟩  -- 6.3k.00A ACK_DELAY_NS
  ]

/-- Rows of area 6, part 3. -/
def objRows6p3 : List ObjRow := [
  ⟨0x63000B, 3, 0x1000, 1, 0x1, 0, 1, 1, 26, 0, 63, 1, 0x0, false⟩,  -- 6.3k.00B DSCP
  ⟨0x640000, 1, 0x1, 1, 0x1, 6, 1, 1, 0, 0, 1, 1, 0x0, false⟩,  -- 6.40.000 PTP_EN
  ⟨0x640001, 1, 0x1, 1, 0x1, 0, 1, 1, 0, 0, 7, 1, 0x0, false⟩,  -- 6.40.001 PTP_PORT
  ⟨0x640002, 1, 0x1, 1, 0x1, 0, 1, 1, 0, 0, 127, 1, 0x0, false⟩,  -- 6.40.002 PTP_DOMAIN
  ⟨0x640003, 1, 0x1, 1, 0x1, 2, 1, 4, 1000000, 1000, 4294967295, 1, 0x0, false⟩,  -- 6.40.003 PTP_STEP_NS
  ⟨0x640010, 1, 0x1, 1, 0x1, 6, 0, 1, 0, 0, 0, 1, 0x0, false⟩,  -- 6.40.010 PTP_STATE
  ⟨0x640011, 1, 0x1, 1, 0x1, 4, 0, 4, 0, 0, 0, 1, 0x0, false⟩,  -- 6.40.011 PTP_OFFSET_NS
  ⟨0x640012, 1, 0x1, 1, 0x1, 8, 0, 8, 0, 0, 0, 1, 0x0, false⟩,  -- 6.40.012 PTP_GM_ID
  ⟨0x640013, 1, 0x1, 1, 0x1, 3, 4, 8, 0, 0, 0, 1, 0x0, false⟩,  -- 6.40.013 PTP_STEPS
  ⟨0x650000, 1, 0x1, 1, 0x1, 8, 2, 524288, 0, 0, 0, 1, 0x0, false⟩,  -- 6.50.000 PEER_TABLE
  ⟨0x650001, 1, 0x1, 1, 0x1, 0, 1, 1, 0, 0, 0, 1, 0x0, false⟩,  -- 6.50.001 PEER_COMMIT
  ⟨0x650002, 1, 0x1, 1, 0x1, 8, 0, 8192, 0, 0, 0, 1, 0x0, false⟩,  -- 6.50.002 PEER_STATE
  ⟨0x650003, 1, 0x1, 1, 0x1, 8, 0, 32768, 0, 0, 0, 1, 0x0, false⟩  -- 6.50.003 PEER_RTT
  ]

/-- The object rows of area 6. -/
def objRows6 : List ObjRow := objRows6p0 ++ objRows6p1 ++ objRows6p2 ++ objRows6p3

/-- Rows of area 7, part 0. -/
def objRows7p0 : List ObjRow := [
  ⟨0x700000, 1, 0x1, 1, 0x1, 1, 0, 2, 256, 0, 0, 1, 0x0, false⟩,  -- 7.00.000 PLAIT_ID
  ⟨0x700001, 1, 0x1, 1, 0x1, 1, 0, 2, 1024, 0, 0, 1, 0x0, false⟩,  -- 7.00.001 PLAIT_GROUPS
  ⟨0x700002, 1, 0x1, 1, 0x1, 2, 0, 4, 262144, 0, 0, 1, 0x0, false⟩,  -- 7.00.002 PLAIT_POOL
  ⟨0x700010, 1, 0x1, 1, 0x1, 2, 1, 4, 2000, 100, 1000000, 1, 0x0, false⟩,  -- 7.00.010 COLL_TMO_SHORT_US
  ⟨0x700011, 1, 0x1, 1, 0x1, 2, 1, 4, 5000, 100, 1000000, 1, 0x0, false⟩,  -- 7.00.011 COLL_TMO_HALL_US
  ⟨0x700012, 1, 0x1, 1, 0x1, 2, 1, 4, 50000, 100, 1000000, 1, 0x0, false⟩,  -- 7.00.012 COLL_TMO_METRO_US
  ⟨0x700013, 1, 0x1, 1, 0x1, 2, 1, 4, 30000, 1, 3600000, 1, 0x0, false⟩,  -- 7.00.013 COLL_FIRST_MS
  ⟨0x700014, 1, 0x1, 1, 0x1, 6, 1, 1, 1, 0, 1, 1, 0x0, false⟩,  -- 7.00.014 ABORT_RELAY
  ⟨0x701000, 1, 0x1, 1, 0x1, 8, 2, 32768, 0, 0, 0, 1, 0x0, false⟩,  -- 7.01.000 GROUP_TABLE
  ⟨0x701001, 1, 0x1, 1, 0x1, 8, 2, 524288, 0, 0, 0, 1, 0x0, false⟩,  -- 7.01.001 MEMBER_POOL
  ⟨0x701002, 1, 0x1, 1, 0x1, 8, 0, 1024, 0, 0, 0, 1, 0x0, false⟩,  -- 7.01.002 GROUP_STATE
  ⟨0x701003, 1, 0x1, 1, 0x1, 8, 0, 4096, 0, 0, 0, 1, 0x0, false⟩,  -- 7.01.003 GROUP_LOST
  ⟨0x70100F, 1, 0x1, 1, 0x1, 0, 1, 1, 0, 0, 0, 1, 0x0, false⟩,  -- 7.01.00F GROUP_COMMIT
  ⟨0x720000, 16, 0x1000, 1, 0x1, 3, 4, 8, 0, 0, 0, 1, 0x0, false⟩,  -- 7.2x.000 COLL_DONE
  ⟨0x720001, 16, 0x1000, 1, 0x1, 3, 4, 8, 0, 0, 0, 1, 0x0, false⟩,  -- 7.2x.001 MERGE_ELEMS
  ⟨0x720002, 16, 0x1000, 1, 0x1, 3, 4, 8, 0, 0, 0, 1, 0x0, false⟩,  -- 7.2x.002 SECTIONS
  ⟨0x720003, 16, 0x1000, 1, 0x1, 3, 4, 8, 0, 0, 0, 1, 0x0, false⟩,  -- 7.2x.003 PEER_LOST_COUNT
  ⟨0x720004, 16, 0x1000, 1, 0x1, 3, 4, 8, 0, 0, 0, 1, 0x0, false⟩,  -- 7.2x.004 MISMATCH_COUNT
  ⟨0x720005, 16, 0x1000, 1, 0x1, 5, 4, 4, 0, 0, 0, 1, 0x0, false⟩,  -- 7.2x.005 C4_RESID_MAX
  ⟨0x720006, 16, 0x1000, 1, 0x1, 3, 4, 8, 0, 0, 0, 1, 0x0, false⟩,  -- 7.2x.006 RELAYS_SENT
  ⟨0x720007, 16, 0x1000, 1, 0x1, 3, 4, 8, 0, 0, 0, 1, 0x0, false⟩  -- 7.2x.007 RELAYS_DROPPED
  ]

/-- The object rows of area 7. -/
def objRows7 : List ObjRow := objRows7p0

/-- Rows of area 8, part 0. -/
def objRows8p0 : List ObjRow := [
  ⟨0x800000, 1, 0x1, 1, 0x1, 1, 0, 2, 256, 0, 0, 1, 0x0, false⟩,  -- 8.00.000 LIFECYCLE_ID
  ⟨0x800001, 1, 0x1, 1, 0x1, 6, 1, 1, 1, 0, 1, 1, 0x0, false⟩,  -- 8.00.001 AUTO_ACTIVATE
  ⟨0x800002, 1, 0x1, 1, 0x1, 1, 1, 2, 30, 1, 3600, 1, 0x0, false⟩,  -- 8.00.002 SHARD_TMO_S
  ⟨0x800003, 1, 0x1, 1, 0x1, 6, 0, 1, 0, 0, 0, 1, 0x0, false⟩,  -- 8.00.003 ADMIT_PAUSE
  ⟨0x800004, 1, 0x1, 1, 0x1, 0, 3, 1, 0, 0, 0, 1, 0x0, false⟩,  -- 8.00.004 ACTIVATE
  ⟨0x800005, 1, 0x1, 1, 0x1, 0, 3, 1, 0, 0, 0, 1, 0x0, false⟩,  -- 8.00.005 SWAP
  ⟨0x800006, 1, 0x1, 1, 0x1, 6, 0, 1, 0, 0, 0, 1, 0x0, false⟩,  -- 8.00.006 SWAP_RESULT
  ⟨0x800010, 1, 0x1, 1, 0x1, 3, 2, 8, 0, 0, 0, 64, 0x0, false⟩,  -- 8.00.010 LOAD_MANIFEST
  ⟨0x800011, 1, 0x1, 1, 0x1, 0, 2, 1, 0, 0, 15, 1, 0x0, false⟩,  -- 8.00.011 LOAD_CTX
  ⟨0x800012, 1, 0x1, 1, 0x1, 6, 2, 1, 0, 0, 1, 1, 0x0, false⟩,  -- 8.00.012 LOAD_MODE
  ⟨0x800013, 1, 0x1, 1, 0x1, 6, 2, 1, 3, 0, 4, 1, 0x0, false⟩,  -- 8.00.013 LOAD_SLOT
  ⟨0x800014, 1, 0x1, 1, 0x1, 1, 2, 2, 65535, 0, 0, 1, 0x0, false⟩,  -- 8.00.014 LOAD_PRED
  ⟨0x800015, 1, 0x1, 1, 0x1, 1, 2, 2, 65535, 0, 0, 1, 0x0, false⟩,  -- 8.00.015 LOAD_SUCC
  ⟨0x800016, 4, 0x1, 1, 0x1, 3, 2, 8, 0, 0, 0, 4096, 0x0, false⟩,  -- 8.00.016–019 COPY_ADDR_p
  ⟨0x80001F, 1, 0x1, 1, 0x1, 0, 1, 1, 0, 0, 0, 1, 0x0, false⟩,  -- 8.00.01F LOAD_COMMIT
  ⟨0x800020, 1, 0x1, 1, 0x1, 6, 0, 1, 0, 0, 0, 1, 0x0, false⟩,  -- 8.00.020 LOAD_STATE
  ⟨0x800021, 1, 0x1, 1, 0x1, 2, 0, 4, 0, 0, 0, 1, 0x0, false⟩,  -- 8.00.021 LOAD_DETAIL
  ⟨0x800022, 1, 0x1, 1, 0x1, 8, 0, 131072, 0, 0, 0, 1, 0x0, false⟩,  -- 8.00.022 SHARD_STATUS
  ⟨0x800023, 1, 0x1, 1, 0x1, 3, 4, 8, 0, 0, 0, 1, 0x0, false⟩,  -- 8.00.023 REFETCH_COUNT
  ⟨0x800024, 1, 0x1, 1, 0x1, 3, 4, 8, 0, 0, 0, 1, 0x0, false⟩,  -- 8.00.024 LOAD_BYTES
  ⟨0x800030, 1, 0x1, 1, 0x1, 3, 2, 8, 0, 0, 0, 65536, 0x0, false⟩,  -- 8.00.030 ARENA_BASE
  ⟨0x800031, 1, 0x1, 1, 0x1, 3, 2, 8, 0, 0, 0, 65536, 0x0, false⟩,  -- 8.00.031 ARENA_LEN
  ⟨0x80003F, 1, 0x1, 1, 0x1, 0, 1, 1, 0, 0, 0, 1, 0x0, false⟩,  -- 8.00.03F ARENA_COMMIT
  ⟨0x800040, 1, 0x1, 1, 0x1, 2, 0, 4, 0, 0, 0, 1, 0x0, false⟩  -- 8.00.040 ARENA_FREE
  ]

/-- Rows of area 8, part 1. -/
def objRows8p1 : List ObjRow := [
  ⟨0x800041, 1, 0x1, 1, 0x1, 0, 1, 1, 10, 0, 50, 1, 0x0, false⟩,  -- 8.00.041 FILL_MARGIN
  ⟨0x810000, 3, 0x1000, 1, 0x1, 6, 0, 1, 0, 0, 0, 1, 0x0, false⟩,  -- 8.1s.000 SLOT_STATE
  ⟨0x810001, 3, 0x1000, 1, 0x1, 3, 0, 8, 0, 0, 0, 1, 0x0, false⟩,  -- 8.1s.001 SLOT_MODEL_ID
  ⟨0x810002, 3, 0x1000, 1, 0x1, 2, 0, 4, 0, 0, 0, 1, 0x0, false⟩,  -- 8.1s.002 SLOT_EPOCH
  ⟨0x810003, 3, 0x1000, 1, 0x1, 2, 0, 4, 0, 0, 0, 1, 0x0, false⟩,  -- 8.1s.003 BIND_COUNT
  ⟨0x810010, 3, 0x1000, 4, 0x1, 3, 2, 8, 0, 0, 0, 1, 0x0, false⟩,  -- 8.1s.01p PART_BASE_p
  ⟨0x810020, 3, 0x1000, 4, 0x1, 3, 2, 8, 0, 0, 0, 1, 0x0, false⟩,  -- 8.1s.02p PART_LEN_p
  ⟨0x81002F, 3, 0x1000, 1, 0x1, 0, 1, 1, 0, 0, 0, 1, 0x0, false⟩,  -- 8.1s.02F SLOT_COMMIT
  ⟨0x810030, 3, 0x1000, 1, 0x1, 0, 3, 1, 0, 0, 0, 1, 0x0, false⟩,  -- 8.1s.030 SLOT_FLUSH
  ⟨0x820000, 16, 0x1000, 1, 0x1, 6, 2, 1, 0, 0, 1, 1, 0x0, false⟩,  -- 8.2x.000 MODEL_BIND
  ⟨0x820001, 16, 0x1000, 4, 0x1, 0, 2, 1, 255, 0, 0, 1, 0x0, false⟩,  -- 8.2x.001–004 MODEL_SEG_p
  ⟨0x820005, 16, 0x1000, 1, 0x1, 0, 2, 1, 255, 0, 0, 1, 0x0, false⟩,  -- 8.2x.005 ADD_SEG
  ⟨0x820006, 16, 0x1000, 1, 0x1, 0, 2, 1, 255, 0, 0, 1, 0x0, false⟩,  -- 8.2x.006 ARENA_SEG
  ⟨0x820007, 16, 0x1000, 1, 0x1, 0, 2, 1, 255, 0, 0, 1, 0x0, false⟩,  -- 8.2x.007 OVF_SEG
  ⟨0x820008, 16, 0x1000, 1, 0x1, 3, 2, 8, 0, 0, 0, 4096, 0x0, false⟩,  -- 8.2x.008 BT_BASE
  ⟨0x820009, 16, 0x1000, 1, 0x1, 0, 2, 1, 0, 0, 0, 1, 0x0, false⟩,  -- 8.2x.009 GROW_EVT
  ⟨0x82000F, 16, 0x1000, 1, 0x1, 0, 1, 1, 0, 0, 0, 1, 0x0, false⟩,  -- 8.2x.00F BIND_COMMIT
  ⟨0x820010, 16, 0x1000, 1, 0x1, 2, 0, 4, 0, 0, 0, 1, 0x0, false⟩,  -- 8.2x.010 CTX_EPOCH
  ⟨0x820011, 16, 0x1000, 1, 0x1, 3, 1, 8, 0, 0, 0, 4096, 0x0, false⟩,  -- 8.2x.011 ADD_BASE_A
  ⟨0x820012, 16, 0x1000, 1, 0x1, 2, 1, 4, 0, 0, 2147483648, 1, 0x0, false⟩,  -- 8.2x.012 ADD_LEN_A
  ⟨0x820013, 16, 0x1000, 1, 0x1, 3, 1, 8, 0, 0, 0, 4096, 0x0, false⟩,  -- 8.2x.013 ADD_BASE_B
  ⟨0x820014, 16, 0x1000, 1, 0x1, 2, 1, 4, 0, 0, 2147483648, 1, 0x0, false⟩,  -- 8.2x.014 ADD_LEN_B
  ⟨0x820015, 16, 0x1000, 1, 0x1, 0, 3, 1, 0, 0, 0, 1, 0x0, false⟩,  -- 8.2x.015 ADD_SWAP
  ⟨0x820016, 16, 0x1000, 1, 0x1, 6, 0, 1, 0, 0, 0, 1, 0x0, false⟩  -- 8.2x.016 ADD_SEL
  ]

/-- Rows of area 8, part 2. -/
def objRows8p2 : List ObjRow := [
  ⟨0x820017, 16, 0x1000, 1, 0x1, 2, 0, 4, 0, 0, 0, 1, 0x0, false⟩,  -- 8.2x.017 ADD_HOLD_A
  ⟨0x820018, 16, 0x1000, 1, 0x1, 2, 0, 4, 0, 0, 0, 1, 0x0, false⟩,  -- 8.2x.018 ADD_HOLD_B
  ⟨0x820020, 16, 0x1000, 1, 0x1, 3, 3, 8, 0, 0, 0, 1, 0x0, false⟩,  -- 8.2x.020 SEQ_JOIN
  ⟨0x820021, 16, 0x1000, 1, 0x1, 1, 3, 2, 0, 0, 0, 1, 0x0, false⟩,  -- 8.2x.021 SEQ_LEAVE
  ⟨0x820022, 16, 0x1000, 1, 0x1, 3, 3, 8, 0, 0, 0, 1, 0x0, false⟩,  -- 8.2x.022 SEQ_GROW
  ⟨0x820023, 16, 0x1000, 1, 0x1, 8, 0, 4096, 0, 0, 0, 1, 0x0, false⟩,  -- 8.2x.023 SEQ_TABLE
  ⟨0x820024, 16, 0x1000, 1, 0x1, 3, 4, 8, 0, 0, 0, 1, 0x0, false⟩,  -- 8.2x.024 SEQ_DEFERRED_COUNT
  ⟨0x820025, 16, 0x1000, 1, 0x1, 3, 4, 8, 0, 0, 0, 1, 0x0, false⟩,  -- 8.2x.025 SEQ_EVICTED_COUNT
  ⟨0x820026, 16, 0x1000, 1, 0x1, 2, 0, 4, 0, 0, 0, 1, 0x0, false⟩  -- 8.2x.026 BLOCKS_SPILLED
  ]

/-- The object rows of area 8. -/
def objRows8 : List ObjRow := objRows8p0 ++ objRows8p1 ++ objRows8p2

/-- Rows of area 9, part 0. -/
def objRows9p0 : List ObjRow := [
  ⟨0x900000, 1, 0x1, 1, 0x1, 1, 0, 2, 256, 0, 0, 1, 0x0, false⟩,  -- 9.00.000 HEALTH_ID
  ⟨0x900001, 1, 0x1, 1, 0x1, 6, 0, 1, 0, 0, 0, 1, 0x0, true⟩,  -- 9.00.001 HEALTH_STATE
  ⟨0x900002, 1, 0x1, 1, 0x1, 1, 0, 2, 1000, 0, 0, 1, 0x0, false⟩,  -- 9.00.002 HEALTH_SCORE
  ⟨0x900003, 1, 0x1, 1, 0x1, 6, 0, 1, 0, 0, 0, 1, 0x0, true⟩,  -- 9.00.003 HEALTH_REASON
  ⟨0x900004, 1, 0x1, 1, 0x1, 1, 0, 2, 0, 0, 0, 1, 0x0, true⟩,  -- 9.00.004 PROBATION_LEFT_S
  ⟨0x900005, 1, 0x1, 1, 0x1, 1, 0, 2, 1000, 0, 0, 1, 0x0, false⟩,  -- 9.00.005 HEALTH_CAPACITY
  ⟨0x900006, 1, 0x1, 1, 0x1, 8, 0, 64, 0, 0, 0, 1, 0x0, false⟩,  -- 9.00.006 HEALTH_REPORT
  ⟨0x900007, 1, 0x1, 1, 0x1, 1, 1, 2, 1000, 100, 10000, 1, 0x0, false⟩,  -- 9.00.007 HEALTH_PERIOD_MS
  ⟨0x900008, 1, 0x1, 1, 0x1, 0, 3, 1, 0, 0, 0, 1, 0x0, false⟩,  -- 9.00.008 HEALTH_CLEAR
  ⟨0x900009, 1, 0x1, 1, 0x1, 0, 3, 1, 0, 0, 0, 1, 0x0, false⟩,  -- 9.00.009 FENCE_FW_CLEAR
  ⟨0x900010, 1, 0x1, 1, 0x1, 1, 1, 2, 10, 1, 100, 1, 0x0, false⟩,  -- 9.00.010 PROGRESS_BUDGET_PERMIL
  ⟨0x900011, 1, 0x1, 1, 0x1, 1, 0, 2, 0, 0, 0, 1, 0x0, false⟩,  -- 9.00.011 OVH_PERMIL
  ⟨0x901000, 1, 0x1, 1, 0x1, 3, 2, 8, 0, 0, 0, 65536, 0x0, false⟩,  -- 9.01.000 MIR_STAGE_BASE
  ⟨0x901001, 1, 0x1, 1, 0x1, 3, 2, 8, 0, 0, 0, 65536, 0x0, false⟩,  -- 9.01.001 MIR_STAGE_LEN
  ⟨0x901002, 1, 0x1, 1, 0x1, 3, 2, 8, 0, 0, 0, 65536, 0x0, false⟩,  -- 9.01.002 MIR_STORE_BASE
  ⟨0x901003, 1, 0x1, 1, 0x1, 3, 2, 8, 0, 0, 0, 65536, 0x0, false⟩,  -- 9.01.003 MIR_STORE_LEN
  ⟨0x90100F, 1, 0x1, 1, 0x1, 0, 1, 1, 0, 0, 0, 1, 0x0, false⟩,  -- 9.01.00F MIR_DEV_COMMIT
  ⟨0x901010, 1, 0x1, 1, 0x1, 3, 0, 8, 0, 0, 0, 1, 0x0, false⟩,  -- 9.01.010 MIR_STORE_FREE
  ⟨0x901011, 1, 0x1, 1, 0x1, 8, 0, 32768, 0, 0, 0, 1, 0x0, false⟩,  -- 9.01.011 MIR_HELD
  ⟨0x901012, 1, 0x1, 1, 0x1, 1, 3, 2, 0, 0, 0, 1, 0x0, false⟩,  -- 9.01.012 MIR_FREE
  ⟨0x901013, 1, 0x1, 1, 0x1, 3, 4, 8, 0, 0, 0, 1, 0x0, false⟩,  -- 9.01.013 MIR_REFUSED
  ⟨0x901014, 1, 0x1, 1, 0x1, 3, 4, 8, 0, 0, 0, 1, 0x0, false⟩,  -- 9.01.014 MIR_BYTES_SENT
  ⟨0x910000, 1, 0x1, 1, 0x1, 1, 1, 2, 2, 0, 100, 1, 0x0, false⟩,  -- 9.10.000 SHADOW_MIN_PERMIL
  ⟨0x910001, 1, 0x1, 1, 0x1, 1, 1, 2, 20, 0, 100, 1, 0x0, false⟩  -- 9.10.001 SHADOW_MAX_PERMIL
  ]

/-- Rows of area 9, part 1. -/
def objRows9p1 : List ObjRow := [
  ⟨0x910002, 1, 0x1, 1, 0x1, 1, 0, 2, 2, 0, 0, 1, 0x0, false⟩,  -- 9.10.002 SHADOW_PERMIL
  ⟨0x910003, 1, 0x1, 1, 0x1, 1, 1, 2, 100, 100, 1000, 1, 0x0, false⟩,  -- 9.10.003 PROBATION_PERMIL
  ⟨0x910004, 1, 0x1, 1, 0x1, 1, 1, 2, 60, 1, 3600, 1, 0x0, false⟩,  -- 9.10.004 KAT_PERIOD_S
  ⟨0x910005, 1, 0x1, 1, 0x1, 1, 1, 2, 50, 1, 1000, 1, 0x0, false⟩,  -- 9.10.005 SHADOW_LAG_MS
  ⟨0x910006, 1, 0x1, 1, 0x1, 0, 1, 1, 3, 1, 16, 1, 0x0, false⟩,  -- 9.10.006 BIN_REPEAT
  ⟨0x910007, 1, 0x1, 1, 0x1, 1, 1, 2, 24, 1, 720, 1, 0x0, false⟩,  -- 9.10.007 BIN_WINDOW_H
  ⟨0x910008, 1, 0x1, 1, 0x1, 0, 1, 1, 4, 1, 64, 1, 0x0, false⟩,  -- 9.10.008 SUSPECT_COUNT
  ⟨0x910009, 1, 0x1, 1, 0x1, 3, 1, 8, 0, 0, 0, 1, 0x0, false⟩,  -- 9.10.009 SAMPLER_SEED
  ⟨0x91000A, 1, 0x1, 1, 0x1, 1, 1, 2, 900, 60, 900, 1, 0x0, false⟩,  -- 9.10.00A PROBATION_S
  ⟨0x910010, 1, 0x1, 1, 0x1, 3, 4, 8, 0, 0, 0, 1, 0x0, false⟩,  -- 9.10.010 PASSES
  ⟨0x910011, 1, 0x1, 1, 0x1, 3, 4, 8, 0, 0, 0, 1, 0x0, false⟩,  -- 9.10.011 VOIDS
  ⟨0x910012, 1, 0x1, 1, 0x1, 3, 4, 8, 0, 0, 0, 1, 0x0, false⟩,  -- 9.10.012 DROPPED
  ⟨0x910013, 1, 0x1, 1, 0x1, 3, 4, 8, 0, 0, 0, 1, 0x0, false⟩,  -- 9.10.013 CONFIRMED
  ⟨0x910014, 1, 0x1, 1, 0x1, 3, 4, 8, 0, 0, 0, 1, 0x0, false⟩,  -- 9.10.014 UNREPRODUCED
  ⟨0x910015, 1, 0x1, 1, 0x1, 3, 4, 8, 0, 0, 0, 1, 0x0, false⟩,  -- 9.10.015 UNRESOLVED
  ⟨0x910016, 1, 0x1, 1, 0x1, 3, 4, 8, 0, 0, 0, 1, 0x0, false⟩,  -- 9.10.016 SAMPLER_CORE_NS
  ⟨0x920000, 16, 0x1000, 1, 0x1, 0, 1, 1, 0, 0, 0, 1, 0x0, false⟩,  -- 9.2x.000 MIR_COMMIT
  ⟨0x920001, 16, 0x1000, 1, 0x1, 7, 3, 2, 0, 0, 0, 1, 0x0, false⟩,  -- 9.2x.001 RESTORE_REQ
  ⟨0x920002, 16, 0x1000, 1, 0x1, 2, 1, 4, 0, 0, 131071, 1, 0x0, false⟩,  -- 9.2x.002 RESTORE_RANK
  ⟨0x920003, 16, 0x1000, 1, 0x1, 3, 1, 8, 0, 0, 0, 1, 0x0, false⟩,  -- 9.2x.003 RESTORE_MAX_STEP
  ⟨0x920004, 16, 0x1000, 1, 0x1, 6, 0, 1, 0, 0, 0, 1, 0x0, false⟩,  -- 9.2x.004 RESTORE_STATE
  ⟨0x920005, 16, 0x1000, 1, 0x1, 8, 0, 256, 0, 0, 0, 1, 0x0, false⟩,  -- 9.2x.005 RESTORE_RESULT
  ⟨0x920006, 16, 0x1000, 1, 0x1, 0, 1, 1, 0, 0, 0, 1, 0x0, false⟩,  -- 9.2x.006 MIR_DONE_EVT
  ⟨0x920007, 16, 0x1000, 1, 0x1, 2, 1, 4, 1000, 1, 600000, 1, 0x0, false⟩  -- 9.2x.007 MIR_WAIT_MS
  ]

/-- Rows of area 9, part 2. -/
def objRows9p2 : List ObjRow := [
  ⟨0x920008, 16, 0x1000, 1, 0x1, 3, 0, 8, 0, 0, 0, 1, 0x0, false⟩,  -- 9.2x.008 MIR_LAST_STEP
  ⟨0x920009, 16, 0x1000, 1, 0x1, 3, 4, 8, 0, 0, 0, 1, 0x0, false⟩,  -- 9.2x.009 SDC_COUNT
  ⟨0x920100, 16, 0x1000, 16, 0x10, 3, 2, 8, 0, 0, 0, 4096, 0x0, false⟩,  -- 9.2x.1s0 MIR_ADDR
  ⟨0x920101, 16, 0x1000, 16, 0x10, 3, 2, 8, 0, 0, 0, 1, 0x0, false⟩,  -- 9.2x.1s1 MIR_LEN
  ⟨0x920102, 16, 0x1000, 16, 0x10, 2, 2, 4, 0, 0, 0, 1, 0x0, false⟩,  -- 9.2x.1s2 MIR_ID
  ⟨0x920103, 16, 0x1000, 16, 0x10, 1, 2, 2, 0, 0, 0, 1, 0x0, false⟩,  -- 9.2x.1s3 MIR_PEER
  ⟨0x920104, 16, 0x1000, 16, 0x10, 6, 2, 1, 0, 0, 2, 1, 0x0, false⟩,  -- 9.2x.1s4 MIR_MODE
  ⟨0x920105, 16, 0x1000, 16, 0x10, 3, 2, 8, 0, 0, 0, 1, 0x0, false⟩,  -- 9.2x.1s5 MIR_CKPT
  ⟨0x920108, 16, 0x1000, 16, 0x10, 6, 0, 1, 0, 0, 0, 1, 0x0, false⟩,  -- 9.2x.1s8 MIR_STATE
  ⟨0x940000, 32, 0x1000, 1, 0x1, 8, 0, 192, 0, 0, 0, 1, 0x0, true⟩,  -- 9.bb.000 CORE_BINS
  ⟨0x940001, 32, 0x1000, 1, 0x1, 3, 4, 8, 0, 0, 0, 1, 0x0, false⟩  -- 9.bb.001 CORE_SAMPLES
  ]

/-- The object rows of area 9. -/
def objRows9 : List ObjRow := objRows9p0 ++ objRows9p1 ++ objRows9p2

/-- Rows of area A, part 0. -/
def objRowsAp0 : List ObjRow := [
  ⟨0xA00000, 1, 0x1, 1, 0x1, 1, 0, 2, 256, 0, 0, 1, 0x0, false⟩,  -- A.00.000 RESET_ID
  ⟨0xA00001, 1, 0x1, 1, 0x1, 6, 0, 1, 0, 0, 0, 1, 0x0, false⟩,  -- A.00.001 RESET_STATE
  ⟨0xA00002, 1, 0x1, 1, 0x1, 8, 0, 32, 0, 0, 0, 1, 0x0, false⟩,  -- A.00.002 LAST_RESET
  ⟨0xA00010, 1, 0x1, 1, 0x1, 2, 1, 4, 1000, 100, 1000000, 1, 0x0, false⟩,  -- A.00.010 ENG_WDT_US
  ⟨0xA00011, 1, 0x1, 1, 0x1, 2, 1, 4, 100, 10, 10000, 1, 0x0, false⟩,  -- A.00.011 CORE_WDT_US
  ⟨0xA00012, 1, 0x1, 1, 0x1, 2, 1, 4, 1000, 10, 3600000, 1, 0x0, false⟩,  -- A.00.012 CTX_WDT_MS
  ⟨0xA00013, 1, 0x1, 1, 0x1, 2, 1, 4, 200, 50, 10000, 1, 0x0, false⟩,  -- A.00.013 MEM_WDT_US
  ⟨0xA00014, 1, 0x1, 1, 0x1, 1, 1, 2, 500, 100, 10000, 1, 0x0, false⟩,  -- A.00.014 FW_WDT_MS
  ⟨0xA00015, 1, 0x1, 1, 0x1, 1, 1, 2, 1000, 600, 10000, 1, 0x0, false⟩,  -- A.00.015 DIE_RESET_LIMIT_MS
  ⟨0xA00016, 1, 0x1, 1, 0x1, 0, 1, 1, 8, 6, 60, 1, 0x0, false⟩,  -- A.00.016 WARM_RESET_LIMIT_S
  ⟨0xA00017, 1, 0x1, 1, 0x1, 6, 1, 1, 1, 0, 1, 1, 0x0, false⟩,  -- A.00.017 COLD_REQ_ENABLE
  ⟨0xA00018, 1, 0x1, 1, 0x1, 0, 1, 1, 4, 0, 16, 1, 0x0, false⟩,  -- A.00.018 SWATCH_CTX_CORES
  ⟨0xA00020, 1, 0x1, 1, 0x1, 0, 3, 1, 0, 0, 0, 1, 0x0, false⟩,  -- A.00.020 ENGINE_RESET
  ⟨0xA00021, 1, 0x1, 1, 0x1, 0, 3, 1, 0, 0, 0, 1, 0x0, false⟩,  -- A.00.021 CORE_RESET
  ⟨0xA00022, 1, 0x1, 1, 0x1, 0, 3, 1, 0, 0, 0, 1, 0x0, false⟩,  -- A.00.022 DIE_RESET
  ⟨0xA00023, 1, 0x1, 1, 0x1, 0, 3, 1, 0, 0, 0, 1, 0x0, false⟩,  -- A.00.023 DEVICE_RESET
  ⟨0xA00030, 1, 0x1, 1, 0x1, 3, 4, 8, 0, 0, 0, 1, 0x0, false⟩,  -- A.00.030 ENGINE_RESETS
  ⟨0xA00031, 1, 0x1, 1, 0x1, 3, 4, 8, 0, 0, 0, 1, 0x0, false⟩,  -- A.00.031 CORE_RESETS
  ⟨0xA00032, 1, 0x1, 1, 0x1, 3, 4, 8, 0, 0, 0, 1, 0x0, false⟩,  -- A.00.032 CONTEXT_RESETS
  ⟨0xA00033, 1, 0x1, 1, 0x1, 3, 4, 8, 0, 0, 0, 1, 0x0, false⟩,  -- A.00.033 DIE_RESETS
  ⟨0xA00034, 1, 0x1, 1, 0x1, 3, 4, 8, 0, 0, 0, 1, 0x0, false⟩,  -- A.00.034 WARM_RESETS
  ⟨0xA00035, 1, 0x1, 1, 0x1, 3, 4, 8, 0, 0, 0, 1, 0x0, false⟩,  -- A.00.035 ESCALATIONS
  ⟨0xA00036, 1, 0x1, 1, 0x1, 3, 4, 8, 0, 0, 0, 1, 0x0, false⟩,  -- A.00.036 ABSORBED
  ⟨0xA00040, 1, 0x1, 1, 0x1, 7, 0, 1, 0, 0, 0, 1, 0x0, false⟩  -- A.00.040 COLD_REQ_PENDING
  ]

/-- Rows of area A, part 1. -/
def objRowsAp1 : List ObjRow := [
  ⟨0xA00050, 1, 0x1, 1, 0x1, 0, 0, 1, 0, 0, 0, 1, 0x0, false⟩,  -- A.00.050 SWATCH_HEAD
  ⟨0xA00051, 1, 0x1, 1, 0x1, 0, 1, 1, 0, 0, 7, 1, 0x0, false⟩,  -- A.00.051 SWATCH_SEL
  ⟨0xA00052, 1, 0x1, 1, 0x1, 2, 1, 4, 0, 0, 25100288, 65536, 0x0, false⟩,  -- A.00.052 SWATCH_OFF
  ⟨0xA00053, 1, 0x1, 1, 0x1, 8, 0, 65536, 0, 0, 0, 1, 0x0, false⟩,  -- A.00.053 SWATCH_WIN
  ⟨0xA20000, 16, 0x1000, 1, 0x1, 0, 3, 1, 0, 0, 0, 1, 0x0, false⟩,  -- A.2x.000 CTX_RESET
  ⟨0xA20001, 16, 0x1000, 1, 0x1, 6, 1, 1, 1, 0, 1, 1, 0x0, false⟩,  -- A.2x.001 CTX_WDT_EN
  ⟨0xA20002, 16, 0x1000, 1, 0x1, 6, 0, 1, 0, 0, 0, 1, 0x0, false⟩,  -- A.2x.002 CTX_RESET_STATE
  ⟨0xA20003, 16, 0x1000, 1, 0x1, 2, 0, 4, 0, 0, 0, 1, 0x0, false⟩,  -- A.2x.003 CTX_RESET_LAST_NS
  ⟨0xA20004, 16, 0x1000, 1, 0x1, 3, 4, 8, 0, 0, 0, 1, 0x0, false⟩  -- A.2x.004 CTX_RESET_COUNT
  ]

/-- The object rows of area A. -/
def objRowsA : List ObjRow := objRowsAp0 ++ objRowsAp1

/-- Rows of area B, part 0. -/
def objRowsBp0 : List ObjRow := [
  ⟨0xB00010, 1, 0x1, 1, 0x1, 6, 1, 1, 0, 0, 1, 1, 0x0, false⟩,  -- B.00.010 RECOVERY_MODE
  ⟨0xB10000, 1, 0x1, 1, 0x1, 1, 0, 2, 256, 0, 0, 1, 0x0, false⟩,  -- B.10.000 CLOCK_ID
  ⟨0xB10001, 1, 0x1, 1, 0x1, 6, 2, 1, 1, 0, 1, 1, 0x0, false⟩,  -- B.10.001 DVFS_MODE
  ⟨0xB10002, 1, 0x1, 1, 0x1, 1, 2, 2, 1800, 600, 1950, 25, 0x0, false⟩,  -- B.10.002 LC_FLOOR_MHZ
  ⟨0xB1000F, 1, 0x1, 1, 0x1, 0, 1, 1, 0, 0, 0, 1, 0x0, false⟩,  -- B.10.00F DVFS_COMMIT
  ⟨0xB10010, 2, 0xF0, 1, 0x1, 1, 0, 2, 1800, 0, 0, 1, 0x0, false⟩,  -- B.10.0d0 FREQ_NOW_MHZ
  ⟨0xB10011, 2, 0xF0, 1, 0x1, 1, 2, 2, 600, 600, 1950, 25, 0x0, false⟩,  -- B.10.0d1 FREQ_MIN_MHZ
  ⟨0xB10012, 2, 0xF0, 1, 0x1, 1, 2, 2, 1950, 600, 1950, 25, 0x0, false⟩,  -- B.10.0d2 FREQ_MAX_MHZ
  ⟨0xB10003, 2, 0x10, 1, 0x1, 1, 2, 2, 1800, 600, 1950, 25, 0x0, false⟩,  -- B.10.0d3 FREQ_FIXED_MHZ
  ⟨0xB10004, 2, 0x10, 1, 0x1, 1, 0, 2, 820, 0, 0, 1, 0x0, false⟩,  -- B.10.0d4 VCORE_MV
  ⟨0xB10005, 2, 0x10, 1, 0x1, 3, 4, 8, 0, 0, 0, 1, 0x0, false⟩,  -- B.10.0d5 FREQ_CHANGES
  ⟨0xB10006, 2, 0x10, 1, 0x1, 3, 4, 8, 0, 0, 0, 1, 0x0, false⟩,  -- B.10.0d6 BELOW_FLOOR_NS
  ⟨0xB10020, 1, 0x1, 1, 0x1, 1, 0, 2, 2000, 0, 0, 1, 0x0, false⟩,  -- B.10.020 NOC_MHZ
  ⟨0xB10021, 1, 0x1, 1, 0x1, 1, 0, 2, 1200, 0, 0, 1, 0x0, false⟩,  -- B.10.021 NEAR_MHZ
  ⟨0xB10022, 1, 0x1, 1, 0x1, 8, 0, 4, 0, 0, 0, 1, 0x0, false⟩,  -- B.10.022 HBM_CTRL_MHZ
  ⟨0xB10023, 1, 0x1, 1, 0x1, 8, 0, 4, 0, 0, 0, 1, 0x0, false⟩,  -- B.10.023 LP_CTRL_MHZ
  ⟨0xB11000, 1, 0x1, 1, 0x1, 1, 0, 2, 256, 0, 0, 1, 0x0, false⟩,  -- B.11.000 XQ_ID
  ⟨0xB11001, 1, 0x1, 1, 0x1, 1, 0, 2, 2275, 0, 0, 1, 0x0, false⟩,  -- B.11.001 XQ_COUNT
  ⟨0xB11010, 1, 0x1, 1, 0x1, 3, 4, 8, 0, 0, 0, 1, 0x0, false⟩,  -- B.11.010 XQ_PARITY_COUNT
  ⟨0xB11011, 1, 0x1, 1, 0x1, 8, 0, 16, 0, 0, 0, 1, 0x0, false⟩,  -- B.11.011 XQ_PARITY_LAST
  ⟨0xB11012, 1, 0x1, 1, 0x1, 3, 4, 8, 0, 0, 0, 1, 0x0, false⟩,  -- B.11.012 XQ_RETRY_COUNT
  ⟨0xB11013, 1, 0x1, 1, 0x1, 3, 4, 8, 0, 0, 0, 1, 0x0, false⟩,  -- B.11.013 XQ_FLUSHED
  ⟨0xB11100, 8, 0x10, 1, 0x1, 0, 1, 1, 4, 0, 32, 1, 0x0, false⟩,  -- B.11.1p0 TX_CT_WORDS
  ⟨0xB11101, 8, 0x10, 1, 0x1, 0, 1, 1, 1, 0, 32, 1, 0x0, false⟩  -- B.11.1p1 RX_CT_WORDS
  ]

/-- Rows of area B, part 1. -/
def objRowsBp1 : List ObjRow := [
  ⟨0xB11102, 8, 0x10, 1, 0x1, 3, 4, 8, 0, 0, 0, 1, 0x0, false⟩,  -- B.11.1p2 TX_UNDERRUN
  ⟨0xB20000, 1, 0x1, 1, 0x1, 1, 0, 2, 256, 0, 0, 1, 0x0, false⟩,  -- B.20.000 POWER_ID
  ⟨0xB20001, 1, 0x1, 1, 0x1, 1, 1, 2, 3300, 1500, 3300, 1, 0x0, false⟩,  -- B.20.001 POWER_LIMIT_W
  ⟨0xB20002, 1, 0x1, 1, 0x1, 1, 0, 2, 0, 0, 0, 1, 0x0, false⟩,  -- B.20.002 POWER_NOW_W
  ⟨0xB20003, 1, 0x1, 1, 0x1, 2, 0, 4, 0, 0, 0, 1, 0x0, false⟩,  -- B.20.003 VIN_MV
  ⟨0xB20004, 1, 0x1, 1, 0x1, 2, 0, 4, 0, 0, 0, 1, 0x0, false⟩,  -- B.20.004 IIN_MA
  ⟨0xB20005, 1, 0x1, 1, 0x1, 1, 0, 2, 0, 0, 0, 1, 0x0, false⟩,  -- B.20.005 VSB_MV
  ⟨0xB20006, 1, 0x1, 1, 0x1, 3, 0, 8, 0, 0, 0, 1, 0x0, false⟩,  -- B.20.006 ENERGY_J
  ⟨0xB20010, 1, 0x1, 1, 0x1, 3, 4, 8, 0, 0, 0, 1, 0x0, false⟩,  -- B.20.010 INPUT_LOW_COUNT
  ⟨0xB20011, 1, 0x1, 1, 0x1, 3, 4, 8, 0, 0, 0, 1, 0x0, false⟩,  -- B.20.011 INPUT_HIGH_COUNT
  ⟨0xB30000, 1, 0x1, 1, 0x1, 1, 0, 2, 256, 0, 0, 1, 0x0, false⟩,  -- B.30.000 THERMAL_ID
  ⟨0xB30001, 1, 0x1, 1, 0x1, 0, 1, 1, 100, 85, 105, 1, 0x0, false⟩,  -- B.30.001 THROTTLE_C
  ⟨0xB30002, 1, 0x1, 1, 0x1, 6, 0, 1, 0, 0, 0, 1, 0x0, false⟩,  -- B.30.002 THROTTLE_STEP
  ⟨0xB30003, 1, 0x1, 1, 0x1, 7, 0, 2, 0, 0, 0, 1, 0x0, false⟩,  -- B.30.003 THROTTLE_CAUSE
  ⟨0xB30010, 4, 0x1, 1, 0x1, 4, 0, 4, 0, 0, 0, 1, 0x0, false⟩,  -- B.30.01d TJ_MAX_C
  ⟨0xB30030, 1, 0x1, 1, 0x1, 3, 4, 8, 0, 0, 0, 1, 0x0, false⟩,  -- B.30.030 THROTTLE_NS
  ⟨0xB30031, 1, 0x1, 1, 0x1, 3, 4, 8, 0, 0, 0, 1, 0x0, false⟩,  -- B.30.031 FAST_THROTTLE_COUNT
  ⟨0xB30032, 1, 0x1, 1, 0x1, 8, 0, 16, 0, 0, 0, 1, 0x0, false⟩,  -- B.30.032 TRIP_LAST
  ⟨0xB30040, 1, 0x1, 1, 0x1, 7, 0, 1, 0, 0, 0, 1, 0x0, false⟩  -- B.30.040 ALERT_CAUSE
  ]

/-- The object rows of area B. -/
def objRowsB : List ObjRow := objRowsBp0 ++ objRowsBp1

/-- Rows of area C, part 0. -/
def objRowsCp0 : List ObjRow := [
  ⟨0xC00000, 1, 0x1, 1, 0x1, 1, 0, 2, 256, 0, 0, 1, 0x0, false⟩,  -- C.00.000 TEST_ID
  ⟨0xC00001, 1, 0x1, 1, 0x1, 2, 0, 4, 0, 0, 0, 1, 0x0, false⟩,  -- C.00.001 JTAG_IDCODE
  ⟨0xC00002, 1, 0x1, 1, 0x1, 2, 0, 4, 0, 0, 0, 1, 0x0, false⟩,  -- C.00.002 JTAG_USERCODE
  ⟨0xC00003, 1, 0x1, 1, 0x1, 0, 0, 1, 4, 0, 0, 1, 0x0, false⟩,  -- C.00.003 TAP_INSTR
  ⟨0xC00004, 1, 0x1, 1, 0x1, 3, 4, 8, 0, 0, 0, 1, 0x0, false⟩,  -- C.00.004 TAP_DENIED_COUNT
  ⟨0xC00005, 1, 0x1, 1, 0x1, 6, 0, 1, 1, 0, 0, 1, 0x0, false⟩  -- C.00.005 DEBUG_LOCK
  ]

/-- The object rows of area C. -/
def objRowsC : List ObjRow := objRowsCp0

/-- Rows of area D, part 0. -/
def objRowsDp0 : List ObjRow := [
  ⟨0xD00000, 1, 0x1, 1, 0x1, 1, 0, 2, 256, 0, 0, 1, 0x0, false⟩,  -- D.00.000 SEC_ID
  ⟨0xD00010, 1, 0x1, 1, 0x1, 6, 0, 1, 0, 0, 0, 1, 0x0, false⟩,  -- D.00.010 ENTROPY_STATE
  ⟨0xD00011, 1, 0x1, 1, 0x1, 3, 4, 8, 0, 0, 0, 1, 0x0, false⟩,  -- D.00.011 ENTROPY_FAILS
  ⟨0xD10000, 1, 0x1, 1, 0x1, 8, 3, 16777472, 0, 0, 0, 1, 0x0, false⟩,  -- D.10.000 FW_STAGE
  ⟨0xD10001, 1, 0x1, 1, 0x1, 0, 3, 1, 0, 0, 0, 1, 0x0, false⟩,  -- D.10.001 FW_STAGE_COMMIT
  ⟨0xD10002, 1, 0x1, 1, 0x1, 6, 0, 1, 0, 0, 0, 1, 0x0, false⟩,  -- D.10.002 FW_STAGE_STATE
  ⟨0xD10003, 1, 0x1, 1, 0x1, 6, 0, 1, 0, 0, 0, 1, 0x0, false⟩,  -- D.10.003 FW_STAGE_REASON
  ⟨0xD10004, 1, 0x1, 1, 0x1, 6, 0, 1, 0, 0, 0, 1, 0x0, false⟩,  -- D.10.004 FW_BOOT_BANK
  ⟨0xD10005, 1, 0x1, 1, 0x1, 0, 3, 1, 0, 0, 0, 1, 0x0, false⟩,  -- D.10.005 FW_SVN_COMMIT
  ⟨0xD10006, 1, 0x1, 1, 0x1, 0, 0, 1, 0, 0, 0, 1, 0x0, false⟩,  -- D.10.006 FW_SVN_FUSE
  ⟨0xD20000, 16, 0x1000, 1, 0x1, 8, 1, 32, 0, 0, 0, 1, 0x0, false⟩,  -- D.2x.000 ATTEST_NONCE
  ⟨0xD20001, 16, 0x1000, 1, 0x1, 0, 3, 1, 0, 0, 0, 1, 0x0, false⟩,  -- D.2x.001 ATTEST_REQ
  ⟨0xD20002, 16, 0x1000, 1, 0x1, 6, 0, 1, 0, 0, 0, 1, 0x0, false⟩,  -- D.2x.002 ATTEST_STATE
  ⟨0xD20003, 16, 0x1000, 1, 0x1, 8, 0, 288, 0, 0, 0, 1, 0x0, false⟩  -- D.2x.003 ATTEST_REPORT
  ]

/-- The object rows of area D. -/
def objRowsD : List ObjRow := objRowsDp0

/-- Rows of area F, part 0. -/
def objRowsFp0 : List ObjRow := [
  ⟨0xF00000, 1, 0x1, 1, 0x1, 1, 0, 2, 256, 0, 0, 1, 0x0, false⟩,  -- F.00.000 LOG_ID
  ⟨0xF00001, 1, 0x1, 1, 0x1, 2, 0, 4, 524288, 0, 0, 1, 0x0, false⟩,  -- F.00.001 LOG_CAPACITY
  ⟨0xF00002, 1, 0x1, 1, 0x1, 3, 0, 8, 0, 0, 0, 1, 0x0, false⟩,  -- F.00.002 LOG_NEXT_SEQ
  ⟨0xF00003, 1, 0x1, 1, 0x1, 3, 0, 8, 0, 0, 0, 1, 0x0, false⟩,  -- F.00.003 LOG_OLDEST_SEQ
  ⟨0xF00004, 1, 0x1, 1, 0x1, 3, 1, 8, 0, 0, 0, 1, 0x0, false⟩,  -- F.00.004 LOG_READ_SEQ
  ⟨0xF00005, 1, 0x1, 1, 0x1, 8, 0, 4096, 0, 0, 0, 1, 0x0, false⟩,  -- F.00.005 LOG_WIN
  ⟨0xF00006, 1, 0x1, 1, 0x1, 3, 4, 8, 0, 0, 0, 1, 0x0, false⟩,  -- F.00.006 LOG_DROPPED
  ⟨0xF00007, 1, 0x1, 1, 0x1, 0, 3, 1, 0, 0, 0, 1, 0x0, false⟩  -- F.00.007 LOG_CLEAR
  ]

/-- The object rows of area F. -/
def objRowsF : List ObjRow := objRowsFp0

/-- The rows of an area; areas without a table, and area E (R7), have none. -/
def objRowsOf : Nat → List ObjRow
  | 0 => objRows0
  | 1 => objRows1
  | 2 => objRows2
  | 3 => objRows3
  | 4 => objRows4
  | 5 => objRows5
  | 6 => objRows6
  | 7 => objRows7
  | 8 => objRows8
  | 9 => objRows9
  | 10 => objRowsA
  | 11 => objRowsB
  | 12 => objRowsC
  | 13 => objRowsD
  | 15 => objRowsF
  | _ => []

end Sys2Proof.Machine
end

