-- ==== Sys2Proof/Machine/State.lean ====
section
/-!
DEFINITION. Sys2Proof/Machine/State.lean: everything the spec gives the machine, as plain data, and the state after a
cold reset. Every register that the dictionary numbers lives in the object stores under its number; the structures here
hold the rest: patterns and commands in flight, tiles, cores, sessions, packets, resets in progress and so on.
-/
namespace Sys2Proof.Machine

/-- Reasons a step can stop with a fault. None is reached from a state in which every mapped range is one of Table 01.5;
safe: the model stops where the hardware's behaviour is not given. -/
inductive Fault where
  /-- An access to a device address outside every region of Table 01.5 (R18). Raised by `State.run` for a write there.
  Safe: no claim about a next state holds of it. -/
  | unmapped (addr : Nat)
  deriving DecidableEq, Repr

/-- Reasons a step can be refused. -/
inductive Refusal where
  /-- An arm of exec that has no meaning yet, by its mnemonic. Safe: nothing is claimed of it. -/
  | notModelled (mnemonic : String)
  deriving DecidableEq, Repr

/-- A message the device puts on its links or pins in a step. Log entry 5. -/
inductive OutMsg where
  /-- An MSI-X message: PCIe function and vector (R109). -/
  | msix (fn vec : Nat)
  /-- A frame of an Exbaene packet (R327): port, the Ethernet, IPv6 and UDP fields of Table 11.4 in its order, common
  header, extension or body with its bytes, payload, and whether its frame check sequence is the complement (R478). -/
  | exb (port : Nat) (frame : List Nat) (hdr ext extLen : Nat) (payload : List Byte) (badFcs : Bool)
  /-- A PTP message: kind and fields (R353). -/
  | ptp (kind : Nat) (fields : List Nat)
  /-- A Hokutia message (R506): the next hop, the manager's address and port, its bytes. -/
  | hok (hop addr port : Nat) (bytes : List Nat)
  /-- A NOTIFY (R514): the next hop, the destination's address and port, the bytes of the message. -/
  | notify (hop addr port : Nat) (bytes : List Nat)
  /-- A frame of the management port answered outside Hokutia (R505): kind and bytes. -/
  | mgmt (kind : Nat) (bytes : List Nat)
  /-- A Loader or Pairing message on a session: kind, peer entry, fields, data bytes. -/
  | msg (kind peer : Nat) (fields : List Nat) (data : List Byte)
  /-- The first scan of the register that a TAP instruction selects (R562): the instruction in force, and the bits on TDO. -/
  | tap (instr bits : Nat)
  /-- The flash, store or fuse bank is written: kind, fields. -/
  | nv (kind : Nat) (fields : List Nat)
  deriving DecidableEq, Repr

/-- A write a command makes to memory: first address, bytes. -/
structure MemWrite where
  addr : Nat
  data : List Byte
  deriving DecidableEq, Repr

/-- An event record (R515, Table 17.14); EXTRA as a number, CHECK computed when the record is read. -/
structure LogRec where
  code : Nat
  ctx : Nat
  source : Nat
  time : Nat
  detail : Nat
  inc : Nat
  seq : Nat
  extra : Nat
  deriving DecidableEq, Repr

/-- A notification not yet acknowledged (R514). -/
structure Notif where
  dest : Nat
  seq : Nat
  sentAt : Nat
  resends : Nat
  kind : Nat
  body : List Nat
  deriving DecidableEq, Repr

/-- The event log and the rate limits of its sources. -/
structure LogState where
  /-- The ring: the newest 524,288 records, oldest first (R515). -/
  recs : List LogRec
  /-- Records in the log unit's rate bucket and the 250 ns unit at which that was true (R516). -/
  fill : Nat
  fillAt : Nat
  /-- Records dropped since the last LOG_DROPPED record (R516). -/
  lost : Nat
  /-- The time of the last record of a rate-limited kind, by a key of the kind (R496, R507, R514, R479). -/
  lastAt : List (Nat × Nat)
  /-- LOG_READ_SEQ of each PCIe function, by function, and of each Hokutia session, by 16 + session (R518). -/
  readSeq : List (Nat × Nat)
  /-- Notifications sent and not acknowledged, and the last sequence number per destination (R510, R514). -/
  notifs : List Notif
  notifSeq : List (Nat × Nat)
  /-- Notifications sent to a destination in a second of device time: destination, second, count, signed count (R514). -/
  notifRate : List (Nat × Nat × Nat × Nat)
  deriving DecidableEq, Repr

/-- How a command or a launch ended (R88, R105). -/
structure Done where
  status : Nat
  detail : Nat
  conv : Nat
  r1 : Nat
  r2 : Nat
  deriving DecidableEq, Repr

/-- An admitted pattern whose record has not posted (R84, R85). -/
structure Pattern where
  pid : Nat
  ctx : Nat
  q : Nat
  /-- Free-running index of its descriptor. -/
  idx : Nat
  /-- PADDR: the context address of its first command. -/
  base : Nat
  ncmd : Nat
  tag : Nat
  req : Bool
  pirq : Bool
  deadline : Nat
  /-- The epoch captured at admission (R85), and the slot and addition it holds (R406, R414). -/
  epoch : Option Nat
  slot : Option Nat
  addSel : Option Nat
  /-- Commands started or ended without starting, and commands completed. -/
  next : Nat
  ended : Nat
  /-- Commands discarded by FLUSH; a cut pattern starts nothing more (R108). -/
  cut : Nat
  isCut : Bool
  /-- First status other than OK, its DETAIL, and the sums of R90. -/
  status : Nat
  detail : Nat
  conv : Nat
  r1 : Nat
  r2 : Nat
  /-- The next command, fetched ahead, the status and DETAIL of a fetch that failed translation, when it became next, and
  whether its WAIT has been true at some instant (R99). -/
  head : Nat
  bad : Option (Nat × Nat)
  since : Nat
  released : Bool
  deriving DecidableEq, Repr

/-- A command in flight (R72): from its start to its completion. -/
structure Cmd where
  id : Nat
  ctx : Nat
  q : Nat
  pid : Nat
  idx : Nat
  /-- The 512 bits of the command. -/
  raw : Nat
  /-- The segment table in force at its start (R32), index and descriptor, descriptors of 0 left out. -/
  segs : List (Nat × Nat)
  /-- Captured at its start: SR_SEED, STEP_NUM, DEF_RND, CTX_CLASS, HOME_DIE. -/
  seed : Nat
  step : Nat
  rnd : Nat
  cls : Nat
  home : Nat
  start : Nat
  since : Nat
  /-- The image slot and the private addition it holds on its own account (R406, R414). -/
  slot : Option Nat
  add : Option Nat
  /-- EVT_WAIT: its condition has been true at some instant (R99). -/
  released : Bool
  /-- FENCE: the SQ_TAIL of each queue still waited for, queue and tail (R101). -/
  fence : List (Nat × Nat)
  /-- Conversion status and recompute counts gathered so far. -/
  conv : Nat
  r1 : Nat
  r2 : Nat
  /-- Its opcode's work has begun. -/
  begun : Bool
  done : Option Done
  deriving DecidableEq, Repr

/-- An armed timer (R102): context, timer, counter, due time, period (0: one firing). -/
structure Timer where
  ctx : Nat
  i : Nat
  evt : Nat
  due : Nat
  period : Nat
  deriving DecidableEq, Repr

/-- A completion record that waits for a free slot of its ring (R108: a record of FLUSH or DISABLE reserved none). -/
structure Owed where
  ctx : Nat
  q : Nat
  recd : Nat
  irq : Bool
  deriving DecidableEq, Repr

/-- Contexts and queues (chapter 03). -/
structure QueueState where
  pats : List Pattern
  cmds : List Cmd
  timers : List Timer
  owed : List Owed
  /-- Queues whose ring has been committed, context and queue (R82). -/
  committed : List (Nat × Nat)
  /-- Contexts with a DISABLE in progress (R79). -/
  disabling : List Nat
  /-- Engines that have not yet applied a committed segment table: context and queue (R32). -/
  segWait : List (Nat × Nat)
  /-- Queues whose FLUSH waits for the commands in flight of a cut pattern (R108). -/
  flushing : List (Nat × Nat)
  /-- The last progress of a context (R452): context, time. -/
  prog : List (Nat × Nat)
  deriving DecidableEq, Repr

/-- One chunk of a Bobbin fill (R240): offset in the fill, source device address, length, whether its reads have been
issued, the sectors that have arrived. -/
structure Chunk where
  off : Nat
  src : Nat
  len : Nat
  issued : Bool
  landed : List Nat
  deriving DecidableEq, Repr

/-- A fill of a prefetch buffer (R244) or a stream transfer in flight (R250): `owner` is the command's id, or the stream. -/
structure Fill where
  id : Nat
  /-- The PREFETCH command, or none for a stream's transfer. -/
  cmd : Option Nat
  /-- The stream, or none. -/
  stream : Option Nat
  ctx : Nat
  /-- Its prefetch buffer and the generation it started under; none for a stream outside a buffer. -/
  buf : Option Nat
  gen : Nat
  n : Nat
  /-- Device address its offset 0 lands at. -/
  base : Nat
  /-- It has passed the release wait of R244; since when it waits. -/
  passed : Bool
  since : Nat
  chunks : List Chunk
  /-- It was stopped by a CANCEL (R246), and the chunks discarded since. -/
  stopped : Bool
  discarded : Nat
  /-- A status it ends with other than OK. -/
  status : Nat
  detail : Nat
  deriving DecidableEq, Repr

/-- What a stream transfer captures at its start (R215, R249, R406): the segment table, SR_SEED, STEP_NUM, DEF_RND, the
image slot and the addition it binds. -/
structure StreamCap where
  segs : List (Nat × Nat)
  seed : Nat
  step : Nat
  rnd : Nat
  slot : Option Nat
  add : Option Nat
  deriving DecidableEq, Repr

/-- A stream's running data beside its objects (R249, R252): the instant t_k of the trigger of its next or present
transfer, whether that transfer's deadline miss was reported, and what the transfer in flight captured. -/
structure Stream where
  ctx : Nat
  s : Nat
  trig : Option Nat
  missed : Bool
  cap : Option StreamCap
  deriving DecidableEq, Repr

/-- Bobbin (chapter 08). -/
structure BobbinState where
  /-- Tags of the 4 KiB blocks of the local windows (R116), by core × 2^16 + block: 1 + context + 32 × chain id, chain id
  0 for a write through a device address; 0: no tag. -/
  tags : List (Nat × Nat)
  fills : List Fill
  /-- Credits held by the landed data of each fill: buffer, fill number, credits (R244). -/
  held : List (Nat × Nat × Nat)
  streams : List Stream
  deriving DecidableEq, Repr

/-- A fraction n / d in lowest terms, d > 0: bucket levels and shares of the tension regulators (R285). -/
structure Frac where
  n : Int
  d : Nat
  deriving DecidableEq, Repr

/-- A tension regulator (R284): context, tier (0 near, 1 fast, 2 slow), half, its buckets in bytes, the time of its last
refill, its half's share, the bytes requested in this interval of 10 µs, and the requests held at its cap, oldest first:
bytes and since when. -/
structure Reg where
  ctx : Nat
  t : Nat
  h : Nat
  minb : Frac
  capb : Frac
  last : Nat
  share : Frac
  req : Nat
  held : List (Nat × Nat)
  deriving DecidableEq, Repr

/-- An entry of a couching buffer (R279): controller, 128-byte line, its valid bytes as a mask, the 128 bytes under it
when it was allocated, the context of the last write to each codeword and to the line, the time and the hold of its
allocation. -/
structure Couch where
  ctl : Nat
  line : Nat
  valid : Nat
  old : List Byte
  owners : List (Nat × Nat)
  last : Nat
  time : Nat
  hold : Nat
  deriving DecidableEq, Repr

/-- A spill or fill in progress (R297, R298): context, segment, whether it is a fill, its first and its new device
address, its bytes, whether it copies already, and since when it holds. -/
structure Spill where
  ctx : Nat
  seg : Nat
  fill : Bool
  src : Nat
  dst : Nat
  len : Nat
  copying : Bool
  start : Nat
  deriving DecidableEq, Repr

/-- Pool space taken (R295): context, segment, first address, bytes. -/
structure PoolUse where
  ctx : Nat
  seg : Nat
  base : Nat
  len : Nat
  deriving DecidableEq, Repr

/-- External memory (chapter 09). -/
structure ExtState where
  /-- Symbol errors stored in a sector's codeword: sector address, and position and difference of each symbol. -/
  errs : List (Nat × List (Nat × Nat))
  /-- Sectors whose stored codeword is uncorrectable. -/
  ue : List Nat
  /-- Times of the corrected symbols of a lane within the window: lane key, times (R275). -/
  lanes : List (Nat × List Nat)
  couch : List Couch
  /-- Controllers whose buffer retires its oldest entries (R281). -/
  draining : List Nat
  regs : List Reg
  /-- The last share update (R286). -/
  shareAt : Nat
  spills : List Spill
  pool : List PoolUse
  deriving DecidableEq, Repr

/-- Hoop beside its records (R205, R222): contexts whose staged set, and whose pending set, is an image; forgets that
wait for the step boundary, context and slot (0xFFFF: all). -/
structure HoopState where
  imgS : List Nat
  imgP : List Nat
  forget : List (Nat × Nat)
  deriving DecidableEq, Repr

/-- A stream slot's cursor of a stitch run (R183, R199): the slot, the position its next tile continues at, its
descriptor. -/
structure NSlot where
  s : Nat
  pos : Nat
  desc : Nat
  deriving DecidableEq, Repr

/-- A Cordonnet channel (R190, R199): channel, operation, SEG, elements received, elements of the open segment so far
(0: no open segment), accumulator as a W32P container, position of ARGMAX, poison, and the first poison's position. -/
structure Chan where
  ch : Nat
  op : Nat
  seg : Nat
  count : Nat
  inSeg : Nat
  acc : Nat
  arg : Nat
  poison : Bool
  deriving DecidableEq, Repr

/-- A tile as Pricking releases it (R94, R113): its launch, index, context, tile id, descriptor with the next tile's of
its chain (0: none), the device addresses of its spans and program, the context address and device address at which its
feed's range begins, its class (0 LC, 1 BE), DEFER, what its launch captured (SR_SEED, STEP_NUM, DEF_RND, RECOMP_MODE,
home die), the scale sources it captured for its slots (R56: slot, 256 + scale, or 512 for BLOCK in PROBE), when it was
released, and whether the Sampler selected its chain. -/
structure Tile where
  cmd : Nat
  idx : Nat
  ctx : Nat
  tid : Nat
  desc : Nat
  size : Nat
  nextDesc : Nat
  in0 : Nat
  in1 : Nat
  out : Nat
  prog : Nat
  feedCtx : Nat
  feedDev : Nat
  cls : Nat
  defer : Bool
  seed : Nat
  step : Nat
  rnd : Nat
  recomp : Nat
  home : Nat
  scales : List (Nat × Nat)
  released : Nat
  selected : Bool
  deriving DecidableEq, Repr

/-- The digests of a run of a chain (R436): CRC-64 of what was loaded and of what was stored, the status and the counts,
the recomputes run (tile index, level) and the bin of Table 14.7 at its start. -/
structure Digest where
  inp : Nat
  outp : Nat
  bin : Nat
  deriving DecidableEq, Repr

/-- A chain (R117): its id, launch, context, the Sampler run it belongs to if any, the index of the tile it ran last, the
accumulators as W32P containers by 512 × row + column, the stream cursors and channels, whether it counts on the BE side
(R121), the tiles it has run and its digests (R435, R436), which start at `dig`. -/
structure Chain where
  id : Nat
  cmd : Nat
  ctx : Nat
  samp : Option Nat
  idx : Nat
  acc : List (Nat × Nat)
  slots : List NSlot
  chans : List Chan
  be : Bool
  tiles : List Tile
  dig : Digest
  deriving DecidableEq, Repr

/-- A recompute that waits (R210): its tile and which recompute it is (1, 2). -/
structure Again where
  tile : Tile
  level : Nat
  /-- The cursors and channels with which the tile started (R196, R199). -/
  slots : List NSlot
  chans : List Chan
  /-- Its program bytes and the window at its first execution cycle. -/
  prog : List Nat
  snap : List (Nat × Byte)
  deriving DecidableEq, Repr

/-- A spilled chain (R126, R127): the chain, a recompute of it that waits, and the blocks of its window that work placed
meanwhile would have covered, with the tag they carried: block, tag, bytes. -/
structure SpillChain where
  chain : Chain
  again : Option Again
  blocks : List (Nat × Nat × List Byte)
  deriving DecidableEq, Repr

/-- A core (R120). CORE_STATE, CORE_CTX and CORE_SPILL are objects; a RUNNING core without a tile is at its boundary. -/
structure Core where
  k : Nat
  tile : Option Tile
  /-- 0: a first run; 1, 2: a recompute. -/
  level : Nat
  chain : Option Chain
  again : Option Again
  spill : Option SpillChain
  /-- When its present work was assigned, and when its tile first executed. -/
  since : Nat
  execAt : Nat
  /-- The window of the tile at its first execution cycle (R171), its program. -/
  snap : List (Nat × Byte)
  prog : List Nat
  slots0 : List NSlot
  chans0 : List Chan
  deriving DecidableEq, Repr

/-- An OUT store under way (R115): the tile, the core, the writes by device address, the images it logs (R213: reason,
source, slot, whether a PLANE destination, context address, bytes). -/
structure OutStore where
  id : Nat
  tile : Tile
  core : Nat
  writes : List (Nat × List Nat)
  images : List (List Nat)
  status : Nat
  deriving DecidableEq, Repr

/-- A launch in flight (R94): its command, context, tiles released and not yet placed, tiles placed and not complete,
and the fault it ends with: tile index, status, DETAIL. -/
structure Launch where
  cmd : Nat
  ctx : Nat
  waiting : List Tile
  live : Nat
  fault : Option (Nat × Nat × Nat)
  deriving DecidableEq, Repr

/-- A non-preemptible section (R133): its id, kind (0 collective, 1 batch of a SCATTER_ADD, 2 swatch), its command or the
core it samples, context, die, class (0 LC, 1 BE), declared bound in µs, when it was claimed, the core it holds, when it
started, and whether its watchdog was signalled (R136). -/
structure Section where
  id : Nat
  kind : Nat
  ref : Nat
  ctx : Nat
  die : Nat
  cls : Nat
  bound : Nat
  claimed : Nat
  core : Option Nat
  start : Nat
  overran : Bool
  deriving DecidableEq, Repr

/-- A slice that expired while sections of its owner ran (R135): context, expiry, largest overrun so far. -/
structure Overrun where
  ctx : Nat
  expiry : Nat
  most : Nat
  deriving DecidableEq, Repr

/-- A run of a selected chain (R435 to R437): its id, kind (0 original, 1 shadow, 2 referee, 3 rerun, 4 known answer),
its chain's tiles, the cores it may not use, the core it must use, when it was due, the tile it runs next, whether it
has started and ended, its core and its digests, and the digests of the earlier runs of its comparison with their cores,
oldest first. -/
structure SampRun where
  id : Nat
  kind : Nat
  tiles : List Tile
  notCores : List Nat
  onCore : Option Nat
  due : Nat
  next : Nat
  started : Bool
  ended : Bool
  core : Nat
  dig : Digest
  before : List (Nat × Digest)
  deriving DecidableEq, Repr

/-- Pricking (chapter 04). -/
structure SchedState where
  launches : List Launch
  cores : List Core
  stores : List OutStore
  sections : List Section
  /-- When the present owners became owners and their slice lengths: LC, BE. -/
  sinceLc : Nat
  lenLc : Nat
  sinceBe : Nat
  lenBe : Nat
  overruns : List Overrun
  runs : List SampRun
  /-- The last junction temperature read of each core, in °C (R439); unlisted: 0. -/
  temps : List (Nat × Int)
  deriving DecidableEq, Repr

/-- One row of a Picot command (R306, R312): its lowest position, every position that names it, the row number, device
addresses of its code bytes, plane scale bytes and state word, whether it is cold, its state (0 not yet issued, 1 waiting
for a lock, 2 issued, 3 done) and since when it waits. -/
structure PRow where
  p : Nat
  ps : List Nat
  i : Nat
  addr : Nat
  sc : Nat
  st : Nat
  cold : Bool
  state : Nat
  since : Nat
  deriving DecidableEq, Repr

/-- A Picot command under way (R303): its command, context, die, kind (0 GATHER, 1 streamed, 2 batch), table header, the
device address of OUT, the scale captured for a TENSOR destination, its rows, the decoded rows that have returned by
position, the outputs left to write, the status it ends with, the section of a batch, and its row writes issued. -/
structure PicotJob where
  id : Nat
  ctx : Nat
  die : Nat
  kind : Nat
  hdr : Nat
  out : Nat
  cap : Nat
  rows : List PRow
  got : List (Nat × List Nat)
  left : List Nat
  fail : Option (Nat × Nat)
  sect : Option Nat
  written : Nat
  deriving DecidableEq, Repr

/-- A row lock (R316): die, device address of the row's first code byte, the command that holds it. -/
structure PLock where
  die : Nat
  addr : Nat
  cmd : Nat
  deriving DecidableEq, Repr

/-- Picot (chapter 10). -/
structure PicotState where
  jobs : List PicotJob
  locks : List PLock
  deriving DecidableEq, Repr

/-- A DATA packet that is sent and not acknowledged cumulatively (R342): PSN counted from 0 without wrapping, message,
offset, bytes, the port and path of its latest transmission, when it was first and last transmitted, whether it is reported
in a range, declared lost, or withdrawn by a refusal (R346), and the port whose metro buffer holds its bytes with them. -/
structure TxPkt where
  psn : Nat
  msg : Nat
  off : Nat
  len : Nat
  port : Nat
  path : Nat
  first : Nat
  last : Nat
  sacked : Bool
  lost : Bool
  heldBack : Bool
  buf : Option Nat
  bytes : List Byte
  deriving DecidableEq, Repr

/-- A message to send (R344): peer entry, number on its session once its first packet is cut, KEY, length, user (0 a chunk
of a COLL, 1 an abort notice, 2 the loader, 3 Pairing), the user's reference and tag, its bytes, or the device addresses and
lengths they are read from, bytes cut into packets, bytes acknowledged, and until when a refusal holds it with the refused
PSN. -/
structure TxMsg where
  n : Nat
  num : Option Nat
  key : Nat
  len : Nat
  user : Nat
  ref : Nat
  tag : Nat
  data : List Byte
  src : List (Nat × Nat)
  cut : Nat
  acked : Nat
  hold : Option (Nat × Nat)
  deriving DecidableEq, Repr

/-- A receive posted for a KEY (R341): peer entry, KEY, length, the COLL and its tag, and the device address it fills. -/
structure Posted where
  n : Nat
  key : Nat
  len : Nat
  ref : Nat
  tag : Nat
  addr : Nat
  deriving DecidableEq, Repr

/-- A message being received: its number, KEY, length, the receive it fills (none: a receive that the loader, Pairing or
Plait keeps posted), bytes written, and those of a kept receive by offset. -/
structure RxMsg where
  num : Nat
  key : Nat
  len : Nat
  into : Option Posted
  got : Nat
  parts : List (Nat × List Byte)
  deriving DecidableEq, Repr

/-- A whole message received into a kept receive: id, peer entry, KEY, bytes. -/
structure InMsg where
  id : Nat
  n : Nat
  key : Nat
  data : List Byte
  deriving DecidableEq, Repr

/-- An exact fraction. -/
structure Ratio where
  n : Nat
  d : Nat
  deriving DecidableEq, Repr

/-- A session that is OPENING or OPEN (R336 to R348), by its peer-table entry. -/
structure Sess where
  n : Nat
  sid : Nat
  /-- This side sent the OPEN. -/
  opener : Bool
  peerSid : Nat
  peerInc : Nat
  peerCgen : Nat
  home : Nat
  /-- NONCE_I, and the body of the OPEN or OPEN_ACK this side sent last. -/
  nonce : Nat
  body : Nat
  openAt : Nat
  openLast : Nat
  /-- Sender: next PSN, next message number, consecutive timeouts (R342), packets, the latest first transmission among the
  packets acknowledged or reported, since when DATA or a PROBE is outstanding. -/
  psn : Nat
  msg : Nat
  k : Nat
  pkts : List TxPkt
  covered : Option Nat
  outSince : Option Nat
  /-- Receiver: next PSN expected, ranges above it, the newest PSN, messages under way, packets and CE marks since the
  last ACK, the PSN to echo, since when an arrival is unacknowledged, the last ACK of a gap. -/
  cum : Nat
  ranges : List (Nat × Nat)
  newest : Nat
  rx : List RxMsg
  rxCount : Nat
  ceCount : Nat
  echo : Nat
  ackDue : Option Nat
  gapAt : Option Nat
  /-- Rate control (R348): α, r in bytes per second, smoothed round trip in ns and whether it has been measured, the last
  decrease, INC_US intervals without one, the present interval's start and whether it saw a decrease or a CE mark, and the
  time from which pacing allows the next packet. -/
  alpha : Ratio
  rate : Ratio
  srtt : Nat
  measured : Bool
  lastDec : Option Nat
  incN : Nat
  incAt : Nat
  incDec : Bool
  incCe : Bool
  nextTx : Nat
  /-- When anything was last received, when progress was last made, the outstanding PROBE's first and last sending. -/
  lastRx : Nat
  lastProg : Nat
  probe : Option (Nat × Nat)
  /-- Times of the violations of the last second (R340). -/
  viol : List Nat
  deriving DecidableEq, Repr

/-- The PTP servo (R353 to R355): the Announce of the chosen grandmaster, the count of consecutive Syncs within 200 ns, the
last Sync's time, a two-step Sync that waits for its Follow_Up (sequence, arrival), master-to-slave difference and path
delay in ns, a delay request that waits (sequence, departure), when one was last sent, the sequence of the next one, and
the frequency correction and slew in ppb, with the fraction of a ns of device time in units of 10⁻⁹ ns. -/
structure PtpState where
  gm : Option Announce
  good : Nat
  syncAt : Nat
  two : Option (Nat × Nat)
  d21 : Int
  delay : Int
  req : Option (Nat × Nat)
  reqAt : Option Nat
  reqSeq : Nat
  freq : Int
  slew : Int
  sub : Nat
  deriving DecidableEq, Repr

/-- Ports and Exbaene (chapter 11). -/
structure NetState where
  sess : List Sess
  msgs : List TxMsg
  posted : List Posted
  inbox : List InMsg
  /-- Open-attempt counts by entry (R329). -/
  att : List (Nat × Nat)
  /-- When an entry was REJECTED (R336). -/
  rejectedAt : List (Nat × Nat)
  /-- After a device warm reset, until the next PEER_COMMIT, no entry opens (R352). -/
  shut : Bool
  /-- The last STALE or REJECT by source address, and those sent by a port in a second: port, second, count (R340). -/
  replyAt : List (Nat × Nat)
  replyRate : List (Nat × Nat × Nat)
  /-- Sessions that have sent in the present turn of a port: port, entry (R350). -/
  turn : List (Nat × Nat)
  /-- When a port last met a condition of DEGRADED (Table 11.3). -/
  degAt : List (Nat × Nat)
  ptp : PtpState
  deriving DecidableEq, Repr

/-- A decoded value kept exactly: mantissa and exponent of two, or poison. -/
structure Exact where
  m : Int
  e : Int
  bad : Bool
  deriving DecidableEq, Repr

/-- What a COLL receives from one member (R376): level (1: the inner level of a PARAM_GATHER), position, peer entry,
chunks in all, receives posted, chunks landed and chunks done. -/
structure CollRx where
  lv : Nat
  pos : Nat
  n : Nat
  total : Nat
  posted : Nat
  landed : Nat
  done : Nat
  deriving DecidableEq, Repr

/-- What a COLL sends to one member: level, position, peer entry, chunks in all, handed to Exbaene, and delivered. -/
structure CollTx where
  lv : Nat
  pos : Nat
  n : Nat
  total : Nat
  sent : Nat
  delivered : Nat
  deriving DecidableEq, Repr

/-- A landing slot in use (R376): the slot, the sender's level and position, the chunk's index in the sender's (round,
chunk) order, whether it has landed, and the elements its merges have done in sections (R379). -/
structure Landing where
  slot : Nat
  lv : Nat
  pos : Nat
  idx : Nat
  landed : Bool
  done : Nat
  deriving DecidableEq, Repr

/-- A COLL in flight (R363): its command, context, group and inner group, OP, descriptor, SEQ, the scale captured for a
TENSOR destination, device addresses of SRC, DST, SSCALE, DSCALE, THRUM_IN, THRUM_OUT and WORK; what it receives and sends;
its landing slots; for DIRECT the sum of each own chunk so far (chunk, members added, values); for a PARAM_GATHER the
wire bytes of the outer slice (part, chunk, bytes) and the inner chunks sent; its start and COLL_FIRST_MS then; the last
exchange with an entry with the timeout that runs from it; its section, and what it has failed with. -/
structure CollJob where
  id : Nat
  ctx : Nat
  group : Nat
  inner : Nat
  op : Nat
  desc : Nat
  seq : Nat
  cap : Nat
  src : Nat
  dst : Nat
  ss : Nat
  ds : Nat
  tin : Nat
  tout : Nat
  work : Nat
  rx : List CollRx
  tx : List CollTx
  slots : List Landing
  acc : List (Nat × List Nat × List Exact)
  wire : List (Nat × Nat × List Nat)
  inSent : Nat
  start : Nat
  first : Nat
  exch : List (Nat × Nat × Nat)
  sect : Option Nat
  fail : Option (Nat × Nat)
  deriving DecidableEq, Repr

/-- Plait (chapter 12): COLLs in flight, and the last SEQ started on each group (R361). -/
structure PlaitState where
  jobs : List CollJob
  lastSeq : List (Nat × Nat)
  deriving DecidableEq, Repr

/-- The PCIe configuration the host has made (R525, R529). -/
structure PcieState where
  /-- Functions with Bus Master Enable, and with MSI-X enabled: 0 is the physical function. -/
  busMaster : List Nat
  msix : List Nat
  deriving DecidableEq, Repr

/-- A Hokutia session that is OPEN (R507, R512): its number 0-3, the SID, its HOK_KEYS entry, the manager's address
and UDP port, the two session keys, the last accepted SEQ with its kept RESPONSE, and the time of the last valid message. -/
structure HokSession where
  s : Nat
  sid : Nat
  key : Nat
  addr : Nat
  port : Nat
  kmd : Nat
  kdm : Nat
  lastSeq : Nat
  lastResp : List Nat
  lastValid : Nat
  deriving DecidableEq, Repr

/-- An object window (Table 17.4): its function, its registers, WIN_DATA, and of the operation in progress its start and the
status that it ends with. -/
structure Window where
  fn : Nat
  object : Nat
  active : Bool
  offset : Nat
  len : Nat
  status : Nat
  busy : Bool
  done : Nat
  data : List Byte
  start : Nat
  next : Nat
  deriving DecidableEq, Repr

/-- The dictionary's interfaces (chapter 17). -/
structure DictState where
  sessions : List HokSession
  windows : List Window
  /-- The configuration store: the value last written of each persistent scalar by number, of each byte of a persistent
  BLOB by BLOB key, and the time of the last store write of each object (R492). -/
  storeObj : List (Nat × Nat)
  storeBlob : List (Nat × Nat)
  storeAt : List (Nat × Nat)
  /-- Persistent objects changed since their last store write (R492), and the INCARNATION last written (R338). -/
  dirty : List Nat
  storeInc : Nat
  /-- The store is marked for erasure at the next cold reset (R493). -/
  erase : Bool
  /-- ERROR answers sent, by source address: time of the last (R513). -/
  errorAt : List (Nat × Nat)
  deriving DecidableEq, Repr

/-- A block of the arena that is allocated (R416): block, owner context, sequence slot, index in the sequence. -/
structure Block where
  b : Nat
  ctx : Nat
  seq : Nat
  n : Nat
  deriving DecidableEq, Repr

/-- A sequence that is not FREE (R417): context, slot, state of Table 13.8, blocks its join asks for, its place among the
joins that wait, its place among the sequences joined, blocks it holds, and those of them spilled: block of the sequence, and
its 64 KiB place in the overflow range. -/
structure SeqSt where
  ctx : Nat
  q : Nat
  st : Nat
  want : Nat
  ord : Nat
  joined : Nat
  held : Nat
  spilled : List (Nat × Nat)
  deriving DecidableEq, Repr

/-- A SEQ_GROW that waits for blocks (R419): context, sequence slot, further blocks, contexts whose hold timed out, and the
context held now with since when and whether for an eviction. -/
structure Grow where
  ctx : Nat
  q : Nat
  n : Nat
  skip : List Nat
  hold : Option (Nat × Nat × Bool)
  deriving DecidableEq, Repr

/-- The arena (R416 to R419). -/
structure ArenaState where
  blocks : List Block
  seqs : List SeqSt
  grows : List Grow
  deriving DecidableEq, Repr

/-- A shard of a load (R399 to R404): index, its entry, state of SHARD_STATUS, attempt, whether that is from the predecessor,
when the attempt started with its timeout in ns, whether the source is to be hashed first, what it waits for (0 its issue,
1 its bytes, 3 its hash, 4 nothing), and the device address its bytes come from. -/
structure Shard where
  i : Nat
  entry : Nat
  st : Nat
  att : Nat
  pred : Bool
  start : Option Nat
  tmo : Nat
  srcHash : Bool
  waits : Nat
  eng : Nat
  deriving DecidableEq, Repr

/-- A load (R398): LOAD_CTX, LOAD_SLOT, its target (4: COPY), CHAIN, LOAD_PRED, LOAD_SUCC, the manifest's address, COPY_ADDR,
header, whether it is in place, its phase (0 WAITING, 1 for the pause of R410, 2 running, 3 over), its shards, and the next
shard to forward. -/
structure LoadJob where
  ctx : Nat
  sel : Nat
  target : Nat
  chain : Bool
  pred : Nat
  succ : Nat
  manifest : Nat
  copy : List Nat
  hdr : Nat
  inPlace : Bool
  phase : Nat
  shards : List Shard
  fwd : Nat
  deriving DecidableEq, Repr

/-- A hash that waits for a SHA-256 engine or runs on one (R403, R426): kind (0 a shard of a load, 1 a mirror shard as
16 × context + shard), its shard, and the engine. -/
structure HashJob where
  kind : Nat
  ref : Nat
  eng : Option Nat
  deriving DecidableEq, Repr

/-- Loading and lending (chapter 13): the present or last load, a swap accepted and not ended, contexts whose ADD_SWAP
waits for the next request boundary, and the hash jobs in order of readiness. -/
structure LifeState where
  job : Option LoadJob
  swap : Bool
  addSwap : List Nat
  hashes : List HashJob
  deriving DecidableEq, Repr

/-- A stage area (R424): context, shard, first address, bytes. -/
structure StageArea where
  ctx : Nat
  s : Nat
  base : Nat
  len : Nat
  deriving DecidableEq, Repr

/-- A shard of a mirror (R426, R427): shard, MIR_ID, peer entry, device address of its bytes, their number, the address of
its stage header, the copy header, whether its hash has ended, DATA messages not yet DELIVERED, whether the final HEADER has
gone, and how it stands (0 being sent, 1 delivered, 2 abandoned, 3 skipped). -/
structure MirShard where
  s : Nat
  key : Nat
  n : Nat
  addr : Nat
  len : Nat
  stage : Option Nat
  hdr : Nat
  hashed : Bool
  left : Nat
  final : Bool
  outcome : Nat
  deriving DecidableEq, Repr

/-- A mirror of a context (R426): the step it begins, its shards, and whether its end has been reported. -/
structure Mirror where
  ctx : Nat
  step : Nat
  shards : List MirShard
  told : Bool
  deriving DecidableEq, Repr

/-- A copy that the partner has sent (R431, R432): its header, whether it is intact, its bytes when they do not lie in the
shard range. -/
structure RestCopy where
  hdr : Nat
  intact : Bool
  data : Option (List Byte)
  deriving DecidableEq, Repr

/-- A shard of a restore (R430): shard, whether the partner has been asked, and has answered, the copies received, and the
chunks of a further copy as they arrive. -/
structure RestShard where
  s : Nat
  asked : Bool
  answered : Bool
  copies : List RestCopy
  parts : List (Nat × List Byte)
  deriving DecidableEq, Repr

/-- A restore of a context (R430): its shards, whether the context is quiet, and since when it holds. -/
structure Restore where
  ctx : Nat
  shards : List RestShard
  ready : Bool
  start : Nat
  deriving DecidableEq, Repr

/-- Pairing (chapter 14): stage areas, mirrors, mirror actions that wait for the previous mirror with since when, copies
being received (held entry, peer entry), restores, and snapshot hold time of this window (R444). -/
structure PairState where
  stage : List StageArea
  mirrors : List Mirror
  wait : List (Nat × Nat)
  recv : List (Nat × Nat)
  restores : List Restore
  holdNs : Nat
  deriving DecidableEq, Repr

/-- The Sampler and health (R435 to R444): comparisons of the last hour (time, verdict: 0 PASS, 1 CONFIRMED, 2 UNREPRODUCED,
3 UNRESOLVED), times of uncorrectable reads, UNREPRODUCED verdicts of a core (core, bin, time), bins confirmed (core, bin);
PROBATION: the ns left at an instant, that instant, comparisons made in it; the last known-answer suite and score; the last
report's time, score and number, and since when a change waits to be reported; the window of R444 with its shadow and
known-answer core time. -/
structure HealthState where
  comps : List (Nat × Nat)
  ues : List Nat
  unrep : List (Nat × Nat × Nat)
  conf : List (Nat × Nat)
  left : Nat
  leftAt : Nat
  probN : Nat
  katAt : Nat
  scoreAt : Nat
  reportAt : Nat
  reported : Nat
  reportSeq : Nat
  due : Option Nat
  winAt : Nat
  shadowNs : Nat
  katNs : Nat
  deriving DecidableEq, Repr

/-- A core sample of a swatch (R456): core, its register capture as a number of 16 KiB, the tags that are not 0 by block, and
the bytes that are not 0 of the first sectors, by 32 × block + byte. -/
structure SwSample where
  core : Nat
  regs : Nat
  tags : List (Nat × Nat)
  bytes : List (Nat × Nat)
  deriving DecidableEq, Repr

/-- A swatch (R454, R457): the fields of Table 15.6, the words of the engine-state record and of the contexts (offset in the
entry, bytes, value), the samples, and the Hoop records it holds: die, context, and the listed bytes of the context's records
by offset. -/
structure Swatch where
  st : Nat
  dom : Nat
  cause : Nat
  target : Nat
  time : Nat
  inc : Nat
  ctxMask : Nat
  coreMask : Nat
  doneMask : Nat
  hoopMask : Nat
  bad : Nat
  seq : Nat
  words : List (Nat × Nat × Nat)
  samples : List SwSample
  hoop : List (Nat × Nat × List (Nat × Nat))
  deriving DecidableEq, Repr

/-- A reset under way (R448): domain, target and cause codes, start, its limit in ns, escalations so far, whether it started
under DEVICE mode, the command that fired an engine reset, its swatch with the cores not yet sampled, the phase (0 sampling, 1
memory phase, 2 firmware verified, 3 memory trained) with the start of the memory phase, the contexts a die reset resets with
it, for a core reset the launches and commands that ran on the core (command, tile index or core, and 0 for a chain, 1 for a
tile under way, 2 for a section), and the queues of a context reset that held a command or pattern, with the patterns admitted
that had started no command. -/
structure Reset where
  dom : Nat
  target : Nat
  cause : Nat
  start : Nat
  limit : Nat
  esc : Nat
  dev : Bool
  culprit : Option Nat
  swatch : Option Swatch
  todo : List Nat
  phase : Nat
  memAt : Nat
  ctxs : List Nat
  ends : List (Nat × Nat × Nat)
  queues : List (Nat × Nat)
  deriving DecidableEq, Repr

/-- Resets (chapter 15): those under way, the swatch ring by entry, swatches written since cold reset, and whether a device
warm reset has given up and waits for power to be cycled (R468). -/
structure ResetState where
  runs : List Reset
  ring : List (Nat × Swatch)
  seq : Nat
  stuck : Bool
  deriving DecidableEq, Repr

/-- An attestation request that is BUSY (R540): context, bits [1535:0] of its report, when it was made. -/
structure Attest where
  ctx : Nat
  body : Nat
  since : Nat
  deriving DecidableEq, Repr

/-- Start-up, firmware and test access (chapters 18, 19): COLD_RST_N is low; TEST_MODE as sampled at its release; the main
rails are on; a shutdown that only COLD_RST_N ends is in force; P48V lies outside 40–60 V; P12V_SB is lost; THERMTRIP_N is
driven; flash bytes staged since manufacture by bank × 2^32 + offset, and the banks erased; fuses burned by R536; the bank
first tried at the running start; the boot ROM restarts the device from RECOVERY (R537); the attestations under way; consecutive entropy retests passed, and the last one; the
boundary register's cells, and the last TAP_DENIED record. -/
structure BootState where
  held : Bool
  testMode : Bool
  rails : Bool
  tripped : Bool
  vinOut : Bool
  vsbLost : Bool
  thermtrip : Bool
  flash : List (Nat × Nat)
  erased : List Nat
  burned : Nat
  tried : Nat
  restart : Bool
  attest : List Attest
  passes : Nat
  retestAt : Nat
  bsr : Nat
  deriving DecidableEq, Repr

/-- A change of a die's core clock (R485): die, new frequency, whether it raises, the PLL is locked, the setpoint reached, the
clock switched, its start. -/
structure ClkChange where
  die : Nat
  mhz : Nat
  up : Bool
  locked : Bool
  reached : Bool
  switched : Bool
  start : Nat
  deriving DecidableEq, Repr

/-- Clocks and throttling (chapters 16, 19): the undivided frequency of each die (unlisted: 1,800), changes under way, targets
that wait for one, the last change of a target, the cap that step 1 holds on a die with the time of its last raise, whether
the step 2 divider acts and when one of its triggers last held, the dies in breach of the floor with the time counted up to,
when throttling started and up to when it is counted, and for each consumer of device time (0 the NoC, 1 + p port p) its last
intact sample and the highest value it has reported. -/
structure ClockState where
  freq : List (Nat × Nat)
  changes : List ClkChange
  next : List (Nat × Nat)
  lastAt : List (Nat × Nat)
  cap : List (Nat × Nat × Nat)
  div : Bool
  divAt : Nat
  breach : List (Nat × Nat)
  thrAt : Option Nat
  thrTo : Nat
  samples : List (Nat × Nat × Nat)
  deriving DecidableEq, Repr

/-- Everything but memory and the queue of commands. -/
structure Dev where
  /-- Device time in ns (R8). -/
  time : Nat
  /-- The object dictionary: the value in force of every scalar object by number, and the staged and pending copies of
  the RWC objects (R490, R497); unlisted numbers hold their default. -/
  obj : List (Nat × Nat)
  objS : List (Nat × Nat)
  objP : List (Nat × Nat)
  /-- The bytes of BLOB objects by number × 2^32 + offset: in force, staged, pending. -/
  blob : List (Nat × Nat)
  blobS : List (Nat × Nat)
  blobP : List (Nat × Nat)
  log : LogState
  /-- The messages the latest command put on links and pins, oldest first. -/
  sent : List OutMsg
  /-- The next id of a pattern, command, tile or other process of the device. -/
  nextId : Nat
  /-- The model's own counter of free values drawn. -/
  free : Nat
  pcie : PcieState
  q : QueueState
  bob : BobbinState
  hoop : HoopState
  ext : ExtState
  sched : SchedState
  picot : PicotState
  net : NetState
  plait : PlaitState
  dict : DictState
  arena : ArenaState
  life : LifeState
  pair : PairState
  health : HealthState
  rst : ResetState
  boot : BootState
  clk : ClockState
  deriving DecidableEq, Repr

/-- The state: the device, its memory and host memory in one list by device address (Table 01.5; the host window is
from 2^47 up), and the queue of commands that wait. -/
structure State extends Dev where
  mem : List Host.Cell
  pending : List Instr
  deriving DecidableEq, Repr

/-- The device in the middle of a command: memory as the command found it, and the writes it has made so far, the
newest first. -/
structure Work extends Dev where
  mem : List Host.Cell
  out : List MemWrite
  deriving DecidableEq, Repr

def LogState.reset : LogState :=
  { recs := [], fill := 0, fillAt := 0, lost := 0, lastAt := [], readSeq := [], notifs := [], notifSeq := [], notifRate := [] }

def QueueState.reset : QueueState :=
  { pats := [], cmds := [], timers := [], owed := [], committed := [], disabling := [], segWait := [],
    flushing := [], prog := [] }

def BobbinState.reset : BobbinState := { tags := [], fills := [], held := [], streams := [] }

def ExtState.reset : ExtState :=
  { errs := [], ue := [], lanes := [], couch := [], draining := [], regs := [], shareAt := 0, spills := [], pool := [] }

/-- A core after reset (R120): idle, nothing held. -/
def Core.reset (k : Nat) : Core :=
  { k := k, tile := none, level := 0, chain := none, again := none, spill := none, since := 0, execAt := 0,
    snap := [], prog := [], slots0 := [], chans0 := [] }

def SchedState.reset : SchedState :=
  { launches := [], cores := (List.range 32).map Core.reset, stores := [], sections := [], sinceLc := 0, lenLc := 0,
    sinceBe := 0, lenBe := 0, overruns := [], runs := [], temps := [] }

def DictState.reset : DictState :=
  { sessions := [], windows := [], storeObj := [], storeBlob := [], storeAt := [], dirty := [], storeInc := 0, erase := false,
    errorAt := [] }

def PtpState.reset : PtpState :=
  { gm := none, good := 0, syncAt := 0, two := none, d21 := 0, delay := 0, req := none, reqAt := none, reqSeq := 0,
    freq := 0, slew := 0, sub := 0 }

def NetState.reset : NetState :=
  { sess := [], msgs := [], posted := [], inbox := [], att := [], rejectedAt := [], shut := false, replyAt := [],
    replyRate := [], turn := [], degAt := [], ptp := PtpState.reset }

def PcieState.reset : PcieState := { busMaster := [], msix := [] }

/-- Health at first power-up: no record of any core. -/
def HealthState.reset : HealthState :=
  { comps := [], ues := [], unrep := [], conf := [], left := 0, leftAt := 0, probN := 0, katAt := 0, scoreAt := 0, reportAt := 0,
    reported := 1000, reportSeq := 0, due := none, winAt := 0, shadowNs := 0, katNs := 0 }

/-- The standby partition with COLD_RST_N low: rails off, flash as manufactured. -/
def BootState.reset : BootState :=
  { held := true, testMode := false, rails := false, tripped := false, vinOut := false, vsbLost := false, thermtrip := false,
    flash := [], erased := [], burned := 0, tried := 0, restart := false, attest := [], passes := 0, retestAt := 0, bsr := 0 }

def ClockState.reset : ClockState :=
  { freq := [], changes := [], next := [], lastAt := [], cap := [], div := false, divAt := 0, breach := [], thrAt := none,
    thrTo := 0, samples := [] }

/-- The device at the release of cold reset: every object at its default (R6), nothing in flight. Log entry 9. -/
def Dev.reset : Dev :=
  { time := 0, obj := [], objS := [], objP := [], blob := [], blobS := [], blobP := [], log := LogState.reset, sent := [],
    nextId := 1, free := 0, pcie := PcieState.reset, q := QueueState.reset, bob := BobbinState.reset, ext := ExtState.reset,
    sched := SchedState.reset, picot := { jobs := [], locks := [] }, net := NetState.reset, plait := { jobs := [], lastSeq := [] },
    hoop := { imgS := [], imgP := [], forget := [] },
    dict := DictState.reset, arena := { blocks := [], seqs := [], grows := [] },
    life := { job := none, swap := false, addSwap := [], hashes := [] },
    pair := { stage := [], mirrors := [], wait := [], recv := [], restores := [], holdNs := 0 },
    health := HealthState.reset, rst := { runs := [], ring := [], seq := 0, stuck := false }, boot := BootState.reset,
    clk := ClockState.reset }

/-- The machine right after reset. Log entries 9, 10. -/
def State.reset : State := { toDev := Dev.reset, mem := [], pending := [] }

end Sys2Proof.Machine
end

