-- ==== Sys2Proof/Machine/Bits.lean ====
section
/-!
DEFINITION. Sys2Proof/Machine/Bits.lean: bit fields, byte order and small arithmetic of the field maps. Every structure
of the device is little-endian unless its chapter says otherwise.
-/
namespace Sys2Proof.Machine

/-- Bits [lo + len - 1 : lo] of x. -/
def bits (x lo len : Nat) : Nat := (x >>> lo) % 2 ^ len

/-- Bit i of x. -/
def bitOf (x i : Nat) : Bool := bits x i 1 == 1

/-- x with bits [lo + len - 1 : lo] replaced by v. -/
def setBits (x lo len v : Nat) : Nat :=
  x - bits x lo len * 2 ^ lo + (v % 2 ^ len) * 2 ^ lo

/-- x with bit i set or cleared. -/
def setBit (x i : Nat) (b : Bool) : Nat := setBits x i 1 (if b then 1 else 0)

/-- 1 for true, 0 for false: the value of a one-bit field. -/
def b2n (b : Bool) : Nat := if b then 1 else 0

/-- ⌈a / b⌉. -/
def ceilDiv (a b : Nat) : Nat := (a + b - 1) / b

/-- The largest value of an n-bit unsigned field. -/
def maxU (n : Nat) : Nat := 2 ^ n - 1

/-- The integer a two's-complement field of n bits holds. -/
def signedOf (n x : Nat) : Int :=
  if x % 2 ^ n < 2 ^ (n - 1) then ((x % 2 ^ n : Nat) : Int) else ((x % 2 ^ n : Nat) : Int) - ((2 ^ n : Nat) : Int)

/-- The n-bit two's-complement field that holds an integer. -/
def toSigned (n : Nat) (i : Int) : Nat := (i % ((2 ^ n : Nat) : Int)).toNat

/-- The bytes of x, least significant first. -/
def leBytes (x : Nat) : Nat → List Byte
  | 0 => []
  | n + 1 => BitVec.ofNat 8 x :: leBytes (x / 256) n

/-- The number a little-endian string of bytes holds. -/
def leNat : List Byte → Nat
  | [] => 0
  | b :: r => b.toNat + 256 * leNat r

/-- The number a big-endian string of byte values holds. -/
def beNat (l : List Nat) : Nat := l.foldl (fun a b => a * 256 + b % 256) 0

/-- The n bytes of x, most significant first, as byte values. -/
def beBytes (x : Nat) : Nat → List Nat
  | 0 => []
  | n + 1 => bits x (8 * n) 8 :: beBytes x n

/-- One step of the CRC-32 of IEEE 802.3 (reflected polynomial 0xEDB88320). -/
def crc32Bits (c : Nat) : Nat → Nat
  | 0 => c
  | k + 1 => crc32Bits (if c % 2 = 1 then (c / 2) ^^^ 0xEDB88320 else c / 2) k

/-- CRC-32 of IEEE 802.3 over byte values (R515, R223). -/
def crc32 (l : List Nat) : Nat :=
  (l.foldl (fun c b => crc32Bits (c ^^^ (b % 256)) 8) 0xFFFFFFFF) ^^^ 0xFFFFFFFF

/-- Apply f n times. -/
def iter {α : Type} (f : α → α) : Nat → α → α
  | 0, a => a
  | n + 1, a => iter f n (f a)

/-- Fold over 0, 1, …, n - 1 in ascending order. -/
def forUpto {α : Type} (f : Nat → α → α) : Nat → α → α
  | 0, a => a
  | n + 1, a => f n (forUpto f n a)

/-- The list 0, 1, …, n - 1. -/
def upto (n : Nat) : List Nat := List.range n

/-- A number put in its place in a rising list, once. -/
def insertNat (n : Nat) : List Nat → List Nat
  | [] => [n]
  | a :: r => if n < a then n :: a :: r else if n = a then a :: r else a :: insertNat n r

/-- A list of numbers in rising order, without repeats. -/
def sortNat (l : List Nat) : List Nat := l.foldl (fun acc n => insertNat n acc) []

/-- Replace element i of a list. -/
def setAt {α : Type} (l : List α) (i : Nat) (v : α) : List α := l.set i v

end Sys2Proof.Machine
end

