-- ==== Sys2Proof/Machine/Store.lean ====
section
/-!
DEFINITION. Sys2Proof/Machine/Store.lean: a sparse store, a list of (key, value) pairs with strictly rising keys in
which no value equals what an unlisted key reads as, so that equal stores are equal lists. Memory and the copies of the
object dictionary are such stores.
-/
namespace Sys2Proof.Machine

/-- The value at a key: the listed one, or the default of an unlisted key. -/
def Store.get {α : Type} (d : Nat → α) : List (Nat × α) → Nat → α
  | [], k => d k
  | (a, v) :: r, k => if a = k then v else Store.get d r k

/-- The store without a key. -/
def Store.erase {α : Type} (k : Nat) (m : List (Nat × α)) : List (Nat × α) :=
  m.filter (fun p => p.1 != k)

/-- The pair put before the first larger key. -/
def Store.insert {α : Type} (k : Nat) (v : α) : List (Nat × α) → List (Nat × α)
  | [] => [(k, v)]
  | (a, w) :: r => if k < a then (k, v) :: (a, w) :: r else (a, w) :: Store.insert k v r

/-- The store with a value at a key, in canonical form: writing the default removes the entry. -/
def Store.set {α : Type} [DecidableEq α] (d : Nat → α) (m : List (Nat × α)) (k : Nat) (v : α) : List (Nat × α) :=
  if v = d k then Store.erase k m else Store.insert k v (Store.erase k m)

/-- Every key of the list is greater than k. -/
def Store.above {α : Type} (k : Nat) (m : List (Nat × α)) : Bool := m.all (fun p => decide (k < p.1))

/-- The canonical form: keys strictly rising, no value equal to the default of its key. -/
def Store.wf {α : Type} [DecidableEq α] (d : Nat → α) : List (Nat × α) → Bool
  | [] => true
  | (a, v) :: r => (v != d a) && Store.above a r && Store.wf d r

/-- What a byte of memory that nothing has written reads as: 0 (DESIGN CHOICE, log entry 2: the spec gives no contents
after power-on). -/
def Memory.unlisted (_ : Nat) : Byte := 0#8

/-- One byte of memory. Log entry 2. -/
def Memory.get (m : List (Nat × Byte)) (a : Nat) : Byte := Store.get Memory.unlisted m a

/-- Memory with one byte written. Log entry 2. -/
def Memory.set (m : List (Nat × Byte)) (a : Nat) (b : Byte) : List (Nat × Byte) := Store.set Memory.unlisted m a b

/-- n bytes of memory from an address up. Log entry 2. -/
def Memory.read (m : List (Nat × Byte)) (a : Nat) : Nat → List Byte
  | 0 => []
  | n + 1 => Memory.get m a :: Memory.read m (a + 1) n

/-- Memory with a string of bytes written from an address up. -/
def Memory.write (m : List (Nat × Byte)) (a : Nat) : List Byte → List (Nat × Byte)
  | [] => m
  | b :: r => Memory.write (Memory.set m a b) (a + 1) r

/-- The canonical form of memory. -/
def Memory.wf (m : List (Nat × Byte)) : Bool := Store.wf Memory.unlisted m

end Sys2Proof.Machine
end

