-- ==== Sys2Proof/Machine/Ops.lean ====
section
/-!
DEFINITION. Sys2Proof/Machine/Ops.lean: the shared operations: memory, the object stores, counters, clamps, the event
log, notifications, interrupts, and how a command's work becomes an outcome.
-/
namespace Sys2Proof.Machine

/-! ### Device address map (Table 01.5) -/

/-- A region of Table 01.5: first address, last address. -/
structure Region where
  first : Nat
  last : Nat
  deriving DecidableEq, Repr

/-- The regions but the scratchpads: fast tier, slow tier, near memory of C0 and C1, staging of C0 and C1, host window.
For segments the two halves of a tier are one region. -/
def fixedRegions : List Region := [
  ⟨0x000000000000, 0x006BFFFFFFFF⟩,
  ⟨0x010000000000, 0x01E37FFFFFFF⟩,
  ⟨0x020000000000, 0x0203FFFFFFFF⟩,
  ⟨0x020400000000, 0x0207FFFFFFFF⟩,
  ⟨0x021000000000, 0x021003FFFFFF⟩,
  ⟨0x021004000000, 0x021007FFFFFF⟩,
  ⟨0x800000000000, 0xFFFFFFFFFFFF⟩]

/-- The mappable scratchpad of core n. -/
def scratchRegion (n : Nat) : Region :=
  ⟨0x022000000000 + n * 0x04000000, 0x022000000000 + n * 0x04000000 + 0x022FFFFF⟩

/-- Every region of Table 01.5 (R18). -/
def regions : List Region := fixedRegions ++ (upto 32).map scratchRegion

/-- The region that holds an address; a device address outside every region is unmapped (R18). -/
def regionOf (a : Nat) : Option Region :=
  regions.find? (fun r => decide (r.first ≤ a) && decide (a ≤ r.last))

/-- The bytes from a on all lie in one region. -/
def mapped (a n : Nat) : Bool :=
  match regionOf a with
  | some r => decide (a + n ≤ r.last + 1)
  | none => false

/-- The address lies in the host window (R20). -/
def isHost (a : Nat) : Bool := decide (0x800000000000 ≤ a)

/-- The die that holds an address: 0 C0, 1 C1, 2 IO0, 3 IO1; the host window is reached through IO0 (Table 01.1). -/
def dieOf (a : Nat) : Nat :=
  if a < 0x003600000000 then 0
  else if a < 0x010000000000 then 1
  else if a < 0x0171C0000000 then 2
  else if a < 0x020000000000 then 3
  else if a < 0x020400000000 then 0
  else if a < 0x021000000000 then 1
  else if a < 0x021004000000 then 0
  else if a < 0x022000000000 then 1
  else if a < 0x022040000000 then 0
  else if a < 0x800000000000 then 1
  else 2

/-! ### Memory -/

/-- A byte as the command sees it: its own writes first, newest first, then memory. -/
def Work.byte (w : Work) (a : Nat) : Byte :=
  match w.out.find? (fun x => decide (x.addr ≤ a) && decide (a < x.addr + x.data.length)) with
  | some x => x.data.getD (a - x.addr) 0#8
  | none => Memory.get w.mem a

/-- n bytes from an address up. -/
def Work.read (w : Work) (a n : Nat) : List Byte := (upto n).map (fun i => w.byte (a + i))

/-- n bytes from an address up as a little-endian number. -/
def Work.readNat (w : Work) (a n : Nat) : Nat := leNat (w.read a n)

/-- A write to memory. -/
def Work.write (a : Nat) (d : List Byte) (w : Work) : Work :=
  if d.isEmpty then w else { w with out := ⟨a, d⟩ :: w.out }

/-- A write of the n low bytes of a number, little-endian. -/
def Work.writeNat (a v n : Nat) (w : Work) : Work := w.write a (leBytes v n)

/-- The core whose mappable scratchpad holds an address, and the local offset there. -/
def scratchOf (a : Nat) : Option (Nat × Nat) :=
  if 0x022000000000 ≤ a ∧ a < 0x022080000000 then
    some ((a - 0x022000000000) / 0x04000000, (a - 0x022000000000) % 0x04000000)
  else none

/-- Tag blocks [lo, hi] of core n (R116). Log entry 55. -/
def Work.tagBlocks (n lo hi tag : Nat) (w : Work) : Work :=
  let t := forUpto (fun i t => Store.set (fun _ => 0) t (n * 65536 + lo + i) tag) (hi + 1 - lo) w.bob.tags
  { w with bob := { w.bob with tags := t } }

/-- A write of an engine for context x: bytes that it writes into a scratchpad through a device address carry the
context's tag (R116). -/
def Work.engWrite (x a : Nat) (d : List Byte) (w : Work) : Work :=
  let w := w.write a d
  match scratchOf a with
  | some (n, o) => if d.isEmpty then w else w.tagBlocks n (o / 4096) ((o + d.length - 1) / 4096) (1 + x)
  | none => w

/-- Memory after a list of writes, the first element last in the list. -/
def Memory.applyAll (m : List (Nat × Byte)) : List MemWrite → List (Nat × Byte)
  | [] => m
  | x :: r => Memory.write (Memory.applyAll m r) x.addr x.data

/-- The sector at an address is written whole by one of the writes. -/
def coversSector (out : List MemWrite) (a : Nat) : Bool :=
  out.any (fun x => decide (x.addr ≤ a) && decide (a + 32 ≤ x.addr + x.data.length))

/-- Errors stored in sectors that a whole-sector write replaces are gone (R277). -/
def Dev.heal (w : Dev) (out : List MemWrite) : Dev :=
  if w.ext.errs.isEmpty && w.ext.ue.isEmpty then w
  else { w with ext := { w.ext with
    errs := w.ext.errs.filter (fun e => !coversSector out e.1)
    ue := w.ext.ue.filter (fun a => !coversSector out a) } }

/-- The outcome of a command whose work is f: the device f leaves, memory with the writes of f in their order, the queue
unchanged. A write to an unmapped address faults (R18). -/
def State.run (f : Work → Work) (s : State) : Host.Outcome State Fault Refusal :=
  let w := f { toDev := { s.toDev with sent := [] }, mem := s.mem, out := [] }
  match w.out.find? (fun x => !mapped x.addr x.data.length) with
  | some x => .fault (.unmapped x.addr)
  | none => .next { toDev := w.toDev.heal w.out, mem := Memory.applyAll s.mem w.out, pending := s.pending }

/-! ### Identity (R572) -/

/-- SERIAL: never 0. Log entry 22. -/
def serialNum : Nat := 1 + Config.serial % (2 ^ 64 - 1)
/-- MAC_BASE: a universally administered unicast address whose bits [3:0] are 0. Log entry 22. -/
def macBaseNum : Nat := setBits (Config.macBase % 2 ^ 44 * 16) 40 2 0

/-! ### The object stores -/

/-- A row holds a number. -/
def ObjRow.holds (r : ObjRow) (n : Nat) : Bool :=
  Nat.ble r.base n && Nat.ble (n - r.base) ((r.c1 - 1) * r.s1 + (r.c2 - 1) * r.s2) &&
    (let d := n - r.base
     let i := if r.c1 ≤ 1 then 0 else d / r.s1
     let e := d - i * r.s1
     let j := if r.c2 ≤ 1 then 0 else e / r.s2
     decide (i < r.c1 ∨ i = 0) && decide (j < r.c2 ∨ j = 0) && decide (i * r.s1 + j * r.s2 = d))

/-- The table row of a number. -/
def objRow (n : Nat) : Option ObjRow := (objRowsOf (n / 0x100000)).find? (fun r => r.holds n)

/-- The Default column of a scalar object (R6). Log entry 9. -/
def objDefault (n : Nat) : Nat :=
  match objRow n with
  | some r => r.dflt
  | none => 0

/-- PART_NUMBER "OZ9640-A1" in ASCII (Table 18.11). -/
def partNumber : List Nat := [0x4F, 0x5A, 0x39, 0x36, 0x34, 0x30, 0x2D, 0x41, 0x31]

/-- The default byte of a BLOB, by key: 0 but for PART_NUMBER and for the Hoop records, whose fields UF_MON, FMT and HR
are 1, 0x2 and 4 by default (Table 07.2). Log entry 9. -/
def blobDefault (k : Nat) : Nat :=
  let n := k / 0x100000000
  let off := k % 0x100000000
  if 0x430000 ≤ n ∧ n ≤ 0x43F000 ∧ n % 0x1000 = 0 then
    (if off % 128 = 0 then 0x22 else if off % 128 = 1 then 0x04 else 0)
  else if n = 0x000001 then partNumber.getD off 0
  else 0

/-- The key of a byte of a BLOB. -/
def blobKey (n off : Nat) : Nat := n * 0x100000000 + off

/-- The value in force of a scalar object. -/
def Dev.get (w : Dev) (n : Nat) : Nat := Store.get objDefault w.obj n
/-- Its staged copy. -/
def Dev.getS (w : Dev) (n : Nat) : Nat := Store.get objDefault w.objS n
/-- Its pending copy. -/
def Dev.getP (w : Dev) (n : Nat) : Nat := Store.get objDefault w.objP n

/-- Write the value in force of a scalar object. -/
def Work.put (n v : Nat) (w : Work) : Work := { w with obj := Store.set objDefault w.obj n v }
/-- Write its staged copy. -/
def Work.putS (n v : Nat) (w : Work) : Work := { w with objS := Store.set objDefault w.objS n v }
/-- Write its pending copy. -/
def Work.putP (n v : Nat) (w : Work) : Work := { w with objP := Store.set objDefault w.objP n v }

/-- Which copy of a commit group (R497). -/
inductive Copy where
  | active
  | staged
  | pending
  deriving DecidableEq, Repr

/-- The bytes of a copy of the BLOBs. -/
def Dev.blobs (w : Dev) : Copy → List (Nat × Nat)
  | .active => w.blob
  | .staged => w.blobS
  | .pending => w.blobP

/-- len bytes of a BLOB as a little-endian number. -/
def Dev.blobNat (w : Dev) (c : Copy) (n off : Nat) : Nat → Nat
  | 0 => 0
  | k + 1 => Store.get blobDefault (w.blobs c) (blobKey n off) + 256 * Dev.blobNat w c n (off + 1) k

/-- Replace one copy of the BLOBs. -/
def Work.setBlobs (c : Copy) (m : List (Nat × Nat)) (w : Work) : Work :=
  match c with
  | .active => { w with blob := m }
  | .staged => { w with blobS := m }
  | .pending => { w with blobP := m }

/-- A store of BLOB bytes with len little-endian bytes of v written. -/
def blobWrite (m : List (Nat × Nat)) (n off v : Nat) : Nat → List (Nat × Nat)
  | 0 => m
  | k + 1 => blobWrite (Store.set blobDefault m (blobKey n off) (v % 256)) n (off + 1) (v / 256) k

/-- Write len bytes of a BLOB. -/
def Work.blobPut (c : Copy) (n off v len : Nat) (w : Work) : Work :=
  w.setBlobs c (blobWrite (w.blobs c) n off v len)

/-- The listed bytes of a BLOB in a store. -/
def blobOf (m : List (Nat × Nat)) (n : Nat) : List (Nat × Nat) :=
  m.filter (fun p => p.1 / 0x100000000 == n)

/-- One copy of a BLOB takes the bytes of another copy. -/
def Work.blobCopy (src dst : Copy) (n : Nat) (w : Work) : Work :=
  let keep := (w.blobs dst).filter (fun p => p.1 / 0x100000000 != n)
  w.setBlobs dst ((blobOf (w.blobs src) n).foldl (fun m p => Store.set blobDefault m p.1 p.2) keep)

/-- A scalar's pending copy takes the staged value. -/
def Work.stageToPend (n : Nat) (w : Work) : Work := w.putP n (w.getS n)
/-- A scalar's value in force takes the pending value. -/
def Work.pendToActive (n : Nat) (w : Work) : Work := w.put n (w.getP n)

/-- A commit group's staged set becomes pending (R497): its scalars and its BLOBs. -/
def Work.groupToPend (scalars blobs : List Nat) (w : Work) : Work :=
  blobs.foldl (fun w n => w.blobCopy .staged .pending n) (scalars.foldl (fun w n => w.stageToPend n) w)

/-- A commit group's pending set becomes the set in force (R497). -/
def Work.groupToActive (scalars blobs : List Nat) (w : Work) : Work :=
  blobs.foldl (fun w n => w.blobCopy .pending .active n) (scalars.foldl (fun w n => w.pendToActive n) w)

/-- A counter rises by k and holds at the largest U64 (R65). -/
def Work.bump (n k : Nat) (w : Work) : Work := w.put n (min (w.get n + k) (maxU 64))

/-- An uncorrectable read is counted, and its time kept for the health score (R442). -/
def Work.bumpUe (n : Nat) (w : Work) : Work :=
  let w := w.bump n 1
  { w with health := { w.health with ues := w.time :: w.health.ues.filter (fun t => decide (w.time < t + 3600000000000)) } }

/-- A 32-bit counter or maximum takes a larger value, holding at the largest U32. -/
def Work.raiseMax (n v : Nat) (w : Work) : Work := w.put n (max (w.get n) (min v (maxU 32)))

/-- Draw a free value (opaque, log entry 20). -/
def Work.freeDraw (w : Work) : Nat × Work := (Config.freeValue w.free, { w with free := w.free + 1 })

/-- n bytes that the spec leaves undefined. Log entries 20, 34, 51. -/
def Work.freeBytes (n : Nat) (w : Work) : List Byte × Work :=
  ((upto n).map (fun i => BitVec.ofNat 8 (Config.freeValue (w.free + i))), { w with free := w.free + n })

/-- Draw a number from the entropy source (R538). Log entry 25. -/
def Work.entropyDraw (w : Work) : Nat × Work := (Config.entropy w.free, { w with free := w.free + 1 })

/-- A new id. Log entry 4. -/
def Work.newId (w : Work) : Nat × Work := (w.nextId, { w with nextId := w.nextId + 1 })

/-- Put a message on a link or pin. Log entry 5. -/
def Work.send (m : OutMsg) (w : Work) : Work := { w with sent := w.sent ++ [m] }

/-! ### The event log (R515, R516) -/

/-- An event record as the number its 64 bytes hold, CHECK left 0. -/
def LogRec.body (r : LogRec) : Nat :=
  r.code + r.ctx * 2 ^ 16 + r.source * 2 ^ 32 + r.time * 2 ^ 64 + r.detail * 2 ^ 128 + r.inc * 2 ^ 160
    + r.seq * 2 ^ 192 + r.extra * 2 ^ 256

/-- The 64 bytes of an event record with its CHECK (Table 17.14). -/
def LogRec.bytes (r : LogRec) : List Nat :=
  let b := (leBytes r.body 60).map BitVec.toNat
  b ++ (leBytes (crc32 (b ++ [0, 0, 0, 0])) 4).map BitVec.toNat

/-- Elapsed device time since an instant; 0 when device time has stepped behind it. Log entry 6. -/
def Dev.since (w : Dev) (t : Nat) : Nat := w.time - t

/-- A rate limit: at least gap ns since the last record of this kind. -/
def Work.rateOk (key gap : Nat) (w : Work) : Bool :=
  match w.log.lastAt.find? (fun p => p.1 == key) with
  | some p => decide (gap ≤ w.since p.2)
  | none => true

/-- Note the time of a record of a rate-limited kind. -/
def Work.rateMark (key : Nat) (w : Work) : Work :=
  { w with log := { w.log with lastAt := (key, w.time) :: w.log.lastAt.filter (fun p => p.1 != key) } }

/-- Entry i of NOTIFY_DEST in force: address, port, enabled (Table 17.18). -/
def Dev.notifyDest (w : Dev) (i : Nat) : Nat × Nat × Bool :=
  let e := w.blobNat .active Obj.notifyDest (32 * i) 32
  (beNat ((leBytes (bits e 0 128) 16).map BitVec.toNat), bits e 128 16, bitOf e 144)

/-- The open session whose manager has an address, if any (R514). -/
def Dev.sessionAt (w : Dev) (addr : Nat) : Option HokSession := w.dict.sessions.find? (fun s => s.addr == addr)

/-- The management port is served: power and firmware stand, or the boot ROM in RECOVERY. -/
def Dev.mgmtUp (w : Dev) : Bool :=
  let b := w.get Obj.bootState
  !w.boot.held && !w.boot.vsbLost && !w.boot.testMode && decide (2 ≤ b) && b != 6 && b != 8

/-- The management port carries frames: served, on, and its link up (R504). -/
def Dev.mgmtLive (w : Dev) : Bool := w.mgmtUp && w.get Obj.mgmtEn == 1 && w.get Obj.mgmtLink == 1

/-- A frame leaves the management port, counted; a port that carries none sends nothing. Log entry 62. -/
def Work.mgmtSend (m : OutMsg) (w : Work) : Work := if w.mgmtLive then (w.bump Obj.mgmtTxFrames 1).send m else w

/-- The next hop towards an address on the management port (R505): itself on the link of MGMT_ADDR or on the link-local
prefix, otherwise MGMT_GW. Addresses are held most significant byte first. -/
def Dev.mgmtHop (w : Dev) (addr : Nat) : Nat :=
  let ip := fun n => beNat ((leBytes (w.blobNat .active n 0 16) 16).map BitVec.toNat)
  let own := ip Obj.mgmtAddr
  let k := 2 ^ (128 - min 128 (w.get Obj.mgmtPrefixLen))
  if addr / 2 ^ 118 = 0x3FA ∨ (own ≠ 0 ∧ addr / k = own / k) then addr else ip Obj.mgmtGw

/-- The 16 bytes of a Hokutia header (Table 17.7). -/
def hokHdr (type len sid seq : Nat) : List Nat :=
  beBytes (2 ^ 124 + type % 16 * 2 ^ 120 + len % 2 ^ 16 * 2 ^ 96 + sid % 2 ^ 32 * 2 ^ 64 + seq % 2 ^ 64) 16

/-- The bytes of a NOTIFY (R514): header, prefix, record, and the MAC of a session or the signature of the identity key. -/
def notifyBytes (ses : Option HokSession) (seq kind : Nat) (body : List Nat) : List Nat :=
  let auth := match ses with | some _ => 32 | none => 96
  let sid := match ses with | some s => s.sid | none => 0
  let m := hokHdr 5 (72 + auth) sid seq ++ kind :: [0, 0, 0, 0, 0, 0, 0] ++ body
  match ses with
  | some s => m ++ beBytes (Config.hmac s.kdm m) 32
  | none => m ++ beBytes (Config.ecdsaSign m) 96

/-- Put a notification on the wire: within the session of a manager at the destination's address, otherwise signed. -/
def Work.notifyTx (i seq kind : Nat) (body : List Nat) (w : Work) : Work :=
  let (addr, port, _) := w.notifyDest i
  w.mgmtSend (.notify (w.mgmtHop addr) addr port (notifyBytes (w.sessionAt addr) seq kind body))

/-- Send one notification to destination i (R514): within a session at most 1,000 a second, signed at most 100 a second,
otherwise it is dropped and counted; whether it was. -/
def Work.notifyOne (i kind : Nat) (body : List Nat) (w : Work) : Bool × Work :=
  let (addr, _, en) := w.notifyDest i
  if !en then (false, w) else
  let sec := w.time / 1000000000
  let ses := w.sessionAt addr
  let cur := w.log.notifRate.find? (fun r => r.1 == i && r.2.1 == sec)
  let cnt := match cur with | some r => r.2.2.1 | none => 0
  let sgn := match cur with | some r => r.2.2.2 | none => 0
  let room := match ses with | some _ => decide (cnt < 1000) | none => decide (sgn < 100)
  if room then
    let seq := 1 + (match w.log.notifSeq.find? (fun p => p.1 == i) with | some p => p.2 | none => 0)
    let rate := (i, sec, cnt + b2n ses.isSome, sgn + b2n ses.isNone)
    let lg := { w.log with
      notifSeq := (i, seq) :: w.log.notifSeq.filter (fun p => p.1 != i)
      notifRate := rate :: w.log.notifRate.filter (fun r => r.1 != i)
      notifs := w.log.notifs ++ [⟨i, seq, w.time, 0, kind, body⟩] }
    (false, { w with log := lg }.notifyTx i seq kind body)
  else (true, w.bump Obj.notifyLost 1)

/-- Notify every enabled destination; the last one whose notification was dropped. -/
def Work.notifyAll (kind : Nat) (body : List Nat) (w : Work) : Option Nat × Work :=
  forUpto (fun i p => match p.2.notifyOne i kind body with | (true, w) => (some i, w) | (false, w) => (p.1, w)) 4 (none, w)

/-- NOTIFY_LEVEL sends an event with this code (R514). -/
def notifies (level code : Nat) : Bool := decide (2 ≤ level) || (level == 1 && decide (0x10 ≤ code % 256))

/-- Write one record into the ring (R515): the next SEQ; past 524,288 records the oldest is overwritten. -/
def Work.logRec (code ctx source detail extra : Nat) (w : Work) : LogRec × Work :=
  let seq := w.get Obj.logNextSeq
  let r : LogRec := ⟨code, ctx, source, w.time, detail % 2 ^ 32, w.get Obj.incarnation, seq, extra⟩
  let oldest := max (w.get Obj.logOldestSeq) (seq + 1 - 524288)
  let recs := w.log.recs ++ [r]
  let w := { w with log := { w.log with recs := recs.drop (recs.length - 524288) } }
  (r, (w.put Obj.logNextSeq (seq + 1)).put Obj.logOldestSeq oldest)

/-- The records the log unit's bucket holds now: 4,000,000 records a second drain, a burst of 4,096 (R516). -/
def Dev.logRoom (w : Dev) : Nat := 4096 - (w.log.fill - (w.time / 250 - w.log.fillAt))

/-- Hand a record to the log unit: written while it has room and notified by its level, otherwise dropped and counted
(R516, R514). A notification that is dropped is itself logged, at most once a second: the first argument bounds how often
one record calls for another. -/
def Work.logUnit : Nat → Nat → Nat → Nat → Nat → Nat → Work → Work
  | 0, _, _, _, _, _, w => w
  | n + 1, code, ctx, source, detail, extra, w =>
    if 0 < w.logRoom then
      let fill := 4096 - w.logRoom + 1
      let w := { w with log := { w.log with fill := fill, fillAt := w.time / 250 } }
      let (r, w) := w.logRec code ctx source detail extra
      if notifies (w.get Obj.notifyLevel) code then
        match w.notifyAll 1 r.bytes with
        | (some i, w) => if w.rateOk 0x106 1000000000 then (w.rateMark 0x106).logUnit n 0x0106 31 0xB000 i 0 else w
        | (none, w) => w
      else w
    else
      let w := { w with log := { w.log with lost := w.log.lost + 1 } }
      w.bump Obj.logDropped 1

/-- A record with EXTRA. -/
def Work.log1 (code ctx source detail extra : Nat) (w : Work) : Work := w.logUnit 3 code ctx source detail extra

/-- A record without EXTRA. -/
def Work.event (code ctx source detail : Nat) (w : Work) : Work := w.log1 code ctx source detail 0

/-- A record at most once per gap ns of its key. -/
def Work.eventLimited (key gap code ctx source detail : Nat) (w : Work) : Work :=
  if w.rateOk key gap then (w.rateMark key).event code ctx source detail else w

/-- The 16 bytes of an IPv6 address, most significant first, as the little-endian field that holds them. -/
def ipField (a : Nat) : Nat := leNat ((beBytes a 16).map (BitVec.ofNat 8))

/-- A Hokutia session ends (R512): HOK_CLOSED with its reason. -/
def Work.hokClosed (s : HokSession) (reason : Nat) (w : Work) : Work :=
  let w := { w with dict := { w.dict with sessions := w.dict.sessions.filter (fun q => q.s != s.s) } }
  w.log1 0x0104 31 (0xB000 + s.s) (s.s * 2 ^ 24 + reason) (ipField s.addr)

/-- NOTIFY_LOST for destination i, at most once a second (R514). Log entry 60. -/
def Work.notifyLostEvent (i : Nat) (w : Work) : Work := w.eventLimited 0x106 1000000000 0x0106 31 0xB000 i

/-- Notify every enabled destination of a record. -/
def Work.notify (kind : Nat) (body : List Nat) (w : Work) : Work :=
  match w.notifyAll kind body with
  | (some i, w) => w.notifyLostEvent i
  | (none, w) => w

/-! ### Writers, reach and clamps (R494, R496) -/

/-- SOURCE of an object operation (R496). -/
def wrSource : Writer → Nat
  | .fn _ => 0xBFFF
  | .hok s => 0xB000 + s.val
  | .fw => 0

/-- CONTEXT of an object operation (R496). -/
def wrCtx : Writer → Nat
  | .fn c => c.val
  | .hok _ => 31
  | .fw => 31

/-- Writer kind and number of Table 17.16: firmware, BAR2 window, Hokutia. -/
def wrKind : Writer → Nat × Nat
  | .fn c => (1, c.val)
  | .hok s => (2, s.val)
  | .fw => (0, 0)

/-- Who may write an object (R494): the physical function and Hokutia always; the function of its context; the function
of a privileged context, where the owning chapter does not reserve the object. -/
inductive Reach where
  /-- An object of context x that x's own function may write. -/
  | own (x : Nat)
  /-- An object of context x reserved to the physical function, privileged contexts and Hokutia. -/
  | privCtx (x : Nat)
  /-- An object without a context that its chapter opens to privileged contexts. -/
  | priv
  /-- Reserved to the physical function and Hokutia. -/
  | host
  /-- Any function's or session's own copy (R518). -/
  | any
  deriving DecidableEq, Repr

/-- Context c is privileged now. -/
def Dev.isPriv (w : Dev) (c : Nat) : Bool := c == 0 || bits (w.get (Obj.priv c)) 0 1 == 1

/-- R494, R31, R74, R75: the writer reaches the object. -/
def Dev.reaches (w : Dev) (wr : Writer) (r : Reach) : Bool :=
  match wr with
  | .fw => true
  | .hok _ => true
  | .fn c =>
    c.val == 0 ||
    (match r with
     | .own x => x == c.val || w.isPriv c.val
     | .privCtx _ => w.isPriv c.val
     | .priv => w.isPriv c.val
     | .host => false
     | .any => true)

/-- A write outside the writer's reach: counted and logged (R76, Table 03.16). -/
def Work.deny (wr : Writer) (num : Nat) (w : Work) : Work :=
  (w.bump Obj.accessDeniedCount 1).event 0x0230 (wrCtx wr) (wrSource wr) num

/-- A rule changed a value (R496): CLAMP_COUNT, CLAMP_LAST, and OBJECT_CLAMPED at most once per object per 100 ms. Log entry 59. -/
def Work.clamped (wr : Writer) (num written held off : Nat) (w : Work) : Work :=
  let w := w.bump Obj.clampCount 1
  let last := num + (wrSource wr) * 2 ^ 32 + (wrCtx wr) * 2 ^ 48 + (written % 2 ^ 64) * 2 ^ 64 + (held % 2 ^ 64) * 2 ^ 128
    + (w.time % 2 ^ 64) * 2 ^ 192 + (off % 2 ^ 32) * 2 ^ 256
  let w := w.blobPut .active Obj.clampLast 0 last 40
  let key := 0x1000000 + num
  if w.rateOk key 100000000 then
    let (k, i) := wrKind wr
    let extra := num + k * 2 ^ 32 + i * 2 ^ 40 + (written % 2 ^ 64) * 2 ^ 64 + (held % 2 ^ 64) * 2 ^ 128
      + (off % 2 ^ 32) * 2 ^ 192
    (w.rateMark key).log1 0x0101 (wrCtx wr) (wrSource wr) num extra
  else w

/-- Clamp a value by a rule and count it when the rule changes it. -/
def Work.clampTo (wr : Writer) (num written held : Nat) (w : Work) : Work :=
  if written = held then w else w.clamped wr num written held 0

/-- A write of a value that is clamped to no action (R498): counted. The value held is 0, what a read returns. -/
def Work.noAction (wr : Writer) (num written : Nat) (w : Work) : Work := w.clamped wr num written (w.get num) 0

/-- A write of 1 to a commit object (R497, R498): the staged set becomes pending and the object reads 1; while it reads 1
already, the write is clamped to no action. -/
def Work.commitReq (wr : Writer) (num : Nat) (scalars blobs : List Nat) (w : Work) : Work :=
  if w.get num = 1 then w.noAction wr num 1 else (w.groupToPend scalars blobs).put num 1

/-- The die of an engine instance of Table 15.2: 0 C0, 1 C1, 2 IO0, 3 IO1; the context control unit counts with IO1 (log
entry 65). Log entry 65. -/
def engDie (e : Nat) : Nat :=
  if e < 4 then e else if e < 6 then e - 4 else if e < 8 then e - 4 else if e < 10 then e - 6 else if e < 12 then e - 10 else 3

/-- Engine instance e is in reset: its own, its die's or the device's. Log entry 65. -/
def Dev.instReset (w : Dev) (e : Nat) : Bool :=
  w.rst.runs.any (fun r => (r.dom == 1 && r.target == e) || (r.dom == 4 && r.target == engDie e) || r.dom == 5)

/-- READY with the main rails on: BAR accesses take effect (R531). -/
def Dev.ready (w : Dev) : Bool := w.get Obj.bootState == 5 && w.boot.rails

/-- A host access that takes no effect: counted while configuration requests complete (R531), unseen while the port is
down. Log entry 8. -/
def Work.hostDrop (w : Work) : Work :=
  let b := w.get Obj.bootState
  if w.boot.rails && (b == 3 || b == 4 || b == 6) then w.bump Obj.hostResetDrops 1 else w

/-- In RECOVERY the object window serves areas 0 and D only, to the physical function (Table 18.5). Log entry 59. -/
def recoveryArea (num : Nat) : Bool := num / 0x100000 == 0 || num / 0x100000 == 0xD

/-- The object engine serves this writer for an object of this number. Log entries 3, 59. -/
def Dev.serves (w : Dev) (wr : Writer) (num : Nat) : Bool :=
  match wr with
  | .fn c => w.ready || (w.get Obj.bootState == 7 && c.val == 0 && recoveryArea num)
  | .hok s => w.mgmtUp && w.dict.sessions.any (fun q => q.s == s.val) && (w.get Obj.bootState != 7 || recoveryArea num)
  | .fw => true

/-- An object write through its gate: a write by a function outside READY is dropped and counted (R531), one by a session
that is not open has no effect; a write outside the writer's reach is denied (R494); otherwise the action runs. Log entries 3, 5. -/
def Work.gated (wr : Writer) (r : Reach) (num : Nat) (act : Work → Work) (w : Work) : Work :=
  if w.serves wr num then (if w.reaches wr r then act w else w.deny wr num)
  else match wr with
    | .fn _ => w.hostDrop
    | _ => w

/-! ### PCIe functions and interrupts -/

/-- The PCIe function of a context is enabled: the physical function always, virtual function c under NumVFs (R77). -/
def Dev.fnEnabled (w : Dev) (c : Nat) : Bool := c == 0 || decide (c ≤ w.get Obj.numVfs)

/-- A context's host-window accesses leave the device (R77, R529). -/
def Dev.hostOpen (w : Dev) (c : Nat) : Bool := w.fnEnabled c && w.pcie.busMaster.contains c

/-- Raise vector v of context c (R109): on its virtual function when that and its MSI-X are enabled, otherwise on vector
6c + v of the physical function. -/
def Work.raise (c v : Nat) (w : Work) : Work :=
  if 0 < c ∧ w.fnEnabled c = true ∧ w.pcie.msix.contains c = true then w.send (.msix c v)
  else if w.pcie.msix.contains 0 then w.send (.msix 0 (6 * c + v))
  else w

/-- A word of selvedge queue `inst` failed parity (R479): counted, the last one kept, logged at most once per instance
per 100 ms. -/
def Work.xqParity (inst : Nat) (w : Work) : Work :=
  let w := w.bump Obj.xqParityCount 1
  let w := w.blobPut .active Obj.xqParityLast 0 (inst % 2 ^ 16 + w.time % 2 ^ 64 * 2 ^ 64) 16
  w.eventLimited (0x2000000 + inst) 100000000 0x0B01 31 0x8000 inst

/-- Raise the device vector (R525). -/
def Work.raiseDevice (w : Work) : Work := if w.pcie.msix.contains 0 then w.send (.msix 0 96) else w

end Sys2Proof.Machine
end

