-- ==== Sys2Proof/Machine/Access.lean ====
section
/-!
DEFINITION. Sys2Proof/Machine/Access.lean: segment tables: their descriptors, the corrections of R30, translation (R27),
whole-range checks (R28) and the reach of the host window (R77, R529).
-/
namespace Sys2Proof.Machine

/-! ### Reserved areas of near memory -/

/-- Bytes of the metro carve-out at the top of compute die d's near memory: METRO_BUF_MIB of each enabled metro port of
the paired I/O die, from the port objects in force (R22). -/
def Dev.carveBytes (w : Dev) (d : Nat) : Nat :=
  ((upto 4).map (fun i =>
    let p := 4 * d + i
    if w.get (Obj.portEn p) = 1 ∧ w.get (Obj.portClass p) = 2 then w.get (Obj.metroBufMib p) * 1048576 else 0)).sum

/-- First address of compute die d's near memory. -/
def nearBase (d : Nat) : Nat := 0x020000000000 + d * 0x000400000000

/-- The part of compute die d's near memory that segments may map (Table 08.3). -/
def Dev.nearMappable (w : Dev) (d : Nat) : Region :=
  ⟨nearBase d + 0x28000000, nearBase d + 0x3FFFFFFFF - w.carveBytes d⟩

/-- The mappable region that holds an address; none outside every region or in a reserved area (R30 rule 1). -/
def Dev.mapRegion (w : Dev) (a : Nat) : Option Region :=
  match regionOf a with
  | some r =>
    if r.first = nearBase 0 ∨ r.first = nearBase 1 then
      let m := w.nearMappable (if r.first = nearBase 0 then 0 else 1)
      if m.first ≤ a ∧ a ≤ m.last then some m else none
    else some r
  | none => none

/-! ### Segment descriptors (Table 01.6) -/

/-- VALID. -/
def segValid (d : Nat) : Bool := bitOf d 0
/-- RD. -/
def segRd (d : Nat) : Bool := bitOf d 1
/-- WR. -/
def segWr (d : Nat) : Bool := bitOf d 2
/-- PAT. -/
def segPat (d : Nat) : Bool := bitOf d 3
/-- SHR. -/
def segShr (d : Nat) : Bool := bitOf d 4
/-- BASE, in blocks of 4 KiB. -/
def segBase (d : Nat) : Nat := bits d 12 36
/-- LIMIT, in blocks of 4 KiB. -/
def segLimit (d : Nat) : Nat := bits d 76 36

/-- A descriptor without its reserved bits (R5). -/
def segKeep (d : Nat) : Nat := bits d 0 5 + segBase d * 2 ^ 12 + segLimit d * 2 ^ 76

/-- Rules 1 to 5 of R30, each as the descriptor it leaves. -/
def Dev.segRules (w : Dev) (priv : Bool) : List (Nat → Nat) := [
  fun d => if (w.mapRegion (segBase d * 4096)).isNone then setBits d 0 1 0 else d,
  fun d => if segLimit d < segBase d then setBits d 76 36 (segBase d) else d,
  fun d => match w.mapRegion (segBase d * 4096) with
    | some r => if r.last / 4096 < segLimit d then setBits d 76 36 (r.last / 4096) else d
    | none => d,
  fun d => if segBase d + 0x3FFFFFFF < segLimit d then setBits d 76 36 (segBase d + 0x3FFFFFFF) else d,
  fun d => if segShr d && !priv then setBits d 2 1 0 else d]

/-- Count one correction of a descriptor at byte offset off of a BLOB: CLAMP_LAST holds the 8-byte unit of the lowest
byte changed (R496). -/
def Work.descClamped (wr : Writer) (num off before after : Nat) (w : Work) : Work :=
  if before = after then w
  else if bits before 0 64 = bits after 0 64 then
    w.clamped wr num (bits before 64 64) (bits after 64 64) (off + 8)
  else w.clamped wr num (bits before 0 64) (bits after 0 64) off

/-- Apply correction rules in order to the descriptor at an offset of one copy of a BLOB, counting each that changes
it. -/
def Work.correctDesc (wr : Writer) (c : Copy) (num off : Nat) (rules : List (Nat → Nat)) (w : Work) : Work :=
  rules.foldl (fun w f =>
    let d := w.blobNat c num off 16
    let d' := f d
    if d = d' then w else (w.blobPut c num off d' 16).descClamped wr num off d d') w

/-- Rule 5 of R30 over every descriptor of one copy of a context's table. -/
def Work.correctShared (wr : Writer) (c : Copy) (x : Nat) (w : Work) : Work :=
  forUpto (fun i w => w.correctDesc wr c (Obj.segTable x) (16 * i) ((w.segRules (w.isPriv x)).drop 4)) 64 w

/-- One copy of a context's segment table: index and descriptor, descriptors of 0 left out. A table of which no byte is listed
reads as zeros. -/
def Dev.segTable (w : Dev) (c : Copy) (x : Nat) : List (Nat × Nat) :=
  if (blobOf (w.blobs c) (Obj.segTable x)).isEmpty then [] else
  ((upto 64).map (fun i => (i, w.blobNat c (Obj.segTable x) (16 * i) 16))).filter (fun p => p.2 != 0)

/-- A spill or fill of context x is in progress (R296), or the arena holds it (R419). -/
def Dev.spilling (w : Dev) (x : Nat) : Bool :=
  w.ext.spills.any (fun s => s.ctx == x) || w.arena.grows.any (fun g => match g.hold with | some h => h.1 == x | none => false)
    || w.pair.restores.any (fun r => r.ctx == x)

/-- The table an engine of context x uses at its next command boundary: a pending commit's table (R32), which a spill in
progress holds back (R297). -/
def Dev.segNow (w : Dev) (x : Nat) : List (Nat × Nat) :=
  w.segTable (if w.get (Obj.segCommit x) = 1 ∧ w.spilling x = false then .pending else .active) x

/-! ### Translation -/

/-- Kinds of access (R27). -/
inductive Access where
  | read
  | write
  | pattern
  deriving DecidableEq, Repr

/-- A translation: the device address, or the status and DETAIL of its failure. -/
abbrev Trans := Except (Nat × Nat) Nat

/-- R27: the first failing condition in the order of the pseudocode. Bits 112 and 113 are reserved in a table; in the
table an engine holds the model marks in them a MODEL_SEG descriptor without a bound part (R405) and an ARENA_SEG
descriptor (R416). -/
def translate (segs : List (Nat × Nat)) (addr size : Nat) (kind : Access) : Trans :=
  let i := bits addr 42 6
  let d := Store.get (fun _ => 0) segs i
  let first := segBase d * 4096 + bits addr 0 42
  if !segValid d then .error (0x0212, i)
  else if bitOf d 112 then .error (0x0811, i)
  else if kind = .read ∧ segRd d = false then .error (0x0213, i)
  else if kind = .write ∧ segWr d = false then .error (0x0213, i)
  else if kind = .pattern ∧ segPat d = false then .error (0x0213, i)
  else if segLimit d * 4096 + 0xFFF < first + size - 1 then .error (0x0214, i)
  else .ok first

/-- Every arena block that a range touches belongs to context x (R416). -/
def Dev.arenaOwns (w : Dev) (x a size : Nat) : Bool :=
  let base := w.get Obj.arenaBase
  let lo := (a - base) / 65536
  let hi := (a + size - 1 - base) / 65536
  (upto (hi - lo + 1)).all (fun i => w.arena.blocks.any (fun k => k.b == lo + i && k.ctx == x))

/-- A descriptor with BASE and LIMIT replaced by a range of device addresses. -/
def segRange (d base len : Nat) : Nat :=
  setBits (setBits d 12 36 (base / 4096)) 76 36 ((base + len - 1) / 4096)

/-- A table with the descriptor at index i changed, when i is a segment index. -/
def segChange (segs : List (Nat × Nat)) (i : Nat) (f : Nat → Nat) : List (Nat × Nat) :=
  if i < 64 then segs.map (fun p => if p.1 = i then (p.1, f p.2) else p) else segs

/-- The table as a bound access sees it: MODEL_SEG descriptors take the parts of the image bound, ADD_SEG the addition
bound, ARENA_SEG the arena; WR is treated as 0 in the first two (R405, R414, R416). -/
def Dev.bindSegs (w : Dev) (x : Nat) (slot add : Option Nat) (segs : List (Nat × Nat)) : List (Nat × Nat) :=
  let segs := if w.get (Obj.modelBind x) = 1 then
      (upto 4).foldl (fun t p => segChange t (w.get (Obj.modelSegP x p)) (fun d =>
        let d := setBits d 2 1 0
        match slot with
        | some s =>
          let len := w.get (Obj.partLenP s p)
          if len = 0 then setBits d 112 1 1 else segRange d (w.get (Obj.partBaseP s p)) len
        | none => setBits d 112 1 1)) segs
    else segs
  let segs := match add with
    | some a =>
      let base := w.get (if a = 0 then Obj.addBaseA x else Obj.addBaseB x)
      let len := w.get (if a = 0 then Obj.addLenA x else Obj.addLenB x)
      segChange segs (w.get (Obj.addSeg x)) (fun d =>
        if len = 0 then setBits (setBits d 2 1 0) 112 1 1 else segRange (setBits d 2 1 0) base len)
    | none => segs
  segChange segs (w.get (Obj.arenaSeg x)) (fun d =>
    if w.get Obj.arenaLen = 0 then setBits d 112 1 1
    else setBits (segRange d (w.get Obj.arenaBase) (w.get Obj.arenaLen)) 113 1 1)

/-- The external half that holds an address, as tier (1 fast, 2 slow) and half. -/
def extHalf (a : Nat) : Option (Nat × Nat) :=
  if a < 0x003600000000 then some (1, 0)
  else if a < 0x006C00000000 then some (1, 1)
  else if a < 0x010000000000 then none
  else if a < 0x0171C0000000 then some (2, 0)
  else if a < 0x01E380000000 then some (2, 1)
  else none

/-- The half is ONLINE: bits 0 and 1 of HALF_ONLINE for the fast tier, 2 and 3 for the slow (Table 09.11). -/
def Dev.halfUp (w : Dev) (t h : Nat) : Bool := bitOf (w.get Obj.halfOnline) (2 * (t - 1) + h)

/-- Translation of a context's access; an access to the host window through a function that is not enabled or has no Bus
Master Enable ends with HOST_WINDOW_DISABLED (R77, R529), one to an OFFLINE half with TIER_OFFLINE (R268). -/
def Dev.xlate (w : Dev) (x : Nat) (segs : List (Nat × Nat)) (addr size : Nat) (kind : Access) : Trans :=
  match translate segs addr size kind with
  | .ok a =>
    let i := bits addr 42 6
    if bitOf (Store.get (fun _ => 0) segs i) 113 && !w.arenaOwns x a size then .error (0x0213, i)
    else if isHost a && !w.hostOpen x then .error (0x0216, 0)
    else match extHalf a with
      | some (t, h) => if w.halfUp t h then .ok a else .error (0x0512, (t - 1) * 2 ^ 31 + h)
      | none => .ok a
  | .error e => .error e

/-- The die a context's home die object names, in force. -/
def Dev.homeDie (w : Dev) (x : Nat) : Nat := w.get (Obj.homeDie x)

/-- A context's class in force: 0 LC, 1 BE. -/
def Dev.ctxClass (w : Dev) (x : Nat) : Nat := w.get (Obj.ctxClass x)

end Sys2Proof.Machine
end

