-- ==== Sys2Proof/Machine/Credits.lean ====
section
/-!
DEFINITION. Sys2Proof/Machine/Credits.lean: fill credits of the prefetch buffers (R242 to R244): which chunks issue, when
a fill passes its release wait, what an arriving sector does to the credits.
-/
namespace Sys2Proof.Machine

/-- Credits of buffer b as defined now: PB_NSLOT × PB_SLOT_KIB / 4 (R242). -/
def Dev.pbCredits (w : Dev) (b : Nat) : Nat := w.get (Obj.pbNslot b) * w.get (Obj.pbSlotKib b) / 4

/-- Bytes of one slot of buffer b. -/
def Dev.pbSlotBytes (w : Dev) (b : Nat) : Nat := w.get (Obj.pbSlotKib b) * 1024

/-- Counter n of context x. -/
def Dev.evt (w : Dev) (x n : Nat) : Nat := w.blobNat .active (Obj.events x) (8 * n) 8

/-- The release condition of fill n of buffer b owned by c: a signed 64-bit difference (R244). -/
def Dev.pbReleased (w : Dev) (b c n : Nat) : Bool :=
  let ev := w.evt c (w.get (Obj.pbRelEvt b))
  let diff := signedOf 64 (ev + 2 ^ 64 - w.get (Obj.pbRelBase b) % 2 ^ 64)
  decide ((n : Int) - (w.get (Obj.pbNslot b) : Int) + 1 ≤ diff)

/-- Replace the fills of Bobbin. -/
def Work.setFills (l : List Fill) (w : Work) : Work := { w with bob := { w.bob with fills := l } }

/-- Change the fill with an id. -/
def Work.mapFill (id : Nat) (f : Fill → Fill) (w : Work) : Work :=
  w.setFills (w.bob.fills.map (fun g => if g.id = id then f g else g))

/-- The fill with an id. -/
def Dev.fill? (w : Dev) (id : Nat) : Option Fill := w.bob.fills.find? (fun f => f.id == id)

/-- Mark chunk i of a fill issued. -/
def Fill.issueChunk (f : Fill) (i : Nat) : Fill :=
  match f.chunks[i]? with
  | some c => { f with chunks := setAt f.chunks i { c with issued := true } }
  | none => f

/-- The first chunk of a fill not yet issued. -/
def Fill.nextChunk (f : Fill) : Option Nat := f.chunks.findIdx? (fun c => !c.issued)

/-- Issue the chunks of one fill while its buffer has free credits (R244); at most k of them. -/
def Work.issueFill (id : Nat) : Nat → Work → Work
  | 0, w => w
  | k + 1, w =>
    match w.fill? id with
    | some f =>
      match f.buf, f.nextChunk with
      | some b, some i =>
        if f.passed && !f.stopped && decide (0 < w.get (Obj.pbCreditsFree b)) then
          let w := w.put (Obj.pbCreditsFree b) (w.get (Obj.pbCreditsFree b) - 1)
          Work.issueFill id k (w.mapFill id (fun g => g.issueChunk i))
        else w
      | _, _ => w
    | none => w

/-- Issue what free credits allow for every fill of buffer b, in start order. -/
def Work.issueBuffer (b : Nat) (w : Work) : Work :=
  w.bob.fills.foldl (fun w f => if f.buf = some b then w.issueFill f.id f.chunks.length else w) w

/-- The credits that landed data of fill n of buffer b holds return to the buffer. -/
def Work.freeHeld (b n : Nat) (w : Work) : Work :=
  let mine := w.bob.held.filter (fun h => h.1 == b && h.2.1 == n)
  let c := (mine.map (fun h => h.2.2)).sum
  let w := { w with bob := { w.bob with held := w.bob.held.filter (fun h => !(h.1 == b && h.2.1 == n)) } }
  w.put (Obj.pbCreditsFree b) (w.get (Obj.pbCreditsFree b) + c)

/-- PREFETCH_RELEASE_PASS (R244): a waiting fill whose release condition holds passes its wait; the credits of the
slot's previous fill return and its chunks issue. PB_WAIT_NS counts the wait (R245). -/
def Work.passFill (id : Nat) (w : Work) : Work :=
  match w.fill? id with
  | some f =>
    match f.buf with
    | some b =>
      if !f.passed && !f.stopped && w.pbReleased b f.ctx f.n then
        let w := w.bump (Obj.pbWaitNs b) (w.since f.since)
        let w := w.mapFill id (fun g => { g with passed := true })
        let ns := w.get (Obj.pbNslot b)
        let w := if ns ≤ f.n then w.freeHeld b (f.n - ns) else w
        w.issueBuffer b
      else w
    | none => w
  | none => w

/-- Every waiting fill of context x's buffers is looked at after an update of one of its counters. -/
def Work.passFills (x : Nat) (w : Work) : Work :=
  w.bob.fills.foldl (fun w f => if f.ctx = x then w.passFill f.id else w) w

end Sys2Proof.Machine
end

