-- ==== Sys2Proof/Machine/Operands.lean ====
section
/-!
DEFINITION. Sys2Proof/Machine/Operands.lean: the fields of the 64-byte commands and of the descriptors they name, by the
field maps of chapter 03 (bit n of a command or descriptor is bit n of the number). Reserved bits are never read (R5).
-/
namespace Sys2Proof.Machine

/-! ### Command header (Table 03.7) -/

/-- OPCODE. -/
def cOpcode (r : Nat) : Nat := bits r 0 8
/-- FENCE: start only when no earlier command of this queue is in flight. -/
def cFence (r : Nat) : Bool := bitOf r 8
/-- WAIT: start only when event WEVT ≥ WVAL. -/
def cWait (r : Nat) : Bool := bitOf r 9
/-- SIGNAL: add 1 to event SEVT at completion. -/
def cSignal (r : Nat) : Bool := bitOf r 10
/-- CR: post a command record at completion. -/
def cCr (r : Nat) : Bool := bitOf r 11
/-- IRQ: raise the queue's vector with the command record. -/
def cIrq (r : Nat) : Bool := bitOf r 12
/-- NPB: non-preemptible bound in µs. -/
def cNpb (r : Nat) : Nat := bits r 16 4
/-- SEVT. -/
def cSevt (r : Nat) : Nat := bits r 24 8
/-- WEVT. -/
def cWevt (r : Nat) : Nat := bits r 32 8
/-- WVAL. -/
def cWval (r : Nat) : Nat := bits r 64 64

/-! ### Pattern descriptor (Table 03.5) -/

/-- PADDR as a context address. -/
def pPaddr (d : Nat) : Nat := bits d 6 42 * 64
/-- NCMD. -/
def pNcmd (d : Nat) : Nat := bits d 48 16
/-- TAG. -/
def pTag (d : Nat) : Nat := bits d 64 16
/-- REQ. -/
def pReq (d : Nat) : Bool := bitOf d 80
/-- PIRQ. -/
def pPirq (d : Nat) : Bool := bitOf d 81
/-- DEADLINE. -/
def pDeadline (d : Nat) : Nat := bits d 96 32

/-! ### TILE_LAUNCH (Table 03.9) -/

/-- TDESC as a context address. -/
def tlTdesc (r : Nat) : Nat := bits r 134 42 * 64
/-- TDSIZE. -/
def tlTdsize (r : Nat) : Nat := bits r 176 16
/-- TCOUNT. -/
def tlTcount (r : Nat) : Nat := bits r 192 32
/-- TILE_ID_BASE. -/
def tlIdBase (r : Nat) : Nat := bits r 224 32
/-- DEFER. -/
def tlDefer (r : Nat) : Bool := bitOf r 256

/-! ### COPY, PREFETCH, CANCEL (Table 03.10) -/

/-- SRC. -/
def bSrc (r : Nat) : Nat := bits r 128 48
/-- DST. -/
def bDst (r : Nat) : Nat := bits r 176 48
/-- SSCALE. -/
def bSscale (r : Nat) : Nat := bits r 224 48
/-- DSCALE. -/
def bDscale (r : Nat) : Nat := bits r 272 48
/-- CONV. -/
def bConv (r : Nat) : Nat := bits r 320 32
/-- COUNT. -/
def bCount (r : Nat) : Nat := bits r 352 32
/-- ROWS. -/
def bRows (r : Nat) : Nat := bits r 384 16
/-- SSTRIDE. -/
def bSstride (r : Nat) : Nat := bits r 400 32
/-- DSTRIDE. -/
def bDstride (r : Nat) : Nat := bits r 432 32
/-- PBUF. -/
def bPbuf (r : Nat) : Nat := bits r 464 8

/-! ### GATHER and SCATTER_ADD (Table 03.10b) -/

/-- IDX. -/
def gIdx (r : Nat) : Nat := bits r 128 48
/-- TABLE. -/
def gTable (r : Nat) : Nat := bits r 176 48
/-- OUT. -/
def gOut (r : Nat) : Nat := bits r 224 48
/-- NIDX. -/
def gNidx (r : Nat) : Nat := bits r 272 32
/-- NROWS. -/
def gNrows (r : Nat) : Nat := bits r 304 40
/-- ROWLEN. -/
def gRowlen (r : Nat) : Nat := bits r 344 16
/-- CONV. -/
def gConv (r : Nat) : Nat := bits r 360 32
/-- POOL. -/
def gPool (r : Nat) : Nat := bits r 392 2
/-- IDX64. -/
def gIdx64 (r : Nat) : Bool := bitOf r 394
/-- GROUP. -/
def gGroup (r : Nat) : Nat := bits r 396 16

/-! ### COLL (Table 03.10c) -/

/-- CDESC as a context address. -/
def lCdesc (r : Nat) : Nat := bits r 134 42 * 64
/-- OP. -/
def lOp (r : Nat) : Nat := bits r 176 4
/-- GROUP. -/
def lGroup (r : Nat) : Nat := bits r 184 16
/-- SEQ. -/
def lSeq (r : Nat) : Nat := bits r 200 32

/-! ### Control commands (Table 03.11) -/

/-- EVT of EVT_SIGNAL and EVT_WAIT. -/
def kEvt (r : Nat) : Nat := bits r 128 8
/-- MODE of EVT_SIGNAL. -/
def kMode (r : Nat) : Bool := bitOf r 136
/-- VALUE of EVT_SIGNAL, EVT_WAIT, WRITE_IMM and STEP_MARK; TIME of TIMER_ARM. -/
def kValue (r : Nat) : Nat := bits r 192 64
/-- TIMEOUT of EVT_WAIT, in µs. -/
def kTimeout (r : Nat) : Nat := bits r 160 32
/-- QMASK of FENCE. -/
def kQmask (r : Nat) : Nat := bits r 128 4
/-- TIMER of TIMER_ARM. -/
def kTimer (r : Nat) : Nat := bits r 128 3
/-- MODE of TIMER_ARM. -/
def kTmode (r : Nat) : Nat := bits r 132 2
/-- EVT of TIMER_ARM. -/
def kTevt (r : Nat) : Nat := bits r 136 8
/-- ADDR of WRITE_IMM as a context address. -/
def kAddr (r : Nat) : Nat := bits r 131 45 * 8
/-- SET of STEP_MARK. -/
def kSet (r : Nat) : Bool := bitOf r 128

end Sys2Proof.Machine
end

