-- ==== Sys2Proof/Machine/Events.lean ====
section
/-!
DEFINITION. Sys2Proof/Machine/Events.lean: patterns and commands in flight, event counters and the waiters they release
(R99), and the holders of images and additions (R406).
-/
namespace Sys2Proof.Machine

/-- A status code reports a fault (R105). -/
def isFault (st : Nat) : Bool := decide (0x10 ≤ st % 256)

/-- Commands of queue q of context x in flight. -/
def Dev.inflight (w : Dev) (x q : Nat) : Nat := (w.q.cmds.filter (fun c => c.ctx == x && c.q == q)).length

/-- Table 03.1: commands in flight that queue q may hold. -/
def queueLimit (q : Nat) : Nat := match q with | 0 => 64 | 1 => 64 | 2 => 32 | 3 => 16 | _ => 1

/-- The command in flight with an id. -/
def Dev.cmd? (w : Dev) (id : Nat) : Option Cmd := w.q.cmds.find? (fun c => c.id == id)
/-- The pattern with an id. -/
def Dev.pat? (w : Dev) (pid : Nat) : Option Pattern := w.q.pats.find? (fun p => p.pid == pid)
/-- The pattern of a queue whose commands have not all started. -/
def Dev.curPat? (w : Dev) (x q : Nat) : Option Pattern :=
  w.q.pats.find? (fun p => p.ctx == x && p.q == q && decide (p.next < p.ncmd) && !p.isCut)
/-- A STEP_MARK of context x is in flight and holds the other queues (R103). -/
def Dev.stepHold (w : Dev) (x : Nat) : Bool :=
  w.q.cmds.any (fun c => c.ctx == x && c.q == 4 && cOpcode c.raw == 0x07)

/-- Replace the commands in flight. -/
def Work.setCmds (l : List Cmd) (w : Work) : Work := { w with q := { w.q with cmds := l } }
/-- Replace the patterns. -/
def Work.setPats (l : List Pattern) (w : Work) : Work := { w with q := { w.q with pats := l } }
/-- Replace the streams. -/
def Work.setStreams (l : List Stream) (w : Work) : Work := { w with bob := { w.bob with streams := l } }
/-- Change the command with an id. -/
def Work.mapCmd (id : Nat) (f : Cmd → Cmd) (w : Work) : Work :=
  w.setCmds (w.q.cmds.map (fun c => if c.id = id then f c else c))
/-- Change the pattern with an id. -/
def Work.mapPat (pid : Nat) (f : Pattern → Pattern) (w : Work) : Work :=
  w.setPats (w.q.pats.map (fun p => if p.pid = pid then f p else p))
/-- The end a command in flight has reached. -/
def Work.endCmd (id : Nat) (d : Done) (w : Work) : Work :=
  w.mapCmd id (fun c => if c.done.isNone then { c with done := some d } else c)
/-- A command in flight ends with a status and DETAIL, with the conversion status and recomputes gathered. -/
def Work.finishCmd (id status detail : Nat) (w : Work) : Work :=
  w.mapCmd id (fun c => if c.done.isNone then { c with done := some ⟨status, detail, c.conv, c.r1, c.r2⟩ } else c)

/-- A context has made progress (R452). -/
def Work.ctxProgress (x : Nat) (w : Work) : Work :=
  { w with q := { w.q with prog := (x, w.time) :: w.q.prog.filter (fun p => p.1 != x) } }

/-! ### Event counters (R99) -/

/-- The update of a counter releases the waiters whose condition it makes true: the header WAIT of commands next in
their queues, EVT_WAITs, stream triggers and prefetch fills. -/
def Work.evtPut (x n v : Nat) (w : Work) : Work :=
  let w := w.blobPut .active (Obj.events x) (8 * n) (v % 2 ^ 64) 8
  let v := v % 2 ^ 64
  let w := w.setPats (w.q.pats.map (fun (p : Pattern) =>
    if p.ctx = x ∧ p.next < p.ncmd ∧ cWait p.head = true ∧ cWevt p.head = n ∧ cWval p.head ≤ v
    then { p with released := true } else p))
  let w := w.setCmds (w.q.cmds.map (fun (c : Cmd) =>
    if c.ctx = x ∧ c.q = 4 ∧ cOpcode c.raw = 0x02 ∧ kEvt c.raw = n ∧ kValue c.raw ≤ v
    then { c with released := true } else c))
  let w := w.setStreams (w.bob.streams.map (fun (t : Stream) =>
    if t.ctx = x ∧ w.get (Obj.ctxState x) = 1 ∧ w.get (Obj.streamState x t.s) = 1 ∧ t.trig = none then
      let d := w.blobNat .active (Obj.streamActive x t.s) 0 64
      if bits d 8 8 = n ∧ bits d 432 64 + w.get (Obj.streamXfer x t.s) ≤ v then { t with trig := some w.time } else t
    else t))
  w.passFills x

/-- Add to a counter, modulo 2^64. -/
def Work.evtAdd (x n k : Nat) (w : Work) : Work := w.evtPut x n ((w.evt x n + k) % 2 ^ 64)

/-! ### Images and additions held (R406, R409, R414) -/

/-- The slot that is CURRENT, if any. -/
def Dev.currentSlot (w : Dev) : Option Nat := [0, 1, 2].find? (fun s => w.get (Obj.slotState s) == 3)

/-- One more holder of a slot. -/
def Work.holdSlot (s : Option Nat) (w : Work) : Work :=
  match s with
  | some s => w.put (Obj.bindCount s) (w.get (Obj.bindCount s) + 1)
  | none => w

/-- The commit group of slot s (R394). -/
def slotGroup (s : Nat) : List Nat := (upto 4).flatMap (fun p => [Obj.partBaseP s p, Obj.partLenP s p])

/-- Part p of slot s may lie where it does: within one region of Table 01.5, outside every reserved area, on the side of
Table 13.1. -/
def Dev.partOk (w : Dev) (s p : Nat) : Bool :=
  let b := w.get (Obj.partBaseP s p)
  let n := w.get (Obj.partLenP s p)
  let slow := decide (0x010000000000 ≤ b) && decide (b < 0x020000000000)
  let resident := decide (b < 0x006C00000000) || (decide (0x020000000000 ≤ b) && decide (b < 0x021008000000))
  match w.mapRegion b with
  | some r => decide (b + n ≤ r.last + 1) && (if s = 2 then slow else resident)
  | none => false

/-- A pending SLOT_COMMIT applies once the slot is EMPTY or FAILED, with the corrections of R394. -/
def Work.slotApply (s : Nat) (w : Work) : Work :=
  let st := w.get (Obj.slotState s)
  if w.get (Obj.slotCommit s) ≠ 1 ∨ (st ≠ 0 ∧ st ≠ 6) then w else
  let w := w.groupToActive (slotGroup s) []
  let fix := fun (n v : Nat) (w : Work) => (w.clampTo .fw n (w.get n) v).put n v
  let w := forUpto (fun p w =>
    let w := fix (Obj.partBaseP s p) (w.get (Obj.partBaseP s p) / 65536 * 65536) w
    fix (Obj.partLenP s p) (w.get (Obj.partLenP s p) / 65536 * 65536) w) 4 w
  let w := forUpto (fun p w => if w.get (Obj.partLenP s p) ≠ 0 ∧ w.partOk s p = false then fix (Obj.partLenP s p) 0 w else w) 4 w
  let w := forUpto (fun p w =>
    let hit := (upto p).any (fun r =>
      let a := w.get (Obj.partBaseP s r)
      let b := w.get (Obj.partBaseP s p)
      decide (a < b + w.get (Obj.partLenP s p)) && decide (b < a + w.get (Obj.partLenP s r)))
    if hit && w.get (Obj.partLenP s p) != 0 then fix (Obj.partLenP s p) 0 w else w) 4 w
  w.put (Obj.slotCommit s) 0

/-- The last holder of a slot has gone: a DRAINING slot becomes EMPTY (R409); under a pause the CURRENT slot goes to SWAPPING
with slot 2 (R412), or for an in-place load to LOADING as its target, to EMPTY otherwise (R410). -/
def Work.slotQuiet (s : Nat) (w : Work) : Work :=
  let st := w.get (Obj.slotState s)
  if st = 4 then ((w.put (Obj.slotState s) 0).event 0x0804 31 0 (w.get (Obj.slotEpoch s))).slotApply s
  else if st = 3 ∧ w.get Obj.admitPause = 2 then (w.put (Obj.slotState s) 7).put (Obj.slotState 2) 7
  else if st = 3 ∧ w.get Obj.admitPause = 1 then
    (w.put (Obj.slotState s) (match w.life.job with | some j => if j.target = s then 1 else 0 | none => 0)).slotApply s
  else w

/-- A holder lets a slot go; a DRAINING slot whose last holder goes becomes EMPTY: EPOCH_RETIRED (R409). -/
def Work.dropSlot (s : Option Nat) (w : Work) : Work :=
  match s with
  | some s =>
    let n := w.get (Obj.bindCount s) - 1
    let w := w.put (Obj.bindCount s) n
    if n = 0 then w.slotQuiet s else w
  | none => w

/-- The hold counter of an addition region of context x. -/
def addHold (x a : Nat) : Nat := if a = 0 then Obj.addHoldA x else Obj.addHoldB x

/-- The addition region an access of context x binds now: bound, with an ADD_SEG (R414). -/
def Dev.currentAdd (w : Dev) (x : Nat) : Option Nat :=
  if w.get (Obj.modelBind x) = 1 ∧ w.get (Obj.addSeg x) < 64 then some (w.get (Obj.addSel x)) else none

/-- One more holder of an addition. -/
def Work.holdAdd (x : Nat) (a : Option Nat) (w : Work) : Work :=
  match a with
  | some a => w.put (addHold x a) (w.get (addHold x a) + 1)
  | none => w

/-- A holder lets an addition go. -/
def Work.dropAdd (x : Nat) (a : Option Nat) (w : Work) : Work :=
  match a with
  | some a => w.put (addHold x a) (w.get (addHold x a) - 1)
  | none => w

/-- Replace the spills in progress. -/
def Work.setSpills (l : List Spill) (w : Work) : Work := { w with ext := { w.ext with spills := l } }

end Sys2Proof.Machine
end

