-- ==== Sys2Proof/Machine/Arena.lean ====
section
/-!
DEFINITION. Sys2Proof/Machine/Arena.lean: sequences in a running batch (R416 to R419): the arena's blocks and block tables,
what a step boundary applies, and growth with the spills and evictions it takes.
-/
namespace Sys2Proof.Machine

/-- Change the arena. -/
def Work.setArena (f : ArenaState → ArenaState) (w : Work) : Work := { w with arena := f w.arena }

/-- The sequence in a slot of a context; none while it is FREE. -/
def Dev.seq? (w : Dev) (x q : Nat) : Option SeqSt := w.arena.seqs.find? (fun s => s.ctx == x && s.q == q)

/-- Blocks of the arena in force. -/
def Dev.arenaBlocks (w : Dev) : Nat := w.get Obj.arenaLen / 65536
/-- Blocks of the arena that no sequence holds. -/
def Dev.freeBlocks (w : Dev) : List Nat := (upto w.arenaBlocks).filter (fun b => !w.arena.blocks.any (fun k => k.b == b))

/-- SEQ_TABLE of a sequence (R417), BLOCKS_SPILLED of its context and ARENA_FREE. -/
def Work.seqSync (x q : Nat) (w : Work) : Work :=
  let v := match w.seq? x q with
    | some s => s.st + s.held * 8 + (if s.spilled.isEmpty then 0 else 65536)
    | none => 0
  let w := w.blobPut .active (Obj.seqTable x) (4 * q) v 4
  let w := w.put (Obj.blocksSpilled x) (((w.arena.seqs.filter (fun s => s.ctx == x)).map (fun s => s.spilled.length)).sum)
  w.put Obj.arenaFree (w.arenaBlocks - w.arena.blocks.length)

/-- Replace the sequence in a slot; FREE leaves none. -/
def Work.putSeq (x q : Nat) (v : Option SeqSt) (w : Work) : Work :=
  let w := w.setArena (fun a => { a with seqs := match v with
    | none => a.seqs.filter (fun s => !(s.ctx == x && s.q == q))
    | some t => if a.seqs.any (fun s => s.ctx == x && s.q == q) then a.seqs.map (fun s => if s.ctx = x ∧ s.q = q then t else s)
                else a.seqs ++ [t] })
  w.seqSync x q

/-- Write entry n of a sequence's block table: 8 bytes at BT_BASE + 32,768 q + 8 n, through the context's segments. -/
def Work.blockEntry (x q n v : Nat) (w : Work) : Work :=
  match w.xlate x (w.bindSegs x none none (w.segNow x)) ((w.get (Obj.btBase x) + 32768 * q + 8 * n) % 2 ^ 48) 8 .write with
  | .ok a => w.writeNat a v 8
  | .error _ => w

/-- The context address of block b of the arena. -/
def Dev.blockAddr (w : Dev) (x b : Nat) : Nat := w.get (Obj.arenaSeg x) * 2 ^ 42 + b * 65536

/-- A sequence takes k free blocks, the lowest first, as its next ones. Log entry 48. -/
def Work.takeBlocks (x q k : Nat) (w : Work) : Work :=
  match w.seq? x q with
  | none => w
  | some s =>
    let bs := w.freeBlocks.take k
    let w := w.setArena (fun a => { a with blocks := a.blocks ++ bs.zipIdx.map (fun p => ⟨p.1, x, q, s.held + p.2⟩) })
    let w := bs.zipIdx.foldl (fun w p => w.blockEntry x q (s.held + p.2) (w.blockAddr x p.1)) w
    w.putSeq x q (some { s with held := s.held + bs.length })

/-- A sequence's blocks are free and its table entries 0. -/
def Work.freeSeq (x q : Nat) (w : Work) : Work :=
  match w.seq? x q with
  | none => w
  | some s =>
    let w := w.setArena (fun a => { a with blocks := a.blocks.filter (fun b => !(b.ctx == x && b.seq == q)) })
    let w := forUpto (fun n w => w.blockEntry x q n 0) s.held w
    w.putSeq x q (some { s with held := 0, spilled := [] })

/-- Joins that wait at a boundary, in the order they are taken (R418). -/
def Dev.joins (w : Dev) (x : Nat) : List SeqSt :=
  let mine := w.arena.seqs.filter (fun s => s.ctx == x)
  let sorted := fun (st : Nat) =>
    let l := mine.filter (fun s => s.st == st)
    (sortNat (l.map (fun s => s.ord))).filterMap (fun o => l.find? (fun s => s.ord == o))
  sorted 2 ++ sorted 1

/-- One join at a boundary: `open` while none before it failed. -/
def Work.joinOne (acc : Bool × Work) (s : SeqSt) : Bool × Work :=
  let (ok, w) := acc
  if ok && decide (s.want ≤ w.freeBlocks.length) then
    let (o, w) := w.newId
    let w := w.putSeq s.ctx s.q (some { s with st := 3, joined := o })
    (true, w.takeBlocks s.ctx s.q s.want)
  else if s.st = 2 then (false, w)
  else
    let (o, w) := w.newId
    let w := (w.bump (Obj.seqDeferredCount s.ctx) 1).event 0x0809 s.ctx 0 s.q
    (false, w.putSeq s.ctx s.q (some { s with st := 2, ord := o }))

/-- The overflow range of a context: first device address and its 64 KiB places. -/
def Dev.ovfRange (w : Dev) (x : Nat) : Option (Nat × Nat) :=
  let i := w.get (Obj.ovfSeg x)
  let d := Store.get (fun _ => 0) (w.segNow x) i
  if i < 64 ∧ segValid d = true then some (segBase d * 4096, (segLimit d + 1 - segBase d) * 4096 / 65536) else none

/-- A free place of a context's overflow range. -/
def Dev.ovfPlace (w : Dev) (x : Nat) : Option Nat :=
  match w.ovfRange x with
  | some (_, n) =>
    (upto n).find? (fun k => !w.arena.seqs.any (fun s => s.ctx == x && s.spilled.any (fun p => p.2 == k)))
  | none => none

/-- Move one block of a sequence, its highest resident one, into the overflow range (R419). Log entry 48. -/
def Work.spillBlock (x q : Nat) (w : Work) : Work :=
  match w.seq? x q, w.ovfRange x, w.ovfPlace x with
  | some s, some (base, _), some k =>
    let mine := w.arena.blocks.filter (fun b => b.ctx == x && b.seq == q)
    match mine.foldl (fun (m : Option Block) b => match m with
      | some c => if c.n < b.n then some b else some c
      | none => some b) none with
    | some b =>
      let d := w.read (w.get Obj.arenaBase + b.b * 65536) 65536
      let w := w.write (base + k * 65536) d
      let w := w.setArena (fun a => { a with blocks := a.blocks.filter (fun c => c.b != b.b) })
      let w := w.blockEntry x q b.n (w.get (Obj.ovfSeg x) * 2 ^ 42 + k * 65536)
      w.putSeq x q (some { s with spilled := s.spilled ++ [(b.n, k)] })
    | none => w
  | _, _, _ => w

/-- Bring one spilled block of a sequence back into the arena (R418 step 3). -/
def Work.fillBlock (x q : Nat) (w : Work) : Work :=
  match w.seq? x q, w.ovfRange x, w.freeBlocks with
  | some s, some (base, _), b :: _ =>
    match s.spilled with
    | (n, k) :: rest =>
      let w := w.write (w.get Obj.arenaBase + b * 65536) (w.read (base + k * 65536) 65536)
      let w := w.setArena (fun a => { a with blocks := a.blocks ++ [⟨b, x, q, n⟩] })
      let w := w.blockEntry x q n (w.blockAddr x b)
      w.putSeq x q (some { s with spilled := rest })
    | [] => w
  | _, _, _ => w

/-- Blocks come back while the free ones stay above FILL_MARGIN percent. Log entry 48. -/
def Work.fillBack (x : Nat) : Nat → Work → Work
  | 0, w => w
  | k + 1, w =>
    match w.arena.seqs.find? (fun s => s.ctx == x && !s.spilled.isEmpty) with
    | some s =>
      if w.get Obj.fillMargin * w.arenaBlocks < 100 * (w.freeBlocks.length - 1) then Work.fillBack x k (w.fillBlock x s.q) else w
    | none => w

/-- A pending ARENA_COMMIT applies while no block is allocated, clamped under R394's rules: 64 KiB multiples, within the fast
tier or the mappable near memory, at most 256 GiB (R416). -/
def Work.arenaApply (w : Work) : Work :=
  if w.get Obj.arenaCommit ≠ 1 ∨ w.arena.blocks.isEmpty = false then w else
  let w := w.groupToActive [Obj.arenaBase, Obj.arenaLen] []
  let fix := fun (n v : Nat) (w : Work) => (w.clampTo .fw n (w.get n) v).put n v
  let w := fix Obj.arenaBase (w.get Obj.arenaBase / 65536 * 65536) w
  let w := fix Obj.arenaLen (min (w.get Obj.arenaLen / 65536 * 65536) 0x4000000000) w
  let b := w.get Obj.arenaBase
  let ok := decide (b < 0x006C00000000) || (decide (0x020000000000 ≤ b) && decide (b < 0x020800000000))
  let inside := match w.mapRegion b with
    | some r => ok && decide (b + w.get Obj.arenaLen ≤ r.last + 1)
    | none => false
  let w := if inside then w else fix Obj.arenaLen 0 w
  (w.put Obj.arenaCommit 0).put Obj.arenaFree (w.get Obj.arenaLen / 65536)

/-- ARENA_COMMIT (R416). -/
def opArenaCommit (wr : Writer) (w : Work) : Work :=
  w.gated wr .host Obj.arenaCommit (fun w => (w.commitReq wr Obj.arenaCommit [Obj.arenaBase, Obj.arenaLen] []).arenaApply)

def execArenaCommit (wr : Writer) (s : State) : Host.Outcome State Fault Refusal := s.run (opArenaCommit wr)

/-- SEQ_BOUNDARY_APPLY (R418): leaves, joins, fill-back of a context at its step boundary. -/
def Work.seqBoundary (x : Nat) (w : Work) : Work :=
  let gone := w.arena.seqs.filter (fun s => s.ctx == x && (s.st == 4 || s.st == 5))
  let w := (gone.foldl (fun w s => (w.freeSeq x s.q).putSeq x s.q none) w).arenaApply
  let (_, w) := (w.joins x).foldl Work.joinOne (true, w)
  if w.ctxClass x = 1 then w.fillBack x ((w.arena.seqs.map (fun s => s.spilled.length)).sum) else w

/-! ### Growth (R419) -/

/-- Nothing of context x is in flight: the hold of R297 is complete. -/
def Dev.ctxQuiet (w : Dev) (x : Nat) : Bool :=
  !w.q.cmds.any (fun c => c.ctx == x) && !w.bob.streams.any (fun t => t.ctx == x && t.cap.isSome)

/-- The next sequence a spill takes a block of: BE contexts in descending number, the most recently joined sequence first,
never the growing one. -/
def Dev.spillNext (w : Dev) (g : Grow) : Option SeqSt :=
  ((upto 16).reverse).findSome? (fun x =>
    if w.ctxClass x ≠ 1 ∨ g.skip.contains x = true ∨ (w.ovfPlace x).isNone then none else
    let l := w.arena.seqs.filter (fun s => s.ctx == x && s.st == 3 && !(x == g.ctx && s.q == g.q)
      && w.arena.blocks.any (fun b => b.ctx == x && b.seq == s.q))
    l.foldl (fun (m : Option SeqSt) s => match m with
      | some c => if c.joined < s.joined then some s else some c
      | none => some s) none)

/-- Spill blocks of a quiet context until the growth is covered or it has no more to give; answers how many. -/
def Work.spillMany (g : Grow) (x : Nat) : Nat → Nat → Work → Nat × Work
  | 0, n, w => (n, w)
  | k + 1, n, w =>
    if g.n ≤ w.freeBlocks.length then (n, w) else
    match w.spillNext g with
    | some v => if v.ctx = x then Work.spillMany g x k (n + 1) (w.spillBlock x v.q) else (n, w)
    | none => (n, w)

/-- The most recently joined sequence that holds blocks. -/
def Dev.lastJoined (w : Dev) : Option SeqSt :=
  (w.arena.seqs.filter (fun s => w.arena.blocks.any (fun b => b.ctx == s.ctx && b.seq == s.q))).foldl
    (fun (m : Option SeqSt) s => match m with
      | some c => if c.joined < s.joined then some s else some c
      | none => some s) none

/-- Change the first growth that waits. -/
def Work.setGrow (g : Option Grow) (w : Work) : Work :=
  w.setArena (fun a => { a with grows := match a.grows, g with
    | _ :: r, some g => g :: r
    | _ :: r, none => r
    | [], _ => [] })

/-- A growth ends: GROW_EVT rises. -/
def Work.growEnd (g : Grow) (w : Work) : Work :=
  ((w.setGrow none).evtAdd g.ctx (w.get (Obj.growEvt g.ctx)) 1).arenaApply

/-- The steps of the first growth that waits, as far as the holds allow. The copies of a spill are made when its hold is
complete. Log entry 48. -/
def Work.growGo : Nat → Work → Work
  | 0, w => w
  | k + 1, w =>
    match w.arena.grows with
    | [] => w
    | g :: _ =>
      match w.seq? g.ctx g.q with
      | none => Work.growGo k (w.growEnd g)
      | some s =>
        if s.st ≠ 3 then Work.growGo k (w.growEnd g)
        else if g.n ≤ w.freeBlocks.length then Work.growGo k ((w.takeBlocks g.ctx g.q g.n).growEnd g)
        else match w.spillNext g with
          | some v =>
            if w.ctxQuiet v.ctx then
              let (n, w) := (w.setGrow (some { g with hold := none })).spillMany g v.ctx w.arena.blocks.length 0
              Work.growGo k (w.event 0x080A v.ctx 0 (min n 65535 + v.ctx * 65536))
            else if g.hold.any (fun h => h.1 == v.ctx) then w
            else w.setGrow (some { g with hold := some (v.ctx, w.time, false) })
          | none =>
            match w.lastJoined with
            | none => Work.growGo k (w.growEnd g)
            | some v =>
              if w.ctxQuiet v.ctx then
                let w := (w.setGrow (some { g with hold := none })).freeSeq v.ctx v.q
                let w := match w.seq? v.ctx v.q with
                  | some t => w.putSeq v.ctx v.q (some { t with st := 5 })
                  | none => w
                let w := w.bump (Obj.seqEvictedCount v.ctx) 1
                Work.growGo k (w.event 0x080B v.ctx 0 (v.q + v.ctx * 65536))
              else if g.hold.any (fun h => h.1 == v.ctx) then w
              else w.setGrow (some { g with hold := some (v.ctx, w.time, true) })

/-- The growths that wait go on. -/
def Work.growStep (w : Work) : Work :=
  if w.arena.grows.isEmpty then w
  else w.growGo ((w.arena.blocks.length + w.arena.seqs.length + 4) * (w.arena.grows.length + 1))

/-- The hold of a context for a spill exceeds WAIT_TMO: its blocks are left (R297). -/
def Work.growTimeout (x : Nat) (w : Work) : Work :=
  match w.arena.grows with
  | g :: _ =>
    match g.hold with
    | some (c, t, evict) =>
      if c = x ∧ evict = false ∧ w.get (Obj.waitTmo x) * 1000 < w.since t then
        (w.setGrow (some { g with skip := x :: g.skip, hold := none })).growStep
      else w
    | none => w
  | [] => w

/-! ### Rows -/

/-- SEQ_JOIN (R417, R418): a FREE sequence asks to join with 1 to 4,096 blocks. -/
def opSeqJoin (wr : Writer) (x : Fin 16) (v : Nat) (w : Work) : Work :=
  w.gated wr (.own x.val) (Obj.seqJoin x.val) (fun w =>
    let x := x.val
    let q := bits v 0 10
    let n := bits v 16 13
    if (w.seq? x q).isSome ∨ 4096 < n then w.noAction wr (Obj.seqJoin x) v
    else
      let w := if n = 0 then w.clamped wr (Obj.seqJoin x) v (v + 65536) 0 else w
      let (o, w) := w.newId
      w.putSeq x q (some ⟨x, q, 1, max 1 n, o, 0, 0, []⟩))

def execSeqJoin (wr : Writer) (x : Fin 16) (v : Nat) (s : State) : Host.Outcome State Fault Refusal := s.run (opSeqJoin wr x v)

/-- SEQ_LEAVE (R417). -/
def opSeqLeave (wr : Writer) (x : Fin 16) (v : Nat) (w : Work) : Work :=
  w.gated wr (.own x.val) (Obj.seqLeave x.val) (fun w =>
    let q := bits v 0 10
    match w.seq? x.val q with
    | some s => if s.st = 1 ∨ s.st = 2 ∨ s.st = 3 then w.putSeq x.val q (some { s with st := 4 })
                else w.noAction wr (Obj.seqLeave x.val) v
    | none => w.noAction wr (Obj.seqLeave x.val) v)

def execSeqLeave (wr : Writer) (x : Fin 16) (v : Nat) (s : State) : Host.Outcome State Fault Refusal := s.run (opSeqLeave wr x v)

/-- SEQ_GROW (R419). -/
def opSeqGrow (wr : Writer) (x : Fin 16) (v : Nat) (w : Work) : Work :=
  w.gated wr (.own x.val) (Obj.seqGrow x.val) (fun w =>
    let q := bits v 0 10
    let n := bits v 16 13
    match w.seq? x.val q with
    | some s =>
      let asked := ((w.arena.grows.filter (fun g => g.ctx == x.val && g.q == q)).map (fun g => g.n)).sum
      if s.st ≠ 3 ∨ 4096 < s.held + asked + n then w.noAction wr (Obj.seqGrow x.val) v
      else (w.setArena (fun a => { a with grows := a.grows ++ [⟨x.val, q, n, [], none⟩] })).growStep
    | none => w.noAction wr (Obj.seqGrow x.val) v)

def execSeqGrow (wr : Writer) (x : Fin 16) (v : Nat) (s : State) : Host.Outcome State Fault Refusal := s.run (opSeqGrow wr x v)

end Sys2Proof.Machine
end

