-- ==== Sys2Proof/Machine/Formats.lean ====
section
/-!
DEFINITION. Sys2Proof/Machine/Formats.lean: the number formats of chapter 02, bit by bit: exact binary fractions, decoding
(R36 to R49), rounding and encoding (R57, R62). No value is held rounded unless a rule rounds it.
-/
namespace Sys2Proof.Machine

/-! ### Exact binary fractions -/

/-- The number m × 2^e. -/
structure Dy where
  m : Int
  e : Int
  deriving DecidableEq, Repr

/-- 2^n as an integer, n a natural number. -/
def pow2 (n : Nat) : Int := ((2 ^ n : Nat) : Int)

/-- The mantissa at a lower exponent. -/
def Dy.at (a : Dy) (e : Int) : Int := a.m * pow2 (a.e - e).toNat

/-- Zero. -/
def Dy.zero : Dy := ⟨0, 0⟩
/-- An integer. -/
def Dy.ofInt (i : Int) : Dy := ⟨i, 0⟩
/-- The exact sum. -/
def Dy.add (a b : Dy) : Dy :=
  let e := min a.e b.e
  ⟨a.at e + b.at e, e⟩
/-- The exact negation. -/
def Dy.neg (a : Dy) : Dy := ⟨-a.m, a.e⟩
/-- The exact difference. -/
def Dy.sub (a b : Dy) : Dy := a.add b.neg
/-- The exact product. -/
def Dy.mul (a b : Dy) : Dy := ⟨a.m * b.m, a.e + b.e⟩
/-- Scaling by 2^k. -/
def Dy.shift (a : Dy) (k : Int) : Dy := ⟨a.m, a.e + k⟩
/-- The magnitude. -/
def Dy.abs (a : Dy) : Dy := ⟨a.m.natAbs, a.e⟩
/-- The number is 0. -/
def Dy.isZero (a : Dy) : Bool := a.m == 0
/-- The number is below 0. -/
def Dy.isNeg (a : Dy) : Bool := decide (a.m < 0)
/-- a < b. -/
def Dy.lt (a b : Dy) : Bool :=
  let e := min a.e b.e
  decide (a.at e < b.at e)
/-- a ≤ b. -/
def Dy.le (a b : Dy) : Bool := !b.lt a
/-- a = b as numbers. -/
def Dy.same (a b : Dy) : Bool := a.le b && b.le a
/-- The larger. -/
def Dy.max (a b : Dy) : Dy := if a.lt b then b else a
/-- The smaller. -/
def Dy.min (a b : Dy) : Dy := if b.lt a then b else a
/-- A number with a sign. -/
def Dy.withSign (n : Bool) (a : Dy) : Dy := if n then a.neg else a

/-- ⌊log₂ n⌋ for n > 0. -/
def log2Nat (n : Nat) : Nat := Nat.log2 n

/-- ⌊a × 2^k⌋ and whether anything was cut, for a magnitude a. -/
def Dy.floorShift (a : Dy) (k : Int) : Nat × Nat × Nat :=
  let n := a.m.natAbs
  let s := a.e + k
  if 0 ≤ s then (n * 2 ^ s.toNat, 0, 1)
  else
    let d := 2 ^ (-s).toNat
    (n / d, n % d, d)

/-- ⌊√n⌋, bit by bit from bit k - 1 down. -/
def isqrtFrom (n : Nat) : Nat → Nat → Nat
  | 0, r => r
  | k + 1, r => isqrtFrom n k (if (r + 2 ^ k) * (r + 2 ^ k) ≤ n then r + 2 ^ k else r)

/-- ⌊√n⌋. -/
def isqrt (n : Nat) : Nat := isqrtFrom n (log2Nat n / 2 + 1) 0

/-- The magnitude's neighbours at quantum 2^q: the integer part n of |a| / 2^q, the remainder and its divisor. -/
def Dy.quant (a : Dy) (q : Int) : Nat × Nat × Nat := a.floorShift (-q)

/-- The quantum exponent of a binary format of p bits whose smallest quantum is 2^emin, at magnitude a. -/
def quantum (p : Nat) (emin : Int) (a : Dy) : Int :=
  if a.m = 0 then emin else max emin (a.e + (log2Nat a.m.natAbs : Int) - ((p : Int) - 1))

/-- Rounding modes in force (R57). -/
inductive Rnd where
  | rn
  | sr
  | rz
  deriving DecidableEq, Repr

/-- Choose between neighbour n and n + 1 with remainder r of d (R57): RN to the even n at a tie, SR by f₁₆ > rnd. -/
def pickUp (mode : Rnd) (rnd n r d : Nat) : Nat :=
  match mode with
  | .rn => if 2 * r < d then n else if d < 2 * r then n + 1 else if n % 2 = 0 then n else n + 1
  | .rz => n
  | .sr => if rnd < r * 65536 / d then n + 1 else n

/-- Round a magnitude to a binary format: the number of quanta and the quantum's exponent. -/
def roundQ (p : Nat) (emin : Int) (mode : Rnd) (rnd : Nat) (a : Dy) : Nat × Int :=
  let q := quantum p emin a
  let (n, r, d) := a.quant q
  (pickUp mode rnd n r d, q)

/-- Round to nearest at p significant bits, ties to even, without an exponent limit. -/
def roundSig (p : Nat) (a : Dy) : Dy :=
  if a.m = 0 then Dy.zero else
  let q := a.e + (log2Nat a.m.natAbs : Int) - ((p : Int) - 1)
  let (n, r, d) := a.quant q
  Dy.withSign a.isNeg ⟨pickUp .rn 0 n r d, q⟩

/-! ### Scale codes (R47, R49) -/

/-- The exponent e of an S8Q code. -/
def s8qExp (s : Nat) : Int := signedOf 6 (bits s 2 6)
/-- The quarter-octave fraction q of an S8Q code. -/
def s8qFrac (s : Nat) : Nat := bits s 0 2
/-- The S8Q code of quarter octaves k = 4e + q, from -128 (2^-32) to 127 (2^31.75). -/
def s8qOf (k : Int) : Nat := toSigned 8 k
/-- Quarter octaves of an S8Q code. -/
def s8qQuarters (s : Nat) : Int := signedOf 8 s

/-- c34(q) = 2^(q/4) rounded to nearest at 34 significant bits (R49). -/
def c34 (q : Nat) : Dy :=
  match q with
  | 0 => ⟨1, 0⟩
  | 1 => ⟨10215211334, -33⟩
  | 2 => ⟨12148002000, -33⟩
  | _ => ⟨14446490411, -33⟩

/-- d34(q) = 2^(-q/4) rounded to nearest at 34 significant bits (R49). -/
def d34 (q : Nat) : Dy :=
  match q with
  | 0 => ⟨1, 0⟩
  | 1 => ⟨14446490411, -34⟩
  | 2 => ⟨12148002000, -34⟩
  | _ => ⟨10215211334, -34⟩

/-- round34(v × 2^e × c34(q)): the store path's scaled value (R54). -/
def scaleUp (v : Dy) (s : Nat) : Dy := roundSig 34 ((v.mul (c34 (s8qFrac s))).shift (s8qExp s))
/-- value(c) × 2^(-e) × d34(q): the load path's decoded value (R49). -/
def scaleDown (v : Dy) (s : Nat) : Dy := (v.mul (d34 (s8qFrac s))).shift (-(s8qExp s))

/-! ### Format codes (Table 02.2) -/

/-- The formats. -/
inductive Fmt where
  | w32 | w16 | n8f | n8i | n4l | n4i | n2t | w32p | b32 | b64 | raw
  deriving DecidableEq, Repr

/-- The format of a code; none for a reserved one (R35). -/
def fmtOf (c : Nat) : Option Fmt :=
  match c with
  | 0x0 => some .w32 | 0x1 => some .w16 | 0x2 => some .n8f | 0x3 => some .n8i | 0x4 => some .n4l | 0x5 => some .n4i
  | 0x6 => some .n2t | 0x7 => some .w32p | 0x8 => some .b32 | 0x9 => some .b64 | 0xF => some .raw | _ => none

/-- Formats that carry S8Q scales. -/
def Fmt.scaled (f : Fmt) : Bool :=
  match f with
  | .n8f | .n8i | .n4l | .n4i | .n2t => true
  | _ => false

/-- Width in bits of one element; N2T is packed by block. -/
def Fmt.width (f : Fmt) : Nat :=
  match f with
  | .w32 | .b32 => 32
  | .w16 => 16
  | .n8f | .n8i | .raw => 8
  | .n4l | .n4i => 4
  | .n2t => 0
  | .w32p | .b64 => 64

/-- Bytes that n elements take from a block's start (R38, Table 02.2); blk is the block size B. -/
def Fmt.bytes (f : Fmt) (blk n : Nat) : Nat :=
  match f with
  | .n2t => n / blk * ceilDiv blk 5 + ceilDiv (n % blk) 5
  | _ => ceilDiv (n * f.width) 8

/-- Byte offset of the first bit of element i. -/
def Fmt.offset (f : Fmt) (blk i : Nat) : Nat :=
  match f with
  | .n2t => i / blk * ceilDiv blk 5 + i % blk / 5
  | _ => i * f.width / 8

/-! ### Values -/

/-- A decoded element: a finite number, an infinity, poison, or an interchange NaN (R54). -/
inductive Val where
  | fin (d : Dy)
  | inf (neg : Bool)
  | poison
  | nan
  deriving DecidableEq, Repr

/-- Decode an IEEE layout of p significant bits and ew exponent bits, with the value of NaN given. -/
def decodeIeee (p ew : Nat) (onNan : Val) (c : Nat) : Val :=
  let m := bits c 0 (p - 1)
  let x := bits c (p - 1) ew
  let neg := bitOf c (p - 1 + ew)
  let emin : Int := 2 - ((2 ^ (ew - 1) : Nat) : Int) - ((p : Int) - 1)
  if x = 2 ^ ew - 1 then (if m = 0 then .inf neg else onNan)
  else if x = 0 then .fin (Dy.withSign neg ⟨m, emin⟩)
  else .fin (Dy.withSign neg ⟨m + 2 ^ (p - 1), emin + x - 1⟩)

/-- The magnitude of a small float with p significant bits, smallest quantum 2^emin (R42, R43). -/
def decodeSmall (p : Nat) (emin : Int) (c : Nat) : Dy :=
  let m := bits c 0 (p - 1)
  let x := c / 2 ^ (p - 1)
  if x = 0 then ⟨m, emin⟩ else ⟨m + 2 ^ (p - 1), emin + x - 1⟩

/-- W32 (R44): any NaN is poison. -/
def decodeW32 (c : Nat) : Val := decodeIeee 24 8 .poison c
/-- B32 (R44). -/
def decodeB32 (c : Nat) : Val := decodeIeee 24 8 .nan c
/-- B64 (R44). -/
def decodeB64 (c : Nat) : Val := decodeIeee 53 11 .nan c
/-- W16 (R43). -/
def decodeW16 (c : Nat) : Val :=
  if c = 0x8000 then .poison else .fin (Dy.withSign (bitOf c 15) (decodeSmall 10 (-39) (bits c 0 15)))
/-- N8F (R42). -/
def decodeN8F (c : Nat) : Val :=
  if c = 0x80 then .poison else .fin (Dy.withSign (bitOf c 7) (decodeSmall 4 (-11) (bits c 0 7)))
/-- N8I (R40); the hole reads as 0. -/
def decodeN8I (c : Nat) : Val := if c = 0x80 then .fin Dy.zero else .fin (Dy.ofInt (signedOf 8 c))
/-- N4I (R40); the hole reads as 0. -/
def decodeN4I (c : Nat) : Val := if c = 0x8 then .fin Dy.zero else .fin (Dy.ofInt (signedOf 4 c))
/-- The magnitude of an N4L index k = 1 … 7 (R39, R49): even k at 34 significant bits. -/
def n4lMag (k : Nat) : Dy :=
  if k % 2 = 1 then ⟨1, ((k : Int) - 7) / 2⟩ else ⟨12148002000, -34 + ((k : Int) - 6) / 2⟩
/-- N4L (R39). -/
def decodeN4L (c : Nat) : Val :=
  if c = 0x8 then .poison
  else if c = 0 then .fin Dy.zero
  else .fin (Dy.withSign (bitOf c 3) (n4lMag (bits c 0 3)))
/-- Trit i of an N2T byte (R36); codes 243 to 255 are five zeros (R37). -/
def tritOf (b i : Nat) : Int := if 243 ≤ b then 0 else ((b / 3 ^ i % 3 : Nat) : Int) - 1
/-- W32P (R46): the exact sum; poison when h is poison or l is the W16 poison code. -/
def decodeW32P (c : Nat) : Val :=
  match decodeW32 (bits c 0 32), decodeW16 (bits c 32 16) with
  | .fin h, .fin l => .fin (h.add l)
  | .fin _, _ => .poison
  | v, _ => v

/-- Decode an element code without a scale. An N2T code here is one trit, as its digit. -/
def decodeElem (f : Fmt) (c : Nat) : Val :=
  match f with
  | .w32 => decodeW32 c
  | .w16 => decodeW16 c
  | .n8f => decodeN8F c
  | .n8i => decodeN8I c
  | .n4l => decodeN4L c
  | .n4i => decodeN4I c
  | .n2t => .fin (Dy.ofInt ((c : Int) - 1))
  | .w32p => decodeW32P c
  | .b32 => decodeB32 c
  | .b64 => decodeB64 c
  | .raw => .fin (Dy.ofInt c)

/-- The code is a hole (R40). -/
def isHole (f : Fmt) (c : Nat) : Bool :=
  match f with
  | .n8i => c == 0x80
  | .n4i => c == 0x8
  | _ => false

/-- maxfin(dst) of R54. -/
def maxfin (f : Fmt) : Dy :=
  match f with
  | .n2t | .n4l => ⟨1, 0⟩
  | .n4i => ⟨7, 0⟩
  | .n8i => ⟨127, 0⟩
  | .n8f => ⟨120, 0⟩
  | .w16 => ⟨8581545984, 0⟩
  | .w32 | .b32 | .w32p => ⟨16777215, 104⟩
  | .b64 => ⟨9007199254740991, 971⟩
  | .raw => ⟨255, 0⟩

/-- The code of n quanta of 2^q in a binary format of p bits with smallest quantum 2^emin, without the sign. -/
def codeQ (p : Nat) (emin : Int) (n : Nat) (q : Int) : Nat :=
  if n = 0 then 0 else (q - emin).toNat * 2 ^ (p - 1) + n

/-- A signed code: no code of value zero carries a sign (R45). -/
def signCode (neg : Bool) (bit c : Nat) : Nat := if c = 0 then 0 else if neg then c + 2 ^ bit else c

/-- Round into W32, as a code. -/
def toW32 (mode : Rnd) (rnd : Nat) (x : Dy) : Nat :=
  let (n, q) := roundQ 24 (-149) mode rnd x.abs
  signCode x.isNeg 31 (codeQ 24 (-149) n q)

/-- Round into W16, as a code. -/
def toW16 (mode : Rnd) (rnd : Nat) (x : Dy) : Nat :=
  let (n, q) := roundQ 10 (-39) mode rnd x.abs
  signCode x.isNeg 15 (codeQ 10 (-39) n q)

/-- The value of a finite code; 0 for the others. -/
def Val.dy (v : Val) : Dy := match v with | .fin d => d | _ => Dy.zero

/-- Round into a W32P pair, as the 64-bit container (R57 steps 1 to 3). -/
def toW32P (mode : Rnd) (rnd : Nat) (x : Dy) : Nat :=
  let hc := toW32 .rn 0 x
  let h := (decodeW32 hc).dy
  if (Dy.mk 1 (-15)).le h.abs && h.abs.lt ⟨1, 57⟩ then
    let r := x.sub h
    let l := match mode with
      | .rz =>
        -- whichever neighbour of r makes |h + l| ≤ |xs|: towards zero of the sum
        let a := toW16 .rz 0 r
        let (n, q) := roundQ 10 (-39) .rz 0 r.abs
        let exact := (Dy.mk n q).same r.abs
        if exact || r.isNeg == x.isNeg then a
        else signCode r.isNeg 15 (codeQ 10 (-39) (n + 1) q)
      | m => toW16 m rnd r
    hc + l * 2 ^ 32
  else toW32 mode rnd x

/-- The f₁₆ and the comparison of f with ½ of a magnitude x between N4L neighbours 2^j and √2 · 2^j (first true) or
√2 · 2^j and 2^(j + 1): exact, with √2 irrational (R57). Answers ⌊65,536 f⌋ and whether f > ½. -/
def n4lFrac (x : Dy) (j : Int) (low : Bool) : Nat × Bool :=
  let u := x.shift (-j)                         -- in [1, 2]
  if low then
    -- f = (u - 1)(√2 + 1)
    let t := (u.sub ⟨1, 0⟩).shift 16
    let n := t.m.natAbs
    let k := (-t.e).toNat
    let n := if 0 ≤ t.e then n * 2 ^ t.e.toNat else n
    let k := if 0 ≤ t.e then 0 else k
    let f16 := (isqrt (2 * n * n) + n) / 2 ^ k
    (f16, decide (32768 ≤ f16))
  else
    -- f = (u - 1) - (2 - u) √2 / 2
    let a := (u.sub ⟨1, 0⟩).shift 16
    let b := ((Dy.mk 2 0).sub u).shift 15
    let e := min (min a.e b.e) 0
    let an := (a.at e).natAbs
    let bn := (b.at e).natAbs
    let up := if bn = 0 then 0 else isqrt (2 * bn * bn) + 1
    let f16 := (an - up) / 2 ^ (-e).toNat
    (f16, decide (32768 ≤ f16))

/-- Round a magnitude of at most 1 into an N4L index. -/
def toN4LIndex (mode : Rnd) (rnd : Nat) (x : Dy) : Nat :=
  if x.lt ⟨1, -3⟩ then
    let t := x.shift 3
    match mode with
    | .rn => if (Dy.mk 1 (-1)).lt t then 1 else 0
    | .rz => 0
    | .sr => let (f16, _, _) := t.floorShift 16
             if rnd < f16 then 1 else 0
  else
    -- j with 2^j ≤ x < 2^(j + 1)
    let j := x.e + (log2Nat x.m.natAbs : Int)
    let u := x.shift (-j)
    let low := u.mul u |>.lt ⟨2, 0⟩
    let k := (2 * j + 7).toNat + (if low then 0 else 1)
    let exact := u.same ⟨1, 0⟩
    if exact then k else
    let (f16, up) := n4lFrac x j low
    match mode with
    | .rn => if up then k + 1 else k
    | .rz => k
    | .sr => if rnd < f16 then k + 1 else k

/-- Round and encode a value of magnitude at most maxfin (R57): the code and whether it is zero. -/
def encodeElem (f : Fmt) (mode : Rnd) (rnd : Nat) (x : Dy) : Nat :=
  match f with
  | .w32 | .b32 => toW32 mode rnd x
  | .w16 => toW16 mode rnd x
  | .w32p => toW32P mode rnd x
  | .b64 =>
    let (n, q) := roundQ 53 (-1074) mode rnd x.abs
    signCode x.isNeg 63 (codeQ 53 (-1074) n q)
  | .n8f =>
    let (n, q) := roundQ 4 (-11) mode rnd x.abs
    signCode x.isNeg 7 (codeQ 4 (-11) n q)
  | .n8i =>
    let (n, r, d) := x.quant 0
    let n := pickUp mode rnd n r d
    if x.isNeg then (256 - n) % 256 else n
  | .n4i =>
    let (n, r, d) := x.quant 0
    let n := pickUp mode rnd n r d
    if x.isNeg then (16 - n) % 16 else n
  | .n4l => signCode x.isNeg 3 (toN4LIndex mode rnd x.abs)
  | .n2t =>
    let (n, r, d) := x.quant 0
    let n := match mode with
      | .rn => if d < 2 * r then n + 1 else n
      | m => pickUp m rnd n r d
    if n = 0 then 1 else if x.isNeg then 0 else 2
  | .raw => x.m.natAbs % 256

/-- The encoded result is zero. -/
def isZeroCode (f : Fmt) (c : Nat) : Bool :=
  match f with
  | .n2t => c == 1
  | .w32p => bits c 0 32 == 0
  | _ => c == 0

/-- The code of ±maxfin (R59). -/
def maxCode (f : Fmt) (neg : Bool) : Nat := encodeElem f .rz 0 (Dy.withSign neg (maxfin f))

/-- The poison image of a destination (Table 02.8). -/
def poisonCode (f : Fmt) : Nat :=
  match f with
  | .n4l | .n4i => 0x8
  | .n8f | .n8i => 0x80
  | .w16 => 0x8000
  | .w32 | .b32 | .w32p => 0x7FC00000
  | .b64 => 0x7FF8000000000000
  | .n2t => 1
  | .raw => 0

/-- Writing the poison image loses the poison (Table 02.8). -/
def poisonLost (f : Fmt) : Bool :=
  match f with
  | .n4i | .n8i | .n2t => true
  | _ => false

end Sys2Proof.Machine
end

