-- ==== Sys2Proof/Machine/Flags.lean ====
section
/-!
DEFINITION. Sys2Proof/Machine/Flags.lean: the conversion status (Table 02.9), the counts behind the counters of Table
02.13 and how they reach the issuing context (R64, R65), and the generator of stochastic-rounding bits (R214).
-/
namespace Sys2Proof.Machine

/-- SAT. -/
def fSat : Nat := 0x01
/-- OVF. -/
def fOvf : Nat := 0x02
/-- NONFINITE_IN. -/
def fNonfinite : Nat := 0x04
/-- POISON_IN. -/
def fPoisonIn : Nat := 0x08
/-- POISON_LOST. -/
def fPoisonLost : Nat := 0x10
/-- HOLE_READ. -/
def fHole : Nat := 0x20
/-- CODE_FAULT. -/
def fCodeFault : Nat := 0x40
/-- FLUSH. -/
def fFlush : Nat := 0x80

/-- The conversion status of a tile or command with the counts of its events, whether a poison image was written to
memory (R63), and the largest magnitude converted, before scaling, with poison left out (R207). -/
structure Conv where
  flags : Nat
  sat : Nat
  nonfinite : Nat
  poisonIn : Nat
  poisonLost : Nat
  hole : Nat
  codeFault : Nat
  flush : Nat
  elems : Nat
  finite : Nat
  poisoned : Bool
  amax : Dy
  deriving DecidableEq, Repr

/-- Nothing converted. -/
def Conv.none : Conv := ⟨0, 0, 0, 0, 0, 0, 0, 0, 0, 0, false, Dy.zero⟩

/-- Two runs of conversions together. -/
def Conv.add (a b : Conv) : Conv :=
  ⟨a.flags ||| b.flags, a.sat + b.sat, a.nonfinite + b.nonfinite, a.poisonIn + b.poisonIn, a.poisonLost + b.poisonLost,
   a.hole + b.hole, a.codeFault + b.codeFault, a.flush + b.flush, a.elems + b.elems, a.finite + b.finite,
   a.poisoned || b.poisoned, a.amax.max b.amax⟩

/-- N2T bytes that held a code fault (R37). -/
def Conv.codeFaults (n : Nat) : Conv :=
  { Conv.none with flags := if n = 0 then 0 else fCodeFault, codeFault := n }

/-- The counts reach the context's counters (R65): once per element, once per byte for code faults; OVF_COUNT once per
command or tile that ends with OVF; CONV_STICKY gathers the flags. -/
def Work.countConv (x : Nat) (c : Conv) (w : Work) : Work :=
  let w := (w.bump (Obj.satCount x) c.sat).bump (Obj.nonfiniteCount x) c.nonfinite
  let w := (w.bump (Obj.poisonInCount x) c.poisonIn).bump (Obj.poisonLostCount x) c.poisonLost
  let w := (w.bump (Obj.holeCount x) c.hole).bump (Obj.codeFaultCount x) c.codeFault
  let w := (w.bump (Obj.flushCount x) c.flush).bump (Obj.convElements x) c.elems
  let w := if c.flags &&& fOvf = 0 then w else w.bump (Obj.ovfCount x) 1
  w.put (Obj.convSticky x) (w.get (Obj.convSticky x) ||| c.flags)

/-! ### The generator (R214) -/

/-- One call of mix on a 64-bit word. -/
def srMix (z : Nat) : Nat :=
  let z := z ^^^ (z >>> 31)
  let z := z * 0x8F3A5C71E2D9406B % 2 ^ 64
  let z := z ^^^ (z >>> 29)
  let z := z * 0x6B1D93E527A8C4F5 % 2 ^ 64
  z ^^^ (z >>> 32)

/-- The 16 bits of a lane. -/
def srBits (seed step d u lane : Nat) : Nat :=
  let z := srMix ((seed ^^^ step) % 2 ^ 64)
  let z := srMix (z ^^^ ((d * 2 ^ 32 + u) % 2 ^ 64))
  let z := srMix (z ^^^ (lane % 2 ^ 64))
  bits z 48 16

/-! ### The conversion descriptor (Table 02.7) -/

/-- SRC_FMT. -/
def dSrc (d : Nat) : Nat := bits d 0 4
/-- DST_FMT. -/
def dDst (d : Nat) : Nat := bits d 4 4
/-- RND. -/
def dRnd (d : Nat) : Nat := bits d 8 2
/-- GRAD. -/
def dGrad (d : Nat) : Bool := bitOf d 10
/-- Block size B of BLK. -/
def dBlk (d : Nat) : Nat := if bitOf d 11 then 64 else 32
/-- SCALE_SRC. -/
def dScaleSrc (d : Nat) : Nat := bits d 12 2
/-- TSLOT. -/
def dTslot (d : Nat) : Nat := bits d 22 10

/-- The mode a code of RND or DEF_RND names: 0 RN, 1 SR, 2 RZ. -/
def rndOf (c : Nat) : Rnd := match c with | 0 => .rn | 1 => .sr | _ => .rz

/-- The mode in force (R54, R58): SR under GRAD; RND = 3 takes the context default captured. -/
def dMode (d defRnd : Nat) : Rnd :=
  if dGrad d then .sr else if dRnd d = 3 then rndOf defRnd else rndOf (dRnd d)

end Sys2Proof.Machine
end

