-- ==== Sys2Proof/Machine/Convert.lean ====
section
/-!
DEFINITION. Sys2Proof/Machine/Convert.lean: the conversion procedure of R54, element by element and block by block, and
the packing of elements into bytes. One procedure serves every converting unit.
-/
namespace Sys2Proof.Machine

/-- How a conversion chooses the destination scale (R55). -/
inductive ScaleSrc where
  /-- σ = 1, no scale plane written. -/
  | none
  /-- Fitted per block. -/
  | block
  /-- Hoop's scale, captured. -/
  | tensor (s : Nat)
  /-- The byte at the block's place in the destination scale plane. -/
  | plane
  deriving DecidableEq, Repr

/-- Round and encode with the flags of R54's last steps. -/
def storeValue (dst : Fmt) (sigma : Option Nat) (ovf : Bool) (mode : Rnd) (rnd : Nat) (v : Dy) : Nat × Conv :=
  let xs := match sigma with | some s => scaleUp v s | none => v
  if (maxfin dst).lt xs.abs then
    (maxCode dst xs.isNeg, { Conv.none with flags := fSat ||| (if ovf then fOvf else 0), sat := 1 })
  else
    let c := encodeElem dst mode rnd xs
    if isZeroCode dst c && !v.isZero then (c, { Conv.none with flags := fFlush, flush := 1 }) else (c, Conv.none)

/-- Write the poison image of dst (R62). -/
def storePoison (dst : Fmt) : Nat × Conv :=
  (poisonCode dst,
    { Conv.none with
      flags := if poisonLost dst then fPoisonLost else 0
      poisonLost := b2n (poisonLost dst)
      poisoned := true })

/-- Store a decoded value into dst (R54): poison, infinities and finite values, with the counts of one element. -/
def storeVal (dst : Fmt) (sigma : Option Nat) (ovf : Bool) (mode : Rnd) (rnd : Nat) (v : Val) : Nat × Conv :=
  match v with
  | .nan =>
    let (c, k) := storePoison dst
    (c, (k.add { Conv.none with flags := fNonfinite ||| fPoisonIn, nonfinite := 1, poisonIn := 1, elems := 1 }))
  | .poison =>
    let (c, k) := storePoison dst
    (c, (k.add { Conv.none with flags := fPoisonIn, poisonIn := 1, elems := 1 }))
  | .inf neg => (maxCode dst neg, { Conv.none with flags := fNonfinite, nonfinite := 1, elems := 1, finite := 1 })
  | .fin d =>
    let (c, k) := storeValue dst sigma ovf mode rnd d
    (c, k.add { Conv.none with elems := 1, finite := 1, amax := d.abs })

/-- The decoded value v of R54: the element's value times its block's inverse scale. -/
def loadVal (src : Fmt) (sigmaIn : Option Nat) (c : Nat) : Val :=
  match decodeElem src c, sigmaIn with
  | .fin d, some s => .fin (scaleDown d s)
  | v, _ => v

/-- Flags and counts of reading one element code: holes (R40). -/
def loadConv (src : Fmt) (c : Nat) : Conv :=
  if isHole src c then { Conv.none with flags := fHole, hole := 1 } else Conv.none

/-- A conversion from a W32P source into a W32P destination writes the pair of R57 under RN (R46). -/
def pairMode (src dst : Fmt) (mode : Rnd) : Rnd := if src = .w32p ∧ dst = .w32p then .rn else mode

/-! ### Packing (R36, R38, Table 02.2) -/

/-- The code of element i of a linear run of bytes, by byte number. N2T elements are trit digits. -/
def elemCode (f : Fmt) (blk : Nat) (byte : Nat → Nat) (i : Nat) : Nat :=
  match f with
  | .n2t =>
    let b := byte (f.offset blk i)
    if 243 ≤ b then 1 else b / 3 ^ (i % blk % 5) % 3
  | .n4l | .n4i => bits (byte (i / 2)) (4 * (i % 2)) 4
  | _ =>
    let n := f.width / 8
    (upto n).foldl (fun a k => a + byte (i * n + k) * 2 ^ (8 * k)) 0

/-- The codes of n elements. -/
def elemCodes (f : Fmt) (blk : Nat) (byte : Nat → Nat) (n : Nat) : List Nat :=
  (upto n).map (elemCode f blk byte)

/-- N2T bytes with a code of 243 to 255 among those that hold n elements (R37). -/
def codeFaultBytes (f : Fmt) (blk : Nat) (byte : Nat → Nat) (n : Nat) : Nat :=
  match f with
  | .n2t => ((upto (f.bytes blk n)).filter (fun k => decide (243 ≤ byte k))).length
  | _ => 0

/-- The base-3 code of up to five trit digits, missing ones the zero trit. -/
def tritByte (l : List Nat) : Nat :=
  (upto 5).foldl (fun a i => a + l.getD i 1 * 3 ^ i) 0

/-- N2T digits of one block as bytes: fuel counts bytes. -/
def tritBytes : Nat → List Nat → List Nat
  | 0, _ => []
  | k + 1, l => tritByte (l.take 5) :: tritBytes k (l.drop 5)

/-- Two 4-bit elements a byte, the lower first. -/
def nibbleBytes : Nat → List Nat → List Nat
  | 0, _ => []
  | k + 1, l => (l.getD 0 0 + 16 * l.getD 1 0) :: nibbleBytes k (l.drop 2)

/-- Element codes as byte values: from a block's start for N2T, from an even element for 4-bit formats. -/
def packCodes (f : Fmt) (blk : Nat) (l : List Nat) : List Nat :=
  match f with
  | .n2t =>
    let nb := ceilDiv l.length blk
    (upto nb).flatMap (fun j => let b := (l.drop (j * blk)).take blk
                                tritBytes (ceilDiv b.length 5) b)
  | .n4l | .n4i => nibbleBytes (ceilDiv l.length 2) l
  | _ => l.flatMap (fun c => (upto (f.width / 8)).map (fun k => bits c (8 * k) 8))

/-! ### Blocks (R48, R55) -/

/-- The largest quarter-octave index n, from -128 to 127, whose scale keeps amax within maxfin; -128 when none does
(R55, n_fit of R208). k counts the candidates left, from 127 down. -/
def fitFrom (mf amax : Dy) : Nat → Int
  | 0 => -128
  | k + 1 =>
    let n : Int := (k : Int) - 128
    if (scaleUp amax (s8qOf n)).le mf then n else fitFrom mf amax k

/-- n_fit(a) for a destination. -/
def fitScale (dst : Fmt) (amax : Dy) : Int := fitFrom (maxfin dst) amax 256

/-- The scale that BLOCK chooses for the magnitudes of a block: σ = 1 for an amax of 0. -/
def blockScale (dst : Fmt) (vals : List Val) : Nat :=
  let amax := vals.foldl (fun a v => match v with | .fin d => a.max d.abs | _ => a) Dy.zero
  if amax.isZero then 0 else s8qOf (fitScale dst amax)

/-- The scale of a destination block (R55). -/
def dstScale (src : ScaleSrc) (dst : Fmt) (planeByte : Nat) (vals : List Val) : Option Nat :=
  if !dst.scaled then none else
  match src with
  | .none => some 0
  | .block => some (blockScale dst vals)
  | .tensor s => some s
  | .plane => some planeByte

/-- SCALE_SRC other than NONE into a scaled destination can overflow (R59). -/
def ovfOf (src : ScaleSrc) (dst : Fmt) : Bool := dst.scaled && src != .none

/-- A block of decoded values stored under one scale: codes and counts; `rnd i` is the generator's value of the block's
element i. -/
def storeBlock (dst : Fmt) (sigma : Option Nat) (ovf : Bool) (mode : Rnd) (rnd : Nat → Nat) (vals : List Val) :
    List Nat × Conv :=
  (vals.zipIdx).foldl (fun (acc : List Nat × Conv) p =>
    let (c, k) := storeVal dst sigma ovf mode (rnd p.2) p.1
    (acc.1 ++ [c], acc.2.add k)) ([], Conv.none)

/-- A row of decoded values stored block by block: element codes padded to whole blocks when dst is scaled (zero codes
in the missing slots, R48), the scale bytes, the counts. `plane j` is the scale byte at block j's place. -/
def storeRow (dst : Fmt) (blk : Nat) (src : ScaleSrc) (mode : Rnd) (rnd : Nat → Nat) (plane : Nat → Nat)
    (vals : List Val) : List Nat × List Nat × Conv :=
  if !dst.scaled then
    let (c, k) := storeBlock dst none false mode rnd vals
    (c, [], k)
  else
    (upto (ceilDiv vals.length blk)).foldl (fun (acc : List Nat × List Nat × Conv) j =>
      let b := (vals.drop (j * blk)).take blk
      let s := dstScale src dst (plane j) b
      let (c, k) := storeBlock dst s (ovfOf src dst) mode (fun i => rnd (j * blk + i)) b
      let pad := if dst = .n2t then 1 else 0
      (acc.1 ++ c ++ List.replicate (blk - b.length) pad, acc.2.1 ++ [s.getD 0], acc.2.2.add k)) ([], [], Conv.none)

/-- A row of element codes decoded: the values and the counts of reading. `scale j` is block j's scale byte. -/
def loadRow (src : Fmt) (blk : Nat) (scale : Nat → Nat) (codes : List Nat) : List Val × Conv :=
  let vals := codes.zipIdx.map (fun p => loadVal src (if src.scaled then some (scale (p.2 / blk)) else none) p.1)
  (vals, codes.foldl (fun k c => k.add (loadConv src c)) Conv.none)

end Sys2Proof.Machine
end

