-- ==== Sys2Proof/Machine/Hoop.lean ====
section
/-!
DEFINITION. Sys2Proof/Machine/Hoop.lean: Hoop (chapter 07): the slot records, reports, the scale update at a step
boundary, the underflow monitor, commits, images and forgotten histories.
-/
namespace Sys2Proof.Machine

/-! ### The slot record (Table 07.2) -/

/-- ALLOC. -/
def hAlloc (r : Nat) : Bool := bitOf r 0
/-- UF_MON. -/
def hUfMon (r : Nat) : Bool := bitOf r 1
/-- FIXED. -/
def hFixed (r : Nat) : Bool := bitOf r 2
/-- UF_FLOOR. -/
def hUfFloor (r : Nat) : Bool := bitOf r 3
/-- FMT. -/
def hFmt (r : Nat) : Nat := bits r 4 4
/-- HR. -/
def hHr (r : Nat) : Nat := bits r 8 5
/-- FIX_SCALE. -/
def hFixScale (r : Nat) : Nat := bits r 16 8
/-- STATE: 0 FREE, 1 PROBE, 2 READY, 3 FIXED. -/
def hState (r : Nat) : Nat := bits r 32 2
/-- LIFT. -/
def hLift (r : Nat) : Nat := bits r 34 5
/-- OVF_STEP. -/
def hOvfStep (r : Nat) : Bool := bitOf r 39
/-- HIST_N. -/
def hHistN (r : Nat) : Nat := bits r 40 5
/-- HIST_HEAD. -/
def hHistHead (r : Nat) : Nat := bits r 48 4
/-- SCALE. -/
def hScale (r : Nat) : Nat := bits r 56 8
/-- The scale a conversion into the slot uses: FIX_SCALE while the slot is FIXED, otherwise SCALE (Table 07.2). Log entry 58. -/
def hUse (r : Nat) : Nat := if hState r = 3 then hFixScale r else hScale r
/-- AMAX_CUR. -/
def hAmaxCur (r : Nat) : Nat := bits r 64 32
/-- UF_RUN. -/
def hUfRun (r : Nat) : Nat := bits r 96 16
/-- FLUSH_STEP. -/
def hFlushStep (r : Nat) : Nat := bits r 128 64
/-- ELEM_STEP. -/
def hElemStep (r : Nat) : Nat := bits r 192 64
/-- CHECK. -/
def hCheck (r : Nat) : Nat := bits r 256 32
/-- Entry i of HIST. -/
def hHist (r i : Nat) : Nat := bits r (512 + 32 * i) 32

/-- The RWC fields of a record, the others 0. -/
def hRwc (r : Nat) : Nat := bits r 0 3 + bits r 4 4 * 2 ^ 4 + bits r 8 5 * 2 ^ 8 + bits r 16 8 * 2 ^ 16
/-- The RO fields of a record but CHECK, the others 0. -/
def hRo (r : Nat) : Nat :=
  b2n (hUfFloor r) * 2 ^ 3 + bits r 32 13 * 2 ^ 32 + bits r 48 4 * 2 ^ 48 + bits r 56 56 * 2 ^ 56
    + bits r 128 128 * 2 ^ 128 + bits r 512 512 * 2 ^ 512
/-- CRC-32 over the 128 bytes with CHECK read as 0. -/
def hCrc (r : Nat) : Nat := crc32 ((leBytes (setBits r 256 32 0) 128).map BitVec.toNat)
/-- The defaults of the RWC fields (Table 07.2). -/
def hDefault : Nat := 0x0422

/-- Slot t of context x: the active RWC fields and the RO fields. -/
def Dev.hoopRec (w : Dev) (x t : Nat) : Nat := w.blobNat .active (Obj.hoopRecords x) (128 * t) 128
/-- Write slot t. -/
def Work.hoopPut (x t r : Nat) (w : Work) : Work := w.blobPut .active (Obj.hoopRecords x) (128 * t) r 128

/-- Slots of context x that hold anything but their default in a copy of HOOP_RECORDS, or in a pending image. -/
def Dev.hoopUsed (w : Dev) (x : Nat) : List Nat :=
  let ks := blobOf w.blob (Obj.hoopRecords x) ++ blobOf w.blobP (Obj.hoopRecords x) ++ blobOf w.blobP (Obj.hoopImage x)
  sortNat (ks.map (fun p => p.1 % 0x100000000 / 128))

/-- The record a read of HOOP_IMAGE returns: CHECK filled in (R223). Log entry 13. -/
def Dev.hoopImageRec (w : Dev) (x t : Nat) : Nat :=
  let r := w.hoopRec x t
  r + hCrc r * 2 ^ 256

/-! ### Clamps (R206) -/

/-- FMT clamped to a scaled format, HR to 16. -/
def hClamp (r : Nat) : Nat :=
  let r := match fmtOf (hFmt r) with
    | some f => if f.scaled then r else setBits r 4 4 2
    | none => setBits r 4 4 2
  if 16 < hHr r then setBits r 8 5 16 else r

/-- The clamps of R206 on a record at a byte offset, counted one by one. -/
def Work.hoopClamp (wr : Writer) (num off r : Nat) (w : Work) : Nat × Work :=
  let c := hClamp r
  let w := if hFmt c = hFmt r then w else w.clamped wr num (hFmt r) (hFmt c) off
  let w := if hHr c = hHr r then w else w.clamped wr num (hHr r) (hHr c) off
  (c, w)

/-! ### Reports (R207) -/

/-- A magnitude rounded up to a W32 code, at most the W32 maximum. -/
def w32Up (a : Dy) : Nat :=
  if (maxfin .w32).lt a then 0x7F7FFFFF
  else
    let c := toW32 .rz 0 a
    if (decodeW32 c).dy.lt a then c + 1 else c

/-- A unit's report at the end of a tile, recompute or command: W32 codes of magnitudes order as numbers. -/
def Work.hoopReport (x t : Nat) (k : Conv) (w : Work) : Work :=
  let r := w.hoopRec x t
  let r := setBits r 64 32 (max (hAmaxCur r) (w32Up k.amax))
  let r := setBits r 192 64 (min (hElemStep r + k.elems - k.poisonIn) (maxU 64))
  let r := setBits r 128 64 (min (hFlushStep r + k.flush) (maxU 64))
  let r := if k.flags &&& fOvf = 0 then r else setBits r 39 1 1
  w.hoopPut x t r

/-! ### The step boundary (R208, R219) -/

/-- SOURCE of Hoop's events: the Hoop of the context's home die (Table 17.15). -/
def Dev.hoopSource (w : Dev) (x : Nat) : Nat := 0x3010 + w.get (Obj.homeDie x)

/-- SCALE_HISTORY_LOST of one slot, counted (R223). -/
def Work.historyLost (x t : Nat) (w : Work) : Work :=
  (w.bump (Obj.historyLost x) 1).event 0x0404 x (w.hoopSource x) t

/-- monitor(s) of R219. -/
def Work.monitor (x t r : Nat) (w : Work) : Nat × Work :=
  let steps := w.get (Obj.ufSteps x)
  if hElemStep r = 0 then (r, w)
  else
    let r := if w.get (Obj.ufThresh x) * hElemStep r < hFlushStep r * 10000
      then setBits r 96 16 (min (hUfRun r + 1) 65535)
      else setBits (setBits r 96 16 0) 3 1 0
    if w.get (Obj.ufEnable x) = 0 ∨ hUfMon r = false then (r, w)
    else
      let w := if hUfRun r = steps then (w.bump (Obj.ufEvents x) 1).event 0x0402 x (w.hoopSource x) t else w
      if steps ≤ hUfRun r ∧ hOvfStep r = false then
        if hLift r < hHr r then (setBits r 34 5 (hLift r + 1), w)
        else if hUfFloor r = false then (setBits r 3 1 1, w.event 0x0403 x (w.hoopSource x) t)
        else (r, w)
      else (r, w)

/-- The largest of the valid history entries, the last HIST_N written before HIST_HEAD. -/
def hPeak (r : Nat) : Dy :=
  (upto (min (hHistN r) 16)).foldl (fun a i =>
    a.max (decodeW32 (hHist r ((hHistHead r + 15 - i) % 16))).dy.abs) Dy.zero

/-- The update of one allocated slot at a step boundary (R208). -/
def Work.hoopUpdate (x t : Nat) (w : Work) : Work :=
  let r := w.hoopRec x t
  if hAlloc r = false then w else
  let (r, w) :=
    if hState r = 3 then (setBits r 56 8 (hFixScale r), w)
    else
      let probed := decide (0 < hElemStep r) && hState r == 1
      let r := if 0 < hElemStep r then
          let h := hHistHead r
          let r := setBits r (512 + 32 * h) 32 (hAmaxCur r)
          let r := setBits r 48 4 ((h + 1) % 16)
          let r := setBits r 40 5 (min (hHistN r + 1) 16)
          if hState r = 1 then setBits r 32 2 2 else r
        else r
      let w := if probed then (w.bump (Obj.probedSlots x) 1).event 0x0405 x (w.hoopSource x) t else w
      let r := if hOvfStep r then setBits r 34 5 0 else r
      let (r, w) := w.monitor x t r
      let a := hPeak r
      let r := if hState r = 2 ∧ a.isZero = false then
          let f := (fmtOf (hFmt r)).getD .n8f
          let n := fitScale f a - ((hHr r : Int) - (hLift r : Int))
          setBits r 56 8 (s8qOf (max (-128) n))
        else r
      (r, w)
  let r := setBits (setBits (setBits (setBits r 64 32 0) 39 1 0) 128 64 0) 192 64 0
  w.hoopPut x t r

/-! ### Commits, images, forgets (R205, R222, R223) -/

/-- A record with HIST_N, LIFT and UF_RUN 0 in a state. -/
def hFresh (r st : Nat) : Nat := setBits (setBits (setBits (setBits r 40 5 0) 34 5 0) 96 16 0) 32 2 st

/-- What a commit of the RWC fields makes of a slot (R205). -/
def hCommit (old rwc : Nat) : Nat :=
  let r := hRo old + rwc
  if hAlloc rwc = false then rwc
  else if hAlloc old = false then hFresh r (if hFixed rwc then 3 else 1)
  else if hFixed old = false ∧ hFixed rwc = true then setBits r 32 2 3
  else if hFixed old = true ∧ hFixed rwc = false then setBits r 32 2 (if 0 < hHistN old then 2 else 1)
  else r

/-- One record of a pending image applies (R223). Log entry 13. -/
def Work.hoopImageApply (x t : Nat) (w : Work) : Work :=
  let old := w.hoopRec x t
  let rwc := hRwc (w.blobNat .pending (Obj.hoopRecords x) (128 * t) 128)
  let raw := w.blobNat .pending (Obj.hoopImage x) (128 * t) 128
  if hAlloc rwc = false then w.hoopPut x t rwc
  else if hCrc raw = hCheck raw then
    let (rwc, w) := w.hoopClamp .fw (Obj.hoopImage x) (128 * t) rwc
    if 0 < hHistN raw then w.hoopPut x t (setBits (hRo raw + rwc) 32 2 (if hFixed rwc then 3 else 2))
    else if hFixed rwc then w.hoopPut x t (setBits (hRo raw + rwc) 32 2 3)
    else (w.hoopPut x t (hFresh (hRo old + rwc) 1)).historyLost x t
  else
    let keep := if hAlloc old then hRwc old else setBit hDefault 0 true
    (w.hoopPut x t (hFresh (hRo old + keep) 1)).historyLost x t

/-- The staged RWC fields read the RWC fields that the slots then hold (R205); a staged image is no more. -/
def Work.hoopRestage (x : Nat) (w : Work) : Work :=
  let ts := sortNat (w.hoopUsed x ++ (blobOf w.blobS (Obj.hoopRecords x)).map (fun p => p.1 % 0x100000000 / 128))
  let w := ts.foldl (fun w t => w.blobPut .staged (Obj.hoopRecords x) (128 * t) (hRwc (w.hoopRec x t)) 128) w
  { w with hoop := { w.hoop with imgS := w.hoop.imgS.filter (fun y => y != x) } }

/-- HOOP_COMMIT_APPLY: a pending commit of context x applies. -/
def Work.hoopApply (x : Nat) (w : Work) : Work :=
  if w.get (Obj.hoopCommit x) = 0 then w else
  let img := w.hoop.imgP.contains x
  let w := (w.hoopUsed x).foldl (fun w t =>
    if img then w.hoopImageApply x t
    else w.hoopPut x t (hCommit (w.hoopRec x t) (hRwc (w.blobNat .pending (Obj.hoopRecords x) (128 * t) 128)))) w
  let staged := w.hoop.imgS.contains x
  let w := { w with hoop := { w.hoop with imgP := w.hoop.imgP.filter (fun y => y != x) } }
  let w := if staged then w else w.hoopRestage x
  w.put (Obj.hoopCommit x) 0

/-- A write of 1 to HOOP_COMMIT (R205, R497): the staged set becomes pending, its image mark with it, and no longer
stages an image; at once in force while the context is OFF. Log entry 13. -/
def Work.hoopCommit (x : Nat) (w : Work) : Work :=
  let w := w.groupToPend [] [Obj.hoopRecords x, Obj.hoopImage x]
  let img := w.hoop.imgS.contains x
  let w := { w with hoop := { w.hoop with
    imgP := if img then x :: w.hoop.imgP.filter (fun y => y != x) else w.hoop.imgP.filter (fun y => y != x)
    imgS := w.hoop.imgS.filter (fun y => y != x) } }
  let w := w.put (Obj.hoopCommit x) 1
  if w.get (Obj.ctxState x) = 0 then w.hoopApply x else w

/-- The history of one slot is forgotten (Table 07.5). -/
def Work.hoopForgetSlot (x t : Nat) (w : Work) : Work :=
  let r := w.hoopRec x t
  if hAlloc r then
    let fixed := hState r == 3
    let r := setBits (hFresh r (if fixed then 3 else 1)) 48 4 0
    let r := setBits r 512 512 0
    let w := w.hoopPut x t r
    if fixed then w else w.bump (Obj.historyLost x) 1
  else w

/-- HOOP_FORGET_APPLY: after the update of the boundary. -/
def Work.hoopForgets (x : Nat) (w : Work) : Work :=
  let mine := w.hoop.forget.filter (fun p => p.1 == x)
  let w := { w with hoop := { w.hoop with forget := w.hoop.forget.filter (fun p => p.1 != x) } }
  mine.foldl (fun w p =>
    if p.2 = 0xFFFF then
      ((w.hoopUsed x).foldl (fun w t => w.hoopForgetSlot x t) w).event 0x0404 x (w.hoopSource x) 0xFFFFFFFF
    else if hAlloc (w.hoopRec x p.2) then (w.hoopForgetSlot x p.2).event 0x0404 x (w.hoopSource x) p.2
    else w) w

/-- Hoop's part of a step boundary: commit, update in ascending slot number, forgets. -/
def Work.hoopBoundary (x : Nat) (w : Work) : Work :=
  let w := w.hoopApply x
  let w := (w.hoopUsed x).foldl (fun w t => w.hoopUpdate x t) w
  w.hoopForgets x

/-- A write of bytes to HOOP_RECORDS stages RWC fields, clamped (R205, R206). -/
def Work.hoopStage (wr : Writer) (x off v len : Nat) (w : Work) : Work :=
  let num := Obj.hoopRecords x
  let w := w.blobPut .staged num off v len
  forUpto (fun i w =>
    let t := off / 128 + i
    let r := hRwc (w.blobNat .staged num (128 * t) 128)
    let (r, w) := w.hoopClamp wr num (128 * t) r
    w.blobPut .staged num (128 * t) r 128) ((off + len + 127) / 128 - off / 128) w

/-- A write of bytes to HOOP_IMAGE (R205): the first one takes the context's present image as its ground, so that an
image written piece by piece is whole (log entry 13). -/
def Work.hoopStageImage (x off v len : Nat) (w : Work) : Work :=
  let num := Obj.hoopImage x
  let w := if w.hoop.imgS.contains x then w
    else
      let w := { w with blobS := w.blobS.filter (fun p => p.1 / 0x100000000 != num) }
      let w := (w.hoopUsed x).foldl (fun w t => w.blobPut .staged num (128 * t) (w.hoopImageRec x t) 128) w
      { w with hoop := { w.hoop with imgS := x :: w.hoop.imgS } }
  let w := w.blobPut .staged num off v len
  forUpto (fun i w =>
    let t := off / 128 + i
    w.blobPut .staged (Obj.hoopRecords x) (128 * t) (hRwc (w.blobNat .staged num (128 * t) 128)) 128)
    ((off + len + 127) / 128 - off / 128) w

/-! ### Conversions that name a slot -/

/-- The slot may be named by a conversion (R51). -/
def Dev.slotOk (w : Dev) (x t : Nat) : Bool := hAlloc (w.hoopRec x t)

/-- The scale source of a command's conversion with SCALE_SRC = TENSOR: the slot's scale, or BLOCK in PROBE (R221). -/
def Dev.tensorScale (w : Dev) (x t : Nat) : ScaleSrc :=
  let r := w.hoopRec x t
  if hState r = 1 then .block else .tensor (hUse r)

/-- The captured scale source a conversion descriptor asks for. -/
def Dev.scaleSrcOf (w : Dev) (x d : Nat) : ScaleSrc :=
  match dScaleSrc d with
  | 0 => .none
  | 1 => .block
  | 2 => w.tensorScale x (dTslot d)
  | _ => .plane

end Sys2Proof.Machine
end

