-- ==== Sys2Proof/Machine/Peers.lean ====
section
/-!
DEFINITION. Sys2Proof/Machine/Peers.lean: peer entries, messages handed to Exbaene, and the restore of mirror shards as far
as a context's completions drive it (R430).
-/
namespace Sys2Proof.Machine

/-! ### Peer entries (Table 11.10) -/

/-- Entry n of the peer table in force. -/
def Dev.peer (w : Dev) (n : Nat) : Nat := w.blobNat .active Obj.peerTable (64 * n) 64
/-- VALID. -/
def pValid (e : Nat) : Bool := bitOf e 0
/-- LCTX. -/
def pLctx (e : Nat) : Nat := bits e 4 4
/-- RCTX. -/
def pRctx (e : Nat) : Nat := bits e 8 4
/-- RANK. -/
def pRank (e : Nat) : Nat := bits e 12 20
/-- JOB. -/
def pJob (e : Nat) : Nat := bits e 32 32
/-- PORT_MASK. -/
def pMask (e : Nat) : Nat := bits e 64 8
/-- RPORT. -/
def pRport (e : Nat) : Nat := bits e 72 16
/-- ADDR, the first byte of the object's 16 the highest: an address as the wire orders it. -/
def pAddr (e : Nat) : Nat := beNat ((leBytes (bits e 128 128) 16).map BitVec.toNat)
/-- KEY_DIGEST, as a big-endian number. -/
def pDigest (e : Nat) : Nat := beNat ((leBytes (bits e 256 256) 32).map BitVec.toNat)
/-- An entry's context of this device. -/
def Dev.lctx (w : Dev) (n : Nat) : Nat := pLctx (w.peer n)

/-- State of entry n (Table 11.11). -/
def Dev.peerSt (w : Dev) (n : Nat) : Nat := bits (w.blobNat .active Obj.peerState n 1) 0 3
/-- Last reason of entry n (Table 11.12). -/
def Dev.peerWhy (w : Dev) (n : Nat) : Nat := bits (w.blobNat .active Obj.peerState n 1) 3 5
/-- The session of entry n. -/
def Dev.sess? (w : Dev) (n : Nat) : Option Sess := w.net.sess.find? (fun s => s.n == n)

/-- Change the network's state. -/
def Work.setNet (f : NetState → NetState) (w : Work) : Work := { w with net := f w.net }

/-! ### Messages -/

/-- Hand a message to the session of entry n. -/
def Work.queueMsg (m : TxMsg) (w : Work) : Work := w.setNet (fun t => { t with msgs := t.msgs ++ [m] })

/-- A message of bytes. -/
def msgOf (n key user ref tag : Nat) (data : List Byte) : TxMsg :=
  ⟨n, none, key, data.length, user, ref, tag, data, [], 0, 0, none⟩


/-! ### Restores (R430) -/

/-- Change the state of Pairing. -/
def Work.setPair (f : PairState → PairState) (w : Work) : Work := { w with pair := f w.pair }
/-- The restore of context x. -/
def Dev.restore? (w : Dev) (x : Nat) : Option Restore := w.pair.restores.find? (fun r => r.ctx == x)
/-- Change the restore of context x. -/
def Work.mapRestore (x : Nat) (f : Restore → Restore) (w : Work) : Work :=
  w.setPair (fun p => { p with restores := p.restores.map (fun r => if r.ctx = x then f r else r) })
/-- Change a shard of a restore. -/
def Work.mapRest (x s : Nat) (f : RestShard → RestShard) (w : Work) : Work :=
  w.mapRestore x (fun r => { r with shards := r.shards.map (fun t => if t.s = s then f t else t) })

/-- The KEY of a Pairing message (Table 14.3): kind, chunk, shard id. -/
def pairKey (kind chunk id : Nat) : Nat := 0xFFE0 * 2 ^ 48 + kind * 2 ^ 44 + chunk % 256 * 2 ^ 32 + id % 2 ^ 32

/-- Ask the partner for the shards in ascending order, one after the other's first answer; a shard whose partner has no OPEN
session has no copy there. -/
def Work.restoreAsk (x : Nat) : Nat → Work → Work
  | 0, w => w
  | k + 1, w =>
    match w.restore? x with
    | none => w
    | some r =>
      if !r.ready || r.shards.any (fun t => t.asked && !t.answered) then w else
      match r.shards.find? (fun t => !t.asked) with
      | none => w
      | some t =>
        let n := w.get (Obj.mirPeer x t.s)
        if w.peerSt n = 3 then
          let id := w.get (Obj.mirId x t.s)
          let body := id % 2 ^ 32 + w.get (Obj.restoreRank x) % 2 ^ 32 * 2 ^ 32 + w.get (Obj.restoreMaxStep x) % 2 ^ 64 * 2 ^ 64
            + w.get (Obj.ownJob x) % 2 ^ 32 * 2 ^ 128 + x * 2 ^ 160
          (w.mapRest x t.s (fun t => { t with asked := true })).queueMsg (msgOf n (pairKey 2 0 id) 3 (16 * x + t.s) 3 (leBytes body 64))
        else Work.restoreAsk x k (w.mapRest x t.s (fun t => { t with asked := true, answered := true }))

/-- A restore in HOLDING goes on to FETCHING once nothing of its context is in flight. Log entry 50. -/
def Work.restoreStep (x : Nat) (w : Work) : Work :=
  match w.restore? x with
  | some r =>
    if r.ready || w.q.cmds.any (fun c => c.ctx == x) || w.bob.streams.any (fun t => t.ctx == x && t.cap.isSome) then w
    else ((w.mapRestore x (fun r => { r with ready := true })).put (Obj.restoreState x) 2).restoreAsk x 17
  | none => w

end Sys2Proof.Machine
end

