-- ==== Sys2Proof/Machine/Queues.lean ====
section
/-!
DEFINITION. Sys2Proof/Machine/Queues.lean: completion records (R88 to R90), faults (R107) and interrupts (R109).
-/
namespace Sys2Proof.Machine

/-! ### Completion records -/

/-- Record slots of a queue's ring that are free (R87). Log entry 18. -/
def Dev.cqFree (w : Dev) (x q : Nat) : Nat :=
  2 ^ w.get (Obj.cqLog2 x q) - (w.get (Obj.cqTail x q) + 2 ^ 32 - w.get (Obj.cqHead x q)) % 2 ^ 32

/-- Slots that commands in flight and patterns that have wholly started hold (R87). Log entry 18. -/
def Dev.reserved (w : Dev) (x q : Nat) : Nat :=
  w.inflight x q + (w.q.pats.filter (fun p => p.ctx == x && p.q == q && decide (p.ncmd ≤ p.next))).length

/-- The fields of Table 03.6 but PHASE and TIME, which the posting gives. -/
def mkRecord (status conv : Nat) (pattern late : Bool) (epoch : Option Nat) (q x tag idx r1 r2 detail : Nat) : Nat :=
  status % 2 ^ 16 + (conv % 2 ^ 8) * 2 ^ 16 + b2n pattern * 2 ^ 24 + b2n late * 2 ^ 25 + b2n epoch.isSome * 2 ^ 26
    + q * 2 ^ 28 + x * 2 ^ 32 + (tag % 2 ^ 16) * 2 ^ 48 + (idx % 2 ^ 16) * 2 ^ 64 + (min r1 0xFFFF) * 2 ^ 80
    + (min r2 0xFFFF) * 2 ^ 96 + (epoch.getD 0 % 2 ^ 32) * 2 ^ 192 + (detail % 2 ^ 32) * 2 ^ 224

/-- Write record i of a queue's ring (R89): as one 32-byte write, PHASE from the ring's pass, TIME the moment of the
write; raise the queue's vector when asked and enabled (R109). The status of the ring's translation when it fails. -/
def Work.postRecord (x q recd : Nat) (irq : Bool) (w : Work) : Work × Option (Nat × Nat) :=
  let i := w.get (Obj.cqTail x q)
  let n := 2 ^ w.get (Obj.cqLog2 x q)
  let addr := w.get (Obj.cqBase x q) + 32 * (i % n)
  match w.xlate x (w.bindSegs x none none (w.segNow x)) addr 32 .write with
  | .ok a =>
    let phase := 1 - (i / n) % 2
    let v := recd + phase * 2 ^ 31 + (w.time % 2 ^ 64) * 2 ^ 128
    let w := (w.writeNat a v 32).put (Obj.cqTail x q) ((i + 1) % 2 ^ 32)
    (if irq && bitOf (w.get (Obj.irqEn x q)) 0 then w.raise x q else w, none)
  | .error e => (w, some e)

/-- A fault of a queue (R107): HALTED, the fault objects, FAULT_COUNT, QUEUE_HALTED, and with FAULT_SCOPE CONTEXT the
context HALTED as well (R78), which logs CONTEXT_HALTED and raises vector 5. -/
def Work.haltQueue (x q status detail : Nat) (w : Work) : Work :=
  let w := w.put (Obj.qState x q) 2
  let w := ((w.put (Obj.faultStatus x) status).put (Obj.faultQueue x) q).put (Obj.faultDetail x) (detail % 2 ^ 32)
  let w := (w.bump (Obj.faultCount x) 1).event 0x0204 x 0x200C (status * 2 ^ 16 + q)
  if w.get (Obj.faultScope x) = 1 ∧ w.get (Obj.ctxState x) = 1 then
    ((w.put (Obj.ctxState x) 2).event 0x0205 x 0x200C (status * 2 ^ 16 + q)).raise x 5
  else w

/-- Post a record that holds a reserved slot; a ring that fails translation halts the queue (R107). Log entry 18. -/
def Work.postOrHalt (x q recd : Nat) (irq : Bool) (w : Work) : Work :=
  match w.postRecord x q recd irq with
  | (w, none) => w
  | (w, some (st, d)) => w.haltQueue x q st d

/-- Post the owed records of a queue while its ring has slots that no command holds. Log entry 18. -/
def Work.payOwed (x q : Nat) : Nat → Work → Work
  | 0, w => w
  | k + 1, w =>
    match w.q.owed.find? (fun o => o.ctx == x && o.q == q) with
    | some o =>
      if w.reserved x q < w.cqFree x q then
        let w := { w with q := { w.q with owed := w.q.owed.erase o } }
        Work.payOwed x q k (w.postOrHalt x q o.recd o.irq)
      else w
    | none => w

/-- Post a record that has reserved no slot: at once when the ring has a free one, otherwise when one becomes free
(no record is ever lost, R87). Log entry 18. -/
def Work.postOwed (x q recd : Nat) (irq : Bool) (w : Work) : Work :=
  let w := { w with q := { w.q with owed := w.q.owed ++ [Owed.mk x q recd irq] } }
  w.payOwed x q w.q.owed.length

/-- now = ⌊device time / 1,000 ns⌋ mod 2^32 lies past a DEADLINE (R85). Log entry 19. -/
def Dev.lapsed (w : Dev) (deadline : Nat) : Bool :=
  let d := ((w.time / 1000) % 2 ^ 32 + 2 ^ 32 - deadline) % 2 ^ 32
  deadline != 0 && decide (1 ≤ d) && decide (d ≤ 2 ^ 31 - 1)

/-- The record of a pattern (R90): LATE when it posts after the deadline. A pattern cut by FLUSH without a fault is CANCELLED
with the number of its commands discarded (R108). Log entry 19. -/
def Dev.patternRecord (w : Dev) (p : Pattern) : Nat :=
  if p.isCut ∧ isFault p.status = false then
    mkRecord 0x0201 p.conv true (w.lapsed p.deadline) p.epoch p.q p.ctx p.tag (p.ncmd - 1) p.r1 p.r2 p.cut
  else
  mkRecord p.status p.conv true (w.lapsed p.deadline) p.epoch p.q p.ctx p.tag (p.ncmd - 1) p.r1 p.r2 p.detail

/-- A pattern leaves: it lets go of what it holds. -/
def Work.dropPattern (p : Pattern) (w : Work) : Work :=
  let w := w.setPats (w.q.pats.filter (fun r => r.pid != p.pid))
  (w.dropSlot p.slot).dropAdd p.ctx p.addSel

/-- No command of the pattern is in flight and none will start. -/
def Dev.patternOver (w : Dev) (p : Pattern) : Bool :=
  (p.isCut || decide (p.ncmd ≤ p.next)) && !w.q.cmds.any (fun c => c.pid == p.pid)

/-- The unstarted patterns of a queue are discarded unread: one CANCELLED record, SQ_HEAD = SQ_TAIL (R108). -/
def Work.flushRest (x q : Nat) (w : Work) : Work :=
  let n := (w.get (Obj.sqTail x q) + 2 ^ 32 - w.get (Obj.sqHead x q)) % 2 ^ 32
  let w := w.put (Obj.sqHead x q) (w.get (Obj.sqTail x q))
  let w := { w with q := { w.q with flushing := w.q.flushing.filter (fun f => f != (x, q)) } }
  if n = 0 then w else w.postOwed x q (mkRecord 0x0201 0 true false none q x 0 0 0 0 n) false

/-- Post the record of a pattern that is over, and let it go (R88 step 4); a cut pattern has reserved no slot. -/
def Work.closePattern (pid : Nat) (w : Work) : Work × Option (Nat × Nat) :=
  match w.pat? pid with
  | some p =>
    if w.patternOver p then
      let r := w.patternRecord p
      let irq := p.pirq || isFault p.status
      let w := w.dropPattern p
      if p.isCut then
        let w := w.postOwed p.ctx p.q r irq
        (if w.q.flushing.contains (p.ctx, p.q) then w.flushRest p.ctx p.q else w, none)
      else w.postRecord p.ctx p.q r irq
    else (w, none)
  | none => (w, none)

/-- A pattern learns how one of its commands ended (R90). -/
def Pattern.learn (p : Pattern) (d : Done) : Pattern :=
  { p with
    ended := p.ended + 1
    status := if p.status = 0 then d.status else p.status
    detail := if p.status = 0 then d.detail else p.detail
    conv := p.conv ||| d.conv
    r1 := min (p.r1 + d.r1) 0xFFFF
    r2 := min (p.r2 + d.r2) 0xFFFF }

/-- Steps 2 to 5 of R88 for a command that has left flight, and the fault of R107. -/
def Work.reportEnd (x q pid idx raw : Nat) (d : Done) (w : Work) : Work :=
  let w := w.bump (Obj.cmdDone x q) 1
  let w := if cSignal raw && !isFault d.status then w.evtAdd x (cSevt raw) 1 else w
  let (tag, ep) := match w.pat? pid with | some p => (p.tag, p.epoch) | none => (0, none)
  let (w, e1) :=
    if cCr raw || d.status != 0 then
      w.postRecord x q (mkRecord d.status d.conv false false ep q x tag idx d.r1 d.r2 d.detail)
        (cIrq raw || isFault d.status)
    else (w, none)
  let (w, e2) := (w.mapPat pid (fun p => p.learn d)).closePattern pid
  let w := match e1, e2 with
    | some (st, dt), _ => w.haltQueue x q st dt
    | none, some (st, dt) => w.haltQueue x q st dt
    | none, none => if isFault d.status then w.haltQueue x q d.status d.detail else w
  w.payOwed x q w.q.owed.length

/-- A spill or fill in HOLDING goes to COPYING once nothing of its context is in flight (R297). -/
def Work.spillStep (x : Nat) (w : Work) : Work :=
  if w.ext.spills.any (fun s => s.ctx == x && !s.copying) && !w.q.cmds.any (fun c => c.ctx == x)
      && !w.bob.streams.any (fun t => t.ctx == x && t.cap.isSome) then
    ((w.setSpills (w.ext.spills.map (fun (s : Spill) => if s.ctx = x then { s with copying := true } else s))).put
      (Obj.spillState x) 2).growStep.restoreStep x
  else w.growStep.restoreStep x

/-- A command in flight completes (R88): it leaves flight, lets go of the image and addition it holds, and its end is
reported. -/
def Work.complete (c : Cmd) (d : Done) (w : Work) : Work :=
  let w := w.setCmds (w.q.cmds.filter (fun r => r.id != c.id))
  let w := ((w.dropSlot c.slot).dropAdd c.ctx c.add).ctxProgress c.ctx
  (w.reportEnd c.ctx c.q c.pid c.idx c.raw d).spillStep c.ctx

/-- The fault of a transfer outside any command (R253, R255): the queue halts and no record is written. -/
def Work.faultNoRecord (x q status detail : Nat) (w : Work) : Work := w.haltQueue x q status detail

end Sys2Proof.Machine
end

