-- ==== Sys2Proof/Machine/Copy.lean ====
section
/-!
DEFINITION. Sys2Proof/Machine/Copy.lean: the work of a COPY and of a COPY stream's transfer: checks in the order of R570,
rows, scale planes, pack regions (R255 to R258), and the writes.
-/
namespace Sys2Proof.Machine

/-- A COPY to be done: its fields, the table and the values it captured, the generator's d and u (Table 07.4). -/
structure CopyJob where
  x : Nat
  src : Nat
  dst : Nat
  ss : Nat
  ds : Nat
  conv : Nat
  count : Nat
  rows : Nat
  sstr : Nat
  dstr : Nat
  segs : List (Nat × Nat)
  seed : Nat
  step : Nat
  rnd : Nat
  gd : Nat
  gu : Nat
  deriving DecidableEq, Repr

/-- The lowest bit of each field in the structure that carries it: Table 03.10 or Table 08.6. Log entry 14. -/
structure CopyBits where
  src : Nat
  dst : Nat
  ss : Nat
  ds : Nat
  conv : Nat
  count : Nat
  rows : Nat
  sstr : Nat
  dstr : Nat
  deriving DecidableEq, Repr

/-- Fields of a command (Table 03.10). Log entry 14. -/
def cmdBits : CopyBits := ⟨128, 176, 224, 272, 320, 352, 384, 400, 432⟩
/-- Fields of a stream descriptor (Table 08.6). Log entry 14. -/
def streamBits : CopyBits := ⟨64, 112, 64, 112, 256, 288, 320, 336, 368⟩

/-- The job of a COPY command. -/
def Dev.copyJob (w : Dev) (c : Cmd) : CopyJob :=
  let tag := match w.pat? c.pid with | some p => p.tag | none => 0
  ⟨c.ctx, bSrc c.raw, bDst c.raw, bSscale c.raw, bDscale c.raw, bConv c.raw, bCount c.raw, bRows c.raw, bSstride c.raw,
   bDstride c.raw, c.segs, c.seed, c.step, c.rnd, 1, (tag * 65536 + c.idx) % 2 ^ 32⟩

/-! ### Conversion descriptors (R51) -/

/-- FORMAT_INVALID for a conversion descriptor at bit `base` of a command, none when it is legal; `ieee` allows B32 and
B64 (a Bobbin copy). The DETAIL is the lowest bit of the offending field within the command (log entry 14). -/
def Dev.convCheck (w : Dev) (x d base : Nat) (ieee : Bool) : Option (Nat × Nat) :=
  match fmtOf (dSrc d), fmtOf (dDst d) with
  | none, _ => some (0x0410, base)
  | _, none => some (0x0410, base + 4)
  | some s, some t =>
    if (s = .raw) ≠ (t = .raw) then some (0x0410, base)
    else if ieee = false ∧ (s = .b32 ∨ s = .b64) then some (0x0410, base)
    else if ieee = false ∧ (t = .b32 ∨ t = .b64) then some (0x0410, base + 4)
    else if dScaleSrc d ≠ 0 ∧ t.scaled = false then some (0x0410, base + 12)
    else if dScaleSrc d = 2 ∧ w.slotOk x (dTslot d) = false then some (0x0410, base + 22)
    else none

/-- Source format of a legal descriptor. -/
def cSrcFmt (d : Nat) : Fmt := (fmtOf (dSrc d)).getD .raw
/-- Destination format of a legal descriptor. -/
def cDstFmt (d : Nat) : Fmt := (fmtOf (dDst d)).getD .raw

/-! ### Pack regions (R255) -/

/-- The pack region of context x that holds a context address. -/
def Dev.packAt (w : Dev) (x a : Nat) : Option Nat :=
  [0, 1, 2, 3].find? (fun r =>
    let b := w.get (Obj.packBase x r)
    b != 0 && decide (b ≤ a) && decide (a < b + w.get (Obj.packLen x r)))

/-- Bytes of one slot of region r. -/
def Dev.packSlot (w : Dev) (x r : Nat) : Nat := 32 * w.get (Obj.packS x r)

/-- The checks of R256 on a packed side that starts at `start` with rows `stride` apart. -/
def Dev.packSide (w : Dev) (j : CopyJob) (r start stride fStart fStride fConv fmt : Nat) : Option (Nat × Nat) :=
  let slot := w.packSlot j.x r
  let base := w.get (Obj.packBase j.x r)
  let row := ceilDiv j.count 128 * slot
  if fmt ≠ w.get (Obj.packFmt j.x r) ∨ dBlk j.conv ≠ 32 then some (0x0211, fConv)
  else if (start - base) % slot ≠ 0 then some (0x0211, fStart)
  else if stride % slot ≠ 0 then some (0x0211, fStride)
  else if base + w.get (Obj.packLen j.x r) < start + (j.rows - 1) * stride + row then some (0x0211, fStart)
  else none

/-- R256 for a job: none when neither side is packed or all is well. -/
def Dev.packCheck (w : Dev) (j : CopyJob) (b : CopyBits) : Option (Nat × Nat) :=
  match w.packAt j.x j.src, w.packAt j.x j.dst with
  | some _, some _ => some (0x0211, b.src)
  | some r, none => w.packSide j r j.src j.sstr b.src b.sstr b.conv (dSrc j.conv)
  | none, some r =>
    if dScaleSrc j.conv = 0 then some (0x0211, b.conv)
    else w.packSide j r j.dst j.dstr b.dst b.dstr b.conv (dDst j.conv)
  | none, none => none

/-! ### Ranges (R28, R95) -/

/-- Elements of one destination row with the padding slots of its last block (R95). -/
def CopyJob.dstElems (j : CopyJob) : Nat :=
  if (cDstFmt j.conv).scaled then ceilDiv j.count (dBlk j.conv) * dBlk j.conv else j.count
/-- Blocks of one row. -/
def CopyJob.blocks (j : CopyJob) : Nat := ceilDiv j.count (dBlk j.conv)
/-- Bytes of one source row. -/
def Dev.srcRow (w : Dev) (j : CopyJob) : Nat :=
  match w.packAt j.x j.src with
  | some r => ceilDiv j.count 128 * w.packSlot j.x r
  | none => (cSrcFmt j.conv).bytes (dBlk j.conv) j.count
/-- Bytes of one destination row. -/
def Dev.dstRow (w : Dev) (j : CopyJob) : Nat :=
  match w.packAt j.x j.dst with
  | some r => ceilDiv j.count 128 * w.packSlot j.x r
  | none => (cDstFmt j.conv).bytes (dBlk j.conv) j.dstElems
/-- The source takes a scale plane. -/
def Dev.srcPlane (w : Dev) (j : CopyJob) : Bool := (cSrcFmt j.conv).scaled && (w.packAt j.x j.src).isNone
/-- The destination takes a scale plane: none with SCALE_SRC NONE. -/
def Dev.dstPlane (w : Dev) (j : CopyJob) : Bool :=
  (cDstFmt j.conv).scaled && (w.packAt j.x j.dst).isNone && dScaleSrc j.conv != 0

/-- A context address 48 bits wide. -/
def addr48 (a : Nat) : Nat := a % 2 ^ 48

/-- Device addresses of the rows of one side. -/
def Dev.rowAddrs (w : Dev) (j : CopyJob) (start stride size : Nat) (k : Access) : Nat → Except (Nat × Nat) (List Nat)
  | 0 => .ok []
  | n + 1 =>
    match Dev.rowAddrs w j start stride size k n with
    | .error e => .error e
    | .ok l =>
      match w.xlate j.x j.segs (addr48 (start + n * stride)) size k with
      | .ok a => .ok (l ++ [a])
      | .error e => .error e

/-- The translated ranges of a job. -/
structure CopyAddrs where
  src : List Nat
  dst : List Nat
  ss : Nat
  ds : Nat
  deriving DecidableEq, Repr

/-- Translation of every range as a whole: source rows, destination rows, source plane, destination plane. The kind of
access to the destination plane is a write unless SCALE_SRC is PLANE (R55). -/
def Dev.copyAddrs (w : Dev) (j : CopyJob) : Except (Nat × Nat) CopyAddrs :=
  match w.rowAddrs j j.src j.sstr (w.srcRow j) .read j.rows with
  | .error e => .error e
  | .ok s =>
    match w.rowAddrs j j.dst j.dstr (w.dstRow j) .write j.rows with
    | .error e => .error e
    | .ok d =>
      let n := j.rows * j.blocks
      let ss := if w.srcPlane j then w.xlate j.x j.segs j.ss n .read else .ok 0
      let ds := if w.dstPlane j then w.xlate j.x j.segs j.ds n (if dScaleSrc j.conv = 3 then .read else .write) else .ok 0
      match ss, ds with
      | .error e, _ => .error e
      | _, .error e => .error e
      | .ok a, .ok b => .ok ⟨s, d, a, b⟩

/-- Two byte ranges overlap. -/
def overlap (a b : Nat × Nat) : Bool := decide (a.1 ≤ b.2) && decide (b.1 ≤ a.2)

/-- The hulls of each side (R95): first byte to last byte. -/
def Dev.hullsMeet (w : Dev) (j : CopyJob) (a : CopyAddrs) : Bool :=
  let n := j.rows * j.blocks
  let s := (a.src.getD 0 0, a.src.getD (j.rows - 1) 0 + w.srcRow j - 1)
    :: (if w.srcPlane j then [(a.ss, a.ss + n - 1)] else [])
  let d := (a.dst.getD 0 0, a.dst.getD (j.rows - 1) 0 + w.dstRow j - 1)
    :: (if w.dstPlane j then [(a.ds, a.ds + n - 1)] else [])
  s.any (fun p => d.any (fun q => overlap p q))

/-- Steps 2 to 4 of R570 for a copy: fields, conversion descriptor, pack regions. Log entry 14. -/
def Dev.copyFields (w : Dev) (j : CopyJob) (b : CopyBits) : Option (Nat × Nat) :=
  if j.count = 0 then some (0x0211, b.count)
  else if j.rows = 0 then some (0x0211, b.rows)
  else match w.convCheck j.x j.conv b.conv true with
    | some e => some e
    | none => w.packCheck j b

/-- Every check of a copy, in the order of R570: none when it may run. -/
def Dev.copyCheck (w : Dev) (j : CopyJob) (b : CopyBits) : Option (Nat × Nat) :=
  match w.copyFields j b with
  | some e => some e
  | none =>
    match w.copyAddrs j with
    | .error e => some e
    | .ok a => if w.hullsMeet j a then some (0x0211, b.dst) else none

/-! ### Packing one granule (R257, R258) -/

/-- A candidate of a granule: element, code, whether it is poison, decoded magnitude. -/
structure Cand where
  i : Nat
  code : Nat
  bad : Bool
  mag : Dy
  deriving DecidableEq, Repr

/-- Candidate a ranks above candidate b: poison first, then magnitude, then the lower index. -/
def Cand.above (a b : Cand) : Bool :=
  if a.bad ≠ b.bad then a.bad
  else if !a.bad && b.mag.lt a.mag then true
  else if !a.bad && a.mag.lt b.mag then false
  else decide (a.i < b.i)

/-- Insert a candidate into a ranking. -/
def rankIn (c : Cand) : List Cand → List Cand
  | [] => [c]
  | a :: r => if c.above a then c :: a :: r else a :: rankIn c r

/-- The bytes of one slot from the granule's codes and block scales, with the number dropped and whether a dropped code
was poison. -/
def packGranule (fmt : Fmt) (slot : Nat) (codes scales : List Nat) : List Nat × Nat × Bool :=
  let room := slot - 20
  let cands := codes.zipIdx.filterMap (fun p =>
    if p.1 = 0 then none
    else some (Cand.mk p.2 p.1 (p.1 == 0x80) (loadVal fmt (some (scales.getD (p.2 / 32) 0)) p.1).dy.abs))
  let ranked := cands.foldl (fun l c => rankIn c l) []
  let kept := ranked.take room
  let gone := ranked.drop room
  let idx := sortNat (kept.map (fun c => c.i))
  let mask := idx.foldl (fun m i => m + 2 ^ i) 0
  let stored := idx.map (fun i => codes.getD i 0)
  ((leBytes mask 16).map BitVec.toNat ++ scales ++ stored ++ List.replicate (room - stored.length) 0,
   gone.length, gone.any (fun c => c.bad))

/-- The codes of a granule from its slot's bytes. -/
def unpackGranule (byte : Nat → Nat) : List Nat :=
  let mask := (upto 16).foldl (fun m k => m + byte k * 2 ^ (8 * k)) 0
  ((upto 128).foldl (fun (acc : List Nat × Nat) i =>
    if bitOf mask i then (acc.1 ++ [byte (20 + acc.2)], acc.2 + 1) else (acc.1 ++ [0], acc.2)) ([], 0)).1

/-! ### Rows -/

/-- The values of row r, with the counts of reading it. -/
def Work.copyLoad (j : CopyJob) (a : CopyAddrs) (r : Nat) (w : Work) : List Val × Conv :=
  let base := a.src.getD r 0
  let byte := fun k => (w.byte (base + k)).toNat
  let blk := dBlk j.conv
  match w.packAt j.x j.src with
  | some p =>
    let slot := w.packSlot j.x p
    let gs := (upto (ceilDiv j.count 128)).map (fun g =>
      let b := fun k => byte (g * slot + k)
      loadRow (cSrcFmt j.conv) 32 (fun i => b (16 + i)) ((unpackGranule b).take (j.count - 128 * g)))
    (gs.flatMap (fun g => g.1), gs.foldl (fun k g => k.add g.2) Conv.none)
  | none =>
    let f := cSrcFmt j.conv
    let (v, k) := loadRow f blk (fun i => (w.byte (a.ss + r * j.blocks + i)).toNat) (elemCodes f blk byte j.count)
    (v, k.add (Conv.codeFaults (codeFaultBytes f blk byte j.count)))

/-- One packed granule of row r: its slot's bytes, what was dropped, and the counts. -/
def Work.packOne (j : CopyJob) (slot base r g : Nat) (src : ScaleSrc) (vals : List Val) (w : Work) :
    List Nat × Nat × Bool × Conv :=
  let fmt := cDstFmt j.conv
  let mode := pairMode (cSrcFmt j.conv) fmt (dMode j.conv j.rnd)
  let v := (vals.drop (128 * g)).take 128
  let (codes, scales, k) := storeRow fmt 32 src mode
    (fun i => srBits j.seed j.step j.gd j.gu (r * j.count + 128 * g + i))
    (fun i => (w.byte (base + g * slot + 16 + i)).toNat) v
  let codes := codes ++ List.replicate (128 - codes.length) 0
  let scales := scales ++ List.replicate (4 - scales.length) 0
  let (b, n, bad) := packGranule fmt slot codes scales
  (b, n, bad, k)

/-- The pieces of one row to be written: address and byte values, with the counts and the granules' drops. -/
structure RowOut where
  writes : List (Nat × List Nat)
  conv : Conv
  drops : List (Nat × Bool)
  deriving DecidableEq, Repr

/-- Convert row r. RAW rows are copied unchanged. -/
def Work.copyRow (j : CopyJob) (a : CopyAddrs) (src : ScaleSrc) (r : Nat) (w : Work) : RowOut :=
  let db := a.dst.getD r 0
  if cSrcFmt j.conv = .raw then
    ⟨[(db, (upto j.count).map (fun k => (w.byte (a.src.getD r 0 + k)).toNat))], Conv.none, []⟩
  else
    let (vals, k) := w.copyLoad j a r
    match w.packAt j.x j.dst with
    | some p =>
      let slot := w.packSlot j.x p
      let gs := (upto (ceilDiv j.count 128)).map (fun g => w.packOne j slot db r g src vals)
      ⟨[(db, gs.flatMap (fun g => g.1))], gs.foldl (fun k g => k.add g.2.2.2) k, gs.map (fun g => (g.2.1, g.2.2.1))⟩
    | none =>
      let fmt := cDstFmt j.conv
      let blk := dBlk j.conv
      let mode := pairMode (cSrcFmt j.conv) fmt (dMode j.conv j.rnd)
      let at0 := a.ds + r * j.blocks
      let (codes, scales, k2) := storeRow fmt blk src mode (fun i => srBits j.seed j.step j.gd j.gu (r * j.count + i))
        (fun i => (w.byte (at0 + i)).toNat) vals
      let plane := if src = .none ∨ src = .plane then [] else [(at0, scales)]
      ⟨(db, packCodes fmt blk codes) :: plane, k.add k2, []⟩

/-! ### Writes -/

/-- Cut a run of bytes at aligned 4 KiB destination blocks (R240). -/
def chunksOf (a : Nat) (d : List Nat) : Nat → List (Nat × List Nat)
  | 0 => []
  | n + 1 =>
    if d.isEmpty then [] else
    let k := min (4096 - a % 4096) d.length
    (a, d.take k) :: chunksOf (a + k) (d.drop k) n

/-- A list in the order a number names: any order is named by some number. -/
def shuffle {α : Type} (l : List α) (k : Nat) : Nat → List α
  | 0 => l
  | n + 1 =>
    match l with
    | [] => []
    | a :: r =>
      let i := k % (r.length + 1)
      match (a :: r)[i]? with
      | some b => b :: shuffle ((a :: r).eraseIdx i) (k / (r.length + 1)) n
      | none => a :: r

/-- Some of the pieces overlap. -/
def anyOverlap : List (Nat × List Nat) → Bool
  | [] => false
  | p :: r => r.any (fun q => decide (p.1 < q.1 + q.2.length) && decide (q.1 < p.1 + p.2.length)) || anyOverlap r

/-- Write pieces for context x. Pieces that overlap reach memory in any order (R240): a free value names it. -/
def Work.writePieces (x : Nat) (ps : List (Nat × List Nat)) (w : Work) : Work :=
  let (ps, w) :=
    if anyOverlap ps then
      let cs := ps.flatMap (fun p => chunksOf p.1 p.2 (p.2.length / 4096 + 2))
      let (k, w) := w.freeDraw
      (shuffle cs k cs.length, w)
    else (ps, w)
  ps.foldl (fun w p => w.engWrite x p.1 (p.2.map (BitVec.ofNat 8))) w

/-- The whole work of a copy whose checks have passed: the conversion status and the status it ends with (R63). Log entry 17. -/
def Work.copyRun (j : CopyJob) (a : CopyAddrs) (w : Work) : Conv × Nat × Work :=
  let src := w.scaleSrcOf j.x j.conv
  let rows := (upto j.rows).map (fun r => w.copyRow j a src r)
  let k := rows.foldl (fun k r => k.add r.conv) Conv.none
  let drops := rows.flatMap (fun r => r.drops)
  let lossy := drops.filter (fun d => decide (0 < d.1))
  let flags := k.flags ||| (if lossy.isEmpty then 0 else fFlush) ||| (if drops.any (fun d => d.2) then fPoisonLost else 0)
  let ps := rows.flatMap (fun r => r.writes)
  let w := w.writePieces j.x ps
  let w := w.bump (Obj.bobbinBytes j.x) ((ps.map (fun p => p.2.length)).sum)
  let w := (w.bump (Obj.packGranules j.x) drops.length).bump (Obj.packLossy j.x) lossy.length
  let w := w.bump (Obj.packDrop j.x) ((drops.map (fun d => d.1)).sum)
  let w := if cSrcFmt j.conv = .raw then w else w.countConv j.x k
  let w := if dScaleSrc j.conv = 2 then w.hoopReport j.x (dTslot j.conv) k else w
  let st := if k.poisoned && w.get (Obj.poisonAction j.x) == 1 then 0x0411 else 0
  ({ k with flags := flags }, st, w)

end Sys2Proof.Machine
end

