-- ==== Sys2Proof/Machine/ExtAddr.lean ====
section
/-!
DEFINITION. Sys2Proof/Machine/ExtAddr.lean: where a byte of either tier lies (R270, R271), the symbol code RS(36,32) with
its decoder (R272 to R276), and how a failed read is reported (R237, R277, R300).
-/
namespace Sys2Proof.Machine

/-! ### Interleave -/

/-- The place of a sector: tier (0 fast, 1 slow), stack or package, pseudo-channel or channel, line index u, bank, row,
column. -/
structure ExtPlace where
  tier : Nat
  part : Nat
  pc : Nat
  u : Nat
  bank : Nat
  row : Nat
  col : Nat
  deriving DecidableEq, Repr

/-- R270. -/
def fastPlace (dev : Nat) : ExtPlace :=
  let h := if dev < 0x003600000000 then 0 else 1
  let a := dev - h * 0x003600000000
  let blk := a >>> 12
  let g := bits a 7 5
  let u := blk / 12
  let q := (blk % 12 + u) % 12
  ⟨0, 6 * h + q / 2, 32 * (q % 2) + (g ^^^ (u % 32)), u, ((u >>> 3) ^^^ (u >>> 9)) % 64, u >>> 9, 4 * (u % 8) + bits a 5 2⟩

/-- R271. -/
def slowPlace (dev : Nat) : ExtPlace :=
  let h := if dev < 0x0171C0000000 then 0 else 1
  let a := dev - 0x010000000000 - h * 0x0071C0000000
  let blk := a >>> 12
  let ch := bits a 7 5 ^^^ (blk % 32)
  let w := blk >>> 4
  ⟨1, 4 * h + ch / 8, ch % 8, blk, (w ^^^ (w >>> 4)) % 16, w >>> 4, 4 * (blk % 16) + bits a 5 2⟩

/-- The place of a tier's address, none elsewhere. -/
def extPlace (a : Nat) : Option ExtPlace :=
  match extHalf a with
  | some (1, _) => some (fastPlace a)
  | some (_, _) => some (slowPlace a)
  | none => none

/-- DETAIL [31:21] of a place. -/
def ExtPlace.where31 (p : ExtPlace) : Nat := p.tier * 2 ^ 31 + p.part * 2 ^ 27 + p.pc * 2 ^ 21

/-- A location (R300). -/
def ExtPlace.location (p : ExtPlace) : Nat := p.where31 + p.u % 2 ^ 21

/-- SOURCE of a tier controller (Table 17.15). -/
def ExtPlace.source (p : ExtPlace) : Nat := (if p.tier = 0 then 0x5000 else 0x6000) + p.part

/-- The lane symbol k of a codeword travels on: data symbols 0 to 31, check symbols 32 to 35 (R272, R273). -/
def ExtPlace.lane (p : ExtPlace) (k : Nat) : Nat :=
  if p.tier = 0 then k
  else if k < 32 then k % 16
  else (4 * (p.col % 8) + (k - 32)) % 16

/-! ### GF(2^8) with 0x11D and the decoder -/

/-- Multiplication, bit by bit of b from bit n - 1 down. -/
def gfMulFrom (a b : Nat) : Nat → Nat → Nat
  | 0, acc => acc
  | n + 1, acc =>
    let d := acc * 2
    let d := if 256 ≤ d then d ^^^ 0x11D else d
    gfMulFrom a b n (if bitOf b n then d ^^^ a else d)

/-- The product of two field elements. -/
def gfMul (a b : Nat) : Nat := gfMulFrom a b 8 0

/-- α^n. -/
def gfPow (n : Nat) : Nat := iter (gfMul 2) n 1

/-- The inverse of a field element that is not 0: its 254th power. -/
def gfInv (a : Nat) : Nat := iter (gfMul a) 254 1

/-- The locator of symbol k: α to its degree, 35 - k for data and check symbols alike (R272). -/
def rsLoc (k : Nat) : Nat := gfPow (35 - k)

/-- Syndrome i of an error pattern: a codeword has none. -/
def rsSyn (e : List (Nat × Nat)) (i : Nat) : Nat :=
  e.foldl (fun s p => s ^^^ gfMul p.2 (iter (gfMul (rsLoc p.1)) i 1)) 0

/-- The product of two polynomials modulo x^4, lowest coefficient first. -/
def rsPolyMul (a b : List Nat) : List Nat :=
  (upto 4).map (fun n => (upto (n + 1)).foldl (fun s i => s ^^^ gfMul (a.getD i 0) (b.getD (n - i) 0)) 0)

/-- The locator polynomial of a set of positions. -/
def rsGamma (ps : List Nat) : List Nat :=
  ps.foldl (fun g k => (upto 5).map (fun i =>
    g.getD i 0 ^^^ (if i = 0 then 0 else gfMul (rsLoc k) (g.getD (i - 1) 0)))) [1]

/-- The values at a set of positions that give the syndromes, none when no values do: for at most 4 positions. -/
def rsSolve (syn ps : List Nat) : Option (List (Nat × Nat)) :=
  let g := rsGamma ps
  let om := rsPolyMul syn g
  if (om.drop ps.length).any (fun c => c != 0) then none
  else some (ps.map (fun k =>
    let xi := gfInv (rsLoc k)
    let num := (upto ps.length).foldl (fun s i => s ^^^ gfMul (om.getD i 0) (iter (gfMul xi) i 1)) 0
    let den := ps.foldl (fun s j => if j = k then s else gfMul s (1 ^^^ gfMul (rsLoc j) xi)) 1
    (k, gfMul num (gfInv den))))

/-- Positions 0 to 35 outside a set. -/
def rsOthers (ps : List Nat) : List Nat := (upto 36).filter (fun k => !ps.contains k)

/-- The first set of positions that has a solution. -/
def rsFirst (syn : List Nat) : List (List Nat) → Option (List (Nat × Nat))
  | [] => none
  | ps :: r =>
    match rsSolve syn ps with
    | some v => some v
    | none => rsFirst syn r

/-- The error values of least t with 2t + e ≤ limit (R274); none: not found. -/
def rsFind (syn er : List Nat) (limit : Nat) : Option (List (Nat × Nat)) :=
  let o := rsOthers er
  let one := if er.length + 2 ≤ limit then o.map (fun k => er ++ [k]) else []
  let two := if er.length + 4 ≤ limit
    then o.flatMap (fun k => (o.filter (fun j => decide (k < j))).map (fun j => er ++ [k, j])) else []
  if er.length ≤ limit then rsFirst syn ([er] ++ one ++ two) else none

/-- How a codeword decodes. -/
inductive RsOut where
  | clean
  /-- The error values the decoder takes out. -/
  | fixed (e : List (Nat × Nat))
  /-- Recovered by the retry of R276, with the lane it takes as erased. -/
  | retried (e : List (Nat × Nat)) (lane : Nat)
  | bad
  deriving DecidableEq, Repr

/-- The retry of R276: each lane's symbols beside the known erasures; accepted only when exactly one lane gives a
codeword with a syndrome left over. -/
def rsRetry (p : ExtPlace) (syn er : List Nat) : Option (List (Nat × Nat) × Nat) :=
  let ok := (upto 16).filterMap (fun l =>
    let ps := er ++ (rsOthers er).filter (fun k => p.lane k == l)
    if ps.length < 4 then (rsSolve syn ps).map (fun v => (v, l)) else none)
  match ok with
  | [r] => some r
  | _ => none

/-- R274: decode the error pattern of a codeword at a place, with its known erased lanes, under ECC_MODE. -/
def rsDecode (p : ExtPlace) (lanes : List Nat) (mode : Nat) (e : List (Nat × Nat)) : RsOut :=
  let syn := (upto 4).map (rsSyn e)
  if syn.all (fun s => s == 0) then .clean
  else
    let er := (upto 36).filter (fun k => lanes.contains (p.lane k))
    match rsFind syn er (if mode = 0 then 4 else 2) with
    | some v => .fixed (v.filter (fun x => x.2 != 0))
    | none =>
      if p.tier = 1 then
        match rsRetry p syn er with
        | some (v, l) => .retried (v.filter (fun x => x.2 != 0)) l
        | none => .bad
      else .bad

/-! ### Reports of failed reads -/

/-- DETAIL of ONCHIP_UNCORRECTABLE (Table 08.9) for an on-chip address. -/
def onchipDetail (a : Nat) : Nat :=
  match scratchOf a with
  | some (n, o) => n * 2 ^ 24 + o / 32 % 2 ^ 24
  | none =>
    if 0x021000000000 ≤ a then
      let o := a - 0x021000000000
      1 * 2 ^ 29 + o / 0x04000000 * 2 ^ 24 + o % 0x04000000 / 32 % 2 ^ 24
    else
      let o := a - 0x020000000000
      2 * 2 ^ 29 + o / 0x000400000000 * 2 ^ 24 + o % 0x000400000000 / 32 % 2 ^ 24

/-- The counter of corrected words of the on-chip memory that holds an address (R237). -/
def ceCounter (a : Nat) : Nat :=
  match scratchOf a with
  | some _ => Obj.ceScratch
  | none => if 0x021000000000 ≤ a then Obj.ceStaging else Obj.ceNear

/-- SOURCE of an on-chip memory's event: the near-memory controller's channel, the core of a scratchpad, firmware
otherwise (Table 17.15 names no unit for a staging buffer). -/
def onchipSource (a : Nat) : Nat :=
  match scratchOf a with
  | some (n, _) => 0x1000 + n
  | none =>
    if 0x021000000000 ≤ a then 0
    else
      let o := a % 0x000400000000
      0x4000 + 128 * ((a - 0x020000000000) / 0x000400000000) + (bits o 9 7 ^^^ bits o 16 7)

/-- A corrected or uncorrectable word of an on-chip memory is counted, the latter logged (R237). -/
def Work.onchipWord (x a : Nat) (res : ReadRes) (w : Work) : Work :=
  match res with
  | .corrected => w.bump (ceCounter a) 1
  | .uncorrectable => (w.bumpUe Obj.ueCount).event 0x0510 x (onchipSource a) (onchipDetail a)
  | _ => w

/-- Status and DETAIL with which the reader of an address ends; none when data is delivered. A tier's counters and events
are EXT_READ_RETURN's. -/
def readFail (a : Nat) (res : ReadRes) : Option (Nat × Nat) :=
  match res with
  | .ok => none
  | .corrected => none
  | .parity inst => some (0x0B10, inst)
  | .uncorrectable =>
    match extPlace a with
    | some p => some (0x0511, p.location)
    | none => some (0x0510, onchipDetail a)

/-- What a read's outcome does to counters and the log besides ending its reader. -/
def Work.readEvents (x a : Nat) (res : ReadRes) (w : Work) : Work :=
  match res with
  | .parity inst => w.xqParity inst
  | r => if (extPlace a).isSome || isHost a then w else w.onchipWord x a r

end Sys2Proof.Machine
end

