-- ==== Sys2Proof/Machine/Bobbin.lean ====
section
/-!
DEFINITION. Sys2Proof/Machine/Bobbin.lean: Bobbin (chapter 08): COPY, PREFETCH and CANCEL, prefetch buffers, streams, pack
region commits and the near-memory scrub.
-/
namespace Sys2Proof.Machine

/-- The command in flight with an id, when it runs this opcode and has not ended. -/
def Dev.running (w : Dev) (id op : Nat) : Option Cmd :=
  match w.cmd? id with
  | some c => if cOpcode c.raw = op ∧ c.done = none then some c else none
  | none => none

/-- Set the conversion status gathered by a command. -/
def Work.gather (id flags : Nat) (w : Work) : Work := w.mapCmd id (fun c => { c with conv := c.conv ||| flags })

/-! ### COPY (R95) -/

/-- Every check of a COPY command (R570). -/
def Dev.checkCopy (w : Dev) (c : Cmd) : Option (Nat × Nat) := w.copyCheck (w.copyJob c) cmdBits

/-- COPY (R95): the rows are read, converted and written, and the command has ended. Log entries 11, 17. -/
def opCopy (id : Nat) (w : Work) : Work :=
  match w.running id 0x20 with
  | some c =>
    match w.copyAddrs (w.copyJob c) with
    | .error (st, d) => w.finishCmd id st d
    | .ok a =>
      let (k, st, w) := w.copyRun (w.copyJob c) a
      (w.gather id k.flags).finishCmd id st 0
  | none => w

def execCopy (id : Nat) (s : State) : Host.Outcome State Fault Refusal := s.run (opCopy id)

/-! ### PREFETCH (R243, R244) -/

/-- The fields of a prefetch: context, source, conversion descriptor, COUNT, ROWS, strides, buffer. -/
structure PfJob where
  x : Nat
  src : Nat
  conv : Nat
  count : Nat
  rows : Nat
  sstr : Nat
  dstr : Nat
  buf : Nat
  segs : List (Nat × Nat)
  deriving DecidableEq, Repr

/-- The job of a PREFETCH command. -/
def pfJob (c : Cmd) : PfJob :=
  ⟨c.ctx, bSrc c.raw, bConv c.raw, bCount c.raw, bRows c.raw, bSstride c.raw, bDstride c.raw, bPbuf c.raw, c.segs⟩

/-- The fill length. -/
def PfJob.len (j : PfJob) : Nat := (j.rows - 1) * j.dstr + j.count

/-- PBUF names a buffer of context x whose commit is not pending (R243). -/
def Dev.pbUsable (w : Dev) (x b : Nat) : Bool :=
  decide (b < 64) && w.get (Obj.pbOwner b) == x && w.get (Obj.pbCommit b) == 0

/-- Steps 2 to 4 of R570 for a prefetch: `fBuf` is the lowest bit of PBUF. -/
def Dev.pfFields (w : Dev) (j : PfJob) (b : CopyBits) (fBuf : Nat) : Option (Nat × Nat) :=
  if j.count = 0 then some (0x0211, b.count)
  else if j.rows = 0 then some (0x0211, b.rows)
  else match w.convCheck j.x j.conv b.conv true with
    | some e => some e
    | none =>
      if dSrc j.conv ≠ 0xF ∨ dDst j.conv ≠ 0xF then some (0x0211, b.conv)
      else if !w.pbUsable j.x j.buf then some (0x0211, fBuf)
      else if j.dstr % 32 ≠ 0 ∨ (1 < j.rows ∧ j.dstr < j.count) then some (0x0211, b.dstr)
      else if w.pbSlotBytes j.buf < j.len then some (0x0211, b.count)
      else none

/-- Device addresses of the source rows, or the failure of the whole range (R28). -/
def Dev.pfRows (w : Dev) (j : PfJob) : Nat → Except (Nat × Nat) (List Nat)
  | 0 => .ok []
  | n + 1 =>
    match Dev.pfRows w j n with
    | .error e => .error e
    | .ok l =>
      match w.xlate j.x j.segs (addr48 (j.src + n * j.sstr)) j.count .read with
      | .ok a => .ok (l ++ [a])
      | .error e => .error e

/-- Every check of a prefetch. -/
def Dev.pfCheck (w : Dev) (j : PfJob) (b : CopyBits) (fBuf : Nat) : Option (Nat × Nat) :=
  match w.pfFields j b fBuf with
  | some e => some e
  | none => match w.pfRows j j.rows with | .error e => some e | .ok _ => none

/-- Every check of a PREFETCH command. -/
def Dev.checkPrefetch (w : Dev) (c : Cmd) : Option (Nat × Nat) := w.pfCheck (pfJob c) cmdBits 464

/-- The chunks of one row: destination offset and source address, cut at aligned 4 KiB destination blocks (R240). -/
def rowChunks (base off src n : Nat) : Nat → List Chunk
  | 0 => []
  | k + 1 =>
    if n = 0 then [] else
    let c := min n (4096 - (base + off) % 4096)
    ⟨off, src, c, false, []⟩ :: rowChunks base (off + c) (src + c) (n - c) k

/-- Start a fill of a buffer (R244): its number, its slot, its chunks; it passes its release wait when it can. -/
def Work.startFill (j : PfJob) (cmd stream : Option Nat) (w : Work) : Work :=
  match w.pfRows j j.rows with
  | .error _ => w
  | .ok rows =>
    let b := j.buf
    let n := w.get (Obj.pbFill b)
    let base := w.get (Obj.pbBase b) + n % w.get (Obj.pbNslot b) * w.pbSlotBytes b
    let chunks := rows.zipIdx.flatMap (fun p => rowChunks base (p.2 * j.dstr) p.1 j.count (j.count / 4096 + 2))
    let (id, w) := w.newId
    let f : Fill := ⟨id, cmd, stream, j.x, some b, w.get (Obj.pbGen b), n, base, false, w.time, chunks, false, 0, 0, 0⟩
    let w := w.put (Obj.pbFill b) ((n + 1) % 2 ^ 32)
    let w := w.setFills (w.bob.fills ++ [f])
    w.passFill id

/-- PREFETCH (R243): its fill starts. -/
def opPrefetch (id : Nat) (w : Work) : Work :=
  match w.running id 0x21 with
  | some c =>
    if c.begun then w else
    match w.pfCheck (pfJob c) cmdBits 464 with
    | some (st, d) => w.finishCmd id st d
    | none => (w.mapCmd id (fun c => { c with begun := true })).startFill (pfJob c) (some id) none
  | none => w

def execPrefetch (id : Nat) (s : State) : Host.Outcome State Fault Refusal := s.run (opPrefetch id)

/-! ### Arriving sectors -/

/-- Sectors of 32 bytes of a chunk's destination. -/
def Chunk.sectors (c : Chunk) (base : Nat) : Nat := (base + c.off + c.len - 1) / 32 - (base + c.off) / 32 + 1

/-- Every sector of a chunk has arrived. -/
def Chunk.whole (c : Chunk) (base : Nat) : Bool := decide (c.sectors base ≤ c.landed.length)

/-- First byte of sector k of a chunk, and its length, as offsets in the chunk. -/
def Chunk.piece (c : Chunk) (base k : Nat) : Nat × Nat :=
  let a := base + c.off
  let lo := if k = 0 then 0 else (a / 32 + k) * 32 - a
  let hi := min ((a / 32 + k + 1) * 32 - a) c.len
  (lo, hi - lo)

/-- Chunks of a fill in flight: issued and not wholly arrived. -/
def Fill.inFlight (f : Fill) : Nat := (f.chunks.filter (fun c => c.issued && !c.whole f.base)).length

/-- CANCELs in flight on a buffer complete when every credit is free and no stopped fill is left (R246). -/
def Work.settleCancel (b : Nat) (w : Work) : Work :=
  if w.get (Obj.pbCreditsFree b) = w.pbCredits b ∧ !w.bob.fills.any (fun f => f.buf == some b && f.stopped) then
    w.setCmds (w.q.cmds.map (fun (c : Cmd) =>
      if cOpcode c.raw = 0x22 ∧ c.begun = true ∧ bPbuf c.raw = b ∧ c.done = none
      then { c with done := some ⟨0, 0, c.conv, c.r1, c.r2⟩ } else c))
  else w

/-- Remove a fill. -/
def Work.dropFill (id : Nat) (w : Work) : Work := w.setFills (w.bob.fills.filter (fun f => f.id != id))

/-- A fill whose chunks have all arrived, or a stopped one with none in flight: a PREFETCH ends; landed data keeps its
credits until the slot's next fill passes (R244). A stream's transfer waits for its completion event. -/
def Work.settleFill (id : Nat) (w : Work) : Work :=
  match w.fill? id with
  | some f =>
    let b := f.buf.getD 0
    if f.stopped then
      if f.inFlight = 0 then
        let w := w.dropFill id
        let w := match f.cmd with
          | some c => if f.status = 0 then w.finishCmd c 0x0501 f.discarded else w.finishCmd c f.status f.detail
          | none => w
        w.settleCancel b
      else w
    else if f.chunks.all (fun c => c.whole f.base) then
      match f.cmd with
      | some c =>
        let w := w.dropFill id
        let w := { w with bob := { w.bob with held := w.bob.held ++ [(b, f.n, f.chunks.length)] } }
        let w := w.bump (Obj.bobbinBytes f.ctx) ((f.chunks.map (fun c => c.len)).sum)
        w.finishCmd c f.status f.detail
      | none => w
    else w
  | none => w

/-- One sector of a fill's chunk arrives. -/
def Work.landFill (f : Fill) (i k : Nat) (res : ReadRes) (w : Work) : Work :=
  match f.chunks[i]? with
  | some c =>
    if c.issued && decide (k < c.sectors f.base) && !c.landed.contains k then
      let b := f.buf.getD 0
      let (lo, n) := c.piece f.base k
      let a := c.src + lo
      let w := w.readEvents f.ctx a res
      let live := w.get (Obj.pbGen b) == f.gen
      let w := match readFail a res with
        | none => if live then w.engWrite f.ctx (f.base + c.off + lo) (w.read a n) else w
        | some (st, d) => w.mapFill f.id (fun g => if g.status = 0 then { g with status := st, detail := d } else g)
      let c' := { c with landed := k :: c.landed }
      let w := w.mapFill f.id (fun g => { g with chunks := setAt g.chunks i c' })
      let w := if c'.whole f.base && !live then
          let w := w.put (Obj.pbCreditsFree b) (w.get (Obj.pbCreditsFree b) + 1)
          let w := w.bump (Obj.pbDiscarded b) 1
          let w := w.mapFill f.id (fun g => { g with discarded := g.discarded + 1 })
          w.issueBuffer b
        else w
      w.settleFill f.id
    else w
  | none => w

/-- BOBBIN_SECTOR_LAND (R244): a sector of chunk `i` of a fill arrives, or a read of a COPY command ends badly. Log entry 17. -/
def opBobbinSectorLand (id i k : Nat) (res : ReadRes) (w : Work) : Work :=
  match w.fill? id with
  | some f => w.landFill f i k res
  | none =>
    match w.running id 0x20 with
    | some c =>
      match w.copyAddrs (w.copyJob c) with
      | .ok a =>
        let at0 := a.src.getD i 0 + 32 * k
        let w := w.readEvents c.ctx at0 res
        match readFail at0 res with
        | some (st, d) => w.finishCmd id st d
        | none => w
      | .error _ => w
    | none => w

def execBobbinSectorLand (id i k : Nat) (res : ReadRes) (s : State) : Host.Outcome State Fault Refusal :=
  s.run (opBobbinSectorLand id i k res)

/-- PREFETCH_WAIT_TIMEOUT (R245): a fill that has waited for its release longer than WAIT_TMO ends its PREFETCH; its
number stays used. -/
def opPrefetchWaitTimeout (id : Nat) (w : Work) : Work :=
  match w.bob.fills.find? (fun f => f.cmd == some id && !f.passed && !f.stopped) with
  | some f =>
    let b := f.buf.getD 0
    if w.get (Obj.waitTmo f.ctx) * 1000 < w.since f.since then
      let w := w.bump (Obj.pbWaitNs b) (w.since f.since)
      ((w.dropFill f.id).finishCmd id 0x0215 (w.get (Obj.pbRelEvt b))).settleCancel b
    else w
  | none => w

def execPrefetchWaitTimeout (id : Nat) (s : State) : Host.Outcome State Fault Refusal :=
  s.run (opPrefetchWaitTimeout id)

/-! ### Streams (R248 to R254) -/

/-- KIND. -/
def sKind (d : Nat) : Nat := bits d 0 2
/-- IRQ. -/
def sIrq (d : Nat) : Bool := bitOf d 2
/-- TRIG_EVT. -/
def sTrigEvt (d : Nat) : Nat := bits d 8 8
/-- DONE_EVT. -/
def sDoneEvt (d : Nat) : Nat := bits d 16 8
/-- NEED_NS. -/
def sNeed (d : Nat) : Nat := bits d 32 32
/-- REPS. -/
def sReps (d : Nat) : Nat := bits d 400 32
/-- TRIG0. -/
def sTrig0 (d : Nat) : Nat := bits d 432 64

/-- The active descriptor of a stream. -/
def Dev.streamDesc (w : Dev) (x s : Nat) : Nat := w.blobNat .active (Obj.streamActive x s) 0 64

/-- The COPY a transfer k runs (R249). The generator's d is 4 and u is s × 2^28 + k mod 2^28 (Table 07.4). -/
def streamJob (x s k d : Nat) (c : StreamCap) : CopyJob :=
  ⟨x, addr48 (bits d 64 48 + k * bits d 160 48), addr48 (bits d 112 48 + k * bits d 208 48), 0, 0, bits d 256 32,
   bits d 288 32, bits d 320 16, bits d 336 32, bits d 368 32, c.segs, c.seed, c.step, c.rnd, 4,
   s * 2 ^ 28 + k % 2 ^ 28⟩

/-- The PREFETCH a transfer k runs. -/
def streamPf (x k d : Nat) (c : StreamCap) : PfJob :=
  ⟨x, addr48 (bits d 64 48 + k * bits d 160 48), bits d 256 32, bits d 288 32, bits d 320 16, bits d 336 32,
   bits d 368 32, bits d 24 8, c.segs⟩

/-- A scaled side of a stream's COPY outside a pack region: its CONV is invalid (R249). -/
def Dev.streamScaled (w : Dev) (j : CopyJob) : Option (Nat × Nat) :=
  if ((cSrcFmt j.conv).scaled && (w.packAt j.x j.src).isNone) || ((cDstFmt j.conv).scaled && (w.packAt j.x j.dst).isNone)
  then some (0x0211, 256) else none

/-- The field checks of a descriptor for transfer k (R243, R92, R249): none when valid. -/
def Dev.streamFields (w : Dev) (x s k d : Nat) (c : StreamCap) : Option (Nat × Nat) :=
  match sKind d with
  | 1 =>
    let j := streamJob x s k d c
    match w.copyFields j streamBits with
    | some e => some e
    | none => w.streamScaled j
  | 2 => w.pfFields (streamPf x k d c) streamBits 24
  | _ => some (0x0211, 0)

/-- Every check of transfer k: its fields, then its ranges (R28). -/
def Dev.streamCheck (w : Dev) (x s k d : Nat) (c : StreamCap) : Option (Nat × Nat) :=
  match w.streamFields x s k d c with
  | some e => some e
  | none =>
    if sKind d = 1 then w.copyCheck (streamJob x s k d c) streamBits
    else match w.pfRows (streamPf x k d c) (bits d 320 16) with | .error e => some e | .ok _ => none

/-- The running record of a stream. -/
def Dev.stream? (w : Dev) (x s : Nat) : Option Stream := w.bob.streams.find? (fun t => t.ctx == x && t.s == s)

/-- Replace the running record of a stream. -/
def Work.putStream (t : Stream) (w : Work) : Work :=
  w.setStreams (t :: w.bob.streams.filter (fun u => !(u.ctx == t.ctx && u.s == t.s)))

/-- The instance a transfer runs on: that of the die of its destination (R239). -/
def Dev.streamInst (w : Dev) (x s d : Nat) : Nat :=
  match sKind d with
  | 2 => dieOf (w.get (Obj.pbBase (bits d 24 8 % 64)))
  | _ =>
    match translate (w.segNow x) (addr48 (bits d 112 48 + w.get (Obj.streamXfer x s) * bits d 208 48)) 1 .write with
    | .ok a => dieOf a
    | .error _ => 0

/-- The stream becomes able to run transfer k: ARMED, its trigger taken at once when it is already true (R249). -/
def Work.armStream (x s : Nat) (w : Work) : Work :=
  let d := w.streamDesc x s
  let k := w.get (Obj.streamXfer x s)
  let go := w.get (Obj.ctxState x) = 1 ∧ sTrig0 d + k ≤ w.evt x (sTrigEvt d)
  (w.put (Obj.streamState x s) 1).putStream ⟨x, s, if go then some w.time else none, false, none⟩

/-- The context becomes ACTIVE: armed streams whose trigger is already true take this moment as theirs. -/
def Work.wakeStreams (x : Nat) (w : Work) : Work :=
  forUpto (fun s w =>
    match w.stream? x s with
    | some t => if w.get (Obj.streamState x s) = 1 ∧ t.trig = none then w.armStream x s else w
    | none => w) 8 w

/-- A stream's transfer or descriptor fails (R253): FAULTED, STREAM_FAULT, a fault of the Bobbin queue without a
record. -/
def Work.streamFault (x s st det : Nat) (w : Work) : Work :=
  let inst := w.streamInst x s (w.streamDesc x s)
  let w := (w.put (Obj.streamState x s) 4).putStream ⟨x, s, none, false, none⟩
  (w.event 0x0503 x (0x2000 + inst) s).faultNoRecord x 1 st det

/-- The pending shadow takes over (R251): it becomes the active descriptor, k restarts at 0. -/
def Work.takeover (x s : Nat) (w : Work) : Work :=
  let w := w.blobCopy .pending .active (Obj.streamActive x s)
  let w := (w.put (Obj.streamXfer x s) 0).put (Obj.streamPending x s) 0
  let d := w.streamDesc x s
  if sKind d = 0 then (w.put (Obj.streamState x s) 0).putStream ⟨x, s, none, false, none⟩
  else
    match w.streamFields x s 0 d ⟨w.segNow x, 0, 0, 0, none, none⟩ with
    | some (st, det) => w.streamFault x s st det
    | none => w.armStream x s

/-- STREAM_REARM (R251): the shadow as it stands is pending; it takes over at once when the stream is not MOVING. -/
def opStreamRearm (wr : Writer) (x : Fin 16) (s : Fin 8) (w : Work) : Work :=
  w.gated wr (.own x.val) (Obj.streamRearm x.val s.val) (fun w =>
    let x := x.val
    let s := s.val
    let w := if w.get (Obj.streamPending x s) = 1 then w.bump (Obj.rearmCollapsed x) 1 else w
    let d := w.blobNat .active (Obj.streamShadow x s) 0 64
    let w := w.blobPut .pending (Obj.streamActive x s) 0 d 64
    let w := w.put (Obj.streamPending x s) 1
    if w.get (Obj.streamState x s) = 2 then w else w.takeover x s)

def execStreamRearm (wr : Writer) (x : Fin 16) (s : Fin 8) (st : State) : Host.Outcome State Fault Refusal :=
  st.run (opStreamRearm wr x s)

/-- PACK_COMMIT's pending set of region r applies (R255). -/
def packGroup (x r : Nat) : List Nat := [Obj.packBase x r, Obj.packLen x r, Obj.packFmt x r, Obj.packS x r]

/-- Pending pack regions of context x apply at its command boundary on Bobbin (R261). -/
def Work.packApply (x : Nat) (w : Work) : Work :=
  forUpto (fun r w =>
    if w.get (Obj.packCommit x r) = 1 then (w.groupToActive (packGroup x r) []).put (Obj.packCommit x r) 0 else w) 4 w

/-- No command or stream transfer of context x is in flight on Bobbin. -/
def Dev.bobbinIdle (w : Dev) (x : Nat) : Bool :=
  w.inflight x 1 == 0 && !w.bob.streams.any (fun t => t.ctx == x && t.cap.isSome)

/-- PACK_COMMIT (R261): pending until the context's next command boundary; at once while nothing of it is in flight on
Bobbin. -/
def opPackCommit (wr : Writer) (x : Fin 16) (r : Fin 4) (w : Work) : Work :=
  w.gated wr (.own x.val) (Obj.packCommit x.val r.val) (fun w =>
    let w := (w.groupToPend (packGroup x.val r.val) []).put (Obj.packCommit x.val r.val) 1
    if w.bobbinIdle x.val then w.packApply x.val else w)

def execPackCommit (wr : Writer) (x : Fin 16) (r : Fin 4) (s : State) : Host.Outcome State Fault Refusal :=
  s.run (opPackCommit wr x r)

/-- STREAM_TRIGGER (R249): transfer k starts while its trigger is true, the context ACTIVE and no spill or STEP_MARK
holds it; a failed check faults the stream. -/
def opStreamTrigger (x : Fin 16) (s : Fin 8) (w : Work) : Work :=
  let x := x.val
  let s := s.val
  match w.stream? x s with
  | some t =>
    if w.get (Obj.streamState x s) = 1 ∧ t.trig.isSome = true ∧ w.get (Obj.ctxState x) = 1 ∧ w.spilling x = false
        ∧ w.instReset (w.streamInst x s (w.streamDesc x s)) = false then
      let w := w.packApply x
      let d := w.streamDesc x s
      let k := w.get (Obj.streamXfer x s)
      let slot := if w.get (Obj.modelBind x) = 1 then w.currentSlot else none
      let add := w.currentAdd x
      let cap : StreamCap := ⟨w.bindSegs x slot add (w.segNow x), w.get (Obj.srSeed x), w.get (Obj.stepNum x),
        w.get (Obj.defRnd x), slot, add⟩
      match w.streamCheck x s k d cap with
      | some (st, det) => w.streamFault x s st det
      | none =>
        let w := (w.holdSlot slot).holdAdd x add
        let w := (w.put (Obj.streamState x s) 2).putStream { t with cap := some cap }
        if sKind d = 2 then w.startFill (streamPf x k d cap) none (some s) else w
    else w
  | none => w

def execStreamTrigger (x : Fin 16) (s : Fin 8) (st : State) : Host.Outcome State Fault Refusal :=
  st.run (opStreamTrigger x s)

/-- A transfer lets go of the image and addition it holds (R406). -/
def Work.streamRelease (x : Nat) (cap : StreamCap) (w : Work) : Work :=
  ((w.dropSlot cap.slot).dropAdd x cap.add).spillStep x

/-- After transfer k has ended: the next trigger, DONE after REPS transfers, or the pending shadow (R250, R251). -/
def Work.streamNext (x s d k : Nat) (w : Work) : Work :=
  let w := w.put (Obj.streamXfer x s) ((k + 1) % 2 ^ 32)
  if w.get (Obj.streamPending x s) = 1 then w.takeover x s
  else if sReps d ≠ 0 ∧ sReps d ≤ k + 1 then (w.put (Obj.streamState x s) 3).putStream ⟨x, s, none, false, none⟩
  else w.armStream x s

/-- The completion of transfer k: DONE_EVT, lateness (R252), then what comes next. Log entry 15. -/
def Work.streamDone (x s d k : Nat) (t : Stream) (w : Work) : Work :=
  let w := w.evtAdd x (sDoneEvt d) 1
  let due := t.trig.getD 0 + sNeed d
  let w := if sNeed d ≠ 0 ∧ due < w.time then w.raiseMax (Obj.streamLateMaxNs x) (w.time - due) else w
  let w := w.putStream { t with cap := none }
  let w := match t.cap with | some c => w.streamRelease x c | none => w
  w.streamNext x s d k

/-- A fill is given up: landed chunks give their credits back, chunks in flight are discarded on arrival. -/
def Work.ditchFill (f : Fill) (w : Work) : Work :=
  let b := f.buf.getD 0
  let back := (f.chunks.filter (fun c => c.issued && c.whole f.base)).length
  let w := w.put (Obj.pbCreditsFree b) (w.get (Obj.pbCreditsFree b) + back)
  let w := w.mapFill f.id (fun g => { g with
    cmd := none, stream := none, gen := 256, stopped := true, status := 0, chunks := g.chunks.filter (fun c => c.issued) })
  w.settleFill f.id

/-- The fault end of a transfer in flight; a pending shadow then takes over (R251, R253). -/
def Work.streamFail (x s st det : Nat) (t : Stream) (w : Work) : Work :=
  let w := (w.bob.fills.filter (fun f => f.ctx == x && f.stream == some s)).foldl (fun w f => w.ditchFill f) w
  let w := w.putStream { t with cap := none }
  let w := match t.cap with | some c => w.streamRelease x c | none => w
  let w := w.streamFault x s st det
  if w.get (Obj.streamPending x s) = 1 then w.takeover x s else w

/-- STREAM_XFER_DONE (R250): the transfer in flight is visible. A COPY's work is done here; a fill must have landed. Log entries 11, 17. -/
def opStreamXferDone (x : Fin 16) (s : Fin 8) (w : Work) : Work :=
  let x := x.val
  let s := s.val
  match w.stream? x s with
  | some t =>
    match t.cap with
    | some cap =>
      let d := w.streamDesc x s
      let k := w.get (Obj.streamXfer x s)
      if sKind d = 1 then
        let j := streamJob x s k d cap
        match w.copyAddrs j with
        | .ok a =>
          let (_, st, w) := w.copyRun j a
          if st = 0 then w.streamDone x s d k t else w.streamFail x s st 0 t
        | .error (st, det) => w.streamFail x s st det t
      else
        match w.bob.fills.find? (fun f => f.ctx == x && f.stream == some s) with
        | some f =>
          if f.chunks.all (fun c => c.whole f.base) && !f.stopped then
            let w := w.dropFill f.id
            let w := { w with bob := { w.bob with held := w.bob.held ++ [(f.buf.getD 0, f.n, f.chunks.length)] } }
            if f.status ≠ 0 then w.streamFail x s f.status f.detail t
            else
              let w := w.bump (Obj.bobbinBytes x) ((f.chunks.map (fun c => c.len)).sum)
              w.streamDone x s d k t
          else w
        | none => w
    | none => w
  | none => w

def execStreamXferDone (x : Fin 16) (s : Fin 8) (st : State) : Host.Outcome State Fault Refusal :=
  st.run (opStreamXferDone x s)

/-- STREAM_DEADLINE_MISS (R252): logged, counted and signalled once per transfer. -/
def opStreamDeadlineMiss (x : Fin 16) (s : Fin 8) (w : Work) : Work :=
  let x := x.val
  let s := s.val
  match w.stream? x s with
  | some t =>
    let d := w.streamDesc x s
    match t.trig with
    | some t0 =>
      if sNeed d ≠ 0 ∧ t.missed = false ∧ t0 + sNeed d ≤ w.time then
        let k := w.get (Obj.streamXfer x s)
        let w := w.event 0x0502 x (0x2000 + w.streamInst x s d) (s * 2 ^ 29 + k % 2 ^ 29)
        let w := (w.bump (Obj.streamMissCount x) 1).putStream { t with missed := true }
        if sIrq d && bitOf (w.get (Obj.irqEn x 1)) 0 then w.raise x 1 else w
      else w
    | none => w
  | none => w

def execStreamDeadlineMiss (x : Fin 16) (s : Fin 8) (st : State) : Host.Outcome State Fault Refusal :=
  st.run (opStreamDeadlineMiss x s)

/-- A stream whose transfer a CANCEL stopped waits for its next trigger (R246); after the last transfer it is DONE (log
entry 15). Log entry 15. -/
def Work.cancelStream (x s : Nat) (w : Work) : Work :=
  match w.stream? x s with
  | some t =>
    match t.cap with
    | some c =>
      let d := w.streamDesc x s
      let w := (w.putStream { t with cap := none }).streamRelease x c
      w.streamNext x s d (w.get (Obj.streamXfer x s))
    | none => w
  | none => w

/-- Every stream of a context to IDLE, pending shadows cleared (R254). Transfers in flight let go of what they hold. -/
def Work.idleStreams (x : Nat) (w : Work) : Work :=
  forUpto (fun s w =>
    let w := match w.stream? x s with
      | some t => (match t.cap with
        | some c => (w.putStream { t with cap := none }).streamRelease x c
        | none => w)
      | none => w
    let w := w.setStreams (w.bob.streams.filter (fun t => !(t.ctx == x && t.s == s)))
    (w.put (Obj.streamState x s) 0).put (Obj.streamPending x s) 0) 8 w

/-! ### CANCEL (R246) -/

/-- The check of a CANCEL: its context owns the buffer. -/
def Dev.checkCancel (w : Dev) (c : Cmd) : Option (Nat × Nat) :=
  let b := bPbuf c.raw
  if b < 64 ∧ w.get (Obj.pbOwner b) = c.ctx then none else some (0x0211, 464)

/-- A fill of the buffer is stopped: no further chunk issues; landed chunks give their credits back. -/
def Work.stopFill (f : Fill) (w : Work) : Work :=
  let b := f.buf.getD 0
  let back := (f.chunks.filter (fun c => c.issued && c.whole f.base)).length
  let w := w.put (Obj.pbCreditsFree b) (w.get (Obj.pbCreditsFree b) + back)
  let w := if f.passed then w else w.bump (Obj.pbWaitNs b) (w.since f.since)
  let w := w.mapFill f.id (fun g => { g with stopped := true, chunks := g.chunks.filter (fun c => c.issued) })
  match f.stream with
  | some s => w.cancelStream f.ctx s
  | none => w

/-- The effect of a CANCEL on buffer b for context x (R246): the generation advances, fills stop, landed data's credits
return, the order restarts. -/
def Work.cancelBuffer (x b : Nat) (w : Work) : Work :=
  let w := w.put (Obj.pbGen b) ((w.get (Obj.pbGen b) + 1) % 256)
  let mine := w.bob.fills.filter (fun f => f.buf == some b && !f.stopped)
  let back := ((w.bob.held.filter (fun h => h.1 == b)).map (fun h => h.2.2)).sum
  let w := { w with bob := { w.bob with held := w.bob.held.filter (fun h => h.1 != b) } }
  let w := w.put (Obj.pbCreditsFree b) (w.get (Obj.pbCreditsFree b) + back)
  let w := mine.foldl (fun w f => w.stopFill f) w
  let w := w.put (Obj.pbFill b) 0
  let w := w.put (Obj.pbRelBase b) (w.evt x (w.get (Obj.pbRelEvt b)))
  let w := mine.foldl (fun w f => w.settleFill f.id) w
  w.settleCancel b

/-- CANCEL (R246). Log entries 15, 19. -/
def opCancel (id : Nat) (w : Work) : Work :=
  match w.running id 0x22 with
  | some c =>
    if c.begun then w else
    match w.checkCancel c with
    | some (st, d) => w.finishCmd id st d
    | none => (w.mapCmd id (fun c => { c with begun := true })).cancelBuffer c.ctx (bPbuf c.raw)
  | none => w

def execCancel (id : Nat) (s : State) : Host.Outcome State Fault Refusal := s.run (opCancel id)

/-! ### Buffer commits (R242) -/

/-- The commit group of buffer b. -/
def pbGroup (b : Nat) : List Nat := [Obj.pbOwner b, Obj.pbBase b, Obj.pbNslot b, Obj.pbSlotKib b, Obj.pbRelEvt b]

/-- Bytes of buffer b. -/
def Dev.pbBytes (w : Dev) (b : Nat) : Nat := w.get (Obj.pbNslot b) * w.pbSlotBytes b

/-- The buffer lies in the mappable near memory or the staging buffer of one die. -/
def Dev.pbInside (w : Dev) (b : Nat) : Bool :=
  let a := w.get (Obj.pbBase b)
  let e := a + w.pbBytes b - 1
  let rs := [w.nearMappable 0, w.nearMappable 1, ⟨0x021000000000, 0x021003FFFFFF⟩, ⟨0x021004000000, 0x021007FFFFFF⟩]
  rs.any (fun r => decide (r.first ≤ a) && decide (e ≤ r.last))

/-- The buffer overlaps another buffer whose owner is not 0xFF. -/
def Dev.pbClash (w : Dev) (b : Nat) : Bool :=
  let a := w.get (Obj.pbBase b)
  (upto 64).any (fun o => o != b && w.get (Obj.pbOwner o) != 0xFF
    && overlap (a, a + w.pbBytes b - 1) (w.get (Obj.pbBase o), w.get (Obj.pbBase o) + w.pbBytes o - 1))

/-- PB_COMMIT (R242): the definition is pending. -/
def opPbCommit (wr : Writer) (b : Fin 64) (w : Work) : Work :=
  w.gated wr .priv (Obj.pbCommit b.val) (fun w => w.commitReq wr (Obj.pbCommit b.val) (pbGroup b.val) [])

def execPbCommit (wr : Writer) (b : Fin 64) (s : State) : Host.Outcome State Fault Refusal := s.run (opPbCommit wr b)

/-- A PREFETCH, stream transfer or CANCEL naming buffer b is in flight. -/
def Dev.pbBusy (w : Dev) (b : Nat) : Bool :=
  w.bob.fills.any (fun f => f.buf == some b)
    || w.q.cmds.any (fun c => (cOpcode c.raw == 0x21 || cOpcode c.raw == 0x22) && bPbuf c.raw == b && c.done == none)

/-- PB_COMMIT_APPLY (R242). -/
def opPbCommitApply (b : Fin 64) (w : Work) : Work :=
  let b := b.val
  if w.get (Obj.pbCommit b) = 1 ∧ w.pbBusy b = false then
    let w := w.groupToActive (pbGroup b) []
    let w := if w.get (Obj.pbOwner b) ≠ 0xFF ∧ (w.pbInside b = false ∨ w.pbClash b = true) then
        (w.clamped .fw (Obj.pbOwner b) (w.get (Obj.pbOwner b)) 0xFF 0).put (Obj.pbOwner b) 0xFF
      else w
    let w := { w with bob := { w.bob with held := w.bob.held.filter (fun h => h.1 != b) } }
    let owner := w.get (Obj.pbOwner b)
    let w := w.put (Obj.pbFill b) 0
    let w := w.put (Obj.pbRelBase b) (if owner < 16 then w.evt owner (w.get (Obj.pbRelEvt b)) else 0)
    (w.put (Obj.pbCreditsFree b) (w.pbCredits b)).put (Obj.pbCommit b) 0
  else w

def execPbCommitApply (b : Fin 64) (s : State) : Host.Outcome State Fault Refusal := s.run (opPbCommitApply b)

/-! ### The near-memory scrub (R238) -/

/-- NEAR_SCRUB (R238): the scrub reads the word at an address: a correctable error is corrected and written back, an
uncorrectable one logged; no command ends. -/
def opNearScrub (a : Nat) (res : ReadRes) (w : Work) : Work :=
  if 0x020000000000 ≤ a ∧ a < 0x020800000000 then
    match res with
    | .parity inst => w.xqParity inst
    | r => w.onchipWord 31 a r
  else w

def execNearScrub (a : Nat) (res : ReadRes) (s : State) : Host.Outcome State Fault Refusal := s.run (opNearScrub a res)

end Sys2Proof.Machine
end

