-- ==== Sys2Proof/Machine/Clocks.lean ====
section
/-!
DEFINITION. Sys2Proof/Machine/Clocks.lean: selvedge queues, device time in other domains, and the core clocks (chapter 16).
-/
namespace Sys2Proof.Machine

/-- Change the clocks. -/
def Work.setClk (f : ClockState → ClockState) (w : Work) : Work := { w with clk := f w.clk }

/-- The value at a key of a short list. -/
def keyed (l : List (Nat × Nat)) (k d : Nat) : Nat := match l.find? (fun p => p.1 == k) with | some p => p.2 | none => d
/-- The list with a value at a key. -/
def keySet (l : List (Nat × Nat)) (k v : Nat) : List (Nat × Nat) := (k, v) :: l.filter (fun p => p.1 != k)

/-! ### Selvedge queues (R481, R482) -/

/-- XQ_RETRY_RESEND (R481): the writer of a RETRY instance, types 3, 4, 18 and 19 of Table 16.1, sends a control word again. -/
def opXqRetryResend (inst : Nat) (w : Work) : Work :=
  let t := inst / 1024
  let i := inst % 1024
  if w.boot.held = false ∧ (((t = 3 ∨ t = 4) ∧ i < 2) ∨ ((t = 18 ∨ t = 19) ∧ i = 0)) then w.bump Obj.xqRetryCount 1 else w
def execXqRetryResend (inst : Nat) (s : State) : Host.Outcome State Fault Refusal := s.run (opXqRetryResend inst)

/-- The sample of a consumer arrives: it counts on from it and never reports less than it has reported. -/
def Work.timeSample (i : Nat) (w : Work) : Work :=
  let old := match w.clk.samples.find? (fun p => p.1 == i) with | some p => p.2.2 | none => 0
  w.setClk (fun c => { c with samples := (i, w.time, max old w.time) :: c.samples.filter (fun p => p.1 != i) })

/-- TIME_SAMPLE (R482): the time base writes device time into every TIME instance; the samples of `bad` fail parity and are
discarded. -/
def opTimeSample (bad : List Nat) (w : Work) : Work :=
  if w.boot.held then w else
  forUpto (fun i w => if bad.contains i then w.xqParity (17 * 1024 + i) else w.timeSample i) 9 w
def execTimeSample (bad : List Nat) (s : State) : Host.Outcome State Fault Refusal := s.run (opTimeSample bad)

/-! ### Frequencies and setpoints (R484, R485) -/

/-- Table 16.4. Log entry 68. -/
def setpoints : List (Nat × Nat) := [(600, 620), (1000, 680), (1400, 750), (1800, 820), (1950, 860)]

/-- The minimum setpoint for a frequency between the rows of a table: linear, rounded up to a multiple of 5 mV. Log entry 68. -/
def setpointIn (f : Nat) : List (Nat × Nat) → Nat
  | (f0, v0) :: (f1, v1) :: r =>
    if f ≤ f1 then 5 * ceilDiv (v0 * (f1 - f0) + (v1 - v0) * (f - f0)) (5 * (f1 - f0)) else setpointIn f ((f1, v1) :: r)
  | (_, v) :: [] => v
  | [] => 0

/-- The setpoint firmware holds at a frequency: the minimum of Table 16.4 (log entry 68). -/
def setpointMv (f : Nat) : Nat := setpointIn (max f 600) setpoints

/-- The undivided core clock of die d in MHz. -/
def Dev.coreMhz (w : Dev) (d : Nat) : Nat := keyed w.clk.freq d 1800

/-- FREQ_NOW_MHZ of both dies: the divided clock while step 2 acts (R556). Log entry 39. -/
def Work.freqSync (w : Work) : Work :=
  forUpto (fun d w => w.put (Obj.freqNowMhz d) (if w.clk.div then w.coreMhz d / 2 else w.coreMhz d)) 2 w

/-- The change of die d under way. -/
def Dev.change? (w : Dev) (d : Nat) : Option ClkChange := w.clk.changes.find? (fun c => c.die == d)
/-- Replace it. -/
def Work.putChange (d : Nat) (c : Option ClkChange) (w : Work) : Work :=
  w.setClk (fun k => { k with changes := c.toList ++ k.changes.filter (fun q => q.die != d) })

/-- Die d begins to change to a frequency. -/
def Work.beginChange (d mhz : Nat) (w : Work) : Work :=
  let now := w.coreMhz d
  if mhz = now then w else
  let same := w.get (Obj.vcoreMv d) == setpointMv mhz
  let up := decide (now < mhz)
  w.putChange d (some ⟨d, mhz, up, false, up && same, false, w.time⟩)

/-- Die d's change is over; a target that waited begins. -/
def Work.endChange (d : Nat) (w : Work) : Work :=
  let w := w.putChange d none
  match w.clk.next.find? (fun p => p.1 == d) with
  | some p => (w.setClk (fun k => { k with next := k.next.filter (fun q => q.1 != d) })).beginChange d p.2
  | none => w

/-- The clock of die d switches to the PLL that has locked (R485). -/
def Work.switchClock (c : ClkChange) (w : Work) : Work :=
  let w := (w.setClk (fun k => { k with freq := keySet k.freq c.die c.mhz })).freqSync
  let w := (w.bump (Obj.freqChanges c.die) 1).event 0x0B02 31 0 (c.mhz * 2 ^ 16 + c.die)
  if c.up ∨ w.get (Obj.vcoreMv c.die) = setpointMv c.mhz then w.endChange c.die
  else w.putChange c.die (some { c with switched := true, start := w.time })

/-- PLL_LOCKED (R485): the idle PLL of die d has locked. A raise also waits for its setpoint. Log entry 39. -/
def opPllLocked (d : Fin 2) (w : Work) : Work :=
  match w.change? d.val with
  | some c =>
    if c.locked = true ∨ w.since c.start < 5000 then w
    else if c.up = true ∧ c.reached = false then w.putChange d.val (some { c with locked := true })
    else w.switchClock { c with locked := true }
  | none => w
def execPllLocked (d : Fin 2) (s : State) : Host.Outcome State Fault Refusal := s.run (opPllLocked d)

/-- SETPOINT_REACHED (R484, R485): at 10 mV a microsecond, from the start of a raise or from the switch of a lowering. Log entry 39. -/
def opSetpointReached (d : Fin 2) (w : Work) : Work :=
  match w.change? d.val with
  | some c =>
    let now := w.get (Obj.vcoreMv d.val)
    let v := setpointMv c.mhz
    if w.since c.start < 100 * ((v - now) + (now - v)) then w
    else if c.up then
      if c.reached then w else
      let w := w.put (Obj.vcoreMv d.val) v
      let c := { c with reached := true }
      if c.locked then w.switchClock c else w.putChange d.val (some c)
    else if c.switched then (w.put (Obj.vcoreMv d.val) v).endChange d.val
    else w
  | none => w
def execSetpointReached (d : Fin 2) (s : State) : Host.Outcome State Fault Refusal := s.run (opSetpointReached d)

/-! ### Targets (R486) -/

/-- The target of die d in force: the one that waits, the change under way, or the clock. -/
def Dev.targetMhz (w : Dev) (d : Nat) : Nat :=
  match w.clk.next.find? (fun p => p.1 == d) with
  | some p => p.2
  | none => match w.change? d with | some c => c.mhz | none => w.coreMhz d

/-- Firmware decides a target for die d; a die runs one change at a time. -/
def Work.setTarget (d mhz : Nat) (w : Work) : Work :=
  if mhz = w.targetMhz d then w else
  let w := w.setClk (fun k => { k with lastAt := keySet k.lastAt d w.time })
  match w.change? d with
  | some _ => w.setClk (fun k => { k with next := keySet k.next d mhz })
  | none => w.beginChange d mhz

/-- A context of class LC is ACTIVE. -/
def Dev.lcActive (w : Dev) : Bool := (upto 16).any (fun x => w.get (Obj.ctxState x) == 1 && w.ctxClass x == 0)

/-- The cap of step 1 on die d. -/
def Dev.capMhz (w : Dev) (d : Nat) : Option Nat := (w.clk.cap.find? (fun p => p.1 == d)).map (fun p => p.2.1)

/-- The limits of chapter 19 hold die d below LC_FLOOR_MHZ. -/
def Dev.belowFloor (w : Dev) (d : Nat) : Bool :=
  let f := w.get Obj.lcFloorMhz
  w.lcActive && ((match w.capMhz d with | some c => decide (c < f) | none => false) || (w.clk.div && decide (w.coreMhz d / 2 < f)))

/-- LC_FLOOR_BREACHED once per breach, and the time in it (R486). -/
def Work.floorCheck (w : Work) : Work :=
  forUpto (fun d w =>
    let was := w.clk.breach.find? (fun p => p.1 == d)
    let w := match was with | some p => w.bump (Obj.belowFloorNs d) (w.since p.2) | none => w
    let rest := w.clk.breach.filter (fun p => p.1 != d)
    if w.belowFloor d then
      let w := w.setClk (fun k => { k with breach := (d, w.time) :: rest })
      if was.isNone then w.event 0x0B03 31 0 (w.get (Obj.freqNowMhz d) * 2 ^ 16 + d) else w
    else w.setClk (fun k => { k with breach := rest })) 2 w

/-- THROTTLE_STEP and its events (R557): 2 while the divider acts, 1 while a die is capped; THROTTLE_STARTED when it rises,
THROTTLE_ENDED with the time throttled in µs when it returns to 0; THROTTLE_NS counts. -/
def Work.stepSync (w : Work) : Work :=
  let old := w.get Obj.throttleStep
  let new := if w.clk.div then 2 else if w.clk.cap.isEmpty then 0 else 1
  let w := if old = 0 then w else (w.bump Obj.throttleNs (w.since w.clk.thrTo)).setClk (fun k => { k with thrTo := w.time })
  let w := w.put Obj.throttleStep new
  let w := if old < new then
      let w := if old = 0 then w.setClk (fun k => { k with thrAt := some w.time, thrTo := w.time }) else w
      w.event 0x0B04 31 0 (new * 2 ^ 24 + w.get Obj.throttleCause)
    else w
  if new ≠ 0 then w else
  let w := w.put Obj.throttleCause 0
  match w.clk.thrAt with
  | some t => (w.setClk (fun k => { k with thrAt := none })).event 0x0B05 31 0 (w.since t / 1000)
  | none => w

/-- The target R486 chooses for die d; `auto` is the step that AUTO finds within the power and thermal limits. Log entry 39. -/
def Dev.baseTarget (w : Dev) (d auto : Nat) : Nat :=
  let lo := w.get (Obj.freqMinMhz d)
  let t := if w.get Obj.dvfsMode = 1 then w.get (Obj.freqFixedMhz d) else max lo (min (w.get (Obj.freqMaxMhz d)) (auto / 25 * 25))
  if w.lcActive then max t (w.get Obj.lcFloorMhz) else t

/-- The objects of DVFS_COMMIT. -/
def dvfsGroup : List Nat :=
  [Obj.dvfsMode, Obj.lcFloorMhz] ++ (upto 2).flatMap (fun d => [Obj.freqMinMhz d, Obj.freqMaxMhz d, Obj.freqFixedMhz d])

/-- A value of the pending group is clamped. -/
def Work.fixPend (wr : Writer) (n v : Nat) (w : Work) : Work := (w.clampTo wr n (w.getP n) v).putP n v

/-- The clamps of R489, in their order. -/
def Work.dvfsClamp (wr : Writer) (w : Work) : Work :=
  let step := fun (n : Nat) (w : Work) => w.fixPend wr n (max 600 (min 1950 (w.getP n / 25 * 25)))
  let w := step Obj.lcFloorMhz w
  forUpto (fun d w =>
    let w := step (Obj.freqFixedMhz d) (step (Obj.freqMaxMhz d) (step (Obj.freqMinMhz d) w))
    let w := w.fixPend wr (Obj.freqMaxMhz d) (max (w.getP (Obj.freqMaxMhz d)) (w.getP (Obj.freqMinMhz d)))
    w.fixPend wr (Obj.freqFixedMhz d)
      (max (w.getP (Obj.freqMinMhz d)) (min (w.getP (Obj.freqMaxMhz d)) (w.getP (Obj.freqFixedMhz d))))) 2 w

/-- DVFS_COMMIT (R489): pending until the next decision. -/
def opDvfsCommit (wr : Writer) (w : Work) : Work :=
  w.gated wr .host Obj.dvfsCommit (fun w =>
    if w.get Obj.dvfsCommit = 1 then w.noAction wr Obj.dvfsCommit 1
    else (w.commitReq wr Obj.dvfsCommit dvfsGroup []).dvfsClamp wr)
def execDvfsCommit (wr : Writer) (s : State) : Host.Outcome State Fault Refusal := s.run (opDvfsCommit wr)

/-- DVFS_DECISION (R486): firmware chooses each die's target; a pending DVFS_COMMIT applies first. A target changes at most once per
100 µs, but for a raise that the LC floor requires. Log entry 39. -/
def opDvfsDecision (auto0 auto1 : Nat) (w : Work) : Work :=
  if w.ready = false then w else
  let w := if w.get Obj.dvfsCommit = 1 then (w.groupToActive dvfsGroup []).put Obj.dvfsCommit 0 else w
  let w := forUpto (fun d w =>
    let base := w.baseTarget d (if d = 0 then auto0 else auto1)
    let w := match w.capMhz d with
      | some c => if base ≤ c then w.setClk (fun k => { k with cap := k.cap.filter (fun p => p.1 != d) }) else w
      | none => w
    let t := match w.capMhz d with | some c => min base c | none => base
    let cur := w.targetMhz d
    let floor := w.lcActive && decide (cur < w.get Obj.lcFloorMhz) && decide (cur < t)
    if floor || decide (100000 ≤ w.since (keyed w.clk.lastAt d 0)) || w.clk.lastAt.all (fun p => p.1 != d) then w.setTarget d t else w) 2 w
  w.stepSync.floorCheck
def execDvfsDecision (auto0 auto1 : Nat) (s : State) : Host.Outcome State Fault Refusal := s.run (opDvfsDecision auto0 auto1)

end Sys2Proof.Machine
end

