-- ==== Sys2Proof/Machine/ExtMem.lean ====
section
/-!
DEFINITION. Sys2Proof/Machine/ExtMem.lean: external memory (chapter 09): returned codewords, scrubs, couching buffers,
tension regulators, spills and fills, temperatures.
-/
namespace Sys2Proof.Machine

/-! ### Lanes (R275) -/

/-- The known erased lanes of the pseudo-channel or channel of a place. -/
def Dev.erasedLanes (w : Dev) (p : ExtPlace) : List Nat :=
  if p.tier = 0 then
    let m := w.blobNat .active (Obj.stackErased p.part) (8 * p.pc) 8
    (upto 36).filter (fun k => bitOf m k)
  else
    let m := w.blobNat .active (Obj.pkgErased p.part) (2 * p.pc) 2
    (upto 16).filter (fun k => bitOf m k)

/-- Mark a lane as a known erasure. -/
def Work.eraseLane (p : ExtPlace) (l : Nat) (w : Work) : Work :=
  if p.tier = 0 then
    let m := w.blobNat .active (Obj.stackErased p.part) (8 * p.pc) 8
    w.blobPut .active (Obj.stackErased p.part) (8 * p.pc) (m ||| 2 ^ l) 8
  else
    let m := w.blobNat .active (Obj.pkgErased p.part) (2 * p.pc) 2
    w.blobPut .active (Obj.pkgErased p.part) (2 * p.pc) (m ||| 2 ^ l) 2

/-- The largest number of known erasures that a set of lanes puts into a codeword: one a lane on the fast tier; on the
slow tier two a lane and one more for a check symbol, over the four places of the check bytes (R273, R274). -/
def erasuresOf (tier : Nat) (ls : List Nat) : Nat :=
  if tier = 0 then ls.length
  else 2 * ls.length + ((upto 4).map (fun g => (ls.filter (fun l => l / 4 == g)).length)).foldl max 0

/-- The key of a lane. -/
def laneKey (p : ExtPlace) (l : Nat) : Nat := ((p.tier * 16 + p.part) * 64 + p.pc) * 64 + l

/-- The lane has reached its threshold: LANE_ERASED, marked unless that would put more than 4 known erasures into some
codeword (R275). -/
def Work.laneThreshold (p : ExtPlace) (l : Nat) (w : Work) : Work :=
  let ls := w.erasedLanes p
  if ls.contains l then w
  else if 4 < erasuresOf p.tier (l :: ls) then w.event 0x0504 31 p.source (p.where31 + 2 ^ 6 + l)
  else (w.eraseLane p l).event 0x0504 31 p.source (p.where31 + l)

/-- One corrected symbol of a lane is counted (R275). -/
def Work.laneSymbol (p : ExtPlace) (l : Nat) (w : Work) : Work :=
  let obj := if p.tier = 0 then Obj.stackLaneCe p.part else Obj.pkgLaneCe p.part
  let off := if p.tier = 0 then 4 * (36 * p.pc + l) else 4 * (16 * p.pc + l)
  let w := w.blobPut .active obj off (min (w.blobNat .active obj off 4 + 1) (maxU 32)) 4
  let w := w.bump (if p.tier = 0 then Obj.stackCe p.part else Obj.pkgCe p.part) 1
  let key := laneKey p l
  let win := w.get Obj.laneErrWindowMs * 1000000
  let ts := match w.ext.lanes.find? (fun e => e.1 == key) with | some e => e.2 | none => []
  let ts := w.time :: ts.filter (fun t => decide (w.since t < win))
  let hit := decide (w.get Obj.laneErrThresh ≤ ts.length)
  let rest := w.ext.lanes.filter (fun e => e.1 != key)
  let w := { w with ext := { w.ext with lanes := if hit then rest else (key, ts) :: rest } }
  if hit then w.laneThreshold p l else w

/-! ### Codewords (R274 to R278) -/

/-- The stored error pattern of a sector. -/
def Dev.sectorErrs (w : Dev) (a : Nat) : List (Nat × Nat) :=
  match w.ext.errs.find? (fun e => e.1 == a) with | some e => e.2 | none => []

/-- Two error patterns together: differences of one symbol add in the field. -/
def mergeErrs (a b : List (Nat × Nat)) : List (Nat × Nat) :=
  (b.foldl (fun l p =>
    if l.any (fun q => q.1 == p.1) then l.map (fun q => if q.1 = p.1 then (q.1, q.2 ^^^ p.2) else q) else l ++ [p]) a).filter
    (fun q => q.2 != 0)

/-- Set the stored error pattern of a sector. -/
def Work.setErrs (a : Nat) (e : List (Nat × Nat)) (w : Work) : Work :=
  let rest := w.ext.errs.filter (fun x => x.1 != a)
  { w with ext := { w.ext with errs := if e.isEmpty then rest else (a, e) :: rest } }

/-- Symbols 0 to 35 and byte differences of an error pattern. -/
def legalErrs (e : List (Nat × Nat)) : List (Nat × Nat) := e.filter (fun p => decide (p.1 < 36) && decide (p.2 < 256))

/-- The decoder's answer for a sector: its stored errors with new ones, and the counters of a correction. -/
def Work.decodeSector (p : ExtPlace) (a : Nat) (flips : List (Nat × Nat)) (w : Work) : RsOut × Work :=
  let e := mergeErrs (w.sectorErrs a) (legalErrs flips)
  let w := w.setErrs a e
  let out := if w.ext.ue.contains a then .bad else rsDecode p (w.erasedLanes p) (w.get Obj.eccMode) e
  let ce := if p.tier = 0 then Obj.ceFast else Obj.ceSlow
  match out with
  | .clean => (out, w)
  | .fixed v => (out, v.foldl (fun w s => w.laneSymbol p (p.lane s.1)) (w.bump ce 1))
  | .retried v l =>
    let w := v.foldl (fun w s => w.laneSymbol p (p.lane s.1)) ((w.bump ce 1).bump Obj.laneRetryOk 1)
    (out, w.laneThreshold p l)
  | .bad =>
    let w := { w with ext := { w.ext with ue := if w.ext.ue.contains a then w.ext.ue else a :: w.ext.ue } }
    (out, w.bump (if p.tier = 0 then Obj.stackUe p.part else Obj.pkgUe p.part) 1)

/-- EXT_SCRUB (R278): the scrub reads a sector and writes a corrected codeword back, unless a write reached the controller
between (`raced`); an uncorrectable one is logged, no command ends. -/
def opExtScrub (a : Nat) (flips : List (Nat × Nat)) (raced : Bool) (w : Work) : Work :=
  let a := a / 32 * 32
  match extPlace a with
  | some p =>
    let (out, w) := w.decodeSector p a flips
    match out with
    | .bad => w.log1 0x0511 31 p.source p.location (a % 2 ^ 64)
    | .clean => w
    | _ => if raced then w else w.setErrs a []
  | none => w

def execExtScrub (a : Nat) (flips : List (Nat × Nat)) (raced : Bool) (s : State) : Host.Outcome State Fault Refusal :=
  s.run (opExtScrub a flips raced)

/-- DRAM_TEMP_POLL (R264, R265): the readouts of stacks 0 to 11 and packages 0 to 7 in °C; a part without one keeps its
reading. -/
def opDramTempPoll (stackC pkgs : List Int) (w : Work) : Work :=
  let w := (stackC.take 12).zipIdx.foldl (fun w p => w.put (Obj.stackTemp p.2) (toSigned 32 p.1)) w
  (pkgs.take 8).zipIdx.foldl (fun w p => w.put (Obj.pkgTemp p.2) (toSigned 32 p.1)) w

def execDramTempPoll (stackC pkgs : List Int) (s : State) : Host.Outcome State Fault Refusal :=
  s.run (opDramTempPoll stackC pkgs)

/-! ### Couching buffers (R279 to R283) -/

/-- The controller of an address: near memory of C0 and C1 are 0 and 1, stack s is 2 + s, package p is 14 + p. -/
def controllerOf (a : Nat) : Option Nat :=
  match extPlace a with
  | some p => some (if p.tier = 0 then 2 + p.part else 14 + p.part)
  | none => if 0x020000000000 ≤ a ∧ a < 0x020800000000 then some ((a - 0x020000000000) / 0x000400000000) else none

/-- Entries of a controller's buffer (R279). -/
def couchSize (ctl : Nat) : Nat := if ctl < 2 then 1024 else if ctl < 14 then 512 else 256

/-- Bytes of one codeword. -/
def codewordBytes (ctl : Nat) : Nat := if ctl < 2 then 8 else 32

/-- Replace the entries. -/
def Work.setCouch (l : List Couch) (w : Work) : Work := { w with ext := { w.ext with couch := l } }

/-- The entry of a line. -/
def Dev.couch? (w : Dev) (ctl line : Nat) : Option Couch := w.ext.couch.find? (fun e => e.ctl == ctl && e.line == line)

/-- The context of the last write to each codeword that bytes [lo, lo + n) of a line touch. -/
def ownersPut (l : List (Nat × Nat)) (cw x lo n : Nat) : List (Nat × Nat) :=
  (upto ((lo + n - 1) / cw - lo / cw + 1)).foldl (fun l i =>
    let k := lo / cw + i
    (k, x) :: l.filter (fun p => p.1 != k)) l

/-- The bytes [lo, lo + n) of a line as a mask. -/
def maskOf (lo n : Nat) : Nat := (2 ^ n - 1) * 2 ^ lo

/-- A write of bytes within one line reaches its controller (R280). A partial write that finds the buffer full waits: it
has not arrived (R283). -/
def Work.couchLine (x ctl a : Nat) (d : List Byte) (w : Work) : Work :=
  let line := a / 128
  let lo := a % 128
  let n := d.length
  let cw := codewordBytes ctl
  match w.couch? ctl line with
  | some e =>
    let e' := { e with valid := e.valid ||| maskOf lo n, owners := ownersPut e.owners cw x lo n, last := x }
    let w := w.setCouch (w.ext.couch.map (fun (g : Couch) => if g.ctl = ctl ∧ g.line = line then e' else g))
    (w.bump Obj.couchMerges 1).engWrite x a d
  | none =>
    if lo % cw = 0 ∧ n % cw = 0 then w.engWrite x a d
    else
      let used := (w.ext.couch.filter (fun e => e.ctl == ctl)).length
      if couchSize ctl ≤ used then w
      else
        let e : Couch := ⟨ctl, line, maskOf lo n, w.read (line * 128) 128, ownersPut [] cw x lo n, x, w.time,
          w.get Obj.couchHoldNs⟩
        let w := w.setCouch (w.ext.couch ++ [e])
        let w := if couchSize ctl * 7 ≤ (used + 1) * 8 ∧ !w.ext.draining.contains ctl
          then { w with ext := { w.ext with draining := ctl :: w.ext.draining } } else w
        w.engWrite x a d

/-- COUCH_WRITE (R280): a write of context x reaches the controllers; a write over several lines reaches each. -/
def Work.couchWrite (x : Nat) : Nat → List Byte → Nat → Work → Work
  | _, _, 0, w => w
  | a, d, k + 1, w =>
    if d.isEmpty then w else
    let n := min d.length (128 - a % 128)
    let w := match controllerOf a with
      | some ctl => w.couchLine x ctl a (d.take n)
      | none => w.engWrite x a (d.take n)
    Work.couchWrite x (a + n) (d.drop n) k w

def opCouchWrite (x : Fin 16) (a : Nat) (d : List Byte) (w : Work) : Work := w.couchWrite x.val a d (d.length / 128 + 2)

def execCouchWrite (x : Fin 16) (a : Nat) (d : List Byte) (s : State) : Host.Outcome State Fault Refusal :=
  s.run (opCouchWrite x a d)

/-- A codeword of an entry is only partly valid: it needs a read-modify-write (R281). -/
def Couch.partly (e : Couch) (cw k : Nat) : Bool :=
  let m := bits e.valid (k * cw) cw
  m != 0 && m != 2 ^ cw - 1

/-- The read of codeword k's read-modify-write: whether it proves uncorrectable. `bad` lists codewords whose word is. -/
def Work.rmwRead (e : Couch) (cw k : Nat) (bad : List Nat) (w : Work) : Bool × Work :=
  let a := e.line * 128 + k * cw
  let w := w.bump Obj.rmwCount 1
  match extPlace a with
  | some p =>
    let w := if bad.contains k && !w.ext.ue.contains a then { w with ext := { w.ext with ue := a :: w.ext.ue } } else w
    let (out, w) := w.decodeSector p a []
    (match out with
     | .bad => (true, w)
     | _ => (false, w.setErrs a []))
  | none => (bad.contains k, if bad.contains k then w.bumpUe Obj.ueCount else w)

/-- An entry retires (R281, R282): codewords whose read-modify-write proves uncorrectable keep their stored bytes. The
location of a near-memory codeword is a free value: R300 gives one for the tiers only (log entry 21). -/
def Work.retire (e : Couch) (bad : List Nat) (w : Work) : Work :=
  let cw := codewordBytes e.ctl
  let w := w.setCouch (w.ext.couch.filter (fun g => !(g.ctl == e.ctl && g.line == e.line)))
  forUpto (fun k w =>
    if e.partly cw k then
      let (ue, w) := w.rmwRead e cw k bad
      if ue then
        let a := e.line * 128 + k * cw
        let w := w.write a ((e.old.drop (k * cw)).take cw)
        let x := match e.owners.find? (fun p => p.1 == k) with | some p => p.2 | none => e.last
        let (loc, src, w) := match extPlace a with
          | some p => (p.location, p.source, w)
          | none => let (v, w) := w.freeDraw; (v % 2 ^ 32, onchipSource a, w)
        (w.bumpUe Obj.deferredUeCount).log1 0x0505 x src loc (a % 2 ^ 64)
      else w
    else if bits e.valid (k * cw) cw = 0 then w
    else
      let a := e.line * 128 + k * cw
      let w := w.setErrs a []
      { w with ext := { w.ext with ue := w.ext.ue.filter (fun b => b != a) } }) (128 / cw) w

/-- The oldest entry of a controller's buffer. -/
def Dev.oldestCouch (w : Dev) (ctl : Nat) : Option Couch := w.ext.couch.find? (fun e => e.ctl == ctl)

/-- COUCH_RETIRE (R281): the entry of a line retires, when it is full, has been held for its time, is the oldest of a
buffer that reached 7/8 occupancy, or its controller drains for a reset. Log entry 21. -/
def opCouchRetire (ctl : Fin 22) (line : Nat) (bad : List Nat) (reset : Bool) (w : Work) : Work :=
  let ctl := ctl.val
  match w.couch? ctl line with
  | some e =>
    let drain := w.ext.draining.contains ctl && (match w.oldestCouch ctl with | some o => o.line == line | none => false)
    if e.valid = 2 ^ 128 - 1 ∨ e.hold ≤ w.since e.time ∨ drain = true ∨ reset = true then
      let w := w.retire e bad
      let used := (w.ext.couch.filter (fun g => g.ctl == ctl)).length
      if used * 4 < couchSize ctl * 3
      then { w with ext := { w.ext with draining := w.ext.draining.filter (fun c => c != ctl) } } else w
    else w
  | none => w

def execCouchRetire (ctl : Fin 22) (line : Nat) (bad : List Nat) (reset : Bool) (s : State) :
    Host.Outcome State Fault Refusal :=
  s.run (opCouchRetire ctl line bad reset)

/-- SOURCE of a controller. -/
def ctlSource (ctl : Nat) : Nat :=
  if ctl < 2 then 0x4000 + 128 * ctl else if ctl < 14 then 0x5000 + (ctl - 2) else 0x6000 + (ctl - 14)

/-- A controller discards the entries it still holds (R294): the bytes under them come back, COUCH_LOST with the count,
and one record for each of up to 64 lines. -/
def Work.couchLost (ctl : Nat) (w : Work) : Work :=
  let es := w.ext.couch.filter (fun e => e.ctl == ctl)
  if es.isEmpty then w else
  let w := w.setCouch (w.ext.couch.filter (fun e => e.ctl != ctl))
  let w := es.foldl (fun w e => w.write (e.line * 128) e.old) w
  let w := w.event 0x0508 31 (ctlSource ctl) es.length
  (es.take 64).foldl (fun w e =>
    w.log1 0x0508 31 (ctlSource ctl) es.length (e.line * 128 % 2 ^ 64 + e.last * 2 ^ 64 + 1 * 2 ^ 72)) w

/-! ### Tension regulators (R284 to R289) -/

/-- A fraction in lowest terms. -/
def Frac.mk' (n : Int) (d : Nat) : Frac :=
  let g := Nat.gcd n.natAbs d
  ⟨n / (g : Int), d / g⟩
/-- The sum. -/
def Frac.add (a b : Frac) : Frac := Frac.mk' (a.n * b.d + b.n * a.d) (a.d * b.d)
/-- The product. -/
def Frac.mul (a b : Frac) : Frac := Frac.mk' (a.n * b.n) (a.d * b.d)
/-- An integer. -/
def Frac.ofInt (i : Int) : Frac := ⟨i, 1⟩
/-- a < b. -/
def Frac.lt (a b : Frac) : Bool := decide (a.n * b.d < b.n * a.d)
/-- The smaller. -/
def Frac.min (a b : Frac) : Frac := if b.lt a then b else a

/-- Bytes of a full bucket: BURST_KIB × 1,024 × share. Log entry 16. -/
def Dev.regBurst (w : Dev) (x t : Nat) (share : Frac) : Frac :=
  (Frac.ofInt (w.get (Obj.burstKib x t) * 1024)).mul share

/-- The regulator of a context, tier and half. One that has seen no request has full buckets and a share of 1/2 (R286;
log entry 16: the spec gives the buckets no reset value). -/
def Dev.reg (w : Dev) (x t h : Nat) : Reg :=
  match w.ext.regs.find? (fun r => r.ctx == x && r.t == t && r.h == h) with
  | some r => r
  | none => ⟨x, t, h, w.regBurst x t ⟨1, 2⟩, w.regBurst x t ⟨1, 2⟩, w.time, ⟨1, 2⟩, 0, []⟩

/-- Replace a regulator. -/
def Work.putReg (r : Reg) (w : Work) : Work :=
  { w with ext := { w.ext with
    regs := r :: w.ext.regs.filter (fun q => !(q.ctx == r.ctx && q.t == r.t && q.h == r.h)) } }

/-- The refill of both buckets: MB/s times ns is a thousandth of a byte. Log entry 16. -/
def Dev.refill (w : Dev) (r : Reg) : Reg :=
  let burst := w.regBurst r.ctx r.t r.share
  let gain := fun (rate : Nat) => ((Frac.mk' (rate * w.since r.last : Nat) 1000).mul r.share)
  { r with
    minb := burst.min (r.minb.add (gain (w.get (Obj.minMbps r.ctx r.t))))
    capb := burst.min (r.capb.add (gain (w.get (Obj.capMbps r.ctx r.t))))
    last := w.time }

/-- The cap holds a request that is not tile-bound (R285). -/
def Dev.regHolds (w : Dev) (r : Reg) (tileBound : Bool) : Bool :=
  !tileBound && r.capb.lt ⟨0, 1⟩ && w.get (Obj.capMbps r.ctx r.t) != 0xFFFFFFFF

/-- A request of n bytes passes: classified and debited. Log entry 50. -/
def Work.regPass (r : Reg) (n : Nat) (w : Work) : Work :=
  let guar := (Frac.lt ⟨0, 1⟩ r.minb)
  let r := { r with
    minb := if guar then r.minb.add ⟨-(n : Int), 1⟩ else r.minb
    capb := r.capb.add ⟨-(n : Int), 1⟩ }
  let w := (w.putReg r).bump (Obj.tierBytes r.ctx r.t) n
  if guar then w.bump (Obj.guarBytes r.ctx r.t) n else w

/-- REGULATOR_REQUEST (R285): a request of n bytes of context x reaches the regulator of a half; bytes count in whole
sectors (R284). -/
def opRegulatorRequest (x : Fin 16) (t : Fin 3) (h : Fin 2) (n : Nat) (tileBound : Bool) (w : Work) : Work :=
  let n := ceilDiv n 32 * 32
  let r := w.refill (w.reg x.val t.val h.val)
  let r := { r with req := r.req + n }
  if w.regHolds r tileBound then w.putReg { r with held := r.held ++ [(n, w.time)] } else w.regPass r n

def execRegulatorRequest (x : Fin 16) (t : Fin 3) (h : Fin 2) (n : Nat) (tileBound : Bool) (s : State) :
    Host.Outcome State Fault Refusal :=
  s.run (opRegulatorRequest x t h n tileBound)

/-- REGULATOR_RETRY (R285): the oldest held request is tried again. -/
def opRegulatorRetry (x : Fin 16) (t : Fin 3) (h : Fin 2) (w : Work) : Work :=
  let r := w.refill (w.reg x.val t.val h.val)
  match r.held with
  | (n, at0) :: rest =>
    if w.regHolds r false then w.putReg r
    else (w.bump (Obj.heldNs x.val t.val) (w.since at0)).regPass { r with held := rest } n
  | [] => w

def execRegulatorRetry (x : Fin 16) (t : Fin 3) (h : Fin 2) (s : State) : Host.Outcome State Fault Refusal :=
  s.run (opRegulatorRetry x t h)

/-- A half's share of bytes requested: in proportion, with a floor of 1/8 for each half, 1/2 with none (R286). -/
def shareOf (mine other : Nat) : Frac :=
  if mine + other = 0 then ⟨1, 2⟩
  else if 8 * mine < mine + other then ⟨1, 8⟩
  else if 8 * other < mine + other then ⟨7, 8⟩
  else Frac.mk' mine (mine + other)

/-- REGULATOR_SHARE_UPDATE (R286): every 10 µs the shares follow the bytes of the interval just ended. -/
def opRegulatorShareUpdate (w : Work) : Work :=
  if 10000 ≤ w.since w.ext.shareAt then
    let at1 := w.ext.regs
    let upd := at1.map (fun (r : Reg) =>
      let o := match at1.find? (fun q => q.ctx == r.ctx && q.t == r.t && q.h != r.h) with | some q => q.req | none => 0
      { r with share := shareOf r.req o, req := 0 })
    -- the other half of a pair that has seen no request takes its share too
    let more := at1.filterMap (fun r =>
      if at1.any (fun q => q.ctx == r.ctx && q.t == r.t && q.h != r.h) then none
      else some { w.reg r.ctx r.t (1 - r.h) with share := shareOf 0 r.req })
    { w with ext := { w.ext with regs := upd ++ more, shareAt := w.time } }
  else w

def execRegulatorShareUpdate (s : State) : Host.Outcome State Fault Refusal := s.run opRegulatorShareUpdate

/-- MIN_CEIL of a tier. -/
def minCeil (t : Nat) : Nat := if t = 0 then Obj.minCeilNear else if t = 1 then Obj.minCeilFast else Obj.minCeilSlow

/-- Sum of MIN_MBPS of a tier over the contexts but x. -/
def Dev.minOthers (w : Dev) (x t : Nat) : Nat := ((upto 16).map (fun c => if c = x then 0 else w.get (Obj.minMbps c t))).sum

/-- A write of MIN_MBPS (R289): clamped so that the tier's sum stays at or below the ceiling; CAP_MBPS stays at or above
it. -/
def Work.writeMin (wr : Writer) (x t v : Nat) (w : Work) : Work :=
  let v32 := v % 2 ^ 32
  let held := min v32 (w.get (minCeil t) - w.minOthers x t)
  let num := Obj.minMbps x t
  let w := (w.put num held).clampTo wr num v32 held
  let cap := w.get (Obj.capMbps x t)
  if cap < held then (w.put (Obj.capMbps x t) held).clampTo wr (Obj.capMbps x t) cap held else w

/-- A write of CAP_MBPS (R289). -/
def Work.writeCap (wr : Writer) (x t v : Nat) (w : Work) : Work :=
  let v32 := v % 2 ^ 32
  let held := max v32 (w.get (Obj.minMbps x t))
  (w.put (Obj.capMbps x t) held).clampTo wr (Obj.capMbps x t) v32 held

/-- A change of NEAR_AGENT_MIN moves the near ceiling, 80 % of twice the class 3 share (R289); minimums above it are
scaled down in proportion, each scaling a clamp. -/
def Work.nearAgentMin (wr : Writer) (v : Nat) (w : Work) : Work :=
  let held := min v 50
  let w := (w.put Obj.nearAgentMin held).clampTo wr Obj.nearAgentMin v held
  let ceil := held * 496000
  let w := w.put Obj.minCeilNear ceil
  let sum := ((upto 16).map (fun c => w.get (Obj.minMbps c 0))).sum
  if sum ≤ ceil then w
  else forUpto (fun c w =>
    let m := w.get (Obj.minMbps c 0)
    let m' := m * ceil / sum
    (w.put (Obj.minMbps c 0) m').clampTo wr (Obj.minMbps c 0) m m') 16 w

/-! ### Spilling (R295 to R299) -/

/-- The mappable slow tier. -/
def inSlow (a len : Nat) : Bool := decide (0x010000000000 ≤ a) && decide (a + len ≤ 0x01E380000000)

/-- Bytes of the pool that are taken. -/
def Dev.poolUsed (w : Dev) : Nat := (w.ext.pool.map (fun p => p.len)).sum

/-- Replace the pool's uses and the free count. -/
def Work.setPool (l : List PoolUse) (w : Work) : Work :=
  let w := { w with ext := { w.ext with pool := l } }
  w.put Obj.spillPoolFree (w.get Obj.spillPoolLen - w.poolUsed)

/-- SPILL_POOL_COMMIT (R295): the pool takes the staged range; a base outside the slow tier leaves no pool; a range that
would leave an allocated copy outside is clamped to keep it. -/
def opSpillPoolCommit (wr : Writer) (w : Work) : Work :=
  w.gated wr .priv Obj.spillPoolCommit (fun w =>
    let base := w.getS Obj.spillPoolBase
    let len := w.getS Obj.spillPoolLen
    let (b, n) := if inSlow base 0 = true ∧ base < 0x01E380000000 then (base, min len (0x01E380000000 - base)) else (base, 0)
    let lo := w.ext.pool.foldl (fun m p => min m p.base) b
    let hi := w.ext.pool.foldl (fun m p => max m (p.base + p.len)) (b + n)
    let (b', n') := if w.ext.pool.isEmpty then (b, n) else (lo, hi - lo)
    let w := (w.put Obj.spillPoolBase b').put Obj.spillPoolLen n'
    let w := (w.clampTo wr Obj.spillPoolBase base b').clampTo wr Obj.spillPoolLen len n'
    w.setPool w.ext.pool)

def execSpillPoolCommit (wr : Writer) (s : State) : Host.Outcome State Fault Refusal := s.run (opSpillPoolCommit wr)

/-- First free 64 KiB-aligned place of len bytes in the pool, from `a` up; fuel bounds the uses passed. -/
def Dev.poolFit (w : Dev) (len a : Nat) : Nat → Option Nat
  | 0 => none
  | k + 1 =>
    if w.get Obj.spillPoolBase + w.get Obj.spillPoolLen < a + len then none
    else
      match w.ext.pool.find? (fun p => decide (p.base < a + len) && decide (a < p.base + p.len)) with
      | some p => Dev.poolFit w len (p.base + p.len) k
      | none => some a

/-- First-fit in 64 KiB units (R295). -/
def Dev.poolPlace (w : Dev) (len : Nat) : Option Nat :=
  w.poolFit (ceilDiv len 65536 * 65536) (w.get Obj.spillPoolBase) (w.ext.pool.length + 1)

/-- First byte and length of a descriptor's range. -/
def segSpan (d : Nat) : Nat × Nat := (segBase d * 4096, (segLimit d + 1 - segBase d) * 4096)

/-- The range overlaps a valid segment of another context (R296). -/
def Dev.otherMaps (w : Dev) (x a len : Nat) : Bool :=
  (upto 16).any (fun c => c != x && (w.segTable .active c).any (fun p =>
    segValid p.2 && overlap (a, a + len - 1) ((segSpan p.2).1, (segSpan p.2).1 + (segSpan p.2).2 - 1)))

/-- The range lies wholly in the fast tier or in one near memory. -/
def inFastOrNear (a len : Nat) : Bool :=
  decide (a + len ≤ 0x006C00000000)
    || (decide (nearBase 0 ≤ a) && decide (a + len ≤ nearBase 1))
    || (decide (nearBase 1 ≤ a) && decide (a + len ≤ 0x020800000000))

/-- The reason of Table 09.9 for which a spill is refused, none when it may start. -/
def Dev.spillRefusal (w : Dev) (x i : Nat) : Option Nat :=
  let d := w.blobNat .active (Obj.segTable x) (16 * i) 16
  let (a, len) := segSpan d
  if w.ctxClass x = 0 then some 1
  else if segValid d = false then some 3
  else if segShr d = true ∨ w.otherMaps x a len = true then some 2
  else if inFastOrNear a len = false then some 3
  else if (w.poolPlace len).isNone then some 4
  else if w.spilling x = true ∨ w.get (Obj.segCommit x) = 1 then some 5
  else none

/-- A request is refused: state and reason. -/
def Work.spillRefuse (x r : Nat) (w : Work) : Work := (w.put (Obj.spillState x) 4).put (Obj.spillResult x) r

/-- A spill or fill starts: HOLDING, and COPYING at once when nothing is in flight. -/
def Work.spillStart (sp : Spill) (w : Work) : Work :=
  ((w.setSpills (w.ext.spills ++ [sp])).put (Obj.spillState sp.ctx) 1).spillStep sp.ctx

/-- A spill of segment i of context x that is not refused: pool space taken, the spill started. -/
def Work.spillGo (x i : Nat) (w : Work) : Work :=
  match w.spillRefusal x i with
  | some r => w.spillRefuse x r
  | none =>
    let (a, len) := segSpan (w.blobNat .active (Obj.segTable x) (16 * i) 16)
    let place := (w.poolPlace len).getD 0
    let w := w.setPool (w.ext.pool ++ [⟨x, i, place, ceilDiv len 65536 * 65536⟩])
    w.spillStart ⟨x, i, false, a, place, len, false, w.time⟩

/-- SPILL_REQ (R296). -/
def opSpillReq (wr : Writer) (x : Fin 16) (v : Nat) (w : Work) : Work :=
  w.gated wr (.privCtx x.val) (Obj.spillReq x.val) (fun w =>
    if 63 < v then w.noAction wr (Obj.spillReq x.val) v else w.spillGo x.val v)

def execSpillReq (wr : Writer) (x : Fin 16) (v : Nat) (s : State) : Host.Outcome State Fault Refusal :=
  s.run (opSpillReq wr x v)

/-- A place for a fill: in the fast tier or one near memory's mappable part, and mapped by no segment (R298). -/
def Dev.fillPlace (w : Dev) (a len : Nat) : Bool :=
  let ok := decide (a + len ≤ 0x006C00000000)
    || [0, 1].any (fun d => decide ((w.nearMappable d).first ≤ a) && decide (a + len ≤ (w.nearMappable d).last + 1))
  ok && !(upto 16).any (fun c => (w.segTable .active c).any (fun p =>
    segValid p.2 && overlap (a, a + len - 1) ((segSpan p.2).1, (segSpan p.2).1 + (segSpan p.2).2 - 1)))

/-- The reason for which a fill of segment i is refused. -/
def Dev.fillRefusal (w : Dev) (x i : Nat) : Option Nat :=
  let d := w.blobNat .active (Obj.segTable x) (16 * i) 16
  let (a, len) := segSpan d
  if w.ctxClass x = 0 then some 1
  else if segValid d = false ∨ bitOf (w.get (Obj.spilledSegs x)) i = false then some 3
  else if segShr d = true ∨ w.otherMaps x a len = true then some 2
  else if w.fillPlace (w.get (Obj.fillBase x)) len = false then some 3
  else if w.spilling x = true ∨ w.get (Obj.segCommit x) = 1 then some 5
  else none

/-- FILL_REQ (R298). -/
def opFillReq (wr : Writer) (x : Fin 16) (v : Nat) (w : Work) : Work :=
  w.gated wr (.privCtx x.val) (Obj.fillReq x.val) (fun w =>
    if 63 < v then w.noAction wr (Obj.fillReq x.val) v else
    match w.fillRefusal x.val v with
    | some r => w.spillRefuse x.val r
    | none =>
      let (a, len) := segSpan (w.blobNat .active (Obj.segTable x.val) (16 * v) 16)
      w.spillStart ⟨x.val, v, true, a, w.get (Obj.fillBase x.val), len, false, w.time⟩)

def execFillReq (wr : Writer) (x : Fin 16) (v : Nat) (s : State) : Host.Outcome State Fault Refusal :=
  s.run (opFillReq wr x v)

/-- A spill or fill of context x ends: its record leaves. -/
def Work.spillDrop (x : Nat) (w : Work) : Work := w.setSpills (w.ext.spills.filter (fun s => s.ctx != x))

/-- A spill that ends without its copy gives its pool space back (R299). -/
def Work.spillUndo (sp : Spill) (result : Nat) (w : Work) : Work :=
  let w := w.spillDrop sp.ctx
  let w := if sp.fill then w else w.setPool (w.ext.pool.filter (fun p => !(p.ctx == sp.ctx && p.seg == sp.seg)))
  (w.put (Obj.spillState sp.ctx) 3).put (Obj.spillResult sp.ctx) result

/-- SPILL_HOLD_TIMEOUT (R296, R419): a hold longer than WAIT_TMO ends the spill with TIMEOUT; the arena's hold of a
context for a spill ends, and that context's blocks are left. Log entry 50. -/
def opSpillHoldTimeout (x : Fin 16) (w : Work) : Work :=
  match w.ext.spills.find? (fun s => s.ctx == x.val && !s.copying) with
  | some sp => if w.get (Obj.waitTmo x.val) * 1000 < w.since sp.start then w.spillUndo sp 6 else w
  | none => w.growTimeout x.val

def execSpillHoldTimeout (x : Fin 16) (s : State) : Host.Outcome State Fault Refusal := s.run (opSpillHoldTimeout x)

/-- A context reset or DISABLE ends a spill with ABORTED (R299). -/
def Work.spillAbort (x : Nat) (w : Work) : Work :=
  match w.ext.spills.find? (fun s => s.ctx == x) with
  | some sp => w.spillUndo sp 7
  | none => w

/-- Rewrite the range of descriptor i of the table in force (R297). -/
def Work.retarget (x i base len : Nat) (w : Work) : Work :=
  let d := w.blobNat .active (Obj.segTable x) (16 * i) 16
  w.blobPut .active (Obj.segTable x) (16 * i) (segRange d base len) 16

/-- SPILL_COPY_DONE (R297, R298): the copy is complete; the descriptor is retargeted and the hold released. -/
def opSpillCopyDone (x : Fin 16) (w : Work) : Work :=
  let x := x.val
  match w.ext.spills.find? (fun s => s.ctx == x && s.copying) with
  | some sp =>
    let w := w.write sp.dst (w.read sp.src sp.len)
    let w := w.retarget x sp.seg sp.dst sp.len
    let w := w.spillDrop x
    let m := w.get (Obj.spilledSegs x)
    let w := if sp.fill then
        let w := w.setPool (w.ext.pool.filter (fun p => !(p.ctx == x && p.seg == sp.seg)))
        (w.put (Obj.spilledSegs x) (setBit m sp.seg false)).event 0x0507 x 0 sp.seg
      else
        let w := w.put (Obj.spillOldBase x) sp.src
        (w.put (Obj.spilledSegs x) (setBit m sp.seg true)).event 0x0506 x 0 sp.seg
    (w.put (Obj.spillState x) 3).put (Obj.spillResult x) 0
  | none => w

def execSpillCopyDone (x : Fin 16) (s : State) : Host.Outcome State Fault Refusal := s.run (opSpillCopyDone x)

end Sys2Proof.Machine
end

