-- ==== Sys2Proof/Machine/Net.lean ====
section
/-!
DEFINITION. Sys2Proof/Machine/Net.lean: what the Exbaene rows have in common (chapter 11): peer entries, sending ports,
frames, messages to send, posted receives, ACKs, pacing and rate control.
-/
namespace Sys2Proof.Machine

/-! ### Exact fractions (R348) -/

/-- n / d in lowest terms. Log entry 44. -/
def Ratio.mk' (n d : Nat) : Ratio := let g := Nat.gcd n d; ⟨n / g, d / g⟩
/-- The sum. -/
def Ratio.add (a b : Ratio) : Ratio := Ratio.mk' (a.n * b.d + b.n * a.d) (a.d * b.d)
/-- The product. -/
def Ratio.mul (a b : Ratio) : Ratio := Ratio.mk' (a.n * b.n) (a.d * b.d)
/-- a ≤ b. -/
def Ratio.le (a b : Ratio) : Bool := decide (a.n * b.d ≤ b.n * a.d)
/-- The smaller. -/
def Ratio.min (a b : Ratio) : Ratio := if a.le b then a else b
/-- The larger. -/
def Ratio.max (a b : Ratio) : Ratio := if a.le b then b else a

/-! ### Peer states and sessions -/

/-- SESSIONS_OPEN. -/
def Work.countOpen (w : Work) : Work :=
  w.put Obj.sessionsOpen ((w.net.sess.filter (fun s => w.peerSt s.n == 3)).length)

/-- Entry n enters a state with a reason. -/
def Work.putPeerSt (n st why : Nat) (w : Work) : Work := (w.blobPut .active Obj.peerState n (st + 8 * why) 1).countOpen

/-- Replace a session. PEER_RTT shows its smoothed round trip. -/
def Work.putSess (s : Sess) (w : Work) : Work :=
  let w := w.setNet (fun t => { t with sess := t.sess.map (fun r => if r.n = s.n then s else r) })
  w.blobPut .active Obj.peerRtt (4 * s.n) (min s.srtt (maxU 32)) 4

/-- Change the session of entry n. -/
def Work.mapSess (n : Nat) (f : Sess → Sess) (w : Work) : Work :=
  match w.sess? n with
  | some s => w.putSess (f s)
  | none => w

/-! ### Ports -/

/-- Port p carries frames: UP or DEGRADED (Table 11.3). -/
def Dev.portUp (w : Dev) (p : Nat) : Bool := let s := w.get (Obj.linkState p); s == 3 || s == 4
/-- Port p is present: not the odd partner of a 1.6TbE port (R322). -/
def Dev.portPresent (w : Dev) (p : Nat) : Bool := p % 2 == 0 || w.get (Obj.portSpeed (p - 1)) != 1 || w.get (Obj.portEn (p - 1)) != 1
/-- The class of port p. -/
def Dev.portCls (w : Dev) (p : Nat) : Nat := w.get (Obj.portClass p)
/-- The payload limit of a code of MTU. -/
def mtuBytes (c : Nat) : Nat := 1024 * 2 ^ c
/-- PORT_ADDR of port p as the wire orders it. -/
def Dev.portIp (w : Dev) (p : Nat) : Nat :=
  beNat ((leBytes (w.blobNat .active (Obj.portAddr p) 0 16) 16).map BitVec.toNat)
/-- PORT_MAC of port p: MAC_BASE + p (Table 18.11). -/
def portMacOf (p : Nat) : Nat := macBaseNum + p

/-- The ports of entry n's mask that are UP or DEGRADED, in ascending number: its sending ports (R347). -/
def Dev.sendPorts (w : Dev) (n : Nat) : List Nat :=
  (upto 8).filter (fun p => bitOf (pMask (w.peer n)) p && w.portUp p)

/-- The home port at open: the (OWN_RANK mod m)-th sending port (R347). -/
def Dev.homePick (w : Dev) (n : Nat) : Option Nat :=
  let ps := w.sendPorts n
  ps[w.get (Obj.ownRank (w.lctx n)) % ps.length]?

/-- Payload rate of port p in bytes per second: the line rate times MTU / (MTU + 134) (R327). -/
def Dev.payRate (w : Dev) (p : Nat) : Ratio :=
  let m := mtuBytes (w.get (Obj.mtu p))
  Ratio.mk' ((if w.get (Obj.portSpeed p) = 1 then 200000000000 else 100000000000) * m) (m + 134)

/-- L: the sum over the sending ports (R348). -/
def Dev.sessRate (w : Dev) (n : Nat) : Ratio := (w.sendPorts n).foldl (fun r p => r.add (w.payRate p)) ⟨0, 1⟩

/-- The set of sending ports changed: r is clamped to the new L (R348). Log entry 44. -/
def Work.clampRates (w : Work) : Work :=
  w.net.sess.foldl (fun w s => w.mapSess s.n (fun s => { s with rate := s.rate.min (w.sessRate s.n) })) w

/-! ### Frames (R327 to R333) -/

/-- A common header (Table 11.5). -/
def hdrOf (type flags paylen dstSid srcSid srcInc dstInc srcCgen dstCgen : Nat) : Nat :=
  1 * 2 ^ 188 + type * 2 ^ 184 + flags * 2 ^ 176 + paylen * 2 ^ 160 + dstSid * 2 ^ 128 + srcSid * 2 ^ 96
    + srcInc * 2 ^ 64 + dstInc * 2 ^ 32 + srcCgen * 2 ^ 16 + dstCgen

/-- VER. -/
def hVer (h : Nat) : Nat := bits h 188 4
/-- TYPE. -/
def hType (h : Nat) : Nat := bits h 184 4
/-- PAYLEN. -/
def hPaylen (h : Nat) : Nat := bits h 160 16
/-- DST_SID. -/
def hDstSid (h : Nat) : Nat := bits h 128 32
/-- SRC_SID. -/
def hSrcSid (h : Nat) : Nat := bits h 96 32
/-- SRC_INC. -/
def hSrcInc (h : Nat) : Nat := bits h 64 32
/-- DST_INC. -/
def hDstInc (h : Nat) : Nat := bits h 32 32
/-- SRC_CGEN. -/
def hSrcCgen (h : Nat) : Nat := bits h 16 16
/-- DST_CGEN. -/
def hDstCgen (h : Nat) : Nat := bits h 0 16

/-- The path hash of path j of a session id (R328). -/
def pathHash (sid j : Nat) : Nat := bits (srMix ((sid * 16 + j) % 2 ^ 64)) 0 20

/-- The Ethernet, IPv6 and UDP fields of a frame on port p, in the order of Table 11.4. -/
def Dev.frameOf (w : Dev) (p addr rport sid path : Nat) : List Nat :=
  let h := pathHash sid path
  [w.get (Obj.gwMac p) % 2 ^ 48, portMacOf p, 0x86DD, w.get (Obj.dscp (w.portCls p)) * 4 + 2, h, 17, w.get Obj.hopLimit,
   w.portIp p, addr, 0xC000 + h % 16384, if rport = 0 then w.get Obj.udpPort else rport]

/-- Send a frame on port p; a frame of a port that carries none is not sent. An ETH_TX queue that runs empty, or whose
word fails parity, ends the frame with a complemented check sequence (R478, R480). -/
def Work.frame (p addr rport sid path hdr ext extLen : Nat) (payload : List Byte) (bad : TxFault) (w : Work) : Work :=
  if !w.portUp p then w else
  let w := w.bump (Obj.txFrames p) 1
  let w := match bad with
    | .none => w
    | .underrun => w.bump (Obj.txUnderrun p) 1
    | .parity => (w.xqParity (12 * 1024 + p)).bump (Obj.txUnderrun p) 1
  w.send (.exb p (w.frameOf p addr rport sid path) hdr ext extLen payload (bad != .none))

/-- The header of a packet of a session (R329). -/
def Dev.sessHdr (w : Dev) (s : Sess) (type flags paylen : Nat) : Nat :=
  hdrOf type flags paylen s.peerSid s.sid (w.get Obj.incarnation) s.peerInc (w.get (Obj.cgen (w.lctx s.n))) s.peerCgen

/-- A packet other than DATA of a session: on path 0 of its home port (R328, R347). -/
def Work.sendCtl (s : Sess) (type flags ext extLen : Nat) (bad : TxFault) (w : Work) : Work :=
  let e := w.peer s.n
  w.frame s.home (pAddr e) (pRport e) s.sid 0 (w.sessHdr s type flags extLen) ext extLen [] bad

/-- A STALE or REJECT answers the packet of header h from an address on port p (R333), unless one went to that address
within 100 µs or 65,536 have left the port in this second (R340). Its own session id and generation belong to no session:
the spec does not state them and they are free values. Log entry 45. -/
def Work.reply (p addr type reason h : Nat) (w : Work) : Work :=
  let sec := w.time / 1000000000
  let sent := match w.net.replyRate.find? (fun r => r.1 == p && r.2.1 == sec) with | some r => r.2.2 | none => 0
  let recent := w.net.replyAt.any (fun r => r.1 == addr && decide (w.since r.2 < 100000))
  if recent || decide (65536 ≤ sent) then w.bump Obj.replySuppressed 1 else
  let w := w.setNet (fun t => { t with
    replyAt := (addr, w.time) :: t.replyAt.filter (fun r => r.1 != addr && decide (w.since r.2 < 100000))
    replyRate := (p, sec, sent + 1) :: t.replyRate.filter (fun r => r.1 != p) })
  let (v, w) := w.freeDraw
  let hdr := hdrOf type 0 4 (hSrcSid h) (bits v 0 32) (w.get Obj.incarnation) (hSrcInc h) (bits v 32 16) (hSrcCgen h)
  w.frame p addr 0 (bits v 0 32) 0 hdr (reason * 2 ^ 24) 4 [] .none

/-! ### Handshake bodies (R332) -/

/-- The 97 bytes of a public key as a number. -/
def ownPubkey : Nat := beNat Config.idPubkey

/-- What a signature of a handshake covers: the common header and body bits [2047:888]. -/
def signedPart (hdr body : Nat) : List Nat := beBytes hdr 24 ++ beBytes (body / 2 ^ 888) 145

/-- An OPEN or OPEN_ACK body of entry n, signed with the identity key. -/
def Work.openBody (n port nonceI nonceR hdr : Nat) (w : Work) : Nat × Work :=
  let e := w.peer n
  let x := pLctx e
  let b := pJob e * 2 ^ 2016 + w.get (Obj.ownRank x) % 2 ^ 32 * 2 ^ 1984 + pRank e * 2 ^ 1952 + x * 2 ^ 1948
    + pRctx e * 2 ^ 1944 + w.portCls port % 4 * 2 ^ 1942 + w.get (Obj.mtu port) % 4 * 2 ^ 1940 + nonceI % 2 ^ 128 * 2 ^ 1792
    + nonceR % 2 ^ 128 * 2 ^ 1664 + ownPubkey % 2 ^ 776 * 2 ^ 888
  (b + Config.ecdsaSign (signedPart hdr b) % 2 ^ 768 * 2 ^ 120, w)

/-- Handshake fields. -/
def oJob (b : Nat) : Nat := bits b 2016 32
def oSrcRank (b : Nat) : Nat := bits b 1984 32
def oDstRank (b : Nat) : Nat := bits b 1952 32
def oSrcCtx (b : Nat) : Nat := bits b 1948 4
def oDstCtx (b : Nat) : Nat := bits b 1944 4
def oClass (b : Nat) : Nat := bits b 1942 2
def oMtu (b : Nat) : Nat := bits b 1940 2
def oNonceI (b : Nat) : Nat := bits b 1792 128
def oNonceR (b : Nat) : Nat := bits b 1664 128
def oPubkey (b : Nat) : Nat := bits b 888 776
def oSig (b : Nat) : Nat := bits b 120 768

/-- SHA-256 of the key in a body equals an entry's digest. -/
def keyMatches (e body : Nat) : Bool := Config.sha256 (beBytes (oPubkey body) 97) % 2 ^ 256 == pDigest e
/-- The signature of a body verifies under the key it carries. Log entry 26. -/
def sigOk (hdr body : Nat) : Bool := Config.ecdsaVerify (beBytes (oPubkey body) 97) (signedPart hdr body) (oSig body)

/-! ### Messages to send (R344) -/

/-- A message read from memory: addresses and lengths. -/
def msgFrom (n key user ref tag : Nat) (src : List (Nat × Nat)) : TxMsg :=
  ⟨n, none, key, (src.map (fun p => p.2)).sum, user, ref, tag, [], src, 0, 0, none⟩

/-- The addresses of len bytes from offset off of a list of ranges. -/
def srcSlice : List (Nat × Nat) → Nat → Nat → List (Nat × Nat)
  | [], _, _ => []
  | (a, n) :: r, off, len =>
    if len = 0 then []
    else if n ≤ off then srcSlice r (off - n) len
    else
      let k := min (n - off) len
      (a + off, k) :: srcSlice r 0 (len - k)

/-- len bytes of a message from an offset: its own, or read from memory now (R344: a retransmission reads the source
again). -/
def Work.msgBytes (w : Work) (m : TxMsg) (off len : Nat) : List Byte :=
  if m.src.isEmpty then (m.data.drop off).take len
  else (srcSlice m.src off len).flatMap (fun p => w.read p.1 p.2)

/-- The message a packet of entry n belongs to. -/
def Dev.msgOfPkt (w : Dev) (n num : Nat) : Option TxMsg := w.net.msgs.find? (fun m => m.n == n && m.num == some num)

/-- Change a message of entry n by its number. -/
def Work.mapMsg (n num : Nat) (f : TxMsg → TxMsg) (w : Work) : Work :=
  w.setNet (fun t => { t with msgs := t.msgs.map (fun m => if m.n = n ∧ m.num = some num then f m else m) })

/-- Messages of a user are withdrawn (R388): those with nothing sent leave; of the others no further packet is cut, and
what was sent is still delivered, for the session's numbering goes on. -/
def Work.withdraw (user ref : Nat) (w : Work) : Work :=
  w.setNet (fun t => { t with
    msgs := (t.msgs.filter (fun m => !(m.user == user && m.ref == ref && m.cut == 0))).map
      (fun (m : TxMsg) => if m.user = user ∧ m.ref = ref then { m with user := 9 } else m)
    posted := t.posted.filter (fun p => !(user == 0 && p.ref == ref)) })

/-! ### Metro buffers (R345) -/

/-- Bytes that port p's retransmit buffer holds. -/
def Dev.metroBytes (w : Dev) (p : Nat) : Nat :=
  (w.net.sess.map (fun s => ((s.pkts.filter (fun k => k.buf == some p && !k.sacked)).map (fun k => k.len)).sum)).sum

/-- METRO_BUF_USED of every port. Log entry 44. -/
def Work.metroSync (w : Work) : Work :=
  forUpto (fun p w => w.put (Obj.metroBufUsed p) (ceilDiv (w.metroBytes p) 1024)) 8 w

/-- The buffer a session's packets are copied into: its home port's, on a metro port with one. -/
def Dev.metroBuf (w : Dev) (s : Sess) : Option Nat :=
  if w.portCls s.home = 2 ∧ w.get (Obj.metroBufMib s.home) ≠ 0 then some s.home else none

/-- Room in the buffer for len bytes. -/
def Dev.metroRoom (w : Dev) (s : Sess) (len : Nat) : Bool :=
  match w.metroBuf s with
  | some p => decide (w.metroBytes p + len ≤ w.get (Obj.metroBufMib p) * 1048576)
  | none => true

/-- A message is ACCEPTED (R344): delivered, or, with a metro buffer, wholly copied into it. A delivered message has left
the list. -/
def Dev.msgAccepted (w : Dev) (m : TxMsg) : Bool :=
  match w.sess? m.n with
  | some s => decide (m.len ≤ m.cut) && (s.pkts.filter (fun k => some k.msg == m.num)).all (fun k => k.buf.isSome || k.sacked)
  | none => false

/-! ### The next packet of a session -/

/-- k of R342 for the link class, in ns. Log entry 44. -/
def Dev.rtoNs (w : Dev) (s : Sess) : Nat := w.get (Obj.rtoUs (w.portCls s.home)) * 1000 * 2 ^ min s.k 2

/-- A packet to send: a retransmission, or new bytes of a message. -/
inductive Next where
  | again (k : TxPkt)
  | fresh (m : TxMsg) (len : Nat)
  deriving DecidableEq, Repr

/-- Bytes sent and neither acknowledged nor reported in a range. -/
def Sess.outBytes (s : Sess) : Nat := ((s.pkts.filter (fun k => !k.sacked)).map (fun k => k.len)).sum

/-- The oldest unacknowledged PSN. -/
def Sess.una (s : Sess) : Nat := match s.pkts with | [] => s.psn | k :: _ => k.psn

/-- The next packet: the lost packet of the lowest PSN, else the next bytes of the first message not held (R342, R346). -/
def Dev.nextPkt (w : Dev) (s : Sess) : Option Next :=
  match s.pkts.find? (fun k => k.lost && !k.heldBack) with
  | some k => some (.again k)
  | none =>
    match w.net.msgs.find? (fun m => m.n == s.n && decide (m.cut < m.len) && m.hold.isNone && m.user != 9) with
    | none => none
    | some m =>
      let len := min (mtuBytes (w.get (Obj.mtu s.home))) (m.len - m.cut)
      if s.outBytes + len ≤ w.get (Obj.sendWinKib (w.portCls s.home)) * 1024 ∧ s.psn ≤ s.una + 65535
          ∧ w.metroRoom s len = true then some (.fresh m len) else none

/-- The sending port after one, in ascending order with wrap. -/
def portAfter (ps : List Nat) (p : Nat) : Nat :=
  match ps.find? (fun q => decide (p < q)) with
  | some q => q
  | none => ps.getD 0 0

/-- The port and path of the next packet (R328, R347). -/
def Dev.nextPlace (w : Dev) (s : Sess) (x : Next) : Option (Nat × Nat) :=
  let ps := w.sendPorts s.n
  if ps.isEmpty then none else
  match x with
  | .again k =>
    let p := portAfter ps k.port
    some (p, (k.path + 1) % max 1 (w.get (Obj.flowPaths p)))
  | .fresh _ _ =>
    let p := ps.getD (s.psn % ps.length) 0
    some (p, s.psn / ps.length % max 1 (w.get (Obj.flowPaths p)))

/-- A session has a packet that pacing and window let go now (R348), and its port. -/
def Dev.sendable (w : Dev) (s : Sess) : Option (Next × Nat × Nat) :=
  if w.peerSt s.n ≠ 3 ∨ w.time < s.nextTx then none else
  match w.nextPkt s with
  | none => none
  | some x => (w.nextPlace s x).map (fun p => (x, p.1, p.2))

/-- Contexts of a class in the order of R350: the slice owner, then rotation order. -/
def Dev.ctxOrder (w : Dev) (cls : Nat) : List Nat :=
  let o := w.get (if cls = 0 then Obj.lcOwner else Obj.beOwner)
  (upto 16).map (fun i => ((if o < 16 then o else 0) + i) % 16)

/-- The session whose turn it is on port p (R350): sessions of LC contexts before those of BE contexts; within a level, one
packet each in turn, in the order of the contexts, then of the entries. -/
def Dev.turnOf (w : Dev) (p : Nat) : Option Nat :=
  let ready := w.net.sess.filter (fun s => match w.sendable s with | some x => x.2.1 == p | none => false)
  let lc := ready.filter (fun s => w.ctxClass (w.lctx s.n) == 0)
  let (cls, l) := if lc.isEmpty then (1, ready) else (0, lc)
  let fresh := l.filter (fun s => !w.net.turn.contains (p, s.n))
  let l := if fresh.isEmpty then l else fresh
  (w.ctxOrder cls).findSome? (fun x =>
    let mine := sortNat ((l.filter (fun s => w.lctx s.n == x)).map (fun s => s.n))
    mine.head?)

/-- DATA or a PROBE is outstanding (R343); packets that a refusal holds back are not. Log entry 44. -/
def Sess.outstanding (s : Sess) : Bool := s.probe.isSome || s.pkts.any (fun k => !k.sacked && !k.heldBack)

/-- Note since when something is outstanding. -/
def Sess.mark (s : Sess) (now : Nat) : Sess :=
  { s with outSince := if s.outstanding then (match s.outSince with | some t => some t | none => some now) else none }

/-- Send a packet of a session on a port and path (R330, R342, R348). -/
def Work.sendData (s : Sess) (x : Next) (p path : Nat) (bad : TxFault) (w : Work) : Work :=
  let e := w.peer s.n
  let lctx := pLctx e
  let lc := w.ctxClass lctx == 0
  let (k, m?, w, s) := match x with
    | .again k => ({ k with port := p, path := path, last := w.time, lost := false }, w.msgOfPkt s.n k.msg,
        w.bump (Obj.retxPkts lctx) 1, s)
    | .fresh m len =>
      let (num, w, s) := match m.num with
        | some i => (i, w, s)
        | none =>
          let first := fun (l : List TxMsg) => l.findIdx? (fun q => q == m)
          (s.msg, w.setNet (fun t => { t with msgs := (match first t.msgs with
            | some i => setAt t.msgs i { m with num := some s.msg }
            | none => t.msgs) }), { s with msg := s.msg + 1 })
      let buf := w.metroBuf s
      let k : TxPkt := ⟨s.psn, num, m.cut, len, p, path, w.time, w.time, false, false, false, buf,
        if buf.isSome then w.msgBytes m m.cut len else []⟩
      let w := w.mapMsg s.n num (fun (q : TxMsg) => { q with cut := q.cut + len })
      (k, w.msgOfPkt s.n num, w, { s with psn := s.psn + 1 })
  match m? with
  | none => w
  | some m =>
    let payload := if k.buf.isSome then k.bytes else w.msgBytes m k.off k.len
    let again := match x with | .again _ => true | _ => false
    let flags := b2n (k.off == 0) + 2 * b2n (k.off + k.len == m.len) + 4 * b2n again + 8 * b2n lc
    let ext := k.psn % 2 ^ 32 * 2 ^ 160 + k.msg % 2 ^ 32 * 2 ^ 128 + m.key % 2 ^ 64 * 2 ^ 64 + k.off % 2 ^ 32 * 2 ^ 32
      + m.len % 2 ^ 32
    let gap := if s.rate.n = 0 then 0 else ceilDiv (k.len * 1000000000 * s.rate.d) s.rate.n
    let pkts := if again then s.pkts.map (fun q => if q.psn = k.psn then k else q) else s.pkts ++ [k]
    let s := { s with pkts := pkts, nextTx := max s.nextTx w.time + gap }
    let w := w.putSess (s.mark w.time)
    let w := w.bump (Obj.txBytes lctx) k.len
    let w := w.frame p (pAddr e) (pRport e) s.sid path (w.sessHdr s 1 flags (24 + k.len)) ext 24 payload bad
    w.metroSync

/-! ### ACKs (R331, R341) -/

/-- Ranges in the order an ACK reports them: the one that holds the newest PSN, then descending. -/
def Sess.ackRanges (s : Sess) : List (Nat × Nat) :=
  let hot := s.ranges.filter (fun r => decide (r.1 ≤ s.newest) && decide (s.newest ≤ r.2))
  let rest := (s.ranges.filter (fun r => !(decide (r.1 ≤ s.newest) && decide (s.newest ≤ r.2)))).reverse
  (hot ++ rest).take 4

/-- Send an ACK of a session now. -/
def Work.ackNow (n : Nat) (rnr : Bool) (bad : TxFault) (w : Work) : Work :=
  match w.sess? n with
  | none => w
  | some s =>
    let rs := s.ackRanges
    let ranges := (rs.zipIdx.map (fun p => p.1.1 % 2 ^ 32 * 2 ^ (224 - 64 * p.2) + p.1.2 % 2 ^ 32 * 2 ^ (192 - 64 * p.2))).sum
    let ext := s.cum % 2 ^ 32 * 2 ^ 352 + s.echo % 2 ^ 32 * 2 ^ 320 + min s.ceCount 65535 * 2 ^ 304
      + min s.rxCount 65535 * 2 ^ 288 + rs.length * 2 ^ 256 + ranges
    let w := w.sendCtl s 2 (if rnr then 16 else 0) ext 48 bad
    w.putSess { s with rxCount := 0, ceCount := 0, ackDue := none }

/-- A range put among rising ranges, joined with the ranges it touches. -/
def rangePut (a : Nat) : List (Nat × Nat) → List (Nat × Nat)
  | [] => [(a, a)]
  | (lo, hi) :: r =>
    if a + 1 < lo then (a, a) :: (lo, hi) :: r
    else if a + 1 = lo then (a, hi) :: r
    else if a ≤ hi then (lo, hi) :: r
    else if a = hi + 1 then
      (match r with
       | (l2, h2) :: r2 => if a + 1 = l2 then (lo, h2) :: r2 else (lo, a) :: r
       | [] => [(lo, a)])
    else (lo, hi) :: rangePut a r

/-- A PSN is received: CUM_PSN passes every PSN received in order. -/
def Sess.gotPsn (s : Sess) (a : Nat) : Sess :=
  match rangePut a s.ranges with
  | (lo, hi) :: r => if lo = s.cum then { s with cum := hi + 1, ranges := r, newest := a }
                     else { s with ranges := (lo, hi) :: r, newest := a }
  | [] => { s with newest := a }

/-- A PSN of 32 bits as counted from 0: at or above CUM_PSN within 2^31, else below it. -/
def Sess.unwrap (s : Sess) (psn : Nat) : Option Nat :=
  let d := (psn + 2 ^ 32 - s.cum % 2 ^ 32) % 2 ^ 32
  if d < 2 ^ 31 then some (s.cum + d) else none

/-! ### Rate control (R348) -/

/-- A round-trip sample. -/
def Sess.sample (s : Sess) (ns : Nat) : Sess :=
  if s.measured then { s with srtt := (7 * s.srtt + ns) / 8 } else { s with srtt := ns, measured := true }

/-- An ACK with RX_COUNT > 0 adjusts α and r. Log entry 44. -/
def Work.rateAck (n ce rx : Nat) (w : Work) : Work :=
  if rx = 0 then w else
  w.mapSess n (fun s =>
    let a := ((s.alpha.mul ⟨15, 16⟩).add (Ratio.mk' ce (rx * 16)))
    let s := { s with alpha := a, incCe := s.incCe || decide (0 < ce) }
    let due := match s.lastDec with | some t => decide (max s.srtt 2000 ≤ w.since t) | none => true
    if 0 < ce ∧ due = true then
      let half := Ratio.mk' (2 * a.d - a.n) (2 * a.d)
      { s with rate := ((w.sessRate n).mul ⟨1, 1000⟩).max (s.rate.mul half), lastDec := some w.time, incN := 0, incDec := true }
    else s)

/-- The rate of a session that opens: RATE_INIT_PCT of L, α = 1. -/
def Work.rateStart (n : Nat) (w : Work) : Work :=
  w.mapSess n (fun s =>
    { s with alpha := ⟨1, 1⟩, rate := (w.sessRate n).mul (Ratio.mk' (w.get (Obj.rateInitPct (w.portCls s.home))) 100),
             incAt := w.time, incN := 0, incDec := false, incCe := false })

/-! ### Opening (R336, R337, R347) -/

/-- A new session of entry n. -/
def Dev.newSess (w : Dev) (n sid home nonce : Nat) (opener : Bool) : Sess :=
  { n := n, sid := sid, opener := opener, peerSid := 0, peerInc := 0, peerCgen := 0, home := home, nonce := nonce, body := 0,
    openAt := w.time, openLast := w.time, psn := 0, msg := 0, k := 0, pkts := [], covered := none, outSince := none, cum := 0,
    ranges := [], newest := 0, rx := [], rxCount := 0, ceCount := 0, echo := 0, ackDue := none, gapAt := none,
    alpha := ⟨1, 1⟩, rate := ⟨0, 1⟩, srtt := 0, measured := false, lastDec := none, incN := 0, incAt := w.time,
    incDec := false, incCe := false, nextTx := 0, lastRx := w.time, lastProg := w.time, probe := none, viol := [] }

/-- The session id of the next attempt of entry n (R329). -/
def Work.nextSid (n : Nat) (w : Work) : Nat × Work :=
  let a := (match w.net.att.find? (fun p => p.1 == n) with | some p => p.2 | none => 0) + 1
  (n + a % 2 ^ 19 * 2 ^ 13, w.setNet (fun t => { t with att := (n, a) :: t.att.filter (fun p => p.1 != n) }))

/-- Put a session in place of any the entry held. -/
def Work.addSess (s : Sess) (w : Work) : Work :=
  (w.setNet (fun t => { t with sess := t.sess.filter (fun r => r.n != s.n) ++ [s] })).blobPut .active Obj.peerRtt (4 * s.n) 0 4

/-- Send the OPEN of a session. -/
def Work.sendOpen (s : Sess) (w : Work) : Work :=
  let e := w.peer s.n
  w.frame s.home (pAddr e) (pRport e) s.sid 0
    (hdrOf 3 0 256 0 s.sid (w.get Obj.incarnation) 0 (w.get (Obj.cgen (pLctx e))) 0) s.body 256 [] .none

/-- SOURCE of an event of a session: its home port, or the lowest port of its mask when it has none (Table 17.15). -/
def Dev.sessSource (w : Dev) (n : Nat) : Nat :=
  match w.sess? n with
  | some s => 0x7000 + s.home
  | none => 0x7000 + ((upto 8).find? (fun p => bitOf (pMask (w.peer n)) p)).getD 0

/-- Entry n opens a session, when it is the side of lower rank, its context is ACTIVE and it is CLOSED or returns from
REJECTED (R337); without a port it goes to REJECTED with reason PORT (R347). -/
def Work.tryOpen (n : Nat) (w : Work) : Work :=
  let e := w.peer n
  let x := pLctx e
  if w.net.shut || !pValid e || w.get (Obj.ctxState x) != 1 || decide (pRank e ≤ w.get (Obj.ownRank x)) then w else
  match w.homePick n with
  | none =>
    let w := (w.putPeerSt n 5 13).event 0x0602 x (w.sessSource n) (13 * 65536 + n)
    w.setNet (fun t => { t with rejectedAt := (n, w.time) :: t.rejectedAt.filter (fun p => p.1 != n) })
  | some p =>
    let (sid, w) := w.nextSid n
    let (nonce, w) := w.entropyDraw
    let nonce := nonce % 2 ^ 128
    let (body, w) := w.openBody n p nonce 0 (hdrOf 3 0 256 0 sid (w.get Obj.incarnation) 0 (w.get (Obj.cgen x)) 0)
    let s := { w.newSess n sid p nonce true with body := body }
    ((w.addSess s).putPeerSt n 2 (w.peerWhy n)).sendOpen s

/-- The entries of the peer table in force that are VALID and belong to context x. -/
def Dev.entriesOf (w : Dev) (x : Nat) : List Nat :=
  let ks := sortNat (((blobOf w.blob Obj.peerTable).map (fun p => p.1 % 0x100000000 / 64)))
  ks.filter (fun n => pValid (w.peer n) && pLctx (w.peer n) == x)

/-- Every CLOSED entry of a context that has become ACTIVE opens at once (Table 11.11). -/
def Work.openCtx (x : Nat) (w : Work) : Work :=
  (w.entriesOf x).foldl (fun w n => if w.peerSt n = 1 then w.tryOpen n else w) w

/-- The session of entry n ends: its state and reason, its messages and receives (R344). Its users are told by the
caller. -/
def Work.endSess (n st why : Nat) (w : Work) : Work :=
  let w := w.setNet (fun t => { t with
    sess := t.sess.filter (fun s => s.n != n)
    msgs := t.msgs.filter (fun m => m.n != n)
    posted := t.posted.filter (fun p => p.n != n) })
  ((w.putPeerSt n st why).blobPut .active Obj.peerRtt (4 * n) 0 4).metroSync

/-- A session that is UP ends with a state and reason, logged and counted by Table 11.19: SESSION_LOST for reasons 1 to 6,
SESSION_REJECTED for 7 to 13. -/
def Work.sessOver (n st why : Nat) (w : Work) : Work :=
  let x := w.lctx n
  let w := w.event (if why ≤ 6 then 0x0601 else 0x0602) x (w.sessSource n) (why * 65536 + n)
  let w := if st = 4 then w.bump (Obj.sessLostCount x) 1 else w
  let w := if st = 5 then w.setNet (fun t => { t with rejectedAt := (n, w.time) :: t.rejectedAt.filter (fun p => p.1 != n) }) else w
  w.endSess n st why

end Sys2Proof.Machine
end

