-- ==== Sys2Proof/Machine/Pillow.lean ====
section
/-!
DEFINITION. Sys2Proof/Machine/Pillow.lean: tile descriptors (Table 04.1) and the matrix engine of chapter 05: the pass, its
checks, operand fetch with re-blocking, products, accumulation, the drain with its recomputes, and cycle counts.
-/
namespace Sys2Proof.Machine

/-! ### Tile descriptor header (Table 04.1) -/

/-- KIND: 1 PILLOW, 2 NEEDLE, 3 BOTH. -/
def tdKind (d : Nat) : Nat := bits d 0 2
/-- CHAIN_IN. -/
def tdChainIn (d : Nat) : Bool := bitOf d 2
/-- CHAIN_OUT. -/
def tdChainOut (d : Nat) : Bool := bitOf d 3
/-- PUNIT. -/
def tdPunit (d : Nat) : Nat := bits d 8 6
/-- NUNIT. -/
def tdNunit (d : Nat) : Nat := bits d 16 6
/-- Address of a span: 0 IN0, 1 IN1, 2 OUT. -/
def tdAddr (d s : Nat) : Nat := bits d (128 + 128 * s) 48
/-- Length of a span. -/
def tdLen (d s : Nat) : Nat := bits d (176 + 128 * s) 24
/-- Local-window offset of a span. -/
def tdLoff (d s : Nat) : Nat := bits d (200 + 128 * s) 26
/-- 64-byte unit n of a descriptor. -/
def tdUnit (d n : Nat) : Nat := bits d (512 * n) 512
/-- The tile has Pillow work. -/
def tdPillow (d : Nat) : Bool := tdKind d == 1 || tdKind d == 3
/-- The tile has a stitch program. -/
def tdNeedle (d : Nat) : Bool := tdKind d == 2 || tdKind d == 3
/-- Bytes of the mappable local window. -/
def windowBytes : Nat := 36700160

/-! ### The pass (Table 05.3) -/

/-- WFMT. -/
def psWfmt (u : Nat) : Nat := bits u 0 4
/-- SFMT. -/
def psSfmt (u : Nat) : Nat := bits u 4 4
/-- Block size B. -/
def psBlk (u : Nat) : Nat := if bitOf u 8 then 64 else 32
/-- WTRANS. -/
def psWtrans (u : Nat) : Bool := bitOf u 9
/-- STRANS. -/
def psStrans (u : Nat) : Bool := bitOf u 10
/-- WGRAD. -/
def psWgrad (u : Nat) : Bool := bitOf u 11
/-- SGRAD. -/
def psSgrad (u : Nat) : Bool := bitOf u 12
/-- ACC_INIT. -/
def psAccInit (u : Nat) : Bool := bitOf u 13
/-- DRAIN. -/
def psDrain (u : Nat) : Bool := bitOf u 14
/-- ROWS. -/
def psRows (u : Nat) : Nat := bits u 16 8
/-- NPASS. -/
def psNpass (u : Nat) : Nat := bits u 24 8
/-- W_ADDR. -/
def psWaddr (u : Nat) : Nat := bits u 32 48
/-- W_SCALE. -/
def psWscale (u : Nat) : Nat := bits u 80 48
/-- W_CSTRIDE. -/
def psWcs (u : Nat) : Nat := bits u 128 32
/-- W_SCSTRIDE. -/
def psWscs (u : Nat) : Nat := bits u 160 32
/-- W_PSTRIDE. -/
def psWps (u : Nat) : Nat := bits u 192 32
/-- W_SPSTRIDE. -/
def psWsps (u : Nat) : Nat := bits u 224 32
/-- S_LOFF. -/
def psSloff (u : Nat) : Nat := bits u 256 26
/-- S_RSTRIDE. -/
def psSrs (u : Nat) : Nat := bits u 282 24
/-- S_SCLOFF. -/
def psSscloff (u : Nat) : Nat := bits u 306 26
/-- S_SCRSTRIDE. -/
def psSscrs (u : Nat) : Nat := bits u 332 16
/-- D_CONV. -/
def psDconv (u : Nat) : Nat := bits u 348 32
/-- D_LOFF. -/
def psDloff (u : Nat) : Nat := bits u 380 26
/-- D_SCLOFF. -/
def psDscloff (u : Nat) : Nat := bits u 406 26
/-- D_RSTRIDE. -/
def psDrs (u : Nat) : Nat := bits u 432 21
/-- D_ROW0. -/
def psDrow0 (u : Nat) : Nat := bits u 453 7
/-- D_NROW. -/
def psDnrow (u : Nat) : Nat := bits u 460 8
/-- D_BLKDIR. -/
def psDblkdir (u : Nat) : Bool := bitOf u 468
/-- ALT_LOFF. -/
def psAlt (u : Nat) : Nat := bits u 469 26
/-- Columns in use. -/
def psNcol (u : Nat) : Nat := bits u 495 9 + 1

/-! ### Operand classes (Tables 05.1 and 05.2) -/

/-- The classes of Table 05.1. -/
inductive PClass where
  | t | q | e | h | p
  deriving DecidableEq, Repr

/-- Plane depth K_p. -/
def PClass.depth (c : PClass) : Nat :=
  match c with
  | .t => 1024
  | .q => 512
  | _ => 128

/-- Array cycles per streamed row. -/
def PClass.cyclesPerRow (c : PClass) : Nat :=
  match c with
  | .h => 4
  | .p => 16
  | _ => 1

/-- The formats of class P. -/
def wideFmt (f : Fmt) : Bool := f == .w16 || f == .w32 || f == .w32p

/-- The class of an operand pair, plane format first (R147). -/
def pairClass (w s : Fmt) : Option PClass :=
  match w, s with
  | .n2t, .n2t => some .t
  | .n4l, .n4l => some .q
  | .n4i, .n4i => some .q
  | .n4i, .n2t => some .q
  | .n2t, .n4i => some .q
  | .n8f, .n8f => some .e
  | .n8i, .n8i => some .e
  | .n8i, .n4i => some .e
  | .n8i, .n2t => some .e
  | .n4i, .n8i => some .e
  | .n2t, .n8i => some .e
  | .w16, .w16 => some .h
  | w, s => if wideFmt w && wideFmt s then some .p else none

/-- Plane format of a legal pass. -/
def psWf (u : Nat) : Fmt := (fmtOf (psWfmt u)).getD .n2t
/-- Stream format of a legal pass. -/
def psSf (u : Nat) : Fmt := (fmtOf (psSfmt u)).getD .n2t
/-- Class of a pass, if its pair is legal. -/
def psClass? (u : Nat) : Option PClass :=
  match fmtOf (psWfmt u), fmtOf (psSfmt u) with
  | some w, some s => pairClass w s
  | _, _ => none
/-- Class of a legal pass. -/
def psClass (u : Nat) : PClass := (psClass? u).getD .t
/-- K_p of a legal pass. -/
def psDepth (u : Nat) : Nat := (psClass u).depth
/-- Drain destination. -/
def psDst (u : Nat) : Fmt := cDstFmt (psDconv u)
/-- Columns a drained row writes: the last block whole when blocks run along columns of a scaled result (R48). -/
def psDcols (u : Nat) : Nat :=
  if (psDst u).scaled && !psDblkdir u then ceilDiv (psNcol u) (dBlk (psDconv u)) * dBlk (psDconv u) else psNcol u

/-! ### Checks (R153) -/

/-- Ends of the window extents that a pass reads: stream elements and scales. -/
def psReadEnds (u : Nat) : List Nat :=
  let f := psSf u
  let b := psBlk u
  let n := psNpass u * psDepth u
  let r := psRows u
  if psNpass u = 0 then []
  else if psStrans u then
    (psSloff u + (n - 1) * psSrs u + f.bytes b r) ::
      (if f.scaled then [psSscloff u + (n - 1) * psSscrs u + ceilDiv r b] else [])
  else
    (psSloff u + (r - 1) * psSrs u + f.bytes b n) ::
      (if f.scaled then [psSscloff u + (r - 1) * psSscrs u + ceilDiv n b] else [])

/-- Ends of the extents that a drain writes: elements, scales and the W16 image. -/
def psDrainEnds (u : Nat) : List Nat :=
  let b := dBlk (psDconv u)
  let n := psDnrow u
  [psDloff u + (n - 1) * psDrs u + (psDst u).bytes b (psDcols u), psAlt u + n * psNcol u * 2] ++
    (if (psDst u).scaled then
      [if psDblkdir u then psDscloff u + (ceilDiv n b - 1) * 512 + psNcol u
       else psDscloff u + (n - 1) * (512 / b) + ceilDiv (psNcol u) b]
    else [])

/-- The drain's checks of R153. -/
def Dev.drainOk (w : Dev) (x u : Nat) : Bool :=
  let d := psDconv u
  let b := dBlk d
  (w.convCheck x d 0 false).isNone && fmtOf (dSrc d) == some .w32p &&
  decide (1 ≤ psDnrow u ∧ psDrow0 u + psDnrow u ≤ 128) &&
  (!psDblkdir u || (psDrow0 u % b == 0 && psDnrow u % b == 0)) &&
  (psDst u != .w32p || decide (psDnrow u ≤ 64)) &&
  psDloff u % 32 == 0 && psDrs u % 32 == 0 && psAlt u % 32 == 0 &&
  (psDrainEnds u).all (fun e => decide (e ≤ windowBytes))

/-- R153: the pass of a tile of context x is valid. -/
def Dev.passOk (w : Dev) (x u : Nat) : Bool :=
  (psClass? u).isSome && decide (1 ≤ psRows u ∧ psRows u ≤ 128) && decide (psNpass u ≤ 64) &&
  (psNpass u != 0 || psDrain u) &&
  !(psWtrans u && psWf u == .n2t) && !(psStrans u && psSf u == .n2t) &&
  psSloff u % 32 == 0 && psSrs u % 32 == 0 &&
  (psReadEnds u).all (fun e => decide (e ≤ windowBytes)) &&
  (!psDrain u || w.drainOk x u)

/-- The fed range (R151) as context address and bytes: the smallest range over every element and scale byte fed. -/
def psFed (u : Nat) : Option (Nat × Nat) :=
  if psNpass u = 0 then none else
  let f := psWf u
  let b := psBlk u
  let np := psNpass u - 1
  let k := psDepth u
  let n := if psWtrans u then k else psNcol u
  let row := if psWtrans u then f.bytes b (psNcol u) else f.bytes b k
  let scs := if psWtrans u then ceilDiv (psNcol u) b else k / b
  let lo := psWaddr u
  let hi := lo + np * psWps u + (n - 1) * psWcs u + row
  if f.scaled then
    let slo := psWscale u
    let shi := slo + np * psWsps u + (n - 1) * psWscs u + scs
    some (min lo slo, max hi shi - min lo slo)
  else some (lo, hi - lo)

/-! ### Operand fetch (Table 05.4, R149, R168) -/

/-- An operand of one pass: format, block size, whether transposed, element origin and stride, scale origin and stride,
offset of its first reduction index. -/
structure OpMap where
  f : Fmt
  b : Nat
  trans : Bool
  base : Nat
  cs : Nat
  sbase : Nat
  scs : Nat
  off : Nat
  deriving DecidableEq, Repr

/-- Plane p, in context addresses. -/
def planeMap (u p : Nat) : OpMap :=
  ⟨psWf u, psBlk u, psWtrans u, psWaddr u + p * psWps u, psWcs u, psWscale u + p * psWsps u, psWscs u, 0⟩
/-- The stream of pass p, in window offsets. -/
def streamMap (u p : Nat) : OpMap :=
  ⟨psSf u, psBlk u, psStrans u, psSloff u, psSrs u, psSscloff u, psSscrs u, p * psDepth u⟩

/-- One column of a plane or one row of a stream: blocks of codes with their scale codes, the events of reading and
re-blocking it, and the blocks re-blocked with rounding. -/
structure Lane where
  blocks : List (List Nat × Nat)
  conv : Conv
  rounded : Nat
  deriving DecidableEq, Repr

/-- Events of fetching one element (R149). -/
def fetchConv (f : Fmt) (c : Nat) : Conv :=
  let k := loadConv f c
  match decodeElem f c with
  | .poison => k.add { Conv.none with flags := fPoisonIn, poisonIn := 1 }
  | .inf _ => k.add { Conv.none with flags := fNonfinite, nonfinite := 1 }
  | _ => k

/-- A re-block leaves out the events of reading, which the fetch has counted (R168 step 3). -/
def Conv.dropRead (k : Conv) : Conv :=
  { k with
    flags := k.flags &&& (fSat ||| fOvf ||| fPoisonLost ||| fFlush)
    nonfinite := 0, poisonIn := 0, hole := 0, codeFault := 0 }

/-- Re-block one new block (R168): unchanged when every source scale is the same, otherwise converted under BLOCK. -/
def reblock (f : Fmt) (mode : Rnd) (rnd : Nat → Nat) (codes scales : List Nat) : (List Nat × Nat) × Conv × Nat :=
  let s0 := scales.getD 0 0
  if scales.all (fun s => s == s0) then ((codes, s0), Conv.none, 0)
  else
    let vals := (codes.zip scales).map (fun p => loadVal f (some p.2) p.1)
    let s := blockScale f vals
    let (cs, k) := storeBlock f (some s) true mode rnd vals
    ((cs, s), k.dropRead, 1)

/-- Lane m of an operand with k reduction elements, through a byte reader; `rnd i` is the generator's value of reduction
element i. -/
def OpMap.lane (o : OpMap) (rd : Nat → Nat) (k m : Nat) (mode : Rnd) (rnd : Nat → Nat) : Lane :=
  let idx := upto k
  let codes := idx.map (fun i =>
    if o.trans then elemCode o.f o.b (fun a => rd (o.base + (i + o.off) * o.cs + a)) m
    else elemCode o.f o.b (fun a => rd (o.base + m * o.cs + a)) (i + o.off))
  let scales := if o.f.scaled then idx.map (fun i =>
      if o.trans then rd (o.sbase + (i + o.off) * o.scs + m / o.b)
      else rd (o.sbase + m * o.scs + (i + o.off) / o.b))
    else idx.map (fun _ => 0)
  let read := codes.foldl (fun k c => k.add (fetchConv o.f c)) Conv.none
  let faults := codeFaultBytes o.f o.b (fun a => rd (o.base + m * o.cs + o.f.offset o.b o.off + a)) k
  let bs := (upto (k / o.b)).map (fun j =>
    let cs := (codes.drop (j * o.b)).take o.b
    let ss := (scales.drop (j * o.b)).take o.b
    if o.trans && o.f.scaled then reblock o.f mode (fun i => rnd (j * o.b + i)) cs ss
    else ((cs, ss.getD 0 0), Conv.none, 0))
  { blocks := bs.map (fun b => b.1)
    conv := (bs.foldl (fun k b => k.add b.2.1) read).add (Conv.codeFaults faults)
    rounded := (bs.map (fun b => b.2.2)).sum }

/-! ### Products and sums (R148, R155) -/

/-- 2^(k/4) with its fractional power a 34-bit constant. -/
def quarterPow (k : Int) : Dy := (c34 (k % 4).toNat).shift (k / 4)

/-- The even and the odd part of an N4L product in units of 2^-6; none for poison. -/
def n4lProd (a b : Nat) : Option (Int × Int) :=
  if a = 8 ∨ b = 8 then none
  else
    let ka := bits a 0 3
    let kb := bits b 0 3
    if ka = 0 ∨ kb = 0 then some (0, 0)
    else
      let n := ka + kb
      let s : Int := if bitOf a 3 = bitOf b 3 then 1 else -1
      if n % 2 = 0 then some (s * pow2 ((n - 2) / 2), 0) else some (0, s * pow2 ((n - 3) / 2))

/-- The rounded sum of one block of N4L: E f + O f √2, rounded once. -/
def n4lBlock (xs ws : List Nat) (n : Int) : Val :=
  match (xs.zip ws).foldl (fun (a : Option (Int × Int)) p =>
      match a, n4lProd p.1 p.2 with
      | some x, some y => some (x.1 + y.1, x.2 + y.2)
      | _, _ => none) (some (0, 0)) with
  | some (e, o) =>
    let v := ((Dy.mk e (-6)).mul (quarterPow (-n))).add ((Dy.mk o (-6)).mul (quarterPow (2 - n)))
    decodeW32P (toW32P .rn 0 v)
  | none => .poison

/-- The rounded sum of one block of the other scaled formats. -/
def plainBlock (sf wf : Fmt) (xs ws : List Nat) (n : Int) : Val :=
  match (xs.zip ws).foldl (fun (a : Option Dy) p =>
      match a, decodeElem sf p.1, decodeElem wf p.2 with
      | some s, .fin x, .fin y => some (s.add (x.mul y))
      | _, _, _ => none) (some Dy.zero) with
  | some s => decodeW32P (toW32P .rn 0 (s.mul (quarterPow (-n))))
  | none => .poison

/-- The finite value with which a wide operand enters: an infinity as ±maxfin of W32 (R149). -/
def wideVal (f : Fmt) (c : Nat) : Option Dy :=
  match decodeElem f c with
  | .fin d => some d
  | .inf neg => some (Dy.withSign neg (maxfin .w32))
  | _ => none

/-- Head and tail of a class P operand together (R148). -/
def headTail (a : Dy) : Dy :=
  let h := roundSig 10 a
  h.add (roundSig 10 (a.sub h))

/-- One product of classes H and P. -/
def wideProd (c : PClass) (sf wf : Fmt) (x w : Nat) : Val :=
  match wideVal sf x, wideVal wf w with
  | some a, some b => if c = .p then .fin ((headTail a).mul (headTail b)) else .fin (a.mul b)
  | _, _ => .poison

/-- rnd(acc + v) (R155, R156): the new container and 1 when it saturated. -/
def accAdd (acc : Nat) (v : Val) : Nat × Nat :=
  match decodeW32P acc, v with
  | .fin a, .fin x =>
    let s := a.add x
    if (maxfin .w32).lt s.abs then (maxCode .w32 s.isNeg, 1) else (toW32P .rn 0 s, 0)
  | _, _ => (poisonCode .w32p, 0)

/-- One streamed row against one column: the new accumulator and the saturations. -/
def accLane (c : PClass) (sf wf : Fmt) (s w : Lane) (acc : Nat) : Nat × Nat :=
  (s.blocks.zip w.blocks).foldl (fun (a : Nat × Nat) p =>
    let n := s8qQuarters p.1.2 + s8qQuarters p.2.2
    match c with
    | .h => (p.1.1.zip p.2.1).foldl (fun (a : Nat × Nat) q =>
        let r := accAdd a.1 (wideProd c sf wf q.1 q.2)
        (r.1, a.2 + r.2)) a
    | .p => (p.1.1.zip p.2.1).foldl (fun (a : Nat × Nat) q =>
        let r := accAdd a.1 (wideProd c sf wf q.1 q.2)
        (r.1, a.2 + r.2)) a
    | _ =>
      let v := if wf = .n4l then n4lBlock p.1.1 p.2.1 n else plainBlock sf wf p.1.1 p.2.1 n
      let r := accAdd a.1 v
      (r.1, a.2 + r.2)) (acc, 0)

/-- What the passes of a tile leave: accumulators, events, saturations, blocks re-blocked with rounding. -/
structure PassOut where
  acc : List (Nat × Nat)
  conv : Conv
  sat : Nat
  rounded : Nat
  deriving DecidableEq, Repr

/-- An accumulator. -/
def accGet (acc : List (Nat × Nat)) (r c : Nat) : Nat := Store.get (fun _ => 0) acc (512 * r + c)

/-- The generator inputs of a tile: SR_SEED, STEP_NUM, tile id. -/
structure Gen where
  seed : Nat
  step : Nat
  tid : Nat
  deriving DecidableEq, Repr

/-- The generator's value of a lane (Table 07.4, d = 0). -/
def Gen.rnd (g : Gen) (lane : Nat) : Nat := srBits g.seed g.step 0 g.tid lane

/-- One pass (R155): plane through rdW, stream through rdS. -/
def runPass (u p : Nat) (rdW rdS : Nat → Nat) (g : Gen) (o : PassOut) : PassOut :=
  let k := psDepth u
  let ws := (upto (psNcol u)).map (fun c => (planeMap u p).lane rdW k c (if psWgrad u then .sr else .rn)
    (fun i => g.rnd (0x10000 + p * 2 ^ 20 + 512 * i + c)))
  let ss := (upto (psRows u)).map (fun r => (streamMap u p).lane rdS k r (if psSgrad u then .sr else .rn)
    (fun i => g.rnd (0x4000000 + p * 2 ^ 20 + 1024 * r + i)))
  let conv := (ss.foldl (fun k l => k.add l.conv) (ws.foldl (fun k l => k.add l.conv) o.conv))
  let rounded := o.rounded + (ws.map (fun l => l.rounded)).sum + (ss.map (fun l => l.rounded)).sum
  let (acc, sat) := (ss.zipIdx).foldl (fun (a : List (Nat × Nat) × Nat) s =>
    (ws.zipIdx).foldl (fun (a : List (Nat × Nat) × Nat) w =>
      let (v, n) := accLane (psClass u) (psSf u) (psWf u) s.1 w.1 (accGet a.1 s.2 w.2)
      (Store.set (fun _ => 0) a.1 (512 * s.2 + w.2) v, a.2 + n)) a) (o.acc, o.sat)
  ⟨acc, conv, sat, rounded⟩

/-- The first n passes of a tile (R150, R154). -/
def runPasses (u n : Nat) (rdW rdS : Nat → Nat) (g : Gen) (acc : List (Nat × Nat)) : PassOut :=
  let o := (upto n).foldl (fun o p => runPass u p rdW rdS g o) ⟨acc, Conv.none, 0, 0⟩
  if 0 < o.sat then { o with conv := o.conv.add { Conv.none with flags := fSat } } else o

/-! ### The drain (R163, R166, R211) -/

/-- A W16 image written on the W16 path (R213): reason, source, slot, PLANE destination, window offset, bytes. -/
structure Image where
  reason : Nat
  source : Nat
  tslot : Nat
  plane : Bool
  off : Nat
  len : Nat
  deriving DecidableEq, Repr

/-- What a converting unit writes: pieces by window offset, in order; the events, and those of the conversion into each
slot; the images. -/
structure UnitOut where
  writes : List (Nat × List Nat)
  conv : Conv
  reports : List (Nat × Conv)
  images : List Image
  deriving DecidableEq, Repr

/-- Index n of a scale lowered by one octave, floored at -128 (R210). -/
def octaveDown (s : Nat) : Nat := s8qOf (max (-128) (s8qQuarters s - 4))

/-- How a TENSOR or PLANE destination converts in this run: its scale source, whether it writes scale bytes, and the
reason when it takes the W16 path (1 probe, 0 second recompute). -/
structure DstPlan where
  src : ScaleSrc
  plane : Nat → Nat
  writeScales : Bool
  wide : Option Nat

/-- The plan of a destination with descriptor d at recompute level lv; `cap` is the captured scale of its slot (256 +
scale, or 512 in PROBE), `pl` its scale plane. -/
def dstPlan (d lv cap : Nat) (pl : Nat → Nat) : DstPlan :=
  match dScaleSrc d with
  | 0 => ⟨.none, pl, false, none⟩
  | 1 => ⟨.block, pl, true, none⟩
  | 2 =>
    if lv = 2 then ⟨.block, pl, true, some 0⟩
    else if cap = 512 then ⟨.block, pl, true, some 1⟩
    else ⟨.tensor (if lv = 1 then octaveDown (cap % 256) else cap % 256), pl, true, none⟩
  | _ =>
    if lv = 2 then ⟨.block, pl, true, some 0⟩
    else if lv = 1 then ⟨.plane, fun i => octaveDown (pl i), true, none⟩
    else ⟨.plane, pl, false, none⟩

/-- Store rows of values with scale blocks along rows of a column (D_BLKDIR = 1): codes row by row, scale bytes by
⌊r/b⌋ × 512 + c, counts. -/
def storeCols (dst : Fmt) (b : Nat) (src : ScaleSrc) (ovf : Bool) (mode : Rnd) (rnd : Nat → Nat → Nat) (plane : Nat → Nat)
    (rows : List (List Val)) (ncol : Nat) : List (List Nat) × List (Nat × Nat) × Conv :=
  let cols := (upto ncol).map (fun c =>
    (upto (ceilDiv rows.length b)).map (fun j =>
      let vals := ((rows.drop (j * b)).take b).map (fun r => r.getD c (.fin Dy.zero))
      let s := dstScale src dst (plane (j * 512 + c)) vals
      let (cs, k) := storeBlock dst s ovf mode (fun i => rnd (j * b + i) c) vals
      (cs, (j * 512 + c, s.getD 0), k)))
  (rows.zipIdx.map (fun r => cols.map (fun col => ((col.getD (r.2 / b) ([], (0, 0), Conv.none)).1).getD (r.2 % b) 0)),
   cols.flatMap (fun col => col.map (fun x => x.2.1)),
   cols.foldl (fun k col => col.foldl (fun k x => k.add x.2.2) k) Conv.none)

/-- Convert the drained rows into the destination under a scale source: the writes and the events. Log entry 57. -/
def drainInto (u : Nat) (rows : List (List Val)) (src : ScaleSrc) (ovf : Bool) (mode : Rnd) (rnd : Nat → Nat → Nat)
    (plane : Nat → Nat) (scales : Bool) : List (Nat × List Nat) × Conv :=
  let d := psDconv u
  let dst := psDst u
  let b := dBlk d
  if psDblkdir u && dst.scaled then
    let (codes, ss, k) := storeCols dst b src ovf mode rnd plane rows (psNcol u)
    (codes.zipIdx.map (fun p => (psDloff u + p.2 * psDrs u, packCodes dst b p.1)) ++
      (if scales then ss.map (fun s => (psDscloff u + s.1, [s.2])) else []), k)
  else
    rows.zipIdx.foldl (fun (a : List (Nat × List Nat) × Conv) r =>
      let at0 := r.2 * (512 / b)
      let (codes, ss, k) := storeRow dst b src mode (rnd r.2) (fun j => plane (at0 + j)) r.1
      let k := if ovf then k else { k with flags := k.flags &&& (255 - fOvf) }
      (a.1 ++ [(psDloff u + r.2 * psDrs u, packCodes dst b codes)] ++
        (if scales && dst.scaled then [(psDscloff u + at0, ss)] else []), a.2.add k)) ([], Conv.none)

/-- The drain of a tile at a recompute level. `rd` reads the window, `cap` gives the captured scale of D_CONV's slot, `lim` is
how many cycles of drain conversion the tile has, at one row a cycle (R118, R163). -/
def drainRun (u lv cap lim : Nat) (defRnd : Nat) (rd : Nat → Nat) (g : Gen) (acc : List (Nat × Nat)) : UnitOut :=
  let d := psDconv u
  let dst := psDst u
  let n := psDnrow u
  let mode := pairMode .w32p dst (dMode d defRnd)
  let rows := (upto (min n lim)).map (fun r => (upto (psNcol u)).map (fun c => decodeW32P (accGet acc (psDrow0 u + r) c)))
  let lane := fun r c => 512 * (psDrow0 u + r) + c
  let p := dstPlan d lv cap (fun i => rd (psDscloff u + i))
  match p.wide with
  | none =>
    let (ws, k) := drainInto u rows p.src (ovfOf p.src dst) mode (fun r c => g.rnd (lane r c)) p.plane p.writeScales
    ⟨ws, k, if dScaleSrc d = 2 then [(dTslot d, k)] else [], []⟩
  | some reason =>
    let img := rows.zipIdx.map (fun r => storeBlock .w16 none false (dMode d defRnd) (fun c => g.rnd (lane r.2 c)) r.1)
    let w16 := img.zipIdx.map (fun r => (psAlt u + r.2 * psNcol u * 2, packCodes .w16 32 r.1.1))
    let back := (img.take (lim - n)).map (fun r => r.1.map decodeW16)
    let (ws, k) := drainInto u back .block false (dMode d defRnd) (fun r c => g.rnd (lane r c + 2 ^ 32)) p.plane true
    let k := img.foldl (fun k r => k.add r.2) k
    ⟨w16 ++ ws, k, if dScaleSrc d = 2 then [(dTslot d, k)] else [],
     [⟨reason, 0, if dScaleSrc d = 2 then dTslot d else 0, dScaleSrc d != 2, psAlt u, n * psNcol u * 2⟩]⟩

/-! ### Cycles (R158) -/

/-- Stream bytes of one row with scale bytes. -/
def psStreamRow (u : Nat) : Nat :=
  let f := psSf u
  f.bytes (psBlk u) (psDepth u) + (if f.scaled then psDepth u / psBlk u else 0)
/-- Fed bytes of one plane with scale bytes. -/
def psPlaneBytes (u : Nat) : Nat :=
  let f := psWf u
  let b := psBlk u
  if psWtrans u then psDepth u * (f.bytes b (psNcol u) + (if f.scaled then ceilDiv (psNcol u) b else 0))
  else psNcol u * (f.bytes b (psDepth u) + (if f.scaled then psDepth u / b else 0))
/-- F of a pass's plane at the full rate: 512 B a cycle for a transposed plane with a stride off 32 bytes. -/
def psF (u : Nat) : Nat :=
  let rate := if psWtrans u && (psWcs u % 32 != 0 || ((psWf u).scaled && psWscs u % 32 != 0)) then 512 else 1024
  ceilDiv (psPlaneBytes u) rate
/-- A of a pass. -/
def psA (u : Nat) : Nat := psRows u * (psClass u).cyclesPerRow
/-- S of a pass. -/
def psS (u : Nat) : Nat := ceilDiv (psRows u * psStreamRow u) 256
/-- F of pass p: the plane fed during it is the next pass's, or the next tile's first (`nextU`), or none. -/
def psFedDuring (u p : Nat) (nextU : Option Nat) : Nat :=
  if p + 1 < psNpass u then psF u
  else match nextU with
    | some v => if psNpass v = 0 then 0 else psF v
    | none => 0
/-- Cycles of pass p. -/
def psPass (u p : Nat) (nextU : Option Nat) : Nat := max (psA u) (max (psS u) (psFedDuring u p nextU))

/-- The pass of a descriptor with Pillow work. -/
def tdPass (d : Nat) : Nat := tdUnit d (tdPunit d)
/-- The stitch header of a descriptor with a stitch program. -/
def tdStitch (d : Nat) : Nat := tdUnit d (tdNunit d)

/-- The next tile's pass, as R158 takes it. -/
def nextPass (d next : Nat) : Option Nat :=
  if tdChainOut d && next != 0 && tdPillow next then some (tdPass next) else none

/-- Cycles of the drain of a run: the W16 path adds D_NROW (R211). -/
def psDrainCycles (u : Nat) (wide : Bool) : Nat := if psDrain u then psDnrow u * (if wide then 2 else 1) else 0

/-- Core cycles of a tile's Pillow part without stalls. -/
def pillowCycles (d next : Nat) (wide : Bool) : Nat :=
  let u := tdPass d
  let n := psNpass u
  let ps := ((upto n).map (fun p => psPass u p (nextPass d next))).sum
  let tail := if 0 < n ∧ (psDrain u = true ∨ tdChainOut d = false) then 16 else 0
  ps + tail + psDrainCycles u wide

end Sys2Proof.Machine
end

