-- ==== Sys2Proof/Machine/Needle.lean ====
section
/-!
DEFINITION. Sys2Proof/Machine/Needle.lean: the vector engine of chapter 06, first part: stitch headers, streams, lane values
and the arithmetic of one instruction.
-/
namespace Sys2Proof.Machine

/-! ### Stitch header (Table 06.1) and stream descriptors (Table 06.2) -/

/-- NELEM. -/
def nhNelem (h : Nat) : Nat := bits h 0 24
/-- NSTRM. -/
def nhNstrm (h : Nat) : Nat := bits h 24 4
/-- Strip size S. -/
def nhStrip (h : Nat) : Nat := 2 ^ (5 + bits h 28 2)
/-- PROG_LEN. -/
def nhPlen (h : Nat) : Nat := bits h 32 7
/-- PROG_ADDR. -/
def nhPaddr (h : Nat) : Nat := bits h 54 42 * 64
/-- RED_LOFF. -/
def nhRed (h : Nat) : Nat := bits h 96 26
/-- Scalar Kᵢ. -/
def nhK (h i : Nat) : Nat := bits h (128 + 32 * i) 32
/-- ALT_LOFF. -/
def nhAlt (h : Nat) : Nat := bits h 384 26

/-- Stream descriptor s of a tile descriptor (R174). -/
def nsDesc (d s : Nat) : Nat := bits (tdUnit d (tdNunit d + 1 + s / 4)) (128 * (s % 4)) 128
/-- DIR: 1 READ, 2 WRITE, 3 UPDATE. -/
def nsDir (s : Nat) : Nat := bits s 0 2
/-- SHAPE: 0 LINEAR, 1 ROWS, 2 REPEAT, 3 INDEXED. -/
def nsShape (s : Nat) : Nat := bits s 2 2
/-- CONT. -/
def nsCont (s : Nat) : Bool := bitOf s 4
/-- IDXSRC. -/
def nsIdx (s : Nat) : Nat := bits s 5 3
/-- LOFF. -/
def nsLoff (s : Nat) : Nat := bits s 8 26
/-- SC_LOFF. -/
def nsScloff (s : Nat) : Nat := bits s 34 26
/-- CONV. -/
def nsConv (s : Nat) : Nat := bits s 60 32
/-- ROWLEN. -/
def nsRowlen (s : Nat) : Nat := bits s 92 18
/-- RSTRIDE. -/
def nsRstride (s : Nat) : Nat := bits s 110 18
/-- The slot reads. -/
def nsReads (s : Nat) : Bool := nsDir s == 1 || nsDir s == 3
/-- The slot writes. -/
def nsWrites (s : Nat) : Bool := nsDir s == 2 || nsDir s == 3
/-- Stored format F (R176). -/
def nsF (s : Nat) : Fmt := if nsDir s = 1 then cSrcFmt (nsConv s) else cDstFmt (nsConv s)
/-- Lane format L (R176). -/
def nsL (s : Nat) : Fmt := if nsDir s = 1 then cDstFmt (nsConv s) else cSrcFmt (nsConv s)
/-- Lane width in bytes (R197). -/
def nsLane (s : Nat) : Nat := if nsL s = .w32p then 8 else 4

/-- Byte of element i within a run: a RAW element is a word (R176). -/
def nOff (f : Fmt) (b i : Nat) : Nat := if f = .raw then 4 * i else f.offset b i
/-- Bytes of n elements from a run's start. -/
def nBytes (f : Fmt) (b n : Nat) : Nat := if f = .raw then 4 * n else f.bytes b n

/-- Run origin and index within the run of position q (Table 06.3), x being the index of an INDEXED slot. -/
def nsAt (s q x : Nat) : Nat × Nat :=
  match nsShape s with
  | 0 => (nsLoff s, q)
  | 1 => (nsLoff s + q / nsRowlen s * 32 * nsRstride s, q % nsRowlen s)
  | 2 => (nsLoff s, q % nsRowlen s)
  | _ => (nsLoff s, x)

/-- Window offset of the scale byte of position q (Table 06.3). -/
def nsScaleAt (s q x : Nat) : Nat :=
  let b := dBlk (nsConv s)
  match nsShape s with
  | 0 => nsScloff s + q / b
  | 1 => nsScloff s + q / nsRowlen s * ceilDiv (nsRowlen s) b + q % nsRowlen s / b
  | 2 => nsScloff s + q % nsRowlen s / b
  | _ => nsScloff s + x / b

/-! ### Instructions (Table 06.4) -/

/-- OP. -/
def niOp (i : Nat) : Nat := bits i 0 8
/-- DST. -/
def niDst (i : Nat) : Nat := bits i 8 6
/-- SA. -/
def niSa (i : Nat) : Nat := bits i 14 6
/-- SB. -/
def niSb (i : Nat) : Nat := bits i 20 6
/-- SC. -/
def niSc (i : Nat) : Nat := bits i 26 6
/-- TYPE: 0 F32, 1 PAIR, 2 I32, 3 U32. -/
def niType (i : Nat) : Nat := bits i 32 2
/-- MODE. -/
def niMode (i : Nat) : Nat := bits i 34 3
/-- FMT. -/
def niFmt (i : Nat) : Nat := bits i 37 4
/-- GRAD. -/
def niGrad (i : Nat) : Bool := bitOf i 41
/-- IMM. -/
def niImm (i : Nat) : Nat := bits i 42 22
/-- Channel of a RED. -/
def niChan (i : Nat) : Nat := bits i 42 3
/-- SEG of a RED. -/
def niSeg (i : Nat) : Nat := bits i 45 19

/-- Types an opcode takes (Table 06.6); none for a code outside the table. ENC and DEC take F32 and PAIR beside the type
the table names, which is their result's (log entry 31). -/
def opTypes (op : Nat) : Option (List Nat) :=
  if op = 0x01 ∨ op = 0x0B ∨ op = 0x28 then some [0, 1, 2, 3]
  else if 0x02 ≤ op ∧ op ≤ 0x04 then some [0, 1, 2]
  else if op = 0x05 then some [0, 1]
  else if op = 0x06 ∨ op = 0x07 ∨ op = 0x0A then some [0, 2, 3]
  else if op = 0x08 ∨ op = 0x09 then some [0, 1, 2]
  else if 0x0C ≤ op ∧ op ≤ 0x10 then some [0]
  else if op = 0x12 then some [0]
  else if 0x18 ≤ op ∧ op ≤ 0x1D then some [3]
  else if op = 0x1E ∨ op = 0x1F then some [2]
  else if op = 0x20 then some [0]
  else if op = 0x21 ∨ op = 0x22 ∨ op = 0x30 then some [0, 1]
  else if op = 0x23 then some [0, 1, 2]
  else if op = 0x24 then some [0, 1]
  else none

/-- The modes an opcode takes. Log entry 31. -/
def opModeOk (op m : Nat) : Bool :=
  if op = 0x0A then decide (m ≤ 5)
  else if op = 0x12 then decide (m ≤ 1)
  else if op = 0x1F then m == 0 || m == 2 || m == 4 || m == 5
  else if 0x21 ≤ op ∧ op ≤ 0x23 then decide (m ≤ 3)
  else if op = 0x28 then decide (m ≤ 3)
  else if op = 0x30 then decide (m ≤ 5)
  else true

/-- FMT of CVT, CVTR, ENC and DEC (R186). -/
def cvtFmt (c : Nat) : Option Fmt :=
  match fmtOf c with
  | some .n4l => some .n4l
  | some .n4i => some .n4i
  | some .n8f => some .n8f
  | some .n8i => some .n8i
  | some .w16 => some .w16
  | some .w32 => some .w32
  | _ => none

/-- Weight of an instruction (Table 06.6). Log entry 31. -/
def opWeight (i : Nat) : Nat :=
  let op := niOp i
  if 0x02 ≤ op ∧ op ≤ 0x05 then (if niType i = 1 then 2 else 1)
  else if 0x0C ≤ op ∧ op ≤ 0x10 then 4
  else if op = 0x28 then 2
  else 1

/-- The sources an instruction reads, of its three operand codes. -/
def opSources (i : Nat) : List Nat :=
  let op := niOp i
  let a := niSa i
  let two := [0x02, 0x03, 0x04, 0x06, 0x07, 0x0A, 0x18, 0x19, 0x1A, 0x1C, 0x1D, 0x1E]
  if op = 0x05 ∨ op = 0x0B then [a, niSb i, niSc i]
  else if two.contains op then [a, niSb i]
  else if 0x21 ≤ op ∧ op ≤ 0x24 then
    (match cvtFmt (niFmt i) with
     | some f => if f.scaled then [a, niSb i] else [a]
     | none => [a])
  else if op = 0x28 ∧ niMode i = 0 then [a, niSb i]
  else [a]

/-! ### Lane values (R180) -/

/-- What a wire, slot or scalar holds in a lane: a 32-bit word, a pair as its W32P container, or an index. -/
inductive LV where
  | word (b : Nat)
  | pair (c : Nat)
  | idx (n : Nat)
  deriving DecidableEq, Repr

/-- The poison code of W32. -/
def nanW : Nat := 0x7FC00000

/-- Read as W32. Log entry 32. -/
def LV.f32 (v : LV) : Nat :=
  match v with
  | .word b => b
  | .pair c => (match decodeW32P c with
    | .fin d => toW32 .rn 0 d
    | .inf neg => maxCode .w32 neg
    | _ => nanW)
  | .idx n => toW32 .rn 0 (Dy.ofInt n)
/-- Read as a pair. -/
def LV.asPair (v : LV) : Nat :=
  match v with
  | .word b => b
  | .pair c => c
  | .idx n => toW32 .rn 0 (Dy.ofInt n)
/-- Read as a 32-bit integer's bits. -/
def LV.int (v : LV) : Nat :=
  match v with
  | .word b => b % 2 ^ 32
  | .pair c => bits c 0 32
  | .idx n => n % 2 ^ 32

/-- An infinity enters arithmetic as ±maxfin of W32 (R60; log entry 32). -/
def finOf (v : Val) : Val := match v with | .inf neg => .fin (Dy.withSign neg (maxfin .w32)) | v => v
/-- The value of a lane as F32 or PAIR. -/
def LV.val (v : LV) (pair : Bool) : Val := finOf (if pair then decodeW32P v.asPair else decodeW32 v.f32)

/-- What one lane's operation counts. -/
structure NStat where
  fsat : Nat
  isat : Nat
  dom : Nat
  miss : Nat
  conv : Conv
  deriving DecidableEq, Repr

/-- Nothing counted. -/
def NStat.none : NStat := ⟨0, 0, 0, 0, Conv.none⟩
/-- Two lanes together. -/
def NStat.add (a b : NStat) : NStat :=
  ⟨a.fsat + b.fsat, a.isat + b.isat, a.dom + b.dom, a.miss + b.miss, a.conv.add b.conv⟩
/-- A saturated F32, PAIR or Cordonnet result (R184). -/
def NStat.fsat1 : NStat := { NStat.none with fsat := 1, conv := { Conv.none with flags := fSat } }
/-- A saturated integer. -/
def NStat.isat1 : NStat := { NStat.none with isat := 1 }
/-- A domain error. -/
def NStat.dom1 : NStat := { NStat.none with dom := 1 }

/-! ### Arithmetic (R184, R185) -/

/-- An exact result into W32. -/
def resF (d : Dy) : LV × NStat :=
  if (maxfin .w32).lt d.abs then (.word (maxCode .w32 d.isNeg), NStat.fsat1) else (.word (toW32 .rn 0 d), NStat.none)
/-- An exact result into a pair. -/
def resP (d : Dy) : LV × NStat :=
  if (maxfin .w32).lt d.abs then (.pair (maxCode .w32 d.isNeg), NStat.fsat1) else (.pair (toW32P .rn 0 d), NStat.none)
/-- An exact result under F32 or PAIR. -/
def resFP (pair : Bool) (d : Dy) : LV × NStat := if pair then resP d else resF d
/-- Poison under F32 or PAIR. -/
def poisonFP (pair : Bool) : LV × NStat := (if pair then .pair nanW else .word nanW, NStat.none)
/-- An exact integer into I32, saturating. -/
def resI (n : Int) : LV × NStat :=
  if 2147483647 < n then (.word 0x7FFFFFFF, NStat.isat1)
  else if n < -2147483648 then (.word 0x80000000, NStat.isat1)
  else (.word (toSigned 32 n), NStat.none)
/-- A word. -/
def resW (n : Nat) : LV × NStat := (.word (n % 2 ^ 32), NStat.none)

/-- A unary operation on finite values. -/
def unFP (pair : Bool) (f : Dy → Dy) (a : LV) : LV × NStat :=
  match a.val pair with
  | .fin d => resFP pair (f d)
  | _ => poisonFP pair
/-- A binary operation on finite values. -/
def binFP (pair : Bool) (f : Dy → Dy → Dy) (a b : LV) : LV × NStat :=
  match a.val pair, b.val pair with
  | .fin x, .fin y => resFP pair (f x y)
  | _, _ => poisonFP pair
/-- The sign-extended integer of a lane. -/
def LV.sint (v : LV) : Int := signedOf 32 v.int

/-- A code of W32 moved by delta units in the last place of its magnitude, within the finite codes. Log entry 33. -/
def ulpMove (c : Nat) (delta : Int) : Nat :=
  let m := bits c 0 31
  let m' := min 0x7F7FFFFF ((m : Int) + delta).toNat
  signCode (bitOf c 31) 31 m'

/-- An approximation within u units in the last place of the correctly rounded code (log entry 33). Log entry 29. -/
def approx (u : Nat) (c free : Nat) : LV × NStat := (.word (ulpMove c (((free % (2 * u + 1) : Nat) : Int) - (u : Int))), NStat.none)

/-- √a rounded to nearest W32: an integer root with at least 26 bits and a sticky bit. -/
def sqrtDy (a : Dy) : Dy :=
  let s : Nat := 60 + (if (a.e - 60) % 2 = 0 then 0 else 1)
  let n := a.m.natAbs * 2 ^ s
  let e := a.e - (s : Int)
  let r := isqrt n
  ⟨((2 * r + (if r * r = n then 0 else 1) : Nat) : Int), e / 2 - 1⟩

/-- a / b with 60 bits and a sticky bit, for magnitudes, b not 0. -/
def divDy (a b : Dy) : Dy :=
  let n := a.m.natAbs * 2 ^ 120
  let d := b.m.natAbs
  ⟨((2 * (n / d) + (if n % d = 0 then 0 else 1) : Nat) : Int), a.e - b.e - 121⟩

/-- 2^(2^-i) for i = 1 … n in units of 2^-64, by repeated roots. -/
def rootsOfTwo : Nat → Nat → List Nat
  | 0, _ => []
  | n + 1, c => let r := isqrt (c * 2 ^ 64); r :: rootsOfTwo n r

/-- 2^f for f = t / 2^40 in [0, 1), in units of 2^-64. -/
def exp2Frac (t : Nat) : Nat :=
  ((rootsOfTwo 40 (2 * 2 ^ 64)).zipIdx).foldl (fun a p =>
    if bitOf t (39 - p.2) then a * p.1 / 2 ^ 64 else a) (2 ^ 64)

/-- 2^a close to its exact value, a within ±256. -/
def exp2Dy (a : Dy) : Dy :=
  let n := if 0 ≤ a.e + 40 then a.m * pow2 (a.e + 40).toNat else a.m / pow2 (-(a.e + 40)).toNat
  ⟨exp2Frac (n % pow2 40).toNat, n / pow2 40 - 64⟩

/-- Bits of log₂ y for y in [1, 2) in units of 2^-128, most significant first. -/
def log2Bits : Nat → Nat → Nat → Nat
  | 0, _, acc => acc
  | k + 1, y, acc =>
    let z := y * y / 2 ^ 128
    if 2 * 2 ^ 128 ≤ z then log2Bits k (z / 2) (2 * acc + 1) else log2Bits k z (2 * acc)

/-- log₂ a close to its exact value, a above 0. -/
def log2Dy (a : Dy) : Dy :=
  let l := log2Nat a.m.natAbs
  let y := a.m.natAbs * 2 ^ 128 / 2 ^ l
  (Dy.ofInt (a.e + (l : Int))).add ⟨log2Bits 60 y 0, -60⟩

/-- RECIP, SQRT, RSQRT, EXP2, LOG2 (R184). Log entry 33. -/
def transcend (op : Nat) (a : LV) : LV × NStat :=
  let c := a.f32
  match finOf (decodeW32 c) with
  | .fin d =>
    let neg := d.isNeg
    if op = 0x0C then
      if d.isZero then (.word (maxCode .w32 false), NStat.fsat1)
      else
        let q := (divDy ⟨1, 0⟩ d).withSign neg
        if (maxfin .w32).lt q.abs then (.word (maxCode .w32 neg), NStat.fsat1)
        else approx 1 (toW32 .rn 0 q) (Config.recip c)
    else if op = 0x0F then
      if (Dy.mk 128 0).le d then (.word (maxCode .w32 false), NStat.fsat1)
      else approx 2 (if d.lt ⟨-200, 0⟩ then 0 else toW32 .rn 0 (exp2Dy d)) (Config.exp2 c)
    else if neg && !d.isZero then (.word nanW, NStat.dom1)
    else if op = 0x0D then resF (sqrtDy d)
    else if op = 0x0E then
      if d.isZero then (.word (maxCode .w32 false), NStat.fsat1)
      else approx 1 (toW32 .rn 0 (divDy ⟨1, 0⟩ (sqrtDy (d.shift 0)))) (Config.rsqrt c)
    else
      if d.isZero then (.word (maxCode .w32 true), NStat.fsat1)
      else
        let r := log2Dy d
        if (Dy.mk 1 (-1)).le d && d.le ⟨2, 0⟩ then
          resF (r.add ⟨((Config.log2 c % 131073 : Nat) : Int) - 65536, -39⟩)
        else approx 2 (toW32 .rn 0 r) (Config.log2 c)
  | _ => (.word nanW, NStat.none)

/-- ⌊d⌋ and whether anything was cut. -/
def floorDy (d : Dy) : Int × Bool :=
  if 0 ≤ d.e then (d.m * pow2 d.e.toNat, false)
  else (d.m / pow2 (-d.e).toNat, d.m % pow2 (-d.e).toNat != 0)

/-- FTOI (R185). -/
def ftoi (mode : Nat) (a : LV) : LV × NStat :=
  match finOf (decodeW32 a.f32) with
  | .fin d =>
    let (f, cut) := floorDy d
    let n := match mode with
      | 0 =>
        let (n, r, q) := d.abs.quant 0
        let m : Int := pickUp .rn 0 n r q
        if d.isNeg then -m else m
      | 2 => if cut && decide (f < 0) then f + 1 else f
      | 5 => if cut then f + 1 else f
      | _ => f
    resI n
  | _ => (.word 0, NStat.dom1)

/-- A comparison by MODE of two ordered values. -/
def relOf (mode : Nat) (lt eq : Bool) : Bool :=
  match mode with
  | 0 => eq
  | 1 => !eq
  | 2 => lt
  | 3 => lt || eq
  | 4 => !(lt || eq)
  | _ => !lt

/-- CMP (R181, R184). -/
def cmpLV (t mode : Nat) (a b : LV) : LV × NStat :=
  let r :=
    if t = 0 then
      (match finOf (decodeW32 a.f32), finOf (decodeW32 b.f32) with
       | .fin x, .fin y => relOf mode (x.lt y) (x.same y)
       | _, _ => false)
    else if t = 2 then relOf mode (decide (a.sint < b.sint)) (a.sint == b.sint)
    else relOf mode (decide (a.int < b.int)) (a.int == b.int)
  (.word (b2n r), NStat.none)

/-- MIN and MAX. -/
def minmax (t : Nat) (big : Bool) (a b : LV) : LV × NStat :=
  if t = 0 then binFP false (fun x y => if x.lt y == big then y else x) a b
  else
    let lt := if t = 2 then decide (a.sint < b.sint) else decide (a.int < b.int)
    (.word (if lt == big then b.int else a.int), NStat.none)

/-- A source copied under a TYPE (MOV, SEL, PERM): every zero F32 result is positive (R184). -/
def moved (t : Nat) (a : LV) : LV :=
  match t with
  | 0 => .word (if a.f32 = 0x80000000 then 0 else a.f32)
  | 1 => .pair a.asPair
  | _ => .word a.int

/-- The quantised value of a CVT, CVTR or ENC: the code, the decoded value and the events (R186). -/
def quantise (f : Fmt) (s : Nat) (mode : Rnd) (rnd : Nat) (v : Val) : Nat × Val × Conv :=
  let sg := if f.scaled then some s else none
  let (c, k) := storeVal f sg false mode rnd v
  let y := match v with
    | .poison => .poison
    | _ => loadVal f sg c
  (c, y, k)

/-- One lane of an instruction but PERM and RED: the result, the remainder of CVTR, what it counts. `rnd` is the
generator's value of the lane, `def` the captured DEF_RND, `fv` a free value for a code outside Table 06.6. -/
def laneOp (i : Nat) (a b c : LV) (defRnd rnd fv : Nat) : LV × LV × NStat :=
  let op := niOp i
  let t := niType i
  let pair := t == 1
  let one := fun (r : LV × NStat) => (r.1, LV.word 0, r.2)
  if op = 0x01 then (moved t a, .word 0, NStat.none)
  else if op = 0x02 then one (if t = 2 then resI (a.sint + b.sint) else binFP pair Dy.add a b)
  else if op = 0x03 then one (if t = 2 then resI (a.sint - b.sint) else binFP pair Dy.sub a b)
  else if op = 0x04 then one (if t = 2 then resI (a.sint * b.sint) else binFP pair Dy.mul a b)
  else if op = 0x05 then
    one (match a.val pair, b.val pair, c.val pair with
      | .fin x, .fin y, .fin z => resFP pair ((x.mul y).add z)
      | _, _, _ => poisonFP pair)
  else if op = 0x06 then one (minmax t false a b)
  else if op = 0x07 then one (minmax t true a b)
  else if op = 0x08 then one (if t = 2 then resI (a.sint.natAbs : Int) else unFP pair Dy.abs a)
  else if op = 0x09 then one (if t = 2 then resI (-a.sint) else unFP pair Dy.neg a)
  else if op = 0x0A then one (cmpLV t (niMode i) a b)
  else if op = 0x0B then (moved t (if c.int ≠ 0 then a else b), .word 0, NStat.none)
  else if 0x0C ≤ op ∧ op ≤ 0x10 then one (transcend op a)
  else if op = 0x12 then
    one (match finOf (decodeW32P a.asPair) with
      | .fin _ =>
        if niMode i = 0 then (.word (bits a.asPair 0 32), NStat.none)
        else (.word (toW32 .rn 0 (decodeW16 (bits a.asPair 32 16)).dy), NStat.none)
      | _ => (.word nanW, NStat.none))
  else if op = 0x18 then one (resW (a.int &&& b.int))
  else if op = 0x19 then one (resW (a.int ||| b.int))
  else if op = 0x1A then one (resW (a.int ^^^ b.int))
  else if op = 0x1B then one (resW (0xFFFFFFFF - a.int))
  else if op = 0x1C then one (resW (if 32 ≤ b.int then 0 else a.int * 2 ^ b.int))
  else if op = 0x1D then one (resW (if 32 ≤ b.int then 0 else a.int / 2 ^ b.int))
  else if op = 0x1E then one (resW (toSigned 32 (a.sint / pow2 (min b.int 31))))
  else if op = 0x1F then one (ftoi (niMode i) a)
  else if op = 0x20 then one (resF (Dy.ofInt a.sint))
  else if 0x21 ≤ op ∧ op ≤ 0x23 then
    let f := (cvtFmt (niFmt i)).getD .w32
    let v := if pair then decodeW32P a.asPair else decodeW32 a.f32
    let mode := if niGrad i then Rnd.sr else if niMode i = 3 then rndOf defRnd else rndOf (niMode i)
    let (code, y, k) := quantise f (b.int % 256) mode rnd v
    let st := { NStat.none with conv := k }
    let out := match y with
      | .fin d => LV.word (toW32 .rn 0 d)
      | _ => LV.word nanW
    let rem := match v, y with
      | .fin x, .fin d => LV.pair (toW32P .rn 0 (x.sub d))
      | .inf neg, .fin d => LV.pair (toW32P .rn 0 ((Dy.withSign neg (maxfin .w32)).sub d))
      | _, _ => LV.pair nanW
    if op = 0x23 then (.word code, .word 0, st) else (out, rem, st)
  else if op = 0x24 then
    let f := (cvtFmt (niFmt i)).getD .w32
    let code := a.int % 2 ^ f.width
    let k := loadConv f code
    match loadVal f (if f.scaled then some (b.int % 256) else none) code with
    | .fin d => (.word (toW32 .rn 0 d), .word 0, { NStat.none with conv := k })
    | .inf neg => (.word (maxCode .w32 neg), .word 0,
        { NStat.none with conv := { Conv.none with flags := fNonfinite, nonfinite := 1 } })
    | _ => (.word nanW, .word 0, NStat.none)
  else (.word (fv % 2 ^ 32), .word 0, NStat.none)

/-- The lane PERM takes (R189). -/
def permLane (i l vl s : Nat) (b : LV) : Nat :=
  match niMode i with
  | 0 => b.int
  | 1 => vl - 1 - l
  | 2 => (l + niImm i) % s
  | _ => l ^^^ (niImm i % s)

end Sys2Proof.Machine
end

