-- ==== Sys2Proof/Machine/Stitch.lean ====
section
/-!
DEFINITION. Sys2Proof/Machine/Stitch.lean: a stitch run (R182): reads, the program strip by strip, writes through the slots'
conversions, Cordonnet's channels, the validation of R194 and the cycle counts of R197.
-/
namespace Sys2Proof.Machine

/-- What a stitch run works on: the tile descriptor, its slots with their start positions, the elements to run, the window
reader, the generator, DEF_RND, the recompute level, the captured scales of Hoop slots, the instructions, a free value. -/
structure StitchEnv where
  d : Nat
  slots : List NSlot
  n : Nat
  rd : Nat → Nat
  g : Gen
  defRnd : Nat
  lv : Nat
  cap : Nat → Nat
  prog : List Nat
  fv : Nat

/-- The slots of a tile (R183): a continued slot takes its predecessor's descriptor and position. -/
def resolveSlots (d : Nat) (prev : List NSlot) : List NSlot :=
  (upto (min 8 (nhNstrm (tdStitch d)))).map (fun s =>
    let own := nsDesc d s
    if tdChainIn d && nsCont own then (prev.find? (fun p => p.s == s)).getD ⟨s, 0, own⟩ else ⟨s, 0, own⟩)

/-- Where the slots stand after the tile. -/
def advanceSlots (d : Nat) (l : List NSlot) : List NSlot :=
  l.map (fun (p : NSlot) => { p with pos := p.pos + nhNelem (tdStitch d) })

/-! ### Reads -/

/-- One element of a read-side slot: its lane value and events; none when an INDEXED index is out of range (R195).
Slots that index each other in a ring read a free value. -/
def StitchEnv.readSlot (v : StitchEnv) (e : Nat) : Nat → Nat → Option (LV × Conv)
  | 0, _ => some (.word (v.fv % 2 ^ 32), Conv.none)
  | k + 1, s =>
    match v.slots.find? (fun p => p.s == s) with
    | none => some (.word (v.fv % 2 ^ 32), Conv.none)
    | some p =>
      if nsReads p.desc = false then some (.word (v.fv % 2 ^ 32), Conv.none) else
      let idx := if nsShape p.desc = 3 then (v.readSlot e k (nsIdx p.desc)).map (fun r => r.1.int) else some 0
      match idx with
      | none => none
      | some x =>
        if nsShape p.desc = 3 ∧ nsRowlen p.desc ≤ x then none else
        let q := p.pos + e
        let f := nsF p.desc
        let b := dBlk (nsConv p.desc)
        let (org, i) := nsAt p.desc q x
        if f = .raw then
          some (.word ((upto 4).foldl (fun a j => a + v.rd (org + 4 * i + j) * 2 ^ (8 * j)) 0), Conv.none)
        else
          let code := elemCode f b (fun a => v.rd (org + a)) i
          let sc := if f.scaled then some (v.rd (nsScaleAt p.desc q x)) else none
          let faulty := f == .n2t && (i % b % 5 == 0 || e == 0) && decide (243 ≤ v.rd (org + f.offset b i))
          let k0 := (loadConv f code).add (Conv.codeFaults (b2n faulty))
          let mode := if nsDir p.desc = 3 then Rnd.rn else dMode (nsConv p.desc) v.defRnd
          let (c, k1) := storeVal (nsL p.desc) none false mode (v.fv % 65536) (loadVal f sc code)
          some (if nsL p.desc = .w32p then .pair c else .word c, k0.add k1)

/-- The read-side elements of one strip: slot and values; none when one is out of range. -/
def StitchEnv.readStrip (v : StitchEnv) (base vl : Nat) : Option (List (Nat × List LV) × Conv) :=
  v.slots.foldl (fun a p =>
    match a with
    | none => none
    | some (acc, k) =>
      if nsReads p.desc then
        match (upto vl).foldl (fun (r : Option (List LV × Conv)) l =>
            match r, v.readSlot (base + l) 9 p.s with
            | some (xs, k), some (x, k') => some (xs ++ [x], k.add k')
            | _, _ => none) (some ([], k)) with
        | some (xs, k) => some (acc ++ [(p.s, xs)], k)
        | none => none
      else some (acc, k)) (some ([], Conv.none))

/-! ### The program -/

/-- A run so far: counts, values written (slot, element, value) and sent to Cordonnet (instruction, element, value). -/
structure NRun where
  st : NStat
  wr : List (Nat × Nat × LV)
  red : List (Nat × Nat × Val)
  bad : Bool
  done : Nat
  deriving DecidableEq, Repr

/-- The values of a source over the lanes of a strip (R180). -/
def StitchEnv.source (v : StitchEnv) (wires ins : List (Nat × List LV)) (base vl code : Nat) : List LV :=
  let h := tdStitch v.d
  let pick := fun (l : List (Nat × List LV)) (c : Nat) =>
    match l.find? (fun p => p.1 == c) with
    | some p => p.2
    | none => (upto vl).map (fun _ => LV.word (v.fv % 2 ^ 32))
  if code < 0x20 then pick wires code
  else if code < 0x28 then pick ins (code - 0x20)
  else (upto vl).map (fun l =>
    if code < 0x30 then .word (nhK h (code - 0x28))
    else if code = 0x30 then .idx (base + l)
    else if code = 0x31 then .idx l
    else if code = 0x32 then .idx vl
    else .word 0)

/-- Put a wire. -/
def setWire (wires : List (Nat × List LV)) (n : Nat) (x : List LV) : List (Nat × List LV) :=
  (n, x) :: wires.filter (fun p => p.1 != n)

/-- Run one instruction over a strip. -/
def StitchEnv.instr (v : StitchEnv) (ins : List (Nat × List LV)) (base vl idx i : Nat)
    (a : List (Nat × List LV) × NRun) : List (Nat × List LV) × NRun :=
  let (wires, r) := a
  let src := fun c => v.source wires ins base vl c
  let op := niOp i
  let sa := src (niSa i)
  if op = 0x30 then
    let pair := niType i == 1
    (wires, { r with red := r.red ++ (upto vl).map (fun l => (idx, base + l, (sa.getD l (.word 0)).val pair)) })
  else
    let sb := src (niSb i)
    let res : List (LV × LV × NStat) :=
      if op = 0x28 then
        (upto vl).map (fun l =>
          let k := permLane i l vl (nhStrip (tdStitch v.d)) (sb.getD l (.word 0))
          if k < vl then (moved (niType i) (sa.getD k (.word 0)), .word 0, NStat.none)
          else (if niType i = 1 then .pair 0 else .word 0, .word 0, { NStat.none with miss := 1 }))
      else
        let sc := src (niSc i)
        (upto vl).map (fun l => laneOp i (sa.getD l (.word 0)) (sb.getD l (.word 0)) (sc.getD l (.word 0)) v.defRnd
          (v.g.rnd (0x40000000 + (8 + idx) * 2 ^ 24 + base + l)) v.fv)
    let st := res.foldl (fun s x => s.add x.2.2) r.st
    let out := res.map (fun x => x.1)
    let dst := niDst i
    if dst < 0x20 then
      let w := setWire wires dst out
      (if op = 0x22 then setWire w (dst + 1) (res.map (fun x => x.2.1)) else w, { r with st := st })
    else
      (wires, { r with st := st, wr := r.wr ++ out.zipIdx.map (fun p => (dst - 0x20, base + p.2, p.1)) })

/-- Run strip j. -/
def StitchEnv.strip (v : StitchEnv) (j : Nat) (r : NRun) : NRun :=
  if r.bad then r else
  let s := nhStrip (tdStitch v.d)
  let base := j * s
  let vl := min s (v.n - base)
  match v.readStrip base vl with
  | none => { r with bad := true }
  | some (ins, k) =>
    let r := { r with st := { r.st with conv := r.st.conv.add k } }
    let (_, r) := v.prog.zipIdx.foldl (fun a p => v.instr ins base vl p.2 p.1 a) ([], r)
    { r with done := base + vl }

/-- Every strip in order. -/
def StitchEnv.exec (v : StitchEnv) : NRun :=
  (upto (ceilDiv v.n (nhStrip (tdStitch v.d)))).foldl (fun r j => v.strip j r) ⟨NStat.none, [], [], false, 0⟩

/-! ### Writes (R187, R188) -/

/-- Values with the same key in a row, together. -/
def groupRuns : List (Nat × Nat × Val) → List (Nat × List (Nat × Val))
  | [] => []
  | (k, e, x) :: r =>
    match groupRuns r with
    | (k', g) :: t => if k = k' then (k, (e, x) :: g) :: t else (k, [(e, x)]) :: (k', g) :: t
    | [] => [(k, [(e, x)])]

/-- Element codes from element i of a run as bytes at the run's offset: codes of the byte that precede element i are
kept as they stand. Log entry 57. -/
def placeCodes (f : Fmt) (b : Nat) (rd : Nat → Nat) (org i : Nat) (codes : List Nat) : Nat × List Nat :=
  match f with
  | .n2t =>
    let k0 := i - i % b % 5
    let old := (upto (i - k0)).map (fun j => elemCode f b (fun a => rd (org + a)) (k0 + j))
    let l := old ++ codes
    (org + f.offset b k0, tritBytes (ceilDiv l.length 5) l)
  | .n4l | .n4i =>
    let k0 := i - i % 2
    let old := (upto (i - k0)).map (fun j => elemCode f b (fun a => rd (org + a)) (k0 + j))
    let l := old ++ codes
    (org + k0 / 2, nibbleBytes (ceilDiv l.length 2) l)
  | _ => (org + f.offset b i, packCodes f b codes)

/-- The value with which a lane enters a slot's conversion. -/
def slotVal (p : NSlot) (x : LV) : Val :=
  if nsL p.desc = .w32p then decodeW32P x.asPair else decodeW32 x.f32

/-- Write values block by block under a scale source: pieces, events. The missing slots of a last block take zero codes
(R48). -/
def StitchEnv.putBlocks (v : StitchEnv) (p : NSlot) (src : ScaleSrc) (ovf : Bool) (mode : Rnd) (lane0 : Nat)
    (plane : Nat → Nat) (scales : Bool) (vals : List (Nat × Val)) : List (Nat × List Nat) × Conv :=
  let f := nsF p.desc
  let b := dBlk (nsConv p.desc)
  let keyed := vals.map (fun x =>
    let q := p.pos + x.1
    let (org, i) := nsAt p.desc q 0
    (org * 2 ^ 32 + i / b, x.1, x.2))
  (groupRuns keyed).foldl (fun (a : List (Nat × List Nat) × Conv) g =>
    let e0 := (g.2.head?.map (fun x => x.1)).getD 0
    let q := p.pos + e0
    let (org, i) := nsAt p.desc q 0
    let sat0 := nsScaleAt p.desc q 0
    let xs := g.2.map (fun x => x.2)
    let s := dstScale src f (plane sat0) xs
    let (codes, k) := storeBlock f s ovf mode (fun j => v.g.rnd (lane0 + e0 + j)) xs
    let pad := if f.scaled then List.replicate ((b - (i + codes.length) % b) % b) (if f = .n2t then 1 else 0) else []
    (a.1 ++ [placeCodes f b v.rd org i (codes ++ pad)] ++ (if scales && f.scaled then [(sat0, [s.getD 0])] else []),
     a.2.add k)) ([], Conv.none)

/-- The slot's destination is TENSOR or PLANE. -/
def nsFixed (s : Nat) : Bool := nsWrites s && (nsF s).scaled && decide (2 ≤ dScaleSrc (nsConv s))

/-- Window offset of slot s's W16 image (R196): images lie in ascending slot order. Log entry 75. -/
def altOff (d : Nat) (slots : List NSlot) (s : Nat) : Nat :=
  let n := ceilDiv (nhNelem (tdStitch d) * 2) 32 * 32
  nhAlt (tdStitch d) + n * (slots.filter (fun p => nsFixed p.desc && decide (p.s < s))).length

/-- Everything written through one slot. -/
def StitchEnv.putSlot (v : StitchEnv) (p : NSlot) (r : NRun) : UnitOut :=
  let mine := (r.wr.filter (fun x => x.1 == p.s)).map (fun x => (x.2.1, x.2.2))
  let f := nsF p.desc
  if f = .raw then
    ⟨mine.map (fun x =>
      let (org, i) := nsAt p.desc (p.pos + x.1) 0
      (org + 4 * i, (upto 4).map (fun j => bits x.2.int (8 * j) 8))), Conv.none, [], []⟩
  else
    let d := nsConv p.desc
    let vals := mine.map (fun x => (x.1, slotVal p x.2))
    let lane0 := 0x40000000 + p.s * 2 ^ 24
    let mode := pairMode (nsL p.desc) f (dMode d v.defRnd)
    let pl := dstPlan d v.lv (v.cap (dTslot d)) v.rd
    let rep := fun k => if dScaleSrc d = 2 then [(dTslot d, k)] else []
    match pl.wide with
    | none =>
      let (ws, k) := v.putBlocks p pl.src (ovfOf pl.src f) mode lane0 pl.plane pl.writeScales vals
      ⟨ws, k, rep k, []⟩
    | some reason =>
      let off := altOff v.d v.slots p.s
      let img := vals.map (fun x => (x.1, storeVal .w16 none false (dMode d v.defRnd) (v.g.rnd (lane0 + x.1)) x.2))
      let w16 := img.map (fun x => (off + 2 * x.1, [x.2.1 % 256, x.2.1 / 256]))
      let back := img.map (fun x => (x.1, decodeW16 x.2.1))
      let (ws, k) := v.putBlocks p .block false (dMode d v.defRnd) (lane0 + 2 ^ 32) pl.plane true back
      let k := img.foldl (fun k x => k.add x.2.2) k
      let k := { k with flags := k.flags &&& (255 - fOvf) }
      ⟨w16 ++ ws, k, rep k,
       [⟨reason, 1 + p.s, if dScaleSrc d = 2 then dTslot d else 0, dScaleSrc d != 2, off, nhNelem (tdStitch v.d) * 2⟩]⟩

/-! ### Cordonnet (R190 to R192) -/

/-- A pair rounded to nearest, an accumulator past the W32 maximum held at ±maxfin: the container and saturations. -/
def cordRnd (d : Dy) : Nat × Nat :=
  if (maxfin .w32).lt d.abs then (maxCode .w32 d.isNeg, 1) else (toW32P .rn 0 d, 0)

/-- One level of the pairwise tree. -/
def cordPairs : List Nat → List Nat × Nat
  | a :: b :: r =>
    let (c, n) := cordRnd ((decodeW32P a).dy.add (decodeW32P b).dy)
    let (t, m) := cordPairs r
    (c :: t, n + m)
  | l => (l, 0)

/-- The tree over 32 values. -/
def cordTree (l : List Nat) : Nat × Nat :=
  let (t, n) := iter (fun (a : List Nat × Nat) => let (t, n) := cordPairs a.1; (t, a.2 + n)) 5 (l, 0)
  (t.getD 0 0, n)

/-- The accumulator stands at ±maxfin of W32, where it holds (R192). -/
def cordHeld (c : Nat) : Bool := c == maxCode .w32 false || c == maxCode .w32 true

/-- A channel takes the elements of one group that lie in its open segment; l0 is the lane of the first. -/
def Chan.take (c : Chan) (l0 : Nat) (xs : List Val) : Chan × Nat :=
  let bad := xs.findIdx? (fun v => match v with | .fin _ => false | _ => true)
  let c1 := match bad with
    | some j => if c.poison then c else { c with poison := true, arg := c.inSeg + j }
    | none => c
  let ds := xs.map (fun v => v.dy)
  let upd : Nat × Nat × Nat :=
    if c.op ≤ 1 then
      let v := ds.map (fun d => if c.op = 1 then cordRnd (d.mul d) else (toW32P .rn 0 d, 0))
      let row := List.replicate l0 0 ++ v.map (fun x => x.1) ++ List.replicate (32 - l0 - v.length) 0
      let (t, n) := cordTree row
      let n := n + (v.map (fun x => x.2)).sum
      if cordHeld c.acc then (c.acc, c.arg, n)
      else
        let (a, m) := cordRnd ((decodeW32P c.acc).dy.add (decodeW32P t).dy)
        (a, c.arg, n + m)
    else
      let (a, i, _) := ds.zipIdx.foldl (fun (s : Nat × Nat × Bool) p =>
        let d := if c.op = 4 then p.1.abs else p.1
        let first := !s.2.2
        let cur := (decodeW32P s.1).dy
        if first || (if c.op = 3 then d.lt cur else cur.lt d) then (toW32P .rn 0 d, c.inSeg + p.2, true) else s)
        (c.acc, c.arg, decide (0 < c.inSeg))
      (a, i, 0)
  let c2 := if c1.poison then c1 else { c1 with acc := upd.1, arg := upd.2.1 }
  ({ c2 with inSeg := c.inSeg + xs.length }, upd.2.2)

/-- The 8 bytes a channel emits. -/
def Chan.payload (c : Chan) : Nat :=
  if c.op = 5 then c.arg + (if c.poison then nanW else (LV.pair c.acc).f32) * 2 ^ 32
  else if c.poison then nanW else c.acc

/-- A channel with its segment closed. -/
def Chan.fresh (c : Chan) : Chan := { c with inSeg := 0, acc := 0, arg := 0, poison := false }

/-- An emit: whether its segment was still open, the channel position and group of its last element, channel, payload. -/
structure Emit where
  late : Bool
  last : Nat
  group : Nat
  ch : Nat
  data : Nat
  deriving DecidableEq, Repr

/-- A channel takes one group, cut at segment ends. Fuel counts elements. -/
def Chan.group (g : Nat) : Nat → Nat → List Val → Chan × List Emit × Nat → Chan × List Emit × Nat
  | 0, _, _, a => a
  | k + 1, l0, xs, (c, es, n) =>
    if xs.isEmpty then (c, es, n) else
    let room := if c.seg = 0 then xs.length else c.seg - c.inSeg
    let m := min room xs.length
    let (c, s) := c.take l0 (xs.take m)
    let c := { c with count := c.count + m }
    if c.seg ≠ 0 ∧ c.inSeg = c.seg then
      Chan.group g k (l0 + m) (xs.drop m) (c.fresh, es ++ [⟨false, c.count - 1, g, c.ch, c.payload⟩], n + s)
    else Chan.group g k (l0 + m) (xs.drop m) (c, es, n + s)

/-- A channel takes a run of values; at the end of a chain it emits an open segment. -/
def Chan.run (c : Chan) (xs : List Val) (close : Bool) : Chan × List Emit × Nat :=
  let ng := ceilDiv xs.length 32
  let (c, es, n) := (upto ng).foldl (fun a g => Chan.group g 33 0 ((xs.drop (32 * g)).take 32) a) (c, [], 0)
  if close && decide (0 < c.inSeg) then
    (c.fresh, es ++ [⟨true, c.count - 1, ng - 1, c.ch, c.payload⟩], n)
  else (c, es, n)

/-- Emits come before others: closed segments by position, then channel; open ones last by channel (R191). -/
def Emit.before (a b : Emit) : Bool :=
  if a.late != b.late then b.late
  else if a.late then decide (a.ch < b.ch)
  else decide (a.last < b.last) || (a.last == b.last && decide (a.ch < b.ch))

/-- An emit put in its place. -/
def insertEmit (e : Emit) : List Emit → List Emit
  | [] => [e]
  | a :: r => if e.before a then e :: a :: r else a :: insertEmit e r

/-- The REDs of a program with their instruction index. -/
def progReds (prog : List Nat) : List (Nat × Nat) := (prog.zipIdx.filter (fun p => niOp p.1 == 0x30)).map (fun p => (p.2, p.1))

/-- Everything a stitch run does. -/
structure StitchOut where
  unit : UnitOut
  stat : NStat
  slots : List NSlot
  chans : List Chan
  emits : List Emit
  bad : Bool
  deriving DecidableEq, Repr

/-- A stitch run (R182). -/
def StitchEnv.run (v : StitchEnv) (chans : List Chan) : StitchOut :=
  let r := v.exec
  let outs := (v.slots.filter (fun p => nsWrites p.desc)).map (fun p => v.putSlot p r)
  let close := !tdChainOut v.d
  let (cs, es, n) := (progReds v.prog).foldl (fun (a : List Chan × List Emit × Nat) p =>
    let ch := niChan p.2
    let c0 := (chans.find? (fun c => c.ch == ch)).getD ⟨ch, niMode p.2, niSeg p.2, 0, 0, 0, 0, false⟩
    let xs := (r.red.filter (fun x => x.1 == p.1)).map (fun x => x.2.2)
    let (c, e, n) := c0.run xs close
    (a.1 ++ [c], e.foldl (fun l x => insertEmit x l) a.2.1, a.2.2 + n)) ([], [], 0)
  let red := nhRed (tdStitch v.d)
  let ew := es.zipIdx.map (fun p => (red + 8 * p.2, (upto 8).map (fun j => bits p.1.data (8 * j) 8)))
  let k := outs.foldl (fun k o => k.add o.conv) r.st.conv
  let k := if 0 < n then { k with flags := k.flags ||| fSat } else k
  { unit := ⟨outs.flatMap (fun o => o.writes) ++ ew, k, outs.flatMap (fun o => o.reports), outs.flatMap (fun o => o.images)⟩
    stat := { r.st with fsat := r.st.fsat + n, conv := k }
    slots := advanceSlots v.d v.slots
    chans := cs
    emits := es
    bad := r.bad }

/-! ### Cycles (R197) -/

/-- Issue cycles of a group. -/
def nCi (prog : List Nat) : Nat := ceilDiv ((prog.map opWeight).sum) 4
/-- Read cycles of a group. -/
def nCr (slots : List NSlot) : Nat :=
  let rs := slots.filter (fun p => nsReads p.desc)
  let lin := ((rs.filter (fun p => nsShape p.desc != 3)).map (fun p => nsLane p.desc)).sum
  ceilDiv (32 * lin + 1024 * (rs.filter (fun p => nsShape p.desc == 3)).length) 256
/-- Write cycles of a group; `wide` slots on the W16 path count one further slot of 4 bytes each (R211). -/
def nCw (slots : List NSlot) (wide : Nat) : Nat :=
  ceilDiv (32 * (((slots.filter (fun p => nsWrites p.desc)).map (fun p => nsLane p.desc)).sum + 4 * wide)) 128

/-- Cycles of a stitch run and those in which Cr or Cw exceeded Cᵢ. -/
def needleCycles (d : Nat) (prog : List Nat) (slots : List NSlot) (wide : Nat) (emits : List Emit) : Nat × Nat :=
  let n := nhNelem (tdStitch d)
  let ci := nCi prog
  let rw := max (nCr slots) (nCw slots wide)
  let per := (upto (ceilDiv n 32)).map (fun g =>
    max (max ci rw) (ceilDiv (8 * (emits.filter (fun e => e.group == g)).length) 64))
  let perm := if prog.any (fun i => niOp i == 0x28) then 8 * ceilDiv n (nhStrip (tdStitch d)) else 0
  (per.sum + perm + 16, ceilDiv n 32 * (rw - ci))

/-! ### Validation (R194) -/

/-- What the chain's earlier tiles leave for the checks: slots with their positions, and channels: channel, operation,
SEG, elements received. -/
structure ChainShape where
  slots : List NSlot
  chans : List (Nat × Nat × Nat × Nat)
  deriving DecidableEq, Repr

/-- Byte ranges a slot can touch: elements, and scale bytes of a scaled format, as first byte and end (R177). -/
def slotExtents (p : NSlot) (n : Nat) : List (Nat × Nat) :=
  let s := p.desc
  let f := nsF s
  let b := dBlk (nsConv s)
  let rl := nsRowlen s
  let lastPad := fun i => if f.scaled && nsWrites s then ceilDiv (i + 1) b * b else i + 1
  let q1 := p.pos + n - 1
  let (e, sc) : (Nat × Nat) × (Nat × Nat) :=
    match nsShape s with
    | 0 => ((nsLoff s + nOff f b p.pos, nsLoff s + nBytes f b (lastPad q1)),
            (nsScloff s + p.pos / b, nsScloff s + q1 / b + 1))
    | 1 =>
      let r0 := p.pos / rl
      let r1 := q1 / rl
      let row := fun r => nsLoff s + r * 32 * nsRstride s
      let lo := if r0 < r1 then min (row r0 + nOff f b (p.pos % rl)) (row (r0 + 1)) else row r0 + nOff f b (p.pos % rl)
      let endLast := row r1 + nBytes f b (lastPad (q1 % rl))
      let hi := if r0 < r1 then max endLast (row (r1 - 1) + nBytes f b (lastPad (rl - 1))) else endLast
      ((lo, hi), (nsScaleAt s p.pos 0, nsScaleAt s q1 0 + 1))
    | 2 =>
      let i0 := p.pos % rl
      let whole := decide (rl < i0 + n)
      let lo := if whole then 0 else i0
      let hi := if whole then rl - 1 else i0 + n - 1
      ((nsLoff s + nOff f b lo, nsLoff s + nBytes f b (hi + 1)), (nsScloff s + lo / b, nsScloff s + hi / b + 1))
    | _ => ((nsLoff s, nsLoff s + nBytes f b rl), (nsScloff s, nsScloff s + ceilDiv rl b))
  if f.scaled then [e, sc] else [e]

/-- Two byte ranges overlap. -/
def rangesMeet (a b : Nat × Nat) : Bool := decide (a.1 < b.2) && decide (b.1 < a.2)

/-- Elements of channel ch received before the tile. -/
def ChainShape.got (c : ChainShape) (ch : Nat) : Nat :=
  match c.chans.find? (fun x => x.1 == ch) with
  | some x => x.2.2.2
  | none => 0

/-- Emits that R190 allows a tile. -/
def emitCount (d : Nat) (prog : List Nat) (c : ChainShape) : Nat :=
  let n := nhNelem (tdStitch d)
  ((progReds prog).map (fun p =>
    let seg := niSeg p.2
    let got := if tdChainIn d then c.got (niChan p.2) else 0
    if seg = 0 then b2n (!tdChainOut d)
    else (got + n) / seg - got / seg + b2n (!tdChainOut d && (got + n) % seg != 0))).sum

/-- The lane rule of R176 and the conversion checks of R51 for a slot of context x. -/
def Dev.slotConvOk (w : Dev) (x s : Nat) : Bool :=
  (w.convCheck x (nsConv s) 0 false).isNone &&
  (if nsF s = .raw then nsL s == .raw else nsL s == .w32 || nsL s == .w32p)

/-- The stream checks of R194 that need no program. -/
def Dev.slotsOk (w : Dev) (x d : Nat) (slots : List NSlot) : Bool :=
  let h := tdStitch d
  slots.all (fun p =>
    let s := p.desc
    let b := dBlk (nsConv s)
    nsDir s != 0 && (decide (nsShape s < 2) || nsDir s == 1) && w.slotConvOk x s && nsLoff s % 32 == 0 &&
    (nsShape s != 3 || (nsIdx s != p.s && decide (nsIdx s < nhNstrm h) &&
      (match slots.find? (fun q => q.s == nsIdx s) with | some q => nsF q.desc == .raw | none => false))) &&
    (nsShape s == 0 || decide (1 ≤ nsRowlen s)) && (nsShape s != 1 || decide (1 ≤ nsRstride s)) &&
    (nsF s != .n2t || decide (nsShape s < 2) && (nsShape s != 1 || nsRowlen s % b == 0)) &&
    (slotExtents p (nhNelem h)).all (fun e => decide (e.2 ≤ windowBytes)))

/-- An operand code is a legal source after the instructions before it. -/
def sourceOk (slots : List NSlot) (written : List Nat) (c : Nat) : Bool :=
  if c < 0x20 then written.contains c
  else if c < 0x28 then
    (match slots.find? (fun p => p.s == c - 0x20) with | some p => nsReads p.desc | none => false)
  else decide (c ≤ 0x33)

/-- One instruction is legal after those before it, whose wires are `written` (R194). -/
def instrOk (slots : List NSlot) (written : List Nat) (i : Nat) : Bool :=
  let op := niOp i
  match opTypes op with
  | none => false
  | some ts =>
    ts.contains (niType i) && opModeOk op (niMode i) &&
    (!(decide (0x21 ≤ op) && decide (op ≤ 0x24)) || (cvtFmt (niFmt i)).isSome) &&
    (opSources i).all (fun c => sourceOk slots written c) &&
    (if op = 0x30 then niDst i == 0x3F
     else if niDst i < 0x20 then op != 0x22 || decide (niDst i ≤ 0x1E)
     else op != 0x22 && decide (niDst i < 0x28) &&
       (match slots.find? (fun p => p.s == niDst i - 0x20) with
        | some p => nsWrites p.desc &&
            (match nsL p.desc with
             | .w32 => niType i == 0
             | .w32p => niType i == 1
             | _ => decide (2 ≤ niType i))
        | none => false))

/-- Every instruction is legal in its place. -/
def instrsOk (slots : List NSlot) : List Nat → List Nat → Bool
  | _, [] => true
  | written, i :: r =>
    let more := if niOp i = 0x30 then written
      else if niDst i < 0x20 then (if niOp i = 0x22 then niDst i :: (niDst i + 1) :: written else niDst i :: written)
      else written
    instrOk slots written i && instrsOk slots more r

/-- The program checks of R194. -/
def progOk (d : Nat) (slots : List NSlot) (prog : List Nat) (c : ChainShape) : Bool :=
  let h := tdStitch d
  let n := nhNelem h
  let reds := progReds prog
  let chs := reds.map (fun p => niChan p.2)
  let emitR := (nhRed h, nhRed h + 8 * emitCount d prog c)
  let fixed := (slots.filter (fun p => nsFixed p.desc)).length
  let altR := (nhAlt h, nhAlt h + fixed * (ceilDiv (n * 2) 32 * 32))
  let canOvf := slots.any (fun p => nsDir p.desc == 2 && nsFixed p.desc) ||
    (tdKind d == 3 && psDrain (tdPass d) && (psDst (tdPass d)).scaled && decide (2 ≤ dScaleSrc (psDconv (tdPass d))))
  instrsOk slots [] prog &&
  (slots.filter (fun p => nsWrites p.desc)).all (fun p =>
    (prog.filter (fun i => niOp i != 0x30 && niDst i == 0x20 + p.s)).length == 1) &&
  decide (chs.eraseDups.length = chs.length) &&
  (!tdChainIn d || c.chans.all (fun x =>
    (x.2.2.1 != 0 && x.2.2.2 % x.2.2.1 == 0) ||
    reds.any (fun p => niChan p.2 == x.1 && niMode p.2 == x.2.1 && niSeg p.2 == x.2.2.1))) &&
  !(canOvf && slots.any (fun p => nsDir p.desc == 3)) &&
  decide (emitR.2 ≤ windowBytes) && decide (altR.2 ≤ windowBytes) &&
  (slots.filter (fun p => nsWrites p.desc)).all (fun p =>
    (slotExtents p n).all (fun e =>
      slots.all (fun q => q.s == p.s || (slotExtents q n).all (fun f => !rangesMeet e f)) &&
      !rangesMeet e emitR && !rangesMeet e altR))

/-- The header checks of R194. -/
def headerOk (d size : Nat) : Bool :=
  let h := tdStitch d
  decide (0 < nhNelem h) && decide (1 ≤ nhNstrm h ∧ nhNstrm h ≤ 8) && decide (1 ≤ nhPlen h ∧ nhPlen h ≤ 64) &&
  nhRed h % 32 == 0 && nhAlt h % 32 == 0 &&
  (upto (ceilDiv (nhNstrm h) 4)).all (fun j =>
    let u := tdNunit d + 1 + j
    decide (u < size) && !(tdKind d == 3 && u == tdPunit d))

/-- A continued slot was in use (R194). -/
def contOk (d : Nat) (c : ChainShape) : Bool :=
  (upto (min 8 (nhNstrm (tdStitch d)))).all (fun s =>
    !(tdChainIn d && nsCont (nsDesc d s)) || c.slots.any (fun p => p.s == s))

/-- The shape a tile leaves to the next of its chain. Log entry 57. -/
def ChainShape.after (c : ChainShape) (d : Nat) (prog : List Nat) : ChainShape :=
  let c := if tdChainIn d then c else ⟨[], []⟩
  if tdNeedle d then
    let n := nhNelem (tdStitch d)
    let mine := (progReds prog).map (fun p => (niChan p.2, niMode p.2, niSeg p.2, c.got (niChan p.2) + n))
    ⟨advanceSlots d (resolveSlots d c.slots), mine ++ c.chans.filter (fun x => !mine.any (fun m => m.1 == x.1))⟩
  else c

/-- The instructions of a program's bytes. -/
def progOf (b : List Nat) : Nat → List Nat
  | 0 => []
  | k + 1 => (b.take 8).zipIdx.foldl (fun a p => a + p.1 * 2 ^ (8 * p.2)) 0 :: progOf (b.drop 8) k

end Sys2Proof.Machine
end

