-- ==== Sys2Proof/Machine/Sched.lean ====
section
/-!
DEFINITION. Sys2Proof/Machine/Sched.lean: Pricking (chapter 04): cores, claimants and their ranks, protection, fences, saves
and restores, slices and debts, and the placement of R122 and R123.
-/
namespace Sys2Proof.Machine

/-! ### Access to the scheduler's state -/

/-- Change Pricking's state. -/
def Work.setSched (f : SchedState → SchedState) (w : Work) : Work := { w with sched := f w.sched }
/-- Core k. -/
def Dev.core (w : Dev) (k : Nat) : Core := w.sched.cores.getD k (Core.reset k)
/-- Replace core k. -/
def Work.putCore (c : Core) (w : Work) : Work := w.setSched (fun s => { s with cores := setAt s.cores c.k c })
/-- Replace the launches. -/
def Work.setLaunches (l : List Launch) (w : Work) : Work := w.setSched (fun s => { s with launches := l })
/-- Change the launch of a command. -/
def Work.mapLaunch (cmd : Nat) (f : Launch → Launch) (w : Work) : Work :=
  w.setLaunches (w.sched.launches.map (fun l => if l.cmd = cmd then f l else l))
/-- The launch of a command. -/
def Dev.launch? (w : Dev) (cmd : Nat) : Option Launch := w.sched.launches.find? (fun l => l.cmd == cmd)
/-- Replace the sections. -/
def Work.setSections (l : List Section) (w : Work) : Work := w.setSched (fun s => { s with sections := l })
/-- Replace the Sampler's runs. -/
def Work.setRuns (l : List SampRun) (w : Work) : Work := w.setSched (fun s => { s with runs := l })
/-- The compute die of core k. -/
def coreDie (k : Nat) : Nat := k / 16
/-- CORE_STATE of core k: 0 IDLE, 1 SWITCHING, 2 RUNNING, 3 SECTION, 4 FENCED, 5 RESET. -/
def Dev.coreSt (w : Dev) (k : Nat) : Nat := w.get (Obj.coreState k)
/-- Set CORE_STATE and CORE_CTX. -/
def Work.coreNow (k st x : Nat) (w : Work) : Work := (w.put (Obj.coreState k) st).put (Obj.coreCtx k) x

/-- A reset holds core k in RESET: its own, its die's or the device's (R448). -/
def Reset.holdsCore (r : Reset) (k : Nat) : Bool :=
  (r.dom == 2 && r.target == k) || (r.dom == 4 && r.target == coreDie k) || r.dom == 5
/-- Core k is in reset. -/
def Dev.coreReset (w : Dev) (k : Nat) : Bool := w.rst.runs.any (fun r => r.holdsCore k)

/-- FENCED (R140). -/
def Dev.fencedBits (w : Dev) : Nat := w.get Obj.fenceFw ||| w.get Obj.fenceSw
/-- Core k is fenced. -/
def Dev.fencedCore (w : Dev) (k : Nat) : Bool := bitOf w.fencedBits k
/-- Cores of a die. -/
def dieCores (d : Nat) : List Nat := (upto 16).map (fun i => 16 * d + i)
/-- u(d): unfenced cores of die d. -/
def Dev.unfenced (w : Dev) (d : Nat) : Nat := ((dieCores d).filter (fun k => !w.fencedCore k)).length
/-- NP_EFF(d) (R134). -/
def Dev.npEff (w : Dev) (d : Nat) : Nat := min (w.get Obj.npCoresMax) (max 1 (w.unfenced d / 4))
/-- Sections of die d that hold a core. -/
def Dev.inSection (w : Dev) (d : Nat) : Nat := (w.sched.sections.filter (fun s => s.die == d && s.core.isSome)).length
/-- The section that holds core k. -/
def Dev.sectionOn (w : Dev) (k : Nat) : Option Section := w.sched.sections.find? (fun s => s.core == some k)

/-! ### Sides and protection (R121, R123, R137) -/

/-- A tile of the BE side. -/
def Tile.be (t : Tile) : Bool := t.cls == 1 || t.defer

/-- Core k holds BE-side work: a BE tile or chain, or a BE section. -/
def Dev.coreBe (w : Dev) (k : Nat) : Bool :=
  let c := w.core k
  (match c.chain with | some h => h.be | none => false) ||
  (match w.sectionOn k with | some s => s.cls == 1 | none => false)

/-- be_held(d). -/
def Dev.beHeld (w : Dev) (d : Nat) : Nat := ((dieCores d).filter (fun k => w.coreBe k)).length

/-- The first chain head of a launch that waits. -/
def Launch.head (l : Launch) : Option Tile := l.waiting.find? (fun t => !tdChainIn t.desc)

/-- Heads that wait: LC normal tiles (rank 3), BE normal tiles (rank 6) or deferred tiles (rank 7). -/
inductive Band where
  | lc | be | deferred
  deriving DecidableEq, Repr

/-- A tile is of a band. -/
def Tile.inBand (t : Tile) (b : Band) : Bool :=
  match b with
  | .lc => t.cls == 0 && !t.defer
  | .be => t.cls == 1 && !t.defer
  | .deferred => t.defer

/-- The head of context x in a band: launches in start order, then tile index. -/
def Dev.headOf (w : Dev) (x : Nat) (b : Band) (ok : Tile → Bool) : Option Tile :=
  (w.sched.launches.filter (fun l => l.ctx == x)).findSome? (fun l =>
    match l.head with
    | some t => if t.inBand b && ok t then some t else none
    | none => none)

/-- Contexts in the order of a rotation: the owner, then ascending with wrap (R121). -/
def rotOrder (owner : Nat) : List Nat := (upto 16).map (fun i => ((if owner < 16 then owner else 0) + i) % 16)

/-- A Sampler run may start on core k (R139). -/
def SampRun.fits (r : SampRun) (k : Nat) : Bool :=
  !r.started && !r.notCores.contains k && (match r.onCore with | some c => c == k | none => true)

/-- A BE-side claimant of die d is ready (R123, R137). -/
def Dev.beWants (w : Dev) (d : Nat) : Bool :=
  w.sched.sections.any (fun s => s.die == d && s.cls == 1 && s.core.isNone) ||
  w.sched.launches.any (fun l => match l.head with | some t => t.be && t.home == d | none => false) ||
  (dieCores d).any (fun k => (w.core k).spill.isSome) ||
  w.sched.runs.any (fun r => !r.started && (match r.tiles.head? with | some t => t.home == d | none => false))

/-- protect(d) (R137). -/
def Dev.protect (w : Dev) (d : Nat) : Nat :=
  if w.beWants d || decide (0 < w.beHeld d) then
    min (ceilDiv (16 * w.get Obj.beMinShare) 100) (w.unfenced d / 4)
  else 0

/-! ### Slices (R130, R131, R135) -/

/-- SLICE of a class in ns. -/
def Dev.sliceNs (w : Dev) (cls : Nat) : Nat := w.get (if cls = 0 then Obj.sliceLcUs else Obj.sliceBeUs) * 1000
/-- The owner object of a class. -/
def ownerObj (cls : Nat) : Nat := if cls = 0 then Obj.lcOwner else Obj.beOwner
/-- The owner of a class. -/
def Dev.owner (w : Dev) (cls : Nat) : Nat := w.get (ownerObj cls)

/-- A context is in the rotation of a class (R130): ACTIVE, with a launch under way, a section or a Sampler run of the
class. -/
def Dev.inRotation (w : Dev) (cls x : Nat) : Bool :=
  w.get (Obj.ctxState x) == 1 &&
  (w.sched.launches.any (fun l => l.ctx == x && (l.waiting.any (fun t => t.be == (cls == 1)))) ||
   w.sched.cores.any (fun c => (match c.chain with | some h => h.ctx == x && h.be == (cls == 1) | none => false) ||
     (match c.spill with | some h => h.chain.ctx == x && cls == 1 | none => false)) ||
   w.sched.sections.any (fun s => s.ctx == x && s.cls == cls && s.kind != 2) ||
   (cls == 1 && w.sched.runs.any (fun r => match r.tiles.head? with | some t => t.ctx == x | none => false)))

/-- Context c becomes the owner: its debt shortens the slice and is paid. -/
def Work.becomeOwner (cls c : Nat) (w : Work) : Work :=
  let debt := w.get (Obj.debtNs c)
  let len := w.sliceNs cls - debt
  let w := (w.put (ownerObj cls) c).put (Obj.debtNs c) 0
  w.setSched (fun s =>
    if cls = 0 then { s with sinceLc := w.time, lenLc := len } else { s with sinceBe := w.time, lenBe := len })

/-- Offer the slice to the contexts after p in turn; one whose debt exceeds the slice skips it and pays a slice of its
debt (R131). Fuel counts offers. Log entry 56. -/
def Work.offerSlice (cls p : Nat) : Nat → Work → Work
  | 0, w => w.put (ownerObj cls) 0xFF
  | k + 1, w =>
    match ((upto 16).map (fun i => (p + 1 + i) % 16)).find? (fun c => w.inRotation cls c) with
    | none => w.put (ownerObj cls) 0xFF
    | some c =>
      if w.sliceNs cls < w.get (Obj.debtNs c) then
        Work.offerSlice cls c k (w.put (Obj.debtNs c) (w.get (Obj.debtNs c) - w.sliceNs cls))
      else w.becomeOwner cls c

/-- ROTATION_HANDOVER from owner p (R130). -/
def Work.handover (cls p : Nat) (w : Work) : Work := w.offerSlice cls p 400

/-- A class's rotation after a change: the lowest context enters an empty one; an owner that left hands over. -/
def Work.rotateClass (cls : Nat) (w : Work) : Work :=
  let o := w.owner cls
  if o = 0xFF then
    if (upto 16).any (fun c => w.inRotation cls c) then w.handover cls 15 else w
  else if w.inRotation cls o then w
  else w.handover cls o

/-- Both rotations after a change. -/
def Work.rotation (w : Work) : Work := (w.rotateClass 0).rotateClass 1

/-! ### Claims -/

/-- What a core may be given. -/
inductive Claim where
  | swatch (id : Nat)
  | sect (id : Nat)
  | cont
  | restore
  | tile (t : Tile)
  | samp (id : Nat)
  deriving DecidableEq, Repr

/-- The first section that waits on die d for core k, of a class, within the limit (R133, R134). -/
def Dev.sectionClaim (w : Dev) (d cls : Nat) : Option Claim :=
  if w.inSection d < w.npEff d then
    (w.sched.sections.find? (fun s => s.core.isNone && s.kind != 2 && s.die == d && s.cls == cls)).map (fun s => .sect s.id)
  else none

/-- Core k is IDLE and may take work. -/
def Dev.idleOk (w : Dev) (k : Nat) : Bool := w.coreSt k == 0 && !w.fencedCore k

/-- Core k stands at a tile boundary. -/
def Dev.atBoundary (w : Dev) (k : Nat) : Bool := w.coreSt k == 2 && (w.core k).tile.isNone

/-- Core k may be granted a swatch now: IDLE, FENCED, at a boundary or in RESET. -/
def Dev.swatchOpen (w : Dev) (k : Nat) : Bool := w.coreSt k == 0 || w.coreSt k == 4 || w.coreSt k == 5 || w.atBoundary k

/-- The swatch that waits to sample core k. -/
def Dev.swatchOf (w : Dev) (k : Nat) : Option Section :=
  w.sched.sections.find? (fun s => s.core.isNone && s.kind == 2 && s.ref == k)

/-- A swatch that waits to sample core k (rank 1): swatches in ascending core number, within the limit (R134). -/
def Dev.swatchClaim (w : Dev) (k : Nat) : Option Claim :=
  let d := coreDie k
  if w.inSection d < w.npEff d ∧ (dieCores d).any (fun j => decide (j < k) && w.swatchOpen j && (w.swatchOf j).isSome) = false then
    (w.swatchOf k).map (fun s => .swatch s.id)
  else none

/-- The best tile of a band with a property, in the order of the class's rotation. -/
def Dev.bestTile (w : Dev) (b : Band) (ok : Tile → Bool) : Option Tile :=
  (rotOrder (w.owner (if b = .lc then 0 else 1))).findSome? (fun x => w.headOf x b ok)

/-- best_lc_for (R124). -/
def Dev.bestLc (w : Dev) (k : Nat) : Option Claim :=
  let d := coreDie k
  match w.sectionClaim d 0 with
  | some c => some c
  | none =>
    match w.bestTile .lc (fun t => t.home == d) with
    | some t => some (.tile t)
    | none =>
      if (dieCores (1 - d)).any (fun j => w.idleOk j || w.atBoundary j) then none
      else (w.bestTile .lc (fun t => t.home != d)).map .tile

/-- best_be_for: ranks 4, 6 and 7; a claimant of the other die only when no core of that die is IDLE and eligible (R122). -/
def Dev.bestBe (w : Dev) (k : Nat) : Option Claim :=
  let d := coreDie k
  let otherBusy := !(dieCores (1 - d)).any (fun j => w.idleOk j)
  let ok := fun (t : Tile) => t.home == d || otherBusy
  match w.sectionClaim d 1 with
  | some c => some c
  | none =>
    match w.bestTile .be ok with
    | some t => some (.tile t)
    | none =>
      (rotOrder (w.owner 1)).findSome? (fun x =>
        match w.headOf x .deferred ok with
        | some t => some (.tile t)
        | none =>
          (w.sched.runs.find? (fun r => r.fits k && (match r.tiles.head? with | some t => t.ctx == x | none => false))).map
            (fun r => .samp r.id))

/-- The chain on core k goes on: a recompute waits, or its next tile has been released (R117). -/
def Dev.chainGoesOn (w : Dev) (k : Nat) : Bool :=
  let c := w.core k
  match c.chain with
  | none => false
  | some h =>
    c.again.isSome ||
    (match h.samp with
     | some id => w.sched.runs.any (fun r => r.id == id && decide (r.next < r.tiles.length))
     | none => match w.launch? h.cmd with
       | some l => l.waiting.any (fun t => t.idx == h.idx + 1 && tdChainIn t.desc)
       | none => false)

/-- Pricking's choice for core k that is IDLE or at a boundary (R123), fences apart; and whether it interrupts the chain
the core holds. -/
def Dev.choose (w : Dev) (k : Nat) : Option (Claim × Bool) :=
  let d := coreDie k
  match w.swatchClaim k with
  | some c => some (c, false)
  | none =>
    let open_ := w.chainGoesOn k
    let be := match (w.core k).chain with | some h => h.be | none => false
    if open_ && !be then some (.cont, false)
    else
      let lc := w.bestLc k
      let free := decide (w.protect d < w.beHeld d)
      if open_ then
        match lc with
        | some c => if free then some (c, true) else some (.cont, false)
        | none => some (.cont, false)
      else
        let lcOk := lc.isSome && (!w.beWants d || free)
        if lcOk then lc.map (fun c => (c, false))
        else if (w.core k).spill.isSome then some (.restore, false)
        else (w.bestBe k).map (fun c => (c, false))

/-! ### Windows (R115, R116, R127) -/

/-- First device address of core k's scratchpad. -/
def windowBase (k : Nat) : Nat := 0x022000000000 + k * 0x04000000
/-- Tag of a chain's own blocks. Log entry 28. -/
def chainTag (x id : Nat) : Nat := 1 + x + 32 * id
/-- Tag of a block of core k. Log entry 28. -/
def Dev.tagOf (w : Dev) (k b : Nat) : Nat := Store.get (fun _ => 0) w.bob.tags (k * 65536 + b)

/-- A byte of core k's window as a tile of chain `id` of context x reads it (R116). -/
def Work.windowByte (w : Work) (k x id a : Nat) : Nat :=
  let t := w.tagOf k (a / 4096)
  if t = chainTag x id ∨ t = 1 + x then (w.byte (windowBase k + a)).toNat else 0

/-- Memory with the work's writes so far. -/
def Work.memNow (w : Work) : List (Nat × Byte) := Memory.applyAll w.mem w.out

/-- The window of core k as a tile of chain `id` of context x reads it now, by window offset. Log entry 55. -/
def Work.windowSnap (w : Work) (k x id : Nat) : List (Nat × Byte) :=
  let b := windowBase k
  (w.memNow.filter (fun p => decide (b ≤ p.1) && decide (p.1 < b + windowBytes) &&
    (let t := w.tagOf k ((p.1 - b) / 4096); t == chainTag x id || t == 1 + x))).map (fun p => (p.1 - b, p.2))

/-- A byte of such a picture. -/
def snapByte (s : List (Nat × Byte)) (a : Nat) : Nat := (Memory.get s a).toNat

/-- Blocks of the spilled chain that a write of core k would cover are copied to the spill store first (R127). -/
def Work.spareBlocks (k off len : Nat) (w : Work) : Work :=
  let c := w.core k
  match c.spill with
  | none => w
  | some sp =>
    if len = 0 then w else
    let tag := chainTag sp.chain.ctx sp.chain.id
    let bs := ((upto ((off + len - 1) / 4096 - off / 4096 + 1)).map (fun i => off / 4096 + i)).filter (fun b =>
      w.tagOf k b == tag && !sp.blocks.any (fun x => x.1 == b))
    let saved := bs.map (fun b => (b, tag, w.read (windowBase k + 4096 * b) 4096))
    w.putCore { c with spill := some { sp with blocks := sp.blocks ++ saved } }

/-- A tile of chain `id` of context x on core k writes bytes at a window offset. -/
def Work.windowWrite (k x id off : Nat) (d : List Nat) (w : Work) : Work :=
  if d.isEmpty then w else
  let w := w.spareBlocks k off d.length
  let w := w.write (windowBase k + off) (d.map (BitVec.ofNat 8))
  w.tagBlocks k (off / 4096) ((off + d.length - 1) / 4096) (chainTag x id)

/-- The blocks of core k that carry a chain's tag, with their bytes. -/
def Work.chainBlocks (w : Work) (k x id : Nat) : List (Nat × Nat × List Byte) :=
  let tag := chainTag x id
  (w.bob.tags.filter (fun p => p.1 / 65536 == k && p.2 == tag)).map (fun p =>
    (p.1 % 65536, tag, w.read (windowBase k + 4096 * (p.1 % 65536)) 4096))

/-- Bring back blocks of a spill on core k. -/
def Work.bringBlocks (k : Nat) (bs : List (Nat × Nat × List Byte)) (w : Work) : Work :=
  bs.foldl (fun w b => (w.write (windowBase k + 4096 * b.1) b.2.2).tagBlocks k b.1 b.1 b.2.1) w

/-! ### Saves, restores and fences (R126, R127, R140) -/

/-- CHAIN_SAVE: the chain open on core k goes to its save area. Log entry 56. -/
def Work.chainSave (k : Nat) (w : Work) : Work :=
  let c := w.core k
  match c.chain with
  | none => w
  | some h =>
    let w := w.putCore { c with chain := none, again := none, spill := some ⟨h, c.again, []⟩ }
    ((w.put (Obj.coreSpill k) h.ctx).bump Obj.saveCount 1).bump (Obj.preempted h.ctx) 1

/-- A launch ends with a fault: the first in tile-index order among those detected is kept, and no further tile is
placed (R119). Log entry 55. -/
def Work.launchFault (cmd idx st detail : Nat) (w : Work) : Work :=
  w.mapLaunch cmd (fun l =>
    let f := match l.fault with
      | some (i, s, d) => if idx < i then (idx, st, detail) else (i, s, d)
      | none => (idx, st, detail)
    { l with fault := some f, waiting := [] })

/-- The command of a launch with nothing left to run has ended (R94, R119). -/
def Work.launchStep (cmd : Nat) (w : Work) : Work :=
  match w.launch? cmd with
  | some l =>
    if l.waiting.isEmpty && l.live == 0 then
      let w := w.setLaunches (w.sched.launches.filter (fun x => x.cmd != cmd))
      match l.fault with
      | some (_, st, d) => w.finishCmd cmd st d
      | none => w.finishCmd cmd 0 0
    else w
  | none => w

/-- A placed tile of a launch is no more. -/
def Work.tileGone (cmd : Nat) (w : Work) : Work :=
  (w.mapLaunch cmd (fun (l : Launch) => { l with live := l.live - 1 })).launchStep cmd

/-- The Sampler run of a chain is dropped. -/
def Work.dropRun (samp : Option Nat) (w : Work) : Work :=
  match samp with
  | some id => w.setRuns (w.sched.runs.filter (fun r => r.id != id))
  | none => w

/-- CHAIN_LOST: no save area takes a fenced core's spill (R140). -/
def Work.chainLost (sp : SpillChain) (w : Work) : Work :=
  match sp.chain.samp with
  | some _ => w.dropRun sp.chain.samp
  | none =>
    let idx := match sp.again with | some a => a.tile.idx | none => sp.chain.idx + 1
    let w := w.launchFault sp.chain.cmd idx 0x0313 idx
    if sp.again.isSome then w.tileGone sp.chain.cmd else w.launchStep sp.chain.cmd

/-- The spill of core k moves to the lowest unfenced core with an empty save area, of its own die first; its window goes
with it (R140). Log entry 56. -/
def Work.spillMove (k : Nat) (w : Work) : Work :=
  let c := w.core k
  match c.spill with
  | none => w
  | some sp =>
    let d := coreDie k
    let w := (w.putCore { c with spill := none }).put (Obj.coreSpill k) 0xFF
    match (dieCores d ++ dieCores (1 - d)).find? (fun j =>
        j != k && !w.fencedCore j && (w.core j).spill.isNone && w.coreSt j != 5) with
    | some j =>
      let kept := sp.blocks ++ (w.chainBlocks k sp.chain.ctx sp.chain.id).filter (fun b =>
        !sp.blocks.any (fun x => x.1 == b.1))
      (w.putCore { w.core j with spill := some { sp with blocks := kept } }).put (Obj.coreSpill j) sp.chain.ctx
    | none => w.chainLost sp

/-- CORE_FENCED: core k, IDLE or at a boundary, enters FENCED: an open chain is saved and a held spill moves (R140). Log entry 56. -/
def Work.fenceCore (k : Nat) (w : Work) : Work :=
  let w := w.spillMove k
  let w := if w.chainGoesOn k then (w.chainSave k).spillMove k else w
  let w := w.putCore { w.core k with chain := none, again := none }
  (w.coreNow k 4 0xFF).event 0x0301 31 (0x1000 + k) k

/-- A core whose fence bit is clear leaves FENCED (R140). -/
def Work.unfenceCore (k : Nat) (w : Work) : Work :=
  if w.coreSt k = 4 ∧ w.fencedCore k = false then (w.coreNow k 0 0xFF).event 0x0302 31 (0x1000 + k) k else w

/-- Fences after a change of FENCE_FW or FENCE_SW: idle cores and cores at a boundary take theirs at once. -/
def Work.fencesNow (w : Work) : Work :=
  forUpto (fun k w =>
    let w := w.unfenceCore k
    if w.fencedCore k && (w.coreSt k == 0 || w.atBoundary k) then w.fenceCore k else w) 32 w

/-! ### Assignment -/

/-- Core k begins a tile: SWITCHING. -/
def Work.beginTile (k : Nat) (t : Tile) (level : Nat) (chain : Chain) (w : Work) : Work :=
  let c := w.core k
  let c := { c with tile := some t, level := level, chain := some { chain with idx := t.idx }, again := none, since := w.time }
  (w.putCore c).coreNow k 1 t.ctx

/-- The wait of a ready BE tile (BE_WAIT_MAX_NS). -/
def Work.noteWait (t : Tile) (w : Work) : Work :=
  if t.be then w.raiseMax (Obj.beWaitMaxNs t.ctx) (w.since t.released) else w

/-- A tile leaves the waiting list of its launch and is placed. -/
def Work.takeTile (t : Tile) (w : Work) : Work :=
  (w.mapLaunch t.cmd (fun (l : Launch) => { l with waiting := l.waiting.filter (fun u => u.idx != t.idx), live := l.live + 1 })).noteWait t

/-- The bin of Table 14.7 of a run of this tile on core k now (R439). Log entry 54. -/
def Dev.binOf (w : Dev) (k : Nat) (t : Tile) : Nat :=
  let c := match w.sched.temps.find? (fun p => p.1 == k) with | some p => p.2 | none => 0
  let tb := if c < 60 then 0 else if c < 75 then 1 else if c < 90 then 2 else 3
  let v := w.get (Obj.vcoreMv (coreDie k))
  let vb := if v < 700 then 0 else if v < 800 then 1 else 2
  let lp := match tdKind t.desc with
    | 3 => 3
    | 2 => 2
    | _ => (match psClass (tdPass t.desc) with
      | .t => 0
      | .q => 0
      | _ => 1)
  12 * tb + 4 * vb + lp

/-- A new chain for a tile on core k. -/
def Work.newChain (k : Nat) (t : Tile) (samp : Option Nat) (w : Work) : Chain × Work :=
  let (id, w) := w.newId
  (⟨id, t.cmd, t.ctx, samp, t.idx, [], [], [], t.be || samp.isSome, [], ⟨0, 0, w.binOf k t⟩⟩, w)

/-- Core k goes on with the chain it holds: a recompute that waits, or the next tile. -/
def Work.goOn (k : Nat) (w : Work) : Work :=
  let c := w.core k
  match c.chain with
  | none => w
  | some h =>
    match c.again with
    | some a =>
      let w := w.beginTile k a.tile a.level h
      w.putCore { w.core k with snap := a.snap, prog := a.prog, slots0 := a.slots, chans0 := a.chans }
    | none =>
      match h.samp with
      | some id =>
        match w.sched.runs.find? (fun r => r.id == id) with
        | some r =>
          match r.tiles[r.next]? with
          | some t =>
            let w := w.setRuns (w.sched.runs.map (fun (q : SampRun) => if q.id = id then { q with next := q.next + 1 } else q))
            w.beginTile k t 0 h
          | none => w
        | none => w
      | none =>
        match w.launch? h.cmd with
        | some l =>
          match l.waiting.find? (fun t => t.idx == h.idx + 1) with
          | some t => (w.takeTile t).beginTile k t 0 h
          | none => w
        | none => w

/-- CHAIN_RESTORE (R127): the spill of core k comes back and goes on. -/
def Work.chainRestore (k : Nat) (w : Work) : Work :=
  let c := w.core k
  match c.spill with
  | none => w
  | some sp =>
    let w := w.bringBlocks k sp.blocks
    let w := w.putCore { c with chain := some sp.chain, again := sp.again, spill := none }
    (w.put (Obj.coreSpill k) 0xFF).goOn k

/-- A section is granted core k (R133); a swatch remembers in its class that it found the core FENCED (4). -/
def Work.grant (k id : Nat) (w : Work) : Work :=
  let x := match w.sched.sections.find? (fun s => s.id == id) with | some s => s.ctx | none => 0xFF
  let w := w.setSections (w.sched.sections.map (fun (s : Section) =>
    if s.id = id then { s with core := some k, start := w.time, cls := if w.coreSt k = 4 then 4 else s.cls } else s))
  w.coreNow k 3 x

/-- Core k takes a claim; `save` interrupts the chain it holds. -/
def Work.assign (k : Nat) (c : Claim) (save : Bool) (w : Work) : Work :=
  let w := if save then w.chainSave k else w
  let drop := fun (w : Work) => if save then w else w.putCore { w.core k with chain := none, again := none }
  match c with
  | .cont => w.goOn k
  | .restore => (drop w).chainRestore k
  | .swatch id =>
    -- an open chain stays with the core while a swatch samples it
    w.grant k id
  | .sect id => (drop w).grant k id
  | .tile t =>
    let w := drop w
    let (h, w) := w.newChain k t none
    (w.takeTile t).beginTile k t 0 h
  | .samp id =>
    let w := drop w
    match w.sched.runs.find? (fun r => r.id == id) with
    | some r =>
      match r.tiles[0]? with
      | some t =>
        let (h, w) := w.newChain k t (some id)
        let w := w.setRuns (w.sched.runs.map (fun (q : SampRun) =>
          if q.id = id then { q with started := true, core := k, next := 1 } else q))
        w.beginTile k t 0 h
      | none => w
    | none => w

/-- R122: an IDLE core takes a claim only as the first IDLE eligible core in ascending number of its die, and a tile of
the other die only when that die has none. -/
def Dev.firstIdle (w : Dev) (k : Nat) (c : Claim) : Bool :=
  let noSpill := fun j => (w.core j).spill.isNone
  let here := (dieCores (coreDie k)).find? (fun j => w.idleOk j &&
    (match c with
     | .samp id => noSpill j && w.sched.runs.any (fun r => r.id == id && r.fits j)
     | .tile t => !t.be || noSpill j
     | .sect id => noSpill j || w.sched.sections.any (fun s => s.id == id && s.cls == 0)
     | _ => true))
  match c with
  | .tile t =>
    if t.home = coreDie k then here == some k
    else here == some k && !(dieCores t.home).any (fun j => w.idleOk j)
  | .sect _ => here == some k
  | .samp _ => here == some k
  | _ => true

/-- The placement of CORE_ASSIGN (R120 to R127, R140): core k, IDLE or at a tile boundary, takes its next work; with none
it is IDLE. -/
def Work.corePick (k : Nat) (w : Work) : Work :=
  if !(w.coreSt k == 0 || w.atBoundary k) then w
  else if w.fencedCore k then (w.fenceCore k).rotation
  else
    let w := match w.choose k with
      | some (c, save) =>
        if w.coreSt k = 0 ∧ w.firstIdle k c = false then w else w.assign k c save
      | none => if w.coreSt k = 0 then w else (w.putCore { w.core k with chain := none, again := none }).coreNow k 0 0xFF
    w.rotation

/-- The placement of SECTION_GRANT (R133): core k, IDLE or at a tile boundary, is given a section when one is its next
work; a core in RESET or FENCED takes a swatch only (R454, R460). -/
def Work.sectionPick (k : Nat) (w : Work) : Work :=
  if w.coreSt k = 5 ∨ w.coreSt k = 4 then
    (match w.swatchClaim k with
     | some (.swatch id) => w.grant k id
     | _ => w)
  else if !(w.coreSt k == 0 || w.atBoundary k) || w.fencedCore k then w
  else match w.choose k with
    | some (.sect id, save) =>
      if w.coreSt k = 0 ∧ w.firstIdle k (.sect id) = false then w else (w.assign k (.sect id) save).rotation
    | some (.swatch id, save) => (w.assign k (.swatch id) save).rotation
    | _ => w

/-- A new section claim (R133). -/
def Work.claimSection (kind ref ctx die cls bound : Nat) (w : Work) : Nat × Work :=
  let (id, w) := w.newId
  let s : Section := ⟨id, kind, ref, ctx, die, cls, bound, w.time, none, 0, false⟩
  (id, (w.setSections (w.sched.sections ++ [s])).rotation)

/-- The time at which the growth of a section's debt ends: now, or its watchdog's signal (R136). -/
def Dev.debtEnd (w : Dev) (s : Section) : Nat := min w.time (s.start + 2000 * s.bound)

/-- SLICE_DEBT (R135): a section that ran past its owner's expiry ends; the last such one settles the debt. Log entry 56. -/
def Work.settleDebt (s : Section) (w : Work) : Work :=
  match w.sched.overruns.find? (fun o => o.ctx == s.ctx && decide (s.start ≤ o.expiry)) with
  | none => w
  | some o =>
    let most := max o.most (w.debtEnd s - o.expiry)
    let rest := w.sched.overruns.filter (fun p => p != o)
    if w.sched.sections.any (fun t => t.id != s.id && t.ctx == s.ctx && t.core.isSome && decide (t.start ≤ o.expiry)) then
      w.setSched (fun q => { q with overruns := { o with most := most } :: rest })
    else
      let w := w.setSched (fun q => { q with overruns := rest })
      if most = 0 then w else
      (w.put (Obj.debtNs s.ctx) (min (w.get (Obj.debtNs s.ctx) + most) (maxU 32))).event 0x0303 s.ctx
        (0x3000 + s.die) most

/-- A section leaves its core (R133): its debt settles, its core time counts, and the core is IDLE, or at the boundary of
the chain it kept, or in RESET; a fence of the core takes effect (R140). -/
def Work.endSection (id : Nat) (w : Work) : Work :=
  match w.sched.sections.find? (fun s => s.id == id) with
  | none => w
  | some s =>
    let w := if s.core.isSome && s.kind != 2 then w.settleDebt s else w
    let w := w.setSections (w.sched.sections.filter (fun t => t.id != id))
    match s.core with
    | none => w.rotation
    | some k =>
      let w := if s.kind = 2 then w else w.bump (Obj.coreTimeNs s.ctx) (w.since s.start)
      if w.coreReset k then (w.coreNow k 5 0xFF).rotation
      else if s.kind = 2 ∧ s.cls = 4 then ((w.coreNow k 4 0xFF).unfenceCore k).rotation else
      let w := if w.chainGoesOn k then w.coreNow k 2 ((w.core k).chain.map (fun h => h.ctx) |>.getD 0xFF)
        else w.coreNow k 0 0xFF
      let w := if w.fencedCore k then w.fenceCore k else w
      w.rotation

/-- SLICE_EXPIRE (R131, R135): the owner's slice length has elapsed; sections of its context that run may add debt. -/
def opSliceExpire (be : Bool) (w : Work) : Work :=
  let cls := b2n be
  let o := w.owner cls
  let (t0, len) := if be then (w.sched.sinceBe, w.sched.lenBe) else (w.sched.sinceLc, w.sched.lenLc)
  if o = 0xFF ∨ w.since t0 < len then w
  else
    let running := w.sched.sections.any (fun s => s.ctx == o && s.cls == cls && s.core.isSome && s.kind != 2)
    let w := if running then w.setSched (fun s => { s with overruns := s.overruns ++ [⟨o, w.time, 0⟩] }) else w
    w.handover cls o

def execSliceExpire (be : Bool) (s : State) : Host.Outcome State Fault Refusal := s.run (opSliceExpire be)

/-- YIELD's part of Pricking (R131): ownership passes when the context owns the slice of its class. Log entry 56. -/
def Work.yieldSlice (x : Nat) (w : Work) : Work :=
  let cls := w.ctxClass x
  if w.owner cls = x then
    let w := w.handover cls x
    if w.owner cls = x then w else w.bump (Obj.yieldCount x) 1
  else w

/-- FENCE_SW clamped (R141): the highest-numbered excess bits of a die cleared until 8 unfenced cores remain. -/
def fenceClamp (fw v d : Nat) : Nat :=
  ((dieCores d).reverse).foldl (fun v k =>
    let left := ((dieCores d).filter (fun j => !bitOf (fw ||| v) j)).length
    if left < 8 ∧ bitOf v k = true ∧ bitOf fw k = false then setBit v k false else v) v

/-- FENCE_SW (R140, R141). -/
def opFenceSw (wr : Writer) (v : Nat) (w : Work) : Work :=
  w.gated wr .host Obj.fenceSw (fun w =>
    let v := v % 2 ^ 32
    let c := fenceClamp (w.get Obj.fenceFw) (fenceClamp (w.get Obj.fenceFw) v 0) 1
    let w := w.clampTo wr Obj.fenceSw v c
    ((w.put Obj.fenceSw c).fencesNow).rotation)

def execFenceSw (wr : Writer) (v : Nat) (s : State) : Host.Outcome State Fault Refusal := s.run (opFenceSw wr v)

end Sys2Proof.Machine
end

