-- ==== Sys2Proof/Machine/Tiles.lean ====
section
/-!
DEFINITION. Sys2Proof/Machine/Tiles.lean: TILE_LAUNCH and the life of a tile (chapters 04 to 07): release and validation,
span loads, the run of Pillow and Needle, recomputes, the 720-cycle bound, the OUT store, the wide-image log.
-/
namespace Sys2Proof.Machine

/-! ### Release (R94, R114, R117, R151, R153, R175, R194) -/

/-- Every check of a TILE_LAUNCH command (R92). -/
def Dev.checkTileLaunch (_ : Dev) (c : Cmd) : Option (Nat × Nat) :=
  if tlTdsize c.raw < 1 ∨ 64 < tlTdsize c.raw then some (0x0211, 176)
  else if tlTcount c.raw < 1 ∨ 16777216 < tlTcount c.raw then some (0x0211, 192)
  else none

/-- The list of R114 for a descriptor of `size` units. -/
def tileListOk (d size : Nat) : Bool :=
  tdKind d != 0 &&
  (!tdPillow d || decide (1 ≤ tdPunit d ∧ tdPunit d < size)) &&
  (!tdNeedle d || decide (1 ≤ tdNunit d ∧ tdNunit d < size)) &&
  (tdKind d != 3 || tdPunit d != tdNunit d) &&
  [0, 1, 2].all (fun s => tdLen d s % 32 == 0 && tdLoff d s % 4096 == 0 && decide (tdLoff d s + tdLen d s ≤ windowBytes))

/-- Validation before translation: R114, R153 and the parts of R194 that need no program. Log entry 55. -/
def Dev.tileOk (w : Dev) (x d size : Nat) (c : ChainShape) : Bool :=
  tileListOk d size && (!tdPillow d || w.passOk x (tdPass d)) &&
  (!tdNeedle d || headerOk d size && contOk d c && w.slotsOk x d (resolveSlots d (if tdChainIn d then c.slots else [])))

/-- Translate a span; an unused one is 0. -/
def Dev.spanAddr (w : Dev) (c : Cmd) (d s : Nat) : Trans :=
  if tdLen d s = 0 then .ok 0 else w.xlate c.ctx c.segs (tdAddr d s) (tdLen d s) (if s = 2 then .write else .read)

/-- The ranges of a tile (R114, R151, R175): IN0, IN1, OUT, the feed, the program. -/
def Dev.tileAddrs (w : Dev) (c : Cmd) (d : Nat) : Except (Nat × Nat) (Nat × Nat × Nat × Nat × Nat × Nat) := do
  let a0 ← w.spanAddr c d 0
  let a1 ← w.spanAddr c d 1
  let ao ← w.spanAddr c d 2
  let (fc, fd) ← match (if tdPillow d then psFed (tdPass d) else none) with
    | some (a, n) => do
      let t ← w.xlate c.ctx c.segs (a % 2 ^ 48) n .read
      pure (a, t)
    | none => pure (0, 0)
  let p ← if tdNeedle d then w.xlate c.ctx c.segs (nhPaddr (tdStitch d)) (8 * nhPlen (tdStitch d)) .read else pure 0
  pure (a0, a1, ao, fc, fd, p)

/-- The Sampler selects a tile outside a chain or the first of one (R435). -/
def Dev.sampled (w : Dev) (x tid : Nat) : Bool :=
  decide (srBits (w.get Obj.samplerSeed) (w.get (Obj.stepNum x)) 0 tid (2 ^ 63 + x) * 1000 < 65536 * w.get Obj.shadowPermil)

/-- Release the tiles from index i on, until one fails: the tiles and the failure's index, status and DETAIL. Fuel counts
tiles; `n` is the chain's length so far, `out` the CHAIN_OUT of the tile before. -/
def Work.releaseFrom (w : Work) (c : Cmd) : Nat → Nat → ChainShape → Nat → Bool → List Tile × Option (Nat × Nat × Nat)
  | 0, _, _, _, _ => ([], none)
  | k + 1, i, shape, n, out =>
    let size := tlTdsize c.raw
    match w.xlate c.ctx c.segs ((tlTdesc c.raw + i * size * 64) % 2 ^ 48) (size * 64) .read with
    | .error (st, d) => ([], some (i, st, d))
    | .ok a =>
      let d := w.readNat a (size * 64)
      let n := if tdChainIn d then n + 1 else 1
      if tdChainIn d && !out then ([], some (i, 0x0311, i))
      else if k = 0 ∧ tdChainOut d = true then ([], some (i, 0x0311, i))
      else if w.get Obj.chainMax < n then ([], some (i, 0x0312, i))
      else if !w.tileOk c.ctx d size shape then ([], some (i, 0x0315, i))
      else match w.tileAddrs c d with
        | .error (st, e) => ([], some (i, st, e))
        | .ok (a0, a1, ao, fc, fd, pa) =>
          let prog := if tdNeedle d then
            progOf ((w.read pa (8 * nhPlen (tdStitch d))).map BitVec.toNat) (nhPlen (tdStitch d)) else []
          let slots := resolveSlots d (if tdChainIn d then shape.slots else [])
          if tdNeedle d && !progOk d slots prog (if tdChainIn d then shape else ⟨[], []⟩) then ([], some (i, 0x0315, i))
          else
            let tid := (tlIdBase c.raw + i) % 2 ^ 32
            let t : Tile := ⟨c.id, i, c.ctx, tid, d, size, 0, a0, a1, ao, pa, fc, fd, c.cls, tlDefer c.raw, c.seed, c.step,
              c.rnd, w.get (Obj.recompMode c.ctx), c.home, [], w.time, !tdChainIn d && w.sampled c.ctx tid⟩
            let (r, f) := w.releaseFrom c k (i + 1) (shape.after d prog) n (tdChainOut d)
            (t :: r, f)

/-- Each tile learns the descriptor of the next tile of its chain (R158). Log entry 55. -/
def linkTiles : List Tile → List Tile
  | [] => []
  | t :: r =>
    let next := match r.head? with
      | some u => if tdChainOut t.desc && tdChainIn u.desc then u.desc else 0
      | none => 0
    { t with nextDesc := next } :: linkTiles r

/-- TILE_LAUNCH (R94): the tiles before the first that fails are released; the failure ends the launch (R119). Log entry 55. -/
def opTileLaunch (id : Nat) (w : Work) : Work :=
  match w.running id 0x10 with
  | some c =>
    if c.begun then w else
    let (ts, f) := w.releaseFrom c (tlTcount c.raw) 0 ⟨[], []⟩ 0 false
    let w := w.mapCmd id (fun c => { c with begun := true })
    let w := w.setLaunches (w.sched.launches ++ [⟨id, c.ctx, linkTiles ts, 0, f⟩])
    (w.launchStep id).rotation
  | none => w

def execTileLaunch (id : Nat) (s : State) : Host.Outcome State Fault Refusal := s.run (opTileLaunch id)

/-! ### Start (R115, R129, R571) -/

/-- Slots that a tile's TENSOR destinations name. -/
def tileTslots (d : Nat) (slots : List NSlot) : List Nat :=
  let p := if tdPillow d && psDrain (tdPass d) && dScaleSrc (psDconv (tdPass d)) == 2 then [dTslot (psDconv (tdPass d))] else []
  p ++ (if tdNeedle d then
    (slots.filter (fun s => nsWrites s.desc && dScaleSrc (nsConv s.desc) == 2)).map (fun s => dTslot (nsConv s.desc)) else [])

/-- The scale captured for a slot (R56, R221): 256 + scale, or 512 in PROBE. -/
def Dev.slotCap (w : Dev) (x t : Nat) : Nat :=
  let r := w.hoopRec x t
  if hState r = 1 then 512 else 256 + hUse r

/-- One step of the CRC-64 of ECMA-182. -/
def crc64Bits (c : Nat) : Nat → Nat
  | 0 => c
  | k + 1 => crc64Bits (if bitOf c 63 then (2 * c % 2 ^ 64) ^^^ 0x42F0E1EBA9EA3693 else 2 * c % 2 ^ 64) k

/-- CRC-64 over more bytes (R436). -/
def crc64 (c : Nat) (l : List Nat) : Nat := l.foldl (fun c b => crc64Bits (c ^^^ (b % 256 * 2 ^ 56)) 8) c

/-- Load a span into the window: its bytes, then zeros to the end of its last 4 KiB block (R115). -/
def Work.loadSpan (k : Nat) (t : Tile) (chain a s : Nat) (w : Work) : Work :=
  let n := tdLen t.desc s
  if n = 0 then w else
  let d := (w.read a n).map BitVec.toNat
  w.windowWrite k t.ctx chain (tdLoff t.desc s) (d ++ List.replicate ((4096 - n % 4096) % 4096) 0)

/-- LC dispatch (R129): from the launch's arrival at the head of its queue to the first execution cycle. Log entry 57. -/
def Work.noteDispatch (k : Nat) (t : Tile) (w : Work) : Work :=
  match w.cmd? t.cmd with
  | some c =>
    if t.idx = 0 ∧ t.be = false then
      let ns := w.since c.since
      let f := w.get (Obj.freqNowMhz (coreDie k))
      let worst := 150 + 1170 * 1000 / max f 1
      let w := (w.raiseMax Obj.lcDispatchMaxNs ns).raiseMax (Obj.ctxLcDispatchMaxNs t.ctx) ns
      if worst < ns then w.bump Obj.lcDispatchOver 1 else w
    else w
  | none => w

/-- The run of the tile on core k is over: the core stands at its boundary. -/
def Work.coreFree (k : Nat) (w : Work) : Work :=
  let c := w.core k
  let w := w.putCore { c with tile := none, snap := [], prog := [], slots0 := [], chans0 := [] }
  w.put (Obj.coreState k) 2

/-- A load of core k's tile failed: its launch ends with the status, a Sampler run is dropped. -/
def Work.tileLoadFail (k : Nat) (t : Tile) (samp : Option Nat) (st d : Nat) (w : Work) : Work :=
  let w := w.putCore { w.core k with chain := none, again := none }
  let w := w.coreFree k
  let w := match samp with
    | some _ => w.dropRun samp
    | none => (w.launchFault t.cmd t.idx st d).tileGone t.cmd
  w.rotation

/-- TILE_START: the loads of core k's tile land and its first execution cycle follows. `bad` is a read that failed. Log entry 55. -/
def opTileStart (k : Fin 32) (bad : Option (Nat × ReadRes)) (w : Work) : Work :=
  let k := k.val
  let c := w.core k
  match c.tile, c.chain with
  | some t, some h =>
    if w.coreSt k ≠ 1 then w else
    let w := match bad with | some (a, r) => w.readEvents t.ctx a r | none => w
    match (match bad with | some (a, r) => readFail a r | none => none) with
    | some (st, d) => w.tileLoadFail k t h.samp st d
    | none =>
      if c.level ≠ 0 then
        (w.putCore { c with execAt := w.time }).coreNow k 2 t.ctx
      else
        let w := (w.loadSpan k t h.id t.in0 0).loadSpan k t h.id t.in1 1
        let prev := if tdChainIn t.desc then h.slots else []
        let prog := if tdNeedle t.desc then (w.read t.prog (8 * nhPlen (tdStitch t.desc))).map BitVec.toNat else []
        let caps := if h.samp.isSome then t.scales
          else (tileTslots t.desc (resolveSlots t.desc prev)).map (fun s => (s, w.slotCap t.ctx s))
        let t := { t with scales := caps }
        let ins := (w.read t.in0 (tdLen t.desc 0) ++ w.read t.in1 (tdLen t.desc 1)).map BitVec.toNat ++ prog
        let dig := if t.selected || h.samp.isSome || h.tiles.any (fun u => u.selected)
          then { h.dig with inp := crc64 h.dig.inp ins } else h.dig
        let c := w.core k
        let c := { c with
          tile := some t, execAt := w.time, prog := prog, slots0 := prev
          chans0 := if tdChainIn t.desc then h.chans else []
          snap := w.windowSnap k t.ctx h.id
          chain := some { h with dig := dig } }
        let w := (w.putCore c).coreNow k 2 t.ctx
        if h.samp.isSome then w else w.noteDispatch k t
  | _, _ => w

def execTileStart (k : Fin 32) (bad : Option (Nat × ReadRes)) (s : State) : Host.Outcome State Fault Refusal :=
  s.run (opTileStart k bad)

/-! ### The run -/

/-- Everything one run of a tile does. -/
structure TileRun where
  pass : PassOut
  drain : UnitOut
  stitch : StitchOut
  conv : Conv
  pillow : Nat
  needle : Nat
  portStall : Nat
  deriving DecidableEq, Repr

/-- Nothing written. -/
def UnitOut.none : UnitOut := ⟨[], Conv.none, [], []⟩

/-- The generator of a tile. Log entry 57. -/
def Tile.gen (t : Tile) : Gen := ⟨t.seed, t.step, t.tid⟩
/-- The captured scale of a slot. -/
def Tile.cap (t : Tile) (s : Nat) : Nat := match t.scales.find? (fun p => p.1 == s) with | some p => p.2 | none => 256

/-- Accumulators with which a first run starts (R154). -/
def startAcc (d : Nat) (h : Chain) : List (Nat × Nat) :=
  if tdChainIn d && !(tdPillow d && psAccInit (tdPass d)) then h.acc else []

/-- The run of the tile on core k, of `np` passes, `ne` elements and `nd` cycles of drain conversion at most (a cut run is
shorter). Log entry 57. -/
def Work.tileRun (w : Work) (c : Core) (t : Tile) (h : Chain) (np ne nd : Nat) : TileRun :=
  let d := t.desc
  let u := tdPass d
  let rdW := fun a => (w.byte (t.feedDev + (a - t.feedCtx))).toNat
  let rdS := snapByte c.snap
  let acc := if c.level = 0 then startAcc d h else h.acc
  let pass : PassOut := if tdPillow d && c.level == 0 then runPasses u (min np (psNpass u)) rdW rdS t.gen acc
    else ⟨acc, Conv.none, 0, 0⟩
  let dr := if tdPillow d && psDrain u && 0 < nd then
    drainRun u c.level (t.cap (dTslot (psDconv u))) nd t.rnd rdS t.gen pass.acc else UnitOut.none
  let slots := resolveSlots d c.slots0
  let prog := progOf c.prog (c.prog.length / 8)
  let st : StitchOut := if tdNeedle d then
      (StitchEnv.mk d slots (min ne (nhNelem (tdStitch d))) rdS t.gen t.rnd c.level t.cap prog (Config.freeValue w.free)).run
        c.chans0
    else ⟨UnitOut.none, NStat.none, if c.level = 0 then h.slots else h.slots, h.chans, [], false⟩
  let pc := if tdPillow d then
      (if c.level = 0 then pillowCycles d t.nextDesc (0 < dr.images.length) else psDrainCycles u (0 < dr.images.length))
    else 0
  let (nc, ps) := if tdNeedle d then needleCycles d prog slots st.unit.images.length st.emits else (0, 0)
  ⟨pass, dr, st, (pass.conv.add dr.conv).add st.unit.conv, pc, nc, ps⟩

/-- Stalls a run meets beyond the counts at full rate: a slower feed, waits for pending drain writes, waits for the drain
buffer. Log entry 30. -/
structure Stalls where
  feed : Nat
  wait : Nat
  drain : Nat
  deriving DecidableEq, Repr

/-- Pillow's cycles with its stalls. -/
def TileRun.pillowAll (r : TileRun) (s : Stalls) : Nat := if r.pillow = 0 then 0 else r.pillow + s.feed + s.drain
/-- Needle's cycles with its stalls. -/
def TileRun.needleAll (r : TileRun) (s : Stalls) : Nat := if r.needle = 0 then 0 else r.needle + s.wait
/-- The tile's cycles. -/
def TileRun.cycles (r : TileRun) (s : Stalls) : Nat := max (r.pillowAll s) (r.needleAll s)

/-- The feed of a tile lies wholly in the near memory or staging buffer of the core's own die, where it runs at the full
rate (R160). -/
def feedLocal (k : Nat) (t : Tile) : Bool :=
  match psFed (tdPass t.desc) with
  | some (_, n) => dieOf t.feedDev == coreDie k && decide (0x020000000000 ≤ t.feedDev ∧ t.feedDev + n ≤ 0x022000000000)
  | none => true

/-- A byte changed by the upsets of a faulty core (their window offset and the bits they flip). Log entry 30. -/
def upset (flips : List (Nat × Nat)) (a b : Nat) : Nat :=
  flips.foldl (fun b f => if f.1 = a then (b ^^^ f.2) % 256 else b) b

/-- Pieces of a run as a faulty core writes them. Log entry 30. -/
def upsetAll (flips : List (Nat × Nat)) (ps : List (Nat × List Nat)) : List (Nat × List Nat) :=
  if flips.isEmpty then ps else ps.map (fun p => (p.1, p.2.zipIdx.map (fun b => upset flips (p.1 + b.2) b.1)))

/-- The counters of a run of `np` passes that took `pc` Pillow and `nc` Needle cycles (R65, R156, R158, R173, R184, R190, R197,
R202): a Sampler run counts only on its core. Log entry 57. -/
def Work.countRun (k : Nat) (t : Tile) (r : TileRun) (s : Stalls) (own : Bool) (np pc nc : Nat) (w : Work) : Work :=
  let u := tdPass t.desc
  let x := t.ctx
  let first := (w.core k).level == 0
  let fStall := ((upto np).map (fun p => psFedDuring u p (nextPass t.desc t.nextDesc) - max (psA u) (psS u))).sum + s.feed
  let w := (w.bump (Obj.pillowBusy k) pc).bump (Obj.needleBusy k) nc
  let w := w.bump (Obj.needlePortStall k) r.portStall
  let w := if first then (w.bump (Obj.feedBytes k) (np * psPlaneBytes u)).bump (Obj.streamStall k) (np * (psS u - psA u)) else w
  let w := w.bump (Obj.drainWait k) s.drain
  if !own then w else
  let w := w.countConv x r.conv
  let w := (w.bump (Obj.accSatCount x) r.pass.sat).bump (Obj.reblockRounded x) r.pass.rounded
  let w := (w.bump (Obj.pillowCycles x) pc).bump (Obj.needleCycles x) nc
  let w := if first && tdPillow t.desc then w.bump (Obj.feedStallCycles x) fStall else w
  let w := if !first && tdPillow t.desc then w.bump (Obj.redrainCount x) 1 else w
  let st := r.stitch.stat
  let w := (w.bump (Obj.isatCount x) st.isat).bump (Obj.fsatCount x) st.fsat
  let w := (w.bump (Obj.domainCount x) st.dom).bump (Obj.redEmits x) r.stitch.emits.length
  w.bump (Obj.laneMiss x 0) st.miss

/-- The recompute that a run with OVF orders (R210): 1 or 2, none when its result is final. -/
def nextLevel (t : Tile) (level : Nat) (ovf : Bool) : Option Nat :=
  if !ovf || t.recomp == 2 then none
  else match level with
    | 0 => if t.recomp = 1 then some 2 else some 1
    | 1 => some 2
    | _ => none

/-- The ALT regions of a tile as window offset and bytes (R212): the ALT_LOFF extent of a draining pass whatever its SCALE_SRC
(R153, R166), and the images of Needle's TENSOR and PLANE slots (R196). DEDUCED (log 75). -/
def altRegions (d : Nat) (slots : List NSlot) : List (Nat × Nat) :=
  let u := tdPass d
  (if tdPillow d && psDrain u
    then [(psAlt u, psDnrow u * psNcol u * 2)] else []) ++
  (if tdNeedle d then (slots.filter (fun p => nsFixed p.desc)).map (fun p => (altOff d slots p.s, nhNelem (tdStitch d) * 2))
    else [])

/-- Cut a run of bytes at the places a predicate leaves out. Fuel counts bytes. Log entry 75. -/
def keepRuns (keep : Nat → Bool) (a : Nat) : Nat → List Nat → List (Nat × List Nat)
  | 0, _ => []
  | n + 1, l =>
    match l with
    | [] => []
    | b :: r =>
      let rest := keepRuns keep (a + 1) n r
      if keep a then
        match rest with
        | (a', x) :: t => if a' = a + 1 then (a, b :: x) :: t else (a, [b]) :: (a', x) :: t
        | [] => [(a, [b])]
      else rest

/-- The OUT store of a tile whose final run wrote these images: window bytes by device address; the ALT regions without an
image are skipped (R212). Log entries 57, 75. -/
def Work.outPieces (w : Work) (k : Nat) (t : Tile) (chain : Nat) (slots : List NSlot) (imgs : List Image) :
    List (Nat × List Nat) :=
  let n := tdLen t.desc 2
  if n = 0 then [] else
  let off := tdLoff t.desc 2
  let bytes := (upto n).map (fun i => w.windowByte k t.ctx chain (off + i))
  let skip := (altRegions t.desc slots).filter (fun r => !imgs.any (fun i => i.off == r.1))
  if skip.isEmpty then [(t.out, bytes)] else
  (keepRuns (fun a => !skip.any (fun r => decide (r.1 ≤ a) && decide (a < r.1 + r.2))) off n bytes).map (fun p =>
    (t.out + (p.1 - off), p.2))

/-- Fields of an image's log entry (R213). -/
def imageEntry (t : Tile) (i : Image) : List Nat :=
  let lo := tdLoff t.desc 2
  let stored := decide (0 < tdLen t.desc 2 ∧ lo ≤ i.off ∧ i.off + i.len ≤ lo + tdLen t.desc 2)
  [i.reason, i.source, if i.plane then 0 else i.tslot, b2n i.plane,
   if stored then (tdAddr t.desc 2 + (i.off - lo)) % 2 ^ 48 else 0, i.len]

/-- WIDE_LOG_ENTRY (R213). -/
def Work.wideEntry (t : Tile) (e : List Nat) (w : Work) : Work :=
  let x := t.ctx
  let f := fun i => e.getD i 0
  let v := t.tid + f 0 * 2 ^ 32 + f 1 * 2 ^ 33 + f 2 * 2 ^ 48 + f 3 * 2 ^ 58 + f 4 * 2 ^ 64 + f 5 * 2 ^ 128 + t.step * 2 ^ 192
  let base := w.get (Obj.wideLogBase x)
  let i := w.get (Obj.wideLogTail x)
  let w := if base = 0 then w else
    let segs := match w.cmd? t.cmd with | some c => c.segs | none => []
    match w.xlate x segs (base + 32 * (i % 2 ^ w.get (Obj.wideLogLog2 x))) 32 .write with
    | .ok a => w.engWrite x a (leBytes v 32)
    | .error _ => w.bump (Obj.wideLogDrop x) 1
  w.put (Obj.wideLogTail x) ((i + 1) % 2 ^ 32)

/-- A tile completes (R115): images logged, counters, its end reported to its launch. -/
def Work.tileComplete (s : OutStore) (w : Work) : Work :=
  let t := s.tile
  let w := s.writes.foldl (fun w p => w.engWrite t.ctx p.1 (p.2.map (BitVec.ofNat 8))) w
  let w := s.images.foldl (fun w e => w.wideEntry t e) w
  let w := w.bump (Obj.coreTiles s.core) 1
  let w := if t.defer then w.bump (Obj.deferredTiles t.ctx) 1 else w
  let w := if s.status = 0 then w else w.launchFault t.cmd t.idx s.status t.idx
  (w.tileGone t.cmd).rotation

/-- Digest of what a run stores, emits and drains, its status and its counts (R436). -/
def outDigest (c : Nat) (ps : List (Nat × List Nat)) (k : Conv) : Nat :=
  crc64 c (ps.flatMap (fun p => p.2) ++ [k.flags] ++
    ([k.sat, k.nonfinite, k.poisonIn, k.poisonLost, k.hole, k.codeFault, k.flush, k.elems].flatMap (fun n =>
      (upto 8).map (fun i => bits n (8 * i) 8))))

/-- The chain of a run that is over may go on; its Sampler business when it does not (R435, R437). -/
def Work.chainEnd (k : Nat) (h : Chain) (w : Work) : Work :=
  let w := w.putCore { w.core k with chain := some h }
  if w.chainGoesOn k then w else
  let w := w.putCore { w.core k with chain := none, again := none }
  match h.samp with
  | some id => w.setRuns (w.sched.runs.map (fun (r : SampRun) => if r.id = id then { r with ended := true, dig := h.dig } else r))
  | none =>
    match h.tiles.head? with
    | some t0 =>
      if t0.selected then
        let (id, w) := w.newId
        let ts := h.tiles.map (fun (t : Tile) => { t with defer := true, selected := false, cmd := 0, released := w.time })
        w.setRuns (w.sched.runs ++ [⟨id, 1, ts, [k], none, w.time, 0, false, false, 0, ⟨0, 0, 0⟩, [(k, h.dig)]⟩])
      else w
    | none => w

/-- The core time of a run. -/
def Work.runTime (k : Nat) (t : Tile) (samp : Bool) (w : Work) : Work :=
  let ns := w.since (w.core k).since
  if samp then { w.bump Obj.samplerCoreNs ns with health := { w.health with shadowNs := w.health.shadowNs + ns } }
  else w.bump (Obj.coreTimeNs t.ctx) ns

/-- The plane bytes a run feeds, in feed order (R436). -/
def Work.fedBytes (w : Work) (t : Tile) : List Nat :=
  let u := tdPass t.desc
  let f := psWf u
  let b := psBlk u
  let dev := fun a => t.feedDev + (a - t.feedCtx)
  let n := if psWtrans u then psDepth u else psNcol u
  let m := if psWtrans u then psNcol u else psDepth u
  (upto (psNpass u)).flatMap (fun p => (upto n).flatMap (fun i =>
    let o := planeMap u p
    ((w.read (dev (o.base + i * o.cs)) (f.bytes b m)) ++
      (if f.scaled then w.read (dev (o.sbase + i * o.scs)) (ceilDiv m b) else [])).map BitVec.toNat))

/-- TILE_END (R158, R163, R207, R210): the tile on core k reaches its last execution cycle within 720 cycles. A tile of a context
in RESETTING stores nothing and its chain is abandoned (R461). Log entries 30, 55. -/
def opTileEnd (k : Fin 32) (st : Stalls) (flips : List (Nat × Nat)) (w : Work) : Work :=
  let k := k.val
  let c := w.core k
  match c.tile, c.chain with
  | some t, some h =>
    if w.coreSt k ≠ 2 then w else
    let st := if feedLocal k t then { st with feed := 0 } else st
    let r := w.tileRun c t h 64 (2 ^ 24) (2 ^ 24)
    if 720 < r.cycles st then w else
    let w := { w with free := w.free + 1 }
    let own := h.samp.isNone
    let np := if tdPillow t.desc then psNpass (tdPass t.desc) else 0
    let w := (w.countRun k t r st own np (r.pillowAll st) (r.needleAll st)).runTime k t (!own)
    let w := if own then (r.drain.reports ++ r.stitch.unit.reports).foldl (fun w p => w.hoopReport t.ctx p.1 p.2) w else w
    if w.get (Obj.ctxState t.ctx) = 3 then
      (((w.putCore { w.core k with chain := none, again := none }).dropRun h.samp).coreFree k).rotation
    else
    let ovf := r.conv.flags &&& fOvf != 0
    let slots := resolveSlots t.desc c.slots0
    let ps := upsetAll flips (r.drain.writes ++ r.stitch.unit.writes)
    let live := t.selected || !own || h.tiles.any (fun u => u.selected)
    let dig := if live then
        { h.dig with
          inp := if tdPillow t.desc && c.level == 0 then crc64 h.dig.inp (w.fedBytes t) else h.dig.inp
          outp := outDigest h.dig.outp ps r.conv }
      else h.dig
    let h1 := { h with acc := r.pass.acc, dig := dig }
    match (if r.stitch.bad then none else nextLevel t c.level ovf) with
    | some lv =>
      let w := if own then w.gather t.cmd r.conv.flags else w
      let w := w.coreFree k
      let c2 := w.core k
      (w.putCore { c2 with chain := some h1, again := some ⟨t, lv, c.slots0, c.chans0, c.prog, c.snap⟩ }).rotation
    | none =>
      let w := ps.foldl (fun w p => w.windowWrite k t.ctx h.id p.1 p.2) w
      let imgs := r.drain.images ++ r.stitch.unit.images
      let probe := imgs.any (fun i => i.reason == 1)
      let w := if own && probe then w.bump (Obj.probeTiles t.ctx) 1 else w
      let w := if own then w.mapCmd t.cmd (fun (m : Cmd) => { m with
          conv := m.conv ||| r.conv.flags
          r1 := m.r1 + b2n (c.level == 1 || (c.level == 2 && t.recomp == 0))
          r2 := m.r2 + b2n (c.level == 2) }) else w
      let w := if own then (w.bump (Obj.recomp1Count t.ctx) (b2n (c.level == 1 || (c.level == 2 && t.recomp == 0)))).bump
          (Obj.recomp2Count t.ctx) (b2n (c.level == 2)) else w
      let h2 := { h1 with slots := r.stitch.slots, chans := r.stitch.chans, tiles := h.tiles ++ [t] }
      let w := w.coreFree k
      if r.stitch.bad then
        let w := w.putCore { w.core k with chain := none }
        let w := match h.samp with
          | some id => w.setRuns (w.sched.runs.map (fun (q : SampRun) => if q.id = id then { q with ended := true, dig := dig } else q))
          | none => (w.launchFault t.cmd t.idx 0x0420 t.idx).tileGone t.cmd
        w.rotation
      else
        let pieces := if own then w.outPieces k t h.id slots imgs else []
        let w := w.chainEnd k h2
        if !own then w.rotation
        else
          let status := if r.conv.poisoned && w.get (Obj.poisonAction t.ctx) == 1 then 0x0411 else 0
          let (id, w) := w.newId
          let s : OutStore := ⟨id, t, k, pieces, imgs.map (imageEntry t), status⟩
          if pieces.isEmpty then (w.tileComplete s).rotation
          else (w.setSched (fun q => { q with stores := q.stores ++ [s] })).rotation
  | _, _ => w

def execTileEnd (k : Fin 32) (feed wait drain : Nat) (flips : List (Nat × Nat)) (s : State) :
    Host.Outcome State Fault Refusal := s.run (opTileEnd k ⟨feed, wait, drain⟩ flips)

/-- Passes of a tile begun before the end of cycle 720, their cycles taken at the full rate. Log entry 55. -/
def passesBegun (u : Nat) (next : Option Nat) : Nat :=
  ((upto (psNpass u)).filter (fun p => decide (((upto p).map (fun q => psPass u q next)).sum < 720))).length

/-- TILE_OVERRUN (R118): the tile on core k has not ended by the end of cycle 720: it is stopped and discarded, its launch
ends, and the events it raised before the cut count. Log entry 55. -/
def opTileOverrun (k : Fin 32) (st : Stalls) (w : Work) : Work :=
  let k := k.val
  let c := w.core k
  match c.tile, c.chain with
  | some t, some h =>
    if w.coreSt k ≠ 2 then w else
    let st := if feedLocal k t then { st with feed := 0 } else st
    let full := w.tileRun c t h 64 (2 ^ 24) (2 ^ 24)
    if full.cycles st ≤ 720 then w else
    let u := tdPass t.desc
    let per := max 1 (max (nCi (progOf c.prog (c.prog.length / 8))) (max (nCr (resolveSlots t.desc c.slots0)) (nCw (resolveSlots t.desc c.slots0) 0)))
    let np := if tdPillow t.desc then passesBegun u (nextPass t.desc t.nextDesc) else 0
    let dc := psDrainCycles u (0 < full.drain.images.length)
    let cut := w.tileRun c t h np (32 * ((720 - st.wait) / per)) (720 - (full.pillowAll st - dc))
    let w := { w with free := w.free + 1 }
    let own := h.samp.isNone
    let w := (w.countRun k t cut st own np (min 720 (full.pillowAll st)) (min 720 (full.needleAll st))).runTime k t (!own)
    let w := if own then w.gather t.cmd cut.conv.flags else w
    let w := if own then w.bump (Obj.overrunCount t.ctx) 1 else w
    let w := w.event 0x0310 t.ctx (0x1000 + k) k
    let w := w.putCore { w.core k with chain := none, again := none }
    let w := w.coreFree k
    let w := match h.samp with
      | some id => w.setRuns (w.sched.runs.map (fun (q : SampRun) => if q.id = id then { q with ended := true, dig := h.dig } else q))
      | none => (w.launchFault t.cmd t.idx 0x0310 t.idx).tileGone t.cmd
    w.rotation
  | _, _ => w

def execTileOverrun (k : Fin 32) (feed wait drain : Nat) (s : State) : Host.Outcome State Fault Refusal :=
  s.run (opTileOverrun k ⟨feed, wait, drain⟩)

/-- TILE_STORE_DONE (R115): an OUT store is visible and its tile completes. Log entry 11. -/
def opTileStoreDone (id : Nat) (w : Work) : Work :=
  match w.sched.stores.find? (fun s => s.id == id) with
  | some s => (w.setSched (fun q => { q with stores := q.stores.filter (fun t => t.id != id) })).tileComplete s
  | none => w

def execTileStoreDone (id : Nat) (s : State) : Host.Outcome State Fault Refusal := s.run (opTileStoreDone id)

end Sys2Proof.Machine
end

