-- ==== Sys2Proof/Machine/Picot.lean ====
section
/-!
DEFINITION. Sys2Proof/Machine/Picot.lean: Picot (chapter 10): table headers, gathers, streamed updates, batches and row
locks.
-/
namespace Sys2Proof.Machine

/-! ### Table header (Table 10.1) -/

/-- TAG. -/
def ehTag (h : Nat) : Nat := bits h 0 8
/-- SC_MODE: 0 NONE, 1 IN_ROW, 2 PLANE. -/
def ehSc (h : Nat) : Nat := bits h 8 2
/-- OPT: 0 ADD, 1 SGD, 2 ROW_ADAGRAD. -/
def ehOpt (h : Nat) : Nat := bits h 10 2
/-- Row stride in bytes. -/
def ehStride (h : Nat) : Nat := 32 * bits h 16 12
/-- COLD_BASE. -/
def ehCold (h : Nat) : Nat := bits h 64 48
/-- HOT_ROWS. -/
def ehHot (h : Nat) : Nat := bits h 112 40
/-- SC_HOT. -/
def ehScHot (h : Nat) : Nat := bits h 160 48
/-- SC_COLD. -/
def ehScCold (h : Nat) : Nat := bits h 208 48
/-- ST_HOT. -/
def ehStHot (h : Nat) : Nat := bits h 256 48
/-- ST_COLD. -/
def ehStCold (h : Nat) : Nat := bits h 304 48
/-- K_LR. -/
def ehLr (h : Nat) : Nat := bits h 352 32
/-- K_EPS. -/
def ehEps (h : Nat) : Nat := bits h 384 32

/-! ### Fields of a command -/

/-- The command is a SCATTER_ADD. -/
def gScatter (r : Nat) : Bool := cOpcode r == 0x31
/-- The table format T. -/
def gT (r : Nat) : Fmt := if gScatter r then cDstFmt (gConv r) else cSrcFmt (gConv r)
/-- The format of the rows at OUT. -/
def gO (r : Nat) : Fmt := if gScatter r then cSrcFmt (gConv r) else cDstFmt (gConv r)
/-- Block size of CONV. -/
def gB (r : Nat) : Nat := dBlk (gConv r)
/-- Code bytes of a row of L elements. -/
def rowBytes (f : Fmt) (b l : Nat) : Nat :=
  match f with
  | .n2t => ceilDiv l b * ceilDiv b 5
  | .raw => l
  | f => f.bytes b l
/-- Scale bytes of a row. -/
def rowScales (f : Fmt) (b l : Nat) : Nat := if f.scaled then ceilDiv l b else 0
/-- ORS (R310). -/
def gOrs (r : Nat) : Nat := ceilDiv (rowBytes (gO r) (gB r) (gRowlen r) + rowScales (gO r) (gB r) (gRowlen r)) 32 * 32
/-- G = max(GROUP, 1). -/
def gG (r : Nat) : Nat := max (gGroup r) 1
/-- Positions that make one output. -/
def gPer (r : Nat) : Nat := if gPool r = 0 then 1 else gG r

/-! ### Checks (R92, R304, R305, R570) -/

/-- Every check of a GATHER or SCATTER_ADD that needs no memory access. -/
def Dev.checkPicot (w : Dev) (c : Cmd) : Option (Nat × Nat) :=
  let r := c.raw
  let sc := gScatter r
  let raw := fmtOf (if sc then dDst (gConv r) else dSrc (gConv r)) == some .raw
  if gNidx r = 0 then some (0x0211, 272)
  else if gNrows r = 0 then some (0x0211, 304)
  else if gRowlen r = 0 then some (0x0211, 344)
  else if gTable r % 64 ≠ 0 then some (0x0211, 176)
  else if gOut r % 64 ≠ 0 then some (0x0211, 224)
  else if gPool r ≠ 0 ∧ gGroup r = 0 then some (0x0211, 396)
  else if gPool r ≠ 0 ∧ gNidx r % gG r ≠ 0 then some (0x0211, 396)
  else if gPool r ≠ 0 ∧ (raw ∨ sc) then some (0x0211, 392)
  else if sc && raw then some (0x0211, 360)
  else if sc && decide (1 < gGroup r) && gNidx r % gG r != 0 then some (0x0211, 396)
  else if sc && cNpb r != 0 && decide (4096 < gNidx r) then some (0x0211, 272)
  else if sc && cNpb r != 0 && decide (4096 < gRowlen r) then some (0x0211, 344)
  else match w.convCheck c.ctx (gConv r) 360 false with
    | some e => some e
    | none =>
      if sc && (gT r).scaled && !(dScaleSrc (gConv r) == 1 || dScaleSrc (gConv r) == 3) then some (0x0410, 372) else none

/-- R304 for a header. -/
def headerFault (r h : Nat) : Option (Nat × Nat) :=
  let t := gT r
  let inRow := if ehSc h = 1 then rowScales t (gB r) (gRowlen r) else 0
  if ehTag h ≠ 0xE7 then some (0x0513, 0)
  else if ehSc h = 3 ∨ (ehSc h = 0) = (t.scaled = true) then some (0x0513, 8)
  else if gScatter r && ehOpt h == 3 then some (0x0513, 10)
  else if ehStride h < rowBytes t (gB r) (gRowlen r) + inRow ∨ ehStride h = 0 ∨ 65536 < ehStride h then some (0x0513, 16)
  else if ehHot h < gNrows r ∧ ehCold h % 64 ≠ 0 then some (0x0513, 64)
  else none

/-- The die whose Picot runs a command on a table at a device address (R307). -/
def picotDie (a : Nat) : Nat := dieOf a % 2

/-! ### Rows (R306) -/

/-- The row at position p with its addresses, translated for reading, and for writing by a SCATTER_ADD. -/
def Dev.picotRow (w : Dev) (c : Cmd) (h p i : Nat) (now : Nat) : Except (Nat × Nat) PRow := do
  let r := c.raw
  let t := gT r
  let nsb := rowScales t (gB r) (gRowlen r)
  let cold := decide (ehHot h ≤ i)
  let j := i - ehHot h
  let len := ceilDiv (rowBytes t (gB r) (gRowlen r) + (if ehSc h = 1 then nsb else 0)) 32 * 32
  let a := if cold then ehCold h + j * ehStride h else gTable r + i * ehStride h
  let s := if cold then ehScCold h + j * nsb else ehScHot h + i * nsb
  let q := if cold then ehStCold h + 4 * j else ehStHot h + 4 * i
  let both := fun (x n : Nat) => do
    let d ← w.xlate c.ctx c.segs (x % 2 ^ 48) n .read
    if gScatter r then w.xlate c.ctx c.segs (x % 2 ^ 48) n .write else pure d
  let da ← both a len
  let ds ← if ehSc h = 2 then both s nsb else pure 0
  let dq ← if gScatter r && ehOpt h == 2 then both q 4 else pure 0
  pure ⟨p, [p], i, da, ds, dq, cold, 0, now⟩

/-- Rows for positions in ascending order, up to the first that fails (R96). Fuel is the list. -/
def Dev.picotRows (w : Dev) (c : Cmd) (h now : Nat) : List (Nat × Nat) → List PRow × Option (Nat × Nat × Nat)
  | [] => ([], none)
  | (p, i) :: r =>
    if gNrows c.raw ≤ i then ([], some (p, 0x0217, p))
    else match w.picotRow c h p i now with
      | .error (st, d) => ([], some (p, st, d))
      | .ok x => let (l, f) := w.picotRows c h now r; (x :: l, f)

/-- Rows of a batch: one for each row named, with all its positions (R315). -/
def mergeRows : List PRow → List PRow
  | [] => []
  | x :: r =>
    let rest := mergeRows r
    match rest.find? (fun y => y.i == x.i) with
    | some y => { x with ps := x.p :: y.ps } :: rest.filter (fun z => z.i != x.i)
    | none => x :: rest

/-! ### Issue and locks (R316) -/

/-- Replace Picot's jobs. -/
def Work.setJobs (l : List PicotJob) (w : Work) : Work := { w with picot := { w.picot with jobs := l } }
/-- Change the job of a command. -/
def Work.mapJob (id : Nat) (f : PicotJob → PicotJob) (w : Work) : Work :=
  w.setJobs (w.picot.jobs.map (fun j => if j.id = id then f j else j))
/-- The job of a command. -/
def Dev.picotJob? (w : Dev) (id : Nat) : Option PicotJob := w.picot.jobs.find? (fun j => j.id == id)
/-- Replace the locks. -/
def Work.setLocks (l : List PLock) (w : Work) : Work := { w with picot := { w.picot with locks := l } }
/-- Another command holds the lock of a row. -/
def Dev.rowLocked (w : Dev) (j : PicotJob) (a : Nat) : Bool :=
  w.picot.locks.any (fun l => l.die == j.die && l.addr == a && l.cmd != j.id)
/-- Entries of a die's table that streamed updates hold. -/
def Dev.streamedLocks (w : Dev) (d : Nat) : Nat :=
  (w.picot.locks.filter (fun l => l.die == d && w.picot.jobs.any (fun j => j.id == l.cmd && j.kind == 1))).length
/-- Change the row of a job at a position. -/
def Work.mapRow (id p : Nat) (f : PRow → PRow) (w : Work) : Work :=
  w.mapJob id (fun (j : PicotJob) => { j with rows := j.rows.map (fun r => if r.p = p then f r else r) })

/-- A row of a job issues when it may: an update takes the row's lock. -/
def Work.issueRow (j : PicotJob) (r : PRow) (w : Work) : Work :=
  let go := fun (w : Work) =>
    let w := if j.kind = 0 then w else w.setLocks (w.picot.locks ++ [⟨j.die, r.addr, j.id⟩])
    w.mapRow j.id r.p (fun (r : PRow) => { r with state := 2 })
  if w.rowLocked j r.addr then w.mapRow j.id r.p (fun (r : PRow) => { r with state := 1, since := w.time })
  else if j.kind = 1 then
    if w.picot.locks.any (fun l => l.die == j.die && l.addr == r.addr) || decide (256 ≤ w.streamedLocks j.die) then w
    else go w
  else go w

/-- Rows of a job in the order they issue: positions, or ascending device address in a batch. -/
def insertRow (r : PRow) : List PRow → List PRow
  | [] => [r]
  | a :: t => if r.addr < a.addr then r :: a :: t else a :: insertRow r t

/-- Issue what a job may. A batch issues only inside its section, in ascending address, and stops at a lock another batch
holds. -/
def Work.issueJob (id : Nat) (w : Work) : Work :=
  match w.picotJob? id with
  | none => w
  | some j =>
    if j.kind = 2 then
      if !(match j.sect with | some s => w.sched.sections.any (fun t => t.id == s && t.core.isSome) | none => false) then w
      else
        (j.rows.foldl (fun l r => insertRow r l) []).foldl (fun w r =>
          match w.picotJob? id with
          | some k =>
            if r.state = 0 ∧ k.rows.all (fun q => q.state != 1) then w.issueRow k r else w
          | none => w) w
    else
      j.rows.foldl (fun w r =>
        match w.picotJob? id with
        | some k =>
          let earlier := k.kind == 1 && k.rows.any (fun q => decide (q.p < r.p) && q.addr == r.addr && q.state != 3)
          if r.state = 0 ∧ earlier = false then w.issueRow k r else w
        | none => w) w

/-- Issue what every job of a die may. -/
def Work.issueDie (d : Nat) (w : Work) : Work :=
  w.picot.jobs.foldl (fun w j => if j.die = d then w.issueJob j.id else w) w

/-- A command's locks are released. -/
def Work.dropLocks (id : Nat) (w : Work) : Work := w.setLocks (w.picot.locks.filter (fun l => l.cmd != id))

/-- A Picot command ends. -/
def Work.endPicot (id st d : Nat) (w : Work) : Work :=
  let die := match w.picotJob? id with | some j => j.die | none => 0
  let w := w.dropLocks id
  ((w.setJobs (w.picot.jobs.filter (fun j => j.id != id))).finishCmd id st d).issueDie die

/-! ### Decoding and outputs (R309, R310) -/

/-- Element codes of a row whose code bytes begin at a device address. -/
def Work.rowCodes (w : Work) (f : Fmt) (b a l : Nat) : List Nat :=
  if f = .raw then (w.read a l).map BitVec.toNat else elemCodes f b (fun k => (w.byte (a + k)).toNat) l

/-- A row decoded into W32 codes (pairs for a W32P table) with its events; `sc` is where its scale bytes begin. -/
def Work.decodeRow (w : Work) (f : Fmt) (b a sc l : Nat) : List Nat × Conv :=
  let codes := w.rowCodes f b a l
  let k0 := Conv.codeFaults (codeFaultBytes f b (fun k => (w.byte (a + k)).toNat) l)
  codes.zipIdx.foldl (fun (acc : List Nat × Conv) p =>
    let s := if f.scaled then some (w.byte (sc + p.2 / b)).toNat else none
    let (c, k) := storeVal (if f = .w32p then .w32p else .w32) none false .rn 0 (loadVal f s p.1)
    (acc.1 ++ [c], acc.2.add ((loadConv f p.1).add k))) ([], k0)

/-- The value of a decoded element: W32 and W32P codes read alike. -/
def elemVal (c : Nat) : Val := finOf (decodeW32P c)

/-- Where a row's scale bytes begin. -/
def PRow.scales (r : PRow) (h cb : Nat) : Nat := if ehSc h = 1 then r.addr + cb else r.sc

/-- rnd of a sum or product, as a container, with the events of a saturation (R184). -/
def rndPair (d : Dy) : Nat × Conv :=
  let (c, n) := cordRnd d
  (c, if n = 0 then Conv.none else { Conv.none with flags := fSat })

/-- combine(pool, acc, v). -/
def combine (pool a v : Nat) : Nat × Conv :=
  match elemVal a, elemVal v with
  | .fin x, .fin y => if pool = 3 then (if x.lt y then v else a, Conv.none) else rndPair (x.add y)
  | _, _ => (nanW, Conv.none)

/-- acc / n, rounded once to a pair. Log entry 58. -/
def meanOf (a n : Nat) : Nat × Conv :=
  match elemVal a with
  | .fin d => if d.isZero then (0, Conv.none) else rndPair ((divDy d ⟨(n : Int), 0⟩).withSign d.isNeg)
  | _ => (nanW, Conv.none)

/-- The pooled elements of rows in ascending position. -/
def poolRows (pool : Nat) (rows : List (List Nat)) : List Nat × Conv :=
  match rows with
  | [] => ([], Conv.none)
  | x :: r =>
    let (acc, k) := r.foldl (fun (a : List Nat × Conv) row =>
      let m := (a.1.zip row).map (fun p => combine pool p.1 p.2)
      (m.map (fun p => p.1), m.foldl (fun k p => k.add p.2) a.2)) (x, Conv.none)
    if pool = 2 then
      let m := acc.map (fun c => meanOf c rows.length)
      (m.map (fun p => p.1), m.foldl (fun k p => k.add p.2) k)
    else (acc, k)

/-- The generator inputs of a Picot command (Table 07.4). -/
def Dev.picotU (w : Dev) (c : Cmd) : Nat :=
  let tag := match w.pat? c.pid with | some p => p.tag | none => 0
  (tag * 65536 + c.idx) % 2 ^ 32

/-- The captured scale source of a conversion. -/
def capSrc (d cap : Nat) : ScaleSrc :=
  match dScaleSrc d with
  | 0 => .none
  | 1 => .block
  | 2 => if cap = 512 then .block else .tensor (cap % 256)
  | _ => .plane

/-- Elements converted into rows of a format: code bytes, scale bytes, events; `pl j` is the scale byte at block j. -/
def Work.encodeRow (w : Work) (c : Cmd) (f : Fmt) (src : ScaleSrc) (lane0 : Nat) (pl : Nat → Nat) (vals : List Val)
    (pair : Bool) : List Nat × List Nat × Conv :=
  let b := gB c.raw
  let mode := if pair && f == .w32p then Rnd.rn else dMode (gConv c.raw) c.rnd
  let u := w.picotU c
  let (codes, ss, k) := storeRow f b src mode (fun i => srBits c.seed c.step 2 u (lane0 + i)) pl vals
  let n := if f = .n2t then codes.length else vals.length
  (packCodes f b (codes.take n), ss, k)

/-- Write output o of a GATHER from its decoded rows. -/
def Work.gatherOut (c : Cmd) (j : PicotJob) (o : Nat) (rows : List (List Nat)) (w : Work) : Work :=
  let r := c.raw
  let at0 := j.out + o * gOrs r
  if gT r = .raw then w.engWrite c.ctx at0 ((rows.getD 0 []).map (BitVec.ofNat 8))
  else
    let f := gO r
    let cb := rowBytes f (gB r) (gRowlen r)
    let (acc, k1) := poolRows (gPool r) rows
    let src := capSrc (gConv r) j.cap
    let (codes, ss, k2) := w.encodeRow c f src (65536 * (o * gPer r)) (fun i => (w.byte (at0 + cb + i)).toNat)
      (acc.map elemVal) (gT r == .w32p || gPool r == 1 || gPool r == 2)
    let w := w.engWrite c.ctx at0 (codes.map (BitVec.ofNat 8))
    let w := if f.scaled ∧ src ≠ .plane ∧ src ≠ .none then w.engWrite c.ctx (at0 + cb) (ss.map (BitVec.ofNat 8)) else w
    let k := k1.add k2
    let w := if k1.flags &&& fSat = 0 then w else w.bump (Obj.fsatCount c.ctx) 1
    let w := (w.countConv c.ctx k).gather c.id k.flags
    let w := if dScaleSrc (gConv r) = 2 then w.hoopReport c.ctx (dTslot (gConv r)) k2 else w
    if k.poisoned && w.get (Obj.poisonAction c.ctx) == 1 then w.mapJob j.id (fun (j : PicotJob) =>
      { j with fail := j.fail.or (some (0x0411, 0)) }) else w

/-- Write every output whose rows have all returned, and end the command after the last. -/
def Work.gatherStep (c : Cmd) (w : Work) : Work :=
  match w.picotJob? c.id with
  | none => w
  | some j =>
    let n := gPer c.raw
    let w := j.left.foldl (fun w o =>
      match w.picotJob? c.id with
      | some j =>
        let rows := (upto n).map (fun i => j.got.find? (fun g => g.1 == o * n + i))
        if rows.all (fun r => r.isSome) then
          let w := w.gatherOut c j o (rows.map (fun r => match r with | some g => g.2 | none => []))
          w.mapJob c.id (fun (j : PicotJob) =>
            { j with left := j.left.filter (fun q => q != o), got := j.got.filter (fun g => g.1 / n != o) })
        else w
      | none => w) w
    match w.picotJob? c.id with
    | some j => if j.left.isEmpty then (match j.fail with | some (st, d) => w.endPicot c.id st d | none => w.endPicot c.id 0 0) else w
    | none => w

/-! ### Updates (R312) -/

/-- G: the gradient elements summed over positions in ascending order, with events. -/
def Work.gradient (w : Work) (c : Cmd) (j : PicotJob) (ps : List Nat) : List Nat × Conv :=
  let r := c.raw
  let f := gO r
  let l := gRowlen r
  let rows := ps.map (fun p =>
    let a := j.out + p / gG r * gOrs r
    w.decodeRow f (gB r) a (a + rowBytes f (gB r) l) l)
  let k := rows.foldl (fun k x => k.add x.2) Conv.none
  let (g, k2) := poolRows 1 (rows.map (fun x => x.1))
  (g, k.add k2)

/-- The factor of ROW_ADAGRAD and the new state word. -/
def adagrad (s eps : Nat) (g : List Nat) : Nat × Nat :=
  let ch : Chan := ⟨0, 1, 0, 0, 0, 0, 0, false⟩
  let (c, _, _) := ch.run (g.map elemVal) false
  let sq := if c.poison then Val.poison else elemVal c.acc
  let s' := match finOf (decodeW32 s), sq with
    | .fin a, .fin q =>
      let m := if q.isZero then Dy.zero else divDy q ⟨(g.length : Int), 0⟩
      (resF (a.add m)).1.f32
    | _, _ => nanW
  let root := (transcend 0x0D (.word s')).1
  let sum := (laneOp 0x02 root (.word eps) (.word 0) 0 0 0).1
  ((transcend 0x0C sum).1.f32, s')

/-- One element of r'. -/
def newElem (h : Nat) (d r g : Nat) : Nat × Conv :=
  match elemVal r, elemVal g with
  | .fin x, .fin y =>
    if ehOpt h = 0 then rndPair (x.add y)
    else match finOf (decodeW32 (ehLr h)), finOf (decodeW32 d) with
      | .fin l, .fin e => rndPair (x.add (if ehOpt h = 1 then l.mul y else (l.mul y).mul e))
      | _, _ => (nanW, Conv.none)
  | _, _ => (nanW, Conv.none)

/-- Read, merge and write one row of a SCATTER_ADD. -/
def Work.updateRow (c : Cmd) (j : PicotJob) (r : PRow) (w : Work) : Work :=
  let x := c.ctx
  let raw := c.raw
  let f := gT raw
  let b := gB raw
  let l := gRowlen raw
  let cb := rowBytes f b l
  let sc := r.scales j.hdr cb
  let (old, k0) := w.decodeRow f b r.addr sc l
  let (g, k1) := w.gradient c j r.ps
  let (d, s') := if ehOpt j.hdr = 2 then adagrad (w.readNat r.st 4) (ehEps j.hdr) g else (0x3F800000, 0)
  let new := (old.zip g).map (fun p => newElem j.hdr d p.1 p.2)
  let k2 := new.foldl (fun k p => k.add p.2) Conv.none
  let (codes, ss, k3) := w.encodeRow c f (capSrc (gConv raw) j.cap) (65536 * r.p) (fun i => (w.byte (sc + i)).toNat)
    (new.map (fun p => elemVal p.1)) true
  let inRow := if ehSc j.hdr = 1 then ss else []
  let body := codes ++ inRow
  let body := body ++ List.replicate ((32 - body.length % 32) % 32) 0
  let w := w.engWrite x r.addr (body.map (BitVec.ofNat 8))
  let w := if ehSc j.hdr = 2 ∧ dScaleSrc (gConv raw) = 1 then w.engWrite x r.sc (ss.map (BitVec.ofNat 8)) else w
  let w := if ehOpt j.hdr = 2 then w.engWrite x r.st (leBytes s' 4) else w
  let k := ((k0.add k1).add k2).add k3
  let w := if k2.flags &&& fSat = 0 ∧ k1.flags &&& fSat = 0 then w else w.bump (Obj.fsatCount x) 1
  let w := (w.countConv x k).gather c.id k.flags
  let w := (w.bump (Obj.picotRowsWritten x) 1).bump (Obj.picotColdRows x) (b2n r.cold)
  w.mapJob j.id (fun (q : PicotJob) =>
    { q with
      written := q.written + 1
      fail := if k.poisoned && w.get (Obj.poisonAction x) == 1 then q.fail.or (some (0x0411, 0)) else q.fail })

/-! ### Rows of the table -/

/-- The index list of a command, by position. -/
def Work.indices (w : Work) (c : Cmd) (a : Nat) : List (Nat × Nat) :=
  let n := if gIdx64 c.raw then 8 else 4
  (upto (gNidx c.raw)).map (fun p => (p, w.readNat (a + p * n) n))

/-- The ranges a Picot command fully determines (R303): header, index list, OUT. -/
def Dev.picotRanges (w : Dev) (c : Cmd) : Except (Nat × Nat) (Nat × Nat × Nat) := do
  let r := c.raw
  let h ← w.xlate c.ctx c.segs ((gTable r + 2 ^ 48 - 64) % 2 ^ 48) 64 .read
  let i ← w.xlate c.ctx c.segs (gIdx r) (gNidx r * (if gIdx64 r then 8 else 4)) .read
  let n := if gScatter r then (gNidx r - 1) / gG r + 1 else gNidx r / gPer r
  let o ← w.xlate c.ctx c.segs (gOut r) (n * gOrs r) (if gScatter r then .read else .write)
  pure (h, i, o)

/-- Start a Picot command: header, index list, rows; a batch claims its section (R303, R315). Log entry 58. -/
def Work.startPicot (c : Cmd) (w : Work) : Work :=
  let r := c.raw
  match w.picotRanges c with
  | .error (st, d) => w.finishCmd c.id st d
  | .ok (ha, ia, oa) =>
    let h := w.readNat ha 64
    match headerFault r h with
    | some (st, d) => w.finishCmd c.id st d
    | none =>
      let idx := w.indices c ia
      let kind := if gScatter r then (if cNpb r = 0 then 1 else 2) else 0
      let bad := if kind = 2 then (idx.find? (fun p => decide (gNrows r ≤ p.2))).map (fun p => p.1) else none
      match bad with
      | some p => w.finishCmd c.id 0x0217 p
      | none =>
        let (rows, f) := w.picotRows c h w.time idx
        let n := gPer r
        let outs := rows.length / n
        let rows := if kind = 0 then rows.take (outs * n) else if kind = 2 then mergeRows rows else rows
        let cap := if dScaleSrc (gConv r) = 2 then w.slotCap c.ctx (dTslot (gConv r)) else 256
        let fail := f.map (fun x => (x.2.1, x.2.2))
        let die := picotDie (ha + 64)
        let job : PicotJob := ⟨c.id, c.ctx, die, kind, h, oa, cap, rows, [], if kind = 0 then upto outs else [], fail, none, 0⟩
        let w := w.mapCmd c.id (fun c => { c with begun := true })
        if kind = 2 then
          match fail with
          | some (st, d) => w.finishCmd c.id st d
          | none =>
            let w := w.bump (Obj.picotDupMerged c.ctx) (gNidx r - rows.length)
            let (s, w) := w.claimSection 1 c.id c.ctx die c.cls (cNpb r)
            w.setJobs (w.picot.jobs ++ [{ job with sect := some s }])
        else
          let w := w.setJobs (w.picot.jobs ++ [job])
          if rows.isEmpty then (match fail with | some (st, d) => w.endPicot c.id st d | none => w.endPicot c.id 0 0)
          else w.issueJob c.id

/-- GATHER (R309). Log entry 11. -/
def opGather (id : Nat) (w : Work) : Work :=
  match w.running id 0x30 with
  | some c => if c.begun then w else w.startPicot c
  | none => w

def execGather (id : Nat) (s : State) : Host.Outcome State Fault Refusal := s.run (opGather id)

/-- SCATTER_ADD (R312, R314, R315). Log entry 11. -/
def opScatterAdd (id : Nat) (w : Work) : Work :=
  match w.running id 0x31 with
  | some c => if c.begun then w else w.startPicot c
  | none => w

def execScatterAdd (id : Nat) (s : State) : Host.Outcome State Fault Refusal := s.run (opScatterAdd id)

/-- Row p of a command is done: a streamed update lets its lock go. -/
def Work.rowDone (c : Cmd) (j : PicotJob) (r : PRow) (w : Work) : Work :=
  let w := w.mapRow j.id r.p (fun (r : PRow) => { r with state := 3 })
  if j.kind = 0 then w.gatherStep c
  else if j.kind = 1 then
    let w := w.setLocks (w.picot.locks.filter (fun l => !(l.cmd == j.id && l.addr == r.addr)))
    match w.picotJob? j.id with
    | some q =>
      if q.rows.all (fun r => r.state == 3) then
        (match q.fail with | some (st, d) => w.endPicot j.id st d | none => w.endPicot j.id 0 0)
      else w.issueDie j.die
    | none => w
  else w

/-- PICOT_ROW_RETURN (R309, R312): the row that position p issued returns; in a batch, p is the row's lowest position. -/
def opPicotRowReturn (id p : Nat) (res : ReadRes) (w : Work) : Work :=
  match w.picotJob? id, w.cmd? id with
  | some j, some c =>
    match j.rows.find? (fun r => r.p == p) with
    | some r =>
      if r.state ≠ 2 then w else
      let w := (w.readEvents c.ctx r.addr res).bump (Obj.picotRowsRead c.ctx) 1
      let w := w.bump (Obj.picotColdRows c.ctx) (b2n r.cold)
      match readFail r.addr res with
      | some (st, d) =>
        if j.kind = 2 then
          (w.mapRow id p (fun (r : PRow) => { r with state := 3 })).mapJob id (fun (q : PicotJob) => { q with fail := some (st, d) })
        else w.endPicot id st d
      | none =>
        if j.kind = 0 then
          let f := gT c.raw
          let cb := rowBytes f (gB c.raw) (gRowlen c.raw)
          let (vals, k) := if f = .raw then (w.rowCodes f 32 r.addr (gRowlen c.raw), Conv.none)
            else w.decodeRow f (gB c.raw) r.addr (r.scales j.hdr cb) (gRowlen c.raw)
          let w := (w.countConv c.ctx k).gather id k.flags
          (w.mapJob id (fun (q : PicotJob) => { q with got := q.got ++ [(p, vals)] })).rowDone c j r
        else (w.updateRow c j r).rowDone c j r
    | none => w
  | _, _ => w

def execPicotRowReturn (id p : Nat) (res : ReadRes) (s : State) : Host.Outcome State Fault Refusal :=
  s.run (opPicotRowReturn id p res)

/-- PICOT_LOCK_GRANT (R316, R317): the lock that row p of a command waited on is free, and the access proceeds. -/
def opPicotLockGrant (id p : Nat) (w : Work) : Work :=
  match w.picotJob? id with
  | some j =>
    match j.rows.find? (fun r => r.p == p) with
    | some r =>
      if r.state ≠ 1 ∨ w.rowLocked j r.addr = true then w else
      let ns := w.since r.since
      let w := (w.raiseMax Obj.lockWaitMaxNs ns).bump (Obj.picotLockWaitNs j.ctx) ns
      let w := w.mapRow id p (fun (r : PRow) => { r with state := 0 })
      (w.issueRow j r).issueJob id
    | none => w
  | none => w

def execPicotLockGrant (id p : Nat) (s : State) : Host.Outcome State Fault Refusal := s.run (opPicotLockGrant id p)

/-- The batch of a section has issued every write, or failed: its phase is complete. -/
def Dev.batchOver (w : Dev) (id : Nat) : Bool :=
  match w.picotJob? id with
  | some j => j.rows.all (fun r => r.state == 3) || j.fail.isSome && !j.rows.any (fun r => r.state == 2)
  | none => true

/-- BATCH_RELEASE (R315): every lock of the batch is released and its command has ended. -/
def Work.batchRelease (id : Nat) (w : Work) : Work :=
  match w.picotJob? id with
  | some j =>
    match j.fail with
    | some (st, d) => w.endPicot id st d
    | none => (w.bump (Obj.picotBatches j.ctx) 1).endPicot id 0 0
  | none => w

end Sys2Proof.Machine
end

