-- ==== Sys2Proof/Machine/Plait.lean ====
section
/-!
DEFINITION. Sys2Proof/Machine/Plait.lean: collectives (chapter 12): groups, the collective descriptor and its checks, the ring
and direct algorithms chunk by chunk, merges and sections, the compressed exchange, and the breaking of a group.
-/
namespace Sys2Proof.Machine

/-! ### Groups (Table 12.1) -/

/-- A group entry in a copy. -/
def Dev.groupIn (w : Dev) (c : Copy) (g : Nat) : Nat := w.blobNat c Obj.groupTable (32 * g) 32
/-- Group g in force. -/
def Dev.groupE (w : Dev) (g : Nat) : Nat := w.groupIn .active g
/-- VALID. -/
def gvValid (e : Nat) : Bool := bitOf e 0
/-- CTX. -/
def gvCtx (e : Nat) : Nat := bits e 4 4
/-- CLASS. -/
def gvClass (e : Nat) : Nat := bits e 8 2
/-- NMEMB. -/
def gvN (e : Nat) : Nat := bits e 32 18
/-- POS. -/
def gvPos (e : Nat) : Nat := bits e 64 18
/-- MBASE. -/
def gvBase (e : Nat) : Nat := bits e 96 18
/-- The code of member j (Table 12.2): reserved codes read as 0xFFFE. -/
def Dev.member (w : Dev) (g j : Nat) : Nat :=
  let c := w.blobNat .active Obj.memberPool (2 * (gvBase (w.groupE g) + j)) 2
  if 0x2000 ≤ c ∧ c < 0xFFFE then 0xFFFE else c
/-- State of group g (Table 12.3). -/
def Dev.groupSt (w : Dev) (g : Nat) : Nat := w.blobNat .active Obj.groupState g 1

/-! ### The collective descriptor (Table 12.4) -/

def cdWfmt (d : Nat) : Nat := bits d 0 4
def cdDirect (d : Nat) : Bool := bitOf d 4
def cdArrival (d : Nat) : Bool := bitOf d 5
def cdMax (d : Nat) : Bool := bitOf d 6
def cdRsOnly (d : Nat) : Bool := bitOf d 7
def cdInner (d : Nat) : Nat := bits d 16 16
def cdPeer (d : Nat) : Nat := bits d 32 18
def cdSrc (d : Nat) : Nat := bits d 64 48
def cdDst (d : Nat) : Nat := bits d 112 48
def cdSscale (d : Nat) : Nat := bits d 160 48
def cdDscale (d : Nat) : Nat := bits d 208 48
def cdConv (d : Nat) : Nat := bits d 256 32
def cdPartcnt (d : Nat) : Nat := bits d 288 32
def cdThrumIn (d : Nat) : Nat := bits d 320 48
def cdThrumOut (d : Nat) : Nat := bits d 368 48
def cdWork (d : Nat) : Nat := bits d 416 48
def cdWorkKib (d : Nat) : Nat := bits d 464 24
def cdChunkKib (d : Nat) : Nat := bits d 488 13

/-- The wire format. -/
def cdWire (d : Nat) : Fmt := (fmtOf (cdWfmt d)).getD .raw

/-- Code bytes of n elements on the wire, in blocks of 32. Log entry 40. -/
def wireCodes (f : Fmt) (n : Nat) : Nat := match f with | .n2t => ceilDiv n 32 * 7 | f => f.bytes 32 n
/-- Wire bytes of n elements: codes, then scale bytes (R376; an N2T block of 32 takes 7 code bytes and its scale byte,
log entry 40). -/
def wireBytes (f : Fmt) (n : Nat) : Nat := wireCodes f n + (if f.scaled then ceilDiv n 32 else 0)

/-- Elements of a whole chunk: the largest multiple of 32 whose wire bytes fit CHUNK_KIB. Log entry 40. -/
def chunkElems (d : Nat) : Nat := cdChunkKib d * 1024 / wireBytes (cdWire d) 32 * 32
/-- Elements of a part at a level: PARTCNT, or the outer slice. -/
def CollJob.partLen (j : CollJob) (no lv : Nat) : Nat := if lv = 0 then cdPartcnt j.desc else no * cdPartcnt j.desc
/-- Chunks of n elements. -/
def chunksIn (d n : Nat) : Nat := ceilDiv n (chunkElems d)
/-- First element and elements of chunk c of a part of n elements. -/
def chunkSpan (d n c : Nat) : Nat × Nat := (c * chunkElems d, min (chunkElems d) (n - c * chunkElems d))

/-- OP is a reduction. -/
def isReduce (op : Nat) : Bool := op == 1 || op == 2 || op == 6
/-- The group of a level. -/
def CollJob.grp (j : CollJob) (lv : Nat) : Nat := if lv = 0 then j.group else j.inner
/-- Members of a level. -/
def Dev.nAt (w : Dev) (j : CollJob) (lv : Nat) : Nat := gvN (w.groupE (j.grp lv))
/-- This device's position at a level. -/
def Dev.posAt (w : Dev) (j : CollJob) (lv : Nat) : Nat := gvPos (w.groupE (j.grp lv))
/-- The job runs the ring. -/
def CollJob.ring (j : CollJob) : Bool := !cdDirect j.desc || j.op == 3
/-- Chunks of a part at a level. -/
def Dev.chunksAt (w : Dev) (j : CollJob) (lv : Nat) : Nat := chunksIn j.desc (j.partLen (w.nAt j 0) lv)

/-! ### Checks (R365, R366) -/

/-- Members a COLL exchanges with at a level: entry level, group, position. -/
def Dev.partners (w : Dev) (op d g : Nat) : List Nat :=
  let e := w.groupE g
  let n := gvN e
  let i := gvPos e
  if op = 4 ∨ op = 5 then [cdPeer d]
  else if n ≤ 1 then []
  else if cdDirect d && op != 3 then (upto n).filter (fun j => j != i)
  else sortNat [(i + n - 1) % n, (i + 1) % n]

/-- GROUP_INVALID for one group of a COLL: reason and position (R366). -/
def Dev.groupFault (w : Dev) (x op d g : Nat) : Option (Nat × Nat) :=
  if 1023 < g ∨ w.groupSt g = 0 then some (1, 0)
  else if gvCtx (w.groupE g) ≠ x then some (2, 0)
  else (w.partners op d g).findSome? (fun p =>
    let m := w.member g p
    if 0x2000 ≤ m then some (3, p)
    else
      let e := w.peer m
      if !pValid e || pLctx e != x then some (3, p)
      else if (upto 8).any (fun q => bitOf (pMask e) q && w.portCls q != gvClass (w.groupE g)) then some (4, p)
      else none)

/-- The fields of a COLL and its descriptor against R365, but the overlaps: the lowest bit of the offending field. Log entry 43. -/
def Dev.collFault (w : Dev) (c : Cmd) (d : Nat) : Option Nat :=
  let op := lOp c.raw
  let g := lGroup c.raw
  let known := g ≤ 1023 ∧ w.groupSt g ≠ 0
  let n := gvN (w.groupE g)
  let cv := cdConv d
  let wf := fmtOf (cdWfmt d)
  let raws := [dSrc cv == 15, cdWfmt d == 15, dDst cv == 15]
  let scaled := (match fmtOf (dSrc cv) with | some f => f.scaled | none => false) || (cdWire d).scaled
    || (match fmtOf (dDst cv) with | some f => f.scaled | none => false)
  let p := cdPartcnt d
  let inner := if op = 3 then chunksIn d (n * p) else 0
  if wf = none ∨ wf = some .b32 ∨ wf = some .b64 then some 512
  else if isReduce op ∧ ¬(cdWfmt d ≤ 4) then some 512
  else if op = 6 ∧ cdWfmt d ≠ 4 then some 512
  else if op = 6 ∧ cdMax d = true then some 518
  else if op = 6 ∧ cdThrumIn d = 0 then some 832
  else if op = 6 ∧ cdThrumOut d = 0 then some 880
  else if (w.convCheck c.ctx cv 768 false).isSome then some 768
  else if raws.any id ∧ (raws.all id = false ∨ isReduce op = true) then some (if cdWfmt d = 15 then 512 else 768)
  else if p = 0 ∨ (scaled = true ∧ p % 32 ≠ 0) then some 800
  else if cdChunkKib d < 64 ∨ 4096 < cdChunkKib d then some 1000
  else if 2047 < chunksIn d p ∨ (known ∧ 2047 < inner) then some 800
  else if known ∧ cdDirect d = true ∧ 64 < n then some 516
  else if cdArrival d = true ∧ cdDirect d = false then some 517
  else if cdDirect d = false ∧ cdWorkKib d < 2 * cdChunkKib d then some 976
  else if known ∧ cdDirect d = true ∧ cdWorkKib d < 2 * (n - 1) * cdChunkKib d then some 976
  else if (op = 4 ∨ op = 5) ∧ known ∧ (n ≤ cdPeer d ∨ cdPeer d = gvPos (w.groupE g)) then some 544
  else match w.plait.lastSeq.find? (fun q => q.1 == g) with
    | some q =>
      let k := (lSeq c.raw + 2 ^ 32 - q.2) % 2 ^ 32
      if 1 ≤ k ∧ k ≤ 2 ^ 31 - 1 then none else some 200
    | none => none

/-- Bytes of a buffer of n elements. -/
def bufBytes (f : Fmt) (b n : Nat) : Nat := match f with | .n2t => ceilDiv n b * ceilDiv b 5 | f => f.bytes b n

/-- Elements of SRC and DST (Table 12.5). -/
def Dev.collSizes (w : Dev) (c : Cmd) (d : Nat) : Nat × Nat :=
  let p := cdPartcnt d
  let n := gvN (w.groupE (lGroup c.raw))
  match lOp c.raw with
  | 0 => (p, n * p)
  | 1 => (n * p, p)
  | 2 => (n * p, n * p)
  | 3 => (p, n * gvN (w.groupE (cdInner d)) * p)
  | 4 => (p, 0)
  | 5 => (0, p)
  | _ => (n * p, if cdRsOnly d then p else n * p)

/-- The translated ranges of a COLL, first address and bytes: SRC, DST, SSCALE, DSCALE, THRUM_IN, THRUM_OUT, WORK (R363);
ranges that the OP does not use are empty. -/
def Dev.collRanges (w : Dev) (c : Cmd) (d : Nat) : Except (Nat × Nat) (List (Nat × Nat)) := do
  let (ns, nd) := w.collSizes c d
  let cv := cdConv d
  let sf := cSrcFmt cv
  let df := cDstFmt cv
  let b := dBlk cv
  let one (a n : Nat) (k : Access) : Except (Nat × Nat) (Nat × Nat) :=
    if n = 0 then .ok (0, 0) else do
      let x ← w.xlate c.ctx c.segs a n k
      pure (x, n)
  let s ← one (cdSrc d) (bufBytes sf b ns) .read
  let t ← one (cdDst d) (bufBytes df b nd) .write
  let ss ← one (cdSscale d) (if sf.scaled then ceilDiv ns b else 0) .read
  let ds ← one (cdDscale d) (if df.scaled ∧ dScaleSrc cv ≠ 0 then ceilDiv nd b else 0) (if dScaleSrc cv = 3 then .read else .write)
  let six := lOp c.raw = 6
  let ti ← one (cdThrumIn d) (if six then 2 * ns else 0) .read
  let tou ← one (cdThrumOut d) (if six then 2 * ns else 0) .write
  let wk ← one (cdWork d) (cdWorkKib d * 1024) .write
  pure [s, t, ss, ds, ti, tou, wk]

/-- Two ranges of bytes meet; an empty one meets none. -/
def meets (a b : Nat × Nat) : Bool := a.2 != 0 && b.2 != 0 && decide (a.1 < b.1 + b.2) && decide (b.1 < a.1 + a.2)

/-- The overlaps of R365 on translated ranges. -/
def overlapFault (op : Nat) (r : List (Nat × Nat)) : Option Nat :=
  let g := fun i => r.getD i (0, 0)
  if meets (g 0) (g 1) && !(op == 2 && (g 0).1 == (g 1).1) then some 624
  else if meets (g 4) (g 5) && (g 4).1 != (g 5).1 then some 880
  else if (upto 6).any (fun i => meets (g 6) (g i)) then some 928
  else none

/-! ### Keys (R367) -/

/-- OP as the digest takes it: a RECV expects what a SEND forms (log entry 41). -/
def digestOp (op : Nat) : Nat := if op = 5 then 4 else op

/-- DIGEST of a COLL. Log entry 41. -/
def CollJob.digest (j : CollJob) : Nat :=
  let d := j.desc
  bits (srMix ((digestOp j.op + 16 * cdWfmt d + 256 * b2n (cdDirect d) + 512 * b2n (cdArrival d) + 1024 * b2n (cdMax d)
    + 2048 * b2n (cdRsOnly d) + 65536 * cdChunkKib d + 2 ^ 32 * cdPartcnt d) % 2 ^ 64)) 0 8

/-- KEY of a chunk (Table 12.6). -/
def CollJob.key (j : CollJob) (lv round chunk : Nat) : Nat :=
  j.grp lv * 2 ^ 48 + lv * 2 ^ 47 + j.seq % 1024 * 2 ^ 37 + j.digest * 2 ^ 29 + round % 2 ^ 18 * 2 ^ 11 + chunk % 2 ^ 11

/-- KEY of the abort notice of group g. -/
def abortKey (g : Nat) : Nat := g * 2 ^ 48 + 0x7FFFFFFFFFFF

/-! ### Jobs -/

/-- Replace the jobs. -/
def Work.setColls (l : List CollJob) (w : Work) : Work := { w with plait := { w.plait with jobs := l } }
/-- The job of a command. -/
def Dev.coll? (w : Dev) (id : Nat) : Option CollJob := w.plait.jobs.find? (fun j => j.id == id)
/-- Change the job of a command. -/
def Work.mapColl (id : Nat) (f : CollJob → CollJob) (w : Work) : Work :=
  w.setColls (w.plait.jobs.map (fun j => if j.id = id then f j else j))

/-- COLL_TMO of a group's class, in ns (R386). -/
def Dev.collTmo (w : Dev) (g : Nat) : Nat :=
  1000 * (match gvClass (w.groupE g) with
    | 0 => w.get Obj.collTmoShortUs
    | 1 => w.get Obj.collTmoHallUs
    | _ => w.get Obj.collTmoMetroUs)

/-- A chunk has been exchanged with an entry: the timeout of R386 starts anew. -/
def Work.exchanged (id n lv : Nat) (w : Work) : Work :=
  match w.coll? id with
  | some j =>
    let t := w.collTmo (j.grp lv)
    w.mapColl id (fun (q : CollJob) => { q with exch := (n, w.time, t) :: q.exch.filter (fun p => p.1 != n) })
  | none => w

/-- SOURCE of Plait's events for a COLL: the instance of its sessions' home die, IO0 when they lie on both (R369). -/
def Dev.plaitSource (w : Dev) (g : Nat) : Nat :=
  let e := w.groupE g
  let homes := (upto (gvN e)).filterMap (fun p =>
    let m := w.member g p
    if m < 0x2000 then (w.sess? m).map (fun s => s.home / 4) else none)
  0x2006 + (if homes.isEmpty || homes.contains 0 then 0 else 1)

/-- Landing slots that one sender may hold (R376). -/
def Dev.slotShare (w : Dev) (j : CollJob) : Nat :=
  let s := cdWorkKib j.desc / cdChunkKib j.desc
  if j.ring || j.op == 5 then s else s / max 1 (w.nAt j 0 - 1)

/-- ROUND and CHUNK of the idx-th chunk that a member sends this device, in (round, chunk) order. -/
def Dev.recvKey (w : Dev) (j : CollJob) (lv pos idx : Nat) : Nat × Nat :=
  let c := w.chunksAt j lv
  if j.op = 4 ∨ j.op = 5 then (0, idx)
  else if j.ring then (idx / c, idx % c)
  else
    let gather := j.op == 0 || decide (c ≤ idx)
    (pos + (if gather then 2 ^ 17 else 0), idx % c)

/-- Wire bytes of chunk c of a part at a level. -/
def Dev.chunkBytes (w : Dev) (j : CollJob) (lv c : Nat) : Nat :=
  wireBytes (cdWire j.desc) (chunkSpan j.desc (j.partLen (w.nAt j 0) lv) c).2

/-- Post receives for a sender's next chunks while slots are free (R376). -/
def Work.postFrom (id lv pos : Nat) : Nat → Work → Work
  | 0, w => w
  | k + 1, w =>
    match w.coll? id with
    | none => w
    | some j =>
      match j.rx.find? (fun r => r.lv == lv && r.pos == pos) with
      | none => w
      | some r =>
        let total := cdWorkKib j.desc / cdChunkKib j.desc
        let mine := (j.slots.filter (fun l => l.lv == lv && l.pos == pos)).length
        match (upto total).find? (fun s => !j.slots.any (fun l => l.slot == s)) with
        | some s =>
          if r.posted < r.total ∧ mine < w.slotShare j then
            let (round, chunk) := w.recvKey j lv pos r.posted
            let p : Posted := ⟨r.n, j.key lv round chunk, w.chunkBytes j lv chunk, id, s, j.work + s * cdChunkKib j.desc * 1024⟩
            let w := w.setNet (fun t => { t with posted := t.posted ++ [p] })
            let w := w.mapColl id (fun (q : CollJob) => { q with
              slots := q.slots ++ [⟨s, lv, pos, r.posted, false, 0⟩]
              rx := q.rx.map (fun (x : CollRx) => if x.lv = lv ∧ x.pos = pos then { x with posted := x.posted + 1 } else x) })
            Work.postFrom id lv pos k w
          else w
        | none => w

/-- Post what every sender's share of the slots allows. -/
def Work.postAll (id : Nat) (w : Work) : Work :=
  match w.coll? id with
  | some j => j.rx.foldl (fun w r => w.postFrom id r.lv r.pos (r.total - r.posted)) w
  | none => w

/-- Hand a chunk to Exbaene for a member. -/
def Work.sendChunk (id lv pos round chunk : Nat) (data : List Nat) (src : List (Nat × Nat)) (w : Work) : Work :=
  match w.coll? id with
  | none => w
  | some j =>
    match j.tx.find? (fun t => t.lv == lv && t.pos == pos) with
    | none => w
    | some t =>
      let key := j.key lv round chunk
      let tag := lv + 2 * pos
      let m := if src.isEmpty then msgOf t.n key 0 id tag (data.map (BitVec.ofNat 8)) else msgFrom t.n key 0 id tag src
      let w := w.queueMsg m
      w.mapColl id (fun (q : CollJob) => { q with
        tx := q.tx.map (fun (x : CollTx) => if x.lv = lv ∧ x.pos = pos then { x with sent := x.sent + 1 } else x) })

/-! ### Values -/

/-- A decoded value kept exactly. -/
def exactOf (v : Val) : Exact := match v with | .fin d => ⟨d.m, d.e, false⟩ | _ => ⟨0, 0, true⟩
/-- The value kept. -/
def Exact.val (x : Exact) : Val := if x.bad then .poison else .fin ⟨x.m, x.e⟩

/-- rnd of R370: the nearest normalised pair under RN; beyond the range it saturates. -/
def toPair (d : Dy) : Val × Conv :=
  let (c, k) := storeValue .w32p none false .rn 0 d
  (decodeW32P c, k)

/-- One pair addition. -/
def pairAdd (a b : Val) : Val × Conv :=
  match a, b with
  | .fin x, .fin y => toPair (x.add y)
  | _, _ => (.poison, Conv.none)

/-- REDOP of two values: the sum, or the larger without rounding. -/
def redOp (mx : Bool) (a b : Val) : Val × Conv :=
  if !mx then pairAdd a b else
  match a, b with
  | .fin x, .fin y => (.fin (if x.lt y then y else x), Conv.none)
  | _, _ => (.poison, Conv.none)

/-- REDOP element by element. -/
def redAll (mx : Bool) (a b : List Val) : List Val × Conv :=
  (a.zip b).foldl (fun (acc : List Val × Conv) p =>
    let (v, k) := redOp mx p.1 p.2
    (acc.1 ++ [v], acc.2.add k)) ([], Conv.none)

/-- Elements e0 … e0 + n - 1 of SRC, decoded, with the counts of reading (R364). -/
def Work.srcVals (w : Work) (j : CollJob) (e0 n : Nat) : List Val × Conv :=
  let cv := cdConv j.desc
  let f := cSrcFmt cv
  let b := dBlk cv
  let byte := fun k => (w.byte (j.src + k)).toNat
  let codes := (upto n).map (fun i => elemCode f b byte (e0 + i))
  let vals := codes.zipIdx.map (fun p =>
    loadVal f (if f.scaled then some (w.byte (j.ss + (e0 + p.2) / b)).toNat else none) p.1)
  let bad := match f with
    | .n2t => codeFaultBytes f b (fun k => byte (f.offset b e0 + k)) n
    | _ => 0
  (vals, (codes.foldl (fun k c => k.add (loadConv f c)) Conv.none).add (Conv.codeFaults bad))

/-- The carried remainders of n elements. -/
def Work.thrumVals (w : Work) (j : CollJob) (e0 n : Nat) : List Val :=
  (upto n).map (fun i => decodeW16 (w.readNat (j.tin + 2 * (e0 + i)) 2))

/-- This device's contribution: SRC, with THRUM_IN in a compressed exchange (R382). -/
def Work.contrib (w : Work) (j : CollJob) (e0 n : Nat) : List Val × Conv :=
  let (v, k) := w.srcVals j e0 n
  if j.op ≠ 6 then (v, k) else
  let (s, k2) := redAll false v (w.thrumVals j e0 n)
  (s, k.add k2)

/-- Wire bytes decoded. -/
def wireVals (f : Fmt) (bytes : List Nat) (n : Nat) : List Val :=
  let cb := wireCodes f n
  (upto n).map (fun i =>
    let s := if f.scaled then some (bytes.getD (cb + i / 32) 0) else none
    loadVal f s (elemCode f 32 (fun k => bytes.getD k 0) i))

/-- w(): values converted to the wire format, codes first and scales after (R370, R375); e0 is the first element's index in
the N × PARTCNT buffer. -/
def toWire (j : CollJob) (c : Cmd) (kind e0 : Nat) (vals : List Val) : List Nat × Conv :=
  let f := cdWire j.desc
  let cv := cdConv j.desc
  let mode := if j.op = 6 then Rnd.sr else pairMode (cSrcFmt cv) f (dMode cv c.rnd)
  let (codes, ss, k) := storeRow f 32 (if f.scaled then .block else .none) mode
    (fun i => srBits c.seed c.step 3 j.seq (2 ^ 40 * kind + e0 + i)) (fun _ => 0) vals
  let n := if f = .n2t then codes.length else vals.length
  (packCodes f 32 (codes.take n) ++ ss, k)

/-- The source's codes travel unchanged: the same format in blocks of 32 (R379). Log entry 43. -/
def CollJob.srcPlain (j : CollJob) : Bool :=
  let cv := cdConv j.desc
  let f := cSrcFmt cv
  f == cdWire j.desc && (!f.scaled || dBlk cv == 32)

/-- A landed chunk moves into DST unchanged. Log entry 43. -/
def CollJob.dstPlain (j : CollJob) : Bool :=
  let cv := cdConv j.desc
  let f := cDstFmt cv
  f == cdWire j.desc && (!f.scaled || (dBlk cv == 32 && dScaleSrc cv == 1))

/-- Device addresses of the codes and scales of n source elements. -/
def CollJob.srcRanges (j : CollJob) (e0 n : Nat) : List (Nat × Nat) :=
  let f := cdWire j.desc
  let codes := (j.src + f.offset 32 e0, wireCodes f n)
  if f.scaled then [codes, (j.ss + e0 / 32, ceilDiv n 32)] else [codes]

/-- The events of a conversion reach the context and the command; poison written under POISON_ACTION FAULT ends it (R63). -/
def Work.collConv (j : CollJob) (k : Conv) (w : Work) : Work :=
  let w := (w.countConv j.ctx k).gather j.id k.flags
  if k.poisoned && w.get (Obj.poisonAction j.ctx) == 1 then
    w.mapColl j.id (fun (q : CollJob) => { q with fail := q.fail.or (some (0x0411, 0)) })
  else w

/-- Values written to DST through CONV (R370, R375 kind 2): e is the first element in DST, lane its index for the
generator. Log entry 43. -/
def Work.toDst (j : CollJob) (c : Cmd) (e lane : Nat) (vals : List Val) (w : Work) : Work :=
  let cv := cdConv j.desc
  let f := cDstFmt cv
  let b := dBlk cv
  let src := capSrc cv j.cap
  let mode := pairMode (cdWire j.desc) f (dMode cv c.rnd)
  let (codes, ss, k) := storeRow f b src mode (fun i => srBits c.seed c.step 3 j.seq (2 ^ 41 + lane + i))
    (fun i => (w.byte (j.ds + e / b + i)).toNat) vals
  let n := if f = .n2t then codes.length else vals.length
  let w := w.engWrite j.ctx (j.dst + f.offset b e) ((packCodes f b (codes.take n)).map (BitVec.ofNat 8))
  let w := if f.scaled ∧ src ≠ .plane ∧ src ≠ .none then w.engWrite j.ctx (j.ds + e / b) (ss.map (BitVec.ofNat 8)) else w
  let w := w.collConv j k
  if dScaleSrc cv = 2 then w.hoopReport j.ctx (dTslot cv) k else w

/-- Wire bytes of n elements written to DST: moved, or decoded and converted (R372, R376). -/
def Work.wireToDst (j : CollJob) (c : Cmd) (e n : Nat) (bytes : List Nat) (w : Work) : Work :=
  let f := cdWire j.desc
  if j.dstPlain then
    let cb := wireCodes f n
    let w := w.engWrite j.ctx (j.dst + f.offset 32 e) ((bytes.take cb).map (BitVec.ofNat 8))
    if f.scaled then w.engWrite j.ctx (j.ds + e / 32) ((bytes.drop cb).map (BitVec.ofNat 8)) else w
  else w.toDst j c e e (wireVals f bytes n)

/-- Remainders written to THRUM_OUT, with the largest magnitude (R382). -/
def Work.thrumOut (j : CollJob) (e0 : Nat) (vals : List Val) (w : Work) : Work :=
  let (codes, k) := storeBlock .w16 none false .rn (fun _ => 0) vals
  let top := codes.foldl (fun (a : Dy) c => match decodeW16 c with | .fin d => a.max d.abs | _ => a) Dy.zero
  let w := w.engWrite j.ctx (j.tout + 2 * e0) (codes.flatMap (fun c => leBytes c 2))
  let w := w.put (Obj.c4ResidMax j.ctx) (max (w.get (Obj.c4ResidMax j.ctx)) (toW32 .rn 0 top))
  w.collConv j { k with elems := 0, finite := 0 }

/-- The difference of two values. -/
def valSub (a b : Val) : Val := match a, b with | .fin x, .fin y => .fin (x.sub y) | _, _ => .poison

/-- A conversion to the wire, with its remainders in a compressed exchange (R382). -/
def Work.compress (j : CollJob) (c : Cmd) (kind e0 : Nat) (vals : List Val) (w : Work) : List Nat × Work :=
  let (y, k) := toWire j c kind e0 vals
  let w := w.collConv j k
  if j.op ≠ 6 then (y, w) else
  let back := wireVals (cdWire j.desc) y vals.length
  (y, w.thrumOut j e0 ((vals.zip back).map (fun p => valSub p.1 p.2)))

/-- Elements merged by a core (R377, Table 12.7) count in MERGE_ELEMS; with NPB = 0 the merge tiles' time counts in
CORE_TIME_NS (R378). Log entry 43. -/
def Work.merged (j : CollJob) (c : Cmd) (n wt : Nat) (w : Work) : Work :=
  let w := w.bump (Obj.mergeElems j.ctx) n
  if cNpb c.raw ≠ 0 then w else
  let groups := ceilDiv n 32
  let tiles := ceilDiv groups (640 / wt)
  let f := w.get (Obj.freqNowMhz c.home)
  w.bump (Obj.coreTimeNs j.ctx) (if f = 0 then 0 else (groups * wt + tiles * 16) * 1000 / f)

/-! ### The algorithms -/

/-- Bytes that a job's landing slot holds. -/
def Work.landed (w : Work) (j : CollJob) (l : Landing) : List Nat :=
  let (_, chunk) := w.recvKey j l.lv l.pos l.idx
  (w.read (j.work + l.slot * cdChunkKib j.desc * 1024) (w.chunkBytes j l.lv chunk)).map BitVec.toNat

/-- The end of a reduction's own part, one chunk (R370, R371, R382): REDUCE_SCATTER and RS_ONLY write it through CONV;
otherwise the owner converts once, writes its part from the wire codes and sends them for the gather. -/
def Work.ownPart (j : CollJob) (c : Cmd) (chunk : Nat) (vals : List Val) (w : Work) : Work :=
  let n := w.nAt j 0
  let i := w.posAt j 0
  let p := cdPartcnt j.desc
  let (o, len) := chunkSpan j.desc p chunk
  if j.op = 1 then w.toDst j c o (i * p + o) vals
  else if j.op = 6 ∧ cdRsOnly j.desc = true then
    (w.toDst j c o (i * p + o) vals).engWrite j.ctx (j.tout + 2 * (i * p + o)) (List.replicate (2 * len) 0#8)
  else
    let (y, w) := w.compress j c 1 (i * p + o) vals
    let w := w.wireToDst j c (i * p + o) len y
    if j.ring then (if n ≤ 1 then w else w.sendChunk j.id 0 ((i + 1) % n) (n - 1) chunk y [])
    else (upto n).foldl (fun w q => if q = i then w else w.sendChunk j.id 0 q (i + 2 ^ 17) chunk y []) w

/-- Add this device's contribution to the DIRECT sum of an own chunk when its turn has come; when every member is in, the own
part is done. FIXED adds in ascending position, this device's own at its place (log entry 42). -/
def Work.directOwn (id chunk : Nat) (c : Cmd) (w : Work) : Work :=
  match w.coll? id with
  | none => w
  | some j =>
    let n := w.nAt j 0
    let i := w.posAt j 0
    let p := cdPartcnt j.desc
    let (o, len) := chunkSpan j.desc p chunk
    let cur := (j.acc.find? (fun a => a.1 == chunk)).map (fun a => a.2)
    let added := match cur with | some a => a.1 | none => []
    let vals := match cur with | some a => a.2.map Exact.val | none => []
    let turn := !added.contains i && (cdArrival j.desc || (upto i).all (fun q => added.contains q))
    let (added, vals, w) := if turn then
        let (x, k) := w.contrib j (i * p + o) len
        let (s, k2) := if added.isEmpty then (x, Conv.none) else redAll (cdMax j.desc) vals x
        (i :: added, s, w.collConv j (k.add k2))
      else (added, vals, w)
    if added.length = n then
      let w := w.mapColl id (fun (q : CollJob) => { q with acc := q.acc.filter (fun a => a.1 != chunk) })
      w.ownPart j c chunk vals
    else w.mapColl id (fun (q : CollJob) => { q with acc := (chunk, added, vals.map exactOf) :: q.acc.filter (fun a => a.1 != chunk) })

/-- A landed contribution may be added now: FIXED waits for every lower position. Log entry 42. -/
def Dev.directReady (w : Dev) (j : CollJob) (pos chunk : Nat) : Bool :=
  let added := match j.acc.find? (fun a => a.1 == chunk) with | some a => a.2.1 | none => []
  let i := w.posAt j 0
  cdArrival j.desc || (upto pos).all (fun q => added.contains q || (q == i && (upto q).all (fun r => added.contains r)))

/-- Add a landed contribution to the DIRECT sum of an own chunk. Log entry 42. -/
def Work.directAdd (id pos chunk : Nat) (c : Cmd) (v : List Val) (w : Work) : Work :=
  let w := w.directOwn id chunk c
  match w.coll? id with
  | none => w
  | some j =>
    let cur := (j.acc.find? (fun a => a.1 == chunk)).map (fun a => a.2)
    let added := match cur with | some a => a.1 | none => []
    let vals := match cur with | some a => a.2.map Exact.val | none => []
    let (s, k) := if added.isEmpty then (v, Conv.none) else redAll (cdMax j.desc) vals v
    let w := w.collConv j k
    let w := w.mapColl id (fun (q : CollJob) => { q with
      acc := (chunk, pos :: added, s.map exactOf) :: q.acc.filter (fun a => a.1 != chunk) })
    w.directOwn id chunk c

/-- The wire bytes of element e of the outer slice: its code's chunk. Answers the chunk's values by position. -/
def CollJob.sliceBytes (j : CollJob) (e n : Nat) : Option (List Nat) :=
  let f := cdWire j.desc
  let p := cdPartcnt j.desc
  let ce := chunkElems j.desc
  let piece := fun k =>
    let part := (e + k) / p
    let ch := (e + k) % p / ce
    (j.wire.find? (fun a => a.1 == part && a.2.1 == ch)).map (fun a =>
      (a.2.2, (e + k) % p - ch * ce, (chunkSpan j.desc p ch).2))
  let all := (upto n).map piece
  if all.all (fun x => x.isSome) then
    let code := fun k => match (all.getD k none) with
      | some (bs, i, _) => elemCode f 32 (fun b => bs.getD b 0) i
      | none => 0
    let scale := fun k => match (all.getD (32 * k) none) with
      | some (bs, i, len) => bs.getD (wireCodes f len + i / 32) 0
      | none => 0
    let codes := (upto n).map code
    let codes := if f = .n2t then codes ++ List.replicate ((32 - n % 32) % 32) 1 else codes
    some (packCodes f 32 codes ++ (if f.scaled then (upto (ceilDiv n 32)).map scale else []))
  else none

/-- A PARAM_GATHER sends the next chunks of its outer slice on the inner ring as soon as they are whole (R381). -/
def Work.innerSend (id : Nat) : Nat → Work → Work
  | 0, w => w
  | k + 1, w =>
    match w.coll? id with
    | none => w
    | some j =>
      let n := w.nAt j 1
      let len := j.partLen (w.nAt j 0) 1
      if j.op ≠ 3 ∨ n ≤ 1 ∨ chunksIn j.desc len ≤ j.inSent then w else
      let (o, m) := chunkSpan j.desc len j.inSent
      match j.sliceBytes o m with
      | none => w
      | some y =>
        let w := w.sendChunk id 1 ((w.posAt j 1 + 1) % n) 0 j.inSent y []
        Work.innerSend id k (w.mapColl id (fun (q : CollJob) => { q with inSent := q.inSent + 1 }))

/-- A part chunk of the outer slice is here: kept for the inner ring, and sent on as far as it is whole. -/
def Work.sliceGot (id part chunk : Nat) (y : List Nat) (w : Work) : Work :=
  let w := w.mapColl id (fun (q : CollJob) => { q with wire := q.wire ++ [(part, chunk, y)] })
  w.innerSend id 2048

/-- First element in DST of a part of a gather at a level (R364, R381). -/
def Dev.partBase (w : Dev) (j : CollJob) (lv part : Nat) : Nat :=
  let p := cdPartcnt j.desc
  if j.op = 3 then (if lv = 0 then (w.posAt j 1 * w.nAt j 0 + part) * p else part * w.nAt j 0 * p)
  else if j.op = 5 then 0 else part * p

/-- The part and the round of the gather that the idx-th chunk from a member carries: none in a reduce phase. Log entry 43. -/
def Dev.gatherPart (w : Dev) (j : CollJob) (lv pos idx : Nat) : Option (Nat × Nat) :=
  let n := w.nAt j lv
  let i := w.posAt j lv
  let r := idx / w.chunksAt j lv
  if j.op = 5 then some (0, 0)
  else if j.ring then
    if j.op = 1 ∨ (j.op = 6 ∧ cdRsOnly j.desc = true) then none
    else if isReduce j.op then (if r + 2 ≤ n then none else some ((i + n - (r + 2 - n)) % n, r + 2 - n))
    else some ((i + n - (r + 1)) % n, r + 1)
  else if j.op = 0 then some (pos, 1)
  else if isReduce j.op && r == 0 then none
  else some (pos, 1)

/-- Elements of a landed chunk, and the core cycles of its work per 32 elements: 0 when the instance moves it itself
(Table 12.7). -/
def Dev.landWork (w : Dev) (j : CollJob) (l : Landing) : Nat × Nat :=
  let (_, chunk) := w.recvKey j l.lv l.pos l.idx
  let len := (chunkSpan j.desc (j.partLen (w.nAt j 0) l.lv) chunk).2
  match w.gatherPart j l.lv l.pos l.idx with
  | some _ => (len, if j.dstPlain then 0 else 1)
  | none => (len, if j.op = 6 then 2 else 1)

/-- The work of a landed chunk (R370, R371, R382): merge, conversion or move, and the next send. -/
def Work.doChunk (id : Nat) (l : Landing) (c : Cmd) (w : Work) : Work :=
  match w.coll? id with
  | none => w
  | some j =>
    let n := w.nAt j l.lv
    let i := w.posAt j l.lv
    let p := cdPartcnt j.desc
    let y := w.landed j l
    let (round, chunk) := w.recvKey j l.lv l.pos l.idx
    let (o, len) := chunkSpan j.desc (j.partLen (w.nAt j 0) l.lv) chunk
    let (_, wt) := w.landWork j l
    let w := if wt = 0 then w else w.merged j c len wt
    match w.gatherPart j l.lv l.pos l.idx with
    | some (part, t) =>
      let w := w.wireToDst j c (w.partBase j l.lv part + o) len y
      let w := if j.ring && j.op != 5 && decide (t + 1 < n) then w.sendChunk id l.lv ((i + 1) % n) (round + 1) chunk y [] else w
      if j.op = 3 ∧ l.lv = 0 then w.sliceGot id part chunk y else w
    | none =>
      let v := wireVals (cdWire j.desc) y len
      if j.ring then
        let q := (i + 2 * n - round - 2) % n
        let (x, k) := w.contrib j (q * p + o) len
        let (s, k2) := redAll (cdMax j.desc) v x
        let w := w.collConv j (k.add k2)
        if round + 2 < n then
          let (y, w) := w.compress j c 0 (q * p + o) s
          w.sendChunk id 0 ((i + 1) % n) (round + 1) chunk y []
        else w.ownPart j c chunk s
      else w.directAdd id l.pos chunk c v

/-- A landed chunk's slot frees, and receives are posted for the next chunks (R376). -/
def Work.freeSlot (id : Nat) (l : Landing) (w : Work) : Work :=
  let w := w.mapColl id (fun (q : CollJob) => { q with
    slots := q.slots.filter (fun s => s.slot != l.slot)
    rx := q.rx.map (fun (r : CollRx) => if r.lv = l.lv ∧ r.pos = l.pos then { r with done := r.done + 1 } else r) })
  w.postAll id

/-! ### Completion and breaking (R380, R387 to R389) -/

/-- A COLL is complete (R380). -/
def Dev.collDone (w : Dev) (j : CollJob) : Bool :=
  j.rx.all (fun r => decide (r.total ≤ r.done)) && j.tx.all (fun t => decide (t.total ≤ t.sent)) && j.slots.isEmpty
    && j.sect.isNone && !w.net.msgs.any (fun m => m.user == 0 && m.ref == j.id && !w.msgAccepted m)

/-- End a COLL whose work is over. -/
def Work.collEnd (id : Nat) (w : Work) : Work :=
  match w.coll? id with
  | none => w
  | some j =>
    if w.collDone j then
      let w := w.setColls (w.plait.jobs.filter (fun q => q.id != id))
      match j.fail with
      | some (st, d) => w.finishCmd id st d
      | none => (w.bump (Obj.collDone j.ctx) 1).finishCmd id 0 0
    else w

/-- Every COLL whose work is over ends. -/
def Work.collSweep (w : Work) : Work := w.plait.jobs.foldl (fun w j => w.collEnd j.id) w

/-- A COLL ends with a status: nothing more is sent, received or claimed; a section that holds a core runs to its end
first (R388). -/
def Work.collStop (id st det : Nat) (w : Work) : Work :=
  match w.coll? id with
  | none => w
  | some j =>
    let w := w.withdraw 0 id
    let run := match j.sect with
      | some s => w.sched.sections.any (fun q => q.id == s && q.core.isSome)
      | none => false
    let w := if run then w else
      match j.sect with
      | some s => (w.setSections (w.sched.sections.filter (fun q => q.id != s))).rotation
      | none => w
    let w := w.mapColl id (fun (q : CollJob) =>
      { q with rx := [], tx := [], slots := [], acc := [], wire := [], sect := if run then q.sect else none, fail := some (st, det) })
    w.collEnd id

/-- Where n elements of DST from element e lie that a COLL writes: codes, and scales unless they are read from DSCALE. -/
def CollJob.dstSpan (j : CollJob) (e n : Nat) : List (Nat × Nat) :=
  let cv := cdConv j.desc
  let f := cDstFmt cv
  let b := dBlk cv
  (j.dst + f.offset b e, f.bytes b n)
    :: (if f.scaled ∧ 1 ≤ dScaleSrc cv ∧ dScaleSrc cv ≤ 2 then [(j.ds + e / b, ceilDiv n b)] else [])

/-- What a COLL's receives have still to bring, a round at a time: level and, of a gather, the part; of a reduction, none and
its round. Log entry 34. -/
def Dev.openRounds (w : Dev) (j : CollJob) : List (Nat × Nat × Option Nat) :=
  j.rx.flatMap (fun r =>
    let c := max 1 (w.chunksAt j r.lv)
    ((upto (ceilDiv r.total c)).filter (fun k => decide (r.done < min r.total ((k + 1) * c)))).map (fun k =>
      (r.lv, k, (w.gatherPart j r.lv r.pos (k * c)).map (fun q => q.1))))

/-- The bytes of DST, DSCALE and THRUM_OUT of every part that is not complete (R388). A part is complete when all that the COLL
writes of it is written. Log entry 34. -/
def Dev.openRanges (w : Dev) (j : CollJob) : List (Nat × Nat) :=
  let n := w.nAt j 0
  let i := w.posAt j 0
  let p := cdPartcnt j.desc
  let rounds := w.openRounds j
  let rsOnly := j.op == 6 && cdRsOnly j.desc
  let gather : List (Nat × Nat) := (rounds.filterMap (fun r => r.2.2.map (fun q => (w.partBase j r.1 q, j.partLen n r.1)))).eraseDups
  let own := isReduce j.op && rounds.any (fun r => r.2.2.isNone)
  let dst : List (Nat × Nat) := gather ++ (if own then [(if j.op = 1 ∨ rsOnly = true then 0 else i * p, p)] else [])
  let thrum : List (Nat × Nat) := if j.op ≠ 6 then [] else
    if rsOnly then
      (if own then [(i * p, p)] else []) ++ (if j.ring then
        (rounds.filter (fun r => decide (r.2.1 + 2 < n))).map (fun r => ((i + 2 * n - r.2.1 - 2) % n * p, p)) else [])
    else dst
  let all : List (Nat × Nat) := dst.flatMap (fun (q : Nat × Nat) => j.dstSpan q.1 q.2)
    ++ thrum.map (fun (q : Nat × Nat) => (j.tout + 2 * q.1, 2 * q.2))
  all.filter (fun r => decide (0 < r.2))

/-- The break of a group leaves those bytes undefined (R388): free values, in device memory. Log entry 34. -/
def Work.undefine (j : CollJob) (w : Work) : Work :=
  (w.openRanges j).foldl (fun (w : Work) r =>
    if isHost r.1 then w else
    let (d, w) := w.freeBytes r.2
    w.engWrite j.ctx r.1 d) w

/-- A job names group g. -/
def CollJob.names (j : CollJob) (g : Nat) : Bool := j.group == g || (j.op == 3 && j.inner == g)

/-- GROUP_BROKEN (R388, R389), log entry 34: cause and rank; the original cause an abort notice carries; the entries that are skipped. -/
def Work.breakGroup (g cause rank orig : Nat) (skip : List Nat) (w : Work) : Work :=
  if w.groupSt g ≠ 1 then w else
  let e := w.groupE g
  let x := gvCtx e
  let det := cause * 2 ^ 28 + rank % 2 ^ 17
  let src := w.plaitSource g
  let w := (w.blobPut .active Obj.groupState g 2 1).blobPut .active Obj.groupLost (4 * g) det 4
  let w := ((w.event 0x0701 x src g).event 0x0710 x src det).bump (Obj.peerLostCount x) 1
  let w := (w.plait.jobs.filter (fun j => j.names g)).foldl (fun w j => (w.undefine j).collStop j.id 0x0710 det) w
  if w.get Obj.abortRelay ≠ 1 ∨ cause = 5 then w else
  let body := leBytes rank 4 ++ leBytes orig 4 ++ leBytes (w.get (Obj.ownRank x)) 4 ++ List.replicate 20 0#8
  let es := sortNat (((upto (gvN e)).map (fun p => w.member g p)).filter (fun m => decide (m < 0x2000)))
  es.foldl (fun w n =>
    if w.peerSt n = 3 ∧ skip.contains n = false then
      (w.queueMsg (msgOf n (abortKey g) 1 g 0 body)).bump (Obj.relaysSent x) 1
    else w) w

/-- Groups in force that a VALID entry of a context could serve. -/
def Dev.groupsOf (w : Dev) (n : Nat) : List Nat :=
  let gs := sortNat ((blobOf w.blob Obj.groupTable).map (fun p => p.1 % 0x100000000 / 32))
  gs.filter (fun g => gvValid (w.groupE g) && (upto (gvN (w.groupE g))).any (fun p => w.member g p == n))

/-- The session of entry n has gone (R387 cause 1, or 5 by a commit for a COLL in flight that uses it): groups break. -/
def Work.plaitGone (n cause : Nat) (w : Work) : Work :=
  let rank := pRank (w.peer n)
  (w.groupsOf n).foldl (fun w g =>
    if cause = 5 then
      (if w.plait.jobs.any (fun j => j.names g && (j.rx.any (fun r => r.n == n) || j.tx.any (fun t => t.n == n))) then
        w.breakGroup g 5 rank 5 [n] else w)
    else w.breakGroup g cause rank cause [n]) w

/-! ### Starting a COLL -/

/-- What a COLL receives and sends (R376). -/
def Dev.collPlan (w : Dev) (j : CollJob) : List CollRx × List CollTx :=
  let ringAt := fun (lv rounds : Nat) =>
    let g := j.grp lv
    let n := w.nAt j lv
    let i := w.posAt j lv
    let c := w.chunksAt j lv
    if n ≤ 1 then ([], []) else
    ([CollRx.mk lv ((i + n - 1) % n) (w.member g ((i + n - 1) % n)) (rounds * c) 0 0 0],
     [CollTx.mk lv ((i + 1) % n) (w.member g ((i + 1) % n)) (rounds * c) 0 0])
  let n := w.nAt j 0
  let i := w.posAt j 0
  let c := w.chunksAt j 0
  let half := j.op == 1 || (j.op == 6 && cdRsOnly j.desc)
  if j.op = 4 then ([], [⟨0, cdPeer j.desc, w.member j.group (cdPeer j.desc), c, 0, 0⟩])
  else if j.op = 5 then ([⟨0, cdPeer j.desc, w.member j.group (cdPeer j.desc), c, 0, 0, 0⟩], [])
  else if j.op = 3 then
    let a := ringAt 0 (n - 1)
    let b := ringAt 1 (w.nAt j 1 - 1)
    (a.1 ++ b.1, a.2 ++ b.2)
  else if j.ring then ringAt 0 (if isReduce j.op && !half then 2 * (n - 1) else n - 1)
  else
    let k := if isReduce j.op && !half then 2 * c else c
    let os := (upto n).filter (fun q => q != i)
    (os.map (fun q => CollRx.mk 0 q (w.member j.group q) k 0 0 0), os.map (fun q => CollTx.mk 0 q (w.member j.group q) k 0 0))

/-- A source part, chunk by chunk, on the wire to some members: unchanged codes are read from memory as they are sent. Log entry 43. -/
def Work.sendSource (j : CollJob) (c : Cmd) (chunk e0 lane len round : Nat) (dst : List Nat) (w : Work) : Work :=
  if j.srcPlain then dst.foldl (fun w q => w.sendChunk j.id 0 q round chunk [] (j.srcRanges e0 len)) w
  else
    let (v, k) := w.srcVals j e0 len
    let (y, k2) := toWire j c 1 lane v
    let w := w.collConv j (k.add k2)
    dst.foldl (fun w q => w.sendChunk j.id 0 q round chunk y []) w

/-- The first sends of a COLL, and the work that needs no other member. -/
def Work.collBegin (j : CollJob) (c : Cmd) (w : Work) : Work :=
  let n := w.nAt j 0
  let i := w.posAt j 0
  let p := cdPartcnt j.desc
  let cs := w.chunksAt j 0
  let others := (upto n).filter (fun q => q != i)
  let wireOf := fun (w : Work) (o lane len : Nat) =>
    if j.srcPlain then ((j.srcRanges o len).flatMap (fun r => (w.read r.1 r.2).map BitVec.toNat), w)
    else
      let (v, k) := w.srcVals j o len
      let (y, k2) := toWire j c 1 lane v
      (y, w.collConv j (k.add k2))
  if j.op = 4 then forUpto (fun k w => let (o, len) := chunkSpan j.desc p k
                                       w.sendSource j c k o o len 0 [cdPeer j.desc]) cs w
  else if j.op = 5 then w
  else if j.op = 0 ∨ j.op = 3 then
    forUpto (fun k w =>
      let (o, len) := chunkSpan j.desc p k
      let base := w.partBase j 0 i + o
      let (y, w) := wireOf w o base len
      let w := w.wireToDst j c base len y
      let w := if n ≤ 1 then w
        else if j.ring then w.sendChunk j.id 0 ((i + 1) % n) 0 k y []
        else others.foldl (fun w q => w.sendChunk j.id 0 q (i + 2 ^ 17) k y []) w
      if j.op = 3 then w.sliceGot j.id i k y else w) cs w
  else if n ≤ 1 then
    forUpto (fun k w =>
      let (o, len) := chunkSpan j.desc p k
      let (x, e) := w.contrib j o len
      (w.collConv j e).ownPart j c k x) cs w
  else if j.ring then
    let q := (i + n - 1) % n
    forUpto (fun k w =>
      let (o, len) := chunkSpan j.desc p k
      let (x, e) := w.contrib j (q * p + o) len
      let (y, w) := (w.collConv j e).compress j c 0 (q * p + o) x
      w.sendChunk j.id 0 ((i + 1) % n) 0 k y []) cs w
  else
    let w := others.foldl (fun w q => forUpto (fun k w =>
      let (o, len) := chunkSpan j.desc p k
      let (x, e) := w.contrib j (q * p + o) len
      let (y, w) := (w.collConv j e).compress j c 0 (q * p + o) x
      w.sendChunk j.id 0 q i k y []) cs w) w
    forUpto (fun k w => if cdArrival j.desc then w else w.directOwn j.id k c) cs w

/-- Start a COLL (R363, R365, R366): its descriptor, its checks, its ranges, then its first sends and receives. Log entry 43. -/
def Work.startColl (c : Cmd) (w : Work) : Work :=
  let id := c.id
  match w.xlate c.ctx c.segs (lCdesc c.raw) 64 .read with
  | .error (st, d) => w.finishCmd id st d
  | .ok a =>
    let d := w.readNat a 64
    let op := lOp c.raw
    let g := lGroup c.raw
    match w.collFault c d with
    | some b => w.finishCmd id 0x0211 b
    | none =>
      match (w.groupFault c.ctx op d g).or (if op = 3 then w.groupFault c.ctx op d (cdInner d) else none) with
      | some (r, p) => w.finishCmd id 0x0712 (r * 2 ^ 28 + p)
      | none =>
        match w.collRanges c d with
        | .error (st, t) => w.finishCmd id st t
        | .ok rs =>
          match overlapFault op rs with
          | some b => w.finishCmd id 0x0211 b
          | none =>
            let lost := if w.groupSt g = 2 then some g
              else if op = 3 ∧ w.groupSt (cdInner d) = 2 then some (cdInner d) else none
            match lost with
            | some q => w.finishCmd id 0x0710 (w.blobNat .active Obj.groupLost (4 * q) 4)
            | none =>
              let r := fun k => (rs.getD k (0, 0)).1
              let cap := if dScaleSrc (cdConv d) = 2 then w.slotCap c.ctx (dTslot (cdConv d)) else 256
              let j : CollJob := ⟨id, c.ctx, g, cdInner d, op, d, lSeq c.raw, cap, r 0, r 1, r 2, r 3, r 4, r 5, r 6, [], [],
                [], [], [], 0, w.time, w.get Obj.collFirstMs * 1000000, [], none, none⟩
              let (rx, tx) := w.collPlan j
              let j := { j with rx := rx, tx := tx }
              let w := { w with plait := { w.plait with
                jobs := w.plait.jobs ++ [j]
                lastSeq := (g, lSeq c.raw) :: w.plait.lastSeq.filter (fun q => q.1 != g) } }
              let w := w.mapCmd id (fun (c : Cmd) => { c with begun := true })
              ((w.collBegin j c).postAll id).collEnd id

/-- A COLL row: the command in flight whose OP is the row's starts. -/
def Work.collRow (id op : Nat) (w : Work) : Work :=
  match w.running id 0x40 with
  | some c => if c.begun ∨ lOp c.raw ≠ op then w else w.startColl c
  | none => w

/-- ALL_GATHER (R364, R370, R371). -/
def opAllGather (id : Nat) (w : Work) : Work := w.collRow id 0
def execAllGather (id : Nat) (s : State) : Host.Outcome State Fault Refusal := s.run (opAllGather id)
/-- REDUCE_SCATTER. -/
def opReduceScatter (id : Nat) (w : Work) : Work := w.collRow id 1
def execReduceScatter (id : Nat) (s : State) : Host.Outcome State Fault Refusal := s.run (opReduceScatter id)
/-- ALL_REDUCE. -/
def opAllReduce (id : Nat) (w : Work) : Work := w.collRow id 2
def execAllReduce (id : Nat) (s : State) : Host.Outcome State Fault Refusal := s.run (opAllReduce id)
/-- PARAM_GATHER (R381). -/
def opParamGather (id : Nat) (w : Work) : Work := w.collRow id 3
def execParamGather (id : Nat) (s : State) : Host.Outcome State Fault Refusal := s.run (opParamGather id)
/-- SEND (R385). -/
def opSend (id : Nat) (w : Work) : Work := w.collRow id 4
def execSend (id : Nat) (s : State) : Host.Outcome State Fault Refusal := s.run (opSend id)
/-- RECV (R385). -/
def opRecv (id : Nat) (w : Work) : Work := w.collRow id 5
def execRecv (id : Nat) (s : State) : Host.Outcome State Fault Refusal := s.run (opRecv id)
/-- ALL_REDUCE_C4 (R382). -/
def opAllReduceC4 (id : Nat) (w : Work) : Work := w.collRow id 6
def execAllReduceC4 (id : Nat) (s : State) : Host.Outcome State Fault Refusal := s.run (opAllReduceC4 id)

/-! ### Chunks -/

/-- A message has filled a job's slot: the chunk has landed. -/
def Work.chunkLanded (p : Posted) (w : Work) : Work :=
  match w.coll? p.ref with
  | none => w
  | some j =>
    match j.slots.find? (fun l => l.slot == p.tag) with
    | none => w
    | some l =>
      let w := w.mapColl p.ref (fun (q : CollJob) => { q with
        slots := q.slots.map (fun (s : Landing) => if s.slot = l.slot then { s with landed := true } else s)
        rx := q.rx.map (fun (r : CollRx) => if r.lv = l.lv ∧ r.pos = l.pos then { r with landed := r.landed + 1 } else r) })
      w.exchanged p.ref p.n l.lv

/-- A chunk is DELIVERED. -/
def Work.chunkDelivered (m : TxMsg) (w : Work) : Work :=
  let lv := m.tag % 2
  let pos := m.tag / 2
  let w := w.mapColl m.ref (fun (q : CollJob) => { q with
    tx := q.tx.map (fun (t : CollTx) => if t.lv = lv ∧ t.pos = pos then { t with delivered := t.delivered + 1 } else t) })
  (w.exchanged m.ref m.n lv).collEnd m.ref

/-- A landed chunk may be worked on: the chunks of its sender before it are done, and its turn has come in a DIRECT sum. -/
def Dev.chunkReady (w : Dev) (j : CollJob) (l : Landing) : Bool :=
  l.landed && (match j.rx.find? (fun r => r.lv == l.lv && r.pos == l.pos) with | some r => r.done == l.idx | none => false)
    && (j.ring || j.op == 5 || (w.gatherPart j l.lv l.pos l.idx).isSome
        || w.directReady j l.pos (w.recvKey j l.lv l.pos l.idx).2)

/-- Claim a section for the COLL unless it has one (R379). -/
def Work.collSection (j : CollJob) (c : Cmd) (w : Work) : Work :=
  if j.sect.isSome then w else
  let (s, w) := w.claimSection 0 j.id j.ctx c.home c.cls (cNpb c.raw)
  w.mapColl j.id (fun (q : CollJob) => { q with sect := some s })

/-- PLAIT_CHUNK_LAND (R376, R378, R379): the work of a landed chunk; with NPB ≠ 0, work for a core waits for a section. -/
def opPlaitChunkLand (id slot : Nat) (w : Work) : Work :=
  match w.coll? id, w.cmd? id with
  | some j, some c =>
    match j.slots.find? (fun l => l.slot == slot) with
    | none => w
    | some l =>
      if w.chunkReady j l = false ∨ c.done.isSome then w
      else if cNpb c.raw ≠ 0 ∧ (w.landWork j l).2 ≠ 0 then w.collSection j c
      else ((w.doChunk id l c).freeSlot id l).collEnd id
  | _, _ => w

def execPlaitChunkLand (id slot : Nat) (s : State) : Host.Outcome State Fault Refusal := s.run (opPlaitChunkLand id slot)

/-- Merges of a section within its budget of 32-element groups' cycles (R379): the first chunks that are ready. -/
def Work.mergeIn (id : Nat) (c : Cmd) : Nat → Nat → Work → Work
  | 0, _, w => w
  | k + 1, cyc, w =>
    match w.coll? id with
    | none => w
    | some j =>
      match j.slots.find? (fun l => w.chunkReady j l && (w.landWork j l).2 != 0) with
      | none => w
      | some l =>
        let (len, wt) := w.landWork j l
        let can := 32 * (cyc / wt)
        if len ≤ l.done + can then
          let used := ceilDiv (len - l.done) 32 * wt
          Work.mergeIn id c k (cyc - used) ((w.doChunk id l c).freeSlot id l)
        else w.mapColl id (fun (q : CollJob) => { q with
          slots := q.slots.map (fun (s : Landing) => if s.slot = l.slot then { s with done := s.done + can } else s) })

/-- The phase of a COLL's section (R379): it merges what its bound allows; what is left claims another section. -/
def Work.collSectionEnd (id bound freq : Nat) (w : Work) : Work :=
  match w.coll? id, w.cmd? id with
  | some j, some c =>
    let w := (w.bump (Obj.sections j.ctx) 1).mapColl id (fun (q : CollJob) => { q with sect := none })
    let w := if c.done.isSome || j.fail.any (fun f => f.1 == 0x0710) then w else w.mergeIn id c 4096 (8 * bound * freq / 10)
    match w.coll? id with
    | some j => if j.slots.any (fun l => w.chunkReady j l && (w.landWork j l).2 != 0) then w.collSection j c else w.collEnd id
    | none => w
  | _, _ => w

/-! ### Timeouts (R387) -/

/-- A member is awaited: a chunk is still expected from it or to be delivered to it. -/
def Dev.awaited (w : Dev) (j : CollJob) (n : Nat) : Bool :=
  j.rx.any (fun r => r.n == n && decide (r.landed < r.total))
    || j.tx.any (fun t => t.n == n && decide (t.delivered < t.total))
    || w.net.msgs.any (fun m => m.user == 0 && m.ref == j.id && m.n == n)

/-- The groups of a job through which an entry is reached. -/
def CollJob.groupsVia (j : CollJob) (n : Nat) : List Nat :=
  sortNat ((j.rx.filter (fun r => r.n == n)).map (fun r => j.grp r.lv) ++ (j.tx.filter (fun t => t.n == n)).map (fun t => j.grp t.lv))

/-- PLAIT_STALL_TIMEOUT (R387 cause 2). -/
def opPlaitStallTimeout (id n : Nat) (w : Work) : Work :=
  match w.coll? id with
  | none => w
  | some j =>
    match j.exch.find? (fun e => e.1 == n) with
    | none => w
    | some e =>
      if w.awaited j n = true ∧ e.2.2 ≤ w.since e.2.1 then
        (j.groupsVia n).foldl (fun w g => w.breakGroup g 2 (pRank (w.peer n)) 2 [n]) w
      else w

def execPlaitStallTimeout (id n : Nat) (s : State) : Host.Outcome State Fault Refusal := s.run (opPlaitStallTimeout id n)

/-- PLAIT_NO_START_TIMEOUT (R387 cause 4): only while the member's session is alive. -/
def opPlaitNoStartTimeout (id n : Nat) (w : Work) : Work :=
  match w.coll? id with
  | none => w
  | some j =>
    let st := w.peerSt n
    if w.awaited j n = true ∧ j.exch.any (fun e => e.1 == n) = false ∧ j.first ≤ w.since j.start ∧ 1 ≤ st ∧ st ≤ 3 then
      (j.groupsVia n).foldl (fun w g => w.breakGroup g 4 (pRank (w.peer n)) 4 [n]) w
    else w

def execPlaitNoStartTimeout (id n : Nat) (s : State) : Host.Outcome State Fault Refusal := s.run (opPlaitNoStartTimeout id n)

/-- PLAIT_ABORT_NOTICE_RX (R387 cause 3, R389): a whole abort notice. -/
def opPlaitAbortNoticeRx (id : Nat) (w : Work) : Work :=
  match w.net.inbox.find? (fun m => m.id == id) with
  | none => w
  | some m =>
    let g := m.key / 2 ^ 48
    if m.key ≠ abortKey g ∨ 1023 < g then w else
    let w := w.setNet (fun t => { t with inbox := t.inbox.filter (fun q => q.id != id) })
    let rank := leNat (m.data.take 4)
    let orig := leNat ((m.data.drop 4).take 4)
    if w.groupSt g = 2 then w.bump (Obj.relaysDropped (gvCtx (w.groupE g))) 1
    else
      let gone := (upto (gvN (w.groupE g))).filterMap (fun p =>
        let k := w.member g p
        if k < 0x2000 ∧ pRank (w.peer k) = rank then some k else none)
      w.breakGroup g 3 rank orig (m.n :: gone)

def execPlaitAbortNoticeRx (id : Nat) (s : State) : Host.Outcome State Fault Refusal := s.run (opPlaitAbortNoticeRx id)

/-- A refused KEY that names a COLL in flight but differs in DIGEST ends that COLL (R368). -/
def Work.mismatch (key rank : Nat) (w : Work) : Work :=
  let g := key / 2 ^ 48
  match w.plait.jobs.find? (fun j =>
      ((bits key 47 1 == 0 && j.group == g) || (bits key 47 1 == 1 && j.op == 3 && j.inner == g))
      && j.seq % 1024 == bits key 37 10 && j.digest != bits key 29 8) with
  | some j =>
    let w := ((w.bump (Obj.mismatchCount j.ctx) 1).event 0x0711 j.ctx (w.plaitSource j.group) rank)
    w.collStop j.id 0x0711 rank
  | none => w

/-! ### The group table (R361) -/

/-- GROUP_COMMIT. -/
def opGroupCommit (wr : Writer) (w : Work) : Work :=
  w.gated wr .priv Obj.groupCommit (fun w => w.commitReq wr Obj.groupCommit [] [Obj.groupTable, Obj.memberPool])

def execGroupCommit (wr : Writer) (s : State) : Host.Outcome State Fault Refusal := s.run (opGroupCommit wr)

/-- The pending commit changes the entry or a member code of group g. -/
def Dev.groupChanges (w : Dev) (g : Nat) : Bool :=
  let e := w.groupE g
  w.groupIn .pending g != e || (upto (gvN e)).any (fun p =>
    w.blobNat .active Obj.memberPool (2 * (gvBase e + p)) 2 != w.blobNat .pending Obj.memberPool (2 * (gvBase e + p)) 2)

/-- One correction of a member code. -/
def Work.fixMember (k v : Nat) (w : Work) : Work :=
  let off := 2 * k
  let before := w.blobNat .active Obj.memberPool (off / 8 * 8) 8
  let w := w.blobPut .active Obj.memberPool off v 2
  w.clamped .fw Obj.memberPool before (w.blobNat .active Obj.memberPool (off / 8 * 8) 8) (off / 8 * 8)

/-- The corrections of R361 on entry g. -/
def Work.fixGroup (g : Nat) (w : Work) : Work :=
  let e := w.groupE g
  if !gvValid e then w else
  let n := gvN e
  let code := fun (w : Work) p => w.blobNat .active Obj.memberPool (2 * (gvBase e + p)) 2
  if n = 0 ∨ 131072 < n ∨ gvClass e = 3 ∨ n ≤ gvPos e ∨ 262144 < gvBase e + n ∨ code w (gvPos e) ≠ 0xFFFF then
    let before := w.blobNat .active Obj.groupTable (32 * g) 8
    let w := w.blobPut .active Obj.groupTable (32 * g) (setBit e 0 false) 32
    w.clamped .fw Obj.groupTable before (w.blobNat .active Obj.groupTable (32 * g) 8) (32 * g)
  else
    let w := forUpto (fun p w => if 0x2000 ≤ code w p ∧ code w p < 0xFFFE then w.fixMember (gvBase e + p) 0xFFFE else w) n w
    forUpto (fun p w => if p ≠ gvPos e ∧ code w p = 0xFFFF then w.fixMember (gvBase e + p) 0xFFFE else w) n w

/-- GROUP_COMMIT_APPLY (R361, R362). -/
def opGroupCommitApply (w : Work) : Work :=
  if w.get Obj.groupCommit = 1
      ∧ w.plait.jobs.any (fun j => w.groupChanges j.group || (j.op == 3 && w.groupChanges j.inner)) = false then
    let w := w.groupToActive [] [Obj.groupTable, Obj.memberPool]
    let w := forUpto (fun g w => w.fixGroup g) 1024 w
    let w := forUpto (fun g w =>
      let v := gvValid (w.groupE g)
      let w := w.blobPut .active Obj.groupState g (b2n v) 1
      if v then { w with plait := { w.plait with lastSeq := w.plait.lastSeq.filter (fun q => q.1 != g) } } else w) 1024 w
    w.put Obj.groupCommit 0
  else w

def execGroupCommitApply (s : State) : Host.Outcome State Fault Refusal := s.run opGroupCommitApply

end Sys2Proof.Machine
end

