-- ==== Sys2Proof/Machine/Instances.lean ====
section
/-!
DEFINITION. Sys2Proof/Machine/Instances.lean: the engine instance of Table 15.2 on which a command runs.
-/
namespace Sys2Proof.Machine

/-- The die that holds what a context address names now; C0 where it names nothing. -/
def Dev.dieAt (_ : Dev) (segs : List (Nat × Nat)) (a : Nat) (k : Access) : Nat :=
  match translate segs a 1 k with
  | .ok d => dieOf d
  | .error _ => 0

/-- The instance of a command of queue q, none for a tile launch or a NOP outside the control queue: Bobbin of the
destination's die (R239), Picot of the table's die (R307), Plait of the group's sessions (R369), the context control unit. Log entry 65. -/
def Dev.instanceOf (w : Dev) (q raw : Nat) (segs : List (Nat × Nat)) : Option Nat :=
  let op := cOpcode raw
  match q with
  | 1 =>
    if op = 0x20 then some (w.dieAt segs (bDst raw) .write)
    else if op = 0x21 ∨ op = 0x22 then some (dieOf (w.get (Obj.pbBase (bPbuf raw % 64))))
    else none
  | 2 => if op = 0x30 ∨ op = 0x31 then some (4 + w.dieAt segs (gTable raw) .read % 2) else none
  | 3 => if op = 0x40 then some (w.plaitSource (lGroup raw) - 0x2000) else none
  | 4 => some 12
  | _ => none

/-- The instance of a command in flight. -/
def Dev.cmdInstance (w : Dev) (c : Cmd) : Option Nat := w.instanceOf c.q c.raw c.segs

/-- The instance on which the next command of a pattern would run is in reset. -/
def Dev.headHeld (w : Dev) (p : Pattern) : Bool :=
  let slot := if p.req then p.slot else if w.get (Obj.modelBind p.ctx) = 1 then w.currentSlot else none
  match w.instanceOf p.q p.head (w.bindSegs p.ctx slot p.addSel (w.segNow p.ctx)) with
  | some e => w.instReset e
  | none => false

end Sys2Proof.Machine
end

