-- ==== Sys2Proof/Machine/Loader.lean ====
section
/-!
DEFINITION. Sys2Proof/Machine/Loader.lean: loading, activating and lending models (chapter 13): manifests, shards and their
attempts, the chain, image slots, swaps, bindings.
-/
namespace Sys2Proof.Machine

/-! ### Manifests (Tables 13.3 and 13.4) -/

def mhMagic (h : Nat) : Nat := bits h 0 32
def mhVersion (h : Nat) : Nat := bits h 32 16
def mhNpart (h : Nat) : Nat := bits h 48 4
def mhNshard (h : Nat) : Nat := bits h 64 32
def mhEpoch (h : Nat) : Nat := bits h 96 32
def mhModel (h : Nat) : Nat := bits h 128 64
def mhPartLen (h p : Nat) : Nat := bits h (192 + 64 * p) 64
def meDigest (e : Nat) : Nat := bits e 0 256
def meSrc0 (e : Nat) : Nat := bits e 256 48
def meSrc1 (e : Nat) : Nat := bits e 304 48
def meOff (e : Nat) : Nat := bits e 352 40
def meLen (e : Nat) : Nat := bits e 392 31
def mePart (e : Nat) : Nat := bits e 423 2
def meSrcDigest (e : Nat) : Bool := bitOf e 425

/-! ### SHA-256 engines (R403, R426) -/

/-- Replace the hash jobs; the lowest free engines take those that wait, in order. -/
def Work.setHashes (l : List HashJob) (w : Work) : Work :=
  let give := fun (l : List HashJob) =>
    match [0, 1, 2, 3].find? (fun e => !l.any (fun h => h.eng == some e)), l.findIdx? (fun h => h.eng.isNone) with
    | some e, some i => (match l[i]? with | some h => l.set i { h with eng := some e } | none => l)
    | _, _ => l
  { w with life := { w.life with hashes := iter give 4 l } }

/-- A hash job is ready. -/
def Work.hashAdd (kind ref : Nat) (w : Work) : Work :=
  w.setHashes (w.life.hashes.filter (fun h => !(h.kind == kind && h.ref == ref)) ++ [⟨kind, ref, none⟩])

/-- A hash job has an engine. -/
def Dev.hashing (w : Dev) (kind ref : Nat) : Bool := w.life.hashes.any (fun h => h.kind == kind && h.ref == ref && h.eng.isSome)

/-- A hash job leaves. -/
def Work.hashDrop (kind ref : Nat) (w : Work) : Work :=
  w.setHashes (w.life.hashes.filter (fun h => !(h.kind == kind && h.ref == ref)))

/-- A digest of SHA-256 as Tables 13.4 and 14.2 lay it out: byte 0 in the low bits. -/
def digestLe (d : List Byte) : Nat := leNat ((beBytes (Config.sha256 (d.map BitVec.toNat)) 32).map (BitVec.ofNat 8))

/-! ### The load's state -/

/-- Change the load. -/
def Work.mapLoad (f : LoadJob → LoadJob) (w : Work) : Work := { w with life := { w.life with job := w.life.job.map f } }
/-- Write SHARD_STATUS of a shard and keep it. -/
def Work.putShard (s : Shard) (w : Work) : Work :=
  let w := w.mapLoad (fun j => { j with shards := j.shards.map (fun t => if t.i = s.i then s else t) })
  w.blobPut .active Obj.shardStatus (2 * s.i) (s.st + s.att * 8 + b2n s.pred * 32) 2
/-- Shard i of the load. -/
def Dev.shard? (w : Dev) (i : Nat) : Option Shard :=
  match w.life.job with | some j => j.shards.find? (fun s => s.i == i) | none => none

/-- Translation through LOAD_CTX's own segments. -/
def Dev.loadXlate (w : Dev) (x a n : Nat) (k : Access) : Trans := w.xlate x (w.bindSegs x none none (w.segNow x)) a n k

/-- Device address of a shard's destination range. -/
def Dev.shardDest (w : Dev) (j : LoadJob) (e : Nat) : Trans :=
  if j.target < 3 then .ok (w.get (Obj.partBaseP j.target (mePart e)) + meOff e)
  else w.loadXlate j.ctx ((j.copy.getD (mePart e) 0 + meOff e) % 2 ^ 48) (meLen e) .write

/-- The attempt comes from the chain predecessor (Table 13.6). -/
def LoadJob.fromPred (j : LoadJob) (att : Nat) : Bool := j.chain && j.pred != 0xFFFF && decide (att < 2)
/-- The storage source of an attempt. -/
def srcOf (e att : Nat) : Nat := if att % 2 = 0 then meSrc0 e else if meSrc1 e = 0 then meSrc0 e else meSrc1 e

/-- Regions of a slot: first address, bytes. -/
def Dev.slotRegions (w : Dev) (s : Nat) : List (Nat × Nat) :=
  ((upto 4).map (fun p => (w.get (Obj.partBaseP s p), w.get (Obj.partLenP s p)))).filter (fun r => r.2 != 0)

/-- Regions a load writes. -/
def Dev.targetRegions (w : Dev) (j : LoadJob) : List (Nat × Nat) :=
  if j.target < 3 then w.slotRegions j.target
  else ((upto 4).filterMap (fun p =>
    let n := mhPartLen j.hdr p
    if n = 0 then none else
    match w.loadXlate j.ctx (j.copy.getD p 0) n .write with
    | .ok a => some (a, n)
    | .error _ => none))

/-- Some region of one list meets one of the other. -/
def regionsMeet (a b : List (Nat × Nat)) : Bool :=
  a.any (fun p => b.any (fun q => decide (p.1 < q.1 + q.2) && decide (q.1 < p.1 + p.2)))

/-! ### Activation (R408) -/

/-- The slot becomes CURRENT; the previous CURRENT slot drains, or is EMPTY without holders. Log entry 49. -/
def Work.activateSlot (s : Nat) (w : Work) : Work :=
  let w := match w.currentSlot with
    | some c => if c = s then w else
      (w.put (Obj.slotState c) (if w.get (Obj.bindCount c) = 0 then 0 else 4)).slotApply c
    | none => w
  (w.put (Obj.slotState s) 3).event 0x0803 31 0 (w.get (Obj.slotEpoch s))

/-- R408 allows slot s to become CURRENT. -/
def Dev.mayActivate (w : Dev) (s : Nat) : Bool :=
  decide (s < 2) && w.get (Obj.slotState s) == 2 &&
    (match w.currentSlot with
     | some c => w.get (Obj.slotModelId c) != w.get (Obj.slotModelId s) || decide (w.get (Obj.slotEpoch c) < w.get (Obj.slotEpoch s))
     | none => true)

/-- ACTIVATE (R408). -/
def opActivate (wr : Writer) (v : Nat) (w : Work) : Work :=
  w.gated wr .host Obj.activate (fun w => if w.mayActivate v then w.activateSlot v else w.noAction wr Obj.activate v)

def execActivate (wr : Writer) (v : Nat) (s : State) : Host.Outcome State Fault Refusal := s.run (opActivate wr v)

/-! ### The end of a load -/

/-- Admission resumes (step 5 of R410). -/
def Work.resumeAdmit (w : Work) : Work :=
  if w.get Obj.admitPause = 0 then w else (w.put Obj.admitPause 0).event 0x0807 31 0 0

/-- A load is over: LOAD_STATE, and the pause of an in-place load ends. -/
def Work.loadOver (st : Nat) (w : Work) : Work :=
  let inPlace := match w.life.job with | some j => j.inPlace | none => false
  let w := (w.put Obj.loadState st).put Obj.loadCommit 0
  let w := (w.mapLoad (fun j => { j with phase := 3 })).setHashes (w.life.hashes.filter (fun h => h.kind != 0))
  if inPlace && w.get Obj.admitPause == 1 then w.resumeAdmit else w

/-- Ask the successor to give up on the shards that will never come (R402). -/
def Work.tellSucc (j : LoadJob) (w : Work) : Work :=
  if j.chain && j.succ != 0xFFFF then
    j.shards.foldl (fun w s =>
      if j.fwd ≤ s.i then
        w.queueMsg (msgOf j.succ (0xFFF0 * 2 ^ 48 + 2 * 2 ^ 46 + mhEpoch j.hdr % 2 ^ 26 * 2 ^ 20 + s.i % 65536) 2 s.i 2
          (List.replicate 8 0#8))
      else w) w
  else w

/-- LOAD_FAILED (R401, R420): DETAIL is the shard, or 0xFFFF for a reset. Log entry 49. -/
def Work.loadFail (det : Nat) (w : Work) : Work :=
  match w.life.job with
  | none => w
  | some j =>
    if j.phase = 3 then w else
    let w := w.mapLoad (fun j => { j with shards := j.shards.map (fun s => if s.st = 2 ∨ s.st = 5 then s else { s with waits := 4 }) })
    let w := if j.target < 3 ∧ 1 ≤ j.phase then (w.put (Obj.slotState j.target) 6).slotApply j.target else w
    let w := (w.put Obj.loadDetail det).event 0x0810 j.ctx 0xC000 det
    (w.tellSucc j).loadOver 4

/-- LOAD_INVALID (R398). -/
def Work.loadInvalid (reason entry : Nat) (w : Work) : Work :=
  match w.life.job with
  | none => w
  | some j =>
    let d := reason * 2 ^ 28 + entry % 65536
    ((w.put Obj.loadDetail d).event 0x0812 j.ctx 0xC000 d).loadOver 5

/-- The gaps that the shards of a part leave: offset and bytes. -/
def gaps (len : Nat) : Nat → List (Nat × Nat) → List (Nat × Nat)
  | at0, [] => if at0 < len then [(at0, len - at0)] else []
  | at0, (o, n) :: r => (if at0 < o then [(at0, o - at0)] else []) ++ gaps len (max at0 (o + n)) r

/-- Shard ranges of a part, rising. -/
def LoadJob.partRanges (j : LoadJob) (p : Nat) : List (Nat × Nat) :=
  let l := j.shards.filter (fun s => mePart s.entry == p)
  (sortNat (l.map (fun s => meOff s.entry))).filterMap (fun o =>
    (l.find? (fun s => meOff s.entry == o)).map (fun s => (o, meLen s.entry)))

/-- Zeros in every byte of a part that no shard covers (R400). Log entry 49. -/
def Work.zeroGaps (j : LoadJob) (w : Work) : Work :=
  forUpto (fun p w =>
    let len := if j.target < 3 then w.get (Obj.partLenP j.target p) else mhPartLen j.hdr p
    (gaps len 0 (j.partRanges p)).foldl (fun w g =>
      let base := if j.target < 3 then some (w.get (Obj.partBaseP j.target p) + g.1)
        else match w.loadXlate j.ctx ((j.copy.getD p 0 + g.1) % 2 ^ 48) g.2 .write with | .ok a => some a | .error _ => none
      match base with
      | some a => w.engWrite j.ctx a (List.replicate g.2 0#8)
      | none => w) w) (mhNpart j.hdr) w

/-- LOAD_DONE (R404): every shard is VERIFIED. -/
def Work.loadDone (j : LoadJob) (w : Work) : Work :=
  let w := w.zeroGaps j
  let w := w.event 0x0801 j.ctx 0xC000 j.target
  if j.target < 3 then
    let s := j.target
    let w := ((w.put (Obj.slotModelId s) (mhModel j.hdr)).put (Obj.slotEpoch s) (mhEpoch j.hdr)).put (Obj.slotState s)
      (if s = 2 then 5 else 2)
    let w := if s < 2 ∧ (j.inPlace = true ∨ (w.get Obj.autoActivate = 1 ∧ w.mayActivate s = true)) then w.activateSlot s else w
    w.loadOver 3
  else (w.put (Obj.ctxEpoch j.ctx) (mhEpoch j.hdr)).loadOver 3

/-! ### Attempts (R399 to R403) -/

/-- The loader's message to a peer (R402): kind and shard. -/
def loaderKey (j : LoadJob) (kind i : Nat) : Nat := 0xFFF0 * 2 ^ 48 + kind * 2 ^ 46 + mhEpoch j.hdr % 2 ^ 26 * 2 ^ 20 + i % 65536

/-- The attempt of a shard has failed; the next one begins, or the load fails. -/
def Work.nextAttempt (i st : Nat) (w : Work) : Work :=
  match w.life.job, w.shard? i with
  | some j, some s =>
    if s.att = 3 then (w.putShard { s with st := 5, waits := 4, start := none }).loadFail i
    else
      let w := (w.bump Obj.refetchCount 1).event 0x0802 j.ctx 0xC000 (s.att * 65536 + i)
      let a := s.att + 1
      w.putShard { s with st := st, att := a, pred := j.fromPred a, start := none, waits := 0, srcHash := false }
  | _, _ => w

/-- A shard waits for an engine. Log entries 49, 50. -/
def Work.hashReady (i : Nat) (w : Work) : Work :=
  let w := match w.shard? i with | some s => w.putShard { s with waits := 3 } | none => w
  w.hashAdd 0 i

/-- A device-memory source is being copied: the loader moves one shard at a time (R403). -/
def LoadJob.copying (j : LoadJob) : Bool :=
  j.shards.any (fun s => s.waits == 1 && !s.pred && !decide (2 ^ 47 ≤ s.eng))

/-- Issue what may start of a shard's attempt; answers whether the load has failed meanwhile. While a shard waits for its
bytes, `eng` holds the source's device address. -/
def Work.issueShard (i : Nat) (w : Work) : Work :=
  match w.life.job, w.shard? i with
  | some j, some s =>
    if j.phase ≠ 2 ∨ s.waits ≠ 0 then w else
    let began := s.start.getD w.time
    let tmo := if s.start.isSome then s.tmo else w.get Obj.shardTmoS * 1000000000
    let begun : Shard := { s with st := 1, start := some began, tmo := tmo }
    if j.fromPred s.att then
      if s.att = 0 then
        let free := i == 0 || (match j.shards.find? (fun t => t.i + 1 == i) with | some t => t.waits == 4 | none => true)
        if free then w.putShard { begun with pred := true, waits := 1, eng := 2 ^ 47 } else w
      else
        let w := w.putShard { begun with pred := true, waits := 1, eng := 2 ^ 47 }
        w.queueMsg (msgOf j.pred (loaderKey j 1 i) 2 i 1 (List.replicate 8 0#8))
    else
      match w.loadXlate j.ctx (srcOf s.entry s.att) (meLen s.entry) .read with
      | .error _ => w.nextAttempt i 4
      | .ok a =>
        if s.srcHash then
          let w := w.putShard { begun with eng := a }
          w.hashReady i
        else if isHost a then w.putShard { begun with waits := 1, eng := a }
        else if j.copying then w
        else w.putShard { begun with waits := 1, eng := a }
  | _, _ => w

/-- Forward verified shards to the successor, in ascending index (R402). -/
def Work.forward : Nat → Work → Work
  | 0, w => w
  | k + 1, w =>
    match w.life.job with
    | none => w
    | some j =>
      if !j.chain || j.succ == 0xFFFF then w else
      match w.shard? j.fwd with
      | some s =>
        if s.st ≠ 2 then w else
        match w.shardDest j s.entry with
        | .ok a =>
          let w := w.queueMsg (msgFrom j.succ (loaderKey j 0 s.i) 2 s.i 0 [(a, meLen s.entry)])
          Work.forward k (w.mapLoad (fun j => { j with fwd := j.fwd + 1 }))
        | .error _ => w
      | none => w

/-- What a load may do now: attempts start (twice over, for those that fail at once), verified shards go on, and the load
ends when every shard is VERIFIED. -/
def Work.loadStep (w : Work) : Work :=
  match w.life.job with
  | none => w
  | some j =>
    if j.phase ≠ 2 then w else
    let one := fun (w : Work) => forUpto (fun i w => w.issueShard i) j.shards.length w
    let w := (iter one 4 w).forward j.shards.length
    match w.life.job with
    | some j => if j.phase = 2 ∧ j.shards.all (fun s => s.st == 2) = true then w.loadDone j else w
    | none => w

/-- A shard that is not over misses its attempt (R401). -/
def Work.shardMissing (i : Nat) (w : Work) : Work :=
  match w.shard? i with
  | some s => if s.waits = 4 ∨ s.st = 2 then w else
    ((w.hashDrop 0 i).nextAttempt i 4).loadStep
  | none => w

/-- The bytes of an attempt have landed in the destination (R400). -/
def Work.landShard (i : Nat) (d : List Byte) (w : Work) : Work :=
  match w.life.job, w.shard? i with
  | some j, some s =>
    match w.shardDest j s.entry with
    | .ok a =>
      let w := (w.engWrite j.ctx a d).bump Obj.loadBytes d.length
      ((w.putShard { s with st := 1 }).hashReady i).loadStep
    | .error _ => w.shardMissing i
  | _, _ => w

/-! ### Starting a load (R398, R410) -/

/-- Two shard entries of one part overlap. -/
def entriesMeet (a b : Nat) : Bool :=
  mePart a == mePart b && decide (meOff a < meOff b + meLen b) && decide (meOff b < meOff a + meLen a)

/-- The first entry that Table 13.5 code 4 refuses. Log entry 49. -/
def Dev.badEntry (w : Dev) (hdr : Nat) (es : List Nat) : Option Nat :=
  (es.zipIdx.find? (fun p =>
    let e := p.1
    decide (mhNpart hdr ≤ mePart e) || meOff e % 4096 != 0 || meLen e == 0 || decide (1073741824 < meLen e)
      || decide (mhPartLen hdr (mePart e) < meOff e + meLen e)
      || (es.take p.2).any (fun f => entriesMeet e f)
      || meSrc0 e == 0
      || (meSrcDigest e && (match w.loadXlate (w.get Obj.loadCtx) (meSrc0 e) (meLen e) .read with
            | .ok a => isHost a
            | .error _ => false)))).map (fun p => p.2)

/-- LOAD_PRED and LOAD_SUCC of a chain name usable entries (Table 13.5 code 6). -/
def Dev.chainOk (w : Dev) (j : LoadJob) : Bool :=
  let ok := fun n => n == 0xFFFF || (decide (n < 8192) && pValid (w.peer n) && pLctx (w.peer n) == j.ctx)
  !j.chain || (ok j.pred && ok j.succ)

/-- Validate the manifest: the refusal of Table 13.5 with its entry, or the header and the entries. Log entry 49. -/
def Work.manifest (w : Work) (j : LoadJob) : Except (Nat × Nat) (Nat × List Nat) :=
  match w.loadXlate j.ctx j.manifest 64 .read with
  | .error _ => .error (1, 0)
  | .ok a =>
    let h := w.readNat a 64
    let np := mhNpart h
    let ns := mhNshard h
    if mhMagic h ≠ 0x4F5A4D31 ∨ mhVersion h ≠ 1 then .error (1, 0)
    else if np = 0 ∨ 4 < np ∨ ns = 0 ∨ 65536 < ns ∨ mhEpoch h = 0 then .error (2, 0)
    else match w.loadXlate j.ctx j.manifest (64 * (1 + ns)) .read with
      | .error _ => .error (1, 0)
      | .ok a =>
        let es := (upto ns).map (fun i => w.readNat (a + 64 * (1 + i)) 64)
        let long := (upto np).any (fun p =>
          let n := mhPartLen h p
          if j.target < 3 then decide (w.get (Obj.partLenP j.target p) < n)
          else n != 0 && (match w.loadXlate j.ctx (j.copy.getD p 0) n .write with | .ok _ => false | .error _ => true))
        let st := w.get (Obj.slotState j.target)
        if long then .error (3, 0)
        else match w.badEntry h es with
          | some i => .error (4, i)
          | none =>
            if j.target < 3 ∧ (st = 1 ∨ st = 2 ∨ st = 5 ∨ st = 7 ∨ (st = 3 ∧ w.life.swap = true)) then .error (5, 0)
            else if w.get (Obj.ctxState j.ctx) ≠ 1 ∨ w.chainOk j = false then .error (6, 0)
            else .ok (h, es)

/-- The target a load picks: none while AUTO finds no slot. -/
def Dev.pickTarget (w : Dev) (sel : Nat) : Option Nat :=
  if sel = 3 then [0, 1].find? (fun s => let st := w.get (Obj.slotState s); st != 3 && st != 4)
  else some (if sel < 3 then sel else 4)

/-- The load runs: its target is LOADING and its shards start. -/
def Work.loadRun (w : Work) : Work :=
  match w.life.job with
  | none => w
  | some j =>
    let w := if j.target < 3 then w.put (Obj.slotState j.target) 1 else w
    (w.mapLoad (fun j => { j with phase := 2 })).loadStep

/-- A waiting load starts once its obstacle is gone (R398); an in-place load pauses admission first (R410). -/
def Work.loadTry (w : Work) : Work :=
  match w.life.job with
  | none => w
  | some j =>
    if j.phase = 0 then
      match w.pickTarget j.sel with
      | none => w
      | some t =>
        let j := { j with target := t }
        let drain := (upto 3).any (fun s => w.get (Obj.slotState s) == 4 && regionsMeet (w.targetRegions j) (w.slotRegions s))
        if drain then w else
        match w.manifest j with
        | .error (r, e) => (w.mapLoad (fun _ => j)).loadInvalid r e
        | .ok (h, es) =>
          let shards := es.zipIdx.map (fun p =>
            Shard.mk p.2 p.1 0 0 (j.fromPred 0) none 0 (meSrcDigest p.1 && !j.fromPred 0) 0 0)
          let j := { j with hdr := h, shards := shards }
          let inPlace := match w.currentSlot with
            | some c => c == t || regionsMeet (w.targetRegions j) (w.slotRegions c)
            | none => false
          let j := { j with inPlace := inPlace, phase := 1 }
          let w := (w.mapLoad (fun _ => j)).put Obj.loadState 2
          let w := shards.foldl (fun w s => w.blobPut .active Obj.shardStatus (2 * s.i) (b2n s.pred * 32) 2) w
          if !inPlace then w.loadRun else
          let w := (w.put Obj.admitPause 1).event 0x0806 31 0 1
          match w.currentSlot with
          | some c => if w.get (Obj.bindCount c) = 0 then (w.slotQuiet c).loadRun else w
          | none => w.loadRun
    else if j.phase = 1 ∧ w.currentSlot = none then w.loadRun
    else w

/-- Objects of the load group (R398). -/
def loadGroup : List Nat :=
  [Obj.loadManifest, Obj.loadCtx, Obj.loadMode, Obj.loadSlot, Obj.loadPred, Obj.loadSucc] ++ (upto 4).map Obj.copyAddrP

/-- LOAD_COMMIT (R398). -/
def opLoadCommit (wr : Writer) (w : Work) : Work :=
  w.gated wr .priv Obj.loadCommit (fun w =>
    if w.get Obj.loadCommit = 1 then w.noAction wr Obj.loadCommit 1 else
    let w := ((w.groupToPend loadGroup []).groupToActive loadGroup []).put Obj.loadCommit 1
    let j : LoadJob := ⟨w.get Obj.loadCtx, w.get Obj.loadSlot, 4, w.get Obj.loadMode == 1, w.get Obj.loadPred, w.get Obj.loadSucc,
      w.get Obj.loadManifest, (upto 4).map (fun p => w.get (Obj.copyAddrP p)), 0, false, 0, [], 0⟩
    let w := { w with life := { w.life with job := some j } }
    (w.put Obj.loadState 1).loadTry)

def execLoadCommit (wr : Writer) (s : State) : Host.Outcome State Fault Refusal := s.run (opLoadCommit wr)

/-- LOAD_START (R398, R410): the obstacle of a waiting load has cleared. -/
def opLoadStart (w : Work) : Work := w.loadTry
def execLoadStart (s : State) : Host.Outcome State Fault Refusal := s.run opLoadStart

/-- SHARD_LANDED (R400): the last byte of a storage attempt lands. -/
def opShardLanded (i : Nat) (w : Work) : Work :=
  match w.life.job, w.shard? i with
  | some j, some s =>
    if j.phase = 2 ∧ s.waits = 1 ∧ s.pred = false then w.landShard i (w.read s.eng (meLen s.entry)) else w
  | _, _ => w

def execShardLanded (i : Nat) (s : State) : Host.Outcome State Fault Refusal := s.run (opShardLanded i)

/-- SHARD_HASH_DONE (R400): the source's hash is written into the entry, or the destination's is checked. -/
def opShardHashDone (i : Nat) (w : Work) : Work :=
  match w.life.job, w.shard? i with
  | some j, some s =>
    if j.phase ≠ 2 ∨ s.waits ≠ 3 ∨ w.hashing 0 i = false then w else
    let w := w.hashDrop 0 i
    if s.srcHash then
      match w.loadXlate j.ctx (srcOf s.entry s.att) (meLen s.entry) .read with
      | .error _ => w.shardMissing i
      | .ok a =>
        let d := digestLe (w.read a (meLen s.entry))
        let w := match w.loadXlate j.ctx (j.manifest + 64 * (1 + i)) 32 .write with
          | .ok m => w.writeNat m d 32
          | .error _ => w
        (w.putShard { s with entry := setBits s.entry 0 256 d, srcHash := false, waits := 0 }).loadStep
    else
      match w.shardDest j s.entry with
      | .error _ => w.shardMissing i
      | .ok a =>
        if digestLe (w.read a (meLen s.entry)) = meDigest s.entry then (w.putShard { s with st := 2, waits := 4 }).loadStep
        else (w.nextAttempt i 3).loadStep
  | _, _ => w

def execShardHashDone (i : Nat) (s : State) : Host.Outcome State Fault Refusal := s.run (opShardHashDone i)

/-- SHARD_ATTEMPT_TIMEOUT (R401): the attempt has not landed every byte within SHARD_TMO_S of its start. -/
def opShardAttemptTimeout (i : Nat) (w : Work) : Work :=
  match w.life.job, w.shard? i with
  | some j, some s =>
    let landing := s.waits == 0 || s.waits == 1 || s.srcHash
    (match s.start with
     | some t => if j.phase = 2 ∧ landing = true ∧ s.tmo ≤ w.since t then w.shardMissing i else w
     | none => w)
  | _, _ => w

def execShardAttemptTimeout (i : Nat) (s : State) : Host.Outcome State Fault Refusal := s.run (opShardAttemptTimeout i)

/-! ### The chain (R402) -/

/-- A whole message of the loader's, taken out of the inbox: peer, kind, epoch, shard, bytes. -/
def Work.takeLoader (id kind : Nat) (w : Work) : Option (InMsg × Work) :=
  match w.net.inbox.find? (fun m => m.id == id) with
  | some m =>
    if m.key / 2 ^ 48 = 0xFFF0 ∧ bits m.key 46 2 = kind then
      some (m, w.setNet (fun t => { t with inbox := t.inbox.filter (fun q => q.id != id) }))
    else none
  | none => none

/-- The message belongs to the load: its epoch. -/
def LoadJob.epochOf (j : LoadJob) (key : Nat) : Bool := bits key 20 26 == mhEpoch j.hdr % 2 ^ 26

/-- LOADER_SHARD_RX (R402): the predecessor's shard lands. Log entry 49. -/
def opLoaderShardRx (id : Nat) (w : Work) : Work :=
  match w.takeLoader id 0 with
  | none => w
  | some (m, w) =>
    let i := bits m.key 0 16
    match w.life.job, w.shard? i with
    | some j, some s =>
      if j.phase = 2 ∧ m.n = j.pred ∧ j.epochOf m.key = true ∧ s.pred = true ∧ s.waits ≤ 1 ∧ m.data.length = meLen s.entry then
        w.landShard i m.data
      else w
    | _, _ => w

def execLoaderShardRx (id : Nat) (s : State) : Host.Outcome State Fault Refusal := s.run (opLoaderShardRx id)

/-- LOADER_REFETCH_RX (R402): the shard again when it is held VERIFIED, UNAVAIL otherwise. -/
def opLoaderRefetchRx (id : Nat) (w : Work) : Work :=
  match w.takeLoader id 1 with
  | none => w
  | some (m, w) =>
    let i := bits m.key 0 16
    let no := fun (w : Work) => w.queueMsg (msgOf m.n (m.key - 2 ^ 46 + 2 * 2 ^ 46) 2 i 2 (List.replicate 8 0#8))
    match w.life.job, w.shard? i with
    | some j, some s =>
      (match w.shardDest j s.entry with
       | .ok a => if s.st = 2 ∧ j.epochOf m.key = true then
                    w.queueMsg (msgFrom m.n (loaderKey j 0 i) 2 i 0 [(a, meLen s.entry)]) else no w
       | .error _ => no w)
    | _, _ => no w

def execLoaderRefetchRx (id : Nat) (s : State) : Host.Outcome State Fault Refusal := s.run (opLoaderRefetchRx id)

/-- LOADER_UNAVAIL_RX (R401, R402). -/
def opLoaderUnavailRx (id : Nat) (w : Work) : Work :=
  match w.takeLoader id 2 with
  | none => w
  | some (m, w) =>
    let i := bits m.key 0 16
    match w.life.job, w.shard? i with
    | some j, some s =>
      if j.phase = 2 ∧ m.n = j.pred ∧ j.epochOf m.key = true ∧ s.pred = true ∧ s.waits ≤ 1 then w.shardMissing i else w
    | _, _ => w

def execLoaderUnavailRx (id : Nat) (s : State) : Host.Outcome State Fault Refusal := s.run (opLoaderUnavailRx id)

/-- The loader takes a message of its KEYs from an entry (R402): shards and answers from the predecessor of a running load,
requests from the successor of the last load. -/
def Dev.loaderTakes (w : Dev) (n key : Nat) : Bool :=
  match w.life.job with
  | some j => j.chain && (if bits key 46 2 = 1 then j.succ == n else j.pred == n && j.phase == 2)
  | none => false

/-- The predecessor's session has gone: its attempts under way are MISSING (R401). -/
def Work.loaderGone (n : Nat) (w : Work) : Work :=
  match w.life.job with
  | some j =>
    if j.phase = 2 ∧ j.chain = true ∧ j.pred = n then
      (j.shards.filter (fun s => s.pred && s.waits == 1)).foldl (fun w s => w.shardMissing s.i) w
    else w
  | none => w

/-! ### Slots and swaps (R394, R395, R412, R413) -/

/-- SLOT_COMMIT (R394). -/
def opSlotCommit (wr : Writer) (s : Fin 3) (w : Work) : Work :=
  w.gated wr .host (Obj.slotCommit s.val) (fun w => (w.commitReq wr (Obj.slotCommit s.val) (slotGroup s.val) []).slotApply s.val)

def execSlotCommit (wr : Writer) (s : Fin 3) (st : State) : Host.Outcome State Fault Refusal := st.run (opSlotCommit wr s)

/-- SLOT_FLUSH (R395): VERIFIED, PARKED or FAILED to EMPTY. -/
def opSlotFlush (wr : Writer) (s : Fin 3) (w : Work) : Work :=
  w.gated wr .host (Obj.slotFlush s.val) (fun w =>
    let st := w.get (Obj.slotState s.val)
    if st = 2 ∨ st = 5 ∨ st = 6 then ((w.put (Obj.slotState s.val) 0).slotApply s.val).loadTry
    else w.noAction wr (Obj.slotFlush s.val) 1)

def execSlotFlush (wr : Writer) (s : Fin 3) (st : State) : Host.Outcome State Fault Refusal := st.run (opSlotFlush wr s)

/-- The refusal of a swap: 1 NO_PARKED, 2 BUSY, 3 LAYOUT; 0 when it may start (R412). -/
def Dev.swapRefusal (w : Dev) : Nat :=
  match w.currentSlot with
  | none => 1
  | some c =>
    let other := w.get (Obj.slotState (1 - c))
    let busy := match w.life.job with | some j => j.phase != 3 | none => false
    let total := ((upto 4).map (fun p => w.get (Obj.partLenP c p))).sum
    if w.get (Obj.slotState 2) ≠ 5 then 1
    else if (other ≠ 0 ∧ other ≠ 6) ∨ busy = true ∨ w.life.swap = true then 2
    else if (upto 4).any (fun p => w.get (Obj.partLenP c p) != w.get (Obj.partLenP 2 p)) ∨ 768 * 2 ^ 30 < total then 3
    else 0

/-- SWAP (R412). -/
def opSwap (wr : Writer) (w : Work) : Work :=
  w.gated wr .host Obj.swap (fun w =>
    let r := w.swapRefusal
    if r ≠ 0 then w.put Obj.swapResult r else
    let w := { w with life := { w.life with swap := true } }
    let w := (w.put Obj.admitPause 2).event 0x0806 31 0 2
    match w.currentSlot with
    | some c => if w.get (Obj.bindCount c) = 0 then w.slotQuiet c else w
    | none => w)

def execSwap (wr : Writer) (s : State) : Host.Outcome State Fault Refusal := s.run (opSwap wr)

/-- SWAP_EXCHANGE_DONE (R412, R413): the bytes are exchanged; `bad` are the device addresses of sectors that proved
uncorrectable while they were read. Log entry 49. -/
def opSwapExchangeDone (bad : List Nat) (w : Work) : Work :=
  match [0, 1].find? (fun s => w.get (Obj.slotState s) == 7) with
  | none => w
  | some c =>
    if w.life.swap = false ∨ w.get (Obj.slotState 2) ≠ 7 then w else
    let old := w
    let w := forUpto (fun p w =>
      let a := w.get (Obj.partBaseP c p)
      let b := w.get (Obj.partBaseP 2 p)
      let n := w.get (Obj.partLenP c p)
      (w.write a (old.read b n)).write b (old.read a n)) 4 w
    let hits := fun s => bad.filter (fun a => (w.slotRegions s).any (fun r => decide (r.1 ≤ a) && decide (a < r.1 + r.2)))
    let lostOut := !(hits c).isEmpty
    let lostIn := !(hits 2).isEmpty
    let (m, e) := (w.get (Obj.slotModelId c), w.get (Obj.slotEpoch c))
    let w := (w.put (Obj.slotModelId c) (w.get (Obj.slotModelId 2))).put (Obj.slotEpoch c) (w.get (Obj.slotEpoch 2))
    let w := (w.put (Obj.slotModelId 2) m).put (Obj.slotEpoch 2) e
    let w := (w.put (Obj.slotState c) (if lostIn then 6 else 3)).put (Obj.slotState 2) (if lostOut then 6 else 5)
    let w := (w.slotApply c).slotApply 2
    let w := { w with life := { w.life with swap := false } }
    let w := match (hits c ++ hits 2).head? with
      | some a => (w.put Obj.swapResult 4).event 0x0813 31 0 (bits a 16 32)
      | none => (w.put Obj.swapResult 0).event 0x0805 31 0 (w.get (Obj.slotEpoch c))
    w.resumeAdmit.loadTry

def execSwapExchangeDone (bad : List Nat) (s : State) : Host.Outcome State Fault Refusal := s.run (opSwapExchangeDone bad)

/-! ### Bindings (R407, R414, R415) -/

/-- The commit group of context x's bindings. -/
def bindGroup (x : Nat) : List Nat :=
  [Obj.modelBind x] ++ (upto 4).map (Obj.modelSegP x) ++ [Obj.addSeg x, Obj.arenaSeg x, Obj.ovfSeg x, Obj.btBase x, Obj.growEvt x]

/-- BIND_COMMIT (R407). -/
def opBindCommit (wr : Writer) (x : Fin 16) (w : Work) : Work :=
  w.gated wr (.own x.val) (Obj.bindCommit x.val) (fun w => w.commitReq wr (Obj.bindCommit x.val) (bindGroup x.val) [])

def execBindCommit (wr : Writer) (x : Fin 16) (s : State) : Host.Outcome State Fault Refusal := s.run (opBindCommit wr x)

/-- Context x holds a binding. -/
def Dev.holdsBinding (w : Dev) (x : Nat) : Bool :=
  w.q.pats.any (fun p => p.ctx == x && (p.slot.isSome || p.addSel.isSome))
    || w.q.cmds.any (fun c => c.ctx == x && (c.slot.isSome || c.add.isSome))
    || w.bob.streams.any (fun t => t.ctx == x && (match t.cap with | some c => c.slot.isSome || c.add.isSome | none => false))

/-- The clamps of R405, R407 and R414 on a context's bindings in force. -/
def Work.bindClamps (x : Nat) (w : Work) : Work :=
  let fix := fun (n v : Nat) (w : Work) => (w.clampTo .fw n (w.get n) v).put n v
  let segs := (upto 4).map (Obj.modelSegP x) ++ [Obj.addSeg x, Obj.arenaSeg x, Obj.ovfSeg x]
  let w := segs.foldl (fun w n => if 63 < w.get n then fix n 0xFF w else w) w
  let w := if w.isPriv x then w else fix (Obj.modelBind x) 0 w
  if w.isPriv x && w.get (Obj.modelBind x) == 1 then w else fix (Obj.addSeg x) 0xFF w

/-- BIND_COMMIT_APPLY (R407): while the context holds no binding, or is OFF. -/
def opBindCommitApply (x : Fin 16) (w : Work) : Work :=
  let x := x.val
  if w.get (Obj.bindCommit x) = 1 ∧ (w.get (Obj.ctxState x) = 0 ∨ w.holdsBinding x = false) then
    ((w.groupToActive (bindGroup x) []).bindClamps x).put (Obj.bindCommit x) 0
  else w

def execBindCommitApply (x : Fin 16) (s : State) : Host.Outcome State Fault Refusal := s.run (opBindCommitApply x)

/-- ADD_SWAP (R415): the switch waits for the context's next request boundary. -/
def opAddSwap (wr : Writer) (x : Fin 16) (w : Work) : Work :=
  w.gated wr (.own x.val) (Obj.addSwap x.val) (fun w =>
    if w.life.addSwap.contains x.val then w else { w with life := { w.life with addSwap := w.life.addSwap ++ [x.val] } })

def execAddSwap (wr : Writer) (x : Fin 16) (s : State) : Host.Outcome State Fault Refusal := s.run (opAddSwap wr x)

/-- ADDITION_SWAPPED (R415), at the admission of a request pattern. -/
def Work.addSwapNow (x : Nat) (w : Work) : Work :=
  if w.life.addSwap.contains x then
    let w := { w with life := { w.life with addSwap := w.life.addSwap.filter (fun y => y != x) } }
    let v := 1 - w.get (Obj.addSel x)
    (w.put (Obj.addSel x) v).event 0x0808 x 0 v
  else w

end Sys2Proof.Machine
end

