-- ==== Sys2Proof/Machine/Pairing.lean ====
section
/-!
DEFINITION. Sys2Proof/Machine/Pairing.lean: mirrors of a context's shards at a partner, the partner's store, and restores
(chapter 14, R424 to R434).
-/
namespace Sys2Proof.Machine

/-! ### Copies (Table 14.2) -/

/-- A copy header: STATE, context, shard id, rank, job, epoch, incarnation, step, length, CHECKSUM. -/
def copyHdr (st ctx id rank job epoch inc step len sum : Nat) : Nat :=
  0x4F5A5052 + st * 2 ^ 32 + ctx * 2 ^ 40 + id % 2 ^ 32 * 2 ^ 64 + rank % 2 ^ 32 * 2 ^ 96 + job % 2 ^ 32 * 2 ^ 128
    + epoch % 2 ^ 32 * 2 ^ 160 + inc % 2 ^ 32 * 2 ^ 192 + step % 2 ^ 64 * 2 ^ 256 + len % 2 ^ 64 * 2 ^ 320
    + sum % 2 ^ 256 * 2 ^ 384
def chMagic (h : Nat) : Nat := bits h 0 32
def chState (h : Nat) : Nat := bits h 32 2
def chCtx (h : Nat) : Nat := bits h 40 4
def chId (h : Nat) : Nat := bits h 64 32
def chRank (h : Nat) : Nat := bits h 96 32
def chJob (h : Nat) : Nat := bits h 128 32
def chEpoch (h : Nat) : Nat := bits h 160 32
def chStep (h : Nat) : Nat := bits h 256 64
def chLen (h : Nat) : Nat := bits h 320 64
def chSum (h : Nat) : Nat := bits h 384 256

/-- A header whose copy is COMPLETE. -/
def chDone (h : Nat) : Bool := chState h == 2 && chMagic h == 0x4F5A5052

/-- The copy at a device address is intact: COMPLETE, MAGIC valid, CHECKSUM the SHA-256 of its bytes. -/
def Work.intactAt (w : Work) (a : Nat) : Bool :=
  let h := w.readNat a 128
  chDone h && digestLe (w.read (a + 4096) (chLen h)) == chSum h

/-- Write a header block: the header and zeros (R425). -/
def Work.putHdr (a h : Nat) (w : Work) : Work := w.writeNat a h 4096

/-- CTX_EPOCH of context x: the epoch of the image it is bound to, otherwise of its last COPY. -/
def Dev.ctxEpochOf (w : Dev) (x : Nat) : Nat :=
  if w.get (Obj.modelBind x) = 1 then
    match w.currentSlot with
    | some s => w.get (Obj.slotEpoch s)
    | none => w.get (Obj.ctxEpoch x)
  else w.get (Obj.ctxEpoch x)

/-- SOURCE of Pairing's events: the instance of the I/O die of the session's home port. Log entry 50. -/
def Dev.pairSource (w : Dev) (n : Nat) : Nat := 0x2008 + (w.sessSource n - 0x7000) / 4

/-! ### Shard objects (R424, R425) -/

/-- The commit group of context x's shards. -/
def mirGroup (x : Nat) : List Nat :=
  (upto 16).flatMap (fun s => [Obj.mirAddr x s, Obj.mirLen x s, Obj.mirId x s, Obj.mirPeer x s, Obj.mirMode x s, Obj.mirCkpt x s])

/-- First free 64 KiB place of len bytes among areas (address, bytes) in [base, base + size). -/
def firstFit (areas : List (Nat × Nat)) (base size len : Nat) : Option Nat :=
  let starts := base :: sortNat ((areas.map (fun r => r.1 + r.2)).filter (fun a => decide (base ≤ a)))
  starts.find? (fun a => decide (a + len ≤ base + size) && !areas.any (fun r => decide (r.1 < a + len) && decide (a < r.1 + r.2)))

/-- Bytes of a copy with its header, in whole 64 KiB. -/
def copySpan (len : Nat) : Nat := ceilDiv (4096 + len) 65536 * 65536

/-- A correction counted in CLAMP_COUNT. -/
def Work.fixObj (n v : Nat) (w : Work) : Work := (w.clampTo .fw n (w.get n) v).put n v

/-- Step 3 of R424 for context x: stage areas, first-fit. -/
def Work.mirAlloc (x : Nat) (w : Work) : Work :=
  let w := w.setPair (fun p => { p with stage := p.stage.filter (fun a => a.ctx != x) })
  forUpto (fun s w =>
    if w.get (Obj.mirMode x s) ≠ 1 then w else
    let len := copySpan (w.get (Obj.mirLen x s))
    match firstFit (w.pair.stage.map (fun a => (a.base, a.len))) (w.get Obj.mirStageBase) (w.get Obj.mirStageLen) len with
    | some a => w.setPair (fun p => { p with stage := p.stage ++ [⟨x, s, a, len⟩] })
    | none => w.fixObj (Obj.mirMode x s) 0) 16 w

/-- MIR_STATE of the shards that no mirror concerns. -/
def Work.mirIdle (x : Nat) (w : Work) : Work :=
  forUpto (fun s w =>
    if w.get (Obj.mirMode x s) = 0 then w.put (Obj.mirState x s) 0
    else if w.get (Obj.mirState x s) = 0 then w.put (Obj.mirState x s) 1 else w) 16 w

/-- The shard cannot be mirrored (step 2 of R424). -/
def Dev.mirBad (w : Dev) (x s : Nat) : Bool :=
  let n := w.get (Obj.mirPeer x s)
  w.get (Obj.mirLen x s) == 0
    || (match w.loadXlate x (w.get (Obj.mirAddr x s)) (w.get (Obj.mirLen x s)) .read with | .ok _ => false | .error _ => true)
    || !decide (n < 8192) || !pValid (w.peer n) || w.lctx n != x
    || (upto s).any (fun t => w.get (Obj.mirId x t) == w.get (Obj.mirId x s))

/-- A commit of context x's shards applies (R424). -/
def Work.mirApply (x : Nat) (w : Work) : Work :=
  if w.get (Obj.mirCommit x) ≠ 1 then w else
  let w := w.groupToActive (mirGroup x) []
  let w := forUpto (fun s w => w.fixObj (Obj.mirLen x s) (min (w.get (Obj.mirLen x s) / 4096 * 4096) (16 * 2 ^ 30))) 16 w
  let w := forUpto (fun s w => if w.get (Obj.mirMode x s) ≠ 0 ∧ w.mirBad x s = true then w.fixObj (Obj.mirMode x s) 0 else w) 16 w
  ((w.mirAlloc x).mirIdle x).put (Obj.mirCommit x) 0

/-- MIR_COMMIT (R424): pending until the step boundary; at once while the context is OFF. -/
def opMirCommit (wr : Writer) (x : Fin 16) (w : Work) : Work :=
  w.gated wr (.privCtx x.val) (Obj.mirCommit x.val) (fun w =>
    let w := w.commitReq wr (Obj.mirCommit x.val) (mirGroup x.val) []
    if w.get (Obj.ctxState x.val) = 0 then w.mirApply x.val else w)

def execMirCommit (wr : Writer) (x : Fin 16) (s : State) : Host.Outcome State Fault Refusal := s.run (opMirCommit wr x)

/-! ### The held table (R425, R428, Table 14.4) -/

/-- Device address of held entry i: the table lies in the first 64 KiB of the store. -/
def Dev.heldAddr (w : Dev) (i : Nat) : Nat := w.get Obj.mirStoreBase + 32 * i
/-- The device has a store that holds the table. -/
def Dev.hasStore (w : Dev) : Bool := decide (65536 ≤ w.get Obj.mirStoreLen)
/-- Held entry i. -/
def Work.held (w : Work) (i : Nat) : Nat := if w.hasStore then w.readNat (w.heldAddr i) 32 else 0
def heValid (e : Nat) : Bool := bitOf e 0
def heLast (e : Nat) : Nat := bits e 1 1
def heSlot (e k : Nat) : Nat := 4096 * (if k = 0 then bits e 128 36 else bits e 164 36)
def heLen (e : Nat) : Nat := 4096 * bits e 200 23
/-- The slot a copy goes into: the one not marked LAST. -/
def heNext (e : Nat) : Nat := heSlot e (1 - heLast e)

/-- An entry of Table 14.4. -/
def heldEntry (last ctx job rank id a b len : Nat) : Nat :=
  1 + last * 2 + ctx * 16 + job % 2 ^ 32 * 2 ^ 32 + rank % 2 ^ 32 * 2 ^ 64 + id % 2 ^ 32 * 2 ^ 96 + a / 4096 % 2 ^ 36 * 2 ^ 128
    + b / 4096 % 2 ^ 36 * 2 ^ 164 + len / 4096 % 2 ^ 23 * 2 ^ 200

/-- Slots of the store in use. -/
def Work.heldAreas (w : Work) : List (Nat × Nat) :=
  (upto 1024).flatMap (fun i =>
    let e := w.held i
    if heValid e then [(heSlot e 0, copySpan (heLen e)), (heSlot e 1, copySpan (heLen e))] else [])

/-- MIR_STORE_FREE. -/
def Work.storeFree (w : Work) : Work :=
  w.put Obj.mirStoreFree (if w.hasStore then w.get Obj.mirStoreLen - 65536 - (w.heldAreas.map (fun a => a.2)).sum else 0)

/-- Write held entry i. -/
def Work.putHeld (i e : Nat) (w : Work) : Work := (w.writeNat (w.heldAddr i) e 32).storeFree

/-- The held entry of a key. Log entry 50. -/
def Work.findHeld (w : Work) (job rank ctx id : Nat) : Option Nat :=
  (upto 1024).find? (fun i =>
    let e := w.held i
    heValid e && bits e 32 32 == job && bits e 64 32 == rank && bits e 4 4 == ctx && bits e 96 32 == id)

/-- A restore is reading the slot at a (R428): bytes of it wait to be delivered. -/
def Dev.slotRead (w : Dev) (a : Nat) : Bool :=
  w.net.msgs.any (fun m => m.user == 3 && m.tag == 4 && m.ref == a)

/-- Corrections of the stage and store ranges: multiples of 64 KiB within one half of the mappable slow tier. Log entry 50. -/
def Work.fixRange (base len : Nat) (w : Work) : Work :=
  let a := min (max (w.get base / 65536 * 65536) 0x010000000000) 0x01E37FFF0000
  let last := match w.mapRegion a with | some r => r.last + 1 | none => a
  let w := if w.get len = 0 then w else w.fixObj base a
  w.fixObj len (min (w.get len / 65536 * 65536) ((last - a) / 65536 * 65536))

/-- MIR_DEV_COMMIT (R425). -/
def opMirDevCommit (wr : Writer) (w : Work) : Work :=
  w.gated wr .host Obj.mirDevCommit (fun w =>
    w.commitReq wr Obj.mirDevCommit [Obj.mirStageBase, Obj.mirStageLen, Obj.mirStoreBase, Obj.mirStoreLen] [])

def execMirDevCommit (wr : Writer) (s : State) : Host.Outcome State Fault Refusal := s.run (opMirDevCommit wr)

/-- A snapshot, send, receive or restore is in progress (R425). -/
def Dev.mirBusy (w : Dev) : Bool :=
  w.pair.mirrors.any (fun m => m.shards.any (fun t => t.outcome == 0 || t.outcome == 4 || !t.hashed)) || !w.pair.wait.isEmpty
    || !w.pair.recv.isEmpty || !w.pair.restores.isEmpty || w.net.msgs.any (fun m => m.user == 3 && m.tag == 4)

/-- MIR_DEV_COMMIT_APPLY (R425). -/
def opMirDevCommitApply (w : Work) : Work :=
  if w.get Obj.mirDevCommit ≠ 1 ∨ w.mirBusy = true then w else
  let was := (w.get Obj.mirStageBase, w.get Obj.mirStageLen)
  let had := (w.get Obj.mirStoreBase, w.get Obj.mirStoreLen)
  let count := ((upto 1024).filter (fun i => heValid (w.held i))).length
  let w := w.groupToActive [Obj.mirStageBase, Obj.mirStageLen, Obj.mirStoreBase, Obj.mirStoreLen] []
  let w := (w.fixRange Obj.mirStageBase Obj.mirStageLen).fixRange Obj.mirStoreBase Obj.mirStoreLen
  let w := if (w.get Obj.mirStageBase, w.get Obj.mirStageLen) = was then w else
    let w := w.setPair (fun p => { p with stage := [] })
    forUpto (fun x w => (w.mirAlloc x).mirIdle x) 16 w
  let w := if (w.get Obj.mirStoreBase, w.get Obj.mirStoreLen) = had then w else
    let w := if w.hasStore then w.writeNat (w.heldAddr 0) 0 32768 else w
    w.storeFree.event 0x0907 31 0x2008 count
  w.put Obj.mirDevCommit 0

def execMirDevCommitApply (s : State) : Host.Outcome State Fault Refusal := s.run opMirDevCommitApply

/-- MIR_FREE (R433): an entry and its slots; a number past the last clamps to it (R447). Log entry 54. -/
def opMirFree (wr : Writer) (v : Nat) (w : Work) : Work :=
  w.gated wr .host Obj.mirFree (fun w =>
    let c := min v 1023
    let w := w.clampTo wr Obj.mirFree v c
    if heValid (w.held c) then (w.setPair (fun p => { p with recv := p.recv.filter (fun r => r.1 != c) })).putHeld c 0 else w)

def execMirFree (wr : Writer) (v : Nat) (s : State) : Host.Outcome State Fault Refusal := s.run (opMirFree wr v)

/-! ### Mirrors (R426, R427) -/

/-- The mirror of context x. -/
def Dev.mirror? (w : Dev) (x : Nat) : Option Mirror := w.pair.mirrors.find? (fun m => m.ctx == x)
/-- Change the mirror of context x. -/
def Work.mapMirror (x : Nat) (f : Mirror → Mirror) (w : Work) : Work :=
  w.setPair (fun p => { p with mirrors := p.mirrors.map (fun m => if m.ctx = x then f m else m) })
/-- Change a shard of a mirror. -/
def Work.mapMir (x s : Nat) (f : MirShard → MirShard) (w : Work) : Work :=
  w.mapMirror x (fun m => { m with shards := m.shards.map (fun t => if t.s = s then f t else t) })

/-- When every send of a mirror has ended: MIR_DONE_EVT, and MIR_LAST_STEP when every final HEADER was DELIVERED. -/
def Work.mirrorTell (x : Nat) (w : Work) : Work :=
  match w.mirror? x with
  | some m =>
    if m.told || m.shards.any (fun t => t.outcome == 0 || t.outcome == 4) then w else
    let w := w.mapMirror x (fun m => { m with told := true })
    let w := if m.shards.all (fun t => t.outcome == 1) then w.put (Obj.mirLastStep x) m.step else w
    w.evtAdd x (w.get (Obj.mirDoneEvt x)) 1
  | none => w

/-- A shard's send is abandoned: MIRROR_ABANDONED. -/
def Work.mirrorAbandon (x s : Nat) (w : Work) : Work :=
  match w.mirror? x with
  | some m =>
    match m.shards.find? (fun t => t.s == s) with
    | some t =>
      if t.outcome ≠ 0 ∧ t.outcome ≠ 4 then w else
      let w := (w.mapMir x s (fun t => { t with outcome := 2 })).withdraw 3 (16 * x + s)
      (w.put (Obj.mirState x s) 5).event 0x0902 x (w.pairSource t.n) s
    | none => w
  | none => w

/-- Every send of context x's mirror that still runs is abandoned. -/
def Work.mirrorAbandonAll (x : Nat) (w : Work) : Work := (forUpto (fun s w => w.mirrorAbandon x s) 16 w).mirrorTell x

/-- No send of the context's previous mirror runs. -/
def Dev.mirrorQuiet (w : Dev) (x : Nat) : Bool :=
  match w.mirror? x with
  | some m => m.shards.all (fun t => t.outcome != 0 && t.outcome != 4)
  | none => true

/-- The context mirrors something: a shard not set to OFF. -/
def Dev.mirrors (w : Dev) (x : Nat) : Bool := (upto 16).any (fun s => w.get (Obj.mirMode x s) != 0)

/-- Step 2 of R426 for one shard. -/
def Work.snapShard (x step s : Nat) (w : Work) : Option MirShard × Work :=
  let len := w.get (Obj.mirLen x s)
  let n := w.get (Obj.mirPeer x s)
  let hdr := copyHdr 1 x (w.get (Obj.mirId x s)) (w.get (Obj.ownRank x)) (w.get (Obj.ownJob x)) (w.ctxEpochOf x)
    (w.get Obj.incarnation) step len 0
  let mk := fun (addr : Nat) (stage : Option Nat) => MirShard.mk s (w.get (Obj.mirId x s)) n addr len stage hdr false 0 false 4
  match w.loadXlate x (w.get (Obj.mirAddr x s)) len .read with
  | .error _ => (none, (w.put (Obj.mirState x s) 4).event 0x0901 x (w.pairSource n) s)
  | .ok a =>
    if w.get (Obj.mirMode x s) = 1 then
      match w.pair.stage.find? (fun t => t.ctx == x && t.s == s) with
      | some t =>
        let w := (w.putHdr t.base hdr).write (t.base + 4096) (w.read a len)
        (some (mk (t.base + 4096) (some t.base)), w.put (Obj.mirState x s) 2)
      | none => (none, w)
    else (some (mk a none), w.put (Obj.mirState x s) 2)

/-- The snapshot of context x (R426): `step` is the value STEP_NUM takes. The wait's time counts as hold time (R444). Log entry 50. -/
def Work.mirrorSnap (x step : Nat) (w : Work) : Work :=
  let held := match w.pair.wait.find? (fun p => p.1 == x) with | some p => w.since p.2 | none => 0
  let w := w.setPair (fun p => { p with wait := p.wait.filter (fun q => q.1 != x), holdNs := p.holdNs + held })
  let w := w.setHashes (w.life.hashes.filter (fun h => !(h.kind == 1 && h.ref / 16 == x)))
  let (l, w) := (upto 16).foldl (fun (r : List MirShard × Work) s =>
    if r.2.get (Obj.mirMode x s) = 0 then r else
    let (t, w) := r.2.snapShard x step s
    (r.1 ++ t.toList, w)) ([], w)
  w.setPair (fun p => { p with mirrors := p.mirrors.filter (fun m => m.ctx != x) ++ [⟨x, step, l, false⟩] })

/-- DATA messages of a shard: chunks of 1 GiB (R427). -/
def chunkList (len : Nat) : List (Nat × Nat) :=
  (upto (ceilDiv len (2 ^ 30))).map (fun c => (c, min (2 ^ 30) (len - c * 2 ^ 30)))

/-- The final HEADER of a shard goes once its hash has ended and every DATA message is DELIVERED. -/
def Work.mirrorFinal (x s : Nat) (w : Work) : Work :=
  match w.mirror? x with
  | some m =>
    match m.shards.find? (fun t => t.s == s) with
    | some t =>
      if t.outcome = 0 ∧ t.hashed = true ∧ t.left = 0 ∧ t.final = false then
        (w.mapMir x s (fun t => { t with final := true })).queueMsg
          (msgOf t.n (pairKey 0 0 t.key) 3 (16 * x + s) 2 (leBytes t.hdr 128))
      else w
    | none => w
  | none => w

/-- STEP_MARK of context x has completed: hashes become ready and the sends start, in ascending shard number (R426, R427). -/
def Work.mirrorSend (x : Nat) (w : Work) : Work :=
  match w.mirror? x with
  | none => w
  | some m =>
    let l := m.shards.filter (fun t => t.outcome == 4)
    let w := l.foldl (fun w t =>
      let w := w.hashAdd 1 (16 * x + t.s)
      if w.peerSt t.n = 3 then
        let cs := chunkList t.len
        let w := (w.mapMir x t.s (fun t => { t with outcome := 0, left := cs.length })).put (Obj.mirState x t.s) 3
        let w := w.queueMsg (msgOf t.n (pairKey 0 0 t.key) 3 (16 * x + t.s) 0 (leBytes t.hdr 128))
        cs.foldl (fun w c => w.queueMsg (msgFrom t.n (pairKey 1 c.1 t.key) 3 (16 * x + t.s) 1 [(t.addr + c.1 * 2 ^ 30, c.2)])) w
      else
        ((w.mapMir x t.s (fun t => { t with outcome := 3 })).put (Obj.mirState x t.s) 4).event 0x0901 x (w.pairSource t.n) t.s) w
    w.mirrorTell x

/-- A Pairing message of this device was DELIVERED. -/
def Work.pairDelivered (m : TxMsg) (w : Work) : Work :=
  let x := m.ref / 16
  let s := m.ref % 16
  if m.tag = 1 then (w.mapMir x s (fun t => { t with left := t.left - 1 })).mirrorFinal x s
  else if m.tag = 2 then
    ((w.mapMir x s (fun t => if t.outcome = 0 then { t with outcome := 1 } else t)).put (Obj.mirState x s) 1).mirrorTell x
  else w

/-- MIRROR_HASH_DONE (R426): CHECKSUM and COMPLETE into the stage header. -/
def opMirrorHashDone (x s : Fin 16) (w : Work) : Work :=
  let ref := 16 * x.val + s.val
  if w.hashing 1 ref = false then w else
  let w := w.hashDrop 1 ref
  match w.mirror? x.val with
  | some m =>
    match m.shards.find? (fun t => t.s == s.val) with
    | some t =>
      let hdr := setBits (setBits t.hdr 32 2 2) 384 256 (digestLe (w.read t.addr t.len))
      let w := match t.stage with | some a => w.putHdr a hdr | none => w
      (w.mapMir x.val s.val (fun t => { t with hdr := hdr, hashed := true })).mirrorFinal x.val s.val
    | none => w
  | none => w

def execMirrorHashDone (x s : Fin 16) (st : State) : Host.Outcome State Fault Refusal := st.run (opMirrorHashDone x s)

/-- MIRROR_WAIT_EXPIRE (R426): the previous mirror's sends have outlasted MIR_WAIT_MS. Log entry 52. -/
def opMirrorWaitExpire (x : Fin 16) (w : Work) : Work :=
  match w.pair.wait.find? (fun p => p.1 == x.val) with
  | some p => if w.get (Obj.mirWaitMs x.val) * 1000000 ≤ w.since p.2 then w.mirrorAbandonAll x.val else w
  | none => w

def execMirrorWaitExpire (x : Fin 16) (s : State) : Host.Outcome State Fault Refusal := s.run (opMirrorWaitExpire x)

/-! ### The partner (R428, R431) -/

/-- A whole Pairing message, taken out of the inbox: kind. -/
def Dev.pairMsg (w : Dev) (id kind : Nat) : Option InMsg :=
  w.net.inbox.find? (fun m => m.id == id && m.key / 2 ^ 48 == 0xFFE0 && bits m.key 44 4 == kind)
/-- The message leaves the inbox. -/
def Work.unbox (id : Nat) (w : Work) : Work := w.setNet (fun t => { t with inbox := t.inbox.filter (fun m => m.id != id) })
/-- A refused copy. -/
def Work.mirRefuse (w : Work) : Work := w.bump Obj.mirRefused 1

/-- Two slots for a copy of len bytes: entry i is written, with its slots' headers INVALID; without room nothing is. -/
def Work.heldAlloc (i job rank ctx id len : Nat) (w : Work) : Option Work :=
  let base := w.get Obj.mirStoreBase + 65536
  let size := w.get Obj.mirStoreLen - 65536
  let areas := w.heldAreas
  match firstFit areas base size (copySpan len) with
  | none => none
  | some a =>
    match firstFit (areas ++ [(a, copySpan len)]) base size (copySpan len) with
    | none => none
    | some b => some (((w.putHeld i (heldEntry 0 ctx job rank id a b len)).putHdr a 0).putHdr b 0)

/-- A HEADER with STATE WRITING: the held entry, its slots, and the header into the slot not marked LAST. Log entry 50. -/
def Work.copyBegins (m : InMsg) (h : Nat) (w : Work) : Work :=
  let id := bits m.key 0 32
  let (job, rank, ctx, len) := (chJob h, chRank h, chCtx h, chLen h)
  let start := fun (i : Nat) (w : Work) =>
    (w.putHdr (heNext (w.held i)) h).setPair (fun p => { p with recv := p.recv.filter (fun r => r.1 != i) ++ [(i, m.n)] })
  let full := fun (w : Work) => w.mirRefuse.event 0x0906 (w.lctx m.n) (w.pairSource m.n) rank
  let fresh := fun (i : Nat) (w : Work) => match w.heldAlloc i job rank ctx id len with | some w => start i w | none => full w
  match w.findHeld job rank ctx id with
  | some i =>
    let e := w.held i
    if heLen e = len then (if w.slotRead (heNext e) then w else start i (w.unbox m.id))
    else if w.slotRead (heSlot e 0) || w.slotRead (heSlot e 1) then w
    else fresh i ((w.unbox m.id).putHeld i 0)
  | none =>
    let w := w.unbox m.id
    match (upto 1024).find? (fun i => !heValid (w.held i)) with
    | some i => if w.hasStore then fresh i w else full w
    | none => full w

/-- A final HEADER: written after every byte, and LAST moves to that slot. -/
def Work.copyEnds (m : InMsg) (h : Nat) (w : Work) : Work :=
  let id := bits m.key 0 32
  let left := w.net.inbox.any (fun q => q.n == m.n && q.key / 2 ^ 48 == 0xFFE0 && bits q.key 44 4 == 1 && bits q.key 0 32 == id)
  if left then w else
  let w := w.unbox m.id
  match w.findHeld (chJob h) (chRank h) (chCtx h) id with
  | some i =>
    if w.pair.recv.contains (i, m.n) ∧ heLen (w.held i) = chLen h then
      let e := w.held i
      let w := (w.putHdr (heNext e) h).putHeld i (setBits e 1 1 (1 - heLast e))
      w.setPair (fun p => { p with recv := p.recv.filter (fun r => r.1 != i) })
    else w
  | none => w

/-- PAIRING_HEADER_RX (R428). -/
def opPairingHeaderRx (id : Nat) (w : Work) : Work :=
  match w.pairMsg id 0 with
  | none => w
  | some m =>
    let h := leNat (m.data.take 128)
    let e := w.peer m.n
    let ok := m.data.length == 128 && chJob h == pJob e && chRank h == pRank e && chCtx h == pRctx e && chLen h % 4096 == 0
      && decide (0 < chLen h) && decide (chLen h ≤ 16 * 2 ^ 30) && chMagic h == 0x4F5A5052
    if !ok then (w.unbox id).mirRefuse
    else if chState h = 1 then w.copyBegins m h
    else if chState h = 2 then w.copyEnds m h
    else (w.unbox id).mirRefuse

def execPairingHeaderRx (id : Nat) (s : State) : Host.Outcome State Fault Refusal := s.run (opPairingHeaderRx id)

/-- PAIRING_DATA_RX (R428): a chunk into the slot being written. -/
def opPairingDataRx (id : Nat) (w : Work) : Work :=
  match w.pairMsg id 1 with
  | none => w
  | some m =>
    let e := w.peer m.n
    let w := w.unbox id
    match w.findHeld (pJob e) (pRank e) (pRctx e) (bits m.key 0 32) with
    | some i =>
      let off := bits m.key 32 8 * 2 ^ 30
      if w.pair.recv.contains (i, m.n) ∧ off + m.data.length ≤ heLen (w.held i) then
        w.write (heNext (w.held i) + 4096 + off) m.data
      else w
    | none => w

def execPairingDataRx (id : Nat) (s : State) : Host.Outcome State Fault Refusal := s.run (opPairingDataRx id)

/-- Send one slot of a held entry: RESTORE_DATA, then RESTORE_HDR. -/
def Work.sendSlot (n id k a : Nat) (w : Work) : Work :=
  let h := w.readNat a 128
  let w := (chunkList (chLen h)).foldl (fun w c =>
    w.queueMsg (msgFrom n (pairKey 4 c.1 id) 3 a 4 [(a + 4096 + c.1 * 2 ^ 30, c.2)])) w
  w.queueMsg (msgOf n (pairKey 3 0 id) 3 1000 3 (leBytes h 128 ++ leBytes (b2n (w.intactAt a) + 2 * k) 8))

/-- RESTORE_NONE with a reason. -/
def Work.sendNone (n id reason : Nat) (w : Work) : Work := w.queueMsg (msgOf n (pairKey 5 0 id) 3 1000 5 (leBytes reason 8))

/-- PAIRING_RESTORE_REQ_RX (R431). -/
def opPairingRestoreReqRx (id : Nat) (w : Work) : Work :=
  match w.pairMsg id 2 with
  | none => w
  | some m =>
    let w := w.unbox id
    let q := leNat (m.data.take 64)
    let (sid, rank, lim, job, ctx) := (bits q 0 32, bits q 32 32, bits q 64 64, bits q 128 32, bits q 160 4)
    if m.data.length ≠ 64 then w
    else if pRank (w.peer m.n) ≠ rank then w.sendNone m.n sid 3
    else match w.findHeld job rank ctx sid with
      | none => w.sendNone m.n sid 1
      | some i =>
        let e := w.held i
        let off := match extHalf (heSlot e 0) with | some (t, h) => !w.halfUp t h | none => false
        if off then w.sendNone m.n sid 4 else
        let key := fun (k : Nat) => let h := w.readNat (heSlot e k) 128; chStep h * 2 ^ 32 + chEpoch h
        let cands := [0, 1].filter (fun k =>
          let h := w.readNat (heSlot e k) 128
          chDone h && decide (chStep h ≤ lim))
        let order := match cands with
          | [a, b] => if key a < key b then [b, a] else [a, b]
          | l => l
        match order with
        | [] => w.sendNone m.n sid 2
        | a :: r =>
          let w1 := w.sendSlot m.n sid a (heSlot e a)
          (match r with
           | b :: _ => if key b = key a ∨ w.intactAt (heSlot e a) = false then w1.sendSlot m.n sid b (heSlot e b) else w1
           | [] => w1)

def execPairingRestoreReqRx (id : Nat) (s : State) : Host.Outcome State Fault Refusal := s.run (opPairingRestoreReqRx id)

/-! ### The requester (R430, R432) -/

/-- RESTORE_REQ (R430). Log entry 50. -/
def opRestoreReq (wr : Writer) (x : Fin 16) (mask : Nat) (w : Work) : Work :=
  let x := x.val
  w.gated wr (.own x) (Obj.restoreReq x) (fun w =>
    if (w.restore? x).isSome || w.get (Obj.mirCommit x) == 1 then w.put (Obj.restoreState x) 4 else
    let l := (upto 16).filter (fun s => bitOf mask s && w.get (Obj.mirMode x s) != 0)
    let r : Restore := ⟨x, l.map (fun s => ⟨s, false, false, [], []⟩), false, w.time⟩
    ((w.setPair (fun p => { p with restores := p.restores ++ [r] })).put (Obj.restoreState x) 1).restoreStep x)

def execRestoreReq (wr : Writer) (x : Fin 16) (mask : Nat) (s : State) : Host.Outcome State Fault Refusal :=
  s.run (opRestoreReq wr x mask)

/-- The shard of a restore that an answer of entry n concerns. -/
def Dev.restOf (w : Dev) (n id : Nat) : Option (Nat × RestShard) :=
  let x := w.lctx n
  match w.restore? x with
  | some r => (r.shards.find? (fun t => t.asked && w.get (Obj.mirId x t.s) == id && w.get (Obj.mirPeer x t.s) == n)).map (fun t => (x, t))
  | none => none

/-- Device address of a shard range of context x for writing. -/
def Dev.shardRange (w : Dev) (x s : Nat) : Trans := w.loadXlate x (w.get (Obj.mirAddr x s)) (w.get (Obj.mirLen x s)) .write

/-- PAIRING_RESTORE_DATA_RX (R431): the first copy goes into the shard range, a further one is only hashed. -/
def opPairingRestoreDataRx (id : Nat) (w : Work) : Work :=
  match w.pairMsg id 4 with
  | none => w
  | some m =>
    let w := w.unbox id
    match w.restOf m.n (bits m.key 0 32) with
    | some (x, t) =>
      let off := bits m.key 32 8 * 2 ^ 30
      if t.copies.isEmpty then
        match w.shardRange x t.s with
        | .ok a => if off + m.data.length ≤ w.get (Obj.mirLen x t.s) then w.engWrite x (a + off) m.data else w
        | .error _ => w
      else w.mapRest x t.s (fun t => { t with parts := t.parts ++ [(bits m.key 32 8, m.data)] })
    | none => w

def execPairingRestoreDataRx (id : Nat) (s : State) : Host.Outcome State Fault Refusal := s.run (opPairingRestoreDataRx id)

/-- PAIRING_RESTORE_HDR_RX (R431): a copy is whole. -/
def opPairingRestoreHdrRx (id : Nat) (w : Work) : Work :=
  match w.pairMsg id 3 with
  | none => w
  | some m =>
    let w := w.unbox id
    match w.restOf m.n (bits m.key 0 32) with
    | some (x, t) =>
      let h := leNat (m.data.take 128)
      let said := bitOf (leNat (m.data.drop 128)) 0
      let len := w.get (Obj.mirLen x t.s)
      let first := t.copies.isEmpty
      let bytes := if first then (match w.shardRange x t.s with | .ok a => w.read a len | .error _ => [])
        else (sortNat (t.parts.map (fun p => p.1))).flatMap (fun c =>
          match t.parts.find? (fun p => p.1 == c) with | some p => p.2 | none => [])
      let good := m.data.length == 136 && said && chDone h && chLen h == len && bytes.length == len && digestLe bytes == chSum h
      let copy : RestCopy := ⟨h, good, if first then none else some bytes⟩
      (w.mapRest x t.s (fun t => { t with answered := true, copies := t.copies ++ [copy], parts := [] })).restoreAsk x 17
    | none => w

def execPairingRestoreHdrRx (id : Nat) (s : State) : Host.Outcome State Fault Refusal := s.run (opPairingRestoreHdrRx id)

/-- PAIRING_RESTORE_NONE_RX (R431): the partner has no copy. -/
def opPairingRestoreNoneRx (id : Nat) (w : Work) : Work :=
  match w.pairMsg id 5 with
  | none => w
  | some m =>
    let w := w.unbox id
    match w.restOf m.n (bits m.key 0 32) with
    | some (x, t) => (w.mapRest x t.s (fun t => { t with answered := true })).restoreAsk x 17
    | none => w

def execPairingRestoreNoneRx (id : Nat) (s : State) : Host.Outcome State Fault Refusal := s.run (opPairingRestoreNoneRx id)

/-- A candidate of R432: source (1 LOCAL, 2 PARTNER), header, its bytes unless they lie in the range. -/
structure RestCand where
  src : Nat
  hdr : Nat
  data : Option (List Byte)

/-- The (step, epoch) of a candidate as one number. Log entry 50. -/
def RestCand.key (c : RestCand) : Nat := chStep c.hdr * 2 ^ 32 + chEpoch c.hdr

/-- Intact candidates of a shard: the partner's in the order they came, then the stage's. -/
def Work.restCands (w : Work) (x : Nat) (t : RestShard) : List RestCand :=
  let fits := fun (h : Nat) => chId h == w.get (Obj.mirId x t.s) && chLen h == w.get (Obj.mirLen x t.s)
    && chRank h == w.get (Obj.restoreRank x) && decide (chStep h ≤ w.get (Obj.restoreMaxStep x))
  let far := (t.copies.filter (fun c => c.intact && fits c.hdr)).map (fun c => RestCand.mk 2 c.hdr c.data)
  let near := match w.pair.stage.find? (fun a => a.ctx == x && a.s == t.s) with
    | some a =>
      let h := w.readNat a.base 128
      if w.get (Obj.restoreRank x) = w.get (Obj.ownRank x) ∧ w.intactAt a.base = true ∧ fits h = true then
        [RestCand.mk 1 h (some (w.read (a.base + 4096) (chLen h)))] else []
    | none => []
  far ++ near

/-- Write bytes over a shard range; false when the range fails translation. Log entry 50. -/
def Work.restWrite (x s : Nat) (d : List Byte) (w : Work) : Bool × Work :=
  match w.shardRange x s with
  | .ok a => (true, w.engWrite x a d)
  | .error _ => (false, w)

/-- An entry of RESTORE_RESULT. -/
def Work.restResult (x s src divergent hdr : Nat) (w : Work) : Work :=
  w.blobPut .active (Obj.restoreResult x) (16 * s)
    (src + divergent * 8 + (if src = 0 then 0 else chEpoch hdr * 2 ^ 32 + chStep hdr * 2 ^ 64)) 16

/-- The checkpoint of a shard (R432). -/
def Work.restCkpt (x s div : Nat) (w : Work) : Work :=
  let src := 0x2008
  let fail := fun (w : Work) => (w.restResult x s 0 div 0).event 0x0905 x src s
  let len := w.get (Obj.mirLen x s)
  if w.get (Obj.mirCkpt x s) = 0 then fail w else
  match w.loadXlate x (w.get (Obj.mirCkpt x s)) (4096 + len) .read with
  | .error _ => fail w
  | .ok a =>
    let h := w.readNat a 128
    if chLen h = len ∧ w.intactAt a = true ∧ chStep h ≤ w.get (Obj.restoreMaxStep x) then
      match w.restWrite x s (w.read (a + 4096) len) with
      | (true, w) => (w.restResult x s 3 div h).event 0x0904 x src s
      | (false, w) => fail w
    else fail w

/-- The choice of R432 for one shard. -/
def Work.restChoose (x : Nat) (t : RestShard) (w : Work) : Work :=
  let cands := w.restCands x t
  match cands with
  | [] => w.restCkpt x t.s 0
  | c0 :: _ =>
    let best := cands.foldl (fun k c => max k c.key) c0.key
    let top := cands.filter (fun c => c.key == best)
    match top with
    | [] => w
    | c :: r =>
      if r.any (fun d => chSum d.hdr != chSum c.hdr) then (w.event 0x0903 x 0x2008 t.s).restCkpt x t.s 1
      else
        let pick := (top.find? (fun c => c.data.isNone)).getD c
        match pick.data with
        | none => w.restResult x t.s pick.src 0 pick.hdr
        | some d =>
          match w.restWrite x t.s d with
          | (true, w) => w.restResult x t.s pick.src 0 pick.hdr
          | (false, w) => (w.restResult x t.s 0 0 0).event 0x0905 x 0x2008 t.s

/-- RESTORE_DONE (R432): every shard has a result; the hold is released. -/
def opRestoreDone (x : Fin 16) (w : Work) : Work :=
  let x := x.val
  match w.restore? x with
  | none => w
  | some r =>
    let waiting := w.net.inbox.any (fun m => m.key / 2 ^ 48 == 0xFFE0 && w.lctx m.n == x && decide (3 ≤ bits m.key 44 4))
    if !r.ready || waiting || r.shards.any (fun t => !t.answered || !t.parts.isEmpty) then w else
    let w := w.blobPut .active (Obj.restoreResult x) 0 0 256
    let w := r.shards.foldl (fun w t => w.restChoose x t) w
    (w.setPair (fun p => { p with restores := p.restores.filter (fun r => r.ctx != x) })).put (Obj.restoreState x) 3

def execRestoreDone (x : Fin 16) (s : State) : Host.Outcome State Fault Refusal := s.run (opRestoreDone x)

/-- A context reset or DISABLE ends a restore with ABORTED; the shard ranges are undefined (R430). Log entry 51. -/
def Work.restoreAbort (x : Nat) (w : Work) : Work :=
  match w.restore? x with
  | none => w
  | some r =>
    let w := r.shards.foldl (fun w t =>
      let (d, w) := w.freeBytes (w.get (Obj.mirLen x t.s))
      (w.restWrite x t.s d).2) w
    (w.setPair (fun p => { p with restores := p.restores.filter (fun r => r.ctx != x) })).put (Obj.restoreState x) 5

/-- Pairing keeps receives posted for its KEYs (R427). -/
def pairTakes (key : Nat) : Bool := key / 2 ^ 48 == 0xFFE0

/-- The session of entry n has gone: its sends are abandoned, its receives end with their copies WRITING, its answers will
not come (R427, R434). -/
def Work.pairGone (n : Nat) (w : Work) : Work :=
  let x := w.lctx n
  let w := match w.mirror? x with
    | some m => ((m.shards.filter (fun (t : MirShard) => t.n == n && t.outcome == 0)).foldl (fun (w : Work) (t : MirShard) => w.mirrorAbandon x t.s) w).mirrorTell x
    | none => w
  let w := w.setPair (fun p => { p with recv := p.recv.filter (fun r => r.2 != n) })
  match w.restore? x with
  | some r =>
    ((r.shards.filter (fun (t : RestShard) => t.asked && w.get (Obj.mirPeer x t.s) == n)).foldl (fun (w : Work) (t : RestShard) =>
      w.mapRest x t.s (fun t => { t with answered := true, parts := [] })) w).restoreAsk x 17
  | none => w

end Sys2Proof.Machine
end

