-- ==== Sys2Proof/Machine/NetRows.lean ====
section
/-!
DEFINITION. Sys2Proof/Machine/NetRows.lean: the rows of chapter 11: ports, received and sent Exbaene packets, the timers of a
session, and the peer table.
-/
namespace Sys2Proof.Machine

/-! ### What a session's end means to its users -/

/-- A session goes to LOST, REJECTED or CLOSED with a reason: logged, ended, its users told at once (R336, R344). -/
def Work.sessGone (n st why : Nat) (w : Work) : Work :=
  (((w.sessOver n st why).plaitGone n 1).loaderGone n).pairGone n

/-- A message is DELIVERED: its user is told (R344). -/
def Work.delivered (m : TxMsg) (w : Work) : Work :=
  if m.user = 0 then w.chunkDelivered m else if m.user = 3 then w.pairDelivered m else w

/-- A protocol violation on the session of entry n: counted, logged at most once per session per 100 ms, and past VIOL_MAX
within 1 s the session is LOST (R340): the row of Table 11.13. -/
def Work.violation (n row : Nat) (w : Work) : Work :=
  match w.sess? n with
  | none => w
  | some s =>
    let x := w.lctx n
    let w := (w.bump (Obj.violations x) 1).eventLimited (0x3000000 + n) 100000000 0x0604 x (w.sessSource n) (row * 65536 + n)
    let v := s.viol.filter (fun t => decide (w.since t < 1000000000)) ++ [w.time]
    let w := w.putSess { s with viol := v }
    if w.get Obj.violMax < v.length then w.sessGone n 4 4 else w

/-! ### Received packets (R339) -/

/-- PAYLEN fits the type (Tables 11.6 to 11.9) and the bytes received. -/
def Dev.rxFits (w : Dev) (f : Rx) : Bool :=
  let n := hPaylen f.hdr
  n == f.len &&
    (match hType f.hdr with
     | 1 => decide (25 ≤ n) && n == 24 + f.data.length && decide (f.data.length ≤ mtuBytes (w.get (Obj.mtu f.port.val)))
     | 2 => n == 48
     | 3 => n == 256
     | 4 => n == 256
     | 5 => n == 4 && decide (7 ≤ bits f.ext 24 8) && decide (bits f.ext 24 8 ≤ 13)
     | 6 => n == 8
     | 7 => n == 16
     | 8 => n == 4
     | 9 => n == 0
     | _ => false)

/-- The session that a packet names: OPENING or OPEN. -/
def Dev.sessBySid (w : Dev) (sid : Nat) : Option Sess :=
  w.net.sess.find? (fun s => s.sid == sid && (w.peerSt s.n == 2 || w.peerSt s.n == 3))

/-- A frame has been received: its counters. -/
def Work.rxCounted (f : Rx) (w : Work) : Work :=
  let w := (w.bump (Obj.rxFrames f.port.val) 1).bump (Obj.fecSymCorr f.port.val) f.fix
  if f.ce ∧ hType f.hdr = 1 then w.bump (Obj.rxCe f.port.val) 1 else w

/-- The reason for which a packet is stale: 1 NO_SESSION, 2 INCARNATION, 3 CGEN; none for a current one. -/
def Dev.staleWhy (w : Dev) (f : Rx) : Option Nat :=
  match w.sessBySid (hDstSid f.hdr) with
  | none => some 1
  | some s =>
    if hDstInc f.hdr ≠ w.get Obj.incarnation then some 2
    else if hDstCgen f.hdr ≠ w.get (Obj.cgen (w.lctx s.n)) then some 3
    else none

/-- The responder enters OPEN on the first valid packet of its session (R337); the round trip of the handshake runs from its
OPEN_ACK (R348). -/
def Work.responderOpen (n : Nat) (w : Work) : Work :=
  match w.sess? n with
  | some s =>
    if w.peerSt n = 2 ∧ s.opener = false then
      ((w.putSess { s.sample (w.since s.openLast) with lastProg := w.time }).putPeerSt n 3 (w.peerWhy n)).rateStart n
    else w
  | none => w

/-- The path of R339 for a packet of type t; `act` is what the type does on the session of an entry. A packet of another
valid type is another command's. -/
def Work.rxPath (t : Nat) (f : Rx) (act : Nat → Work → Work) (w : Work) : Work :=
  let good := hVer f.hdr == 1 && decide (1 ≤ hType f.hdr) && decide (hType f.hdr ≤ 9) && w.rxFits f
  if !w.portUp f.port.val then w
  else if !good then (w.rxCounted f).bump Obj.rxMalformed 1
  else if hType f.hdr ≠ t then w
  else
    let w := w.rxCounted f
    if t = 3 then act 0 w else
    match w.staleWhy f, w.sessBySid (hDstSid f.hdr) with
    | some why, _ => (w.bump Obj.rxStale 1).reply f.port.val f.src 8 why f.hdr
    | none, none => w
    | none, some s =>
      let opening := w.peerSt s.n == 2 && s.opener
      let bound := opening || (hSrcInc f.hdr == s.peerInc && hSrcCgen f.hdr == s.peerCgen)
      if f.src ≠ pAddr (w.peer s.n) ∨ bound = false then w.violation s.n 4
      else
        let w := w.mapSess s.n (fun s => { s with lastRx := w.time })
        act s.n (if t = 5 ∨ t = 8 ∨ t = 9 then w else w.responderOpen s.n)

/-- Progress on a session (R343). -/
def Sess.progress (s : Sess) (now : Nat) : Sess := { s with k := 0, lastProg := now }

/-! ### DATA (R340, R341) -/

/-- A receive that the loader, Pairing or Plait keeps posted takes a KEY. -/
def Dev.keptTakes (w : Dev) (n key len : Nat) : Bool :=
  (key % 2 ^ 48 == 0x7FFFFFFFFFFF && len == 32 && (w.groupsOf n).contains (key / 2 ^ 48))
    || (key / 2 ^ 48 == 0xFFF0 && w.loaderTakes n key) || pairTakes key

/-- The arrival of a DATA packet is noted for the next ACK. -/
def Work.arrival (n psn : Nat) (ce : Bool) (w : Work) : Work :=
  w.mapSess n (fun s => { s with
    rxCount := s.rxCount + 1, ceCount := s.ceCount + b2n ce, echo := psn
    ackDue := match s.ackDue with | some t => some t | none => some w.time })

/-- A payload goes into its receive; a message whose bytes are all there completes (R341). -/
def Work.placeData (n : Nat) (m : RxMsg) (off : Nat) (d : List Byte) (w : Work) : Work :=
  let m : RxMsg := { m with got := m.got + d.length, parts := if m.into.isSome then [] else m.parts ++ [(off, d)] }
  let w := match m.into with
    | some p => w.engWrite (w.lctx n) (p.addr + off) d
    | none => w
  let whole := decide (m.len ≤ m.got)
  let w := w.mapSess n (fun s =>
    let rest := s.rx.filter (fun r => r.num != m.num)
    { s with rx := if whole then rest else rest ++ [m] })
  if !whole then w else
  match m.into with
  | some p => w.chunkLanded p
  | none =>
    let offs := sortNat (m.parts.map (fun p => p.1))
    let bytes := offs.flatMap (fun o => match m.parts.find? (fun p => p.1 == o) with | some p => p.2 | none => [])
    let (id, w) := w.newId
    w.setNet (fun t => { t with inbox := t.inbox ++ [⟨id, n, m.key, bytes⟩] })

/-- The ACK that an accepted packet causes at once: ACK_EVERY, or a gap opened or filled, at most once per µs. -/
def Work.dataAck (n : Nat) (gap : Bool) (bad : TxFault) (w : Work) : Work :=
  match w.sess? n with
  | none => w
  | some s =>
    let late := match s.gapAt with | some t => decide (1000 ≤ w.since t) | none => true
    if gap && late then (w.putSess { s with gapAt := some w.time }).ackNow n false bad
    else if w.get (Obj.ackEvery (w.portCls s.home)) ≤ s.rxCount then w.ackNow n false bad
    else w

/-- A DATA packet that is accepted (R341). -/
def Work.acceptData (n a : Nat) (m : RxMsg) (off : Nat) (d : List Byte) (bad : TxFault) (w : Work) : Work :=
  match w.sess? n with
  | none => w
  | some s =>
    let gap := a != s.cum || !s.ranges.isEmpty
    let w := w.putSess ((s.gotPsn a).progress w.time)
    (w.placeData n m off d).dataAck n gap bad

/-- What DATA does on the session of entry n. -/
def Work.rxData (f : Rx) (n : Nat) (w : Work) : Work :=
  match w.sess? n with
  | none => w
  | some s =>
    let x := w.lctx n
    let (psn, num, key, off, mlen) := (bits f.ext 160 32, bits f.ext 128 32, bits f.ext 64 64, bits f.ext 32 32, bits f.ext 0 32)
    let w := w.arrival n psn f.ce
    match s.unwrap psn with
    | none => (w.bump (Obj.dupPkts x) 1).ackNow n false f.reply
    | some a =>
      if s.ranges.any (fun r => decide (r.1 ≤ a) && decide (a ≤ r.2)) then (w.bump (Obj.dupPkts x) 1).ackNow n false f.reply
      else if s.cum + 65535 < a then (w.ackNow n false f.reply).violation n 5
      else if mlen < off + f.data.length then w.violation n 8
      else
        let limit := decide (16 < (rangePut a s.ranges).length)
        match s.rx.find? (fun m => m.num == num) with
        | some m =>
          if m.len ≠ mlen ∨ m.key ≠ key then w.violation n 8
          else if limit then w.bump (Obj.rangeDrop x) 1
          else w.acceptData n a m off f.data f.reply
        | none =>
          match w.net.posted.find? (fun p => p.n == n && p.key == key) with
          | some p =>
            if p.len ≠ mlen then w.violation n 8
            else if limit then w.bump (Obj.rangeDrop x) 1
            else
              let w := w.setNet (fun t => { t with posted := t.posted.erase p })
              w.acceptData n a ⟨num, key, mlen, some p, 0, []⟩ off f.data f.reply
          | none =>
            if w.keptTakes n key mlen then
              (if limit then w.bump (Obj.rangeDrop x) 1 else w.acceptData n a ⟨num, key, mlen, none, 0, []⟩ off f.data f.reply)
            else ((w.bump (Obj.rnrPkts x) 1).ackNow n true f.reply).mismatch key (pRank (w.peer n))

/-- EXB_DATA_RX (R339 to R341). -/
def opExbDataRx (f : Rx) (w : Work) : Work := w.rxPath 1 f (fun n w => w.rxData f n)
def execExbDataRx (f : Rx) (s : State) : Host.Outcome State Fault Refusal := s.run (opExbDataRx f)

/-! ### ACK (R342, R344, R346, R348) -/

/-- A 32-bit PSN of an ACK as counted from 0: near the oldest unacknowledged one. -/
def Sess.ackPsn (s : Sess) (psn : Nat) : Nat :=
  let d := (psn + 2 ^ 32 - s.una % 2 ^ 32) % 2 ^ 32
  if d < 2 ^ 31 then s.una + d else s.una + d - 2 ^ 32

/-- The ranges of an ACK: start and end, counted from 0. Log entry 44. -/
def Sess.ackRangesOf (s : Sess) (ext : Nat) : List (Nat × Nat) :=
  (upto (min (bits ext 256 3) 4)).map (fun i => (s.ackPsn (bits ext (224 - 64 * i) 32), s.ackPsn (bits ext (192 - 64 * i) 32)))

/-- The messages of a session all of whose bytes are acknowledged leave, and their users are told. -/
def Work.deliverAll (n : Nat) (w : Work) : Work :=
  let done := w.net.msgs.filter (fun m => m.n == n && decide (m.len ≤ m.acked))
  let w := w.setNet (fun t => { t with msgs := t.msgs.filter (fun m => !(m.n == n && decide (m.len ≤ m.acked))) })
  done.foldl (fun w m => w.delivered m) w

/-- The message of a refused PSN is held for RNR_US, with its packets from that PSN (R346). -/
def Work.rnrHold (n echo : Nat) (w : Work) : Work :=
  match w.sess? n with
  | none => w
  | some s =>
    let e := s.ackPsn echo
    match s.pkts.find? (fun k => k.psn == e && !k.sacked) with
    | none => w
    | some k =>
      let until_ := w.time + w.get (Obj.rnrUs (w.portCls s.home)) * 1000
      let w := (w.mapMsg n k.msg (fun (m : TxMsg) => { m with hold := some (until_, e) })).bump (Obj.rnrPkts (w.lctx n)) 1
      w.mapSess n (fun s => ({ s with
        pkts := s.pkts.map (fun (q : TxPkt) => if q.msg = k.msg ∧ e ≤ q.psn ∧ q.sacked = false then { q with heldBack := true } else q)
        } : Sess).mark w.time)

/-- What an ACK does on the session of entry n. -/
def Work.rxAck (f : Rx) (n : Nat) (w : Work) : Work :=
  match w.sess? n with
  | none => w
  | some s =>
    let cum := s.ackPsn (bits f.ext 352 32)
    let rs := s.ackRangesOf f.ext
    if s.psn < cum ∨ rs.any (fun r => decide (s.psn ≤ r.2) || decide (s.psn ≤ r.1)) then w.violation n 9 else
    let hit := fun (k : TxPkt) => decide (k.psn < cum) || rs.any (fun r => decide (r.1 ≤ k.psn) && decide (k.psn ≤ r.2))
    let fresh := s.pkts.filter (fun k => !k.sacked && hit k)
    let covered := (s.pkts.filter hit).foldl (fun c k => match c with | some t => some (max t k.first) | none => some k.first) s.covered
    let reorder := w.get (Obj.reorderNs (w.portCls s.home))
    let s' := match s.pkts.find? (fun k => k.psn == s.ackPsn (bits f.ext 320 32)) with
      | some k => s.sample (w.since k.last)
      | none => s
    let pkts := (s.pkts.filter (fun k => !decide (k.psn < cum))).map (fun (k : TxPkt) =>
      if hit k then { k with sacked := true, lost := false, heldBack := false, bytes := [] }
      else match covered with
        | some t => if k.last + reorder ≤ t ∧ k.heldBack = false then { k with lost := true } else k
        | none => k)
    let s' : Sess := { s' with pkts := pkts, covered := covered }
    let moved := decide (s.una < cum) && !s.pkts.isEmpty
    let s' := if moved || !fresh.isEmpty then s'.progress w.time else s'
    let w := w.putSess (s'.mark w.time)
    let w := fresh.foldl (fun w k => w.mapMsg n k.msg (fun (m : TxMsg) => { m with acked := m.acked + k.len })) w
    let w := w.rateAck n (bits f.ext 304 16) (bits f.ext 288 16)
    let w := if bitOf f.hdr 180 then w.rnrHold n (bits f.ext 320 32) else w
    (w.metroSync.deliverAll n).collSweep

/-- EXB_ACK_RX (R339, R342). -/
def opExbAckRx (f : Rx) (w : Work) : Work := w.rxPath 2 f (fun n w => w.rxAck f n)
def execExbAckRx (f : Rx) (s : State) : Host.Outcome State Fault Refusal := s.run (opExbAckRx f)

/-! ### Handshakes (R337) -/

/-- The entry that an OPEN or OPEN_ACK names (R337): the body is the sender's. -/
def Dev.entryFor (w : Dev) (b : Nat) : Option Nat :=
  (w.entriesOf (oDstCtx b)).find? (fun n =>
    let e := w.peer n
    pRctx e == oSrcCtx b && pRank e == oSrcRank b && pJob e == oJob b && oDstRank b == w.get (Obj.ownRank (oDstCtx b)))

/-- The first failing reason of an OPEN on port p in the order of Table 11.12. -/
def Dev.openRefusal (w : Dev) (f : Rx) : Option Nat :=
  let b := f.ext
  match w.entryFor b with
  | none => if sigOk f.hdr b then some 9 else some 8
  | some n =>
    let held := (w.net.sess.filter (fun s => w.peerSt s.n == 2)).length
    if keyMatches (w.peer n) b = false then some 7
    else if sigOk f.hdr b = false then some 8
    else if w.get (Obj.ctxState (oDstCtx b)) ≠ 1 ∨ w.peerSt n = 4 ∨ w.net.shut = true then some 10
    else if 512 ≤ held ∧ w.peerSt n ≠ 2 then some 11
    else match w.homePick n with
      | none => some 13
      | some p => if oClass b ≠ w.portCls p ∨ oMtu b ≠ w.get (Obj.mtu p) then some 12 else none

/-- An OPEN is refused: HANDSHAKE_FAIL and a REJECT. -/
def Work.openRefuse (f : Rx) (why : Nat) (w : Work) : Work :=
  (w.bump Obj.handshakeFail 1).reply f.port.val f.src 5 why f.hdr

/-- Send the OPEN_ACK of a session. -/
def Work.sendOpenAck (s : Sess) (w : Work) : Work := w.sendCtl s 4 0 s.body 256 .none

/-- The responder takes an OPEN: a new session in OPENING, its OPEN_ACK signed. -/
def Work.openTake (f : Rx) (n : Nat) (w : Work) : Work :=
  match w.homePick n with
  | none => w
  | some p =>
    let (sid, w) := w.nextSid n
    let (nonce, w) := w.entropyDraw
    let s := { w.newSess n sid p (oNonceI f.ext) false with
      peerSid := hSrcSid f.hdr, peerInc := hSrcInc f.hdr, peerCgen := hSrcCgen f.hdr }
    let (body, w) := w.openBody n p (oNonceI f.ext) (nonce % 2 ^ 128) (w.sessHdr s 4 0 256)
    let s := { s with body := body }
    ((w.addSess s).putPeerSt n 2 (w.peerWhy n)).sendOpenAck s

/-- What an OPEN does. An OPEN of the same incarnation and generation with a new nonce on an OPEN session ends that session
as one its peer has closed. While the entropy source has FAILED every OPEN is answered BUSY (R538). Log entry 45. -/
def Work.rxOpen (f : Rx) (w : Work) : Work :=
  if w.get Obj.entropyState = 1 then w.openRefuse f 11 else
  match w.entryFor f.ext, w.openRefusal f with
  | none, r => w.openRefuse f (r.getD 9)
  | some n, r =>
    let auth := keyMatches (w.peer n) f.ext && sigOk f.hdr f.ext
    match w.sess? n with
    | none => (match r with | some why => w.openRefuse f why | none => w.openTake f n)
    | some s =>
      let same := hSrcInc f.hdr == s.peerInc && hSrcCgen f.hdr == s.peerCgen
      if w.peerSt n = 3 ∧ same = false ∧ auth = true then (w.sessGone n 4 3).openRefuse f 10
      else match r with
        | some why => w.openRefuse f why
        | none =>
          if s.opener ∧ w.peerSt n = 2 then w.openRefuse f 10
          else if same && s.nonce == oNonceI f.ext && !s.opener then w.sendOpenAck s
          else if w.peerSt n = 3 then (w.sessGone n 1 5).openTake f n
          else w.openTake f n

/-- EXB_OPEN_RX (R337). -/
def opExbOpenRx (f : Rx) (w : Work) : Work := w.rxPath 3 f (fun _ w => w.rxOpen f)
def execExbOpenRx (f : Rx) (s : State) : Host.Outcome State Fault Refusal := s.run (opExbOpenRx f)

/-- Send a PROBE (R343). -/
def Work.sendProbe (n : Nat) (w : Work) : Work :=
  match w.sess? n with
  | none => w
  | some s =>
    let first := match s.probe with | some p => p.1 | none => w.time
    (w.putSess (({ s with probe := some (first, w.time) } : Sess).mark w.time)).sendCtl s 6 0 (w.time % 2 ^ 64) 8 .none

/-- What an OPEN_ACK does on the session of entry n. -/
def Work.rxOpenAck (f : Rx) (n : Nat) (w : Work) : Work :=
  match w.sess? n with
  | none => w
  | some s =>
    if w.peerSt n ≠ 2 ∨ s.opener = false then w else
    let b := f.ext
    let e := w.peer n
    let x := pLctx e
    let ok := oJob b == pJob e && oSrcRank b == pRank e && oSrcCtx b == pRctx e && oDstCtx b == x && oDstRank b == w.get (Obj.ownRank x)
      && oNonceI b == s.nonce && keyMatches e b && sigOk f.hdr b && w.get (Obj.ctxState x) == 1
      && oClass b == w.portCls s.home && oMtu b == w.get (Obj.mtu s.home)
    if !ok then w.bump Obj.handshakeFail 1 else
    let s := ({ s with peerSid := hSrcSid f.hdr, peerInc := hSrcInc f.hdr, peerCgen := hSrcCgen f.hdr } : Sess)
    let w := ((w.putSess ((s.sample (w.since s.openLast)).progress w.time)).putPeerSt n 3 (w.peerWhy n)).rateStart n
    match w.sess? n with
    | some s => if (w.nextPkt s).isNone then w.sendProbe n else w
    | none => w

/-- EXB_OPEN_ACK_RX (R337). -/
def opExbOpenAckRx (f : Rx) (w : Work) : Work := w.rxPath 4 f (fun n w => w.rxOpenAck f n)
def execExbOpenAckRx (f : Rx) (s : State) : Host.Outcome State Fault Refusal := s.run (opExbOpenAckRx f)

/-- EXB_REJECT_RX (R336, R339). -/
def opExbRejectRx (f : Rx) (w : Work) : Work := w.rxPath 5 f (fun n w => w.sessGone n 5 (bits f.ext 24 8))
def execExbRejectRx (f : Rx) (s : State) : Host.Outcome State Fault Refusal := s.run (opExbRejectRx f)

/-- EXB_STALE_RX (R336, R339). -/
def opExbStaleRx (f : Rx) (w : Work) : Work := w.rxPath 8 f (fun n w => w.sessGone n 4 2)
def execExbStaleRx (f : Rx) (s : State) : Host.Outcome State Fault Refusal := s.run (opExbStaleRx f)

/-- EXB_CLOSE_RX (R336): CLOSED; the side of lower rank opens again at once. Log entry 45. -/
def opExbCloseRx (f : Rx) (w : Work) : Work := w.rxPath 9 f (fun n w => (w.sessGone n 1 5).tryOpen n)
def execExbCloseRx (f : Rx) (s : State) : Host.Outcome State Fault Refusal := s.run (opExbCloseRx f)

/-- EXB_PROBE_RX (R333, R339): PROBE_REPLY with TIME echoed. -/
def opExbProbeRx (f : Rx) (w : Work) : Work :=
  w.rxPath 6 f (fun n w =>
    match w.sess? n with
    | some s => w.sendCtl s 7 0 (f.ext % 2 ^ 64 * 2 ^ 64 + w.time % 2 ^ 64) 16 f.reply
    | none => w)
def execExbProbeRx (f : Rx) (s : State) : Host.Outcome State Fault Refusal := s.run (opExbProbeRx f)

/-- EXB_PROBE_REPLY_RX (R339, R343, R348): progress and a round-trip sample. -/
def opExbProbeReplyRx (f : Rx) (w : Work) : Work :=
  w.rxPath 7 f (fun n w =>
    w.mapSess n (fun s => ((({ s with probe := none } : Sess).sample (w.since (bits f.ext 64 64))).progress w.time).mark w.time))
def execExbProbeReplyRx (f : Rx) (s : State) : Host.Outcome State Fault Refusal := s.run (opExbProbeReplyRx f)

/-- EXB_STALE_SESSION_RX (R339): a packet of no session, or of an old incarnation or generation. -/
def opExbStaleSessionRx (f : Rx) (w : Work) : Work :=
  if (w.staleWhy f).isSome ∧ hType f.hdr ≠ 3 then w.rxPath (hType f.hdr) f (fun _ w => w) else w
def execExbStaleSessionRx (f : Rx) (s : State) : Host.Outcome State Fault Refusal := s.run (opExbStaleSessionRx f)

/-! ### Sending and timers -/

/-- EXB_DATA_TX (R342, R347, R348, R350): the session whose turn it is on its port sends its next packet. -/
def opExbDataTx (n : Nat) (bad : TxFault) (w : Work) : Work :=
  match w.sess? n with
  | none => w
  | some s =>
    match w.sendable s with
    | none => w
    | some (x, p, path) =>
      if w.turnOf p ≠ some n then w else
      let used := w.net.turn.contains (p, n)
      let w := w.setNet (fun t => { t with turn := (if used then t.turn.filter (fun q => q.1 != p) else t.turn) ++ [(p, n)] })
      let (len, pair) := match x with
        | .again k => (k.len, match w.msgOfPkt n k.msg with | some m => m.user == 3 | none => false)
        | .fresh m len => (len, m.user == 3)
      let w := w.sendData s x p path bad
      (if pair then w.bump Obj.mirBytesSent len else w).collSweep
def execExbDataTx (n : Nat) (bad : TxFault) (s : State) : Host.Outcome State Fault Refusal := s.run (opExbDataTx n bad)

/-- EXB_ACK_DELAY_EXPIRE (R341). -/
def opExbAckDelayExpire (n : Nat) (w : Work) : Work :=
  match w.sess? n with
  | some s =>
    (match s.ackDue with
     | some t => if w.get (Obj.ackDelayNs (w.portCls s.home)) ≤ w.since t then w.ackNow n false .none else w
     | none => w)
  | none => w
def execExbAckDelayExpire (n : Nat) (s : State) : Host.Outcome State Fault Refusal := s.run (opExbAckDelayExpire n)

/-- EXB_RTO_EXPIRE (R342). Log entry 44. -/
def opExbRtoExpire (n psn : Nat) (w : Work) : Work :=
  match w.sess? n with
  | none => w
  | some s =>
    match s.pkts.find? (fun k => k.psn == psn && !k.sacked && !k.lost && !k.heldBack) with
    | some k =>
      if w.peerSt n = 3 ∧ w.rtoNs s ≤ w.since k.last then
        w.putSess { s with k := s.k + 1,
                           pkts := s.pkts.map (fun (q : TxPkt) => if q.psn = psn then { q with lost := true } else q) }
      else w
    | none => w
def execExbRtoExpire (n psn : Nat) (s : State) : Host.Outcome State Fault Refusal := s.run (opExbRtoExpire n psn)

/-- EXB_PROBE_IDLE_EXPIRE (R343): a PROBE after PROBE_IDLE_US of silence, again on the timeouts of R342. -/
def opExbProbeIdleExpire (n : Nat) (w : Work) : Work :=
  match w.sess? n with
  | none => w
  | some s =>
    if w.peerSt n ≠ 3 then w else
    match s.probe with
    | none => if w.get (Obj.probeIdleUs (w.portCls s.home)) * 1000 ≤ w.since s.lastRx then w.sendProbe n else w
    | some p => if w.rtoNs s ≤ w.since p.2 then (w.putSess { s with k := s.k + 1 }).sendProbe n else w
def execExbProbeIdleExpire (n : Nat) (s : State) : Host.Outcome State Fault Refusal := s.run (opExbProbeIdleExpire n)

/-- EXB_LOSS_TIMEOUT (R343). -/
def opExbLossTimeout (n : Nat) (w : Work) : Work :=
  match w.sess? n with
  | none => w
  | some s =>
    match s.outSince with
    | some t =>
      if w.peerSt n = 3 ∧ s.outstanding = true ∧ w.get (Obj.lossUs (w.portCls s.home)) * 1000 ≤ w.since (max s.lastProg t) then
        w.sessGone n 4 1
      else w
    | none => w
def execExbLossTimeout (n : Nat) (s : State) : Host.Outcome State Fault Refusal := s.run (opExbLossTimeout n)

/-- EXB_OPEN_RESEND (Table 11.11): every RTO_US until LOSS_US, then every OPEN_RETRY_MS. -/
def opExbOpenResend (n : Nat) (w : Work) : Work :=
  match w.sess? n with
  | none => w
  | some s =>
    let c := w.portCls s.home
    let gap := if w.since s.openAt < w.get (Obj.lossUs c) * 1000 then w.get (Obj.rtoUs c) * 1000 else w.get Obj.openRetryMs * 1000000
    if w.peerSt n = 2 ∧ s.opener = true ∧ gap ≤ w.since s.openLast then (w.putSess { s with openLast := w.time }).sendOpen s else w
def execExbOpenResend (n : Nat) (s : State) : Host.Outcome State Fault Refusal := s.run (opExbOpenResend n)

/-- EXB_REJECT_RETRY (Table 11.11): reasons 10, 11 and 13 return to OPENING after OPEN_RETRY_MS. -/
def opExbRejectRetry (n : Nat) (w : Work) : Work :=
  let why := w.peerWhy n
  match w.net.rejectedAt.find? (fun p => p.1 == n) with
  | some p =>
    if w.peerSt n = 5 ∧ (why = 10 ∨ why = 11 ∨ why = 13) ∧ w.get Obj.openRetryMs * 1000000 ≤ w.since p.2 then w.tryOpen n else w
  | none => w
def execExbRejectRetry (n : Nat) (s : State) : Host.Outcome State Fault Refusal := s.run (opExbRejectRetry n)

/-- EXB_RNR_EXPIRE (R346): the packets of a refused message go again from the refused PSN. -/
def opExbRnrExpire (n msg : Nat) (w : Work) : Work :=
  match w.msgOfPkt n msg with
  | some m =>
    (match m.hold with
     | some (t, e) =>
       if t ≤ w.time then
         (w.mapMsg n msg (fun (m : TxMsg) => { m with hold := none })).mapSess n (fun s => { s with
           pkts := s.pkts.map (fun (k : TxPkt) =>
             if k.msg = msg ∧ k.heldBack = true ∧ e ≤ k.psn then { k with heldBack := false, lost := true } else k) })
       else w
     | none => w)
  | none => w
def execExbRnrExpire (n msg : Nat) (s : State) : Host.Outcome State Fault Refusal := s.run (opExbRnrExpire n msg)

/-- EXB_RATE_INCREASE (R348). -/
def opExbRateIncrease (n : Nat) (w : Work) : Work :=
  match w.sess? n with
  | none => w
  | some s =>
    let c := w.portCls s.home
    if w.peerSt n ≠ 3 ∨ w.since s.incAt < w.get (Obj.incUs c) * 1000 then w else
    let l := w.sessRate n
    let s' : Sess := if s.incDec then s else
      let k := s.incN + 1
      let step := l.mul (Ratio.mk' (w.get (Obj.raiPermil c) * (if 5 < k then 8 else 1)) 1000)
      { s with incN := k, rate := l.min (s.rate.add step), alpha := if s.incCe then s.alpha else s.alpha.mul ⟨15, 16⟩ }
    w.putSess { s' with incAt := w.time, incDec := false, incCe := false }
def execExbRateIncrease (n : Nat) (s : State) : Host.Outcome State Fault Refusal := s.run (opExbRateIncrease n)

/-! ### The peer table (R334, R335) -/

/-- Scalars of the peer group. -/
def peerScalars : List Nat := [Obj.udpPort] ++ (upto 16).flatMap (fun x => [Obj.ownJob x, Obj.ownRank x])

/-- Entries with a byte listed in a copy of the table. -/
def peersListed (m : List (Nat × Nat)) : List Nat :=
  sortNat (((blobOf m Obj.peerTable).map (fun p => p.1 % 0x100000000 / 64)).eraseDups)

/-- A correction of an entry in force, counted. -/
def Work.fixPeer (n e : Nat) (w : Work) : Work :=
  let old := w.peer n
  if old = e then w else
  (w.blobPut .active Obj.peerTable (64 * n) e 64).clamped .fw Obj.peerTable (bits old 0 64) (bits e 0 64) (64 * n)

/-- The corrections of R335 on entry n, in order. Log entry 45. -/
def Work.correctPeer (n : Nat) (w : Work) : Work :=
  let e := w.peer n
  let x := pLctx e
  let bad := decide (131071 < pRank e) || pRank e == w.get (Obj.ownRank x) || pJob e != w.get (Obj.ownJob x)
    || (upto 8).any (fun p => w.portIp p == pAddr e)
  let w := if pValid e && bad then w.fixPeer n (setBit e 0 false) else w
  let e := w.peer n
  let mask := match (upto 8).find? (fun p => bitOf (pMask e) p) with
    | some q => (upto 8).foldl (fun m p => if w.portCls p ≠ w.portCls q then setBit m p false else m) (pMask e)
    | none => pMask e
  let w := w.fixPeer n (setBits e 64 8 mask)
  let e := w.peer n
  if pValid e && pMask e == 0 then w.fixPeer n (setBit e 0 false) else w

/-- What R335 does with entry n once the table is corrected; `old` is its former value. Log entry 45. -/
def Work.settlePeer (n old : Nat) (kept : Bool) (w : Work) : Work :=
  let e := w.peer n
  let st := w.peerSt n
  if kept && old == e && pValid e && (st == 2 || st == 3) then w
  else if pValid e then w.putPeerSt n 1 (w.peerWhy n) else w.putPeerSt n 0 (w.peerWhy n)

/-- PEER_COMMIT (R335). Log entry 45. -/
def opPeerCommit (wr : Writer) (w : Work) : Work :=
  w.gated wr .priv Obj.peerCommit (fun w =>
    let before := w
    let names := sortNat ((peersListed w.blob ++ peersListed w.blobS).eraseDups)
    let next := names.foldl (fun (w : Work) n => w.correctPeer n)
      ((w.groupToPend peerScalars [Obj.peerTable]).groupToActive peerScalars [Obj.peerTable])
    let leave := names.filter (fun n =>
      let st := w.peerSt n
      (st == 2 || st == 3) && (next.peer n != before.peer n || !pValid (next.peer n)))
    let w := leave.foldl (fun (w : Work) n =>
      let w := match w.sess? n with
        | some s => if w.peerSt n = 3 then w.sendCtl s 9 0 0 0 .none else w
        | none => w
      (((w.endSess n 1 (w.peerWhy n)).plaitGone n 5).loaderGone n).pairGone n) w
    let w := names.foldl (fun (w : Work) n => w.correctPeer n)
      ((w.groupToPend peerScalars [Obj.peerTable]).groupToActive peerScalars [Obj.peerTable])
    let w := names.foldl (fun (w : Work) n => w.settlePeer n (before.peer n) true) w
    let w := w.setNet (fun t => { t with shut := false })
    (names.foldl (fun (w : Work) n => if w.peerSt n = 1 then w.tryOpen n else w) w).clampRates)
def execPeerCommit (wr : Writer) (s : State) : Host.Outcome State Fault Refusal := s.run (opPeerCommit wr)

/-! ### Links (R325, R347) -/

/-- Port p carries no frames any more: what is outstanding on it goes again on the others, sessions move their homes
(R347). -/
def Work.portLost (p : Nat) (w : Work) : Work :=
  w.net.sess.foldl (fun (w : Work) (s : Sess) =>
    w.mapSess s.n (fun s => { s with
      pkts := s.pkts.map (fun (k : TxPkt) => if k.port = p ∧ k.sacked = false then { k with lost := true } else k) })) w

/-- Every session whose home port carries no frames moves it to the lowest port of its mask that does: SESSION_MOVED. -/
def Work.rehome (w : Work) : Work :=
  w.net.sess.foldl (fun (w : Work) (s : Sess) =>
    if w.portUp s.home then w else
    match (w.sendPorts s.n).head? with
    | some q => (w.mapSess s.n (fun s => { s with home := q })).event 0x0603 (w.lctx s.n) (0x7000 + q)
        (s.home * 2 ^ 28 + q * 2 ^ 24 + s.n)
    | none => w) w

/-- A port leaves UP or DEGRADED for DOWN: LINK_DOWN. -/
def Work.linkDown (p : Nat) (w : Work) : Work :=
  if w.portUp p then
    let w := ((w.put (Obj.linkState p) 1).bump (Obj.linkDownCount p) 1).event 0x0606 31 (0x7000 + p) p
    ((w.portLost p).rehome).clampRates
  else w.put (Obj.linkState p) 1

/-- A port goes to OFF. -/
def Work.linkOff (p : Nat) (w : Work) : Work :=
  if w.portUp p then (((w.put (Obj.linkState p) 0).portLost p).rehome).clampRates else w.put (Obj.linkState p) 0

/-- LINK_SIGNAL_DETECT (Table 11.3). -/
def opLinkSignalDetect (p : Fin 8) (w : Work) : Work :=
  if w.get (Obj.linkState p.val) = 1 then w.put (Obj.linkState p.val) 2 else w
def execLinkSignalDetect (p : Fin 8) (s : State) : Host.Outcome State Fault Refusal := s.run (opLinkSignalDetect p)

/-- LINK_UP (Table 11.3). -/
def opLinkUp (p : Fin 8) (w : Work) : Work :=
  if w.get (Obj.linkState p.val) = 2 then
    (((w.put (Obj.linkState p.val) 3).event 0x0605 31 (0x7000 + p.val) p.val).rehome).clampRates
  else w
def execLinkUp (p : Fin 8) (s : State) : Host.Outcome State Fault Refusal := s.run (opLinkUp p)

/-- LINK_DOWN (R325): loss of signal or lock. -/
def opLinkDown (p : Fin 8) (w : Work) : Work := if 2 ≤ w.get (Obj.linkState p.val) then w.linkDown p.val else w
def execLinkDown (p : Fin 8) (s : State) : Host.Outcome State Fault Refusal := s.run (opLinkDown p)

/-- LINK_DEGRADED (Table 11.3): uncorrectable codewords and corrected symbols of all symbols within 1 s. -/
def opLinkDegraded (p : Fin 8) (uncorr corr total : Nat) (w : Work) : Work :=
  let p := p.val
  if w.portUp p = false ∨ ¬ (10 < uncorr ∨ 24 * total < corr * 100000) then w else
  let w := w.setNet (fun t => { t with degAt := (p, w.time) :: t.degAt.filter (fun q => q.1 != p) })
  if w.get (Obj.linkState p) = 3 then (w.put (Obj.linkState p) 4).event 0x0607 31 (0x7000 + p) p else w
def execLinkDegraded (p : Fin 8) (uncorr corr total : Nat) (s : State) : Host.Outcome State Fault Refusal :=
  s.run (opLinkDegraded p uncorr corr total)

/-- LINK_DEGRADE_CLEAR (Table 11.3): UP again after 60 s without either condition. Log entry 45. -/
def opLinkDegradeClear (p : Fin 8) (w : Work) : Work :=
  let clear := match w.net.degAt.find? (fun q => q.1 == p.val) with | some q => decide (60000000000 ≤ w.since q.2) | none => true
  if w.get (Obj.linkState p.val) = 4 ∧ clear = true then (w.put (Obj.linkState p.val) 3).event 0x0605 31 (0x7000 + p.val) p.val
  else w
def execLinkDegradeClear (p : Fin 8) (s : State) : Host.Outcome State Fault Refusal := s.run (opLinkDegradeClear p)

/-- ETH_FRAME_BAD (R326, R327, R479). -/
def opEthFrameBad (p : Fin 8) (why : BadFrame) (w : Work) : Work :=
  if !w.portUp p.val then w else
  let w := (w.bump (Obj.rxFrames p.val) 1).bump (Obj.rxDrop p.val) 1
  match why with
  | .fec n => w.bump (Obj.fecCwUncorr p.val) n
  | .fcs => w
  | .check => w
  | .parity => w.xqParity (11 * 1024 + p.val)
def execEthFrameBad (p : Fin 8) (why : BadFrame) (s : State) : Host.Outcome State Fault Refusal := s.run (opEthFrameBad p why)

/-! ### Port commits (R22, R23, R323) -/

/-- Scalars of the ports of I/O die d. -/
def portScalars (d : Nat) : List Nat :=
  (upto 4).flatMap (fun i =>
    let p := 4 * d + i
    [Obj.portEn p, Obj.portSpeed p, Obj.portClass p, Obj.gwMac p, Obj.metroBufMib p, Obj.flowPaths p, Obj.mtu p])
/-- BLOBs of the ports of I/O die d. -/
def portBlobs (d : Nat) : List Nat := (upto 4).map (fun i => Obj.portAddr (4 * d + i))

/-- The pending configuration in force with its clamps counted (R323). -/
def Work.portsTake (d : Nat) (w : Work) : Work :=
  let w := w.groupToActive (portScalars d) (portBlobs d)
  let w := [1, 3].foldl (fun w i => if w.get (Obj.portSpeed (4 * d + i)) = 1 then w.fixObj (Obj.portSpeed (4 * d + i)) 0 else w) w
  [1, 3].foldl (fun w i =>
    if w.get (Obj.portSpeed (4 * d + i - 1)) = 1 ∧ w.get (Obj.portEn (4 * d + i)) = 1 then w.fixObj (Obj.portEn (4 * d + i)) 0 else w) w

/-- Committed regions that R23 protects, as first address and bytes. -/
def Dev.committed (w : Dev) : List (Nat × Nat) :=
  ((upto 64).filter (fun b => w.get (Obj.pbOwner b) != 0xFF)).map (fun b => (w.get (Obj.pbBase b), w.pbBytes b))
    ++ ((upto 3).filter (fun s => w.get (Obj.slotState s) != 0)).flatMap w.slotRegions
    ++ (if w.get Obj.arenaLen = 0 then [] else [(w.get Obj.arenaBase, w.get Obj.arenaLen)])
    ++ w.ext.spills.flatMap (fun s => [(s.src, s.len), (s.dst, s.len)])

/-- The commit of die d must wait: the carve-out would grow over a committed region (R23). -/
def Work.carveWait (w : Work) (d : Nat) : Bool :=
  let have_ := w.carveBytes d
  let want := (w.portsTake d).carveBytes d
  let top := nearBase d + 0x400000000
  decide (have_ < want) && regionsMeet [(top - want, want - have_)] w.committed

/-- CARVEOUT_WAIT, logged once per commit. Log entry 45. -/
def Work.carveLog (d : Nat) (w : Work) : Work :=
  let key := 0x4000000 + d
  if w.log.lastAt.any (fun p => p.1 == key) then w else (w.rateMark key).event 0x060B 31 0 d

/-- PORTS_COMMIT (R323). -/
def opPortsCommit (wr : Writer) (d : Fin 2) (w : Work) : Work :=
  let n := if d.val = 0 then Obj.portsCommitIo0 else Obj.portsCommitIo1
  w.gated wr .host n (fun w =>
    let w := w.commitReq wr n (portScalars d.val) (portBlobs d.val)
    if w.carveWait d.val then w.carveLog d.val else w)
def execPortsCommit (wr : Writer) (d : Fin 2) (s : State) : Host.Outcome State Fault Refusal := s.run (opPortsCommit wr d)

/-- An object of port p differs between two devices. -/
def portDiffers (a b : Dev) (p : Nat) : Bool :=
  [Obj.portEn p, Obj.portSpeed p, Obj.portClass p, Obj.gwMac p, Obj.metroBufMib p, Obj.flowPaths p, Obj.mtu p].any (fun n =>
      a.get n != b.get n)
    || a.blobNat .active (Obj.portAddr p) 0 16 != b.blobNat .active (Obj.portAddr p) 0 16
    || a.portPresent p != b.portPresent p

/-- Segments that reach into the carve-out of die d end below it: SEGMENT_CLAMPED (R22), whose code the spec does not state:
a free value. -/
def Work.carveClamp (d : Nat) (w : Work) : Work :=
  let top := nearBase d + 0x400000000
  let low := top - w.carveBytes d
  forUpto (fun x w =>
    (w.segTable .active x).foldl (fun (w : Work) p =>
      let e := p.2
      if segValid e ∧ segBase e * 4096 < top ∧ nearBase d ≤ segBase e * 4096 ∧ low / 4096 ≤ segLimit e then
        let (code, w) := w.freeDraw
        (w.correctDesc .fw .active (Obj.segTable x) (16 * p.1) [fun e => setBits e 76 36 (low / 4096 - 1)]).event (code % 65536) x 0 x
      else w) w) 16 w

/-- PORTS_COMMIT_APPLY (R22, R23, R323). -/
def opPortsCommitApply (d : Fin 2) (w : Work) : Work :=
  let d := d.val
  let n := if d = 0 then Obj.portsCommitIo0 else Obj.portsCommitIo1
  if w.get n ≠ 1 then w
  else if w.carveWait d then w.carveLog d
  else
    let next := w.portsTake d
    let ports := ((upto 4).map (fun i => 4 * d + i)).filter (fun p => portDiffers w.toDev next.toDev p)
    if ports.any (fun p => w.portCls p == 2 && w.metroBytes p != 0) then w else
    let grew := decide (w.carveBytes d < next.carveBytes d)
    let w := { next with log := { next.log with lastAt := next.log.lastAt.filter (fun p => p.1 != 0x4000000 + d) } }
    let w := if grew then w.carveClamp d else w
    let w := ports.foldl (fun (w : Work) p =>
      if w.get (Obj.portEn p) = 1 ∧ w.portPresent p = true then w.linkDown p else w.linkOff p) w
    (w.put n 0).metroSync
def execPortsCommitApply (d : Fin 2) (s : State) : Host.Outcome State Fault Refusal := s.run (opPortsCommitApply d)

end Sys2Proof.Machine
end

