-- ==== Sys2Proof/Machine/Ptp.lean ====
section
/-!
DEFINITION. Sys2Proof/Machine/Ptp.lean: the PTP servo (R353 to R355) and the advance of device time (R354).
-/
namespace Sys2Proof.Machine

/-- Change the servo. -/
def Work.setPtp (f : PtpState → PtpState) (w : Work) : Work := w.setNet (fun t => { t with ptp := f t.ptp })

/-- A PTP message of the domain on PTP_PORT is taken while PTP_EN = 1. -/
def Dev.ptpOn (w : Dev) (p domain : Nat) : Bool :=
  w.get Obj.ptpEn == 1 && w.get Obj.ptpPort == p && w.portUp p && w.get Obj.ptpDomain == domain

/-- The servo enters a state: PTP_LOCKED on entering LOCKED, PTP_UNLOCKED on leaving it (R355). -/
def Work.ptpEnter (st : Nat) (w : Work) : Work :=
  let old := w.get Obj.ptpState
  if old = st then w else
  let src := 0x7000 + w.get Obj.ptpPort
  let w := w.put Obj.ptpState st
  if st = 2 then w.event 0x0608 31 src 0 else if old = 2 then w.event 0x0609 31 src st else w

/-- The fields by which the default algorithm orders grandmasters (IEEE 1588), best first. Log entry 46. -/
def announceOrder (a : Announce) : List Nat := [a.prio1, a.cls, a.acc, a.var, a.prio2, a.gm, a.steps, a.sender]

/-- a is better than b. Log entry 46. -/
def announceBetter (a b : Announce) : Bool := decide (announceOrder a < announceOrder b)

/-- A hardware timestamp: device time within ±8 ns, to 2 ns (Table 11.15). The error is a free value. Log entry 47. -/
def Work.stamp (w : Work) : Nat × Work :=
  let (e, w) := w.freeDraw
  ((w.time + 2 * (e % 9) - 8) / 2 * 2, w)

/-- PTP_ANNOUNCE_RX (R353, R355). Log entry 46. -/
def opPtpAnnounceRx (p : Fin 8) (a : Announce) (w : Work) : Work :=
  if !w.ptpOn p.val a.domain then w else
  let w := w.bump (Obj.rxFrames p.val) 1
  let take := match w.net.ptp.gm with
    | some b => announceBetter a b || a.sender == b.sender
    | none => true
  if !take then w else
  let same := match w.net.ptp.gm with | some b => a.gm == b.gm | none => false
  let w := w.setPtp (fun t => { t with gm := some a })
  let w := w.blobPut .active Obj.ptpGmId 0 (leNat ((beBytes a.gm 8).map (BitVec.ofNat 8))) 8
  if same then w else
  (w.setPtp (fun t => { t with good := 0, two := none, req := none, syncAt := w.time })).ptpEnter 1

def execPtpAnnounceRx (p : Fin 8) (a : Announce) (s : State) : Host.Outcome State Fault Refusal := s.run (opPtpAnnounceRx p a)

/-- The servo takes a measured offset (R354, R355): a forward step beyond PTP_STEP_NS, otherwise a frequency correction within
±200 ppm and a slew against the offset within ±100 ppm; the loop's values are free within those bounds. Log entry 47. -/
def Work.servo (off : Int) (w : Work) : Work :=
  let held := max (-(2 : Int) ^ 31) (min off ((2 : Int) ^ 31 - 1))
  let w := w.put Obj.ptpOffsetNs (toSigned 32 held)
  let (a, w) := w.freeDraw
  let (b, w) := w.freeDraw
  let freq : Int := (a % 400001 : Nat) - 200000
  let slew : Int := (b % 100001 : Nat)
  let step := decide (off < -(w.get Obj.ptpStepNs : Int))
  let w := if step then
      let n := (-off).toNat
      let w := { w with time := w.time + n }
      ((w.event 0x060A 31 (0x7000 + w.get Obj.ptpPort) (min (n / 1000) (maxU 32))).bump Obj.ptpSteps 1).setPtp (fun t =>
        { t with freq := freq, slew := 0, good := 0 })
    else
      let good := if -200 < off ∧ off < 200 then w.net.ptp.good + 1 else 0
      w.setPtp (fun t => { t with freq := freq, slew := if 0 < off then -slew else if off < 0 then slew else 0, good := good })
  if w.get Obj.ptpState = 3 then w.ptpEnter 1
  else if w.get Obj.ptpState = 1 ∧ 16 ≤ w.net.ptp.good then w.ptpEnter 2
  else w

/-- A Sync measurement: arrival minus origin, less the path delay. Log entry 47. -/
def Work.measured (t2 t1 : Nat) (w : Work) : Work :=
  let d : Int := (t2 : Int) - t1
  (w.setPtp (fun t => { t with d21 := d, two := none })).servo (d - w.net.ptp.delay)

/-- A message of the chosen grandmaster. -/
def Dev.fromGm (w : Dev) (gm : Nat) : Bool := match w.net.ptp.gm with | some a => a.gm == gm | none => false

/-- PTP_SYNC_RX (R355): one-step, or the first half of two-step. -/
def opPtpSyncRx (p : Fin 8) (domain gm seq : Nat) (twoStep : Bool) (t1 : Nat) (w : Work) : Work :=
  if !w.ptpOn p.val domain || !w.fromGm gm then w else
  let w := w.bump (Obj.rxFrames p.val) 1
  let (t2, w) := w.stamp
  let w := w.setPtp (fun t => { t with syncAt := w.time })
  if twoStep then w.setPtp (fun t => { t with two := some (seq, t2) }) else w.measured t2 t1

def execPtpSyncRx (p : Fin 8) (domain gm seq : Nat) (twoStep : Bool) (t1 : Nat) (s : State) :
    Host.Outcome State Fault Refusal := s.run (opPtpSyncRx p domain gm seq twoStep t1)

/-- PTP_FOLLOW_UP_RX. -/
def opPtpFollowUpRx (p : Fin 8) (domain gm seq t1 : Nat) (w : Work) : Work :=
  if !w.ptpOn p.val domain || !w.fromGm gm then w else
  let w := w.bump (Obj.rxFrames p.val) 1
  match w.net.ptp.two with
  | some (q, t2) => if q = seq then w.measured t2 t1 else w
  | none => w

def execPtpFollowUpRx (p : Fin 8) (domain gm seq t1 : Nat) (s : State) : Host.Outcome State Fault Refusal :=
  s.run (opPtpFollowUpRx p domain gm seq t1)

/-- PTP_DELAY_REQ_TX (Table 11.15): unicast, at the rate the grandmaster's Announce sets. -/
def opPtpDelayReqTx (w : Work) : Work :=
  let p := w.get Obj.ptpPort
  match w.net.ptp.gm with
  | none => w
  | some a =>
    let due := match w.net.ptp.reqAt with | some t => decide (a.interval ≤ w.since t) | none => true
    if !w.ptpOn p a.domain || !due then w else
    let (t3, w) := w.stamp
    let seq := w.net.ptp.reqSeq
    let w := w.setPtp (fun t => { t with req := some (seq, t3), reqAt := some w.time, reqSeq := (seq + 1) % 65536 })
    (w.bump (Obj.txFrames p) 1).send (.ptp 1 [p, w.portIp p, a.sender, a.domain, seq])

def execPtpDelayReqTx (s : State) : Host.Outcome State Fault Refusal := s.run opPtpDelayReqTx

/-- PTP_DELAY_RESP_RX: the path delay is half the sum of the two differences. -/
def opPtpDelayRespRx (p : Fin 8) (domain gm seq t4 : Nat) (w : Work) : Work :=
  if !w.ptpOn p.val domain || !w.fromGm gm then w else
  let w := w.bump (Obj.rxFrames p.val) 1
  match w.net.ptp.req with
  | some (q, t3) =>
    if q = seq then w.setPtp (fun t => { t with delay := (t.d21 + ((t4 : Int) - t3)) / 2, req := none }) else w
  | none => w

def execPtpDelayRespRx (p : Fin 8) (domain gm seq t4 : Nat) (s : State) : Host.Outcome State Fault Refusal :=
  s.run (opPtpDelayRespRx p domain gm seq t4)

/-- PTP_HOLDOVER (R355): no Sync for 3 s; the last frequency correction is kept. -/
def opPtpHoldover (w : Work) : Work :=
  let st := w.get Obj.ptpState
  if (st = 1 ∨ st = 2) ∧ 3000000000 ≤ w.since w.net.ptp.syncAt then (w.setPtp (fun t => { t with slew := 0, good := 0 })).ptpEnter 3
  else w

def execPtpHoldover (s : State) : Host.Outcome State Fault Refusal := s.run opPtpHoldover

/-- PTP_EN = 0 (R355): FREE_RUN. -/
def Work.ptpOff (w : Work) : Work :=
  (w.setPtp (fun _ => PtpState.reset)).ptpEnter 0

/-- One cycle of the 500 MHz time base (R354): 2 ns × (1 + f), f the frequency correction and the slew in parts of 10⁹. Log entries 8, 47. -/
def Work.tick (w : Work) : Work :=
  let f := w.net.ptp.freq + w.net.ptp.slew
  let units := ((w.net.ptp.sub : Int) + 2 * (1000000000 + f)).toNat
  { w.setPtp (fun t => { t with sub := units % 1000000000 }) with time := w.time + units / 1000000000 }

end Sys2Proof.Machine
end

