-- ==== Sys2Proof/Machine/Segs.lean ====
section
/-!
DEFINITION. Sys2Proof/Machine/Segs.lean: writes and commits of segment tables (R30 to R32) and of PRIV (R74).
-/
namespace Sys2Proof.Machine

/-- Bytes written to the staged table of context x: reserved bits are dropped, and each descriptor whose bytes change is
corrected (R30). -/
def Work.segWrite (wr : Writer) (x off : Nat) (d : List Byte) (w : Work) : Work :=
  let num := Obj.segTable x
  if d.isEmpty then w else
  let first := off / 16
  let last := (off + d.length - 1) / 16
  forUpto (fun k w =>
    let i := first + k
    if 63 < i then w else
    let old := w.blobNat .staged num (16 * i) 16
    let bytes := (upto 16).map (fun j =>
      let a := 16 * i + j
      if off ≤ a ∧ a < off + d.length then d.getD (a - off) 0#8 else BitVec.ofNat 8 (bits old (8 * j) 8))
    let new := segKeep (leNat bytes)
    if new = old then w
    else (w.blobPut .staged num (16 * i) new 16).correctDesc wr .staged num (16 * i) (w.segRules (w.isPriv x))) (last + 1 - first) w

/-- SEG_TABLE_WRITE (R30, R31). -/
def opSegTableWrite (wr : Writer) (x : Fin 16) (off : Nat) (data : List Byte) (w : Work) : Work :=
  w.gated wr (.privCtx x.val) (Obj.segTable x.val) (fun w =>
    if 1024 < off + data.length then w else w.segWrite wr x.val off data)

def execSegTableWrite (wr : Writer) (x : Fin 16) (off : Nat) (data : List Byte) (s : State) :
    Host.Outcome State Fault Refusal := s.run (opSegTableWrite wr x off data)

/-- The commit of a context's table: rule 5 again over the staged copy and the one it leaves; engines with commands in flight
apply it at their next command boundary (R30, R32). -/
def Work.segCommit (wr : Writer) (x : Nat) (w : Work) : Work :=
  if w.get (Obj.segCommit x) = 1 then w.noAction wr (Obj.segCommit x) 1 else
  let w := (w.correctShared wr .staged x).commitReq wr (Obj.segCommit x) [] [Obj.segTable x]
  let busy := (upto 5).filter (fun q => w.inflight x q != 0)
  { w with q := { w.q with segWait := w.q.segWait.filter (fun p => p.1 != x) ++ busy.map (fun q => (x, q)) } }

/-- SEG_COMMIT (R30 to R32). -/
def opSegCommit (wr : Writer) (x : Fin 16) (w : Work) : Work :=
  w.gated wr (.privCtx x.val) (Obj.segCommit x.val) (fun w => w.segCommit wr x.val)

def execSegCommit (wr : Writer) (x : Fin 16) (s : State) : Host.Outcome State Fault Refusal := s.run (opSegCommit wr x)

/-- Every engine of the context is past a command boundary since the commit. Log entry 53. -/
def Dev.segsTaken (w : Dev) (x : Nat) : Bool :=
  !w.q.segWait.any (fun p => p.1 == x && w.inflight x p.2 != 0)

/-- SEG_COMMIT_APPLIED (R32); a spill in progress holds it back (R297). -/
def opSegCommitApplied (x : Fin 16) (w : Work) : Work :=
  let x := x.val
  if w.get (Obj.segCommit x) = 1 ∧ w.segsTaken x = true ∧ w.spilling x = false then
    let w := { w with q := { w.q with segWait := w.q.segWait.filter (fun p => p.1 != x) } }
    (w.groupToActive [] [Obj.segTable x]).put (Obj.segCommit x) 0
  else w

def execSegCommitApplied (x : Fin 16) (s : State) : Host.Outcome State Fault Refusal := s.run (opSegCommitApplied x)

/-- Privileged contexts. Log entry 53. -/
def Dev.privCount (w : Dev) : Nat := ((upto 16).filter (fun c => w.isPriv c)).length

/-- What a write of bit [0] to PRIV leaves (R74). Log entry 53. -/
def Dev.privHeld (w : Dev) (x v : Nat) : Nat :=
  let cur := b2n (w.isPriv x)
  if x = 0 then 1
  else if w.get (Obj.ctxState x) ≠ 0 then cur
  else if v = 1 ∧ cur = 0 ∧ 4 ≤ w.privCount then 0
  else v

/-- A write to PRIV (R74): when it clears privilege, rule 5 of R30 over both tables. Log entry 53. -/
def Work.privWrite (wr : Writer) (x v : Nat) (w : Work) : Work :=
  let v := v % 2
  let held := w.privHeld x v
  let was := w.isPriv x
  let w := (w.clampTo wr (Obj.priv x) v held).put (Obj.priv x) held
  if was && held == 0 then (w.correctShared wr .staged x).correctShared wr .active x else w

/-- PRIV_WRITE (R74). -/
def opPrivWrite (wr : Writer) (x : Fin 16) (v : Nat) (w : Work) : Work :=
  w.gated wr .host (Obj.priv x.val) (fun w => w.privWrite wr x.val v)

def execPrivWrite (wr : Writer) (x : Fin 16) (v : Nat) (s : State) : Host.Outcome State Fault Refusal :=
  s.run (opPrivWrite wr x v)

end Sys2Proof.Machine
end

