-- ==== Sys2Proof/Machine/Control.lean ====
section
/-!
DEFINITION. Sys2Proof/Machine/Control.lean: contexts, queues, doorbells, pattern admission, the start and completion of
commands, and the commands of the control queue (chapter 03).
-/
namespace Sys2Proof.Machine

/-! ### Doorbells (R81, R82, R104) -/

/-- A doorbell write that fails the checks: counted and logged with its offset in the page. -/
def Work.doorbellBad (fn x off : Nat) (w : Work) : Work :=
  (w.bump Obj.doorbellInvalidCount 1).event 0x0203 x (0xA000 + fn) off

/-- A doorbell write by a function to a page of its region: the physical function has 16 pages, a virtual function its own
(R81); before READY it is dropped (R531). -/
def Work.doorbell (fn x : Nat) (act : Work → Work) (w : Work) : Work :=
  if fn ≠ 0 ∧ fn ≠ x then w
  else if w.ready then act w else w.hostDrop

/-- a − b modulo 2^32. -/
def sub32 (a b : Nat) : Nat := (a + 2 ^ 32 - b % 2 ^ 32) % 2 ^ 32

/-- DOORBELL_SQ_TAIL (R82). Log entry 59. -/
def opDoorbellSqTail (fn x : Fin 16) (q : Fin 5) (width v : Nat) (w : Work) : Work :=
  let (x, q, v) := (x.val, q.val, v % 2 ^ 32)
  w.doorbell fn.val x (fun w =>
    let n := 2 ^ w.get (Obj.sqLog2 x q)
    if width = 32 ∧ w.get (Obj.ctxState x) ≠ 0 ∧ w.q.committed.contains (x, q) = true ∧ sub32 v (w.get (Obj.sqTail x q)) ≤ n
        ∧ sub32 v (w.get (Obj.sqHead x q)) ≤ n then w.put (Obj.sqTail x q) v
    else w.doorbellBad fn.val x (8 * q))

def execDoorbellSqTail (fn x : Fin 16) (q : Fin 5) (width v : Nat) (s : State) : Host.Outcome State Fault Refusal :=
  s.run (opDoorbellSqTail fn x q width v)

/-- DOORBELL_CQ_HEAD (R82). -/
def opDoorbellCqHead (fn x : Fin 16) (q : Fin 5) (width v : Nat) (w : Work) : Work :=
  let (x, q, v) := (x.val, q.val, v % 2 ^ 32)
  w.doorbell fn.val x (fun w =>
    let old := w.get (Obj.cqHead x q)
    if width = 32 ∧ w.get (Obj.ctxState x) ≠ 0 ∧ w.q.committed.contains (x, q) = true
        ∧ sub32 v old ≤ sub32 (w.get (Obj.cqTail x q)) old then
      let w := w.put (Obj.cqHead x q) v
      w.payOwed x q w.q.owed.length
    else w.doorbellBad fn.val x (0x40 + 8 * q))

def execDoorbellCqHead (fn x : Fin 16) (q : Fin 5) (width v : Nat) (s : State) : Host.Outcome State Fault Refusal :=
  s.run (opDoorbellCqHead fn x q width v)

/-- EVT_HOST (R104): ADD in bits [63:8], the counter in [7:0]. Log entry 59. -/
def opEvtHost (fn x : Fin 16) (width v : Nat) (w : Work) : Work :=
  let x := x.val
  w.doorbell fn.val x (fun w =>
    if width = 64 ∧ w.get (Obj.ctxState x) ≠ 0 then w.evtAdd x (bits v 0 8) (bits v 8 56)
    else w.doorbellBad fn.val x 0x80)

def execEvtHost (fn x : Fin 16) (width v : Nat) (s : State) : Host.Outcome State Fault Refusal :=
  s.run (opEvtHost fn x width v)

/-! ### Admission (R85, R86) -/

/-- Device address of a pattern's commands: the whole range through segments with PAT = 1 (R28). -/
def Dev.patTrans (w : Dev) (x base n : Nat) (slot add : Option Nat) : Trans :=
  w.xlate x (w.bindSegs x slot add (w.segNow x)) base (64 * n) .pattern

/-- The command of a pattern that is next is fetched; it is next from now on. -/
def Work.fetchNext (pid : Nat) (w : Work) : Work :=
  match w.pat? pid with
  | none => w
  | some p =>
    if p.ncmd ≤ p.next then w else
    match w.patTrans p.ctx p.base p.ncmd p.slot p.addSel with
    | .ok a =>
      let h := w.readNat (a + 64 * p.next) 64
      let go := !cWait h || decide (cWval h ≤ w.evt p.ctx (cWevt h))
      w.mapPat pid (fun (p : Pattern) => { p with head := h, bad := none, since := w.time, released := go })
    | .error e => w.mapPat pid (fun (p : Pattern) => { p with head := 0, bad := some e, since := w.time, released := true })

/-- Admission of context x waits for an in-place load or a swap (R410, R412). -/
def Dev.paused (w : Dev) (x : Nat) : Bool := w.get Obj.admitPause != 0 && w.get (Obj.modelBind x) == 1

/-- Queue q of context x may run: its context ACTIVE and not being disabled, the queue RUNNING. Log entry 19. -/
def Dev.mayRun (w : Dev) (x q : Nat) : Bool :=
  w.get (Obj.ctxState x) == 1 && w.get (Obj.qState x q) == 1 && !w.q.disabling.contains x

/-- A pattern is due for admission: one is submitted, and the last command of the one before has started. -/
def Dev.admitDue (w : Dev) (x q : Nat) : Bool :=
  w.mayRun x q && w.get (Obj.sqHead x q) != w.get (Obj.sqTail x q) && (w.curPat? x q).isNone && !w.q.flushing.contains (x, q)

/-- Read the descriptor at SQ_HEAD: its device address fails translation, or the 16 bytes. -/
def Work.sqDesc (w : Work) (x q : Nat) : Except (Nat × Nat) Nat :=
  let i := w.get (Obj.sqHead x q)
  let a := w.get (Obj.sqBase x q) + 16 * (i % 2 ^ w.get (Obj.sqLog2 x q))
  match w.xlate x (w.bindSegs x none none (w.segNow x)) a 16 .read with
  | .ok a => .ok (w.readNat a 16)
  | .error e => .error e

/-- A pattern whose deadline has lapsed (R86): its SIGNALs apply and its record posts; a range that fails translation applies
none and halts the queue. -/
def Work.missed (x q d : Nat) (w : Work) : Work :=
  let n := pNcmd d
  let w := w.bump (Obj.deadlineMissCount x) 1
  let rec_ := fun (st det : Nat) (w : Work) =>
    w.postOwed x q (mkRecord st 0 true (w.lapsed (pDeadline d)) none q x (pTag d) (n - 1) 0 0 det) (pPirq d || isFault st)
  let t := w.patTrans x (pPaddr d) n (if w.get (Obj.modelBind x) = 1 then w.currentSlot else none) (w.currentAdd x)
  match n, t with
  | 0, _ => rec_ 0x0202 0 w
  | _, .error (st, det) => (rec_ st det w).haltQueue x q st det
  | _, .ok a =>
    let w := forUpto (fun i w =>
      let h := w.readNat (a + 64 * i) 64
      if cSignal h then w.evtAdd x (cSevt h) 1 else w) n w
    rec_ 0x0202 0 w

/-- The pattern of descriptor d is admitted (R85): steps 3 and 4. Log entry 19. -/
def Work.admitPattern (x q i d : Nat) (w : Work) : Work :=
  let w := if pReq d then w.addSwapNow x else w
  let bound := w.get (Obj.modelBind x) == 1
  let slot := if pReq d && bound then w.currentSlot else none
  let add := if pReq d then w.currentAdd x else none
  let epoch := if pReq d then
      some (if bound then (match slot with | some s => w.get (Obj.slotEpoch s) | none => w.get (Obj.ctxEpoch x))
        else w.get (Obj.ctxEpoch x))
    else none
  if pNcmd d = 0 then w.postOwed x q (mkRecord 0 0 true false epoch q x (pTag d) 0 0 0 0) (pPirq d)
  else
    let w := (w.holdSlot slot).holdAdd x add
    let (pid, w) := w.newId
    let p : Pattern :=
      { pid := pid, ctx := x, q := q, idx := i, base := pPaddr d, ncmd := pNcmd d, tag := pTag d, req := pReq d, pirq := pPirq d,
        deadline := pDeadline d, epoch := epoch, slot := slot, addSel := add, next := 0, ended := 0, cut := 0, isCut := false,
        status := 0, detail := 0, conv := 0, r1 := 0, r2 := 0, head := 0, bad := none, since := w.time, released := false }
    (w.setPats (w.q.pats ++ [p])).fetchNext pid

/-- PATTERN_ADMIT (R83 to R86). -/
def opPatternAdmit (x : Fin 16) (q : Fin 5) (w : Work) : Work :=
  let (x, q) := (x.val, q.val)
  if w.admitDue x q = false ∨ w.paused x = true then w else
  match w.sqDesc x q with
  | .error (st, det) => w.haltQueue x q st det
  | .ok d =>
    let i := w.get (Obj.sqHead x q)
    let w := w.put (Obj.sqHead x q) ((i + 1) % 2 ^ 32)
    if w.lapsed (pDeadline d) then w.missed x q d else w.admitPattern x q i d

def execPatternAdmit (x : Fin 16) (q : Fin 5) (s : State) : Host.Outcome State Fault Refusal := s.run (opPatternAdmit x q)

/-- ADMIT_PAUSE_TICK (R411): the deadline check on the head of a paused queue. -/
def opAdmitPauseTick (x : Fin 16) (q : Fin 5) (w : Work) : Work :=
  let (x, q) := (x.val, q.val)
  if w.admitDue x q = false ∨ w.paused x = false then w else
  match w.sqDesc x q with
  | .error (st, det) => w.haltQueue x q st det
  | .ok d =>
    if w.lapsed (pDeadline d) then (w.put (Obj.sqHead x q) ((w.get (Obj.sqHead x q) + 1) % 2 ^ 32)).missed x q d else w

def execAdmitPauseTick (x : Fin 16) (q : Fin 5) (s : State) : Host.Outcome State Fault Refusal := s.run (opAdmitPauseTick x q)

/-! ### Starting a command (R87, R92, R93, R570) -/

/-- Table 03.8: the queue runs the opcode. -/
def opcodeOn (q op : Nat) : Bool :=
  match q with
  | 0 => op == 0x00 || op == 0x10
  | 1 => op == 0x00 || op == 0x20 || op == 0x21 || op == 0x22
  | 2 => op == 0x00 || op == 0x30 || op == 0x31
  | 3 => op == 0x00 || op == 0x40
  | _ => decide (op ≤ 0x07)

/-- The checks of a command that need no memory access, in the order of R570: status and DETAIL of the first that fails. -/
def Dev.cmdCheck (w : Dev) (c : Cmd) : Option (Nat × Nat) :=
  let r := c.raw
  let op := cOpcode r
  if opcodeOn c.q op = false then some (0x0210, op)
  else if cNpb r ≠ 0 ∧ ¬ ((op = 0x40 ∨ op = 0x31) ∧ cNpb r ≤ 8) then some (0x0211, 16)
  else match op with
    | 0x03 => if kQmask r = 0 then some (0x0211, 128) else none
    | 0x04 => if kTmode r = 3 ∧ kValue r < 1000 then some (0x0211, 192) else none
    | 0x10 => w.checkTileLaunch c
    | 0x20 => w.checkCopy c
    | 0x21 => w.checkPrefetch c
    | 0x22 => w.checkCancel c
    | 0x30 => w.checkPicot c
    | 0x31 => w.checkPicot c
    | 0x40 => if 6 < lOp r then some (0x0211, 176) else none
    | _ => none

/-- The start condition of R87 but its WAIT, with the holds of R103, R297 and R410, and of an instance in reset (R459). -/
def Dev.startOk (w : Dev) (p : Pattern) : Bool :=
  let (x, q) := (p.ctx, p.q)
  w.mayRun x q && (!w.stepHold x || q == 4) && decide (w.inflight x q < queueLimit q)
    && decide (w.reserved x q + 1 + (if p.next + 1 = p.ncmd then 1 else 0) ≤ w.cqFree x q)
    && (!cFence p.head || w.inflight x q == 0) && !w.spilling x && (p.req || !w.paused x) && !w.headHeld p

/-- The next command of a pattern starts; `early` is the end of one that is not executed. -/
def Work.startCmd (p : Pattern) (early : Option (Nat × Nat)) (w : Work) : Work :=
  let (x, q) := (p.ctx, p.q)
  let w := { w with q := { w.q with segWait := w.q.segWait.filter (fun s => s != (x, q)) } }
  let w := if q = 1 then w.packApply x else w
  let (id, w) := w.newId
  let own := !p.req && early.isNone
  let slot := if own && w.get (Obj.modelBind x) == 1 then w.currentSlot else none
  let add := if own then w.currentAdd x else none
  let (bs, ba) := if p.req then (p.slot, p.addSel) else (slot, add)
  let c : Cmd :=
    { id := id, ctx := x, q := q, pid := p.pid, idx := p.next, raw := p.head, segs := w.bindSegs x bs ba (w.segNow x),
      seed := w.get (Obj.srSeed x), step := w.get (Obj.stepNum x), rnd := w.get (Obj.defRnd x), cls := w.ctxClass x,
      home := w.homeDie x, start := w.time, since := p.since, slot := slot, add := add,
      released := decide (kValue p.head ≤ w.evt x (kEvt p.head)),
      fence := if cOpcode p.head = 0x03 ∧ q = 4 then
          ((upto 4).filter (fun k => bitOf (kQmask p.head) k)).map (fun k => (k, w.get (Obj.sqTail x k)))
        else [],
      conv := 0, r1 := 0, r2 := 0, begun := false, done := none }
  let fail := match early with | some e => some e | none => w.cmdCheck c
  let c := match fail with
    | some (st, det) => { c with done := some ⟨st, det, 0, 0, 0⟩ }
    | none => c
  let w := ((w.holdSlot slot).holdAdd x add).ctxProgress x
  let w := w.setCmds (w.q.cmds ++ [c])
  (w.mapPat p.pid (fun (p : Pattern) => { p with next := p.next + 1 })).fetchNext p.pid

/-- A fetch that failed because its read did, not its translation: the status stands (R237, R277, R528). -/
def readStatus (st : Nat) : Bool := st == 0x0510 || st == 0x0511 || st == 0x0B10 || st / 16 == 0x0D1

/-- COMMAND_START (R87): the next command of a queue; one whose fetch failed ends with that status (R29). -/
def opCommandStart (x : Fin 16) (q : Fin 5) (w : Work) : Work :=
  match w.curPat? x.val q.val with
  | none => w
  | some p =>
    if w.startOk p = false then w else
    let p := if p.bad.any (fun e => !readStatus e.1) then
        (match w.patTrans p.ctx p.base p.ncmd p.slot p.addSel with
         | .error e => { p with bad := some e }
         | .ok a => { p with bad := none, head := w.readNat (a + 64 * p.next) 64 })
      else p
    let go := p.released || !cWait p.head || decide (cWval p.head ≤ w.evt p.ctx (cWevt p.head))
    match p.bad with
    | some e => w.startCmd p (some e)
    | none => if go then w.startCmd p none else w

def execCommandStart (x : Fin 16) (q : Fin 5) (s : State) : Host.Outcome State Fault Refusal := s.run (opCommandStart x q)

/-! ### Completion -/

/-- COMMAND_COMPLETE (R88): a command whose work has ended; none of a context in RESETTING (R461). A CANCEL completes after the prefetches of its buffer that it
stopped (R246); after a STEP_MARK the mirror of its boundary is sent (R426). Log entry 11. -/
def opCommandComplete (id : Nat) (w : Work) : Work :=
  match w.cmd? id with
  | none => w
  | some c =>
    match c.done with
    | none => w
    | some d =>
      let held := cOpcode c.raw == 0x22 && w.q.cmds.any (fun p =>
        p.ctx == c.ctx && cOpcode p.raw == 0x21 && bPbuf p.raw == bPbuf c.raw && p.id != c.id
          && (match p.done with | some e => e.status == 0x0501 | none => false))
      if held || w.get (Obj.ctxState c.ctx) == 3 then w else
      let w := w.complete c d
      if cOpcode c.raw = 0x07 ∧ c.q = 4 ∧ d.status = 0 then w.mirrorSend c.ctx else w

def execCommandComplete (id : Nat) (s : State) : Host.Outcome State Fault Refusal := s.run (opCommandComplete id)

/-! ### Control commands (R98 to R103) -/

/-- A command of the control queue in flight that runs this opcode. -/
def Dev.control (w : Dev) (id op : Nat) : Option Cmd :=
  match w.running id op with
  | some c => if c.q = 4 then some c else none
  | none => none

/-- NOP: nothing beyond its header fields, on any queue. -/
def opNop (id : Nat) (w : Work) : Work := match w.running id 0x00 with | some _ => w.finishCmd id 0 0 | none => w
def execNop (id : Nat) (s : State) : Host.Outcome State Fault Refusal := s.run (opNop id)

/-- EVT_SIGNAL (Table 03.11): add VALUE, or set to VALUE. -/
def opEvtSignal (id : Nat) (w : Work) : Work :=
  match w.control id 0x01 with
  | some c =>
    let w := if kMode c.raw then w.evtPut c.ctx (kEvt c.raw) (kValue c.raw) else w.evtAdd c.ctx (kEvt c.raw) (kValue c.raw)
    w.finishCmd id 0 0
  | none => w
def execEvtSignal (id : Nat) (s : State) : Host.Outcome State Fault Refusal := s.run (opEvtSignal id)

/-- EVT_WAIT: complete once the counter has been at or above VALUE. -/
def opEvtWait (id : Nat) (w : Work) : Work :=
  match w.control id 0x02 with
  | some c => if c.released ∨ kValue c.raw ≤ w.evt c.ctx (kEvt c.raw) then w.finishCmd id 0 0 else w
  | none => w
def execEvtWait (id : Nat) (s : State) : Host.Outcome State Fault Refusal := s.run (opEvtWait id)

/-- Every pattern of queue q behind `tail` has posted its record (R101). -/
def Dev.postedTo (w : Dev) (x q tail : Nat) : Bool :=
  decide (sub32 (w.get (Obj.sqHead x q)) tail < 2 ^ 31)
    && !w.q.pats.any (fun p => p.ctx == x && p.q == q && decide (sub32 tail (p.idx + 1) < 2 ^ 31))
    && !w.q.owed.any (fun o => o.ctx == x && o.q == q)

/-- FENCE (R101). Log entry 19. -/
def opFence (id : Nat) (w : Work) : Work :=
  match w.control id 0x03 with
  | some c => if c.fence.all (fun p => w.postedTo c.ctx p.1 p.2) then w.finishCmd id 0 0 else w
  | none => w
def execFence (id : Nat) (s : State) : Host.Outcome State Fault Refusal := s.run (opFence id)

/-- Replace the armed timers. -/
def Work.setTimers (l : List Timer) (w : Work) : Work := { w with q := { w.q with timers := l } }

/-- TIMER_ARM (R102). -/
def opTimerArm (id : Nat) (w : Work) : Work :=
  match w.control id 0x04 with
  | some c =>
    let r := c.raw
    let rest := w.q.timers.filter (fun t => !(t.ctx == c.ctx && t.i == kTimer r))
    let arm := fun (due period : Nat) => w.setTimers (rest ++ [⟨c.ctx, kTimer r, kTevt r, due, period⟩])
    let w := match kTmode r with
      | 0 => w.setTimers rest
      | 1 => arm (kValue r) 0
      | 2 => arm (w.time + kValue r) 0
      | _ => arm (w.time + kValue r) (kValue r)
    w.finishCmd id 0 0
  | none => w
def execTimerArm (id : Nat) (s : State) : Host.Outcome State Fault Refusal := s.run (opTimerArm id)

/-- TIMER_FIRE (R102). -/
def opTimerFire (x : Fin 16) (i : Fin 8) (w : Work) : Work :=
  match w.q.timers.find? (fun t => t.ctx == x.val && t.i == i.val) with
  | some t =>
    if w.time < t.due then w else
    let w := w.setTimers (if t.period = 0 then w.q.timers.erase t
      else w.q.timers.map (fun (u : Timer) => if u = t then { u with due := u.due + u.period } else u))
    w.evtAdd x.val t.evt 1
  | none => w
def execTimerFire (x : Fin 16) (i : Fin 8) (s : State) : Host.Outcome State Fault Refusal := s.run (opTimerFire x i)

/-- WRITE_IMM: 8 bytes as one sector-atomic write. -/
def opWriteImm (id : Nat) (w : Work) : Work :=
  match w.control id 0x05 with
  | some c =>
    (match w.xlate c.ctx c.segs (kAddr c.raw) 8 .write with
     | .ok a => (w.engWrite c.ctx a (leBytes (kValue c.raw) 8)).finishCmd id 0 0
     | .error (st, d) => w.finishCmd id st d)
  | none => w
def execWriteImm (id : Nat) (s : State) : Host.Outcome State Fault Refusal := s.run (opWriteImm id)

/-- YIELD (R131). -/
def opYield (id : Nat) (w : Work) : Work :=
  match w.control id 0x06 with
  | some c => (w.yieldSlice c.ctx).finishCmd id 0 0
  | none => w
def execYield (id : Nat) (s : State) : Host.Outcome State Fault Refusal := s.run (opYield id)

/-- A pending commit of the wide-image log applies (R213). -/
def Work.wideApply (x : Nat) (w : Work) : Work :=
  if w.get (Obj.wideLogCommit x) = 1 then
    (w.groupToActive [Obj.wideLogBase x, Obj.wideLogLog2 x] []).put (Obj.wideLogCommit x) 0
  else w

/-- The step boundary of context x (R103): the actions other chapters attach to it, then STEP_NUM, in one step (R462). Log entry 52. -/
def Work.stepBoundary (x step : Nat) (w : Work) : Work :=
  let w := (((w.hoopBoundary x).wideApply x).seqBoundary x).mirApply x
  let w := if w.mirrors x then w.mirrorSnap x step else w
  w.put (Obj.stepNum x) step

/-- STEP_MARK (R103, R426): once the other queues' commands have completed, and the context's previous mirror has been sent
or abandoned. Log entry 52. -/
def opStepMark (id : Nat) (w : Work) : Work :=
  match w.control id 0x07 with
  | some c =>
    let x := c.ctx
    if (upto 4).any (fun q => w.inflight x q != 0) then w
    else if (w.mirApply x).mirrors x ∧ w.mirrorQuiet x = false then
      (if w.pair.wait.any (fun p => p.1 == x) then w else
        (w.mapCmd id (fun (c : Cmd) => { c with begun := true })).setPair (fun p => { p with wait := p.wait ++ [(x, w.time)] }))
    else
      let step := if kSet c.raw then kValue c.raw else (w.get (Obj.stepNum x) + 1) % 2 ^ 64
      (w.stepBoundary x step).finishCmd id 0 0
  | none => w
def execStepMark (id : Nat) (s : State) : Host.Outcome State Fault Refusal := s.run (opStepMark id)

/-- STEP_MARK_TIMEOUT (R103): the commands in flight have not completed within WAIT_TMO. -/
def opStepMarkTimeout (x : Fin 16) (w : Work) : Work :=
  match w.q.cmds.find? (fun c => c.ctx == x.val && c.q == 4 && cOpcode c.raw == 0x07 && c.done.isNone && !c.begun) with
  | some c =>
    if (upto 4).any (fun q => w.inflight x.val q != 0) ∧ w.get (Obj.waitTmo x.val) * 1000 ≤ w.since c.start then
      w.finishCmd c.id 0x0215 0xFFFFFFFF
    else w
  | none => w
def execStepMarkTimeout (x : Fin 16) (s : State) : Host.Outcome State Fault Refusal := s.run (opStepMarkTimeout x)

/-- WAIT_TIMEOUT (R100, R101): an EVT_WAIT or FENCE in flight, or the header WAIT of the command that is next, has lasted
longer than its timeout. Log entry 19. -/
def opWaitTimeout (x : Fin 16) (q : Fin 5) (w : Work) : Work :=
  let (x, q) := (x.val, q.val)
  let tmo := w.get (Obj.waitTmo x) * 1000
  match w.q.cmds.find? (fun c => c.ctx == x && c.q == q && q == 4 && c.done.isNone
      && (cOpcode c.raw == 0x02 || cOpcode c.raw == 0x03)) with
  | some c =>
    if cOpcode c.raw = 0x02 then
      let own := if kTimeout c.raw = 0 then tmo else kTimeout c.raw * 1000
      if c.released = false ∧ own < w.since c.since then w.finishCmd c.id 0x0215 (kEvt c.raw) else w
    else if tmo < w.since c.since then w.finishCmd c.id 0x0215 0xFFFFFFFF else w
  | none =>
    match w.curPat? x q with
    | some p =>
      if w.startOk p = true ∧ cWait p.head = true ∧ p.released = false ∧ tmo < w.since p.since then
        w.startCmd p (some (0x0215, cWevt p.head))
      else w
    | none => w
def execWaitTimeout (x : Fin 16) (q : Fin 5) (s : State) : Host.Outcome State Fault Refusal := s.run (opWaitTimeout x q)

/-! ### Queues (R80, R108) -/

/-- FLUSH of one queue (R108): the current pattern is cut; the rest follows once its record is due. Log entry 19. -/
def Work.flushQueue (x q : Nat) (w : Work) : Work :=
  match w.curPat? x q with
  | some p =>
    let w := { w with q := { w.q with flushing := w.q.flushing.filter (fun f => f != (x, q)) ++ [(x, q)] } }
    ((w.mapPat p.pid (fun (p : Pattern) => { p with isCut := true, cut := p.ncmd - p.next })).closePattern p.pid).1
  | none => if w.q.flushing.contains (x, q) then w else w.flushRest x q

/-- A Q_CTRL write through its gate: in the states named, otherwise no action. -/
def Work.qCtrl (wr : Writer) (x q v : Nat) (ok : List Nat) (act : Work → Work) (w : Work) : Work :=
  w.gated wr (.own x) (Obj.qCtrl x q) (fun w =>
    if ok.contains (w.get (Obj.qState x q)) && w.get (Obj.ctxState x) != 3 then act w else w.noAction wr (Obj.qCtrl x q) v)

/-- Q_START. -/
def opQStart (wr : Writer) (x : Fin 16) (q : Fin 5) (w : Work) : Work :=
  w.qCtrl wr x.val q.val 1 [0] (fun w => w.put (Obj.qState x.val q.val) 1)
def execQStart (wr : Writer) (x : Fin 16) (q : Fin 5) (s : State) : Host.Outcome State Fault Refusal := s.run (opQStart wr x q)

/-- Q_STOP: commands in flight complete. -/
def opQStop (wr : Writer) (x : Fin 16) (q : Fin 5) (w : Work) : Work :=
  w.qCtrl wr x.val q.val 2 [1] (fun w => w.put (Obj.qState x.val q.val) 0)
def execQStop (wr : Writer) (x : Fin 16) (q : Fin 5) (s : State) : Host.Outcome State Fault Refusal := s.run (opQStop wr x q)

/-- Q_RESUME: on with the command after the one that faulted. -/
def opQResume (wr : Writer) (x : Fin 16) (q : Fin 5) (w : Work) : Work :=
  w.qCtrl wr x.val q.val 3 [2] (fun w => w.put (Obj.qState x.val q.val) 1)
def execQResume (wr : Writer) (x : Fin 16) (q : Fin 5) (s : State) : Host.Outcome State Fault Refusal := s.run (opQResume wr x q)

/-- Q_FLUSH. -/
def opQFlush (wr : Writer) (x : Fin 16) (q : Fin 5) (w : Work) : Work :=
  w.qCtrl wr x.val q.val 4 [0, 2] (fun w => w.flushQueue x.val q.val)
def execQFlush (wr : Writer) (x : Fin 16) (q : Fin 5) (s : State) : Host.Outcome State Fault Refusal := s.run (opQFlush wr x q)

/-- The commit group of a queue's ring. -/
def ringGroup (x q : Nat) : List Nat := [Obj.sqBase x q, Obj.sqLog2 x q, Obj.cqBase x q, Obj.cqLog2 x q, Obj.irqEn x q]

/-- Q_COMMIT (R80). -/
def opQCommit (wr : Writer) (x : Fin 16) (q : Fin 5) (w : Work) : Work :=
  w.gated wr (.own x.val) (Obj.qCommit x.val q.val) (fun w =>
    w.commitReq wr (Obj.qCommit x.val q.val) (ringGroup x.val q.val) [])
def execQCommit (wr : Writer) (x : Fin 16) (q : Fin 5) (s : State) : Host.Outcome State Fault Refusal := s.run (opQCommit wr x q)

/-- Q_COMMIT_APPLY (R80): the queue is quiet. A FENCE that waits for the queue has nothing left to wait for. -/
def opQCommitApply (x : Fin 16) (q : Fin 5) (w : Work) : Work :=
  let (x, q) := (x.val, q.val)
  let st := w.get (Obj.qState x q)
  let quiet := w.inflight x q == 0 && !w.q.pats.any (fun p => p.ctx == x && p.q == q)
    && !w.q.owed.any (fun o => o.ctx == x && o.q == q)
  if w.get (Obj.qCommit x q) = 1 ∧ quiet = true ∧ (st = 0 ∨ (st = 1 ∧ w.get (Obj.sqHead x q) = w.get (Obj.sqTail x q))) then
    let w := (w.groupToActive (ringGroup x q) []).put (Obj.qCommit x q) 0
    let w := (((w.put (Obj.sqHead x q) 0).put (Obj.sqTail x q) 0).put (Obj.cqTail x q) 0).put (Obj.cqHead x q) 0
    let w := w.setCmds (w.q.cmds.map (fun (c : Cmd) => if c.ctx = x then { c with fence := c.fence.filter (fun f => f.1 != q) } else c))
    { w with q := { w.q with committed := w.q.committed.filter (fun p => p != (x, q)) ++ [(x, q)] } }
  else w
def execQCommitApply (x : Fin 16) (q : Fin 5) (s : State) : Host.Outcome State Fault Refusal := s.run (opQCommitApply x q)

/-! ### Contexts (R78, R79) -/

/-- CTX_COMMIT: class, home die and fault scope for commands that start from now on. -/
def opCtxCommit (wr : Writer) (x : Fin 16) (w : Work) : Work :=
  let g := [Obj.ctxClass x.val, Obj.homeDie x.val, Obj.faultScope x.val]
  w.gated wr (.own x.val) (Obj.ctxCommit x.val) (fun w => ((w.groupToPend g []).groupToActive g []).rotation.floorCheck)
def execCtxCommit (wr : Writer) (x : Fin 16) (s : State) : Host.Outcome State Fault Refusal := s.run (opCtxCommit wr x)

/-- A CTX_CTRL write through its gate: in the states named and with no DISABLE in progress, otherwise no action. -/
def Work.ctxCtrl (wr : Writer) (x v : Nat) (ok : List Nat) (act : Work → Work) (w : Work) : Work :=
  w.gated wr (.own x) (Obj.ctxCtrl x) (fun w =>
    if ok.contains (w.get (Obj.ctxState x)) && !w.q.disabling.contains x then act w else w.noAction wr (Obj.ctxCtrl x) v)

/-- Event counters of a context at 0 and its timers disarmed. -/
def Work.clearEvents (x : Nat) (w : Work) : Work :=
  let w := { w with blob := w.blob.filter (fun p => p.1 / 0x100000000 != Obj.events x) }
  w.setTimers (w.q.timers.filter (fun t => t.ctx != x))

/-- CTX_ENABLE (R79): sessions of the context open (Table 11.11). -/
def opCtxEnable (wr : Writer) (x : Fin 16) (w : Work) : Work :=
  let x := x.val
  w.ctxCtrl wr x 1 [0] (fun w =>
    let w := ((w.clearEvents x).idleStreams x).put (Obj.ctxState x) 1
    let w := forUpto (fun q w => if w.q.committed.contains (x, q) then w.put (Obj.qState x q) 1 else w) 5 w
    (((w.ctxProgress x).rotation).openCtx x).floorCheck)
def execCtxEnable (wr : Writer) (x : Fin 16) (s : State) : Host.Outcome State Fault Refusal := s.run (opCtxEnable wr x)

/-- CTX_RESUME (R79). -/
def opCtxResume (wr : Writer) (x : Fin 16) (w : Work) : Work :=
  let x := x.val
  w.ctxCtrl wr x 3 [2] (fun w => ((((w.put (Obj.ctxState x) 1).ctxProgress x).rotation).openCtx x).floorCheck)
def execCtxResume (wr : Writer) (x : Fin 16) (s : State) : Host.Outcome State Fault Refusal := s.run (opCtxResume wr x)

/-- The context starts nothing more and goes to OFF once its commands have completed (R79); a spill, fill or restore of it
ends (R299, R430). -/
def Work.disable (x : Nat) (w : Work) : Work :=
  (({ w with q := { w.q with disabling := w.q.disabling ++ [x] } }).spillAbort x).restoreAbort x

/-- CTX_DISABLE (R79): never of context 0. -/
def opCtxDisable (wr : Writer) (x : Fin 16) (w : Work) : Work :=
  w.ctxCtrl wr x.val 2 (if x.val = 0 then [] else [1, 2]) (fun w => w.disable x.val)
def execCtxDisable (wr : Writer) (x : Fin 16) (s : State) : Host.Outcome State Fault Refusal := s.run (opCtxDisable wr x)

/-- The sessions of a context that is disabled are CLOSED, without a packet (Table 11.11). -/
def Work.closeSessions (x : Nat) (w : Work) : Work :=
  (w.net.sess.filter (fun s => w.lctx s.n == x)).foldl (fun (w : Work) (s : Sess) =>
    (((w.endSess s.n 1 (w.peerWhy s.n)).plaitGone s.n 1).loaderGone s.n).pairGone s.n) w

/-- The context enters OFF: unstarted patterns are discarded, timers disarmed, commits that wait for a step boundary apply. -/
def Work.enterOff (x : Nat) (w : Work) : Work :=
  let w := forUpto (fun q w => w.flushQueue x q) 5 w
  let w := w.setTimers (w.q.timers.filter (fun t => t.ctx != x))
  let w := { w with q := { w.q with disabling := w.q.disabling.filter (fun y => y != x) } }
  let w := ((w.idleStreams x).put (Obj.ctxState x) 0).closeSessions x
  (((w.hoopApply x).wideApply x).mirApply x).rotation

/-- CTX_DISABLE_DONE (R79, R254): nothing of the context is in flight. Log entry 45. -/
def opCtxDisableDone (x : Fin 16) (w : Work) : Work :=
  let x := x.val
  if w.get (Obj.ctxState x) != 3 && w.q.disabling.contains x && !w.q.cmds.any (fun c => c.ctx == x) && !w.bob.streams.any (fun t => t.ctx == x && t.cap.isSome) then
    w.enterOff x
  else w
def execCtxDisableDone (x : Fin 16) (s : State) : Host.Outcome State Fault Refusal := s.run (opCtxDisableDone x)

end Sys2Proof.Machine
end

