-- ==== Sys2Proof/Machine/Health.lean ====
section
/-!
DEFINITION. Sys2Proof/Machine/Health.lean: the Sampler's verdicts, fences that firmware sets, health states, the score and the
report (chapter 14, R435 to R447).
-/
namespace Sys2Proof.Machine

/-- Change the health record. -/
def Work.setHealth (f : HealthState → HealthState) (w : Work) : Work := { w with health := f w.health }

/-- A persistent object has changed (R492). -/
def Work.persist (n : Nat) (w : Work) : Work :=
  { w with dict := { w.dict with dirty := w.dict.dirty.filter (fun k => k != n) ++ [n] } }

/-- An hour in ns. -/
def hourNs : Nat := 3600000000000

/-- The last `span` ns hold an instant. -/
def Dev.within (w : Dev) (t span : Nat) : Bool := decide (w.time < t + span)

/-- SOURCE of the Sampler comparator of core k's die. Log entry 54. -/
def samplerSource (k : Nat) : Nat := 0xD000 + coreDie k

/-- Number of set bits among the first 32. -/
def popcount32 (v : Nat) : Nat := ((upto 32).filter (fun i => bitOf v i)).length

/-! ### Health states (R441) -/

/-- Enter a health state: HEALTH_CHANGED, and a report within 10 ms (R443). Log entry 54. -/
def Work.healthTo (st reason : Nat) (w : Work) : Work :=
  let w := (w.put Obj.healthState st).put Obj.healthReason reason
  let w := (w.persist Obj.healthState).persist Obj.healthReason
  let w := w.event 0x090B 31 0 (reason * 256 + st)
  let w := w.setHealth (fun h => { h with due := some (h.due.getD w.time) })
  if st = 1 then
    (w.setHealth (fun h => { h with left := w.get Obj.probationS * 1000000000, leftAt := w.time, probN := 0 })).put
      Obj.shadowPermil (w.get Obj.probationPermil)
  else w.setHealth (fun h => { h with left := 0, leftAt := w.time })

/-- A die is left with fewer than 8 unfenced cores. -/
def Work.tooFew (w : Work) : Work :=
  if w.get Obj.healthState ≠ 2 ∧ (w.unfenced 0 < 8 ∨ w.unfenced 1 < 8) then w.healthTo 2 5 else w

/-- UNREPRODUCED and UNRESOLVED verdicts of the last hour. -/
def Dev.doubts (w : Dev) : Nat :=
  (w.health.comps.filter (fun c => decide (2 ≤ c.2) && w.within c.1 hourNs)).length

/-- SUSPECT_COUNT is reached in HEALTHY. -/
def Work.suspectCheck (reason : Nat) (w : Work) : Work :=
  if w.get Obj.healthState = 0 ∧ w.get Obj.suspectCount ≤ w.doubts then w.healthTo 1 reason else w

/-- Core k is confirmed in a bin (R440): fenced by firmware whatever the count of fenced cores. -/
def Work.confirm (k bin : Nat) (w : Work) : Work :=
  let st := w.get Obj.healthState
  let old := w.get Obj.fenceFw
  let w := w.setHealth (fun h => { h with conf := (k, bin) :: h.conf.filter (fun p => p != (k, bin)) })
  let w := ((w.put Obj.fenceFw (setBit old k true)).persist Obj.fenceFw).persist (Obj.coreBins k)
  let w := w.event 0x0909 31 (samplerSource k) (bin * 256 + k)
  let w := (w.fencesNow).rotation
  let w := if st = 1 then w.healthTo 2 4
    else if st = 0 ∧ bitOf old k = false ∧ 2 < popcount32 (w.get Obj.fenceFw) then w.healthTo 1 1 else w
  w.tooFew

/-! ### Verdicts (R437, R439, Table 14.6) -/

/-- A comparison is counted: its verdict, and the cores that took part. -/
def Work.comparison (v : Nat) (cores : List Nat) (w : Work) : Work :=
  let w := cores.foldl (fun (w : Work) (k : Nat) => w.bump (Obj.coreSamples k) 1) w
  w.setHealth (fun h => { h with
    comps := (w.time, v) :: h.comps.filter (fun c => w.within c.1 hourNs), probN := h.probN + 1 })

/-- VOID. -/
def Work.void (w : Work) : Work := w.bump Obj.voids 1

/-- PASS. -/
def Work.pass (cores : List Nat) (w : Work) : Work := (w.bump Obj.passes 1).comparison 0 cores

/-- CONFIRMED in a bin of core k. -/
def Work.confirmedIn (k bin : Nat) (cores : List Nat) (w : Work) : Work :=
  ((w.bump Obj.confirmed 1).comparison 1 cores).confirm k bin

/-- UNREPRODUCED verdicts of core k in a bin within BIN_WINDOW_H. -/
def Dev.binCount (w : Dev) (k bin : Nat) : Nat :=
  (w.health.unrep.filter (fun p => p.1 == k && p.2.1 == bin && w.within p.2.2 (w.get Obj.binWindowH * hourNs))).length

/-- UNREPRODUCED in a bin of core k: BIN_REPEAT of them confirm it (R440). -/
def Work.unreproducedIn (k bin : Nat) (cores : List Nat) (w : Work) : Work :=
  let w := ((w.bump Obj.unreproduced 1).comparison 2 cores).persist (Obj.coreBins k)
  let w := w.setHealth (fun h => { h with
    unrep := (k, bin, w.time) :: h.unrep.filter (fun p => w.within p.2.2 (w.get Obj.binWindowH * hourNs)) })
  let w := if w.get Obj.binRepeat ≤ w.binCount k bin then w.confirm k bin else w
  w.suspectCheck 2

/-- SDC_STEP: bytes the context used in a step may be wrong. -/
def Work.sdcStep (x step k : Nat) (w : Work) : Work :=
  (w.bump (Obj.sdcCount x) 1).event 0x090A x (samplerSource k) step

/-- UNRESOLVED. -/
def Work.unresolved (x step : Nat) (k : Nat) (cores : List Nat) (w : Work) : Work :=
  (((w.bump Obj.unresolved 1).comparison 3 cores).sdcStep x step k).suspectCheck 3

/-- A further run of a comparison: a referee or a rerun. -/
def Work.runNext (r : SampRun) (kind : Nat) (notCores : List Nat) (onCore : Option Nat) (w : Work) : Work :=
  let (id, w) := w.newId
  let next : SampRun :=
    { id := id, kind := kind, tiles := r.tiles, notCores := notCores, onCore := onCore, due := w.time, next := 0, started := false,
      ended := false, core := 0, dig := ⟨0, 0, 0⟩, before := r.before ++ [(r.core, r.dig)] }
  (w.setRuns (w.sched.runs ++ [next])).rotation

/-- SAMPLER_RUN_DONE (R437): run `id` has ended and the comparator moves. -/
def opSamplerRunDone (id : Nat) (w : Work) : Work :=
  match w.sched.runs.find? (fun r => r.id == id && r.ended) with
  | none => w
  | some r =>
    let w := w.setRuns (w.sched.runs.filter (fun q => q.id != id))
    let b := r.core
    match r.tiles.head?, r.before with
    | some t, [(a, o)] =>
      if o.inp ≠ r.dig.inp then w.void
      else if o.outp = r.dig.outp then w.pass [a, b]
      else (w.event 0x0908 t.ctx (samplerSource b) (t.tid % 2 ^ 16 * 2 ^ 16 + a)).runNext r 2 [a, b] none
    | some t, [(a, o), (c, s)] =>
      if r.dig.inp ≠ o.inp then w.unresolved t.ctx t.step a [a, c, b]
      else if r.dig.outp = o.outp then w.runNext r 3 [] (some c)
      else if r.dig.outp = s.outp then (w.sdcStep t.ctx t.step a).runNext r 3 [] (some a)
      else w.unresolved t.ctx t.step a [a, c, b]
    | some _, [(a, o), (c, s), (e, f)] =>
      let (k, first) := if f.outp = o.outp then (c, s) else (a, o)
      if r.dig.inp = f.inp ∧ r.dig.outp ≠ f.outp ∧ r.dig.bin = first.bin then w.confirmedIn k first.bin [a, c, e]
      else w.unreproducedIn k first.bin [a, c, e]
    | _, _ => w

def execSamplerRunDone (id : Nat) (s : State) : Host.Outcome State Fault Refusal := s.run (opSamplerRunDone id)

/-- SAMPLER_LAG_DROP (R436). -/
def opSamplerLagDrop (id : Nat) (w : Work) : Work :=
  match w.sched.runs.find? (fun r => r.id == id && !r.started) with
  | none => w
  | some r =>
    if w.since r.due < w.get Obj.shadowLagMs * 1000000 then w
    else ((w.setRuns (w.sched.runs.filter (fun q => q.id != id))).bump Obj.dropped 1).rotation

def execSamplerLagDrop (id : Nat) (s : State) : Host.Outcome State Fault Refusal := s.run (opSamplerLagDrop id)

/-- The period of known-answer suites in force (R438). -/
def Dev.katPeriod (w : Dev) : Nat :=
  let p := w.get Obj.katPeriodS
  (if w.get Obj.healthState = 1 then min p 10 else p) * 1000000000

/-- One known-answer tile's verdict on core k: 0 pass, 1 void, 2 reproduced in the bin, 3 not reproduced. -/
def Work.katVerdict (k v bin : Nat) (w : Work) : Work :=
  match v with
  | 0 => w.pass [k]
  | 1 => w.void
  | 2 => w.confirmedIn k (bin % 48) [k]
  | _ => w.unreproducedIn k (bin % 48) [k]

/-- KAT_PERIOD (R438): the suite runs on every unfenced core that is not in reset; `res` gives what its tiles that a core ran
found (core, verdict, bin), `ns` the core time it took, at most 40 µs of each core. Log entry 54. -/
def opKatPeriod (ns : Nat) (res : List (Fin 32 × Nat × Nat)) (w : Work) : Work :=
  if w.ready = false ∨ w.since w.health.katAt < w.katPeriod then w else
  let cores := (upto 32).filter (fun k => !w.fencedCore k && !w.coreReset k)
  let w := w.setHealth (fun h => { h with katAt := w.time, katNs := h.katNs + min ns (40000 * cores.length) })
  res.foldl (fun (w : Work) (r : Fin 32 × Nat × Nat) =>
    if cores.contains r.1.val then w.katVerdict r.1.val r.2.1 r.2.2 else w) w

def execKatPeriod (ns : Nat) (res : List (Fin 32 × Nat × Nat)) (s : State) : Host.Outcome State Fault Refusal :=
  s.run (opKatPeriod ns res)

/-! ### Score, probation, report (R441 to R443) -/

/-- Thermal throttling is active (R557). -/
def Dev.thermal (w : Dev) : Bool :=
  let c := w.get Obj.throttleCause
  w.get Obj.throttleStep != 0 && (c - (if bitOf c 4 then 16 else 0)) != 0

/-- Uncorrectable reads of the last hour. -/
def Dev.ueHour (w : Dev) : Nat := (w.health.ues.filter (fun t => w.within t hourNs)).length

/-- HEALTH_SCORE (R442, Table 14.9). -/
def Dev.score (w : Dev) : Nat :=
  let ports := fun st => ((upto 8).filter (fun p => w.get (Obj.portEn p) == 1 && w.get (Obj.linkState p) == st)).length
  let off := ((upto 4).filter (fun i => !bitOf (w.get Obj.halfOnline) i)).length
  let lost := (if w.get Obj.healthState = 1 then 300 else 0) + 20 * popcount32 w.fencedBits + min 200 (25 * w.doubts)
    + min 200 (10 * w.ueHour) + 150 * off + 50 * ports 1 + 10 * ports 4 + (if w.thermal then 50 else 0)
  if w.get Obj.healthState = 2 then 0 else 1000 - lost

/-- HEALTH_SCORE_TICK (R442). -/
def opHealthScoreTick (w : Work) : Work :=
  if w.ready = false ∨ w.since w.health.scoreAt < 100000000 then w else
  let v := w.score
  let w := (w.put Obj.healthScore v).put Obj.healthCapacity (1000 * (w.unfenced 0 + w.unfenced 1) / 32)
  let w := w.setHealth (fun h => { h with scoreAt := w.time })
  if v + 100 ≤ w.health.reported then w.setHealth (fun h => { h with due := some (h.due.getD w.time) }) else w

def execHealthScoreTick (s : State) : Host.Outcome State Fault Refusal := s.run opHealthScoreTick

/-- Time left in PROBATION, in ns; it stands still while the device is in reset. Log entry 54. -/
def Dev.probLeft (w : Dev) : Nat :=
  if w.ready then w.health.left - w.since w.health.leftAt else w.health.left

/-- PROBATION_END (R441). -/
def opProbationEnd (w : Work) : Work :=
  if w.ready = false ∨ w.get Obj.healthState ≠ 1 ∨ 0 < w.probLeft then w else
  let n := w.health.probN
  let w := w.healthTo 0 6
  if n < 1000 then w.event 0x090C 31 0 n else w

def execProbationEnd (s : State) : Host.Outcome State Fault Refusal := s.run opProbationEnd

/-- PROBATION_LEFT_S: seconds left, rounded up. Log entry 54. -/
def Dev.probLeftS (w : Dev) : Nat := if w.get Obj.healthState = 1 then ceilDiv w.probLeft 1000000000 else 0

/-- The 64 bytes of a health report now (Table 14.10). Log entry 54. -/
def Dev.healthReport (w : Dev) : Nat :=
  let up := ((upto 8).map (fun p => let s := w.get (Obj.linkState p); if s = 3 ∨ s = 4 then 2 ^ p else 0)).sum
  let samples := (w.health.comps.filter (fun c => w.within c.1 hourNs)).length
  w.get Obj.healthState + b2n (w.get Obj.healthState != 0) * 2 ^ 2 + w.get Obj.healthReason * 2 ^ 8
    + w.get Obj.healthScore * 2 ^ 16 + w.get Obj.healthCapacity * 2 ^ 32 + w.probLeftS % 2 ^ 16 * 2 ^ 48
    + w.fencedBits * 2 ^ 64 + min samples (maxU 32) * 2 ^ 96 + min w.doubts (maxU 16) * 2 ^ 128
    + min w.ueHour (maxU 16) * 2 ^ 144 + w.get Obj.halfOnline % 16 * 2 ^ 160 + up * 2 ^ 164
    + w.get Obj.ovhPermil % 2 ^ 16 * 2 ^ 176 + w.get Obj.incarnation * 2 ^ 192 + w.health.reportSeq % 2 ^ 32 * 2 ^ 224
    + w.time % 2 ^ 64 * 2 ^ 256

/-- HEALTH_REPORT (R443): every HEALTH_PERIOD_MS, or when a change waits. -/
def opHealthReport (w : Work) : Work :=
  if w.ready = false ∨ (w.health.due.isNone ∧ w.since w.health.reportAt < w.get Obj.healthPeriodMs * 1000000) then w else
  let score := w.get Obj.healthScore
  let w := w.setHealth (fun h => { h with reportSeq := (h.reportSeq + 1) % 2 ^ 32, reportAt := w.time, due := none, reported := score })
  let r := w.healthReport
  (w.blobPut .active Obj.healthReport 0 r 64).notify 2 ((leBytes r 64).map BitVec.toNat)

def execHealthReport (s : State) : Host.Outcome State Fault Refusal := s.run opHealthReport

/-- HEALTH_CLEAR (Table 14.16). -/
def opHealthClear (wr : Writer) (v : Nat) (w : Work) : Work :=
  w.gated wr .host Obj.healthClear (fun w =>
    if v % 256 ≠ 1 then w.noAction wr Obj.healthClear v
    else if w.get Obj.healthState = 0 then w else w.healthTo 0 7)

def execHealthClear (wr : Writer) (v : Nat) (s : State) : Host.Outcome State Fault Refusal := s.run (opHealthClear wr v)

/-- FENCE_FW_CLEAR (R440): the core's firmware fence and bin records; a number past the last clamps to it (R447). Log entry 54. -/
def opFenceFwClear (wr : Writer) (v : Nat) (w : Work) : Work :=
  w.gated wr .host Obj.fenceFwClear (fun w =>
    let k := min (v % 256) 31
    let w := w.clampTo wr Obj.fenceFwClear (v % 256) k
    let w := w.setHealth (fun h => { h with unrep := h.unrep.filter (fun p => p.1 != k), conf := h.conf.filter (fun p => p.1 != k) })
    let w := ((w.put Obj.fenceFw (setBit (w.get Obj.fenceFw) k false)).persist Obj.fenceFw).persist (Obj.coreBins k)
    (w.fencesNow).rotation)

def execFenceFwClear (wr : Writer) (v : Nat) (s : State) : Host.Outcome State Fault Refusal := s.run (opFenceFwClear wr v)

/-- CORE_BINS of core k: bin i (Table 14.16). -/
def Dev.coreBin (w : Dev) (k i : Nat) : Nat :=
  min (w.binCount k i) (maxU 16) + (if w.health.conf.contains (k, i) then 2 ^ 16 else 0)

/-- OVH_WINDOW (R444): OVH_PERMIL, and in HEALTHY the shadow rate that the budget leaves. Log entry 54. -/
def opOvhWindow (w : Work) : Work :=
  let h := w.health
  let len := w.since h.winAt
  if w.ready = false ∨ len < 60000000000 then w else
  let other := h.katNs + 32 * w.pair.holdNs
  let w := w.put Obj.ovhPermil (min (1000 * (h.shadowNs + other) / (32 * len)) (maxU 16))
  let w := if w.get Obj.healthState = 0 then
      w.put Obj.shadowPermil (max (w.get Obj.shadowMinPermil) (min (w.get Obj.shadowMaxPermil)
        ((w.get Obj.progressBudgetPermil * 32 * len - 1000 * other) / (32 * len))))
    else if w.get Obj.healthState = 1 then w.put Obj.shadowPermil (w.get Obj.probationPermil) else w
  (w.setHealth (fun h => { h with winAt := w.time, shadowNs := 0, katNs := 0 })).setPair (fun p => { p with holdNs := 0 })

def execOvhWindow (s : State) : Host.Outcome State Fault Refusal := s.run opOvhWindow

end Sys2Proof.Machine
end

