-- ==== Sys2Proof/Machine/Training.lean ====
section
/-!
DEFINITION. Sys2Proof/Machine/Training.lean: the training of the external tiers (R266 to R268): fallback rates, spare lanes,
halves that open or go OFFLINE. Parts 0 to 11 are the stacks, 12 to 19 the packages; half h is that of die h.
-/
namespace Sys2Proof.Machine

/-- The parts of a half. -/
def halfParts (h : Nat) : List Nat := if h < 2 then (upto 6).map (fun i => 6 * h + i) else (upto 4).map (fun i => 12 + 4 * (h - 2) + i)

/-- The state object of a part. Log entry 64. -/
def partState (p : Nat) : Nat := if p < 12 then Obj.stackState p else Obj.pkgState (p - 12)

/-- The place of a pseudo-channel or channel of a part. -/
def partPlace (p pc : Nat) : ExtPlace := if p < 12 then ⟨0, p, pc, 0, 0, 0, 0⟩ else ⟨1, p - 12, pc, 0, 0, 0, 0⟩

/-- Pseudo-channels of a stack, channels of a package. -/
def partChannels (p : Nat) : Nat := if p < 12 then 64 else 8

/-- Every part of a half is in training. -/
def Work.trainHalf (h : Nat) (w : Work) : Work := (halfParts h).foldl (fun (w : Work) (p : Nat) => w.put (partState p) 1) w

/-- Half h is in training. -/
def Dev.halfTraining (w : Dev) (h : Nat) : Bool := (halfParts h).any (fun p => w.get (partState p) == 1)

/-- The known erasures of a channel are these lanes. -/
def Work.setErased (p : ExtPlace) (ls : List Nat) (w : Work) : Work :=
  let m := ls.foldl (fun m l => m ||| 2 ^ l) 0
  if p.tier = 0 then w.blobPut .active (Obj.stackErased p.part) (8 * p.pc) m 8
  else w.blobPut .active (Obj.pkgErased p.part) (2 * p.pc) m 2

/-- R267 for one channel: its erased and failed lanes, the lowest first, take the redundant lanes that are left. -/
def Work.laneTest (p : ExtPlace) (failed : List Nat) (w : Work) : Work :=
  let bad := sortNat (w.erasedLanes p ++ failed.filter (fun l => decide (l < (if p.tier = 0 then 36 else 16))))
  if bad.isEmpty then w else
  if p.tier = 0 then
    let used := w.blobNat .active (Obj.stackSpares p.part) p.pc 1
    let n := min bad.length (2 - used)
    let w := (w.blobPut .active (Obj.stackSpares p.part) p.pc (used + n) 1).setErased p (bad.drop n)
    (bad.take n).foldl (fun (w : Work) (l : Nat) => w.event 0x0509 31 p.source (p.where31 + l)) w
  else w.setErased p bad

/-- A channel keeps more known erasures than its half may open with (R268). -/
def Dev.tooErased (w : Dev) (p : ExtPlace) : Bool :=
  let ls := w.erasedLanes p
  if p.tier = 0 then decide (2 < ls.length) else decide (3 < erasuresOf 1 ls)

/-- FAST_RATE_MBPS, SLOW_RATE_MTS and the controller clocks as trained (Tables 09.11, 16.8). -/
def Work.trainRates (w : Work) : Work :=
  let slowH := fun (h : Nat) => (halfParts h).any (fun p => w.get (partState p) == 3)
  let fast := ((upto 2).map (fun h => if bitOf (w.get Obj.halfOnline) h then (if slowH h then 9830400 else 12288000) else 0)).sum
  let w := (w.put Obj.fastRateMbps fast).put Obj.slowRateMts (if slowH 2 || slowH 3 then 8533 else 9600)
  let w := (w.blobPut .active Obj.hbmCtrlMhz 0 (if slowH 0 then 800 else 1000) 2).blobPut .active Obj.hbmCtrlMhz 2 (if slowH 1 then 800 else 1000) 2
  (w.blobPut .active Obj.lpCtrlMhz 0 (if slowH 2 then 1067 else 1200) 2).blobPut .active Obj.lpCtrlMhz 2 (if slowH 3 then 1067 else 1200) 2

/-- Half h is trained: `slow` parts failed at the full rate, `dead` ones at the fallback rate too, `lanes` (part, channel, lane)
missed their eye margin. The half opens, or goes OFFLINE with TIER_OFFLINE, logged when it does so (R268). Log entries 6, 66. -/
def Work.trainDone (h : Nat) (slow dead : List Nat) (lanes : List (Nat × Nat × Nat)) (w : Work) : Work :=
  let ps := halfParts h
  let w := ps.foldl (fun (w : Work) (p : Nat) =>
    let st := if dead.contains p then 4 else if slow.contains p then 3 else 2
    let w := w.put (partState p) st
    let pl := partPlace p 0
    let w := if st = 2 then w else w.event 0x050A 31 pl.source pl.where31
    forUpto (fun c (w : Work) =>
      w.laneTest (partPlace p c) ((lanes.filter (fun l => l.1 == p && l.2.1 == c)).map (fun l => l.2.2))) (partChannels p) w) w
  let off := ps.any (fun p => dead.contains p || (upto (partChannels p)).any (fun c => w.tooErased (partPlace p c)))
  let old := w.get Obj.halfOnline
  let w := w.put Obj.halfOnline (setBit old h (!off))
  let w := if off && bitOf old h then
      w.event 0x0512 31 (if h < 2 then 0x5000 + 6 * h else 0x6000 + 4 * (h - 2)) ((h / 2) * 2 ^ 31 + h % 2) else w
  w.trainRates

/-- A part that did not enter self-refresh within 100 µs (R294): TIER_DEGRADED with bit [7], and the bytes it stored are not
promised: each is a free value (log entry 66). -/
def Work.refreshLost (p : Nat) (w : Work) : Work :=
  let pl := partPlace p 0
  let w := w.event 0x050A 31 pl.source (pl.where31 + 2 ^ 7)
  ((w.mem.filter (fun c => match extPlace c.1 with | some q => q.tier == pl.tier && q.part == pl.part | none => false)).foldl
    (fun (w : Work) (c : Nat × Byte) => let (v, w) := w.freeDraw; w.write c.1 [BitVec.ofNat 8 v]) w)

end Sys2Proof.Machine
end

