-- ==== Sys2Proof/Machine/Swatch.lean ====
section
/-!
DEFINITION. Sys2Proof/Machine/Swatch.lean: the reset sequencer's records (R448, R467) and the swatch (R454 to R457).
-/
namespace Sys2Proof.Machine

/-! ### Resets under way -/

/-- Change the sequencer's state. -/
def Work.setRst (f : ResetState → ResetState) (w : Work) : Work := { w with rst := f w.rst }

/-- The reset of a domain and target under way. -/
def Dev.reset? (w : Dev) (dom target : Nat) : Option Reset := w.rst.runs.find? (fun r => r.dom == dom && r.target == target)

/-- RESET_STATE: the largest domain in reset. -/
def Work.resetSync (w : Work) : Work := w.put Obj.resetState ((w.rst.runs.map (fun r => r.dom)).foldl max 0)

/-- Change a reset under way. -/
def Work.mapReset (dom target : Nat) (f : Reset → Reset) (w : Work) : Work :=
  w.setRst (fun q => { q with runs := q.runs.map (fun r => if r.dom = dom ∧ r.target = target then f r else r) })

/-- A reset is over. -/
def Work.dropReset (dom target : Nat) (w : Work) : Work :=
  (w.setRst (fun q => { q with runs := q.runs.filter (fun r => !(r.dom == dom && r.target == target)) })).resetSync

/-- DETAIL of a reset event (R471). -/
def resetDetail (dom cause target : Nat) : Nat := dom * 2 ^ 28 + cause * 2 ^ 24 + target % 2 ^ 16

/-- CONTEXT of a reset event: the context of a context reset, otherwise none. -/
def resetCtx (dom target : Nat) : Nat := if dom = 3 then target else 31

/-- Log a reset event. -/
def Work.resetEvent (code dom cause target : Nat) (w : Work) : Work :=
  w.event code (resetCtx dom target) 0x9000 (resetDetail dom cause target)

/-- The limit of a domain in ns (Table 15.1). -/
def Dev.resetLimit (w : Dev) (dom : Nat) : Nat :=
  match dom with
  | 1 => 50000
  | 2 => 200000
  | 3 => 200000
  | 4 => w.get Obj.dieResetLimitMs * 1000000
  | _ => w.get Obj.warmResetLimitS * 1000000000

/-! ### The engine-state record (Table 15.5) -/

/-- Ring index and CMD_INDEX of a command in flight. -/
def Dev.ringIndex (w : Dev) (c : Cmd) : Nat :=
  match w.pat? c.pid with
  | some p => p.idx % 2 ^ w.get (Obj.sqLog2 c.ctx c.q)
  | none => 0

/-- The words of one instance: six U64 for each of its commands; how far each has come and its last internal step are free
values (log entry 21). -/
def Work.engineWords (e : Nat) (w : Work) : List (Nat × Nat × Nat) × Work :=
  (w.q.cmds.filter (fun c => w.cmdInstance c == some e)).zipIdx.foldl (fun acc p =>
    let (c, i) := p
    let (steps, w) := acc.2.freeDraw
    let (last, w) := w.freeDraw
    let base := 0x10000 * (1 + e) + 48 * i
    (acc.1 ++ [(base, 8, c.ctx), (base + 8, 8, c.q), (base + 16, 8, w.ringIndex c), (base + 24, 8, c.idx),
      (base + 32, 8, steps % 2 ^ 64), (base + 40, 8, last % 2 ^ 64)], w)) ([], w)

/-- The words of one context: five U32 for each queue, a pair for each command in flight, FAULT_STATUS. -/
def Dev.ctxWords (w : Dev) (x : Nat) : List (Nat × Nat × Nat) :=
  let base := 0xE0000 + 0x2000 * x
  let qs := (upto 5).flatMap (fun q =>
    [w.get (Obj.qState x q), w.get (Obj.sqHead x q), w.get (Obj.sqTail x q), w.get (Obj.cqTail x q), w.get (Obj.cqHead x q)])
  let cs := (w.q.cmds.filter (fun c => c.ctx == x)).flatMap (fun c => [w.ringIndex c, c.idx])
  (qs ++ cs ++ [w.get (Obj.faultStatus x)]).zipIdx.map (fun p => (base + 4 * p.2, 4, p.1))

/-- The whole record. Log entry 21. -/
def Work.stateWords (w : Work) : List (Nat × Nat × Nat) × Work :=
  let (l, w) := (upto 13).foldl (fun acc e => let (m, w) := acc.2.engineWords e; (acc.1 ++ m, w)) ([], w)
  (l ++ (upto 16).flatMap (fun x => w.ctxWords x), w)

/-- The Hoop records of die d: the contexts whose home it is, each record that is not at its default, by slot, as HOOP_IMAGE
reads it. -/
def Dev.hoopOf (w : Dev) (d : Nat) : List (Nat × Nat × List (Nat × Nat)) :=
  ((upto 16).filter (fun x => w.get (Obj.homeDie x) == d)).map (fun x =>
    (d, x, (w.hoopUsed x).map (fun t => (t, w.hoopImageRec x t))))

/-- A mask of numbers. -/
def maskBits (l : List Nat) : Nat := l.foldl (fun m k => m ||| 2 ^ k) 0

/-- A swatch begins: its header and its engine-state record, with the Hoop records of the dies named. -/
def Work.newSwatch (dom cause target : Nat) (ctxs cores dies : List Nat) (w : Work) : Swatch × Work :=
  let (words, w) := w.stateWords
  ({ st := 1, dom := dom, cause := cause, target := target, time := w.time, inc := w.get Obj.incarnation, ctxMask := maskBits ctxs,
     coreMask := maskBits cores, doneMask := 0, hoopMask := maskBits dies, bad := 0, seq := 0, words := words, samples := [],
     hoop := dies.flatMap (fun d => w.hoopOf d) }, w)

/-! ### Samples (R455, R456) -/

/-- Swatch sections are claimed for cores, one for each core that has none waiting. -/
def Work.claimSamples (cores : List Nat) (w : Work) : Work :=
  cores.foldl (fun (w : Work) (k : Nat) =>
    if w.sched.sections.any (fun s => s.kind == 2 && s.ref == k) then w
    else (w.claimSection 2 k 0xFF (coreDie k) 0 (w.get Obj.swatchBoundUs)).2) w

/-- The sample of core k now; blocks in `bad` hold an uncorrectable word in their first sector, and read as zero. The register
capture is a free value (log entry 21). -/
def Work.sampleCore (k : Nat) (bad : List Nat) (w : Work) : SwSample × Work :=
  let (r, w) := w.freeDraw
  let b := windowBase k
  let cells := w.memNow.filter (fun p => decide (b ≤ p.1) && decide (p.1 < b + windowBytes) && decide ((p.1 - b) % 4096 < 32)
    && !bad.contains ((p.1 - b) / 4096))
  ({ core := k, regs := r % 2 ^ 131072,
     tags := (w.bob.tags.filter (fun p => p.1 / 65536 == k)).map (fun p => (p.1 % 65536, p.2)),
     bytes := cells.map (fun p => ((p.1 - b) / 4096 * 32 + (p.1 - b) % 4096, p.2.toNat)) }, w)

/-- The swatch area holds a whole swatch (R457). -/
def Work.writeSwatch (sw : Swatch) (w : Work) : Work :=
  let h := w.get Obj.swatchHead
  let n := (w.rst.seq + 1) % 2 ^ 32
  let w := w.setRst (fun q => { q with ring := (h, { sw with st := 2, seq := n }) :: q.ring.filter (fun p => p.1 != h), seq := n })
  (w.event 0x0A04 31 0x9000 h).put Obj.swatchHead ((h + 1) % 8)

/-- A reset whose cores are all sampled or given up writes its swatch. The memory phase of a die reset or a device warm reset
then begins: the affected parts are taken down and show TRAINING until they are trained (R293, Table 15.9). -/
def Work.swatchStep (dom target : Nat) (w : Work) : Work :=
  match w.reset? dom target with
  | none => w
  | some r =>
    match r.swatch with
    | none => w
    | some sw =>
      if !r.todo.isEmpty then w else
      let w := (w.mapReset dom target (fun r => { r with swatch := none })).writeSwatch sw
      if dom = 4 then (w.mapReset dom target (fun r => { r with phase := 1, memAt := w.time })).trainHalf target
      else if dom = 5 then
        (upto 4).foldl (fun (w : Work) (h : Nat) => w.trainHalf h) (w.mapReset dom target (fun r => { r with phase := 1, memAt := w.time }))
      else w

/-- Every reset that waits for core k's sample takes it, or does without it. -/
def Work.sampled (k : Nat) (s : Option SwSample) (nbad : Nat) (w : Work) : Work :=
  w.rst.runs.foldl (fun (w : Work) (r : Reset) =>
    if !r.todo.contains k then w else
    let w := w.mapReset r.dom r.target (fun r => { r with
      todo := r.todo.filter (fun j => j != k)
      swatch := r.swatch.map (fun sw => match s with
        | some m => { sw with samples := sw.samples ++ [m], doneMask := sw.doneMask ||| 2 ^ k, bad := sw.bad + nbad }
        | none => sw) })
    let w := if s.isNone then w.event 0x0A05 (resetCtx r.dom r.target) 0x9000 k else w
    w.swatchStep r.dom r.target) w

/-- A sample of core k is given up (R455): its section ends without it. -/
def Work.sampleLost (k : Nat) (w : Work) : Work :=
  let w := (w.sched.sections.filter (fun s => s.kind == 2 && s.ref == k)).foldl (fun (w : Work) (s : Section) => w.endSection s.id) w
  w.sampled k none 0

/-! ### SWATCH_WIN (Tables 15.5, 15.6) -/

/-- The tag value the capture of a block shows: the spec gives its 4 bytes no layout (log entry 21). Log entry 28. -/
def swTag (t : Nat) : Nat := Config.tagCode t % 2 ^ 32

/-- The header with its CHECK. Log entry 64. -/
def Swatch.header (s : Swatch) : Nat :=
  let v := 0x4F5A5357 + s.st * 2 ^ 32 + s.dom * 2 ^ 34 + s.cause * 2 ^ 37 + s.target % 2 ^ 16 * 2 ^ 48 + s.time % 2 ^ 64 * 2 ^ 64
    + s.inc % 2 ^ 32 * 2 ^ 128 + s.ctxMask * 2 ^ 160 + s.coreMask * 2 ^ 192 + s.doneMask * 2 ^ 224 + s.hoopMask * 2 ^ 256
    + s.bad % 2 ^ 32 * 2 ^ 288 + s.seq * 2 ^ 320
  v + crc32 ((leBytes v 64).map BitVec.toNat) * 2 ^ 480

/-- A byte of a swatch entry. -/
def Swatch.byte (s : Swatch) (a : Nat) : Nat :=
  if a < 64 then bits s.header (8 * a) 8
  else if a < 0x100000 then
    (match s.words.find? (fun p => decide (p.1 ≤ a) && decide (a < p.1 + p.2.1)) with
     | some p => bits p.2.2 (8 * (a - p.1)) 8
     | none => 0)
  else if a < 0x1100000 then
    let o := (a - 0x100000) % 0x80000
    (match s.samples.find? (fun m => m.core == (a - 0x100000) / 0x80000) with
     | none => 0
     | some m =>
       if o < 16384 then bits m.regs (8 * o) 8
       else if o < 16384 + 35840 then
         let b := (o - 16384) / 4
         let t := match m.tags.find? (fun p => p.1 == b) with | some p => p.2 | none => 0
         bits (swTag t) (8 * ((o - 16384) % 4)) 8
       else
         match m.bytes.find? (fun p => p.1 == o - 52224) with | some p => p.2 | none => 0)
  else if a < 0x1500000 then
    let d := (a - 0x1100000) / 0x200000
    let o := (a - 0x1100000) % 0x200000
    let x := o / 0x20000
    if bitOf s.hoopMask d = false then 0 else
    (match s.hoop.find? (fun p => p.1 == d && p.2.1 == x) with
     | some p =>
       let r := match p.2.2.find? (fun q => q.1 == o % 0x20000 / 128) with | some q => q.2 | none => hDefault + hCrc hDefault * 2 ^ 256
       bits r (8 * (o % 128)) 8
     | none => 0)
  else 0

/-- The swatch at an entry: the one being written shows as WRITING. -/
def Dev.swatchAt (w : Dev) (e : Nat) : Option Swatch :=
  match w.rst.runs.findSome? (fun r => r.swatch) with
  | some s => if w.get Obj.swatchHead = e then some s else (w.rst.ring.find? (fun p => p.1 == e)).map (fun p => p.2)
  | none => (w.rst.ring.find? (fun p => p.1 == e)).map (fun p => p.2)

/-- Byte i of SWATCH_WIN. -/
def Dev.swatchWin (w : Dev) (i : Nat) : Nat :=
  match w.swatchAt (w.get Obj.swatchSel) with
  | some s => s.byte (w.get Obj.swatchOff + i)
  | none => 0

end Sys2Proof.Machine
end

