-- ==== Sys2Proof/Machine/ObjRead.lean ====
section
/-!
DEFINITION. Sys2Proof/Machine/ObjRead.lean: reads through the object engine (chapter 17): the objects that report what other
state holds, the directory, the log window, and the checks of a read.
-/
namespace Sys2Proof.Machine

/-! ### Objects that report other state -/

/-- ALERT_CAUSE (Table 19.11); ALERT_N is low while it is not 0 (R550). -/
def Dev.alertCause (w : Dev) : Nat :=
  let b := w.get Obj.bootState
  b2n (w.get Obj.healthState == 2) + b2n (b == 7) * 2 + b2n (b == 8) * 4 + b2n (w.get Obj.coldReqPending == 1) * 8
    + b2n (w.get Obj.throttleStep == 2) * 16 + b2n w.boot.thermtrip * 32 + b2n (w.boot.vinOut || w.boot.tripped) * 64

/-- JTAG_IDCODE (R564). Log entry 22. -/
def idcodeNum : Nat := 0x19640001 + Config.jtagVendorBits % 2 ^ 11 * 2

/-- FW_SVN_FUSE (R536): the fuses burned at manufacture and since. Log entry 24. -/
def Dev.svnFuse (w : Dev) : Nat := min 63 (max Config.svnFuse w.boot.burned)

/-- Numbers a row of an object table covers. -/
def ObjRow.nums (r : ObjRow) : List Nat :=
  (upto r.c1).flatMap (fun i => (upto r.c2).map (fun j => r.base + i * r.s1 + j * r.s2))

/-- Every row of the object tables. -/
def allRows : List ObjRow := (upto 16).flatMap objRowsOf

/-- OD_COUNT (R519). Log entry 70. -/
def odCount : Nat := (allRows.map (fun r => r.c1 * r.c2)).sum

/-- The directory entry of an object (R519). Log entry 70. -/
def odEntry (r : ObjRow) (n : Nat) : Nat := n + r.typ * 2 ^ 24 + r.acc * 2 ^ 28 + b2n r.pers * 2 ^ 31 + r.size * 2 ^ 32

/-- Every entry of OD_DIR, in ascending object number. Log entry 70. -/
def odEntries : List Nat := (allRows.flatMap (fun r => r.nums.map (odEntry r))).mergeSort (fun a b => decide (a % 2 ^ 24 ≤ b % 2 ^ 24))

/-- The object's own number and context, where the number n is row item `f` of a context. -/
def ctxItem (f : Nat → Nat) (n : Nat) : Option Nat := (upto 16).find? (fun x => f x == n)

/-- Bit mask of the timers armed of context x. -/
def Dev.timersArmed (w : Dev) (x : Nat) : Nat :=
  ((upto 8).map (fun i => b2n (w.q.timers.any (fun t => t.ctx == x && t.i == i)) * 2 ^ i)).sum

/-- The value of a scalar object that reports other state. Log entry 48. -/
def Dev.scalarView (w : Dev) (n : Nat) : Option Nat :=
  if n = Obj.privCount then some w.privCount
  else if n = Obj.npEff then some (w.npEff 0 + w.npEff 1 * 256)
  else if n = Obj.fenced then some w.fencedBits
  else if n = Obj.probationLeftS then some w.probLeftS
  else if n = Obj.fwSvnFuse then some w.svnFuse
  else if n = Obj.alertCause then some w.alertCause
  else if n = Obj.odCount then some odCount
  else if n = Obj.hokSessions then some w.dict.sessions.length
  else if n = Obj.serial then some serialNum
  else if n = Obj.macBase then some macBaseNum
  else if n = Obj.mgmtMac then some (macBaseNum + 8)
  else if n = Obj.romVersion then some (Config.romVersion % 2 ^ 32)
  else if n = Obj.jtagIdcode then some idcodeNum
  else if n = Obj.jtagUsercode then some (serialNum % 2 ^ 32)
  else match ctxItem Obj.timersArmed n with
    | some x => some (w.timersArmed x)
    | none => match ctxItem Obj.ctxEpoch n with
      | some x => some (w.ctxEpochOf x)
      | none => if Obj.portMac 0 ≤ n ∧ n ≤ Obj.portMac 7 ∧ (n - Obj.portMac 0) % 4096 = 0 then some (portMacOf ((n - Obj.portMac 0) / 4096))
        else none

/-! ### The log window (R518) -/

/-- Who reads the log, as its place in the list of read positions. -/
def readerKey : Writer → Nat
  | .fn c => c.val
  | .hok s => 16 + s.val
  | .fw => 20

/-- A reader's own LOG_READ_SEQ. -/
def Dev.readSeq (w : Dev) (wr : Writer) : Nat := Store.get (fun _ => 0) w.log.readSeq (readerKey wr)

/-- A record that reads as zero except for SEQ. -/
def blankRec (seq : Nat) : List Nat := (leBytes (seq % 2 ^ 64 * 2 ^ 192) 64).map BitVec.toNat

/-- The record with a sequence number as a reader sees it (R518). -/
def Dev.recSeen (w : Dev) (wr : Writer) (seq : Nat) : List Nat :=
  let next := w.get Obj.logNextSeq
  let first := next - w.log.recs.length
  if seq < w.get Obj.logOldestSeq ∨ next ≤ seq ∨ seq < first then blankRec seq
  else match w.log.recs[seq - first]? with
    | some r =>
      match wr with
      | .fn c => if c.val ≠ 0 ∧ r.ctx ≠ c.val then blankRec seq else r.bytes
      | _ => r.bytes
    | none => blankRec seq

/-- Byte i of LOG_WIN. Log entry 62. -/
def Dev.logByte (w : Dev) (wr : Writer) (i : Nat) : Nat := (w.recSeen wr (w.readSeq wr + i / 64)).getD (i % 64) 0

/-! ### BLOBs that report other state -/

/-- Byte i of CORE_BINS of a core. -/
def Dev.binByte (w : Dev) (k i : Nat) : Nat := bits (w.coreBin k (i / 4)) (8 * (i % 4)) 8

/-- A byte of HOOP_RECORDS: the staged RWC fields beside the RO fields, or all as the slots hold them (R205). -/
def Dev.hoopByte (w : Dev) (active : Bool) (x i : Nat) : Nat :=
  let r := w.hoopRec x (i / 128)
  let v := if active then r else hRo r + hRwc (w.blobNat .staged (Obj.hoopRecords x) (128 * (i / 128)) 128)
  bits v (8 * (i % 128)) 8

/-- Bytes of a BLOB object that reports other state, len of them from off. -/
def Work.blobView (w : Work) (wr : Writer) (active : Bool) (n off len : Nat) : Option (List Nat) :=
  let from' := fun (f : Nat → Nat) => some ((upto len).map (fun i => f (off + i)))
  if n = Obj.logWin then from' (w.logByte wr)
  else if n = Obj.odDir then
    let es := (odEntries.drop (off / 8)).take (len / 8 + 2)
    some ((es.flatMap (fun e => (leBytes e 8).map BitVec.toNat)).drop (off % 8) |>.take len)
  else if n = Obj.swatchWin then from' w.swatchWin
  else if n = Obj.mirHeld then from' (fun i => bits (w.held (i / 32)) (8 * (i % 32)) 8)
  else if n = Obj.idPubkey then from' (fun i => Config.idPubkey.getD i 0 % 256)
  else if n = Obj.idCert then from' (fun i => Config.idCert.getD i 0 % 256)
  else if n = Obj.idDigest then
    from' (fun i => (beBytes (Config.sha256 ((upto 97).map (fun j => Config.idPubkey.getD j 0 % 256))) 32).getD i 0)
  else if Obj.coreBins 0 ≤ n ∧ n ≤ Obj.coreBins 31 ∧ (n - Obj.coreBins 0) % 4096 = 0 then
    from' (w.binByte ((n - Obj.coreBins 0) / 4096))
  else match ctxItem Obj.hoopRecords n with
    | some x => from' (w.hoopByte active x)
    | none => match ctxItem Obj.hoopImage n with
      | some x => from' (fun i => bits (w.hoopImageRec x (i / 128)) (8 * (i % 128)) 8)
      | none => none

/-! ### Reads (R491, R497, R569) -/

/-- The value a read of a scalar object returns: the staged copy of an RWC object, unless the active one is asked for. -/
def Dev.scalarRead (w : Dev) (wr : Writer) (r : ObjRow) (active : Bool) (n : Nat) : Nat :=
  if n = Obj.logReadSeq then w.readSeq wr
  else match w.scalarView n with
    | some v => v
    | none => if r.acc = 2 ∧ active = false then w.getS n else w.get n

/-- The bytes a read of a BLOB returns. -/
def Work.blobRead (w : Work) (wr : Writer) (r : ObjRow) (active : Bool) (n off len : Nat) : List Nat :=
  match w.blobView wr active n off len with
  | some l => l
  | none => (leBytes (w.blobNat (if r.acc = 2 ∧ active = false then .staged else .active) n off len) len).map BitVec.toNat

/-- SIZE and RANGE of an operation on len bytes at an offset (R496 step 1, Table 17.5); an empty or overlong operation, and an
offset into a scalar, end the same way (log entry 69). -/
def ObjRow.sizeCheck (r : ObjRow) (off len : Nat) : Nat :=
  if r.typ = 8 then (if len = 0 then 0x123 else if off % 8 ≠ 0 ∨ r.size < off + len then 0x124 else 0)
  else if len ≠ r.size then 0x123 else if off ≠ 0 then 0x124 else 0

/-- A read of an RC object clears what it returns, in one step (R65). -/
def Work.clearRead (r : ObjRow) (n off len : Nat) (w : Work) : Work :=
  if r.acc ≠ 4 then w else if r.typ = 8 then w.blobPut .active n off 0 len else w.put n 0

/-- In RECOVERY areas 0 and D only are served (Table 18.5): every other number answers as one that no table lists. -/
def Dev.rowServed (w : Dev) (n : Nat) : Option ObjRow :=
  if w.get Obj.bootState = 7 ∧ recoveryArea n = false then none else objRow n

/-- A read of len bytes through the object engine: status and data, zeros when it fails. Log entry 69. -/
def Work.objRd (wr : Writer) (n off len : Nat) (active : Bool) (w : Work) : (Nat × List Nat) × Work :=
  let zeros := List.replicate len 0
  match w.rowServed n with
  | none => ((0x120, zeros), w)
  | some r =>
    if r.acc = 3 then ((0x121, zeros), w)
    else
      let st := r.sizeCheck off len
      if st ≠ 0 then ((st, zeros), w)
      else if r.typ = 8 then ((0, w.blobRead wr r active n off len), w.clearRead r n off len)
      else ((0, (leBytes (w.scalarRead wr r active n) len).map BitVec.toNat), w.clearRead r n off len)

/-! ### HOST_STATUS (Table 18.3) -/

/-- HOST_STATUS. -/
def Dev.hostStatus (w : Dev) : Nat :=
  let b := w.get Obj.bootState
  b + b2n (b == 5) * 16 + w.get Obj.fwBank % 2 * 32 + w.get Obj.bootFail % 256 * 256 + w.get Obj.incarnation % 2 ^ 16 * 2 ^ 16

end Sys2Proof.Machine
end

