-- ==== Sys2Proof/Machine/Mgmt.lean ====
section
/-!
DEFINITION. Sys2Proof/Machine/Mgmt.lean: firmware's checks of policy objects, the configuration store, the management and
notification groups, and the log's own commands (R492, R493, R500, R514 to R522).
-/
namespace Sys2Proof.Machine

/-- Change the dictionary's interfaces. -/
def Work.setDict (f : DictState → DictState) (w : Work) : Work := { w with dict := f w.dict }

/-! ### Policy objects (R500, R501) -/

/-- The policy objects of Table 17.3. -/
def isPolicy (n : Nat) : Bool :=
  [Obj.dvfsMode, Obj.lcFloorMhz, Obj.progressBudgetPermil, Obj.shadowMinPermil, Obj.shadowMaxPermil, Obj.probationPermil, Obj.binRepeat,
   Obj.binWindowH, Obj.suspectCount, Obj.probationS, Obj.katPeriodS, Obj.recoveryMode, Obj.coldReqEnable, Obj.engWdtUs, Obj.coreWdtUs,
   Obj.ctxWdtMs, Obj.memWdtUs, Obj.fwWdtMs, Obj.dieResetLimitMs, Obj.warmResetLimitS, Obj.nearAgentMin, Obj.sliceLcUs, Obj.sliceBeUs,
   Obj.beMinShare, Obj.npCoresMax, Obj.chainMax, Obj.autoActivate, Obj.fillMargin, Obj.shardTmoS].contains n
  || (upto 2).any (fun d => [Obj.freqMinMhz d, Obj.freqMaxMhz d, Obj.freqFixedMhz d].contains n)
  || (upto 16).any (fun x => [Obj.ufEnable x, Obj.ufThresh x, Obj.ufSteps x, Obj.recompMode x, Obj.ovfSeg x].contains n
      || (upto 3).any (fun t => [Obj.minMbps x t, Obj.capMbps x t, Obj.burstKib x t].contains n))
  || (upto 3).any (fun k => decide (Obj.rtoUs k ≤ n) && decide (n ≤ Obj.dscp k))

/-- FW_DECISION (R500): a decision made under the value `seen` of a policy object. When a software write has changed the value in force
since firmware read it and the decision breaks the new value, firmware drops it; otherwise the decision's own row applies it. Log entry 61. -/
def opFwDecision (num seen : Nat) (breaks : Bool) (w : Work) : Work :=
  if w.ready && isPolicy num && w.get num != seen && breaks then
    (w.bump Obj.fwOverrideCount 1).log1 0x0102 31 0 num (num + w.get num % 2 ^ 32 * 2 ^ 32)
  else w
def execFwDecision (num seen : Nat) (breaks : Bool) (s : State) : Host.Outcome State Fault Refusal := s.run (opFwDecision num seen breaks)

/-! ### The configuration store (R492, R493) -/

/-- How a store write ended: read back, read back on a spare sector, or no spare left. Log entry 60. -/
def Work.storeEnd (res : Fin 3) (w : Work) : Work :=
  match res.val with
  | 0 => w.bump Obj.storeWrites 1
  | 1 => (w.bump Obj.storeWrites 1).put Obj.storeState 1
  | _ => (w.put Obj.storeState 2).event 0x0107 31 0 0

/-- The value in force of a persistent object goes into the store. Log entry 62. -/
def Work.storeSave (n : Nat) (w : Work) : Work :=
  match objRow n with
  | some r =>
    if r.typ = 8 then
      let keep := w.dict.storeBlob.filter (fun p => p.1 / 0x100000000 != n)
      let now := if Obj.coreBins 0 ≤ n ∧ n ≤ Obj.coreBins 31 ∧ (n - Obj.coreBins 0) % 4096 = 0 then
          ((upto r.size).map (fun i => (blobKey n i, w.binByte ((n - Obj.coreBins 0) / 4096) i))).filter (fun p => p.2 != 0)
        else blobOf w.blob n
      w.setDict (fun d => { d with storeBlob := keep ++ now })
    else
      let v := match w.scalarView n with | some v => v | none => w.get n
      w.setDict (fun d => { d with storeObj := Store.set objDefault d.storeObj n v })
  | none => w

/-- A persistent object has changed since its last store write; PROBATION_LEFT_S changes as time passes. -/
def Dev.storeDirty (w : Dev) (num : Nat) : Bool :=
  w.dict.dirty.contains num ||
    (num == Obj.probationLeftS && w.probLeftS != Store.get objDefault w.dict.storeObj Obj.probationLeftS)

/-- STORE_WRITE (R492, R493): an object that has changed is written within its spacing of 10 s. Log entry 62. -/
def opStoreWrite (num : Nat) (res : Fin 3) (w : Work) : Work :=
  let last := w.dict.storeAt.find? (fun p => p.1 == num)
  let due := match last with | some p => decide (10000000000 ≤ w.since p.2) | none => true
  if w.boot.held || w.boot.vsbLost || w.get Obj.storeState == 2 || !w.storeDirty num || !due then w else
  let w := w.setDict (fun d => { d with dirty := d.dirty.filter (fun k => k != num),
                                        storeAt := (num, w.time) :: d.storeAt.filter (fun p => p.1 != num) })
  let w := if res.val = 2 then w else w.storeSave num
  w.storeEnd res
def execStoreWrite (num : Nat) (res : Fin 3) (s : State) : Host.Outcome State Fault Refusal := s.run (opStoreWrite num res)

/-- STORE_ERASE (R493): 0x5A marks the store, with a store write of the mark; any other value is clamped to no action. Log entry 62. -/
def opStoreErase (wr : Writer) (v : Nat) (res : Fin 3) (w : Work) : Work :=
  w.gated wr .host Obj.storeErase (fun w =>
    if v % 256 = 0x5A then
      let w := if res.val = 2 then w else w.setDict (fun d => { d with erase := true })
      if res.val = 0 ∨ w.get Obj.storeState = 2 then w else w.storeEnd res
    else w.noAction wr Obj.storeErase (v % 256))
def execStoreErase (wr : Writer) (v : Nat) (res : Fin 3) (s : State) : Host.Outcome State Fault Refusal :=
  s.run (opStoreErase wr v res)

/-! ### Commit groups of area 1 (R521) -/

/-- The management group. -/
def mgmtScalars : List Nat := [Obj.mgmtEn, Obj.mgmtPrefixLen]
def mgmtBlobs : List Nat := [Obj.mgmtAddr, Obj.mgmtGw]

/-- A write of 1 to MGMT_COMMIT makes the group pending. -/
def Work.mgmtReq (wr : Writer) (w : Work) : Work :=
  w.gated wr .host Obj.mgmtCommit (fun w => w.commitReq wr Obj.mgmtCommit mgmtScalars mgmtBlobs)

/-- A pending management group applies: every session closes (R512, reason 5). Log entry 71. -/
def Work.mgmtApply (w : Work) : Work :=
  if w.get Obj.mgmtCommit = 1 then
    let w := ((w.groupToActive mgmtScalars mgmtBlobs).put Obj.mgmtCommit 0)
    let w := (mgmtScalars ++ mgmtBlobs).foldl (fun (w : Work) (n : Nat) => w.persist n) w
    w.dict.sessions.foldl (fun (w : Work) (s : HokSession) => w.hokClosed s 5) w
  else w

/-- MGMT_COMMIT (R521): the group applies after the answer that carries the commit has left. -/
def opMgmtCommit (wr : Writer) (w : Work) : Work := (w.mgmtReq wr).mgmtApply
def execMgmtCommit (wr : Writer) (s : State) : Host.Outcome State Fault Refusal := s.run (opMgmtCommit wr)

/-- NOTIFY_COMMIT (R521). -/
def opNotifyCommit (wr : Writer) (w : Work) : Work :=
  w.gated wr .host Obj.notifyCommit (fun w =>
    ((w.groupToPend [] [Obj.notifyDest]).groupToActive [] [Obj.notifyDest]).persist Obj.notifyDest)
def execNotifyCommit (wr : Writer) (s : State) : Host.Outcome State Fault Refusal := s.run (opNotifyCommit wr)

/-- Entry i of HOK_KEYS in force is VALID, and its digest. -/
def Dev.hokKey (w : Dev) (i : Nat) : Bool × Nat :=
  let e := w.blobNat .active Obj.hokKeys (64 * i) 64
  (bitOf e 256, beNat ((leBytes (bits e 0 256) 32).map BitVec.toNat))

/-- A CLOSE of a session, under the device's key (R506, R508). Log entry 71. -/
def Work.sendClose (s : HokSession) (w : Work) : Work :=
  let m := hokHdr 8 32 s.sid 0
  w.mgmtSend (.hok (w.mgmtHop s.addr) s.addr s.port (m ++ beBytes (Config.hmac s.kdm m) 32))

/-- A write of 1 to HOK_COMMIT: the keys apply at once, the port is pending (R521). -/
def Work.hokReq (wr : Writer) (w : Work) : Work :=
  w.gated wr .host Obj.hokCommit (fun w =>
    if w.get Obj.hokCommit = 1 then w.noAction wr Obj.hokCommit 1
    else ((w.commitReq wr Obj.hokCommit [Obj.hokPort] [Obj.hokKeys]).groupToActive [] [Obj.hokKeys]).persist Obj.hokKeys)

/-- What follows the answer that carried a HOK_COMMIT (R512, R521): sessions whose key is no longer VALID close with a CLOSE, and
HOK_PORT applies, closing every session when it changes. Log entry 71. -/
def Work.hokApply (w : Work) : Work :=
  if w.get Obj.hokCommit = 1 then
    let w := w.dict.sessions.foldl (fun (w : Work) (s : HokSession) =>
      if (w.hokKey s.key).1 then w else (w.sendClose s).hokClosed s 3) w
    let was := w.get Obj.hokPort
    let w := ((w.groupToActive [Obj.hokPort] []).put Obj.hokCommit 0).persist Obj.hokPort
    if w.get Obj.hokPort = was then w else w.dict.sessions.foldl (fun (w : Work) (s : HokSession) => w.hokClosed s 5) w
  else w

/-- HOK_COMMIT. -/
def opHokCommit (wr : Writer) (w : Work) : Work := (w.hokReq wr).hokApply
def execHokCommit (wr : Writer) (s : State) : Host.Outcome State Fault Refusal := s.run (opHokCommit wr)

/-! ### The log (R516, R518) -/

/-- LOG_CLEAR (R518): a write of 1. -/
def opLogClear (wr : Writer) (w : Work) : Work :=
  w.gated wr .host Obj.logClear (fun w =>
    let next := w.get Obj.logNextSeq
    let n := next - w.get Obj.logOldestSeq
    (w.put Obj.logOldestSeq next).event 0x0F02 (wrCtx wr) (wrSource wr) n)
def execLogClear (wr : Writer) (s : State) : Host.Outcome State Fault Refusal := s.run (opLogClear wr)

/-- LOG_READ_SEQ_WRITE (R518): a reader's own copy. -/
def opLogReadSeqWrite (wr : Writer) (v : Nat) (w : Work) : Work :=
  w.gated wr .any Obj.logReadSeq (fun w =>
    { w with log := { w.log with readSeq := Store.set (fun _ => 0) w.log.readSeq (readerKey wr) (v % 2 ^ 64) } })
def execLogReadSeqWrite (wr : Writer) (v : Nat) (s : State) : Host.Outcome State Fault Refusal := s.run (opLogReadSeqWrite wr v)

/-- LOG_DROPPED (R516): the log unit has room again. Log entries 60, 62. -/
def opLogDropped (w : Work) : Work :=
  if 0 < w.log.lost ∧ 0 < w.logRoom then
    let n := w.log.lost
    { w with log := { w.log with lost := 0 } }.event 0x0F01 31 0 (min n (maxU 32))
  else w
def execLogDropped (s : State) : Host.Outcome State Fault Refusal := s.run opLogDropped

/-! ### The management link (R504, R505) -/

/-- MGMT_LINK_UP (R504). -/
def opMgmtLinkUp (w : Work) : Work := if w.mgmtUp then w.put Obj.mgmtLink 1 else w
def execMgmtLinkUp (s : State) : Host.Outcome State Fault Refusal := s.run opMgmtLinkUp

/-- MGMT_LINK_DOWN (R504). -/
def opMgmtLinkDown (w : Work) : Work := w.put Obj.mgmtLink 0
def execMgmtLinkDown (s : State) : Host.Outcome State Fault Refusal := s.run opMgmtLinkDown

/-- The link-local address: the modified EUI-64 of MGMT_MAC (R505). -/
def mgmtLinkLocal : Nat :=
  let m := macBaseNum + 8
  0xFE80 * 2 ^ 112 + (bits m 24 24 ^^^ 0x020000) * 2 ^ 40 + 0xFFFE * 2 ^ 24 + bits m 0 24

/-- An address of the management port. -/
def Dev.mgmtOwn (w : Dev) (a : Nat) : Bool :=
  let own := beNat ((leBytes (w.blobNat .active Obj.mgmtAddr 0 16) 16).map BitVec.toNat)
  a == mgmtLinkLocal || (own != 0 && a == own)

/-- MGMT_FRAME_RX (R504, R505): a solicitation for an own address is answered with an advertisement of MGMT_MAC, an echo request to
one with its echo reply; any other frame is dropped and counted. -/
def opMgmtFrameRx (f : MgmtFrame) (w : Work) : Work :=
  if !w.mgmtLive then w else
  let w := w.bump Obj.mgmtRxFrames 1
  match f with
  | .solicit src target =>
    if w.mgmtOwn target then w.mgmtSend (.mgmt 136 (beBytes (w.mgmtHop src) 16 ++ beBytes src 16 ++ beBytes target 16 ++ beBytes (macBaseNum + 8) 6))
    else w.bump Obj.mgmtRxDrop 1
  | .echo src dst data =>
    if w.mgmtOwn dst then w.mgmtSend (.mgmt 129 (beBytes (w.mgmtHop src) 16 ++ beBytes src 16 ++ beBytes dst 16 ++ data.map BitVec.toNat))
    else w.bump Obj.mgmtRxDrop 1
  | .other => w.bump Obj.mgmtRxDrop 1
def execMgmtFrameRx (f : MgmtFrame) (s : State) : Host.Outcome State Fault Refusal := s.run (opMgmtFrameRx f)

/-- NOTIFY_RESEND (R514): a notification that nothing has acknowledged 100 ms after its last sending goes out again, or, after 3
resends, is dropped. -/
def opNotifyResend (i : Fin 4) (seq : Nat) (w : Work) : Work :=
  match w.log.notifs.find? (fun n => n.dest == i.val && n.seq == seq) with
  | none => w
  | some n =>
    if w.since n.sentAt < 100000000 then w else
    let rest := w.log.notifs.filter (fun m => !(m.dest == i.val && m.seq == seq))
    if n.resends < 3 then
      { w with log := { w.log with notifs := rest ++ [{ n with sentAt := w.time, resends := n.resends + 1 }] } }.notifyTx i.val seq n.kind n.body
    else ({ w with log := { w.log with notifs := rest } }.bump Obj.notifyLost 1).notifyLostEvent i.val
def execNotifyResend (i : Fin 4) (seq : Nat) (s : State) : Host.Outcome State Fault Refusal := s.run (opNotifyResend i seq)

end Sys2Proof.Machine
end

