-- ==== Sys2Proof/Machine/ResetParts.lean ====
section
/-!
DEFINITION. Sys2Proof/Machine/ResetParts.lean: what the resets of an engine instance, a core and a context do when they start and
when they end (R459 to R461, R420, R434, R352).
-/
namespace Sys2Proof.Machine

/-! ### Engine instances (R459) -/

/-- The instance that owns a section (R133). -/
def Dev.sectionOwner (w : Dev) (s : Section) : Option Nat :=
  if s.kind = 2 then some (10 + s.die)
  else match w.cmd? s.ref with
    | some c => w.cmdInstance c
    | none => none

/-- SOURCE of an engine instance. -/
def engineSource (e : Nat) : Nat := 0x2000 + e

/-- A group enters BROKEN with GROUP_LOST 0, without a notice or a PEER_LOST (R459, R461). Log entry 64. -/
def Work.breakQuiet (g : Nat) (w : Work) : Work :=
  if w.groupSt g ≠ 1 then w else (w.blobPut .active Obj.groupState g 2 1).blobPut .active Obj.groupLost (4 * g) 0 4

/-- A batch that had issued some of its row writes and not all is torn (R318). -/
def Work.tornCheck (j : PicotJob) (w : Work) : Work :=
  if j.kind = 2 ∧ 0 < j.written ∧ j.written < j.rows.length then
    (w.event 0x050C j.ctx (0x2004 + j.die) j.written).bump Obj.batchTornCount 1
  else w

/-- A Picot job stops with a status: inside its section the section runs to its end first, otherwise it ends now. -/
def Work.picotStop (j : PicotJob) (st det : Nat) (w : Work) : Work :=
  let w := w.tornCheck j
  let granted := match j.sect with
    | some s => w.sched.sections.any (fun q => q.id == s && q.core.isSome)
    | none => false
  if granted then
    (w.dropLocks j.id).mapJob j.id (fun (q : PicotJob) => { q with rows := [], left := [], fail := some (st, det) })
  else
    let w := match j.sect with
      | some s => (w.setSections (w.sched.sections.filter (fun q => q.id != s))).rotation
      | none => w
    w.endPicot j.id st det

/-- One command in flight on an instance that is reset ends with a status (R459). Log entry 64. -/
def Work.engineEnd (c : Cmd) (st e : Nat) (w : Work) : Work :=
  match c.q with
  | 1 =>
    let w := (w.bob.fills.filter (fun f => f.cmd == some c.id)).foldl (fun (w : Work) (f : Fill) => w.ditchFill f) w
    w.finishCmd c.id st e
  | 2 =>
    (match w.picotJob? c.id with
     | some j => w.picotStop j st e
     | none => w.finishCmd c.id st e)
  | 3 =>
    (match w.coll? c.id with
     | some j =>
       let gs := if j.op = 3 then [j.group, j.inner] else [j.group]
       let hit := fun (w : Work) => w.plait.jobs.filter (fun q => q.id != c.id && gs.any (fun g => q.names g))
       let w := (gs.foldl (fun (w : Work) (g : Nat) => w.breakQuiet g) w).collStop c.id st e
       (hit w).foldl (fun (w : Work) (q : CollJob) =>
         if (match w.cmd? q.id with | some d => w.cmdInstance d == some e | none => true) then w else w.collStop q.id 0x0710 0) w
     | none => w.finishCmd c.id st e)
  | _ => w.finishCmd c.id st e

/-- The sessions whose home port lies on I/O die d. -/
def Dev.homedOn (w : Dev) (d : Nat) : List Sess := w.net.sess.filter (fun s => s.home / 4 == d)

/-- An engine reset stops its instance (R459): every command in flight on it ends, the culprit with ENGINE_HANG, the others with
ENGINE_RESET; a stream whose transfer ends so is FAULTED; Pairing gives up the sends and receives of its die's sessions, the
swatch unit its samples. -/
def Work.engineStop (e : Nat) (culprit : Option Nat) (w : Work) : Work :=
  let w := (w.q.cmds.filter (fun c => c.done.isNone && w.cmdInstance c == some e)).foldl (fun (w : Work) (c : Cmd) =>
    w.engineEnd c (if culprit = some c.id then 0x0A10 else 0x0A11) e) w
  if e < 4 then
    (w.bob.streams.filter (fun t => t.cap.isSome && w.streamInst t.ctx t.s (w.streamDesc t.ctx t.s) == e)).foldl
      (fun (w : Work) (t : Stream) => w.streamFail t.ctx t.s 0x0A11 e t) w
  else if e = 8 ∨ e = 9 then (w.homedOn (e - 8)).foldl (fun (w : Work) (s : Sess) => w.pairGone s.n) w
  else if e = 10 ∨ e = 11 then (dieCores (e - 10)).foldl (fun (w : Work) (k : Nat) => w.sampleLost k) w
  else w

/-- A section of a stopped instance ends, and its command with it. -/
def Work.sectionCut (s : Section) (w : Work) : Work :=
  let w := w.endSection s.id
  match s.kind with
  | 0 => (w.mapColl s.ref (fun (q : CollJob) => { q with sect := none })).collEnd s.ref
  | 1 => w.batchRelease s.ref
  | _ => w

/-- Sections that an instance owns. -/
def Dev.ownedSections (w : Dev) (e : Nat) : List Section := w.sched.sections.filter (fun s => s.kind != 2 && w.sectionOwner s == some e)

/-- The rest of an engine reset's work: its sections end. -/
def Work.engineFinish (e : Nat) (w : Work) : Work := (w.ownedSections e).foldl (fun (w : Work) (s : Section) => w.sectionCut s) w

/-- A core reset holds a section of an instance. -/
def Dev.coreHolds (w : Dev) (e : Nat) : Bool :=
  w.rst.runs.any (fun r => r.dom == 2 && r.ends.any (fun p => p.2.2 == 2 &&
    (match w.cmd? p.1 with | some c => w.cmdInstance c == some e | none => false)))

/-! ### Cores (R460) -/

/-- The bin in which a core hangs: that of the tile it runs, or of a core that runs none. Log entry 64. -/
def Dev.hangBin (w : Dev) (k : Nat) : Nat :=
  let c := w.core k
  match c.tile with
  | some t => w.binOf k t
  | none =>
    let g := ((w.sched.temps.find? (fun p => p.1 == k)).map (fun p => p.2)).getD (0 : Int)
    let tb := if g < 60 then 0 else if g < 75 then 1 else if g < 90 then 2 else 3
    let v := w.get (Obj.vcoreMv (coreDie k))
    let vb := if v < 700 then 0 else if v < 800 then 1 else 2
    12 * tb + 4 * vb + 2

/-- What core k holds is taken off it: the launches with a tile or chain on it and the command of its section, to end when the
reset has cleared the core; a Sampler run is dropped. Log entry 64. -/
def Work.coreDetach (k : Nat) (w : Work) : List (Nat × Nat × Nat) × Work :=
  let c := w.core k
  let samp := match c.chain with | some h => h.samp | none => none
  let work := match samp with
    | some _ => []
    | none =>
      match c.tile, c.again, c.chain with
      | some t, _, _ => [(t.cmd, t.idx, 1)]
      | none, some a, _ => [(a.tile.cmd, a.tile.idx, 1)]
      | none, none, some h => if w.chainGoesOn k then [(h.cmd, h.idx + 1, 0)] else []
      | none, none, none => []
  let sec := match w.sectionOn k with | some s => if s.kind = 2 then [] else [(s.ref, k, 2)] | none => []
  let on := w.sectionOn k
  let w := (w.dropRun samp).putCore { c with tile := none, chain := none, again := none }
  let w := match on with | some s => if s.kind = 2 then w.sampleLost k else w.endSection s.id | none => w
  (work ++ sec, w.coreNow k 5 0xFF)

/-- A core leaves reset: IDLE, or FENCED if its bit is set. -/
def Work.coreBack (k : Nat) (w : Work) : Work :=
  let w := w.coreNow k 0 0xFF
  if w.fencedCore k then w.fenceCore k else w

/-- Every tag of core k is cleared. -/
def Work.clearTags (f : Nat → Nat → Bool) (w : Work) : Work :=
  { w with bob := { w.bob with tags := w.bob.tags.filter (fun p => !f p.1 p.2) } }

/-- Steps 4 to 6 of R460: tags, the save area, the launches and the command that were on the core. -/
def Work.coreFinish (k : Nat) (ends : List (Nat × Nat × Nat)) (w : Work) : Work :=
  let w := w.clearTags (fun b _ => b / 65536 == k)
  let w := match (w.core k).spill with
    | some sp => ((w.putCore { w.core k with spill := none }).put (Obj.coreSpill k) 0xFF).chainLost sp
    | none => w
  ends.foldl (fun (w : Work) (p : Nat × Nat × Nat) =>
    match p.2.2 with
    | 2 =>
      (match w.cmd? p.1 with
       | none => w
       | some c =>
         let covered := match w.cmdInstance c with | some e => (w.reset? 1 e).isSome | none => false
         let w := if covered then w else
           match w.picotJob? p.1 with
           | some j => w.picotStop j 0x0A12 k
           | none => w.collStop p.1 0x0A12 k
         ((w.mapColl p.1 (fun (q : CollJob) => { q with sect := none })).collEnd p.1).batchRelease p.1)
    | 1 => (w.launchFault p.1 p.2.1 0x0A12 p.2.1).tileGone p.1
    | _ => (w.launchFault p.1 p.2.1 0x0A12 p.2.1).launchStep p.1) w

/-! ### Contexts (R461) -/

/-- Cores of die d that hold a tile, chain, spill or section of context x. -/
def Dev.ctxCores (w : Dev) (x d : Nat) : List Nat :=
  (dieCores d).filter (fun k =>
    let c := w.core k
    (match c.tile with | some t => t.ctx == x | none => false) || (match c.chain with | some h => h.ctx == x | none => false)
      || (match c.spill with | some s => s.chain.ctx == x | none => false)
      || (match w.sectionOn k with | some s => s.ctx == x && s.kind != 2 | none => false))

/-- Queues of context x that hold a command or pattern, with the patterns admitted that have started no command. -/
def Dev.heldQueues (w : Dev) (x : Nat) : List (Nat × Nat) :=
  ((upto 5).filter (fun q => w.q.pats.any (fun p => p.ctx == x && p.q == q) || w.q.cmds.any (fun c => c.ctx == x && c.q == q)
    || w.get (Obj.sqHead x q) != w.get (Obj.sqTail x q))).map (fun q =>
      (q, (w.q.pats.filter (fun p => p.ctx == x && p.q == q && p.next == 0)).length))

/-- A command in flight owns a section that holds a core. -/
def Dev.inOwnSection (w : Dev) (id : Nat) : Bool := w.sched.sections.any (fun s => s.kind != 2 && s.ref == id && s.core.isSome)

/-- A command leaves flight unreported: it lets go of what it holds. -/
def Work.dropCmd (c : Cmd) (w : Work) : Work :=
  ((w.setCmds (w.q.cmds.filter (fun r => r.id != c.id))).dropSlot c.slot).dropAdd c.ctx c.add

/-- The work of context x stops (steps 1 and 4 of R461): its engines discard what is in flight, its locks and prefetch buffers
are free; a section that holds a core keeps its command until it ends. -/
def Work.ctxStop (x : Nat) (w : Work) : Work :=
  let w := (w.picot.jobs.filter (fun j => j.ctx == x)).foldl (fun (w : Work) (j : PicotJob) => w.picotStop j 0x0201 0) w
  let w := (w.plait.jobs.filter (fun j => j.ctx == x)).foldl (fun (w : Work) (j : CollJob) => w.collStop j.id 0x0201 0) w
  let w := w.setColls (w.plait.jobs.filter (fun j => j.ctx != x || w.inOwnSection j.id))
  let w := (w.bob.fills.filter (fun f => f.ctx == x && !f.stopped)).foldl (fun (w : Work) (f : Fill) => w.ditchFill f) w
  let w := (w.q.cmds.filter (fun c => c.ctx == x && !w.inOwnSection c.id)).foldl (fun (w : Work) (c : Cmd) => w.dropCmd c) w
  let w := (w.q.pats.filter (fun p => p.ctx == x)).foldl (fun (w : Work) (p : Pattern) => w.dropPattern p) w
  let w := w.setLaunches (w.sched.launches.filter (fun l => l.ctx != x))
  let w := w.setRuns (w.sched.runs.filter (fun r => match r.tiles.head? with | some t => t.ctx != x | none => true))
  let w := forUpto (fun k w =>
    let c := w.core k
    let w := match c.spill with
      | some sp => if sp.chain.ctx = x then (w.putCore { c with spill := none }).put (Obj.coreSpill k) 0xFF else w
      | none => w
    let c := w.core k
    match c.tile, c.chain with
    | some t, _ =>
      if t.ctx = x ∧ w.coreSt k = 1 then (w.putCore { c with tile := none, chain := none, again := none }).coreNow k 0 0xFF else w
    | none, some h => if h.ctx = x then w.putCore { c with chain := none, again := none } else w
    | none, none => w) 32 w
  let w := w.idleStreams x
  let w := forUpto (fun b w => if w.get (Obj.pbOwner b) = x then w.cancelBuffer x b else w) 64 w
  let w := { w with q := { w.q with disabling := w.q.disabling.filter (fun y => y != x), flushing := w.q.flushing.filter (fun f => f.1 != x) } }
  (w.setPair (fun p => { p with wait := p.wait.filter (fun a => a.1 != x) })).rotation

/-- Every byte of a BLOB in force is at its default. -/
def Work.blobClear (n : Nat) (w : Work) : Work := { w with blob := w.blob.filter (fun p => p.1 / 0x100000000 != n) }

/-- A BUSY attestation request is discarded (R540). -/
def Work.attestDrop (x : Nat) (w : Work) : Work :=
  if w.boot.attest.any (fun a => a.ctx == x) then
    let w := { w with boot := { w.boot with attest := w.boot.attest.filter (fun a => a.ctx != x) } }
    (w.put (Obj.attestState x) 0).blobClear (Obj.attestReport x)
  else w

/-- Steps 1 and 4 of R461 for what reaches beyond the queues: groups BROKEN, sessions LOST, loads, bindings, mirrors, restores,
spills and attestations of the context (R352, R420, R434, R299, R541). -/
def Work.ctxSever (x : Nat) (w : Work) : Work :=
  let gs := sortNat ((blobOf w.blob Obj.groupTable).map (fun p => p.1 % 0x100000000 / 32))
  let w := gs.foldl (fun (w : Work) (g : Nat) => if gvValid (w.groupE g) && gvCtx (w.groupE g) == x then w.breakQuiet g else w) w
  let w := (w.net.sess.filter (fun s => w.lctx s.n == x)).foldl (fun (w : Work) (s : Sess) => w.sessGone s.n 4 6) w
  let w := ((w.mirrorAbandonAll x).restoreAbort x).spillAbort x
  let w := match w.life.job with
    | some j => if j.ctx = x then w.loadFail 0xFFFF else w
    | none => w
  w.attestDrop x

/-- The start of a context reset: RESETTING, CGEN + 1 (steps 1 and 4 of R461). Log entry 64. -/
def Work.ctxBegin (x : Nat) (w : Work) : Work :=
  let w := (w.put (Obj.ctxState x) 3).put (Obj.ctxResetState x) 1
  let w := w.put (Obj.cgen x) ((w.get (Obj.cgen x) + 1) % 2 ^ 16)
  (w.ctxSever x).ctxStop x

/-- The CANCELLED record of a queue whose patterns a context reset discarded; without a free slot, or when the ring fails
translation, FAULT_STATUS says so (step 5 of R461). -/
def Work.cancelRecord (x q started : Nat) (w : Work) : Work :=
  let n := (w.get (Obj.sqTail x q) + 2 ^ 32 - w.get (Obj.sqHead x q)) % 2 ^ 32 + started
  let w := w.put (Obj.sqHead x q) (w.get (Obj.sqTail x q))
  let lost := fun (w : Work) => w.put (Obj.faultStatus x) 0x0201
  if w.cqFree x q = 0 then lost w else
  match w.postRecord x q (mkRecord 0x0201 0 true false none q x 0 0 0 0 n) false with
  | (w, none) => w
  | (w, some _) => lost w

/-- The current-step fields of a Hoop record cleared: AMAX_CUR, OVF_STEP, FLUSH_STEP, ELEM_STEP. -/
def hCurrent (r : Nat) : Nat := setBits (setBits (setBits (setBits r 64 32 0) 39 1 0) 128 64 0) 192 64 0

/-- Steps 5 and 6 of R461. Log entry 64. -/
def Work.ctxFinish (x : Nat) (queues : List (Nat × Nat)) (w : Work) : Work :=
  let w := (w.q.cmds.filter (fun c => c.ctx == x)).foldl (fun (w : Work) (c : Cmd) => w.dropCmd c) w
  let w := (w.setColls (w.plait.jobs.filter (fun j => j.ctx != x))).setJobs (w.picot.jobs.filter (fun j => j.ctx != x))
  let w := w.clearTags (fun _ t => t % 32 == 1 + x)
  let w := (w.setTimers (w.q.timers.filter (fun t => t.ctx != x))).idleStreams x
  let w := (w.hoopUsed x).foldl (fun (w : Work) (t : Nat) => w.hoopPut x t (hCurrent (w.hoopRec x t))) w
  let w := forUpto (fun q w => w.put (Obj.qState x q) 0) 5 w
  let w := queues.foldl (fun (w : Work) (p : Nat × Nat) => w.cancelRecord x p.1 p.2) w
  let w := ((w.put (Obj.ctxState x) 1).put (Obj.ctxResetState x) 0).ctxProgress x
  w.rotation

/-- Nothing of context x holds a core, and no store of it is under way. -/
def Dev.ctxStill (w : Dev) (x : Nat) : Bool :=
  !w.sched.cores.any (fun c => match c.tile with | some t => t.ctx == x | none => false)
    && !w.sched.sections.any (fun s => s.kind != 2 && s.ctx == x) && !w.sched.stores.any (fun s => s.tile.ctx == x)

/-! ### The lifecycle (R420) -/

/-- A die reset or device warm reset ends every load and swap, and releases every binding. -/
def Work.lifeReset (w : Work) : Work :=
  let w := w.loadFail 0xFFFF
  let w := { w with life := { w.life with swap := false, addSwap := [] } }
  let w := forUpto (fun s w =>
    let st := w.get (Obj.slotState s)
    if st = 1 ∨ st = 7 then (w.put (Obj.slotState s) 6).slotApply s else w) 3 w
  let w := w.setPats (w.q.pats.map (fun (p : Pattern) => { p with slot := none }))
  let w := w.setCmds (w.q.cmds.map (fun (c : Cmd) => { c with slot := none }))
  let w := w.setStreams (w.bob.streams.map (fun (t : Stream) => { t with cap := t.cap.map (fun (c : StreamCap) => { c with slot := none }) }))
  let w := w.resumeAdmit
  forUpto (fun s w =>
    let w := w.put (Obj.bindCount s) 0
    if w.get (Obj.slotState s) = 4 then w.slotQuiet s else w) 3 w

end Sys2Proof.Machine
end

