-- ==== Sys2Proof/Machine/Firmware.lean ====
section
/-!
DEFINITION. Sys2Proof/Machine/Firmware.lean: the flash banks, verification and staging of firmware, the security version, the entropy
source and attestation (R534 to R541).
-/
namespace Sys2Proof.Machine

/-- Change the standby partition. -/
def Work.setBoot (f : BootState → BootState) (w : Work) : Work := { w with boot := f w.boot }

/-- BOOT_STATE changes: the device vector is raised (R525). -/
def Work.phase (n : Nat) (w : Work) : Work := (w.put Obj.bootState n).raiseDevice

/-! ### Images (R535, Table 18.7) -/

/-- Byte o of bank b: staged, erased, or as manufactured. Log entry 24. -/
def Dev.flashByte (w : Dev) (b o : Nat) : Nat :=
  match w.boot.flash.find? (fun p => p.1 == b * 2 ^ 32 + o) with
  | some p => p.2
  | none => (if w.boot.erased.contains b then Config.erasedByte else Config.bankImage b o) % 256

/-- n bytes of a bank. -/
def Dev.flashBytes (w : Dev) (b o n : Nat) : List Nat := (upto n).map (fun i => w.flashByte b (o + i))

/-- The 256 bytes of a bank's image header as a number. -/
def Dev.imageHdr (w : Dev) (b : Nat) : Nat := leNat ((w.flashBytes b 0 256).map (BitVec.ofNat 8))
def ihMagic (h : Nat) : Nat := bits h 0 32
def ihFormat (h : Nat) : Nat := bits h 32 16
def ihSvn (h : Nat) : Nat := bits h 48 8
def ihVersion (h : Nat) : Nat := bits h 64 32
def ihLength (h : Nat) : Nat := bits h 96 32
def ihSlot (h : Nat) : Nat := bits h 904 8

/-- What SIG signs and FW_MEAS measures: header bits [911:0] and the body. Log entry 26. -/
def Dev.imageSigned (w : Dev) (b : Nat) : List Nat := w.flashBytes b 0 114 ++ w.flashBytes b 256 (ihLength (w.imageHdr b))

/-- The boot ROM's checks, in the order of R535: 0, or the reason of FW_STAGE_REASON. Log entry 23. -/
def Dev.imageCheck (w : Dev) (b : Nat) : Nat :=
  let h := w.imageHdr b
  let key := w.flashBytes b 16 97
  if ihMagic h ≠ 0x4F5A4657 ∨ ihFormat h ≠ 1 then 1
  else if ihLength h < 4096 ∨ 16777216 < ihLength h then 2
  else if 1 < ihSlot h ∨ Config.sha384 key ≠ Config.rootDigest (ihSlot h) then 3
  else if Config.ecdsaVerify key (w.imageSigned b) (beNat (w.flashBytes b 114 96)) = false then 4
  else if ihSvn h < w.svnFuse then 5
  else 0

/-- Bank b verifies: `bad` are the banks that the flash fails to return. -/
def Dev.bankOk (w : Dev) (bad : List Nat) (b : Nat) : Bool := !bad.contains b && w.imageCheck b == 0

/-- Firmware of bank b runs: FW_BANK, FW_VERSION, FW_SVN and FW_MEAS. Log entry 74. -/
def Work.runImage (b : Nat) (w : Work) : Work :=
  let h := w.imageHdr b
  let m := leNat ((beBytes (Config.sha384 (w.imageSigned b)) 48).map (BitVec.ofNat 8))
  ((((w.put Obj.fwBank b).put Obj.fwVersion (ihVersion h)).put Obj.fwSvn (ihSvn h)).blobPut .active Obj.fwMeas 0 m 48)

/-- The firmware step of a start (R534): the bank of FW_BOOT_BANK, then the other one with FW_ROLLBACK; whether one verified. Log entries 63, 74. -/
def Work.verifyBoot (bad : List Nat) (w : Work) : Bool × Work :=
  let b := w.get Obj.fwBootBank
  let w := w.setBoot (fun s => { s with tried := b })
  if w.bankOk bad b then (true, w.runImage b)
  else if w.bankOk bad (1 - b) then (true, ((w.runImage (1 - b)).put Obj.fwBootBank (1 - b)).event 0x0D02 31 0 (1 - b))
  else (false, w)

/-! ### The security version (R536) -/

/-- FW_SVN_COMMIT: a write of 1. -/
def opFwSvnCommit (wr : Writer) (w : Work) : Work :=
  w.gated wr .host Obj.fwSvnCommit (fun w =>
    let v := w.get Obj.fwSvn
    if w.svnFuse < v then
      (w.setBoot (fun s => { s with burned := max s.burned (min v 63) })).send (.nv 1 [v])
    else w.noAction wr Obj.fwSvnCommit 1)
def execFwSvnCommit (wr : Writer) (s : State) : Host.Outcome State Fault Refusal := s.run (opFwSvnCommit wr)

/-! ### Staging (R537) -/

/-- The bank that is not running. Log entry 63. -/
def Dev.stageBank (w : Dev) : Nat := 1 - w.get Obj.fwBank

/-- The first write after IDLE, REJECTED or PENDING: the bank is erased, WRITING begins, no activation is pending. Log entry 63. -/
def Work.stageBegin (w : Work) : Work :=
  if w.get Obj.fwStageState = 1 then w else
  let b := w.stageBank
  let w := w.setBoot (fun s => { s with
    flash := s.flash.filter (fun p => p.1 / 2 ^ 32 != b), erased := b :: s.erased.filter (fun c => c != b) })
  let w := if w.get Obj.fwStageState = 3 then w.put Obj.fwBootBank (w.get Obj.fwBank) else w
  (w.put Obj.fwStageState 1).put Obj.fwStageReason 0

/-- Image bytes reach the flash. -/
def Work.stageWrite (wr : Writer) (off : Nat) (d : List Byte) (w : Work) : Work :=
  if w.get Obj.fwStageState = 2 then w.clamped wr Obj.fwStage (leNat (d.take 8)) 0 (off / 8 * 8)
  else if d.isEmpty ∨ 16777472 < off + d.length then w
  else
    let w := w.stageBegin
    let b := w.stageBank
    w.setBoot (fun s => { s with
      flash := forUpto (fun i m => Store.set (fun _ => 256) m (b * 2 ^ 32 + off + i) (d.getD i 0#8).toNat) d.length s.flash })

/-- FW_STAGE: a write of image bytes. Log entry 63. -/
def opFwStage (wr : Writer) (off : Nat) (data : List Byte) (w : Work) : Work :=
  w.gated wr .host Obj.fwStage (fun w => w.stageWrite wr off data)
def execFwStage (wr : Writer) (off : Nat) (data : List Byte) (s : State) : Host.Outcome State Fault Refusal :=
  s.run (opFwStage wr off data)

/-- FW_STAGE_COMMIT: a write of 1. -/
def opFwStageCommit (wr : Writer) (w : Work) : Work :=
  w.gated wr .host Obj.fwStageCommit (fun w =>
    if w.get Obj.fwStageState = 2 then w.noAction wr Obj.fwStageCommit 1 else w.put Obj.fwStageState 2)
def execFwStageCommit (wr : Writer) (s : State) : Host.Outcome State Fault Refusal := s.run (opFwStageCommit wr)

/-! ### Entropy (R538) -/

/-- ENTROPY_FAILED. -/
def opEntropyFailed (w : Work) : Work :=
  let b := w.get Obj.bootState
  if w.boot.held || w.boot.vsbLost || b == 0 || b == 8 || w.get Obj.entropyState == 1 then w else
  let w := w.setBoot (fun s => { s with passes := 0, retestAt := w.time })
  ((w.put Obj.entropyState 1).bump Obj.entropyFails 1).event 0x0D04 31 0 0
def execEntropyFailed (s : State) : Host.Outcome State Fault Refusal := s.run opEntropyFailed

/-- ENTROPY_RETEST: once a second; three passes in a row end the failure. -/
def opEntropyRetest (pass : Bool) (w : Work) : Work :=
  if w.get Obj.entropyState = 0 ∨ w.since w.boot.retestAt < 1000000000 then w else
  let n := if pass then w.boot.passes + 1 else 0
  let w := w.setBoot (fun s => { s with passes := n, retestAt := w.time })
  if 3 ≤ n then w.put Obj.entropyState 0 else w
def execEntropyRetest (pass : Bool) (s : State) : Host.Outcome State Fault Refusal := s.run (opEntropyRetest pass)

/-! ### Attestation (R540, R541) -/

/-- Bytes of a BLOB in force. -/
def Dev.blobBytes (w : Dev) (n len : Nat) : List Byte := leBytes (w.blobNat .active n 0 len) len

/-- Bits [1535:0] of the report of context x now (Table 18.8). Log entry 26. -/
def Dev.attestBody (w : Dev) (x : Nat) : Nat :=
  let low := 0x4F5A4154 + 1 * 2 ^ 32 + 0xA1 * 2 ^ 40 + x * 2 ^ 48 + w.get Obj.bootState % 16 * 2 ^ 52
    + b2n (w.get Obj.fwBank != w.boot.tried) * 2 ^ 56 + b2n (w.get Obj.fwStageState == 3) * 2 ^ 57 + b2n w.dict.erase * 2 ^ 58
    + w.get Obj.entropyState % 2 * 2 ^ 59 + serialNum * 2 ^ 64 + w.get Obj.incarnation % 2 ^ 32 * 2 ^ 128
    + w.get Obj.fwSvn % 256 * 2 ^ 160 + w.svnFuse * 2 ^ 168 + w.get Obj.healthState % 4 * 2 ^ 176 + w.time % 2 ^ 64 * 2 ^ 192
  let mid := w.blobNat .active (Obj.attestNonce x) 0 32 * 2 ^ 256
    + (if w.get Obj.bootState = 7 then 0 else w.blobNat .active Obj.fwMeas 0 48) * 2 ^ 512
    + digestLe (w.blobBytes Obj.peerTable 524288) * 2 ^ 896 + digestLe (w.blobBytes Obj.hokKeys 1024) * 2 ^ 1152
  low + mid + w.fencedBits % 2 ^ 32 * 2 ^ 1408 + w.get (Obj.ownJob x) % 2 ^ 32 * 2 ^ 1440
    + w.get (Obj.ownRank x) % 2 ^ 32 * 2 ^ 1472 + Config.romVersion % 2 ^ 32 * 2 ^ 1504

/-- ATTEST_REQ: a write of 1 captures the report; a write while BUSY is clamped to no action. -/
def opAttestReq (wr : Writer) (x : Fin 16) (w : Work) : Work :=
  w.gated wr (.own x.val) (Obj.attestReq x.val) (fun w =>
    if w.get (Obj.attestState x.val) = 1 then w.noAction wr (Obj.attestReq x.val) 1
    else
      let body := w.attestBody x.val
      (w.setBoot (fun s => { s with attest := s.attest ++ [⟨x.val, body, w.time⟩] })).put (Obj.attestState x.val) 1)
def execAttestReq (wr : Writer) (x : Fin 16) (s : State) : Host.Outcome State Fault Refusal := s.run (opAttestReq wr x)

/-- Requests are signed in the order of their making, and in ascending context order where they were made at once (R540). -/
def Attest.before (a b : Attest) : Bool := decide (a.since < b.since) || (a.since == b.since && decide (a.ctx < b.ctx))

/-- ATTEST_DONE: the signed report of context x. -/
def opAttestDone (x : Fin 16) (w : Work) : Work :=
  match w.boot.attest.find? (fun a => a.ctx == x.val) with
  | none => w
  | some a =>
    if w.boot.attest.any (fun b => b.before a) then w else
    let sig := Config.ecdsaSign ((leBytes a.body 192).map BitVec.toNat)
    let w := w.setBoot (fun s => { s with attest := s.attest.filter (fun b => b.ctx != x.val) })
    let w := (w.blobPut .active (Obj.attestReport x.val) 0 a.body 192).blobPut .active (Obj.attestReport x.val) 192
      (leNat ((beBytes sig 96).map (BitVec.ofNat 8))) 96
    w.put (Obj.attestState x.val) 2
def execAttestDone (x : Fin 16) (s : State) : Host.Outcome State Fault Refusal := s.run (opAttestDone x)

end Sys2Proof.Machine
end

