-- ==== Sys2Proof/Machine/Resets.lean ====
section
/-!
DEFINITION. Sys2Proof/Machine/Resets.lean: the rows of chapter 15: watchdogs, requests, escalation, and the start and end of a
reset of every domain.
-/
namespace Sys2Proof.Machine

/-! ### Containment (R469) -/

/-- A reset contains a domain and target. -/
def Reset.contains (r : Reset) (dom target : Nat) : Bool :=
  (r.dom == 5 && decide (dom < 5)) ||
  (r.dom == 4 && ((dom == 2 && coreDie target == r.target) || (dom == 1 && engDie target == r.target) || (dom == 3 && r.ctxs.contains target)))

/-- The contexts that a reset of compute die d resets (R464): their home is the die, or they have a tile, chain, spill, section or
engine command on it. -/
def Dev.dieCtxs (w : Dev) (d : Nat) : List Nat :=
  if 2 ≤ d then [] else
  (upto 16).filter (fun x => w.get (Obj.ctxState x) != 0 && (w.get (Obj.homeDie x) == d || !(w.ctxCores x d).isEmpty
    || w.sched.sections.any (fun s => s.kind != 2 && s.ctx == x && s.die == d)
    || w.q.cmds.any (fun c => c.ctx == x && c.done.isNone && (match w.cmdInstance c with | some e => engDie e == d | none => false))
    || w.bob.streams.any (fun t => t.ctx == x && t.cap.isSome && w.streamInst x t.s (w.streamDesc x t.s) == d)))

/-- Swatch sections that no reset waits for are withdrawn. -/
def Work.pruneSamples (w : Work) : Work :=
  (w.sched.sections.filter (fun s => s.kind == 2 && !w.rst.runs.any (fun r => r.todo.contains s.ref))).foldl
    (fun (w : Work) (s : Section) => w.endSection s.id) w

/-- A reset is absorbed (R469): what is left of its work is done within the larger one, without a RESET_DONE. A context reset that
a die reset absorbs goes on as one that the die reset started. -/
def Work.absorb (big : Nat) (r : Reset) (w : Work) : Work :=
  let w := (w.resetEvent 0x0A06 r.dom r.cause r.target).bump Obj.absorbed 1
  if big = 5 then w.dropReset r.dom r.target else
  match r.dom with
  | 1 => (w.dropReset 1 r.target).engineFinish r.target
  | 2 => (w.dropReset 2 r.target).coreFinish r.target r.ends
  | _ => (w.mapReset 3 r.target (fun r => { r with cause := 9, swatch := none, todo := [] })).pruneSamples

/-! ### The start of a reset -/

/-- The counter of a domain. -/
def resetCounter (dom : Nat) : Nat :=
  match dom with
  | 1 => Obj.engineResets
  | 2 => Obj.coreResets
  | 3 => Obj.contextResets
  | 4 => Obj.dieResets
  | _ => Obj.warmResets

/-- A reset is under way: its record, its event (an engine reset's holds the captured state, a free value: log entry 21), its
counter. -/
def Work.pushReset (r : Reset) (w : Work) : Work :=
  let w := (w.setRst (fun q => { q with runs := q.runs ++ [r] })).resetSync
  let (x, w) := if r.dom = 1 then w.freeDraw else (0, w)
  let w := w.log1 0x0A01 (resetCtx r.dom r.target) 0x9000 (resetDetail r.dom r.cause r.target) (x % 2 ^ 224)
  let w := w.bump (resetCounter r.dom) 1
  if r.dom = 3 then w.bump (Obj.ctxResetCount r.target) 1 else w

/-- A session is LOST without any notice that it is (R352). Log entry 64. -/
def Work.sessLostQuiet (n : Nat) (w : Work) : Work :=
  let rank := pRank (w.peer n)
  let gs := w.groupsOf n
  let w := w.sessOver n 4 6
  let w := gs.foldl (fun (w : Work) (g : Nat) => w.breakGroup g 1 rank 1 ((upto (gvN (w.groupE g))).map (fun p => w.member g p))) w
  (w.loaderGone n).pairGone n

/-- Die d's cores stop at once: what they hold is gone. -/
def Work.coresStop (cores : List Nat) (w : Work) : Work :=
  let w := (w.sched.sections.filter (fun s => s.kind == 2 && cores.contains s.ref)).foldl (fun (w : Work) (s : Section) => w.sampleLost s.ref) w
  let w := (w.sched.sections.filter (fun s => match s.core with | some k => cores.contains k | none => false)).foldl
    (fun (w : Work) (s : Section) => w.endSection s.id) w
  let w := w.setRuns (w.sched.runs.filter (fun r => !(r.started && !r.ended && cores.contains r.core)))
  cores.foldl (fun (w : Work) (k : Nat) =>
    ((w.putCore (Core.reset k)).coreNow k 5 0xFF).put (Obj.coreSpill k) 0xFF) w

/-- The start of a reset of compute die d (R464, steps 1 and 2). Log entry 64. -/
def Work.dieBegin (d : Nat) (ctxs : List Nat) (dev : Bool) (esc : Nat) (w : Work) : Work :=
  let cores := dieCores d
  let queues := ctxs.map (fun x => (x, w.heldQueues x))
  let w := w.coresStop cores
  let w := queues.foldl (fun (w : Work) (p : Nat × List (Nat × Nat)) =>
    if (w.reset? 3 p.1).isSome then
      let dis := w.q.disabling
      let w := w.ctxStop p.1
      { w with q := { w.q with disabling := dis } }
    else
    let r : Reset :=
      { dom := 3, target := p.1, cause := 9, start := w.time, limit := w.resetLimit 3, esc := esc, dev := dev, culprit := none,
        swatch := none, todo := [], phase := 0, memAt := 0, ctxs := [p.1], ends := [], queues := p.2 }
    (w.pushReset r).ctxBegin p.1) w
  (w.lifeReset).claimSamples cores

/-- The start of a reset of I/O die IO0 (R464): its engine instances, its ports, the sessions at home on them. -/
def Work.ioBegin (w : Work) : Work :=
  let w := [2, 6, 8].foldl (fun (w : Work) (e : Nat) => (w.engineStop e none).engineFinish e) w
  let w := (w.homedOn 0).foldl (fun (w : Work) (s : Sess) => w.sessLostQuiet s.n) w
  ((upto 4).foldl (fun (w : Work) (p : Nat) => w.linkOff p) w).lifeReset

/-- Every commit object (R497). -/
def commitObjs : List Nat :=
  [Obj.spillPoolCommit, Obj.peerCommit, Obj.groupCommit, Obj.loadCommit, Obj.arenaCommit, Obj.mirDevCommit, Obj.dvfsCommit,
   Obj.mgmtCommit, Obj.hokCommit, Obj.notifyCommit] ++ [Obj.portsCommitIo0, Obj.portsCommitIo1] ++ (upto 3).map Obj.slotCommit ++ (upto 64).map Obj.pbCommit ++
  (upto 16).flatMap (fun x => [Obj.segCommit x, Obj.ctxCommit x, Obj.wideLogCommit x, Obj.hoopCommit x, Obj.bindCommit x, Obj.mirCommit x]
    ++ (upto 5).map (Obj.qCommit x) ++ (upto 4).map (Obj.packCommit x))

/-- A number is that of an RWC object. -/
def isRwc (n : Nat) : Bool := match objRow n with | some r => r.acc == 2 | none => false

/-- R499 for a device warm reset: every staged and pending copy is the active one, every commit object reads 0. -/
def Work.commitsGone (w : Work) : Work :=
  let sc := w.obj.filter (fun p => isRwc p.1)
  let bl := w.blob.filter (fun p => isRwc (p.1 / 0x100000000))
  let w := { w with objS := sc, objP := sc, blobS := bl, blobP := bl, hoop := { imgS := [], imgP := [], forget := [] } }
  let w := forUpto (fun x w => w.hoopRestage x) 16 w
  commitObjs.foldl (fun (w : Work) (n : Nat) => w.put n 0) w

/-- Engines, cores and the scheduler hold nothing any more; OUT stores already issued complete (R465). -/
def Work.warmUnits (w : Work) : Work :=
  let w := w.sched.stores.foldl (fun (w : Work) (s : OutStore) =>
    s.writes.foldl (fun (w : Work) (p : Nat × List Nat) => w.engWrite s.tile.ctx p.1 (p.2.map (BitVec.ofNat 8))) w) w
  let w := w.picot.jobs.foldl (fun (w : Work) (j : PicotJob) => w.tornCheck j) w
  let w := (w.setJobs []).setLocks [] |>.setColls []
  let w := forUpto (fun x w => ((w.idleStreams x).restoreAbort x).spillAbort x) 16 w
  let w := w.coresStop (upto 32)
  let w := w.setSched (fun s => { s with launches := [], stores := [], sections := [], overruns := [], runs := [] })
  ((w.put Obj.lcOwner 0xFF).put Obj.beOwner 0xFF).lifeReset

/-- Every prefetch buffer is free, no fill runs, and no request waits at a regulator. -/
def Work.warmBuffers (w : Work) : Work :=
  let w := { w with bob := { w.bob with fills := [], held := [] } }
  let w := { w with ext := { w.ext with regs := w.ext.regs.map (fun (r : Reg) => { r with held := [] }) } }
  forUpto (fun b w =>
    let o := w.get (Obj.pbOwner b)
    let w := (w.put (Obj.pbFill b) 0).put (Obj.pbRelBase b) (if o < 16 then w.evt o (w.get (Obj.pbRelEvt b)) else 0)
    w.put (Obj.pbCreditsFree b) (w.pbCredits b)) 64 w

/-- Queues are empty and STOPPED, contexts OFF, CGEN + 1 of every context whose own reset had not counted it (R466, R467). Log entry 64. -/
def Work.warmQueues (w : Work) : Work :=
  let w := { w with q := { w.q with pats := [], cmds := [], timers := [], owed := [], disabling := [], segWait := [], flushing := [] } }
  forUpto (fun x w =>
    let w := forUpto (fun q w => (w.put (Obj.qState x q) 0).put (Obj.sqHead x q) (w.get (Obj.sqTail x q))) 5 w
    let w := if w.get (Obj.ctxResetState x) = 1 then w else w.put (Obj.cgen x) ((w.get (Obj.cgen x) + 1) % 2 ^ 16)
    let w := (w.put (Obj.ctxState x) 0).put (Obj.ctxResetState x) 0
    ((w.put (Obj.addHoldA x) 0).put (Obj.addHoldB x) 0).attestDrop x) 16 w

/-- Groups are BROKEN, sessions ended, ports OFF, and no entry opens before the next PEER_COMMIT (R352). -/
def Work.warmNet (w : Work) : Work :=
  let gs := sortNat ((blobOf w.blob Obj.groupTable).map (fun p => p.1 % 0x100000000 / 32))
  let w := gs.foldl (fun (w : Work) (g : Nat) => w.breakQuiet g) w
  let w := w.net.sess.foldl (fun (w : Work) (s : Sess) => w.endSess s.n 1 0) w
  let w := (peersListed w.blob).foldl (fun (w : Work) (n : Nat) => if pValid (w.peer n) then w.putPeerSt n 1 0 else w) w
  let w := w.setNet (fun t => { t with msgs := [], posted := [], inbox := [], rejectedAt := [], shut := true, turn := [], degAt := [] })
  forUpto (fun p w => w.put (Obj.linkState p) 0) 8 w

/-- Pairing, the loader, the arena and clock changes hold nothing that was under way. -/
def Work.warmWork (w : Work) : Work :=
  let w := w.setPair (fun p => { p with mirrors := [], wait := [], recv := [], restores := [] })
  let w := { w with life := { w.life with hashes := [], swap := false, addSwap := [] } }
  let w := w.setArena (fun a => { a with grows := [] })
  let w := { w with dict := { w.dict with windows := [] } }
  { w with clk := { w.clk with changes := [], next := [] } }

/-- Hokutia's sessions close, and no notification waits (R512, R514). Log entry 64. -/
def Work.warmRest (w : Work) : Work :=
  let w := w.warmWork
  let w := w.dict.sessions.foldl (fun (w : Work) (s : HokSession) => w.hokClosed s 4) w
  { w with log := { w.log with notifs := [] } }

/-- What is in flight anywhere on the device is gone (R465, R466). Log entry 64. -/
def Work.warmStop (w : Work) : Work := ((((w.warmUnits).warmBuffers).warmQueues).warmNet).warmRest

/-- The start of a device warm reset (R465): BOOT_STATE is WARM_RESET, and time in PROBATION stands still. -/
def Work.warmBegin (w : Work) : Work :=
  let left := w.probLeft
  let w := w.setHealth (fun h => { h with left := left, leftAt := w.time })
  let w := (w.put Obj.bootState 6).raiseDevice
  ((w.warmStop).commitsGone).claimSamples (upto 32)

/-- The first cores of a die that a context reset samples (Table 15.4). -/
def Dev.sampleCores (w : Dev) (x : Nat) : List Nat :=
  let n := w.get Obj.swatchCtxCores
  (w.ctxCores x 0).take n ++ (w.ctxCores x 1).take n

/-- A reset starts: its engine-state record is captured before anything is cleared (R454), resets it contains are absorbed, and its
domain stops. Log entry 21. -/
def Work.resetStart (dom target cause esc : Nat) (dev : Bool) (culprit : Option Nat) (w : Work) : Work :=
  let ctxs := if dom = 3 then [target] else if dom = 4 then w.dieCtxs target else if dom = 5 then upto 16 else []
  let cores := match dom with
    | 2 => [target]
    | 3 => w.sampleCores target
    | 4 => if target < 2 then dieCores target else []
    | 5 => upto 32
    | _ => []
  let dies := if dom = 5 then [0, 1] else if dom = 4 ∧ target < 2 then [target] else []
  let (sw, w) := if dom = 1 then (none, w) else
    let (s, w) := w.newSwatch dom cause target ctxs cores dies
    (some s, w)
  let r : Reset :=
    { dom := dom, target := target, cause := cause, start := w.time, limit := w.resetLimit dom, esc := esc, dev := dev,
      culprit := culprit, swatch := sw, todo := cores, phase := 0, memAt := 0, ctxs := ctxs, ends := [],
      queues := if dom = 3 then w.heldQueues target else [] }
  let inside := w.rst.runs.filter (fun q => r.contains q.dom q.target)
  let w := inside.foldl (fun (w : Work) (q : Reset) => w.absorb dom q) w
  let w := w.pushReset r
  let w := match dom with
    | 1 => w.engineStop target culprit
    | 2 =>
      let bin := w.hangBin target
      let (ends, w) := w.coreDetach target
      let w := w.mapReset 2 target (fun r => { r with ends := ends })
      (w.unreproducedIn target bin [target]).claimSamples [target]
    | 3 => (w.ctxBegin target).claimSamples cores
    | 4 => if target < 2 then w.dieBegin target ctxs dev esc else w.ioBegin
    | _ => w.warmBegin
  w.swatchStep dom target

/-- A reset is asked for (R467, R469): a second trigger of one that runs is dropped, one contained in a reset that runs is absorbed;
IO1 is reset by a device warm reset. -/
def Work.resetAsk (dom target cause esc : Nat) (dev : Bool) (culprit : Option Nat) (w : Work) : Work :=
  let (dom, target) := if dom = 4 ∧ target = 3 then (5, 0) else (dom, target)
  if (w.reset? dom target).isSome then w
  else if w.rst.runs.any (fun r => r.contains dom target) then (w.resetEvent 0x0A06 dom cause target).bump Obj.absorbed 1
  else w.resetStart dom target cause esc dev culprit

/-! ### Watchdogs (R450 to R453) -/

/-- RECOVERY_MODE is DEVICE. -/
def Dev.devMode (w : Dev) : Bool := w.get Obj.recoveryMode == 1

/-- A watchdog fires: WATCHDOG_FIRED, and its reset, or a device warm reset in DEVICE mode. -/
def Work.fire (dom target cause : Nat) (culprit : Option Nat) (w : Work) : Work :=
  let dev := w.devMode
  let (dom, target) := if dev || (dom == 4 && target == 3) then (5, 0) else (dom, target)
  (w.resetEvent 0x0A08 dom cause target).resetAsk dom target cause 0 dev culprit

/-- ENGINE_WDT_FIRE (R450, R451): a command in flight on instance e has taken no internal step for ENG_WDT_US. -/
def opEngineWdtFire (e : Fin 13) (id : Nat) (w : Work) : Work :=
  match w.cmd? id with
  | some c =>
    if w.ready = true ∧ w.cmdInstance c = some e.val ∧ c.done = none ∧ w.instReset e.val = false ∧ w.get Obj.engWdtUs * 1000 ≤ w.since c.start
    then w.fire 1 e.val 1 (some id) else w
  | none => w
def execEngineWdtFire (e : Fin 13) (id : Nat) (s : State) : Host.Outcome State Fault Refusal := s.run (opEngineWdtFire e id)

/-- CORE_WDT_FIRE (R450): core k, not IDLE, FENCED, RESET or in SECTION, reached no boundary within CORE_WDT_US. -/
def opCoreWdtFire (k : Fin 32) (w : Work) : Work :=
  let k := k.val
  if w.ready = true ∧ (w.coreSt k = 1 ∨ w.coreSt k = 2) ∧ w.coreReset k = false ∧ w.get Obj.coreWdtUs * 1000 ≤ w.since (w.core k).since then
    w.fire 2 k 3 none
  else w
def execCoreWdtFire (k : Fin 32) (s : State) : Host.Outcome State Fault Refusal := s.run (opCoreWdtFire k)

/-- Every command in flight of context x waits by design: an EVT_WAIT or a FENCE (R452). -/
def Dev.waitsByDesign (w : Dev) (x : Nat) : Bool :=
  (w.q.cmds.filter (fun c => c.ctx == x)).all (fun c => c.q == 4 && (cOpcode c.raw == 0x02 || cOpcode c.raw == 0x03))

/-- CTX_WDT_FIRE (R450, R452): an ACTIVE context with its watchdog on has made no progress for CTX_WDT_MS. -/
def opCtxWdtFire (x : Fin 16) (w : Work) : Work :=
  let x := x.val
  let last := match w.q.prog.find? (fun p => p.1 == x) with | some p => p.2 | none => 0
  if w.ready = true ∧ w.get (Obj.ctxState x) = 1 ∧ w.get (Obj.ctxWdtEn x) = 1 ∧ w.waitsByDesign x = false
      ∧ w.get Obj.ctxWdtMs * 1000000 ≤ w.since last then w.fire 3 x 4 none
  else w
def execCtxWdtFire (x : Fin 16) (s : State) : Host.Outcome State Fault Refusal := s.run (opCtxWdtFire x)

/-- The die of a controller: near memory of C0 and C1, stacks, packages. -/
def ctlDie (ctl : Nat) : Nat := if ctl < 2 then ctl else if ctl < 14 then (ctl - 2) / 6 else 2 + (ctl - 14) / 4

/-- MEM_WDT_FIRE (R450): a request that a controller accepted has not completed after MEM_WDT_US. -/
def opMemWdtFire (ctl : Fin 22) (w : Work) : Work :=
  let d := ctlDie ctl.val
  if w.ready = true ∧ (w.reset? 4 d).isNone = true then w.fire 4 d 5 none else w
def execMemWdtFire (ctl : Fin 22) (s : State) : Host.Outcome State Fault Refusal := s.run (opMemWdtFire ctl)

/-- FW_WDT_FIRE (R450): firmware has not kicked the sequencer within FW_WDT_MS: a device warm reset, always. -/
def opFwWdtFire (w : Work) : Work :=
  if w.ready then (w.resetEvent 0x0A08 5 6 0).resetAsk 5 0 6 0 w.devMode none else w
def execFwWdtFire (s : State) : Host.Outcome State Fault Refusal := s.run opFwWdtFire

/-! ### Requests (R472, R473) -/

/-- A request through its gate; a value out of range is clamped to no action. -/
def Work.resetReq (wr : Writer) (r : Reach) (num v dom limit : Nat) (w : Work) : Work :=
  w.gated wr r num (fun w => if v < limit then w.resetAsk dom v 8 0 w.devMode none else w.noAction wr num v)

/-- ENGINE_RESET. -/
def opEngineReset (wr : Writer) (v : Nat) (w : Work) : Work := w.resetReq wr .priv Obj.engineReset (v % 256) 1 13
def execEngineReset (wr : Writer) (v : Nat) (s : State) : Host.Outcome State Fault Refusal := s.run (opEngineReset wr v)

/-- CORE_RESET. -/
def opCoreReset (wr : Writer) (v : Nat) (w : Work) : Work := w.resetReq wr .priv Obj.coreReset (v % 256) 2 32
def execCoreReset (wr : Writer) (v : Nat) (s : State) : Host.Outcome State Fault Refusal := s.run (opCoreReset wr v)

/-- CTX_RESET: a write of 1. -/
def opCtxReset (wr : Writer) (x : Fin 16) (w : Work) : Work :=
  w.gated wr (.own x.val) (Obj.ctxReset x.val) (fun w => w.resetAsk 3 x.val 8 0 w.devMode none)
def execCtxReset (wr : Writer) (x : Fin 16) (s : State) : Host.Outcome State Fault Refusal := s.run (opCtxReset wr x)

/-- DIE_RESET. -/
def opDieReset (wr : Writer) (v : Nat) (w : Work) : Work := w.resetReq wr .priv Obj.dieReset (v % 256) 4 4
def execDieReset (wr : Writer) (v : Nat) (s : State) : Host.Outcome State Fault Refusal := s.run (opDieReset wr v)

/-- DEVICE_RESET: a write of 1. -/
def opDeviceReset (wr : Writer) (w : Work) : Work :=
  w.gated wr .priv Obj.deviceReset (fun w => w.resetAsk 5 0 8 0 w.devMode none)
def execDeviceReset (wr : Writer) (s : State) : Host.Outcome State Fault Refusal := s.run (opDeviceReset wr)

/-! ### Escalation (R467, R468) -/

/-- ESCALATED from a reset to a domain; [16] when the step is skipped. Log entry 64. -/
def Work.escalated (r : Reset) (into skip : Nat) (w : Work) : Work :=
  (w.event 0x0A03 (resetCtx r.dom r.target) 0x9000 (resetDetail r.dom r.cause r.target + into * 2 ^ 20 + skip * 2 ^ 16)).bump Obj.escalations 1

/-- A reset escalates to a die, or past IO1 and in DEVICE mode to a device warm reset. -/
def Work.escalateDie (r : Reset) (d : Nat) (w : Work) : Work :=
  let warm := r.dev || d == 3
  (w.escalated r (if warm then 5 else 4) 0).resetAsk (if warm then 5 else 4) (if warm then 0 else d) 7 (r.esc + 1) r.dev none

/-- RESET_LIMIT_EXPIRE (R467): a reset has not completed within its limit. -/
def opResetLimitExpire (dom target : Nat) (w : Work) : Work :=
  match w.reset? dom target with
  | none => w
  | some r =>
    if r.limit = 0 ∨ w.since r.start < r.limit ∨ w.rst.stuck = true ∨ w.rst.runs.any (fun q => q.contains dom target) = true then w else
    match dom with
    | 1 =>
      let cores := (w.ownedSections target).filterMap (fun s => s.core)
      if r.dev then w.escalateDie r 3
      else if cores.isEmpty then (w.escalated r 2 1).escalateDie r (engDie target)
      else
        let w := (w.escalated r 2 0).mapReset 1 target (fun r => { r with limit := 0 })
        cores.foldl (fun (w : Work) (k : Nat) => w.resetAsk 2 k 7 (r.esc + 1) r.dev none) w
    | 2 => w.escalateDie r (coreDie target)
    | 3 => w.escalateDie r (w.get (Obj.homeDie target))
    | 4 => w.escalateDie r 3
    | _ =>
      let w := (w.setRst (fun q => { q with stuck := true })).put Obj.coldReqPending (w.get Obj.coldReqEnable)
      w.event 0x0A07 31 0x9000 0
def execResetLimitExpire (dom target : Nat) (s : State) : Host.Outcome State Fault Refusal := s.run (opResetLimitExpire dom target)

/-- A swatch section on core k has run for 16 µs: it is a section past twice its bound (R136), and its sample is given up (R455). -/
def Work.sampleLate (s : Section) (k : Nat) (w : Work) : Work :=
  ((w.bump Obj.sectionOverrunCount 1).log1 0x0314 31 (0x3000 + s.die) k s.bound).sampleLost k

/-- SWATCH_SAMPLE_TIMEOUT (R455). -/
def opSwatchSampleTimeout (k : Fin 32) (w : Work) : Work :=
  match w.sectionOn k.val with
  | some s => if s.kind = 2 ∧ 16000 ≤ w.since s.start then w.sampleLate s k.val else w
  | none => w
def execSwatchSampleTimeout (k : Fin 32) (s : State) : Host.Outcome State Fault Refusal := s.run (opSwatchSampleTimeout k)

/-! ### The memory phase (R293, R294) -/

/-- The reset in whose memory phase a die lies. -/
def Dev.memReset (w : Dev) (d phase : Nat) : Option Reset :=
  w.rst.runs.find? (fun r => (r.dom == 5 || (r.dom == 4 && r.target == d)) && r.phase == phase)

/-- COUCH_DRAIN_TIMEOUT (R294): 100 µs into the memory phase a controller discards what its couching buffer still holds; `parts` of its
die did not enter self-refresh in time. -/
def opCouchDrainTimeout (ctl : Fin 22) (parts : List Nat) (w : Work) : Work :=
  let d := ctlDie ctl.val
  match w.memReset d 1 with
  | some r =>
    if w.since r.memAt < 100000 then w else
    (parts.filter (fun p => (halfParts d).contains p)).foldl (fun (w : Work) (p : Nat) => w.refreshLost p) (w.couchLost ctl.val)
  | none => w
def execCouchDrainTimeout (ctl : Fin 22) (parts : List Nat) (s : State) : Host.Outcome State Fault Refusal :=
  s.run (opCouchDrainTimeout ctl parts)

/-- MEM_TRAINING_DONE (R293): half h is trained in the memory phase of a die reset, or of a device warm reset once its firmware is
verified. -/
def opMemTrainingDone (h : Fin 4) (slow dead : List Nat) (lanes : List (Nat × Nat × Nat)) (w : Work) : Work :=
  let h := h.val
  let run := match w.memReset h 1 with
    | some r => if r.dom = 4 then some r else w.memReset h 2
    | none => w.memReset h 2
  match run with
  | some r =>
    if w.halfTraining h = false then w else
    let w := w.trainDone h slow dead lanes
    let all := if r.dom = 4 then true else (upto 4).all (fun i => !w.halfTraining i)
    if all then w.mapReset r.dom r.target (fun r => { r with phase := 3 }) else w
  | none => w
def execMemTrainingDone (h : Fin 4) (slow dead : List Nat) (lanes : List (Nat × Nat × Nat)) (s : State) :
    Host.Outcome State Fault Refusal := s.run (opMemTrainingDone h slow dead lanes)

/-! ### The end of a reset -/

/-- Listed bytes of a range of memory become 0. -/
def Work.zeroRange (lo hi : Nat) (w : Work) : Work :=
  (w.memNow.filter (fun p => decide (lo ≤ p.1) && decide (p.1 ≤ hi))).foldl (fun (w : Work) (p : Nat × Byte) => w.write p.1 [0#8]) w

/-- A compute die's scratchpads and staging buffer are zero, and no block carries a tag (R464 step 4). -/
def Work.zeroDie (d : Nat) (w : Work) : Work :=
  let w := (dieCores d).foldl (fun (w : Work) (k : Nat) => w.zeroRange (scratchRegion k).first (scratchRegion k).last) w
  let base := 0x021000000000 + d * 0x04000000
  (w.zeroRange base (base + 0x3FFFFFF)).clearTags (fun b _ => coreDie (b / 65536) == d)

/-- The Hoop records of die d are read back; a slot whose record did not survive loses its history and starts in PROBE (R464 step 5,
Table 07.5). -/
def Work.hoopBack (d : Nat) (bad : List (Nat × Nat)) (w : Work) : Work :=
  (bad.filter (fun p => decide (p.1 < 16) && decide (p.2 < 1024) && w.get (Obj.homeDie p.1) == d)).foldl (fun (w : Work) (p : Nat × Nat) =>
    (w.hoopPut p.1 p.2 (hFresh (w.hoopRec p.1 p.2) 1)).historyLost p.1 p.2) w

/-- LAST_RESET: domain, cause, target, start time, duration, escalations (Table 15.15; the layout is the model's, log entry 67). -/
def Work.lastReset (r : Reset) (w : Work) : Work :=
  w.blobPut .active Obj.lastReset 0 (r.dom + r.cause * 2 ^ 32 + r.target * 2 ^ 64 + r.start % 2 ^ 64 * 2 ^ 96
    + w.since r.start % 2 ^ 64 * 2 ^ 160 + r.esc % 2 ^ 32 * 2 ^ 224) 32

/-- Ports that are enabled leave OFF for DOWN, and train from there. -/
def Work.portsBack (ps : List Nat) (w : Work) : Work :=
  ps.foldl (fun (w : Work) (p : Nat) => if w.get (Obj.portEn p) = 1 then w.put (Obj.linkState p) 1 else w) w

/-- The reset's own part is done: its state takes the values of Table 15.10. -/
def Work.resetEffect (r : Reset) (bad : List (Nat × Nat)) (w : Work) : Work :=
  match r.dom with
  | 1 => w.engineFinish r.target
  | 2 => ((w.coreFinish r.target r.ends).dropReset 2 r.target).coreBack r.target
  | 3 => (w.ctxFinish r.target r.queues).put (Obj.ctxResetLastNs r.target) (min (w.since r.start) (maxU 32))
  | 4 =>
    if r.target < 2 then
      let w := ((w.zeroDie r.target).hoopBack r.target bad).dropReset 4 r.target
      (dieCores r.target).foldl (fun (w : Work) (k : Nat) => w.coreBack k) w
    else w.portsBack [0, 1, 2, 3]
  | _ =>
    let w := (((w.zeroDie 0).zeroDie 1).hoopBack 0 bad).hoopBack 1 bad
    let w := w.dropReset 5 0
    let w := (upto 32).foldl (fun (w : Work) (k : Nat) => w.coreBack k) w
    let w := ((w.put (Obj.ctxState 0) 1).ctxProgress 0).portsBack (upto 8)
    let w := w.setHealth (fun h => { h with leftAt := w.time })
    (w.put Obj.bootState 5).raiseDevice

/-- The work of a reset is over and it may end. -/
def Dev.resetOver (w : Dev) (r : Reset) : Bool :=
  r.swatch.isNone &&
  (match r.dom with
   | 1 => !w.coreHolds r.target
   | 2 => true
   | 3 => w.ctxStill r.target
   | 4 => r.phase == 3
   | _ => r.phase == 3 && !w.rst.stuck)

/-- RESET_DONE (R466): a reset completes. `bad` are the Hoop records (context, slot) that the swatch did not bring back; `flushed` the
words that the selvedge queues of Table 16.3 discarded (R483). -/
def opResetDone (dom target : Nat) (bad : List (Nat × Nat)) (flushed : Nat) (w : Work) : Work :=
  match w.reset? dom target with
  | none => w
  | some r =>
    if w.resetOver r = false then w else
    let w := w.resetEffect r bad
    let w := if dom = 1 ∨ dom = 3 then w else w.bump Obj.xqFlushed flushed
    let w := (w.dropReset dom target).lastReset r
    (w.resetEvent 0x0A02 r.dom r.cause r.target).rotation
def execResetDone (dom target : Nat) (bad : List (Nat × Nat)) (flushed : Nat) (s : State) : Host.Outcome State Fault Refusal :=
  s.run (opResetDone dom target bad flushed)

end Sys2Proof.Machine
end

