-- ==== Sys2Proof/Machine/HostPort.lean ====
section
/-!
DEFINITION. Sys2Proof/Machine/HostPort.lean: resets of the PCIe port and its functions, and changes of the link (R529, R530).
-/
namespace Sys2Proof.Machine

/-- A function's MSI-X and Bus Master Enable are off, and its copy of LOG_READ_SEQ reads 0 (R518, R530). Log entry 35. -/
def Work.fnReset (c : Nat) (w : Work) : Work :=
  let w := { w with pcie := ⟨w.pcie.busMaster.filter (fun f => f != c), w.pcie.msix.filter (fun f => f != c)⟩ }
  { w with log := { w.log with readSeq := Store.erase c w.log.readSeq } }

/-- A context reset of context c that an FLR asks for (log entry 73), then, for the contexts a DISABLE may name, a DISABLE of it (R79). -/
def Work.flrContext (c : Nat) (w : Work) : Work :=
  let w := w.resetAsk 3 c 8 0 w.devMode none
  if c = 0 ∨ w.q.disabling.contains c = true ∨ (w.reset? 5 0).isSome = true then w else w.disable c

/-- The effects on contexts that the FLR of the physical function has. Outside READY no context runs, and during a device warm reset
they are absorbed (R469). Log entry 73. -/
def Work.flrAll (w : Work) : Work :=
  if w.ready then forUpto (fun c w => w.flrContext c) 16 w else w

/-- FLR_VF: an FLR of virtual function c. Log entry 35. -/
def opFlrVf (c : Fin 16) (w : Work) : Work :=
  let c := c.val
  if c = 0 ∨ w.fnEnabled c = false ∨ w.boot.held = true then w else
  let w := (w.bump Obj.flrCount 1).fnReset c
  if w.ready then w.flrContext c else w
def execFlrVf (c : Fin 16) (s : State) : Host.Outcome State Fault Refusal := s.run (opFlrVf c)

/-- Every virtual function is gone with VF Enable, and function 0's configuration is at its defaults. -/
def Work.allFnReset (w : Work) : Work := (forUpto (fun c w => w.fnReset c) 16 w).put Obj.numVfs 0

/-- FLR_PF: an FLR of the physical function. Log entry 35. -/
def opFlrPf (w : Work) : Work :=
  if w.boot.held then w else (((w.bump Obj.flrCount 1).allFnReset).flrAll)
def execFlrPf (s : State) : Host.Outcome State Fault Refusal := s.run opFlrPf

/-- PCIE_PERST: PCIE_PERST_N, a hot reset or link down. The BAR2 windows lie in the PCIe partition. Log entry 35. -/
def opPciePerst (w : Work) : Work :=
  if w.boot.held then w else
  let w := w.setDict (fun d => { d with windows := [] })
  (w.allFnReset).flrAll
def execPciePerst (s : State) : Host.Outcome State Fault Refusal := s.run opPciePerst

/-- What the host has configured; RECOVERY holds VF Enable at 0. Log entry 7. -/
def Work.hostConfig (cfg : HostCfg) (w : Work) : Work :=
  let n := if w.get Obj.bootState = 7 then 0 else cfg.numVfs.val
  let w := { w with pcie := ⟨cfg.busMaster.map (fun (f : Fin 16) => f.val), cfg.msix.map (fun (f : Fin 16) => f.val)⟩ }
  w.put Obj.numVfs n

/-- The PCIe port is up: configuration requests complete (Table 18.5). -/
def Dev.pcieUp (w : Dev) : Bool :=
  let b := w.get Obj.bootState
  !w.boot.held && !w.boot.vsbLost && !w.boot.testMode && decide (3 ≤ b) && b != 8

/-- HOST_LINK_CHANGED: the link's rate and width, and what the host has configured meanwhile (log entry 7); logged when either
changes. Log entry 35. -/
def opHostLinkChanged (rate : Fin 7) (width : Fin 17) (cfg : HostCfg) (w : Work) : Work :=
  if w.pcieUp = false then w else
  let same := w.get Obj.hostLinkRate == rate.val && w.get Obj.hostLinkWidth == width.val
  let w := (w.put Obj.hostLinkRate rate.val).put Obj.hostLinkWidth width.val
  let w := w.hostConfig cfg
  if same then w else w.event 0x0D05 31 0 (rate.val * 256 + width.val)
def execHostLinkChanged (rate : Fin 7) (width : Fin 17) (cfg : HostCfg) (s : State) : Host.Outcome State Fault Refusal :=
  s.run (opHostLinkChanged rate width cfg)

end Sys2Proof.Machine
end

