-- ==== Sys2Proof/Machine/Boot.lean ====
section
/-!
DEFINITION. Sys2Proof/Machine/Boot.lean: cold reset and the start-up states (R338, R492, R493, R532 to R537, R551).
-/
namespace Sys2Proof.Machine

/-! ### Cold reset (R551) -/

/-- Every byte the module's own memories hold is lost; host memory is not the module's (R20). Log entries 2, 37. -/
def Work.memLost (w : Work) : Work := w.zeroRange 0 (2 ^ 47 - 1)

/-- Byte i of bin j of a stored CORE_BINS: a count and the confirmed flag (Table 14.16). Log entry 37. -/
def storedBin (m : List (Nat × Nat)) (k j : Nat) : Nat :=
  leNat ((upto 4).map (fun i => BitVec.ofNat 8 (Store.get blobDefault m (blobKey (Obj.coreBins k) (4 * j + i)))))

/-- The records of a store's CORE_BINS: how often each bin was UNREPRODUCED, and the bins that are confirmed (R440). Log entry 37. -/
def storedHealth (m : List (Nat × Nat)) : List (Nat × Nat × Nat) × List (Nat × Nat) :=
  let bins := (upto 32).flatMap (fun k => (upto 48).map (fun j => (k, j, storedBin m k j)))
  (bins.flatMap (fun b => List.replicate (b.2.2 % 2 ^ 16) (b.1, b.2.1, 0)),
   (bins.filter (fun b => bitOf b.2.2 16)).map (fun b => (b.1, b.2.1)))

/-- Objects that lie outside what cold reset resets: FW_BOOT_BANK in the flash, the state and the wear of the store. Log entry 37. -/
def coldKept : List Nat := [Obj.fwBootBank, Obj.storeState, Obj.storeWrites]

/-- The state at cold reset, the main rails off: every object at its default, or at its stored value (R6, R492, R499). The fuses, the
flash, the configuration store and TRIP_LAST keep what they hold. A store that has FAILED keeps no values; one marked for erasure is
erased (R493). Log entry 37. -/
def Work.coldState (w : Work) : Work :=
  let w := w.memLost
  let gone := w.dict.erase || w.get Obj.storeState == 2
  let so := if gone then [] else w.dict.storeObj
  let sb := if gone then [] else w.dict.storeBlob
  let obj := coldKept.foldl (fun m n => Store.set objDefault m n (w.get n)) so
  let trip := blobOf w.blob Obj.tripLast
  let blob := sb ++ trip
  let boot : BootState := { BootState.reset with
    vinOut := w.boot.vinOut, vsbLost := w.boot.vsbLost, flash := w.boot.flash, erased := w.boot.erased, burned := w.boot.burned }
  let bins := storedHealth sb
  let left := Store.get objDefault so Obj.probationLeftS
  let health : HealthState := { HealthState.reset with unrep := bins.1, conf := bins.2, left := left * 1000000000 }
  let rwc := so.filter (fun p => isRwc p.1)
  let rwcB := sb.filter (fun p => isRwc (p.1 / 0x100000000))
  let dict : DictState := { DictState.reset with storeObj := so, storeBlob := sb, storeInc := w.dict.storeInc }
  let d : Dev := { Dev.reset with obj := obj, objS := rwc, objP := rwc, blob := blob, blobS := rwcB, blobP := rwcB, sent := w.sent,
                                  nextId := w.nextId, free := w.free, dict := dict, health := health, boot := boot }
  { toDev := d, mem := w.mem, out := w.out }

/-- COLD_RST_ASSERT (R551): COLD_RST_N has been low for 10 ms. Log entry 37. -/
def opColdRstAssert (w : Work) : Work := (w.coldState).setBoot (fun b => { b with held := true })
def execColdRstAssert (s : State) : Host.Outcome State Fault Refusal := s.run opColdRstAssert

/-- What the main dies were doing when their rails went off is gone, and the memories' bytes with it. Log entry 37. -/
def Work.railsOff (w : Work) : Work :=
  if w.boot.rails = false then w else
  let w := ((((w.warmUnits).warmBuffers).warmQueues).warmNet).warmWork
  let w := (w.setRst (fun q => { q with runs := [], ring := [] })).memLost
  let w := { w with log := { w.log with recs := [] } }
  w.setBoot (fun b => { b with rails := false })

/-! ### Start-up (R532) -/

/-- A new INCARNATION (R338): drawn until it is neither 0 nor the value last written to the store; it is written there. Log entries 25, 38. -/
def Work.drawIncarnation (w : Work) : Work :=
  let (e, w) := w.entropyDraw
  let failed := w.get Obj.storeState == 2
  let old := w.dict.storeInc
  let v := if failed ∨ old = 0 then 1 + e % (2 ^ 32 - 1) else
    let c := 1 + e % (2 ^ 32 - 2)
    if c < old then c else c + 1
  let w := w.put Obj.incarnation v
  if failed then w else (w.setDict (fun d => { d with storeInc := v })).bump Obj.storeWrites 1

/-- COLD_RESET_RELEASE: the boot ROM runs. With TEST_MODE it raises the rails and loads nothing (R563); otherwise the entropy
start-up test and the fuses decide between FW_VERIFY and FAILED. A restart from RECOVERY enters here too (R537). Log entries 10, 38. -/
def opColdResetRelease (testMode entropyOk fusesOk : Bool) (w : Work) : Work :=
  if w.boot.vsbLost || !(w.boot.held || w.boot.restart) then w else
  let tm := w.boot.held && testMode
  let w := w.setBoot (fun b => { b with held := false, restart := false, testMode := tm })
  if tm then w.setBoot (fun b => { b with rails := true })
  else if !entropyOk then (w.put Obj.bootFail 2).phase 8
  else if !fusesOk then (w.put Obj.bootFail 3).phase 8
  else (w.drawIncarnation).phase 1
def execColdResetRelease (testMode entropyOk fusesOk : Bool) (s : State) : Host.Outcome State Fault Refusal :=
  s.run (opColdResetRelease testMode entropyOk fusesOk)

/-- Both banks fail verification: RECOVERY, with the main dies unpowered and the physical function alone. -/
def Work.enterRecovery (w : Work) : Work :=
  let w := (w.railsOff).put Obj.numVfs 0
  let w := { w with pcie := ⟨w.pcie.busMaster.filter (fun f => f == 0), w.pcie.msix.filter (fun f => f == 0)⟩ }
  (w.put Obj.bootFail 1).phase 7

/-- INCARNATION at a device warm reset: one more, skipping 0, and written to the store (R338). Log entries 25, 62. -/
def Work.nextIncarnation (w : Work) : Work :=
  let i := (w.get Obj.incarnation + 1) % 2 ^ 32
  let v := if i = 0 then 1 else i
  let w := w.put Obj.incarnation v
  if w.get Obj.storeState = 2 then w else (w.setDict (fun d => { d with storeInc := v })).bump Obj.storeWrites 1

/-- FW_VERIFY_DONE (R534): at start-up, or in the firmware step of a device warm reset once its swatches are written. The flash
fails to return the banks `bad`. A device warm reset is where a pending image runs, so nothing is staged after it (log entry 74). Log entry 10. -/
def opFwVerifyDone (bad : List Nat) (w : Work) : Work :=
  if w.boot.held = true then w
  else if w.get Obj.bootState = 1 then
    match w.verifyBoot bad with
    | (true, w) => w.phase 2
    | (false, w) => w.enterRecovery
  else match w.reset? 5 0 with
    | some r =>
      if r.phase = 1 ∧ r.swatch.isNone = true ∧ w.rst.stuck = false then
        match w.verifyBoot bad with
        | (true, w) =>
          let w := if w.get Obj.fwStageState = 3 then w.put Obj.fwStageState 0 else w
          (w.nextIncarnation).mapReset 5 0 (fun r => { r with phase := 2 })
        | (false, w) => w.enterRecovery
      else w
    | none => w
def execFwVerifyDone (bad : List Nat) (s : State) : Host.Outcome State Fault Refusal := s.run (opFwVerifyDone bad)

/-- DIE_POWER_DONE: main rails, dies and PLLs are up, and the PCIe link has trained; memory training starts. Log entry 10. -/
def opDiePowerDone (rate : Fin 7) (width : Fin 17) (w : Work) : Work :=
  if w.boot.held = true ∨ w.get Obj.bootState ≠ 2 then w else
  let w := w.setBoot (fun b => { b with rails := true })
  let w := (w.put Obj.hostLinkRate rate.val).put Obj.hostLinkWidth width.val
  (forUpto (fun h w => w.trainHalf h) 4 w).phase 3
def execDiePowerDone (rate : Fin 7) (width : Fin 17) (s : State) : Host.Outcome State Fault Refusal := s.run (opDiePowerDone rate width)

/-- MEM_TRAIN_DONE: the tiers are trained, the array test included; self-test starts. Log entry 10. -/
def opMemTrainDone (slow dead : List Nat) (lanes : List (Nat × Nat × Nat)) (w : Work) : Work :=
  if w.boot.held = true ∨ w.boot.rails = false ∨ w.get Obj.bootState ≠ 3 then w else
  (forUpto (fun h w => w.trainDone h slow dead lanes) 4 w).phase 4
def execMemTrainDone (slow dead : List Nat) (lanes : List (Nat × Nat × Nat)) (s : State) : Host.Outcome State Fault Refusal :=
  s.run (opMemTrainDone slow dead lanes)

/-- A tile of the known-answer suite of SELF_TEST: a core that fails is confirmed (R440, R532). -/
def Work.selfTest (k v bin : Nat) (w : Work) : Work :=
  match v with
  | 0 => w.pass [k]
  | 1 => w.void
  | _ => w.confirmedIn k (bin % 48) [k]

/-- DEVICE_READY: scratchpads and staging buffers are clear, the known-answer suite has run with the results `res` (as KAT_PERIOD's),
the host has configured the functions; context 0 is ACTIVE with its queues STOPPED. Log entry 10. -/
def opDeviceReady (res : List (Fin 32 × Nat × Nat)) (cfg : HostCfg) (w : Work) : Work :=
  if w.boot.held = true ∨ w.boot.rails = false ∨ w.get Obj.bootState ≠ 4 then w else
  let w := ((w.zeroDie 0).zeroDie 1).fencesNow
  let w := res.foldl (fun (w : Work) (r : Fin 32 × Nat × Nat) =>
    if w.fencedCore r.1.val then w else w.selfTest r.1.val r.2.1 r.2.2) w
  let w := w.setHealth (fun h => { h with katAt := w.time, leftAt := w.time, winAt := w.time })
  let w := (w.put (Obj.ctxState 0) 1).ctxProgress 0
  let w := (w.hostConfig cfg).event 0x0D01 31 0 (w.get Obj.incarnation)
  w.phase 5
def execDeviceReady (res : List (Fin 32 × Nat × Nat)) (cfg : HostCfg) (s : State) : Host.Outcome State Fault Refusal :=
  s.run (opDeviceReady res cfg)

/-- FW_STAGE_VERIFY_DONE (R537): the staged image verifies, and FW_BOOT_BANK names its bank, or it does not; `bad` when the flash
fails to return it. In RECOVERY an image that is PENDING restarts the device. Log entry 60. -/
def opFwStageVerifyDone (bad : Bool) (w : Work) : Work :=
  if w.get Obj.fwStageState ≠ 2 then w else
  let b := w.stageBank
  let why := if bad then 6 else w.imageCheck b
  if why ≠ 0 then (w.put Obj.fwStageState 4).put Obj.fwStageReason why
  else
    let w := (w.put Obj.fwStageState 3).put Obj.fwBootBank b
    let w := w.event 0x0D03 31 0 (ihVersion (w.imageHdr b))
    if w.get Obj.bootState = 7 then (w.coldState).setBoot (fun s => { s with restart := true }) else w
def execFwStageVerifyDone (bad : Bool) (s : State) : Host.Outcome State Fault Refusal := s.run (opFwStageVerifyDone bad)

end Sys2Proof.Machine
end

