-- ==== Sys2Proof/Machine/ObjWrite.lean ====
section
/-!
DEFINITION. Sys2Proof/Machine/ObjWrite.lean: writes through the object engine (R494, R496 to R498, R569): the checks in their order,
the clamps of the owning chapters, and the objects whose write is a command of its own.
-/
namespace Sys2Proof.Machine

/-! ### Reach of an object -/

/-- The context that an object's number carries, if its table has one (R494). -/
def objCtx (n : Nat) : Option (Fin 16) :=
  let area := n / 0x100000
  let blk := n / 0x1000 % 256
  if (decide (2 ≤ area) && decide (area ≤ 10) || area == 13) && (blk / 16 == 2 || (area == 4 && blk / 16 == 3)) then
    some (Fin.ofNat 16 blk)
  else none

/-- Objects of context x that an owning chapter reserves to privileged contexts (R31, R295, R334, R424). -/
def privObjs (x : Nat) : List Nat :=
  [Obj.segTable x, Obj.segCommit x, Obj.spillReq x, Obj.fillReq x, Obj.fillBase x, Obj.ownJob x, Obj.ownRank x, Obj.mirCommit x]
  ++ mirGroup x

/-- Objects without a context that an owning chapter opens to privileged contexts (R242, R295, R334, R361, R398, R472). -/
def privOpen (n : Nat) : Bool :=
  [Obj.spillPoolBase, Obj.spillPoolLen, Obj.spillPoolCommit, Obj.peerTable, Obj.peerCommit, Obj.udpPort, Obj.groupTable, Obj.memberPool,
   Obj.groupCommit, Obj.loadCommit, Obj.engineReset, Obj.coreReset, Obj.dieReset, Obj.deviceReset].contains n
  || decide (Obj.loadManifest ≤ n) && decide (n ≤ Obj.copyAddrP 3)
  || decide (Obj.pbOwner 0 ≤ n) && decide (n ≤ Obj.pbCommit 63)

/-- Who may write an object (R494). -/
def objReach (n : Nat) : Reach :=
  if n = Obj.logReadSeq then .any
  else match objCtx n with
    | some x => if n = Obj.priv x.val then .host else if (privObjs x.val).contains n then .privCtx x.val else .own x.val
    | none => if privOpen n then .priv else .host

/-! ### Clamps of one scalar (R496 steps 2 and 3) -/

/-- Frequencies of the DVFS group are clamped at its commit (R489). -/
def isFreq (n : Nat) : Bool :=
  n == Obj.lcFloorMhz || (upto 2).any (fun d => [Obj.freqMinMhz d, Obj.freqMaxMhz d, Obj.freqFixedMhz d].contains n)

/-- The lowest enabled port, which PTP_PORT takes when it names an absent or disabled one (R359). -/
def Dev.ptpPortHeld (w : Dev) (v : Nat) : Nat :=
  let on := fun (p : Nat) => w.get (Obj.portEn p) == 1 && w.portPresent p
  if on v then v else ((upto 8).find? on).getD v

/-- The value held of a value written, its reserved bits already dropped. Log entry 59. -/
def Dev.heldValue (w : Dev) (r : ObjRow) (n v : Nat) : Nat :=
  let a := v / r.mult * r.mult
  let c := if r.hi = 0 then a else max r.lo (min r.hi a)
  if isFreq n then v
  else if Obj.pbOwner 0 ≤ n ∧ n ≤ Obj.pbOwner 63 ∧ n % 4096 = 0 then (if 15 < v then 0xFF else v)
  else if (upto 16).any (fun x => (upto 4).any (fun k => Obj.packFmt x k == n)) then (if v = 2 ∨ v = 3 then v else 2)
  else if n = Obj.ptpPort then w.ptpPortHeld c
  else if n = Obj.shadowMaxPermil then max c (w.get Obj.shadowMinPermil)
  else c

/-- A write to ADD_BASE or ADD_LEN of the selected region, or of one whose hold is not 0, takes no action (R414). -/
def Dev.addHeld (w : Dev) (x n : Nat) : Bool :=
  let a := n == Obj.addBaseA x || n == Obj.addLenA x
  let b := n == Obj.addBaseB x || n == Obj.addLenB x
  (a && (w.get (Obj.addSel x) == 0 || w.get (Obj.addHoldA x) != 0)) || (b && (w.get (Obj.addSel x) == 1 || w.get (Obj.addHoldB x) != 0))

/-- Rules that involve several objects, at the write (R355, R447). -/
def Work.afterWrite (wr : Writer) (n : Nat) (w : Work) : Work :=
  if n = Obj.shadowMinPermil then
    let lo := w.get n
    let hi := w.get Obj.shadowMaxPermil
    if hi < lo then (w.clampTo wr Obj.shadowMaxPermil hi lo).put Obj.shadowMaxPermil lo else w
  else if n = Obj.ptpEn ∧ w.get n = 0 then w.ptpOff
  else w

/-- A scalar takes a value: its clamps, then the staged copy of an RWC object or the value in force. -/
def Work.setScalar (wr : Writer) (r : ObjRow) (n v : Nat) (w : Work) : Work :=
  let v := if r.keep = 0 then v else v &&& r.keep
  if (match objCtx n with | some x => w.addHeld x.val n | none => false) then w.noAction wr n v
  else
    let held := w.heldValue r n v
    let w := w.clampTo wr n v held
    if r.acc = 2 then w.putS n held
    else
      let w := w.put n held
      let w := if r.pers then w.persist n else w
      w.afterWrite wr n

/-! ### Objects of a context whose write is a command -/

/-- A write of 1 is the command; of any other value, no action (R498). -/
def Work.one (wr : Writer) (n v : Nat) (f : Work → Work) (w : Work) : Work := if v = 1 then f w else w.noAction wr n v

/-- A code of an ENUM: 0 is no action, one past the last clamps to the last (R496). -/
def Work.coded (wr : Writer) (n v last : Nat) (f : Nat → Work → Work) (w : Work) : Work :=
  if v = 0 then w.noAction wr n v else f (min v last) (w.clampTo wr n v (min v last))

/-- CTX_CTRL. -/
def Work.ctxCode (wr : Writer) (x : Fin 16) (c : Nat) (w : Work) : Work :=
  match c with
  | 1 => opCtxEnable wr x w
  | 2 => opCtxDisable wr x w
  | _ => opCtxResume wr x w

/-- Q_CTRL. -/
def Work.qCode (wr : Writer) (x : Fin 16) (q : Fin 5) (c : Nat) (w : Work) : Work :=
  match c with
  | 1 => opQStart wr x q w
  | 2 => opQStop wr x q w
  | 3 => opQResume wr x q w
  | _ => opQFlush wr x q w

/-- HOOP_COMMIT (R205). -/
def Work.hoopReq (wr : Writer) (x : Nat) (w : Work) : Work :=
  if w.get (Obj.hoopCommit x) = 1 then w.noAction wr (Obj.hoopCommit x) 1 else w.hoopCommit x

/-- HOOP_FORGET (R222, R227). -/
def Work.hoopForget (wr : Writer) (x v : Nat) (w : Work) : Work :=
  if v < 1024 ∨ v = 0xFFFF then { w with hoop := { w.hoop with forget := w.hoop.forget.filter (fun p => p != (x, v)) ++ [(x, v)] } }
  else w.noAction wr (Obj.hoopForget x) v

/-- WIDE_LOG_COMMIT (R213): at the next step boundary, or at once while the context is OFF. -/
def Work.wideReq (wr : Writer) (x : Nat) (w : Work) : Work :=
  let w := w.commitReq wr (Obj.wideLogCommit x) [Obj.wideLogBase x, Obj.wideLogLog2 x] []
  if w.get (Obj.ctxState x) = 0 then w.wideApply x else w

/-- Objects of context x with an index: Q_COMMIT, Q_CTRL, STREAM_REARM, PACK_COMMIT, MIN_MBPS, CAP_MBPS. -/
def Work.ctxIndexed (wr : Writer) (x : Fin 16) (n v : Nat) : Option (Work → Work) :=
  let c := x.val
  match (List.finRange 5).find? (fun q => Obj.qCommit c q.val == n) with
  | some q => some (Work.one wr n v (opQCommit wr x q))
  | none =>
  match (List.finRange 5).find? (fun q => Obj.qCtrl c q.val == n) with
  | some q => some (Work.coded wr n v 4 (Work.qCode wr x q))
  | none =>
  match (List.finRange 8).find? (fun s => Obj.streamRearm c s.val == n) with
  | some s => some (Work.one wr n v (opStreamRearm wr x s))
  | none =>
  match (List.finRange 4).find? (fun r => Obj.packCommit c r.val == n) with
  | some r => some (Work.one wr n v (opPackCommit wr x r))
  | none =>
  match (upto 3).find? (fun t => Obj.minMbps c t == n) with
  | some t => some (Work.writeMin wr c t v)
  | none =>
  match (upto 3).find? (fun t => Obj.capMbps c t == n) with
  | some t => some (Work.writeCap wr c t v)
  | none => none

/-- The command that a scalar write to an object of context x is, if it is one. -/
def Work.ctxAction (wr : Writer) (x : Fin 16) (n v : Nat) : Option (Work → Work) :=
  let c := x.val
  if n = Obj.ctxCtrl c then some (Work.coded wr n v 3 (Work.ctxCode wr x))
  else if n = Obj.ctxCommit c then some (Work.one wr n v (opCtxCommit wr x))
  else if n = Obj.priv c then some (opPrivWrite wr x v)
  else if n = Obj.segCommit c then some (Work.one wr n v (opSegCommit wr x))
  else if n = Obj.spillReq c then some (opSpillReq wr x v)
  else if n = Obj.fillReq c then some (opFillReq wr x v)
  else if n = Obj.bindCommit c then some (Work.one wr n v (opBindCommit wr x))
  else if n = Obj.addSwap c then some (Work.one wr n v (opAddSwap wr x))
  else if n = Obj.seqJoin c then some (opSeqJoin wr x v)
  else if n = Obj.seqLeave c then some (opSeqLeave wr x v)
  else if n = Obj.seqGrow c then some (opSeqGrow wr x v)
  else if n = Obj.mirCommit c then some (Work.one wr n v (opMirCommit wr x))
  else if n = Obj.restoreReq c then some (opRestoreReq wr x v)
  else if n = Obj.ctxReset c then some (Work.one wr n v (opCtxReset wr x))
  else if n = Obj.attestReq c then some (Work.one wr n v (opAttestReq wr x))
  else if n = Obj.hoopCommit c then some (Work.one wr n v (Work.hoopReq wr c))
  else if n = Obj.hoopForget c then some (Work.hoopForget wr c v)
  else if n = Obj.wideLogCommit c then some (Work.one wr n v (Work.wideReq wr c))
  else Work.ctxIndexed wr x n v

/-! ### Objects without a context whose write is a command -/

/-- Objects with a slot, buffer or die index. -/
def Work.devIndexed (wr : Writer) (n v : Nat) : Option (Work → Work) :=
  match (List.finRange 3).find? (fun s => Obj.slotCommit s.val == n) with
  | some s => some (Work.one wr n v (opSlotCommit wr s))
  | none =>
  match (List.finRange 3).find? (fun s => Obj.slotFlush s.val == n) with
  | some s => some (Work.one wr n v (opSlotFlush wr s))
  | none =>
  match (List.finRange 64).find? (fun b => Obj.pbCommit b.val == n) with
  | some b => some (Work.one wr n v (opPbCommit wr b))
  | none => none

/-- The command that a scalar write to an object without a context is, if it is one; the commits of area 1 are made pending here and
apply once the answer has left (R521). -/
def Work.devAction (wr : Writer) (n v : Nat) : Option (Work → Work) :=
  if n = Obj.fenceSw then some (opFenceSw wr v)
  else if n = Obj.nearAgentMin then some (Work.nearAgentMin wr v)
  else if n = Obj.spillPoolCommit then some (Work.one wr n v (opSpillPoolCommit wr))
  else if n = Obj.portsCommitIo0 then some (Work.one wr n v (opPortsCommit wr 0))
  else if n = Obj.portsCommitIo1 then some (Work.one wr n v (opPortsCommit wr 1))
  else if n = Obj.peerCommit then some (Work.one wr n v (opPeerCommit wr))
  else if n = Obj.groupCommit then some (Work.one wr n v (opGroupCommit wr))
  else if n = Obj.activate then some (opActivate wr v)
  else if n = Obj.swap then some (Work.one wr n v (opSwap wr))
  else if n = Obj.loadCommit then some (Work.one wr n v (opLoadCommit wr))
  else if n = Obj.arenaCommit then some (Work.one wr n v (opArenaCommit wr))
  else if n = Obj.healthClear then some (opHealthClear wr v)
  else if n = Obj.fenceFwClear then some (opFenceFwClear wr v)
  else if n = Obj.mirDevCommit then some (Work.one wr n v (opMirDevCommit wr))
  else if n = Obj.mirFree then some (opMirFree wr v)
  else if n = Obj.engineReset then some (opEngineReset wr v)
  else if n = Obj.coreReset then some (opCoreReset wr v)
  else if n = Obj.dieReset then some (opDieReset wr v)
  else if n = Obj.deviceReset then some (Work.one wr n v (opDeviceReset wr))
  else if n = Obj.dvfsCommit then some (Work.one wr n v (opDvfsCommit wr))
  else if n = Obj.storeErase then some (opStoreErase wr v 0)
  else if n = Obj.mgmtCommit then some (Work.one wr n v (Work.mgmtReq wr))
  else if n = Obj.hokCommit then some (Work.one wr n v (Work.hokReq wr))
  else if n = Obj.notifyCommit then some (Work.one wr n v (opNotifyCommit wr))
  else if n = Obj.logReadSeq then some (opLogReadSeqWrite wr v)
  else if n = Obj.logClear then some (Work.one wr n v (opLogClear wr))
  else if n = Obj.fwStageCommit then some (Work.one wr n v (opFwStageCommit wr))
  else if n = Obj.fwSvnCommit then some (Work.one wr n v (opFwSvnCommit wr))
  else Work.devIndexed wr n v

/-! ### BLOBs -/

/-- Correct the staged bytes of an entry of a BLOB, counting the 8-byte unit of the lowest byte that changes (R496). -/
def Work.fixEntry (wr : Writer) (n off len held : Nat) (w : Work) : Work :=
  let was := w.blobNat .staged n off len
  if was = held then w else
  let i := ((upto (len / 8)).find? (fun i => bits was (64 * i) 64 != bits held (64 * i) 64)).getD 0
  (w.blobPut .staged n off held len).clamped wr n (bits was (64 * i) 64) (bits held (64 * i) 64) (off + 8 * i)

/-- MGMT_ADDR (R522): a multicast or link-local address clamps to 0. -/
def Work.fixMgmtAddr (wr : Writer) (w : Work) : Work :=
  let v := w.blobNat .staged Obj.mgmtAddr 0 16
  if bits v 0 8 = 0xFF ∨ (bits v 0 8 = 0xFE ∧ bits v 8 8 / 64 = 2) then w.fixEntry wr Obj.mgmtAddr 0 16 0 else w

/-- HOK_KEYS (R522): reserved bits are dropped, and an entry whose DIGEST is zero loses VALID. -/
def Work.fixHokKeys (wr : Writer) (w : Work) : Work :=
  forUpto (fun i (w : Work) =>
    let v := w.blobNat .staged Obj.hokKeys (64 * i) 64
    let w := if v < 2 ^ 257 then w else w.blobPut .staged Obj.hokKeys (64 * i) (v % 2 ^ 257) 64
    if bits v 0 256 = 0 ∧ bitOf v 256 = true then w.fixEntry wr Obj.hokKeys (64 * i) 64 0 else w) 16 w

/-- NOTIFY_DEST (R522): reserved bits are dropped, and an entry with PORT 0 loses EN. -/
def Work.fixNotifyDest (wr : Writer) (w : Work) : Work :=
  forUpto (fun i (w : Work) =>
    let v := w.blobNat .staged Obj.notifyDest (32 * i) 32
    let w := if v < 2 ^ 145 then w else w.blobPut .staged Obj.notifyDest (32 * i) (v % 2 ^ 145) 32
    if bits v 128 16 = 0 ∧ bitOf v 144 = true then w.fixEntry wr Obj.notifyDest (32 * i) 32 (bits v 0 144) else w) 4 w

/-- A write of bytes to a BLOB. -/
def Work.setBlob (wr : Writer) (r : ObjRow) (n off : Nat) (d : List Byte) (w : Work) : Work :=
  let v := leNat d
  let len := d.length
  match ctxItem Obj.segTable n, ctxItem Obj.hoopRecords n, ctxItem Obj.hoopImage n with
  | some x, _, _ => w.segWrite wr x off d
  | _, some x, _ => w.hoopStage wr x off v len
  | _, _, some x => w.hoopStageImage x off v len
  | none, none, none =>
    if n = Obj.fwStage then w.stageWrite wr off d
    else
      let w := w.blobPut (if r.acc = 2 then .staged else .active) n off v len
      if n = Obj.mgmtAddr then w.fixMgmtAddr wr
      else if n = Obj.hokKeys then w.fixHokKeys wr
      else if n = Obj.notifyDest then w.fixNotifyDest wr
      else w

/-! ### A write (R569) -/

/-- A write that has passed the checks. Log entry 59. -/
def Work.applyWrite (wr : Writer) (r : ObjRow) (n off : Nat) (d : List Byte) (w : Work) : Work :=
  if r.typ = 8 then w.setBlob wr r n off d
  else
    let v := leNat d
    let act := match objCtx n with
      | some x => Work.ctxAction wr x n v
      | none => Work.devAction wr n v
    match act with
    | some f => f w
    | none => w.setScalar wr r n v

/-- A write through the object engine: the checks of R569 in their order; its status. Log entries 59, 69. -/
def Work.objWr (wr : Writer) (n off : Nat) (d : List Byte) (w : Work) : Nat × Work :=
  match w.rowServed n with
  | none => (0x120, w)
  | some r =>
    if w.reaches wr (objReach n) = false then (0x230, w.deny wr n)
    else if r.acc = 0 ∨ r.acc = 4 then (0x122, w.bump Obj.roWriteCount 1)
    else
      let st := r.sizeCheck off d.length
      if st ≠ 0 then (st, w) else (0, w.applyWrite wr r n off d)

/-- A WRITE_READ: its status, and the value held when the write succeeds (zeros of a WO object). Log entry 69. -/
def Work.objWrRd (wr : Writer) (n off : Nat) (d : List Byte) (w : Work) : (Nat × List Nat) × Work :=
  let (st, w) := w.objWr wr n off d
  if st ≠ 0 then ((st, List.replicate d.length 0), w)
  else
    let ((_, l), w) := w.objRd wr n off d.length false
    ((0, l), w)

/-- What applies once the answer that carried a commit has left (R521). -/
def Work.afterAnswer (w : Work) : Work := (w.mgmtApply).hokApply

/-- OBJECT_WRITE (R496). -/
def opObjectWrite (wr : Writer) (num off : Nat) (data : List Byte) (w : Work) : Work :=
  if w.serves wr num then ((w.objWr wr num off data).2).afterAnswer
  else match wr with
    | .fn _ => w.hostDrop
    | _ => w
def execObjectWrite (wr : Writer) (num off : Nat) (data : List Byte) (s : State) : Host.Outcome State Fault Refusal :=
  s.run (opObjectWrite wr num off data)

end Sys2Proof.Machine
end

