-- ==== Sys2Proof/Machine/Hokutia.lean ====
section
/-!
DEFINITION. Sys2Proof/Machine/Hokutia.lean: Hokutia sessions, requests and acknowledgements (R506 to R514).
-/
namespace Sys2Proof.Machine

/-! ### Messages (Table 17.7) -/

/-- The bytes of a datagram as values. -/
def hokData (f : HokRx) : List Nat := f.bytes.map BitVec.toNat
/-- Its header, one big-endian integer. -/
def hokHdrOf (f : HokRx) : Nat := beNat ((hokData f).take 16)
def hokVer (h : Nat) : Nat := bits h 124 4
def hokType (h : Nat) : Nat := bits h 120 4
def hokLen (h : Nat) : Nat := bits h 96 16
def hokSid (h : Nat) : Nat := bits h 64 32
def hokSeq (h : Nat) : Nat := bits h 0 64

/-- Send bytes back to where a datagram came from. -/
def Work.hokAnswer (f : HokRx) (m : List Nat) (w : Work) : Work := w.mgmtSend (.hok (w.mgmtHop f.src) f.src f.sport m)

/-- ERROR (R513): one body byte, at most once per 10 ms per source address. -/
def Work.hokError (f : HokRx) (code : Nat) (w : Work) : Work :=
  if w.dict.errorAt.any (fun p => p.1 == f.src && decide (w.since p.2 < 10000000)) then w else
  let w := w.setDict (fun d => { d with
    errorAt := (f.src, w.time) :: d.errorAt.filter (fun p => p.1 != f.src && decide (w.since p.2 < 10000000)) })
  w.hokAnswer f (hokHdr 7 1 0 0 ++ [code])

/-- A datagram reaches the device: it counts, and one too long, of another version, or cut short, goes no further. Log entry 61. -/
def Work.hokTake (f : HokRx) (type : Nat) (act : Work → Work) (w : Work) : Work :=
  if !w.mgmtLive then w else
  let w := w.bump Obj.mgmtRxFrames 1
  let h := (hokHdrOf f)
  if 9120 < f.bytes.length then w.hokError f 5
  else if f.bytes.length < 16 then w
  else if hokVer h ≠ 1 then w.hokError f 4
  else if hokLen h ≠ f.bytes.length - 16 ∨ hokType h ≠ type then w
  else act w

/-- A message of an open session whose MAC verifies (R508); one that names no open session is answered NO_SESSION (Table 17.12). -/
def Work.hokIn (f : HokRx) (act : HokSession → Work → Work) (w : Work) : Work :=
  match w.dict.sessions.find? (fun s => s.sid == hokSid (hokHdrOf f)) with
  | none => w.hokError f 1
  | some s =>
    let n := f.bytes.length
    if n < 48 ∨ Config.hmac s.kmd ((hokData f).take (n - 32)) % 2 ^ 256 ≠ beNat ((hokData f).drop (n - 32)) then w.bump Obj.hokMacFail 1
    else act s w

/-- Replace a session. -/
def Work.putHok (s : HokSession) (w : Work) : Work :=
  w.setDict (fun d => { d with sessions := d.sessions.map (fun q => if q.s = s.s then s else q) })

/-! ### Opening (R507, R508) -/

/-- Fields of a HELLO body (Table 17.8), as bytes of the datagram. -/
def hokNonceM (f : HokRx) : List Nat := ((hokData f).drop 16).take 16
def hokEphM (f : HokRx) : List Nat := ((hokData f).drop 32).take 97
def hokIdM (f : HokRx) : List Nat := ((hokData f).drop 129).take 97
def hokSig (f : HokRx) : Nat := beNat (((hokData f).drop 226).take 96)

/-- The entry of HOK_KEYS that lists a HELLO's key. -/
def Dev.hokKeyOf (w : Dev) (f : HokRx) : Option Nat :=
  let d := Config.sha256 (hokIdM f) % 2 ^ 256
  (upto 16).find? (fun i => (w.hokKey i).1 && (w.hokKey i).2 == d)

/-- A HELLO that is not authentic (R507): counted, logged at most once a second per address, answered AUTH. Log entry 60. -/
def Work.hokAuthFail (f : HokRx) (why : Nat) (w : Work) : Work :=
  let w := w.bump Obj.hokAuthFail 1
  let key := 2 ^ 160 + f.src
  let w := if w.rateOk key 1000000000 then (w.rateMark key).log1 0x0105 31 0xB000 why (ipField f.src) else w
  w.hokError f 3

/-- A session id not 0 and of no open session: which one, the spec leaves to the device. Log entry 61. -/
def Dev.freshSid (w : Dev) (v : Nat) : Nat :=
  let cand := fun k => 1 + (v + k) % (2 ^ 32 - 1)
  ((upto 5).map cand).find? (fun c => !w.dict.sessions.any (fun s => s.sid == c)) |>.getD 1

/-- The session opens: SID, NONCE_D, an ephemeral key pair, the session keys, and a signed HELLO_ACK. Log entries 27, 61. -/
def Work.hokOpen (f : HokRx) (key s : Nat) (w : Work) : Work :=
  let (v, w) := w.freeDraw
  let sid := w.freshSid v
  let (nd, w) := w.entropyDraw
  let (k, w) := w.entropyDraw
  let nonceD := beBytes nd 16
  let okm := Config.hkdf ((hokNonceM f) ++ nonceD) (Config.ecdh k (hokEphM f)) ([0x48, 0x4F, 0x4B, 0x55, 0x54, 0x49, 0x41, 0x31] ++ beBytes sid 4)
  let q : HokSession := { s := s, sid := sid, key := key, addr := f.src, port := f.sport, kmd := bits okm 256 256, kdm := bits okm 0 256,
                          lastSeq := 0, lastResp := [], lastValid := w.time }
  let eph := (upto 97).map (fun i => (Config.ephPublic k).getD i 0 % 256)
  let idD := (upto 97).map (fun i => Config.idPubkey.getD i 0 % 256)
  let m := hokHdr 2 336 sid 0 ++ (hokNonceM f) ++ nonceD ++ eph ++ idD
  let w := w.hokAnswer f (m ++ beBytes (Config.ecdsaSign m) 96 ++ List.replicate 14 0)
  let w := w.setDict (fun d => { d with sessions := d.sessions ++ [q] })
  let w := { w with log := { w.log with readSeq := Store.erase (16 + s) w.log.readSeq } }
  w.log1 0x0103 31 (0xB000 + s) (s * 2 ^ 24 + key) (ipField f.src)

/-- HOK_HELLO_RX (R507, R538). -/
def opHokHelloRx (f : HokRx) (w : Work) : Work :=
  w.hokTake f 1 (fun w =>
    if f.bytes.length ≠ 336 then w
    else if w.get Obj.entropyState = 1 then w.hokError f 2
    else match w.hokKeyOf f with
      | none => w.hokAuthFail f 1
      | some key =>
        if Config.ecdsaVerify (hokIdM f) ((hokData f).take 226) (hokSig f) = false then w.hokAuthFail f 2
        else match (upto 4).find? (fun s => !w.dict.sessions.any (fun q => q.s == s)) with
          | none => w.hokError f 2
          | some s => w.hokOpen f key s)
def execHokHelloRx (f : HokRx) (s : State) : Host.Outcome State Fault Refusal := s.run (opHokHelloRx f)

/-! ### Requests (R509, R510) -/

/-- An operation record (Table 17.10) with the data that follows it. -/
structure HokOp where
  rcd : Nat
  data : List Byte
  deriving DecidableEq, Repr

def HokOp.op (o : HokOp) : Nat := bits o.rcd 124 4
def HokOp.object (o : HokOp) : Nat := bits o.rcd 96 24
def HokOp.off (o : HokOp) : Nat := bits o.rcd 64 32
def HokOp.dlen (o : HokOp) : Nat := bits o.rcd 48 16

/-- A length padded to a multiple of 8. -/
def pad8 (n : Nat) : Nat := ceilDiv n 8 * 8

/-- The records of a REQUEST body; a record that the body ends within is not one. -/
def hokOps : Nat → List Byte → List HokOp
  | 0, _ => []
  | n + 1, b =>
    if b.length < 16 then [] else
    let r := beNat ((b.take 16).map BitVec.toNat)
    let op := bits r 124 4
    let len := if op = 2 ∨ op = 3 then pad8 (bits r 48 16) else 0
    if b.length < 16 + len then [] else
    ⟨r, (b.drop 16).take (if len = 0 then 0 else bits r 48 16)⟩ :: hokOps n (b.drop (16 + len))

/-- Data bytes that follow a record in the RESPONSE. -/
def HokOp.out (o : HokOp) : Nat := if o.op = 1 ∨ o.op = 3 ∨ o.op = 4 then pad8 o.dlen else 0

/-- A record of a RESPONSE: its status, and its data padded with zeros. -/
def HokOp.answer (o : HokOp) (st : Nat) (d : List Nat) : List Nat :=
  beBytes (setBits o.rcd 32 16 st) 16 ++ d ++ List.replicate (pad8 d.length - d.length) 0

/-- One operation of session s (R495, R509): at most 8,192 bytes. Log entry 69. -/
def Work.hokOp (s : Fin 4) (o : HokOp) (w : Work) : List Nat × Work :=
  let wr := Writer.hok s
  if 8192 < o.dlen then (o.answer 0x123 (List.replicate o.out 0), w) else
  match o.op with
  | 1 => let ((st, l), w) := w.objRd wr o.object o.off o.dlen false; (o.answer st l, w)
  | 4 => let ((st, l), w) := w.objRd wr o.object o.off o.dlen true; (o.answer st l, w)
  | 2 => let (st, w) := w.objWr wr o.object o.off o.data; (o.answer st [], w)
  | 3 => let ((st, l), w) := w.objWrRd wr o.object o.off o.data; (o.answer st l, w)
  | _ => (o.answer 0x120 [], w)

/-- The operations of a REQUEST in order, each independent of the ones before it. -/
def Work.hokRun (s : Fin 4) (os : List HokOp) (w : Work) : List Nat × Work :=
  os.foldl (fun (p : List Nat × Work) o => let (a, w) := p.2.hokOp s o; (p.1 ++ a, w)) ([], w)

/-- An accepted REQUEST: executed, or all SIZE when the RESPONSE would not fit; the RESPONSE is kept and sent. -/
def Work.hokRequest (f : HokRx) (q : HokSession) (w : Work) : Work :=
  let body := (f.bytes.drop 16).take (f.bytes.length - 48)
  let os := hokOps body.length body
  let size := 48 + (os.map (fun o => 16 + o.out)).sum
  let (ans, w) := if 9120 < size then (os.flatMap (fun o => o.answer 0x123 []), w) else w.hokRun (Fin.ofNat 4 q.s) os
  let m := hokHdr 4 (ans.length + 32) q.sid (hokSeq (hokHdrOf f)) ++ ans
  let resp := m ++ beBytes (Config.hmac q.kdm m) 32
  let w := w.putHok { q with lastSeq := hokSeq (hokHdrOf f), lastResp := resp, lastValid := w.time }
  (w.hokAnswer f resp).afterAnswer

/-- HOK_REQUEST_RX (R509, R510). Log entry 61. -/
def opHokRequestRx (f : HokRx) (w : Work) : Work :=
  w.hokTake f 3 (fun w => w.hokIn f (fun q w =>
    let seq := hokSeq (hokHdrOf f)
    if q.lastSeq < seq then w.hokRequest f q
    else if seq = q.lastSeq ∧ seq ≠ 0 then (w.putHok { q with lastValid := w.time }).hokAnswer f q.lastResp
    else w.bump Obj.hokReplay 1))
def execHokRequestRx (f : HokRx) (s : State) : Host.Outcome State Fault Refusal := s.run (opHokRequestRx f)

/-! ### The other messages -/

/-- The notifications to an address with a sequence number are acknowledged. -/
def Work.acked (addr seq : Nat) (w : Work) : Work :=
  { w with log := { w.log with notifs := w.log.notifs.filter (fun n => !(n.seq == seq && (w.notifyDest n.dest).1 == addr)) } }

/-- HOK_NOTIFY_ACK_RX (R514): within a session its MAC must verify; with SID 0 it answers a signed notification. -/
def opHokNotifyAckRx (f : HokRx) (w : Work) : Work :=
  w.hokTake f 6 (fun w =>
    if hokSid (hokHdrOf f) = 0 then w.acked f.src (hokSeq (hokHdrOf f))
    else w.hokIn f (fun q w => (w.putHok { q with lastValid := w.time }).acked q.addr (hokSeq (hokHdrOf f))))
def execHokNotifyAckRx (f : HokRx) (s : State) : Host.Outcome State Fault Refusal := s.run (opHokNotifyAckRx f)

/-- HOK_CLOSE_RX (R512). -/
def opHokCloseRx (f : HokRx) (w : Work) : Work := w.hokTake f 8 (fun w => w.hokIn f (fun q w => w.hokClosed q 1))
def execHokCloseRx (f : HokRx) (s : State) : Host.Outcome State Fault Refusal := s.run (opHokCloseRx f)

/-- HOK_IDLE_TIMEOUT (R512): session s has had no valid message for HOK_IDLE_S. Log entry 61. -/
def opHokIdleTimeout (s : Fin 4) (w : Work) : Work :=
  match w.dict.sessions.find? (fun q => q.s == s.val) with
  | some q => if w.get Obj.hokIdleS * 1000000000 ≤ w.since q.lastValid then w.hokClosed q 2 else w
  | none => w
def execHokIdleTimeout (s : Fin 4) (st : State) : Host.Outcome State Fault Refusal := st.run (opHokIdleTimeout s)

end Sys2Proof.Machine
end

