-- ==== Sys2Proof/Machine/Power.lean ====
section
/-!
DEFINITION. Sys2Proof/Machine/Power.lean: the inputs, throttling and shutdowns (R549 to R557, R566 to R568).
-/
namespace Sys2Proof.Machine

/-! ### Inputs (R552) -/

/-- The module is powered and COLD_RST_N is high. Log entry 8. -/
def Dev.powered (w : Dev) : Bool := !w.boot.held && !w.boot.vsbLost

/-- INPUT_LOW: P48V has lain in 36–40 V for 5 ms. Log entry 39. -/
def opInputLow (mv : Nat) (w : Work) : Work :=
  if w.powered = false ∨ mv < 36000 ∨ 40000 ≤ mv then w else
  ((w.setBoot (fun b => { b with vinOut := true })).bump Obj.inputLowCount 1).event 0x0B06 31 0 mv
def execInputLow (mv : Nat) (s : State) : Host.Outcome State Fault Refusal := s.run (opInputLow mv)

/-- INPUT_HIGH: P48V has lain in 60–62 V for 5 ms. -/
def opInputHigh (mv : Nat) (w : Work) : Work :=
  if w.powered = false ∨ mv ≤ 60000 ∨ 62000 < mv then w else
  ((w.setBoot (fun b => { b with vinOut := true })).bump Obj.inputHighCount 1).event 0x0B07 31 0 mv
def execInputHigh (mv : Nat) (s : State) : Host.Outcome State Fault Refusal := s.run (opInputHigh mv)

/-- P48V_IN_RANGE (R550): P48V lies in 40–60 V again; a shutdown stays in force. -/
def opP48vInRange (w : Work) : Work := w.setBoot (fun b => { b with vinOut := false })
def execP48vInRange (s : State) : Host.Outcome State Fault Refusal := s.run opP48vInRange

/-- TRIP_LAST (Table 19.12). -/
def Work.tripLast (cause die : Nat) (w : Work) : Work :=
  w.blobPut .active Obj.tripLast 0 (cause + die * 256 + w.time % 2 ^ 64 * 2 ^ 64) 16

/-- P48V_TRIP: below 36 V or above 62 V for 50 µs the main rails go off, until COLD_RST_N is asserted and released. -/
def opP48vTrip (high : Bool) (w : Work) : Work :=
  let w := w.setBoot (fun b => { b with vinOut := true })
  if w.powered = false ∨ w.boot.rails = false then w else
  ((w.tripLast (if high then 4 else 3) 0).railsOff).setBoot (fun b => { b with tripped := true })
def execP48vTrip (high : Bool) (s : State) : Host.Outcome State Fault Refusal := s.run (opP48vTrip high)

/-- P12V_SB_LOSS: the rails go off and the standby partition is reset; TRIP_LAST is lost with its supply. Log entry 37. -/
def opP12vSbLoss (w : Work) : Work :=
  let held := w.boot.held
  ((w.coldState).blobClear Obj.tripLast).setBoot (fun b => { b with held := held, vsbLost := true })
def execP12vSbLoss (s : State) : Host.Outcome State Fault Refusal := s.run opP12vSbLoss

/-! ### Step 1 (R555) -/

/-- The highest of a list of temperatures, and 0 of none. -/
def maxTemp : List Int → Int
  | [] => 0
  | t :: r => r.foldl max t

/-- The S32 an object holds. -/
def signed32 (v : Nat) : Int := if v < 2 ^ 31 then (v : Int) else (v : Int) - 2 ^ 32

/-- The hottest core sensor of compute die d. -/
def sensorDie (r : Sensors) (d : Nat) : Int := maxTemp ((upto 16).map (fun i => r.cores.getD (16 * d + i) (0 : Int)))

/-- The hottest stack of die d's zone, as last read. -/
def Dev.zoneDram (w : Dev) (d : Nat) : Int := maxTemp ((upto 6).map (fun i => signed32 (w.get (Obj.stackTemp (6 * d + i)))))

/-- What the sensors and meters read is reported; near memory doubles its refresh above 95 °C (R233, R554). -/
def Work.sensed (r : Sensors) (w : Work) : Work :=
  let w := w.setSched (fun s => { s with temps := (upto 32).map (fun k => (k, r.cores.getD k (0 : Int))) })
  let tj := [sensorDie r 0, sensorDie r 1, r.io0, r.io1]
  let w := forUpto (fun d w => w.put (Obj.tjMaxC d) (toSigned 32 (tj.getD d (0 : Int)))) 4 w
  let w := ((w.put Obj.powerNowW (min r.power (maxU 16))).put Obj.vinMv (min r.vin (maxU 32))).put Obj.iinMa (min r.iin (maxU 32))
  let w := (w.put Obj.vsbMv (min r.vsb (maxU 16))).put Obj.energyJ (max (w.get Obj.energyJ) (min r.joules (maxU 64)))
  w.put Obj.nearRefresh (b2n (decide (95 < sensorDie r 0) || decide (95 < sensorDie r 1)))

/-- The triggers of step 1 that hold for die d: core sensor, DRAM, power. -/
def Dev.hot (w : Dev) (r : Sensors) (d : Nat) : Bool × Bool × Bool :=
  (decide ((w.get Obj.throttleC : Int) ≤ sensorDie r d), decide (95 ≤ w.zoneDram d), decide (w.get Obj.powerLimitW ≤ r.power))

/-- The triggers that lie below their release levels for die d. -/
def Dev.cool (w : Dev) (r : Sensors) (d : Nat) : Bool × Bool × Bool :=
  (decide (sensorDie r d < (w.get Obj.throttleC : Int) - 3), decide (w.zoneDram d < 92), decide (100 * r.power < 97 * w.get Obj.powerLimitW))

/-- A cause bit is set while a trigger holds for a die, cleared when both dies are below its release level, and kept between. -/
def causeBit (old : Nat) (i : Nat) (hot cool : Bool) : Bool := hot || (bitOf old i && !cool)

/-- Replace the cap on die d. -/
def Work.setCap (d : Nat) (c : Option Nat) (w : Work) : Work :=
  w.setClk (fun k => { k with cap := (c.map (fun m => (d, m, w.time))).toList ++ k.cap.filter (fun p => p.1 != d) })

/-- Step 1 for die d: 25 MHz lower while a trigger holds, down to 600 MHz; 25 MHz higher, at most once per 10 ms, while all lie below
their release levels, up to what R486 would choose. -/
def Work.stepOne (r : Sensors) (d : Nat) (w : Work) : Work :=
  let h := w.hot r d
  let c := w.cool r d
  if h.1 || h.2.1 || h.2.2 then
    let t := max 600 (w.targetMhz d - 25)
    (w.setCap d (some t)).setTarget d t
  else if c.1 && c.2.1 && c.2.2 then
    match w.clk.cap.find? (fun p => p.1 == d) with
    | some p =>
      if w.since p.2.2 < 10000000 then w else
      let t := p.2.1 + 25
      let at_ := w.targetMhz d == p.2.1
      let w := w.setCap d (if w.baseTarget d 1950 ≤ t then none else some t)
      if at_ then w.setTarget d (min t (w.baseTarget d 1950)) else w
    | none => w
  else w

/-- THROTTLE_DECISION (R555). Log entry 39. -/
def opThrottleDecision (r : Sensors) (w : Work) : Work :=
  if w.ready = false then w else
  let w := w.sensed r
  let h := [w.hot r 0, w.hot r 1]
  let c := [w.cool r 0, w.cool r 1]
  let old := w.get Obj.throttleCause
  let cause := b2n (causeBit old 0 (h.any (fun p => p.1)) (c.all (fun p => p.1)))
    + b2n (causeBit old 1 (h.any (fun p => p.2.1)) (c.all (fun p => p.2.1))) * 2
    + b2n (causeBit old 4 (h.any (fun p => p.2.2)) (c.all (fun p => p.2.2))) * 16
    + b2n (bitOf old 5) * 32
  let w := w.put Obj.throttleCause cause
  (((w.stepOne r 0).stepOne r 1).stepSync).floorCheck
def execThrottleDecision (r : Sensors) (s : State) : Host.Outcome State Fault Refusal := s.run (opThrottleDecision r)

/-! ### Steps 2 and 3 (R555, R556) -/

/-- FAST_THROTTLE: a core sensor or the input current reaches its trigger; the core clocks of both dies are halved. Log entry 39. -/
def opFastThrottle (core current : Bool) (w : Work) : Work :=
  if w.ready = false ∨ (core || current) = false then w else
  let w := if w.clk.div then w else w.bump Obj.fastThrottleCount 1
  let w := (w.setClk (fun k => { k with div := true, divAt := w.time })).freqSync
  let old := w.get Obj.throttleCause
  let w := w.put Obj.throttleCause (setBit (setBit old 0 (bitOf old 0 || core)) 5 (bitOf old 5 || current))
  (w.stepSync).floorCheck
def execFastThrottle (core current : Bool) (s : State) : Host.Outcome State Fault Refusal := s.run (opFastThrottle core current)

/-- FAST_THROTTLE_RELEASE: every trigger of step 2 has been clear for 1 ms. Log entry 39. -/
def opFastThrottleRelease (w : Work) : Work :=
  if w.clk.div = false ∨ w.since w.clk.divAt < 1000000 then w else
  let w := (w.setClk (fun k => { k with div := false })).freqSync
  let w := w.put Obj.throttleCause (setBit (w.get Obj.throttleCause) 5 false)
  (w.stepSync).floorCheck
def execFastThrottleRelease (s : State) : Host.Outcome State Fault Refusal := s.run opFastThrottleRelease

/-- THERMTRIP: a sensor at 115 °C, or a DRAM at 105 °C: the main rails go off and THERMTRIP_N low, until COLD_RST_N (R557). -/
def opThermtrip (dram : Bool) (die : Fin 4) (w : Work) : Work :=
  if w.powered = false ∨ w.boot.rails = false then w else
  ((w.tripLast (if dram then 2 else 1) die.val).railsOff).setBoot (fun b => { b with thermtrip := true })
def execThermtrip (dram : Bool) (die : Fin 4) (s : State) : Host.Outcome State Fault Refusal := s.run (opThermtrip dram die)

end Sys2Proof.Machine
end

