-- ==== Sys2Proof/Machine/Reads.lean ====
section
/-!
DEFINITION. Sys2Proof/Machine/Reads.lean: reads that come back from the external tiers and from host memory, and what a failed one
does to its reader (R274, R528).
-/
namespace Sys2Proof.Machine

/-- A command in flight ends with the status of a failed read: what it has under way is given up. -/
def Work.cmdReadFail (c : Cmd) (st det : Nat) (w : Work) : Work :=
  match c.q with
  | 0 => match w.launch? c.id with
    | some _ => (w.launchFault c.id 0 st det).launchStep c.id
    | none => w.finishCmd c.id st det
  | 1 => ((w.bob.fills.filter (fun f => f.cmd == some c.id)).foldl (fun (w : Work) (f : Fill) => w.ditchFill f) w).finishCmd c.id st det
  | 2 => match w.picotJob? c.id with
    | some j => w.picotStop j st det
    | none => w.finishCmd c.id st det
  | 3 => match w.coll? c.id with
    | some _ => w.collStop c.id st det
    | none => w.finishCmd c.id st det
  | _ => w.finishCmd c.id st det

/-- A fetch failed: the queue's next command ends with the status at its start; without an admitted pattern the queue halts with it,
as where translation of its descriptor fails (R85, R29). Log entry 19. -/
def Work.fetchFail (x q st det : Nat) (w : Work) : Work :=
  match w.curPat? x q with
  | some p => w.mapPat p.pid (fun (p : Pattern) => { p with bad := some (st, det), released := true })
  | none => if w.admitDue x q then w.haltQueue x q st det else w

/-- The reader of a sector ends with a status (R107, R119, R253, R401). -/
def Work.endReader (r : Agent) (st det : Nat) (w : Work) : Work :=
  match r with
  | .cmd id => match w.cmd? id with
    | some c => if c.done.isSome then w else w.cmdReadFail c st det
    | none => w
  | .stream x s => match w.stream? x.val s.val with
    | some t => if t.cap.isSome then w.streamFail x.val s.val st det t else w
    | none => w
  | .fetch x q => w.fetchFail x.val q.val st det
  | .tile k => match (w.core k.val).tile, (w.core k.val).chain with
    | some t, some h => if w.coreSt k.val = 1 then w.tileLoadFail k.val t h.samp st det else w
    | _, _ => w
  | .shard i => w.shardMissing i
  | .other => w

/-- The reader waits for bytes. -/
def Dev.reading (w : Dev) (r : Agent) : Bool :=
  match r with
  | .cmd id => match w.cmd? id with | some c => c.done.isNone | none => false
  | .stream x s => match w.stream? x.val s.val with | some t => t.cap.isSome | none => false
  | .fetch x q => (w.curPat? x.val q.val).isSome || w.admitDue x.val q.val
  | .tile k => (w.core k.val).tile.isSome && w.coreSt k.val == 1
  | .shard i => match w.shard? i with | some s => s.waits == 1 && s.st != 2 | none => false
  | .other => true

/-- The context of a reader: 31 for none. -/
def Dev.readerCtx (w : Dev) (r : Agent) : Nat :=
  match r with
  | .cmd id => match w.cmd? id with | some c => c.ctx | none => 31
  | .stream x _ => x.val
  | .fetch x _ => x.val
  | .tile k => match (w.core k.val).tile with | some t => t.ctx | none => 31
  | .shard _ => match w.life.job with | some j => j.ctx | none => 31
  | .other => 31

/-- EXT_READ_RETURN (R274): a codeword comes back from the sector at `a` with the symbol differences `flips` beside those
stored: it is decoded, corrected or reported. -/
def opExtReadReturn (r : Agent) (a : Nat) (flips : List (Nat × Nat)) (w : Work) : Work :=
  let a := a / 32 * 32
  match extPlace a with
  | some p =>
    let (out, w) := w.decodeSector p a flips
    match out with
    | .bad =>
      let w := w.bumpUe Obj.ueExt
      let w := w.log1 0x0511 (w.readerCtx r) p.source p.location (a % 2 ^ 64)
      w.endReader r 0x0511 p.location
    | _ => w
  | none => w

def execExtReadReturn (r : Agent) (a : Nat) (flips : List (Nat × Nat)) (s : State) : Host.Outcome State Fault Refusal :=
  s.run (opExtReadReturn r a flips)

/-! ### Host memory (R528) -/

/-- A host-window access leaves the device: READY, and the reader's function enabled with Bus Master Enable. Log entry 7. -/
def Dev.hostReads (w : Dev) (r : Agent) : Bool := w.ready && w.reading r && (w.hostOpen (w.readerCtx r) || w.readerCtx r == 31)

/-- Bits [43:12] of the host bus address that a device address names (R20, Table 18.10). -/
def busDetail (a : Nat) : Nat := bits a 12 32

/-- HOST_CPL_RX (R528): a completion for a read of host bus address `a`. Its bytes are what host memory held; an error or poisoned data
ends the reader. One that no reader waits for is discarded. Log entry 7. -/
def opHostCplRx (r : Agent) (a : Nat) (cpl : HostCpl) (w : Work) : Work :=
  if w.hostReads r = false then w else
  let a := a % 2 ^ 47
  match cpl with
  | .data d => w.write (2 ^ 47 + a) (d.take (2 ^ 47 - a))
  | .error st => (w.bump Obj.hostAccessErrors 1).endReader r 0x0D11 (st % 8)
  | .poisoned => (w.bump Obj.hostPoisonedCpl 1).endReader r 0x0D12 (busDetail a)
def execHostCplRx (r : Agent) (a : Nat) (cpl : HostCpl) (s : State) : Host.Outcome State Fault Refusal := s.run (opHostCplRx r a cpl)

/-- A command that reads has been in flight for HOST_CPL_TMO_US, so that a read of it can have timed out. Log entries 6, 36. -/
def Dev.mayTimeOut (w : Dev) (r : Agent) : Bool :=
  match r with
  | .cmd id => match w.cmd? id with | some c => decide (w.get Obj.hostCplTmoUs * 1000 ≤ w.since c.start) | none => false
  | _ => true

/-- HOST_CPL_TIMEOUT (R528): a host read has not completed within HOST_CPL_TMO_US. Log entry 36. -/
def opHostCplTimeout (r : Agent) (a : Nat) (w : Work) : Work :=
  if w.hostReads r = false ∨ w.mayTimeOut r = false then w else
  (w.bump Obj.hostCplTimeouts 1).endReader r 0x0D10 (busDetail (a % 2 ^ 47))
def execHostCplTimeout (r : Agent) (a : Nat) (s : State) : Host.Outcome State Fault Refusal := s.run (opHostCplTimeout r a)

end Sys2Proof.Machine
end

