-- ==== Sys2Proof/Machine/Sections.lean ====
section
/-!
DEFINITION. Sys2Proof/Machine/Sections.lean: the rows by which Pricking gives cores their work: assignment, and the grant, end and
overrun of sections (R123, R133, R136, R458).
-/
namespace Sys2Proof.Machine

/-- The uncorrectable word of a save or restore of core k is counted and logged (R458, R237). -/
def Work.saveUe (k : Nat) (w : Work) : Work := w.onchipWord 31 (windowBase k + windowBytes) .uncorrectable

/-- The save area of core k is given up: the chain in it is lost. -/
def Work.spillLost (k : Nat) (w : Work) : Work :=
  match (w.core k).spill with
  | some sp => ((w.putCore { w.core k with spill := none }).put (Obj.coreSpill k) 0xFF).chainLost sp |>.saveUe k
  | none => w

/-- CORE_ASSIGN (R120 to R127, R140): core k, IDLE or at a boundary, takes its next work. `saveBad` and `restBad` say that the save or
the restore this takes meets an uncorrectable word (R458): the chain is lost; after a restore the core takes its next claimant. -/
def opCoreAssign (k : Fin 32) (saveBad restBad : Bool) (w : Work) : Work :=
  let k := k.val
  let held := (w.core k).spill.isSome
  let after := w.corePick k
  let now := (after.core k).spill.isSome
  if !held && now && saveBad then (after.spillLost k).rotation
  else if held && !now && (after.core k).tile.isSome && restBad then (w.spillLost k).corePick k
  else after

def execCoreAssign (k : Fin 32) (saveBad restBad : Bool) (s : State) : Host.Outcome State Fault Refusal :=
  s.run (opCoreAssign k saveBad restBad)

/-- SECTION_GRANT (R133): core k is given the section that is its next work; a batch then issues what it may (R315). -/
def opSectionGrant (k : Fin 32) (w : Work) : Work :=
  let w := w.sectionPick k.val
  match w.sectionOn k.val with
  | some s => if s.kind = 1 then w.issueJob s.ref else w
  | none => w

def execSectionGrant (k : Fin 32) (s : State) : Host.Outcome State Fault Refusal := s.run (opSectionGrant k)

/-- A sample of core k ends (R455, R456). -/
def Work.sampleEnd (s : Section) (k : Nat) (bad : List Nat) (w : Work) : Work :=
  let bad := sortNat (bad.filter (fun b => decide (b < 8960)))
  let (m, w) := w.sampleCore k bad
  let w := bad.foldl (fun (w : Work) (b : Nat) => w.onchipWord 31 (windowBase k + 4096 * b) .uncorrectable) w
  (w.endSection s.id).sampled k (some m) bad.length

/-- SECTION_END (R133): the phase of a section is complete: the merges of a COLL that its bound allows, a batch whose writes are all
issued, a sample; `bad` are the blocks whose first sector holds an uncorrectable word. -/
def opSectionEnd (id : Nat) (bad : List Nat) (w : Work) : Work :=
  match w.sched.sections.find? (fun s => s.id == id) with
  | none => w
  | some s =>
    match s.core with
    | none => w
    | some k =>
      match s.kind with
      | 0 => (w.endSection id).collSectionEnd s.ref s.bound (w.get (Obj.freqNowMhz (coreDie k)))
      | 1 => if w.batchOver s.ref then (w.endSection id).batchRelease s.ref else w
      | _ => w.sampleEnd s k bad

def execSectionEnd (id : Nat) (bad : List Nat) (s : State) : Host.Outcome State Fault Refusal := s.run (opSectionEnd id bad)

/-- When a section's watchdog fires: twice its bound after its start, or, for a section of a context in RESETTING, its bound after the
reset's start (R136, R461). -/
def Dev.sectionDue (w : Dev) (s : Section) : Nat :=
  let due := s.start + 2000 * s.bound
  match w.reset? 3 s.ctx with
  | some r => min due (max s.start r.start + 1000 * s.bound)
  | none => due

/-- SECTION_OVERRUN (R136, R450): the section's watchdog is signalled, once: an engine reset of the instance that owns it; a swatch
section's sample is given up instead (R455). -/
def opSectionOverrun (id : Nat) (w : Work) : Work :=
  match w.sched.sections.find? (fun s => s.id == id) with
  | none => w
  | some s =>
    match s.core with
    | none => w
    | some k =>
      if s.overran = true ∨ w.time < w.sectionDue s then w
      else if s.kind = 2 then w.sampleLate s k
      else
        let w := w.setSections (w.sched.sections.map (fun (t : Section) => if t.id = id then { t with overran := true } else t))
        let w := (w.bump Obj.sectionOverrunCount 1).log1 0x0314 s.ctx (0x3000 + s.die) k s.bound
        match w.sectionOwner s with
        | some e => if w.instReset e then w else w.fire 1 e 2 (some s.ref)
        | none => w

def execSectionOverrun (id : Nat) (s : State) : Host.Outcome State Fault Refusal := s.run (opSectionOverrun id)

end Sys2Proof.Machine
end

