-- ==== Sys2Proof/Machine/Tap.lean ====
section
/-!
DEFINITION. Sys2Proof/Machine/Tap.lean: the boundary-scan port: its instructions, the boundary register, and the open-drain lands
(R550, R557, R561 to R565).
-/
namespace Sys2Proof.Machine

/-- An instruction enters the instruction register: it selects its register, whose bits its first scan shows on TDO. Log entry 72. -/
def Work.tapTake (code out : Nat) (w : Work) : Work := (w.put Obj.tapInstr code).send (.tap code out)

/-- The bypass register is selected: it captures 0. Log entry 72. -/
def Work.tapBypass (w : Work) : Work := w.tapTake 0xFF 0

/-- An instruction of Table 19.9; one that needs TEST_MODE selects the bypass register without it, counted and, in READY, logged at
most once a second (R563). Log entry 72. -/
def Work.tap (code : Nat) (test : Bool) (act : Work → Work) (w : Work) : Work :=
  if w.boot.vsbLost then w
  else if test && !w.boot.testMode then
    let w := (w.tapBypass).bump Obj.tapDeniedCount 1
    if w.ready then w.eventLimited 0x3000000 1000000000 0x0C01 31 0 code else w
  else act w

/-- The 102 cells of the boundary register (Table 19.10). -/
def bsrBits : Nat := 2 ^ 102

/-- A scan of the boundary register: what the lands carried goes out on TDO, and the cells take what was shifted in. Log entry 72. -/
def Work.boundary (code pins load : Nat) (w : Work) : Work :=
  (w.tapTake code (pins % bsrBits)).setBoot (fun b => { b with bsr := load % bsrBits })

/-- EXTEST. -/
def opExtest (pins load : Nat) (w : Work) : Work := w.tap 0x00 true (fun w => w.boundary 0x00 pins load)
def execExtest (pins load : Nat) (s : State) : Host.Outcome State Fault Refusal := s.run (opExtest pins load)

/-- SAMPLE/PRELOAD: the lands keep their function. -/
def opSamplePreload (pins load : Nat) (w : Work) : Work := w.tap 0x02 false (fun w => w.boundary 0x02 pins load)
def execSamplePreload (pins load : Nat) (s : State) : Host.Outcome State Fault Refusal := s.run (opSamplePreload pins load)

/-- CLAMP: the lands hold what the boundary register holds, and the bypass register is selected. -/
def opClamp (w : Work) : Work := w.tap 0x03 true (fun w => w.tapTake 0x03 0)
def execClamp (s : State) : Host.Outcome State Fault Refusal := s.run opClamp

/-- IDCODE. -/
def opIdcode (w : Work) : Work := w.tap 0x04 false (fun w => w.tapTake 0x04 idcodeNum)
def execIdcode (s : State) : Host.Outcome State Fault Refusal := s.run opIdcode

/-- HIGHZ: the drivers are released, and the bypass register is selected. -/
def opHighz (w : Work) : Work := w.tap 0x05 true (fun w => w.tapTake 0x05 0)
def execHighz (s : State) : Host.Outcome State Fault Refusal := s.run opHighz

/-- USERCODE. -/
def opUsercode (w : Work) : Work := w.tap 0x06 false (fun w => w.tapTake 0x06 (serialNum % 2 ^ 32))
def execUsercode (s : State) : Host.Outcome State Fault Refusal := s.run opUsercode

/-- EXTEST_PULSE. -/
def opExtestPulse (pins load : Nat) (w : Work) : Work := w.tap 0x08 true (fun w => w.boundary 0x08 pins load)
def execExtestPulse (pins load : Nat) (s : State) : Host.Outcome State Fault Refusal := s.run (opExtestPulse pins load)

/-- EXTEST_TRAIN. -/
def opExtestTrain (pins load : Nat) (w : Work) : Work := w.tap 0x09 true (fun w => w.boundary 0x09 pins load)
def execExtestTrain (pins load : Nat) (s : State) : Host.Outcome State Fault Refusal := s.run (opExtestTrain pins load)

/-- The codes of Table 19.9 with a register or an action of their own. Log entry 72. -/
def tapListed : List Nat := [0x00, 0x02, 0x03, 0x04, 0x05, 0x06, 0x08, 0x09]

/-- BYPASS, and every code that Table 19.9 does not list. Log entry 72. -/
def opBypass (code : Fin 256) (w : Work) : Work := if tapListed.contains code.val then w else w.tap 0xFF false Work.tapBypass
def execBypass (code : Fin 256) (s : State) : Host.Outcome State Fault Refusal := s.run (opBypass code)

/-- TAP_RESET: TRST_N low, or P12V_SB applied, which also ends its loss: Test-Logic-Reset, with IDCODE selected. Log entry 37. -/
def opTapReset (power : Bool) (w : Work) : Work :=
  let w := if power then w.setBoot (fun b => { b with vsbLost := false }) else w
  if w.boot.vsbLost then w else w.put Obj.tapInstr 0x04
def execTapReset (power : Bool) (s : State) : Host.Outcome State Fault Refusal := s.run (opTapReset power)

/-! ### The open-drain lands: true is released (Table 19.3) -/

/-- The boundary register has the output lands: EXTEST, CLAMP, EXTEST_PULSE or EXTEST_TRAIN in force. -/
def Dev.scanDrives (w : Dev) : Bool := [0x00, 0x03, 0x08, 0x09].contains (w.get Obj.tapInstr)

/-- ALERT_N: low while a bit of ALERT_CAUSE is 1 (R550); a scan drives it from its cell while its output enable is 1 (Table 19.10). Log entry 5. -/
def Dev.alertN (w : Dev) : Bool :=
  if w.boot.vsbLost then true
  else if w.get Obj.tapInstr = 0x05 then true
  else if w.scanDrives then bitOf w.boot.bsr 96 || !bitOf w.boot.bsr 101
  else w.alertCause == 0

/-- PWR_CYCLE_REQ_N (R468), released under EXTEST, CLAMP and HIGHZ (R565) and without P12V_SB. Log entry 5. -/
def Dev.pwrCycleReqN (w : Dev) : Bool :=
  w.boot.vsbLost || w.scanDrives || w.get Obj.tapInstr == 0x05 || w.get Obj.coldReqPending != 1

/-- THERMTRIP_N (R557), released as PWR_CYCLE_REQ_N. Log entry 5. -/
def Dev.thermtripN (w : Dev) : Bool := w.boot.vsbLost || w.scanDrives || w.get Obj.tapInstr == 0x05 || !w.boot.thermtrip

end Sys2Proof.Machine
end

