-- ==== Sys2Proof/Machine/Windows.lean ====
section
/-!
DEFINITION. Sys2Proof/Machine/Windows.lean: the object window of each PCIe function (R502, R503).
-/
namespace Sys2Proof.Machine

/-- The window of a function: after reset every register reads 0. -/
def Dev.window (w : Dev) (fn : Nat) : Window :=
  (w.dict.windows.find? (fun v => v.fn == fn)).getD ⟨fn, 0, false, 0, 0, 0, false, 0, [], 0, 0⟩

/-- Replace a function's window. -/
def Work.putWindow (v : Window) (w : Work) : Work :=
  w.setDict (fun d => { d with windows := v :: d.windows.filter (fun u => u.fn != v.fn) })

/-- The object window of a function is served: in READY, and for the physical function in RECOVERY (R531, Table 18.5). -/
def Dev.windowUp (w : Dev) (fn : Nat) : Bool := w.ready || (w.get Obj.bootState == 7 && fn == 0)

/-- A write to WIN_CMD (R503): ignored while WIN_BUSY reads 1; otherwise the registers hold what the operation names, WIN_BUSY is set,
and the operation `act` runs, giving its status and, where it returns data, the bytes of WIN_DATA. WIN_LEN is at most 4,096. -/
def Work.winStart (fn : Fin 16) (object off len : Nat) (active : Bool) (put : List Byte)
    (act : Work → (Nat × Option (List Nat)) × Work) (w : Work) : Work :=
  if w.windowUp fn.val = false then w.hostDrop else
  let v := w.window fn.val
  if v.busy then w else
  let ((st, out), w) := if 4096 < len then ((0x123, none), w) else act w
  let data := put ++ v.data.drop put.length
  let data := match out with | some l => l.map (BitVec.ofNat 8) ++ data.drop l.length | none => data
  (w.afterAnswer).putWindow { v with object := object % 2 ^ 24, active := active, offset := off, len := len % 2 ^ 13, busy := true,
                                     data := data, start := w.time, next := st }

/-- WIN_READ. -/
def opWinRead (fn : Fin 16) (object off len : Nat) (active : Bool) (w : Work) : Work :=
  w.winStart fn object off len active [] (fun w =>
    let ((st, l), w) := w.objRd (.fn fn) (object % 2 ^ 24) off len active
    ((st, if st = 0 ∨ st = 0x121 then some l else none), w))
def execWinRead (fn : Fin 16) (object off len : Nat) (active : Bool) (s : State) : Host.Outcome State Fault Refusal :=
  s.run (opWinRead fn object off len active)

/-- WIN_WRITE. Log entry 59. -/
def opWinWrite (fn : Fin 16) (object off : Nat) (data : List Byte) (w : Work) : Work :=
  w.winStart fn object off data.length false (data.take 4096) (fun w =>
    let (st, w) := w.objWr (.fn fn) (object % 2 ^ 24) off data
    ((st, none), w))
def execWinWrite (fn : Fin 16) (object off : Nat) (data : List Byte) (s : State) : Host.Outcome State Fault Refusal :=
  s.run (opWinWrite fn object off data)

/-- WIN_WRITE_READ: leaves the value held in WIN_DATA. -/
def opWinWriteRead (fn : Fin 16) (object off : Nat) (data : List Byte) (w : Work) : Work :=
  w.winStart fn object off data.length false (data.take 4096) (fun w =>
    let ((st, l), w) := w.objWrRd (.fn fn) (object % 2 ^ 24) off data
    ((st, if st = 0 then some l else none), w))
def execWinWriteRead (fn : Fin 16) (object off : Nat) (data : List Byte) (s : State) : Host.Outcome State Fault Refusal :=
  s.run (opWinWriteRead fn object off data)

/-- WIN_OP_DONE: at least 0.5 µs after WIN_CMD, WIN_BUSY clears, WIN_DONE counts and WIN_STATUS holds the status. Log entry 59. -/
def opWinOpDone (fn : Fin 16) (w : Work) : Work :=
  let v := w.window fn.val
  if v.busy = true ∧ w.windowUp fn.val = true ∧ 500 ≤ w.since v.start then
    w.putWindow { v with busy := false, done := (v.done + 1) % 2 ^ 32, status := v.next }
  else w
def execWinOpDone (fn : Fin 16) (s : State) : Host.Outcome State Fault Refusal := s.run (opWinOpDone fn)

/-- What a read of 4 bytes of a function's object window returns (Table 17.4, R531). -/
def Dev.windowReg (w : Dev) (fn off : Nat) : Nat :=
  if w.windowUp fn = false then (if off = 0x10 then 0x10000 else 0) else
  let v := w.window fn
  if off = 0x00 then v.object + b2n v.active * 2 ^ 31
  else if off = 0x04 then v.offset
  else if off = 0x08 then v.len
  else if off = 0x10 then v.status + b2n v.busy * 2 ^ 16
  else if off = 0x14 then v.done
  else if 0x1000 ≤ off ∧ off < 0x2000 then leNat ((v.data.drop (off - 0x1000)).take 4)
  else 0

end Sys2Proof.Machine
end

