-- ==== Sys2Proof/Machine/Dispatch.lean ====
section
/-!
DEFINITION. Sys2Proof/Machine/Dispatch.lean: one arm per command of the table, in the table's order.
-/
namespace Sys2Proof.Machine

def exec (i : Instr) (s : State) : Host.Outcome State Fault Refusal :=
  match i with
  | .doorbellSqTail fn x q width v => Sys2Proof.Machine.execDoorbellSqTail fn x q width v s
  | .doorbellCqHead fn x q width v => Sys2Proof.Machine.execDoorbellCqHead fn x q width v s
  | .evtHost fn x width v => Sys2Proof.Machine.execEvtHost fn x width v s
  | .patternAdmit x q => Sys2Proof.Machine.execPatternAdmit x q s
  | .commandStart x q => Sys2Proof.Machine.execCommandStart x q s
  | .commandComplete id => Sys2Proof.Machine.execCommandComplete id s
  | .nop id => Sys2Proof.Machine.execNop id s
  | .evtSignal id => Sys2Proof.Machine.execEvtSignal id s
  | .evtWait id => Sys2Proof.Machine.execEvtWait id s
  | .fence id => Sys2Proof.Machine.execFence id s
  | .timerArm id => Sys2Proof.Machine.execTimerArm id s
  | .writeImm id => Sys2Proof.Machine.execWriteImm id s
  | .yield id => Sys2Proof.Machine.execYield id s
  | .stepMark id => Sys2Proof.Machine.execStepMark id s
  | .tileLaunch id => Sys2Proof.Machine.execTileLaunch id s
  | .copy id => Sys2Proof.Machine.execCopy id s
  | .prefetch id => Sys2Proof.Machine.execPrefetch id s
  | .cancel id => Sys2Proof.Machine.execCancel id s
  | .gather id => Sys2Proof.Machine.execGather id s
  | .scatterAdd id => Sys2Proof.Machine.execScatterAdd id s
  | .allGather id => Sys2Proof.Machine.execAllGather id s
  | .reduceScatter id => Sys2Proof.Machine.execReduceScatter id s
  | .allReduce id => Sys2Proof.Machine.execAllReduce id s
  | .paramGather id => Sys2Proof.Machine.execParamGather id s
  | .send id => Sys2Proof.Machine.execSend id s
  | .recv id => Sys2Proof.Machine.execRecv id s
  | .allReduceC4 id => Sys2Proof.Machine.execAllReduceC4 id s
  | .waitTimeout x q => Sys2Proof.Machine.execWaitTimeout x q s
  | .stepMarkTimeout x => Sys2Proof.Machine.execStepMarkTimeout x s
  | .timerFire x n => Sys2Proof.Machine.execTimerFire x n s
  | .ctxEnable wr x => Sys2Proof.Machine.execCtxEnable wr x s
  | .ctxDisable wr x => Sys2Proof.Machine.execCtxDisable wr x s
  | .ctxDisableDone x => Sys2Proof.Machine.execCtxDisableDone x s
  | .ctxResume wr x => Sys2Proof.Machine.execCtxResume wr x s
  | .qStart wr x q => Sys2Proof.Machine.execQStart wr x q s
  | .qStop wr x q => Sys2Proof.Machine.execQStop wr x q s
  | .qResume wr x q => Sys2Proof.Machine.execQResume wr x q s
  | .qFlush wr x q => Sys2Proof.Machine.execQFlush wr x q s
  | .qCommit wr x q => Sys2Proof.Machine.execQCommit wr x q s
  | .qCommitApply x q => Sys2Proof.Machine.execQCommitApply x q s
  | .ctxCommit wr x => Sys2Proof.Machine.execCtxCommit wr x s
  | .privWrite wr x v => Sys2Proof.Machine.execPrivWrite wr x v s
  | .segTableWrite wr x off data => Sys2Proof.Machine.execSegTableWrite wr x off data s
  | .segCommit wr x => Sys2Proof.Machine.execSegCommit wr x s
  | .segCommitApplied x => Sys2Proof.Machine.execSegCommitApplied x s
  | .coreAssign k saveBad restBad => Sys2Proof.Machine.execCoreAssign k saveBad restBad s
  | .tileStart k bad => Sys2Proof.Machine.execTileStart k bad s
  | .tileEnd k feed wait drain flips => Sys2Proof.Machine.execTileEnd k feed wait drain flips s
  | .tileOverrun k feed wait drain => Sys2Proof.Machine.execTileOverrun k feed wait drain s
  | .tileStoreDone id => Sys2Proof.Machine.execTileStoreDone id s
  | .sliceExpire be => Sys2Proof.Machine.execSliceExpire be s
  | .sectionGrant k => Sys2Proof.Machine.execSectionGrant k s
  | .sectionEnd id bad => Sys2Proof.Machine.execSectionEnd id bad s
  | .sectionOverrun id => Sys2Proof.Machine.execSectionOverrun id s
  | .fenceSw wr v => Sys2Proof.Machine.execFenceSw wr v s
  | .bobbinSectorLand id n k res => Sys2Proof.Machine.execBobbinSectorLand id n k res s
  | .prefetchWaitTimeout id => Sys2Proof.Machine.execPrefetchWaitTimeout id s
  | .pbCommit wr b => Sys2Proof.Machine.execPbCommit wr b s
  | .pbCommitApply b => Sys2Proof.Machine.execPbCommitApply b s
  | .streamRearm wr x n => Sys2Proof.Machine.execStreamRearm wr x n s
  | .streamTrigger x n => Sys2Proof.Machine.execStreamTrigger x n s
  | .streamXferDone x n => Sys2Proof.Machine.execStreamXferDone x n s
  | .streamDeadlineMiss x n => Sys2Proof.Machine.execStreamDeadlineMiss x n s
  | .packCommit wr x r => Sys2Proof.Machine.execPackCommit wr x r s
  | .nearScrub a res => Sys2Proof.Machine.execNearScrub a res s
  | .extReadReturn r a flips => Sys2Proof.Machine.execExtReadReturn r a flips s
  | .extScrub a flips raced => Sys2Proof.Machine.execExtScrub a flips raced s
  | .couchWrite x a d => Sys2Proof.Machine.execCouchWrite x a d s
  | .couchRetire ctl line bad reset => Sys2Proof.Machine.execCouchRetire ctl line bad reset s
  | .regulatorRequest x t h n tileBound => Sys2Proof.Machine.execRegulatorRequest x t h n tileBound s
  | .regulatorRetry x t h => Sys2Proof.Machine.execRegulatorRetry x t h s
  | .regulatorShareUpdate => Sys2Proof.Machine.execRegulatorShareUpdate s
  | .spillPoolCommit wr => Sys2Proof.Machine.execSpillPoolCommit wr s
  | .spillReq wr x v => Sys2Proof.Machine.execSpillReq wr x v s
  | .spillHoldTimeout x => Sys2Proof.Machine.execSpillHoldTimeout x s
  | .spillCopyDone x => Sys2Proof.Machine.execSpillCopyDone x s
  | .fillReq wr x v => Sys2Proof.Machine.execFillReq wr x v s
  | .dramTempPoll stackC pkgs => Sys2Proof.Machine.execDramTempPoll stackC pkgs s
  | .couchDrainTimeout ctl parts => Sys2Proof.Machine.execCouchDrainTimeout ctl parts s
  | .memTrainingDone h slow dead lanes => Sys2Proof.Machine.execMemTrainingDone h slow dead lanes s
  | .picotLockGrant id p => Sys2Proof.Machine.execPicotLockGrant id p s
  | .portsCommit wr d => Sys2Proof.Machine.execPortsCommit wr d s
  | .portsCommitApply d => Sys2Proof.Machine.execPortsCommitApply d s
  | .linkSignalDetect p => Sys2Proof.Machine.execLinkSignalDetect p s
  | .linkUp p => Sys2Proof.Machine.execLinkUp p s
  | .linkDown p => Sys2Proof.Machine.execLinkDown p s
  | .linkDegraded p uncorr corr total => Sys2Proof.Machine.execLinkDegraded p uncorr corr total s
  | .linkDegradeClear p => Sys2Proof.Machine.execLinkDegradeClear p s
  | .ethFrameBad p why => Sys2Proof.Machine.execEthFrameBad p why s
  | .exbDataRx f => Sys2Proof.Machine.execExbDataRx f s
  | .exbAckRx f => Sys2Proof.Machine.execExbAckRx f s
  | .exbOpenRx f => Sys2Proof.Machine.execExbOpenRx f s
  | .exbOpenAckRx f => Sys2Proof.Machine.execExbOpenAckRx f s
  | .exbRejectRx f => Sys2Proof.Machine.execExbRejectRx f s
  | .exbProbeRx f => Sys2Proof.Machine.execExbProbeRx f s
  | .exbProbeReplyRx f => Sys2Proof.Machine.execExbProbeReplyRx f s
  | .exbStaleRx f => Sys2Proof.Machine.execExbStaleRx f s
  | .exbCloseRx f => Sys2Proof.Machine.execExbCloseRx f s
  | .exbStaleSessionRx f => Sys2Proof.Machine.execExbStaleSessionRx f s
  | .exbDataTx n bad => Sys2Proof.Machine.execExbDataTx n bad s
  | .exbAckDelayExpire n => Sys2Proof.Machine.execExbAckDelayExpire n s
  | .exbRtoExpire n psn => Sys2Proof.Machine.execExbRtoExpire n psn s
  | .exbProbeIdleExpire n => Sys2Proof.Machine.execExbProbeIdleExpire n s
  | .exbLossTimeout n => Sys2Proof.Machine.execExbLossTimeout n s
  | .exbOpenResend n => Sys2Proof.Machine.execExbOpenResend n s
  | .exbRejectRetry n => Sys2Proof.Machine.execExbRejectRetry n s
  | .exbRnrExpire n msg => Sys2Proof.Machine.execExbRnrExpire n msg s
  | .exbRateIncrease n => Sys2Proof.Machine.execExbRateIncrease n s
  | .peerCommit wr => Sys2Proof.Machine.execPeerCommit wr s
  | .ptpAnnounceRx p a => Sys2Proof.Machine.execPtpAnnounceRx p a s
  | .ptpSyncRx p domain gm seq twoStep t1 => Sys2Proof.Machine.execPtpSyncRx p domain gm seq twoStep t1 s
  | .ptpFollowUpRx p domain gm seq t1 => Sys2Proof.Machine.execPtpFollowUpRx p domain gm seq t1 s
  | .ptpDelayReqTx => Sys2Proof.Machine.execPtpDelayReqTx s
  | .ptpDelayRespRx p domain gm seq t4 => Sys2Proof.Machine.execPtpDelayRespRx p domain gm seq t4 s
  | .ptpHoldover => Sys2Proof.Machine.execPtpHoldover s
  | .plaitChunkLand id slot => Sys2Proof.Machine.execPlaitChunkLand id slot s
  | .plaitStallTimeout id n => Sys2Proof.Machine.execPlaitStallTimeout id n s
  | .plaitNoStartTimeout id n => Sys2Proof.Machine.execPlaitNoStartTimeout id n s
  | .plaitAbortNoticeRx id => Sys2Proof.Machine.execPlaitAbortNoticeRx id s
  | .groupCommit wr => Sys2Proof.Machine.execGroupCommit wr s
  | .groupCommitApply => Sys2Proof.Machine.execGroupCommitApply s
  | .loadCommit wr => Sys2Proof.Machine.execLoadCommit wr s
  | .loadStart => Sys2Proof.Machine.execLoadStart s
  | .shardLanded n => Sys2Proof.Machine.execShardLanded n s
  | .shardHashDone n => Sys2Proof.Machine.execShardHashDone n s
  | .shardAttemptTimeout n => Sys2Proof.Machine.execShardAttemptTimeout n s
  | .loaderShardRx id => Sys2Proof.Machine.execLoaderShardRx id s
  | .loaderRefetchRx id => Sys2Proof.Machine.execLoaderRefetchRx id s
  | .loaderUnavailRx id => Sys2Proof.Machine.execLoaderUnavailRx id s
  | .activate wr v => Sys2Proof.Machine.execActivate wr v s
  | .admitPauseTick x q => Sys2Proof.Machine.execAdmitPauseTick x q s
  | .swap wr => Sys2Proof.Machine.execSwap wr s
  | .swapExchangeDone bad => Sys2Proof.Machine.execSwapExchangeDone bad s
  | .slotCommit wr n => Sys2Proof.Machine.execSlotCommit wr n s
  | .slotFlush wr n => Sys2Proof.Machine.execSlotFlush wr n s
  | .bindCommit wr x => Sys2Proof.Machine.execBindCommit wr x s
  | .bindCommitApply x => Sys2Proof.Machine.execBindCommitApply x s
  | .addSwap wr x => Sys2Proof.Machine.execAddSwap wr x s
  | .arenaCommit wr => Sys2Proof.Machine.execArenaCommit wr s
  | .seqJoin wr x v => Sys2Proof.Machine.execSeqJoin wr x v s
  | .seqLeave wr x v => Sys2Proof.Machine.execSeqLeave wr x v s
  | .seqGrow wr x v => Sys2Proof.Machine.execSeqGrow wr x v s
  | .mirCommit wr x => Sys2Proof.Machine.execMirCommit wr x s
  | .mirDevCommit wr => Sys2Proof.Machine.execMirDevCommit wr s
  | .mirDevCommitApply => Sys2Proof.Machine.execMirDevCommitApply s
  | .mirrorWaitExpire x => Sys2Proof.Machine.execMirrorWaitExpire x s
  | .mirrorHashDone x k => Sys2Proof.Machine.execMirrorHashDone x k s
  | .pairingHeaderRx id => Sys2Proof.Machine.execPairingHeaderRx id s
  | .pairingDataRx id => Sys2Proof.Machine.execPairingDataRx id s
  | .pairingRestoreReqRx id => Sys2Proof.Machine.execPairingRestoreReqRx id s
  | .pairingRestoreDataRx id => Sys2Proof.Machine.execPairingRestoreDataRx id s
  | .pairingRestoreHdrRx id => Sys2Proof.Machine.execPairingRestoreHdrRx id s
  | .pairingRestoreNoneRx id => Sys2Proof.Machine.execPairingRestoreNoneRx id s
  | .restoreReq wr x mask => Sys2Proof.Machine.execRestoreReq wr x mask s
  | .restoreDone x => Sys2Proof.Machine.execRestoreDone x s
  | .samplerRunDone id => Sys2Proof.Machine.execSamplerRunDone id s
  | .samplerLagDrop id => Sys2Proof.Machine.execSamplerLagDrop id s
  | .katPeriod ns res => Sys2Proof.Machine.execKatPeriod ns res s
  | .healthScoreTick => Sys2Proof.Machine.execHealthScoreTick s
  | .probationEnd => Sys2Proof.Machine.execProbationEnd s
  | .healthReport => Sys2Proof.Machine.execHealthReport s
  | .healthClear wr v => Sys2Proof.Machine.execHealthClear wr v s
  | .fenceFwClear wr v => Sys2Proof.Machine.execFenceFwClear wr v s
  | .mirFree wr v => Sys2Proof.Machine.execMirFree wr v s
  | .ovhWindow => Sys2Proof.Machine.execOvhWindow s
  | .engineWdtFire e id => Sys2Proof.Machine.execEngineWdtFire e id s
  | .coreWdtFire k => Sys2Proof.Machine.execCoreWdtFire k s
  | .ctxWdtFire x => Sys2Proof.Machine.execCtxWdtFire x s
  | .memWdtFire ctl => Sys2Proof.Machine.execMemWdtFire ctl s
  | .fwWdtFire => Sys2Proof.Machine.execFwWdtFire s
  | .engineReset wr v => Sys2Proof.Machine.execEngineReset wr v s
  | .coreReset wr v => Sys2Proof.Machine.execCoreReset wr v s
  | .ctxReset wr x => Sys2Proof.Machine.execCtxReset wr x s
  | .dieReset wr v => Sys2Proof.Machine.execDieReset wr v s
  | .deviceReset wr => Sys2Proof.Machine.execDeviceReset wr s
  | .resetLimitExpire dom target => Sys2Proof.Machine.execResetLimitExpire dom target s
  | .swatchSampleTimeout k => Sys2Proof.Machine.execSwatchSampleTimeout k s
  | .resetDone dom target bad flushed => Sys2Proof.Machine.execResetDone dom target bad flushed s
  | .xqRetryResend inst => Sys2Proof.Machine.execXqRetryResend inst s
  | .timeSample bad => Sys2Proof.Machine.execTimeSample bad s
  | .dvfsDecision auto0 auto1 => Sys2Proof.Machine.execDvfsDecision auto0 auto1 s
  | .pllLocked d => Sys2Proof.Machine.execPllLocked d s
  | .setpointReached d => Sys2Proof.Machine.execSetpointReached d s
  | .dvfsCommit wr => Sys2Proof.Machine.execDvfsCommit wr s
  | .fwDecision num seen breaks => Sys2Proof.Machine.execFwDecision num seen breaks s
  | .winRead fn object off len active => Sys2Proof.Machine.execWinRead fn object off len active s
  | .winWrite fn object off data => Sys2Proof.Machine.execWinWrite fn object off data s
  | .winWriteRead fn object off data => Sys2Proof.Machine.execWinWriteRead fn object off data s
  | .winOpDone fn => Sys2Proof.Machine.execWinOpDone fn s
  | .objectWrite wr num off data => Sys2Proof.Machine.execObjectWrite wr num off data s
  | .hokHelloRx f => Sys2Proof.Machine.execHokHelloRx f s
  | .hokRequestRx f => Sys2Proof.Machine.execHokRequestRx f s
  | .hokNotifyAckRx f => Sys2Proof.Machine.execHokNotifyAckRx f s
  | .hokCloseRx f => Sys2Proof.Machine.execHokCloseRx f s
  | .hokIdleTimeout n => Sys2Proof.Machine.execHokIdleTimeout n s
  | .notifyResend n seq => Sys2Proof.Machine.execNotifyResend n seq s
  | .mgmtFrameRx f => Sys2Proof.Machine.execMgmtFrameRx f s
  | .hokCommit wr => Sys2Proof.Machine.execHokCommit wr s
  | .mgmtCommit wr => Sys2Proof.Machine.execMgmtCommit wr s
  | .notifyCommit wr => Sys2Proof.Machine.execNotifyCommit wr s
  | .storeWrite num res => Sys2Proof.Machine.execStoreWrite num res s
  | .storeErase wr v res => Sys2Proof.Machine.execStoreErase wr v res s
  | .logClear wr => Sys2Proof.Machine.execLogClear wr s
  | .logReadSeqWrite wr v => Sys2Proof.Machine.execLogReadSeqWrite wr v s
  | .logDropped => Sys2Proof.Machine.execLogDropped s
  | .hostCplRx r a cpl => Sys2Proof.Machine.execHostCplRx r a cpl s
  | .hostCplTimeout r a => Sys2Proof.Machine.execHostCplTimeout r a s
  | .flrVf c => Sys2Proof.Machine.execFlrVf c s
  | .flrPf => Sys2Proof.Machine.execFlrPf s
  | .pciePerst => Sys2Proof.Machine.execPciePerst s
  | .hostLinkChanged rate width cfg => Sys2Proof.Machine.execHostLinkChanged rate width cfg s
  | .coldResetRelease testMode entropyOk fusesOk => Sys2Proof.Machine.execColdResetRelease testMode entropyOk fusesOk s
  | .fwVerifyDone bad => Sys2Proof.Machine.execFwVerifyDone bad s
  | .diePowerDone rate width => Sys2Proof.Machine.execDiePowerDone rate width s
  | .memTrainDone slow dead lanes => Sys2Proof.Machine.execMemTrainDone slow dead lanes s
  | .deviceReady res cfg => Sys2Proof.Machine.execDeviceReady res cfg s
  | .fwStage wr off data => Sys2Proof.Machine.execFwStage wr off data s
  | .fwStageCommit wr => Sys2Proof.Machine.execFwStageCommit wr s
  | .fwStageVerifyDone bad => Sys2Proof.Machine.execFwStageVerifyDone bad s
  | .fwSvnCommit wr => Sys2Proof.Machine.execFwSvnCommit wr s
  | .attestReq wr x => Sys2Proof.Machine.execAttestReq wr x s
  | .attestDone x => Sys2Proof.Machine.execAttestDone x s
  | .entropyFailed => Sys2Proof.Machine.execEntropyFailed s
  | .entropyRetest pass => Sys2Proof.Machine.execEntropyRetest pass s
  | .coldRstAssert => Sys2Proof.Machine.execColdRstAssert s
  | .inputLow mv => Sys2Proof.Machine.execInputLow mv s
  | .inputHigh mv => Sys2Proof.Machine.execInputHigh mv s
  | .p48vTrip high => Sys2Proof.Machine.execP48vTrip high s
  | .p12vSbLoss => Sys2Proof.Machine.execP12vSbLoss s
  | .throttleDecision r => Sys2Proof.Machine.execThrottleDecision r s
  | .fastThrottle core current => Sys2Proof.Machine.execFastThrottle core current s
  | .fastThrottleRelease => Sys2Proof.Machine.execFastThrottleRelease s
  | .thermtrip dram die => Sys2Proof.Machine.execThermtrip dram die s
  | .tapReset power => Sys2Proof.Machine.execTapReset power s
  | .extest pins load => Sys2Proof.Machine.execExtest pins load s
  | .samplePreload pins load => Sys2Proof.Machine.execSamplePreload pins load s
  | .clamp => Sys2Proof.Machine.execClamp s
  | .idcode => Sys2Proof.Machine.execIdcode s
  | .highz => Sys2Proof.Machine.execHighz s
  | .usercode => Sys2Proof.Machine.execUsercode s
  | .extestPulse pins load => Sys2Proof.Machine.execExtestPulse pins load s
  | .extestTrain pins load => Sys2Proof.Machine.execExtestTrain pins load s
  | .bypass code => Sys2Proof.Machine.execBypass code s
  | .picotRowReturn id p res => Sys2Proof.Machine.execPicotRowReturn id p res s
  | .mgmtLinkUp => Sys2Proof.Machine.execMgmtLinkUp s
  | .mgmtLinkDown => Sys2Proof.Machine.execMgmtLinkDown s
  | .p48vInRange => Sys2Proof.Machine.execP48vInRange s

end Sys2Proof.Machine
end

