-- ==== Sys2Proof/Machine/Step.lean ====
section
/-!
DEFINITION. Sys2Proof/Machine/Step.lean: one step: the command at the front of the queue, or, with none waiting, a cycle of the time
base.
-/
namespace Sys2Proof.Machine

/-- The block takes the command at the front of its queue. On an empty queue it idles: one cycle of the 500 MHz time base passes, which
runs in the standby partition (R354; DESIGN CHOICE, log entry 8). Log entry 6. -/
def step (s : State) : Host.Outcome State Fault Refusal :=
  match s.pending with
  | [] => if s.powered then s.run Work.tick else .next s
  | i :: rest => exec i { s with pending := rest }

/-- s with the command that a word spells at the front of its queue; s where the word spells none. Log entry 10. -/
def State.withFetchWord (s : State) (nbits w : Nat) : State :=
  match Sys2Proof.decodeTableWord nbits w with
  | some i => { s with pending := i :: s.pending }
  | none => s

end Sys2Proof.Machine
end

