-- ==== Sys2Proof/Safety.lean ====
section
/-!
DEFINITION. Sys2Proof/Safety.lean: what counts as a safe step, a sound state and an unchanged part of a state, in the terms the
statements use.
-/
namespace Sys2Proof.Machine

/-- A step that stops the machine neither with a fault nor with a refusal. -/
def Completes (o : Host.Outcome State Fault Refusal) : Prop := ∃ t, o = .next t

/-- Memory in its one canonical form: addresses strictly rising, no entry equal to what an unlisted address reads as. -/
def State.MemWf (s : State) : Prop := Memory.wf s.mem = true

/-- Every listed byte lies in a region of the device address map (R18). -/
def State.MemMapped (s : State) : Prop := ∀ p ∈ s.mem, (regionOf p.1).isSome = true

/-- One byte of memory. -/
def State.byte (s : State) (a : Nat) : Byte := Memory.get s.mem a

/-- The book-keeping of the state is in order: 32 cores under their own numbers, and commands in flight under distinct identities, all
given out before. Log entry 4. -/
def State.Sound (s : State) : Prop :=
  s.sched.cores.length = 32 ∧ (∀ k, k < 32 → (s.core k).k = k) ∧ (s.q.cmds.map (fun c => c.id)).Nodup ∧
  ∀ c ∈ s.q.cmds, c.id < s.nextId

/-- Every byte of memory reads as before. -/
def State.SameMem (s t : State) : Prop := ∀ a, t.byte a = s.byte a

/-- Every scalar object but the listed ones keeps the value in force that it had. -/
def State.KeepsBut (s t : State) (l : List Nat) : Prop := ∀ n, n ∉ l → t.get n = s.get n

/-- The objects that a record handed to the log unit may change: the ring's two sequence numbers, what is dropped, and the counts of the
notifications it calls for (R514 to R516). -/
def logObjs : List Nat := [Obj.logNextSeq, Obj.logOldestSeq, Obj.logDropped, Obj.notifyLost, Obj.mgmtTxFrames]

/-- The device as a command finds it. -/
def State.work (s : State) : Work := { toDev := { s.toDev with sent := [] }, mem := s.mem, out := [] }

/-- Every write made so far lies within one region of the device address map (R18). -/
def Work.Sound (w : Work) : Prop := ∀ x ∈ w.out, mapped x.addr x.data.length = true

/-- A write of an object takes effect: the object engine serves the writer, and the writer reaches the object (R494, R531). -/
def State.takes (s : State) (wr : Writer) (r : Reach) (n : Nat) : Prop := s.serves wr n = true ∧ s.reaches wr r = true

/-- A well-formed packet of type ty reaches session p: its port is up, the packet fits Table 11.5, its destination names p, it comes from the
peer's address and carries the peer's incarnation, or p still waits for its OPEN_ACK (R327, R339, R340). -/
def State.hears (s : State) (f : Rx) (ty : Nat) (p : Sess) : Prop :=
  s.portUp f.port = true ∧ hVer f.hdr = 1 ∧ hType f.hdr = ty ∧ s.rxFits f = true ∧ s.staleWhy f = none ∧
  s.sessBySid (hDstSid f.hdr) = some p ∧ s.sess? p.n = some p ∧ f.src = pAddr (s.peer p.n) ∧
  ((s.peerSt p.n = 2 ∧ p.opener = true) ∨ (hSrcInc f.hdr = p.peerInc ∧ hSrcCgen f.hdr = p.peerCgen))

/-- How a command in flight has ended: its status, DETAIL, conversion status and recomputes. -/
def Dev.endOf (w : Dev) (id : Nat) : Option Done := match w.cmd? id with | some c => c.done | none => none

/-- The device after a command whose work is f, when every write of f is mapped. -/
def State.after (s : State) (f : Work → Work) : State :=
  { toDev := (f s.work).toDev.heal (f s.work).out, mem := Memory.applyAll s.mem (f s.work).out, pending := s.pending }

/-- The work that each command does on the device. Log entry 3. -/
def work (i : Instr) : Work → Work :=
  match i with
  | .doorbellSqTail fn x q width v => opDoorbellSqTail fn x q width v
  | .doorbellCqHead fn x q width v => opDoorbellCqHead fn x q width v
  | .evtHost fn x width v => opEvtHost fn x width v
  | .patternAdmit x q => opPatternAdmit x q
  | .commandStart x q => opCommandStart x q
  | .commandComplete id => opCommandComplete id
  | .nop id => opNop id
  | .evtSignal id => opEvtSignal id
  | .evtWait id => opEvtWait id
  | .fence id => opFence id
  | .timerArm id => opTimerArm id
  | .writeImm id => opWriteImm id
  | .yield id => opYield id
  | .stepMark id => opStepMark id
  | .tileLaunch id => opTileLaunch id
  | .copy id => opCopy id
  | .prefetch id => opPrefetch id
  | .cancel id => opCancel id
  | .gather id => opGather id
  | .scatterAdd id => opScatterAdd id
  | .allGather id => opAllGather id
  | .reduceScatter id => opReduceScatter id
  | .allReduce id => opAllReduce id
  | .paramGather id => opParamGather id
  | .send id => opSend id
  | .recv id => opRecv id
  | .allReduceC4 id => opAllReduceC4 id
  | .waitTimeout x q => opWaitTimeout x q
  | .stepMarkTimeout x => opStepMarkTimeout x
  | .timerFire x n => opTimerFire x n
  | .ctxEnable wr x => opCtxEnable wr x
  | .ctxDisable wr x => opCtxDisable wr x
  | .ctxDisableDone x => opCtxDisableDone x
  | .ctxResume wr x => opCtxResume wr x
  | .qStart wr x q => opQStart wr x q
  | .qStop wr x q => opQStop wr x q
  | .qResume wr x q => opQResume wr x q
  | .qFlush wr x q => opQFlush wr x q
  | .qCommit wr x q => opQCommit wr x q
  | .qCommitApply x q => opQCommitApply x q
  | .ctxCommit wr x => opCtxCommit wr x
  | .privWrite wr x v => opPrivWrite wr x v
  | .segTableWrite wr x off data => opSegTableWrite wr x off data
  | .segCommit wr x => opSegCommit wr x
  | .segCommitApplied x => opSegCommitApplied x
  | .coreAssign k saveBad restBad => opCoreAssign k saveBad restBad
  | .tileStart k bad => opTileStart k bad
  | .tileEnd k feed wait drain flips => opTileEnd k ⟨feed, wait, drain⟩ flips
  | .tileOverrun k feed wait drain => opTileOverrun k ⟨feed, wait, drain⟩
  | .tileStoreDone id => opTileStoreDone id
  | .sliceExpire be => opSliceExpire be
  | .sectionGrant k => opSectionGrant k
  | .sectionEnd id bad => opSectionEnd id bad
  | .sectionOverrun id => opSectionOverrun id
  | .fenceSw wr v => opFenceSw wr v
  | .bobbinSectorLand id n k res => opBobbinSectorLand id n k res
  | .prefetchWaitTimeout id => opPrefetchWaitTimeout id
  | .pbCommit wr b => opPbCommit wr b
  | .pbCommitApply b => opPbCommitApply b
  | .streamRearm wr x n => opStreamRearm wr x n
  | .streamTrigger x n => opStreamTrigger x n
  | .streamXferDone x n => opStreamXferDone x n
  | .streamDeadlineMiss x n => opStreamDeadlineMiss x n
  | .packCommit wr x r => opPackCommit wr x r
  | .nearScrub a res => opNearScrub a res
  | .extReadReturn r a flips => opExtReadReturn r a flips
  | .extScrub a flips raced => opExtScrub a flips raced
  | .couchWrite x a d => opCouchWrite x a d
  | .couchRetire ctl line bad reset => opCouchRetire ctl line bad reset
  | .regulatorRequest x t h n tileBound => opRegulatorRequest x t h n tileBound
  | .regulatorRetry x t h => opRegulatorRetry x t h
  | .regulatorShareUpdate => opRegulatorShareUpdate
  | .spillPoolCommit wr => opSpillPoolCommit wr
  | .spillReq wr x v => opSpillReq wr x v
  | .spillHoldTimeout x => opSpillHoldTimeout x
  | .spillCopyDone x => opSpillCopyDone x
  | .fillReq wr x v => opFillReq wr x v
  | .dramTempPoll stackC pkgs => opDramTempPoll stackC pkgs
  | .couchDrainTimeout ctl parts => opCouchDrainTimeout ctl parts
  | .memTrainingDone h slow dead lanes => opMemTrainingDone h slow dead lanes
  | .picotLockGrant id p => opPicotLockGrant id p
  | .portsCommit wr d => opPortsCommit wr d
  | .portsCommitApply d => opPortsCommitApply d
  | .linkSignalDetect p => opLinkSignalDetect p
  | .linkUp p => opLinkUp p
  | .linkDown p => opLinkDown p
  | .linkDegraded p uncorr corr total => opLinkDegraded p uncorr corr total
  | .linkDegradeClear p => opLinkDegradeClear p
  | .ethFrameBad p why => opEthFrameBad p why
  | .exbDataRx f => opExbDataRx f
  | .exbAckRx f => opExbAckRx f
  | .exbOpenRx f => opExbOpenRx f
  | .exbOpenAckRx f => opExbOpenAckRx f
  | .exbRejectRx f => opExbRejectRx f
  | .exbProbeRx f => opExbProbeRx f
  | .exbProbeReplyRx f => opExbProbeReplyRx f
  | .exbStaleRx f => opExbStaleRx f
  | .exbCloseRx f => opExbCloseRx f
  | .exbStaleSessionRx f => opExbStaleSessionRx f
  | .exbDataTx n bad => opExbDataTx n bad
  | .exbAckDelayExpire n => opExbAckDelayExpire n
  | .exbRtoExpire n psn => opExbRtoExpire n psn
  | .exbProbeIdleExpire n => opExbProbeIdleExpire n
  | .exbLossTimeout n => opExbLossTimeout n
  | .exbOpenResend n => opExbOpenResend n
  | .exbRejectRetry n => opExbRejectRetry n
  | .exbRnrExpire n msg => opExbRnrExpire n msg
  | .exbRateIncrease n => opExbRateIncrease n
  | .peerCommit wr => opPeerCommit wr
  | .ptpAnnounceRx p a => opPtpAnnounceRx p a
  | .ptpSyncRx p domain gm seq twoStep t1 => opPtpSyncRx p domain gm seq twoStep t1
  | .ptpFollowUpRx p domain gm seq t1 => opPtpFollowUpRx p domain gm seq t1
  | .ptpDelayReqTx => opPtpDelayReqTx
  | .ptpDelayRespRx p domain gm seq t4 => opPtpDelayRespRx p domain gm seq t4
  | .ptpHoldover => opPtpHoldover
  | .plaitChunkLand id slot => opPlaitChunkLand id slot
  | .plaitStallTimeout id n => opPlaitStallTimeout id n
  | .plaitNoStartTimeout id n => opPlaitNoStartTimeout id n
  | .plaitAbortNoticeRx id => opPlaitAbortNoticeRx id
  | .groupCommit wr => opGroupCommit wr
  | .groupCommitApply => opGroupCommitApply
  | .loadCommit wr => opLoadCommit wr
  | .loadStart => opLoadStart
  | .shardLanded n => opShardLanded n
  | .shardHashDone n => opShardHashDone n
  | .shardAttemptTimeout n => opShardAttemptTimeout n
  | .loaderShardRx id => opLoaderShardRx id
  | .loaderRefetchRx id => opLoaderRefetchRx id
  | .loaderUnavailRx id => opLoaderUnavailRx id
  | .activate wr v => opActivate wr v
  | .admitPauseTick x q => opAdmitPauseTick x q
  | .swap wr => opSwap wr
  | .swapExchangeDone bad => opSwapExchangeDone bad
  | .slotCommit wr n => opSlotCommit wr n
  | .slotFlush wr n => opSlotFlush wr n
  | .bindCommit wr x => opBindCommit wr x
  | .bindCommitApply x => opBindCommitApply x
  | .addSwap wr x => opAddSwap wr x
  | .arenaCommit wr => opArenaCommit wr
  | .seqJoin wr x v => opSeqJoin wr x v
  | .seqLeave wr x v => opSeqLeave wr x v
  | .seqGrow wr x v => opSeqGrow wr x v
  | .mirCommit wr x => opMirCommit wr x
  | .mirDevCommit wr => opMirDevCommit wr
  | .mirDevCommitApply => opMirDevCommitApply
  | .mirrorWaitExpire x => opMirrorWaitExpire x
  | .mirrorHashDone x k => opMirrorHashDone x k
  | .pairingHeaderRx id => opPairingHeaderRx id
  | .pairingDataRx id => opPairingDataRx id
  | .pairingRestoreReqRx id => opPairingRestoreReqRx id
  | .pairingRestoreDataRx id => opPairingRestoreDataRx id
  | .pairingRestoreHdrRx id => opPairingRestoreHdrRx id
  | .pairingRestoreNoneRx id => opPairingRestoreNoneRx id
  | .restoreReq wr x mask => opRestoreReq wr x mask
  | .restoreDone x => opRestoreDone x
  | .samplerRunDone id => opSamplerRunDone id
  | .samplerLagDrop id => opSamplerLagDrop id
  | .katPeriod ns res => opKatPeriod ns res
  | .healthScoreTick => opHealthScoreTick
  | .probationEnd => opProbationEnd
  | .healthReport => opHealthReport
  | .healthClear wr v => opHealthClear wr v
  | .fenceFwClear wr v => opFenceFwClear wr v
  | .mirFree wr v => opMirFree wr v
  | .ovhWindow => opOvhWindow
  | .engineWdtFire e id => opEngineWdtFire e id
  | .coreWdtFire k => opCoreWdtFire k
  | .ctxWdtFire x => opCtxWdtFire x
  | .memWdtFire ctl => opMemWdtFire ctl
  | .fwWdtFire => opFwWdtFire
  | .engineReset wr v => opEngineReset wr v
  | .coreReset wr v => opCoreReset wr v
  | .ctxReset wr x => opCtxReset wr x
  | .dieReset wr v => opDieReset wr v
  | .deviceReset wr => opDeviceReset wr
  | .resetLimitExpire dom target => opResetLimitExpire dom target
  | .swatchSampleTimeout k => opSwatchSampleTimeout k
  | .resetDone dom target bad flushed => opResetDone dom target bad flushed
  | .xqRetryResend inst => opXqRetryResend inst
  | .timeSample bad => opTimeSample bad
  | .dvfsDecision auto0 auto1 => opDvfsDecision auto0 auto1
  | .pllLocked d => opPllLocked d
  | .setpointReached d => opSetpointReached d
  | .dvfsCommit wr => opDvfsCommit wr
  | .fwDecision num seen breaks => opFwDecision num seen breaks
  | .winRead fn object off len active => opWinRead fn object off len active
  | .winWrite fn object off data => opWinWrite fn object off data
  | .winWriteRead fn object off data => opWinWriteRead fn object off data
  | .winOpDone fn => opWinOpDone fn
  | .objectWrite wr num off data => opObjectWrite wr num off data
  | .hokHelloRx f => opHokHelloRx f
  | .hokRequestRx f => opHokRequestRx f
  | .hokNotifyAckRx f => opHokNotifyAckRx f
  | .hokCloseRx f => opHokCloseRx f
  | .hokIdleTimeout n => opHokIdleTimeout n
  | .notifyResend n seq => opNotifyResend n seq
  | .mgmtFrameRx f => opMgmtFrameRx f
  | .hokCommit wr => opHokCommit wr
  | .mgmtCommit wr => opMgmtCommit wr
  | .notifyCommit wr => opNotifyCommit wr
  | .storeWrite num res => opStoreWrite num res
  | .storeErase wr v res => opStoreErase wr v res
  | .logClear wr => opLogClear wr
  | .logReadSeqWrite wr v => opLogReadSeqWrite wr v
  | .logDropped => opLogDropped
  | .hostCplRx r a cpl => opHostCplRx r a cpl
  | .hostCplTimeout r a => opHostCplTimeout r a
  | .flrVf c => opFlrVf c
  | .flrPf => opFlrPf
  | .pciePerst => opPciePerst
  | .hostLinkChanged rate width cfg => opHostLinkChanged rate width cfg
  | .coldResetRelease testMode entropyOk fusesOk => opColdResetRelease testMode entropyOk fusesOk
  | .fwVerifyDone bad => opFwVerifyDone bad
  | .diePowerDone rate width => opDiePowerDone rate width
  | .memTrainDone slow dead lanes => opMemTrainDone slow dead lanes
  | .deviceReady res cfg => opDeviceReady res cfg
  | .fwStage wr off data => opFwStage wr off data
  | .fwStageCommit wr => opFwStageCommit wr
  | .fwStageVerifyDone bad => opFwStageVerifyDone bad
  | .fwSvnCommit wr => opFwSvnCommit wr
  | .attestReq wr x => opAttestReq wr x
  | .attestDone x => opAttestDone x
  | .entropyFailed => opEntropyFailed
  | .entropyRetest pass => opEntropyRetest pass
  | .coldRstAssert => opColdRstAssert
  | .inputLow mv => opInputLow mv
  | .inputHigh mv => opInputHigh mv
  | .p48vTrip high => opP48vTrip high
  | .p12vSbLoss => opP12vSbLoss
  | .throttleDecision r => opThrottleDecision r
  | .fastThrottle core current => opFastThrottle core current
  | .fastThrottleRelease => opFastThrottleRelease
  | .thermtrip dram die => opThermtrip dram die
  | .tapReset power => opTapReset power
  | .extest pins load => opExtest pins load
  | .samplePreload pins load => opSamplePreload pins load
  | .clamp => opClamp
  | .idcode => opIdcode
  | .highz => opHighz
  | .usercode => opUsercode
  | .extestPulse pins load => opExtestPulse pins load
  | .extestTrain pins load => opExtestTrain pins load
  | .bypass code => opBypass code
  | .picotRowReturn id p res => opPicotRowReturn id p res
  | .mgmtLinkUp => opMgmtLinkUp
  | .mgmtLinkDown => opMgmtLinkDown
  | .p48vInRange => opP48vInRange

end Sys2Proof.Machine
end

