-- ==== Sys2Proof/Certificates/Slice0/Obligations.lean ====
section
/-!
DEFINITION. Sys2Proof/Certificates/Slice0/Obligations.lean: the statements for the provers. What a command does not name stays: where a
statement gives a frame, KeepsBut names the objects that may change, and SameMem says that every byte of memory reads as before.
-/
open Sys2Proof Sys2Proof.Machine

/-! ## The block as a whole -/

/-- A step takes the command at the front of the queue and runs exec on it with the rest of the queue. -/
def Obligations.StepRunsTheFrontCommand : Prop :=
  ∀ (c : Instr) (rest : List Instr) (s : State), step { s with pending := c :: rest } = exec c { s with pending := rest }

/-- A step on an empty queue idles (the model's choice, log entry 8): memory and the queue stay and no object changes; without power
nothing at all changes, and with power the time base advances by one cycle of 2 ns at its corrected rate (R354). -/
def Obligations.StepIdlesOnAnEmptyQueue : Prop :=
  ∀ s : State, s.pending = [] →
    (s.powered = false → step s = .next s) ∧
    (s.powered = true → ∃ t, step s = .next t ∧ t.mem = s.mem ∧ t.pending = [] ∧ s.KeepsBut t [] ∧ t.q = s.q ∧
      (s.net.ptp.freq = 0 → s.net.ptp.slew = 0 → t.time = s.time + (s.net.ptp.sub + 2000000000) / 1000000000))

/-- Reset leaves every scalar object at its Default (R6; where the spec gives none the model's value, log entry 9), copies included, no
command waiting, nothing in flight, the log ring empty, every context OFF and every core without a tile; memory is empty, in its canonical
form and inside the map (an unlisted byte is the model's choice, log entry 2), and the book-keeping of State.Sound holds. -/
def Obligations.ResetLeavesTheDefaults : Prop :=
  (∀ n, State.reset.get n = objDefault n ∧ State.reset.getS n = objDefault n ∧ State.reset.getP n = objDefault n) ∧
  State.reset.pending = [] ∧ State.reset.mem = [] ∧ State.reset.q.cmds = [] ∧ State.reset.q.pats = [] ∧
  State.reset.q.timers = [] ∧ State.reset.log.recs = [] ∧ State.reset.dict.sessions = [] ∧
  (∀ x : Fin 16, State.reset.get (Obj.ctxState x) = 0) ∧ (∀ k : Fin 32, (State.reset.core k).tile = none) ∧
  (∀ a, State.reset.byte a = Memory.unlisted a) ∧
  State.reset.MemWf ∧ State.reset.MemMapped ∧
  State.reset.Sound

/-- The headline invariant: every step keeps memory in its one canonical form, and keeps it free of bytes outside the device address map
(R18). -/
def Obligations.StepKeepsMemoryCanonical : Prop :=
  ∀ s t : State, s.MemWf → s.MemMapped → step s = .next t → t.MemWf ∧ t.MemMapped

/-- Every step keeps the book-keeping that other statements assume: 32 cores under their own numbers (R120), and commands in flight under
distinct identities that were all given out before (identities are the model's own, log entry 4). -/
def Obligations.StepKeepsTheBookkeeping : Prop :=
  ∀ s t : State, s.Sound → step s = .next t → t.Sound

/-- No command is refused, and the one fault is a write outside the device address map (R18): a command answers a next state exactly when
every write of its work lies in the map. -/
def Obligations.CommandsStopOnlyOutsideTheMap : Prop :=
  ∀ (i : Instr) (s : State), (∀ r, exec i s ≠ .refused r) ∧ ((work i s.work).Sound ↔ Completes (exec i s)) ∧
    (∀ f, exec i s = .fault f → ∃ x ∈ (work i s.work).out, mapped x.addr x.data.length = false ∧ f = .unmapped x.addr)

/-- The memory frame of every command: a byte that no write of its work covers reads as before, and exec leaves the queue of commands
alone. -/
def Obligations.BytesOutsideTheWritesStay : Prop :=
  ∀ (i : Instr) (s t : State), exec i s = .next t →
    t.pending = s.pending ∧
    ∀ a, (∀ x ∈ (work i s.work).out, ¬ (x.addr ≤ a ∧ a < x.addr + x.data.length)) → t.byte a = s.byte a

/-- Device addresses decode as Table 01.5 states (R18): an address has a region exactly when a row of the table holds it, its region is
such a row, and the address lies in it. -/
def Obligations.AddressesDecode : Prop :=
  (∀ a, (regionOf a).isSome = true ↔
    a ≤ 0x006BFFFFFFFF ∨ (0x010000000000 ≤ a ∧ a ≤ 0x01E37FFFFFFF) ∨ (0x020000000000 ≤ a ∧ a ≤ 0x0207FFFFFFFF) ∨
    (0x021000000000 ≤ a ∧ a ≤ 0x021007FFFFFF) ∨
    (∃ n, n < 32 ∧ 0x022000000000 + n * 0x04000000 ≤ a ∧ a ≤ 0x022000000000 + n * 0x04000000 + 0x022FFFFF) ∨
    (0x800000000000 ≤ a ∧ a ≤ 0xFFFFFFFFFFFF)) ∧
  (∀ a r, regionOf a = some r →
    (r.first, r.last) ∈ [(0x000000000000, 0x0035FFFFFFFF), (0x003600000000, 0x006BFFFFFFFF), (0x010000000000, 0x0171BFFFFFFF),
      (0x0171C0000000, 0x01E37FFFFFFF), (0x020000000000, 0x0203FFFFFFFF), (0x020400000000, 0x0207FFFFFFFF),
      (0x021000000000, 0x021003FFFFFF), (0x021004000000, 0x021007FFFFFF), (0x800000000000, 0xFFFFFFFFFFFF)] ∨
    ∃ n, n < 32 ∧ r.first = 0x022000000000 + n * 0x04000000 ∧ r.last = 0x022000000000 + n * 0x04000000 + 0x022FFFFF) ∧
  (∀ a r, regionOf a = some r → r.first ≤ a ∧ a ≤ r.last)

/-! ## Doorbells, contexts and queues -/

/-- A doorbell that passes the checks of R82 sets its register and nothing else; a CQ_HEAD write with no record owed to the queue does the
same. -/
def Obligations.DoorbellsTakeEffect : Prop :=
  (∀ (fn x : Fin 16) (q : Fin 5) (v : Nat) (s : State), fn = 0 ∨ fn = x → s.ready = true → s.get (Obj.ctxState x) ≠ 0 →
    s.q.committed.contains (x.val, q.val) = true →
    sub32 (v % 2 ^ 32) (s.get (Obj.sqTail x q)) ≤ 2 ^ s.get (Obj.sqLog2 x q) →
    sub32 (v % 2 ^ 32) (s.get (Obj.sqHead x q)) ≤ 2 ^ s.get (Obj.sqLog2 x q) →
    ∃ t, exec (.doorbellSqTail fn x q 32 v) s = .next t ∧ t.get (Obj.sqTail x q) = v % 2 ^ 32 ∧
      s.KeepsBut t [Obj.sqTail x q] ∧ s.SameMem t ∧ t.q = s.q) ∧
  (∀ (fn x : Fin 16) (q : Fin 5) (v : Nat) (s : State), fn = 0 ∨ fn = x → s.ready = true → s.get (Obj.ctxState x) ≠ 0 →
    s.q.committed.contains (x.val, q.val) = true →
    sub32 (v % 2 ^ 32) (s.get (Obj.cqHead x q)) ≤ sub32 (s.get (Obj.cqTail x q)) (s.get (Obj.cqHead x q)) →
    s.q.owed.find? (fun o => o.ctx == x.val && o.q == q.val) = none →
    ∃ t, exec (.doorbellCqHead fn x q 32 v) s = .next t ∧ t.get (Obj.cqHead x q) = v % 2 ^ 32 ∧
      s.KeepsBut t [Obj.cqHead x q] ∧ s.SameMem t ∧ t.q = s.q)

/-- An EVT_HOST write of 8 bytes to the writer's own page adds ADD to counter EVT modulo 2^64, from the host side, with no command
involved (R104). -/
def Obligations.HostEventsAdd : Prop :=
  ∀ (fn x : Fin 16) (v : Nat) (s : State), fn = 0 ∨ fn = x → s.ready = true → s.get (Obj.ctxState x) ≠ 0 →
    ∃ t, exec (.evtHost fn x 64 v) s = .next t ∧ s.SameMem t ∧
      t.evt x (bits v 0 8) = (s.evt x (bits v 0 8) + bits v 8 56) % 2 ^ 64 ∧
      (∀ n, n < 256 → n ≠ bits v 0 8 → t.evt x n = s.evt x n) ∧ t.q.cmds.map (fun c => c.id) = s.q.cmds.map (fun c => c.id)

/-- A doorbell write that fails a check of R82 changes no register: it counts in DOORBELL_INVALID_COUNT and is handed to the log. A
function's write to a page that is not its own changes no object. -/
def Obligations.DoorbellsRefused : Prop :=
  (∀ (fn x : Fin 16) (q : Fin 5) (width v : Nat) (s : State), fn = 0 ∨ fn = x → s.ready = true →
    (width ≠ 32 ∨ s.get (Obj.ctxState x) = 0 ∨ s.q.committed.contains (x.val, q.val) = false ∨
      2 ^ s.get (Obj.sqLog2 x q) < sub32 (v % 2 ^ 32) (s.get (Obj.sqTail x q)) ∨
      2 ^ s.get (Obj.sqLog2 x q) < sub32 (v % 2 ^ 32) (s.get (Obj.sqHead x q))) →
    ∃ t, exec (.doorbellSqTail fn x q width v) s = .next t ∧
      t.get Obj.doorbellInvalidCount = min (s.get Obj.doorbellInvalidCount + 1) (maxU 64) ∧
      s.KeepsBut t (Obj.doorbellInvalidCount :: logObjs) ∧ s.SameMem t) ∧
  (∀ (fn x : Fin 16) (q : Fin 5) (width v : Nat) (s : State), fn ≠ 0 → fn ≠ x →
    (∃ t, exec (.doorbellSqTail fn x q width v) s = .next t ∧ s.KeepsBut t [] ∧ s.SameMem t) ∧
    (∃ t, exec (.doorbellCqHead fn x q width v) s = .next t ∧ s.KeepsBut t [] ∧ s.SameMem t) ∧
    (∃ t, exec (.evtHost fn x width v) s = .next t ∧ s.KeepsBut t [] ∧ s.SameMem t))

/-- A taken write to Q_CTRL in a state that allows it: START, STOP and RESUME change the queue's state and no other object (R108). In any
other state, or in RESETTING, the write is clamped to no action and counted. Q_COMMIT makes the staged ring pending and reads 1 (R80,
R497); once the queue is quiet the pending ring is in force, the object reads 0, all four positions are 0 and the ring is committed. -/
def Obligations.QueuesAreControlled : Prop :=
  (∀ (wr : Writer) (x : Fin 16) (q : Fin 5) (s : State), s.takes wr (.own x) (Obj.qCtrl x q) → s.get (Obj.ctxState x) ≠ 3 →
    (s.get (Obj.qState x q) = 0 → ∃ t, exec (.qStart wr x q) s = .next t ∧ t.get (Obj.qState x q) = 1 ∧
      s.KeepsBut t [Obj.qState x q] ∧ s.SameMem t ∧ t.q = s.q) ∧
    (s.get (Obj.qState x q) = 1 → ∃ t, exec (.qStop wr x q) s = .next t ∧ t.get (Obj.qState x q) = 0 ∧
      s.KeepsBut t [Obj.qState x q] ∧ s.SameMem t ∧ t.q = s.q) ∧
    (s.get (Obj.qState x q) = 2 → ∃ t, exec (.qResume wr x q) s = .next t ∧ t.get (Obj.qState x q) = 1 ∧
      s.KeepsBut t [Obj.qState x q] ∧ s.SameMem t ∧ t.q = s.q) ∧
    (s.get (Obj.qState x q) ≠ 1 → s.curPat? x q = none → s.q.flushing.contains (x.val, q.val) = false →
      (opQFlush wr x q s.work).Sound → s.get (Obj.qState x q) ≤ 2 →
      ∃ t, exec (.qFlush wr x q) s = .next t ∧ t.get (Obj.sqHead x q) = s.get (Obj.sqTail x q))) ∧
  (∀ (wr : Writer) (x : Fin 16) (q : Fin 5) (s : State), s.takes wr (.own x) (Obj.qCtrl x q) → s.get (Obj.qState x q) ≠ 0 →
    ∃ t, exec (.qStart wr x q) s = .next t ∧ t.get (Obj.qState x q) = s.get (Obj.qState x q) ∧
      t.get Obj.clampCount = min (s.get Obj.clampCount + 1) (maxU 64) ∧ s.KeepsBut t (Obj.clampCount :: logObjs) ∧ s.SameMem t) ∧
  (∀ (wr : Writer) (x : Fin 16) (q : Fin 5) (s : State), s.takes wr (.own x) (Obj.qCommit x q) → s.get (Obj.qCommit x q) ≠ 1 →
    ∃ t, exec (.qCommit wr x q) s = .next t ∧ t.get (Obj.qCommit x q) = 1 ∧ s.KeepsBut t [Obj.qCommit x q] ∧ s.SameMem t ∧
      (∀ n ∈ ringGroup x q, t.getP n = s.getS n) ∧ (∀ n, n ∉ ringGroup x q → t.getP n = s.getP n)) ∧
  (∀ (x : Fin 16) (q : Fin 5) (s : State), s.get (Obj.qCommit x q) = 1 → s.inflight x q = 0 →
    s.q.pats.any (fun p => p.ctx == x.val && p.q == q.val) = false →
    s.q.owed.any (fun o => o.ctx == x.val && o.q == q.val) = false →
    (s.get (Obj.qState x q) = 0 ∨ s.get (Obj.qState x q) = 1 ∧ s.get (Obj.sqHead x q) = s.get (Obj.sqTail x q)) →
    ∃ t, exec (.qCommitApply x q) s = .next t ∧ t.get (Obj.qCommit x q) = 0 ∧ t.get (Obj.sqHead x q) = 0 ∧
      t.get (Obj.sqTail x q) = 0 ∧ t.get (Obj.cqTail x q) = 0 ∧ t.get (Obj.cqHead x q) = 0 ∧
      (∀ n ∈ ringGroup x q, t.get n = s.getP n) ∧ t.q.committed.contains (x.val, q.val) = true ∧ s.SameMem t)

/-- CTX_CTRL (R78, R79): RESUME leaves HALTED for ACTIVE and ENABLE leaves OFF for ACTIVE with every committed queue RUNNING; DISABLE
marks the context, never context 0, and it enters OFF once nothing of it is in flight. CTX_COMMIT puts class, home die and fault scope in
force at once. -/
def Obligations.ContextControl : Prop :=
  (∀ (wr : Writer) (x : Fin 16) (s : State), s.takes wr (.own x) (Obj.ctxCtrl x) → s.q.disabling.contains x.val = false →
    (s.get (Obj.ctxState x) = 0 → (opCtxEnable wr x s.work).Sound →
      ∃ t, exec (.ctxEnable wr x) s = .next t ∧ t.get (Obj.ctxState x) = 1) ∧
    (s.get (Obj.ctxState x) = 2 → ∃ t, exec (.ctxResume wr x) s = .next t ∧ t.get (Obj.ctxState x) = 1 ∧ s.SameMem t) ∧
    (x ≠ 0 → s.get (Obj.ctxState x) = 1 ∨ s.get (Obj.ctxState x) = 2 → (opCtxDisable wr x s.work).Sound →
      ∃ t, exec (.ctxDisable wr x) s = .next t ∧ t.q.disabling.contains x.val = true)) ∧
  (∀ (x : Fin 16) (s : State), s.get (Obj.ctxState x) ≠ 3 → s.q.disabling.contains x.val = true →
    s.q.cmds.any (fun c => c.ctx == x.val) = false → s.bob.streams.any (fun t => t.ctx == x.val && t.cap.isSome) = false →
    (opCtxDisableDone x s.work).Sound →
    ∃ t, exec (.ctxDisableDone x) s = .next t ∧ t.get (Obj.ctxState x) = 0 ∧ t.q.disabling.contains x.val = false) ∧
  (∀ (wr : Writer) (x : Fin 16) (s : State), s.takes wr (.own x) (Obj.ctxCommit x) →
    ∃ t, exec (.ctxCommit wr x) s = .next t ∧ t.get (Obj.ctxClass x) = s.getS (Obj.ctxClass x) ∧
      t.get (Obj.homeDie x) = s.getS (Obj.homeDie x) ∧ t.get (Obj.faultScope x) = s.getS (Obj.faultScope x) ∧ s.SameMem t)

/-- Admission and start (R83 to R87): a pattern that is due takes the next submission entry and joins the queue's patterns; the command
that is next and may start is put in flight with the words fetched for it; a lapsed pattern is counted and starts none of its commands
(R86), also on a queue whose admission is paused (R411). COMMAND_COMPLETE (R88): a command whose work has ended leaves flight. -/
def Obligations.PatternsAndCommandsRun : Prop :=
  (∀ (x : Fin 16) (q : Fin 5) (d : Nat) (s : State), s.admitDue x q = true → s.paused x = false → s.work.sqDesc x q = .ok d →
    s.lapsed (pDeadline d) = false → pNcmd d ≠ 0 →
    ∃ t, exec (.patternAdmit x q) s = .next t ∧ t.get (Obj.sqHead x q) = (s.get (Obj.sqHead x q) + 1) % 2 ^ 32 ∧ s.SameMem t ∧
      ∃ p ∈ t.q.pats, p.ctx = x.val ∧ p.q = q.val ∧ p.idx = s.get (Obj.sqHead x q) ∧ p.ncmd = pNcmd d ∧ p.tag = pTag d ∧ p.next = 0) ∧
  (∀ (x : Fin 16) (q : Fin 5) (p : Pattern) (s : State), s.curPat? x q = some p → s.startOk p = true → p.bad = none →
    p.released = true ∨ cWait p.head = false →
    ∃ t, exec (.commandStart x q) s = .next t ∧ s.SameMem t ∧
      ∃ c ∈ t.q.cmds, c.pid = p.pid ∧ c.ctx = p.ctx ∧ c.q = p.q ∧ c.idx = p.next ∧ c.raw = p.head ∧ c.start = s.time) ∧
  (∀ (x : Fin 16) (q : Fin 5) (d : Nat) (s : State), s.admitDue x q = true → s.paused x = true → s.work.sqDesc x q = .ok d →
    s.lapsed (pDeadline d) = true → (opAdmitPauseTick x q s.work).Sound →
    ∃ t, exec (.admitPauseTick x q) s = .next t ∧ t.get (Obj.sqHead x q) = (s.get (Obj.sqHead x q) + 1) % 2 ^ 32 ∧
      t.get (Obj.deadlineMissCount x) = min (s.get (Obj.deadlineMissCount x) + 1) (maxU 64)) ∧
  (∀ (id : Nat) (c : Cmd) (d : Done) (s : State), s.cmd? id = some c → c.done = some d → cOpcode c.raw ≠ 0x22 →
    s.get (Obj.ctxState c.ctx) ≠ 3 → (opCommandComplete id s.work).Sound →
    ∃ t, exec (.commandComplete id) s = .next t ∧ t.cmd? id = none)

/-- The control commands end as Table 03.11 says (R98): NOP with nothing, EVT_SIGNAL after its counter was added to or set, EVT_WAIT and
FENCE once their conditions hold, TIMER_ARM with its timer armed or disarmed, YIELD after the slice was given up. WRITE_IMM writes the 8
bytes of VALUE at the address that its ADDR translates to and leaves every other byte alone; where translation fails it writes nothing and
ends with that status. -/
def Obligations.ControlCommandsEnd : Prop :=
  (∀ (id : Nat) (c : Cmd) (s : State), s.running id 0x00 = some c →
    ∃ t, exec (.nop id) s = .next t ∧ t.endOf id = some ⟨0, 0, c.conv, c.r1, c.r2⟩ ∧ s.KeepsBut t [] ∧ s.SameMem t) ∧
  (∀ (id : Nat) (c : Cmd) (s : State), s.control id 0x01 = some c →
    ∃ t, exec (.evtSignal id) s = .next t ∧ t.endOf id = some ⟨0, 0, c.conv, c.r1, c.r2⟩ ∧ s.SameMem t ∧
      t.evt c.ctx (kEvt c.raw) =
        if kMode c.raw then kValue c.raw % 2 ^ 64 else (s.evt c.ctx (kEvt c.raw) + kValue c.raw) % 2 ^ 64) ∧
  (∀ (id : Nat) (c : Cmd) (s : State), s.control id 0x02 = some c →
    (c.released = true ∨ kValue c.raw ≤ s.evt c.ctx (kEvt c.raw) →
      ∃ t, exec (.evtWait id) s = .next t ∧ t.endOf id = some ⟨0, 0, c.conv, c.r1, c.r2⟩ ∧ s.KeepsBut t [] ∧ s.SameMem t) ∧
    (c.released = false → s.evt c.ctx (kEvt c.raw) < kValue c.raw →
      ∃ t, exec (.evtWait id) s = .next t ∧ t.endOf id = none ∧ s.KeepsBut t [] ∧ s.SameMem t)) ∧
  (∀ (id : Nat) (c : Cmd) (s : State), s.control id 0x03 = some c → (∀ p ∈ c.fence, s.postedTo c.ctx p.1 p.2 = true) →
    ∃ t, exec (.fence id) s = .next t ∧ t.endOf id = some ⟨0, 0, c.conv, c.r1, c.r2⟩ ∧ s.KeepsBut t [] ∧ s.SameMem t) ∧
  (∀ (id : Nat) (c : Cmd) (s : State), s.control id 0x04 = some c →
    ∃ t, exec (.timerArm id) s = .next t ∧ t.endOf id = some ⟨0, 0, c.conv, c.r1, c.r2⟩ ∧ s.KeepsBut t [] ∧ s.SameMem t ∧
      t.q.timers.filter (fun u => u.ctx == c.ctx && u.i == kTimer c.raw) =
        (match kTmode c.raw with
         | 0 => []
         | 1 => [⟨c.ctx, kTimer c.raw, kTevt c.raw, kValue c.raw, 0⟩]
         | 2 => [⟨c.ctx, kTimer c.raw, kTevt c.raw, s.time + kValue c.raw, 0⟩]
         | _ => [⟨c.ctx, kTimer c.raw, kTevt c.raw, s.time + kValue c.raw, kValue c.raw⟩])) ∧
  (∀ (id : Nat) (c : Cmd) (s : State), s.control id 0x06 = some c →
    ∃ t, exec (.yield id) s = .next t ∧ t.endOf id = some ⟨0, 0, c.conv, c.r1, c.r2⟩ ∧ s.SameMem t) ∧
  (∀ (id a : Nat) (c : Cmd) (s : State), s.control id 0x05 = some c → s.xlate c.ctx c.segs (kAddr c.raw) 8 .write = .ok a →
    mapped a 8 = true →
    ∃ t, exec (.writeImm id) s = .next t ∧ t.endOf id = some ⟨0, 0, c.conv, c.r1, c.r2⟩ ∧
      (∀ i, i < 8 → t.byte (a + i) = BitVec.ofNat 8 (bits (kValue c.raw) (8 * i) 8)) ∧
      (∀ b, b < a ∨ a + 8 ≤ b → t.byte b = s.byte b) ∧ s.KeepsBut t []) ∧
  (∀ (id st d : Nat) (c : Cmd) (s : State), s.control id 0x05 = some c →
    s.xlate c.ctx c.segs (kAddr c.raw) 8 .write = .error (st, d) →
    ∃ t, exec (.writeImm id) s = .next t ∧ t.endOf id = some ⟨st, d, c.conv, c.r1, c.r2⟩ ∧ s.SameMem t ∧ s.KeepsBut t [])

/-- STEP_MARK (R103): once no other queue holds a command in flight, and no mirror is due, STEP_NUM takes the value set, or one more
modulo 2^64. An EVT_WAIT past its timeout ends with WAIT_TIMEOUT and its counter, and a STEP_MARK that WAIT_TMO has passed over ends with
WAIT_TIMEOUT (R100); a due timer adds 1 to its counter, and one that is not periodic is gone (R102). -/
def Obligations.StepMarksAndTimers : Prop :=
  (∀ (id : Nat) (c : Cmd) (s : State), s.control id 0x07 = some c → c.ctx < 16 → (∀ q, q < 4 → s.inflight c.ctx q = 0) →
    (s.work.mirApply c.ctx).mirrors c.ctx = false → (opStepMark id s.work).Sound →
    ∃ t, exec (.stepMark id) s = .next t ∧
      t.get (Obj.stepNum c.ctx) = if kSet c.raw then kValue c.raw else (s.get (Obj.stepNum c.ctx) + 1) % 2 ^ 64) ∧
  (∀ (x : Fin 16) (c : Cmd) (s : State),
    s.q.cmds.find? (fun c => c.ctx == x.val && c.q == 4 && true && c.done.isNone
      && (cOpcode c.raw == 0x02 || cOpcode c.raw == 0x03)) = some c →
    cOpcode c.raw = 0x02 → c.released = false → (∀ e ∈ s.q.cmds, e.id = c.id → e = c) →
    (if kTimeout c.raw = 0 then s.get (Obj.waitTmo x) * 1000 else kTimeout c.raw * 1000) < s.since c.since →
    ∃ t, exec (.waitTimeout x 4) s = .next t ∧ t.endOf c.id = some ⟨0x0215, kEvt c.raw, c.conv, c.r1, c.r2⟩ ∧
      s.KeepsBut t [] ∧ s.SameMem t) ∧
  (∀ (x : Fin 16) (c : Cmd) (s : State),
    s.q.cmds.find? (fun c => c.ctx == x.val && c.q == 4 && cOpcode c.raw == 0x07 && c.done.isNone && !c.begun) = some c →
    (∀ e ∈ s.q.cmds, e.id = c.id → e = c) → (∃ q, q < 4 ∧ s.inflight x q ≠ 0) →
    s.get (Obj.waitTmo x) * 1000 ≤ s.since c.start →
    ∃ t, exec (.stepMarkTimeout x) s = .next t ∧ t.endOf c.id = some ⟨0x0215, 0xFFFFFFFF, c.conv, c.r1, c.r2⟩ ∧
      s.KeepsBut t [] ∧ s.SameMem t) ∧
  (∀ (x : Fin 16) (n : Fin 8) (u : Timer) (s : State),
    s.q.timers.find? (fun u => u.ctx == x.val && u.i == n.val) = some u → u.due ≤ s.time →
    ∃ t, exec (.timerFire x n) s = .next t ∧ t.evt x u.evt = (s.evt x u.evt + 1) % 2 ^ 64 ∧ s.SameMem t ∧
      (u.period = 0 → t.q.timers = s.q.timers.erase u))

/-- SEG_TABLE_WRITE changes staged bytes only, SEG_COMMIT makes the staged table pending, and it is in force once every engine is past a
command boundary (R30 to R32); PRIV takes its bit, with at most four contexts privileged, while the context is OFF (R74). -/
def Obligations.SegmentTables : Prop :=
  (∀ (wr : Writer) (x : Fin 16) (off : Nat) (data : List Byte) (s : State),
    s.takes wr (.privCtx x) (Obj.segTable x) →
    ∃ t, exec (.segTableWrite wr x off data) s = .next t ∧ s.SameMem t ∧ t.segTable .pending x = s.segTable .pending x ∧
      (1024 < off + data.length → t.blobS = s.blobS) ∧ (∀ n, n ∉ Obj.clampCount :: logObjs → t.get n = s.get n)) ∧
  (∀ (wr : Writer) (x : Fin 16) (s : State), s.takes wr (.privCtx x) (Obj.segCommit x) → s.get (Obj.segCommit x) = 0 →
    ∃ t, exec (.segCommit wr x) s = .next t ∧ t.get (Obj.segCommit x) = 1 ∧ s.SameMem t ∧
      s.KeepsBut t (Obj.segCommit x :: Obj.clampCount :: logObjs)) ∧
  (∀ (x : Fin 16) (s : State), s.get (Obj.segCommit x) = 1 → s.segsTaken x = true → s.spilling x = false →
    ∃ t, exec (.segCommitApplied x) s = .next t ∧ t.get (Obj.segCommit x) = 0 ∧ s.KeepsBut t [Obj.segCommit x] ∧ s.SameMem t) ∧
  (∀ (wr : Writer) (x : Fin 16) (v : Nat) (s : State), s.takes wr .host (Obj.priv x) →
    ∃ t, exec (.privWrite wr x v) s = .next t ∧ t.get (Obj.priv x) = s.privHeld x (v % 2) ∧ s.SameMem t ∧
      s.KeepsBut t (Obj.priv x :: Obj.clampCount :: logObjs))

/-! ## Bobbin: copies, prefetch buffers, streams and packing -/

/-- COPY (R95): where a range fails translation the command ends with that status and writes nothing; otherwise it ends with OK or POISON
(R63). A RAW copy of one row moves its bytes unchanged, whatever the two ranges hold, and changes no other byte. -/
def Obligations.CopyMovesBytes : Prop :=
  (∀ (id st d : Nat) (c : Cmd) (s : State), s.running id 0x20 = some c → s.copyAddrs (s.copyJob c) = .error (st, d) →
    ∃ t, exec (.copy id) s = .next t ∧ t.endOf id = some ⟨st, d, c.conv, c.r1, c.r2⟩ ∧ s.SameMem t ∧ s.KeepsBut t []) ∧
  (∀ (id : Nat) (c : Cmd) (a : CopyAddrs) (s : State), s.running id 0x20 = some c → s.copyAddrs (s.copyJob c) = .ok a →
    (opCopy id s.work).Sound →
    ∃ t e, exec (.copy id) s = .next t ∧ t.endOf id = some e ∧ (e.status = 0 ∨ e.status = 0x0411) ∧ e.detail = 0) ∧
  (∀ (id : Nat) (c : Cmd) (a : CopyAddrs) (s : State), s.running id 0x20 = some c → s.copyAddrs (s.copyJob c) = .ok a →
    cSrcFmt (bConv c.raw) = .raw → bRows c.raw = 1 → mapped (a.dst.getD 0 0) (bCount c.raw) = true →
    ∃ t, exec (.copy id) s = .next t ∧ t.endOf id = some ⟨0, 0, c.conv, c.r1, c.r2⟩ ∧
      (∀ k, k < bCount c.raw → t.byte (a.dst.getD 0 0 + k) = s.byte (a.src.getD 0 0 + k)) ∧
      (∀ b, b < a.dst.getD 0 0 ∨ a.dst.getD 0 0 + bCount c.raw ≤ b → t.byte b = s.byte b))

/-- PREFETCH starts fill n of its buffer and counts it modulo 2^32, or ends with the status of the check that fails; CANCEL raises the
buffer's generation modulo 256, restarts its fills at 0 and takes the release counter's present value as its base, or ends with
FIELD_INVALID where its buffer is not its own (R244, R246). A sector that lands for a live fill is written at its place in the buffer and
nowhere else; one that could not be corrected writes nothing (R244, R277). A PREFETCH that has waited past WAIT_TMO for its buffer ends
with WAIT_TIMEOUT and the release counter's number (R245). PB_COMMIT makes the staged group of its buffer pending; the pending group is in
force once nothing uses the buffer, with fill 0 and all credits free (R242). -/
def Obligations.PrefetchBuffersFill : Prop :=
  (∀ (id : Nat) (c : Cmd) (s : State), s.running id 0x21 = some c → c.begun = false →
    (∀ e, s.pfCheck (pfJob c) cmdBits 464 = some e →
      ∃ t, exec (.prefetch id) s = .next t ∧ t.endOf id = some ⟨e.1, e.2, c.conv, c.r1, c.r2⟩ ∧ s.SameMem t ∧ s.KeepsBut t []) ∧
    (s.pfCheck (pfJob c) cmdBits 464 = none →
      ∃ t, exec (.prefetch id) s = .next t ∧ t.endOf id = none ∧ s.SameMem t ∧
        t.get (Obj.pbFill (bPbuf c.raw)) = (s.get (Obj.pbFill (bPbuf c.raw)) + 1) % 2 ^ 32 ∧
        t.bob.fills.any (fun f => f.cmd == some id && f.buf == some (bPbuf c.raw) && f.n == s.get (Obj.pbFill (bPbuf c.raw))))) ∧
  (∀ (id : Nat) (c : Cmd) (s : State), s.running id 0x22 = some c → c.begun = false →
    (64 ≤ bPbuf c.raw ∨ s.get (Obj.pbOwner (bPbuf c.raw)) ≠ c.ctx →
      ∃ t, exec (.cancel id) s = .next t ∧ t.endOf id = some ⟨0x0211, 464, c.conv, c.r1, c.r2⟩ ∧ s.SameMem t ∧ s.KeepsBut t []) ∧
    (bPbuf c.raw < 64 → s.get (Obj.pbOwner (bPbuf c.raw)) = c.ctx → (opCancel id s.work).Sound →
      ∃ t, exec (.cancel id) s = .next t ∧ t.get (Obj.pbGen (bPbuf c.raw)) = (s.get (Obj.pbGen (bPbuf c.raw)) + 1) % 256 ∧
        t.get (Obj.pbFill (bPbuf c.raw)) = 0)) ∧
  (∀ (id n k : Nat) (f : Fill) (c : Chunk) (s : State), s.work.fill? id = some f → f.chunks[n]? = some c → c.issued = true →
    k < c.sectors f.base → c.landed.contains k = false → f.buf.isSome = true → s.get (Obj.pbGen (f.buf.getD 0)) = f.gen →
    mapped (f.base + c.off + (c.piece f.base k).1) (c.piece f.base k).2 = true →
    ∃ t, exec (.bobbinSectorLand id n k .ok) s = .next t ∧
      (∀ j, j < (c.piece f.base k).2 →
        t.byte (f.base + c.off + (c.piece f.base k).1 + j) = s.byte (c.src + (c.piece f.base k).1 + j)) ∧
      (∀ b, b < f.base + c.off + (c.piece f.base k).1 ∨ f.base + c.off + (c.piece f.base k).1 + (c.piece f.base k).2 ≤ b →
        t.byte b = s.byte b)) ∧
  (∀ (id n k : Nat) (f : Fill) (s : State), s.work.fill? id = some f →
    ∃ t, exec (.bobbinSectorLand id n k .uncorrectable) s = .next t ∧ s.SameMem t) ∧
  (∀ (id b : Nat) (f : Fill) (c : Cmd) (s : State),
    s.bob.fills.find? (fun f => f.cmd == some id && !f.passed && !f.stopped) = some f → f.buf = some b → b < 64 →
    s.cmd? id = some c → c.done = none → s.get (Obj.waitTmo f.ctx) * 1000 < s.since f.since →
    ∃ t, exec (.prefetchWaitTimeout id) s = .next t ∧ s.SameMem t ∧
      t.endOf id = some ⟨0x0215, s.get (Obj.pbRelEvt b), c.conv, c.r1, c.r2⟩ ∧ (∀ g ∈ t.bob.fills, g.id ≠ f.id)) ∧
  (∀ (wr : Writer) (b : Fin 64) (s : State), s.takes wr .priv (Obj.pbCommit b) → s.get (Obj.pbCommit b) ≠ 1 →
    ∃ t, exec (.pbCommit wr b) s = .next t ∧ t.get (Obj.pbCommit b) = 1 ∧ s.KeepsBut t [Obj.pbCommit b] ∧ s.SameMem t ∧
      (∀ n ∈ pbGroup b, t.getP n = s.getS n)) ∧
  (∀ (b : Fin 64) (s : State), s.get (Obj.pbCommit b) = 1 → s.pbBusy b = false →
    ∃ t, exec (.pbCommitApply b) s = .next t ∧ s.SameMem t ∧ t.get (Obj.pbCommit b) = 0 ∧ t.get (Obj.pbFill b) = 0 ∧
      t.get (Obj.pbCreditsFree b) = t.pbCredits b ∧ t.get (Obj.pbNslot b) = s.getP (Obj.pbNslot b) ∧
      t.get (Obj.pbSlotKib b) = s.getP (Obj.pbSlotKib b) ∧ t.get (Obj.pbBase b) = s.getP (Obj.pbBase b) ∧
      (t.get (Obj.pbOwner b) = s.getP (Obj.pbOwner b) ∨ t.get (Obj.pbOwner b) = 0xFF))

/-- STREAM_REARM while a transfer is in flight leaves the descriptor pending, and a second one counts as collapsed; while none is, a null
descriptor leaves the stream IDLE at transfer 0 (R250, R251). A trigger moves an armed stream to its transfer or to FAULT; a transfer's
end counts it; a missed deadline counts once (R252, R253). PACK_COMMIT puts the staged region in force at once while Bobbin has no command
and no transfer of the context, and otherwise leaves it pending (R255). -/
def Obligations.StreamsAndPackRegions : Prop :=
  (∀ (wr : Writer) (x : Fin 16) (n : Fin 8) (s : State), s.takes wr (.own x) (Obj.streamRearm x n) →
    (s.get (Obj.streamState x n) = 2 →
      ∃ t, exec (.streamRearm wr x n) s = .next t ∧ t.get (Obj.streamPending x n) = 1 ∧ t.get (Obj.streamState x n) = 2 ∧
        s.SameMem t ∧ t.get (Obj.rearmCollapsed x) = if s.get (Obj.streamPending x n) = 1
          then min (s.get (Obj.rearmCollapsed x) + 1) (maxU 64) else s.get (Obj.rearmCollapsed x)) ∧
    (s.get (Obj.streamState x n) ≠ 2 → sKind (s.blobNat .active (Obj.streamShadow x n) 0 64) = 0 →
      ∃ t, exec (.streamRearm wr x n) s = .next t ∧ t.get (Obj.streamPending x n) = 0 ∧ t.get (Obj.streamState x n) = 0 ∧
        t.get (Obj.streamXfer x n) = 0 ∧ s.SameMem t)) ∧
  (∀ (x : Fin 16) (n : Fin 8) (r : Stream) (s : State), s.stream? x n = some r → s.get (Obj.streamState x n) = 1 →
    r.trig.isSome = true → s.get (Obj.ctxState x) = 1 → s.spilling x = false →
    s.instReset (s.streamInst x n (s.streamDesc x n)) = false →
    ∃ t, exec (.streamTrigger x n) s = .next t ∧ s.SameMem t ∧
      (t.get (Obj.streamState x n) = 2 ∨ t.get (Obj.streamState x n) = 4)) ∧
  (∀ (x : Fin 16) (n : Fin 8) (r : Stream) (p : StreamCap) (f : Fill) (s : State), s.stream? x n = some r → r.cap = some p →
    sKind (s.streamDesc x n) = 2 → s.bob.fills.find? (fun f => f.ctx == x.val && f.stream == some n.val) = some f →
    f.chunks.all (fun c => c.whole f.base) = true → f.stopped = false → f.status = 0 → s.get (Obj.streamPending x n) = 0 →
    (opStreamXferDone x n s.work).Sound →
    ∃ t, exec (.streamXferDone x n) s = .next t ∧ t.get (Obj.streamXfer x n) = (s.get (Obj.streamXfer x n) + 1) % 2 ^ 32) ∧
  (∀ (x : Fin 16) (n : Fin 8) (r : Stream) (t0 : Nat) (s : State), s.stream? x n = some r → r.trig = some t0 →
    sNeed (s.streamDesc x n) ≠ 0 → r.missed = false → t0 + sNeed (s.streamDesc x n) ≤ s.time →
    ∃ t, exec (.streamDeadlineMiss x n) s = .next t ∧ s.SameMem t ∧
      t.get (Obj.streamMissCount x) = min (s.get (Obj.streamMissCount x) + 1) (maxU 64)) ∧
  (∀ (wr : Writer) (x : Fin 16) (r : Fin 4) (s : State), s.takes wr (.own x) (Obj.packCommit x r) →
    ∃ t, exec (.packCommit wr x r) s = .next t ∧ s.SameMem t ∧
      (s.bobbinIdle x = true → t.get (Obj.packCommit x r) = 0 ∧ ∀ n ∈ packGroup x r, t.get n = s.getS n) ∧
      (s.bobbinIdle x = false → t.get (Obj.packCommit x r) = 1 ∧ s.KeepsBut t [Obj.packCommit x r] ∧
        ∀ n ∈ packGroup x r, t.getP n = s.getS n))

/-! ## External memory -/

/-- A sector read or scrubbed (R238, R274 to R278): one without an error changes nothing; an uncorrectable one counts in UE_EXT when a
read meets it; an error that the code corrects counts, and the scrub that is not overtaken by a write removes it; the near-memory scrub of
a word without an error changes nothing. -/
def Obligations.SectorsAreCorrected : Prop :=
  (∀ (r : Agent) (a : Nat) (p : ExtPlace) (s : State), a % 32 = 0 → extPlace a = some p → s.sectorErrs a = [] →
    s.ext.ue.contains a = false →
    (∃ t, exec (.extReadReturn r a []) s = .next t ∧ s.KeepsBut t [] ∧ s.SameMem t) ∧
    (∃ t, exec (.extScrub a [] false) s = .next t ∧ s.KeepsBut t [] ∧ s.SameMem t)) ∧
  (∀ (r : Agent) (a : Nat) (p : ExtPlace) (flips : List (Nat × Nat)) (s : State), a % 32 = 0 → extPlace a = some p →
    s.ext.ue.contains a = true → (opExtReadReturn r a flips s.work).Sound →
    ∃ t, exec (.extReadReturn r a flips) s = .next t ∧
      (r = .other → t.get Obj.ueExt = min (s.get Obj.ueExt + 1) (maxU 64) ∧ s.SameMem t)) ∧
  (∀ (a : Nat) (p : ExtPlace) (flips v : List (Nat × Nat)) (s : State), a % 32 = 0 → extPlace a = some p →
    (s.work.decodeSector p a flips).1 = .fixed v →
    ∃ t, exec (.extScrub a flips false) s = .next t ∧ t.sectorErrs a = [] ∧ s.SameMem t ∧
      (p.tier = 0 → t.get Obj.ceFast = min (s.get Obj.ceFast + 1) (maxU 64)) ∧
      (p.tier ≠ 0 → t.get Obj.ceSlow = min (s.get Obj.ceSlow + 1) (maxU 64))) ∧
  (∀ (a : Nat) (s : State), 0x020000000000 ≤ a → a < 0x020800000000 →
    (∃ t, exec (.nearScrub a .ok) s = .next t ∧ s.KeepsBut t [] ∧ s.SameMem t) ∧
    (∃ t, exec (.nearScrub a .corrected) s = .next t ∧ s.KeepsBut t [Obj.ceNear] ∧ s.SameMem t ∧
      t.get Obj.ceNear = min (s.get Obj.ceNear + 1) (maxU 64)) ∧
    (∃ t, exec (.nearScrub a .uncorrectable) s = .next t ∧ s.KeepsBut t (Obj.ueCount :: logObjs) ∧ s.SameMem t ∧
      t.get Obj.ueCount = min (s.get Obj.ueCount + 1) (maxU 64)))

/-- A partial write to a controlled line opens an entry of its couching buffer, and its bytes read back at once (R24, R279, R280); a full
buffer takes no new entry (R283); a write to other memory goes through; no other byte changes. A whole entry retires and leaves its buffer
without a read (R281); one that is not whole, not held long enough, not the oldest of a draining buffer and not retired for a reset stays. -/
def Obligations.CouchingBuffers : Prop :=
  (∀ (x : Fin 16) (a ctl : Nat) (d : List Byte) (s : State), 0 < d.length → d.length ≤ 128 - a % 128 → mapped a d.length = true →
    controllerOf a = some ctl → s.couch? ctl (a / 128) = none → a % 128 % codewordBytes ctl ≠ 0 →
    (s.ext.couch.filter (fun e => e.ctl == ctl)).length < couchSize ctl →
    ∃ t, exec (.couchWrite x a d) s = .next t ∧ (t.couch? ctl (a / 128)).isSome = true ∧
      (∀ k, k < d.length → t.byte (a + k) = d.getD k 0#8) ∧ (∀ b, b < a ∨ a + d.length ≤ b → t.byte b = s.byte b)) ∧
  (∀ (x : Fin 16) (a ctl : Nat) (d : List Byte) (s : State), d.length ≤ 128 - a % 128 → controllerOf a = some ctl →
    s.couch? ctl (a / 128) = none → a % 128 % codewordBytes ctl ≠ 0 →
    couchSize ctl ≤ (s.ext.couch.filter (fun e => e.ctl == ctl)).length →
    ∃ t, exec (.couchWrite x a d) s = .next t ∧ t.ext.couch = s.ext.couch ∧ s.SameMem t ∧ s.KeepsBut t []) ∧
  (∀ (x : Fin 16) (a : Nat) (d : List Byte) (s : State), 0 < d.length → d.length ≤ 128 - a % 128 → mapped a d.length = true →
    controllerOf a = none →
    ∃ t, exec (.couchWrite x a d) s = .next t ∧ t.ext.couch = s.ext.couch ∧ s.KeepsBut t [] ∧
      (∀ k, k < d.length → t.byte (a + k) = d.getD k 0#8) ∧ (∀ b, b < a ∨ a + d.length ≤ b → t.byte b = s.byte b)) ∧
  (∀ (ctl : Fin 22) (line : Nat) (bad : List Nat) (rst : Bool) (e : Couch) (s : State), s.couch? ctl line = some e →
    e.valid = 2 ^ 128 - 1 →
    ∃ t, exec (.couchRetire ctl line bad rst) s = .next t ∧ t.couch? ctl line = none ∧ s.SameMem t ∧ s.KeepsBut t []) ∧
  (∀ (ctl : Fin 22) (line : Nat) (bad : List Nat) (e : Couch) (s : State), s.couch? ctl line = some e →
    e.valid ≠ 2 ^ 128 - 1 → s.since e.time < e.hold → s.ext.draining.contains ctl.val = false →
    ∃ t, exec (.couchRetire ctl line bad false) s = .next t ∧ t.ext.couch = s.ext.couch ∧ s.SameMem t ∧ s.KeepsBut t [])

/-- The tension regulators (R284 to R286): a request that its cap does not hold counts its bytes in whole sectors; a held one joins the
queue of its regulator; the oldest leaves it once the cap allows; every 10 µs the shares are taken anew and the requests of the interval
start at 0. -/
def Obligations.RegulatorsMeter : Prop :=
  (∀ (x : Fin 16) (k : Fin 3) (h : Fin 2) (n : Nat) (tb : Bool) (s : State),
    (s.regHolds (s.refill (s.reg x k h)) tb = false →
      ∃ t, exec (.regulatorRequest x k h n tb) s = .next t ∧ s.SameMem t ∧
        t.get (Obj.tierBytes x k) = min (s.get (Obj.tierBytes x k) + ceilDiv n 32 * 32) (maxU 64) ∧
        s.KeepsBut t [Obj.tierBytes x k, Obj.guarBytes x k]) ∧
    (s.regHolds (s.refill (s.reg x k h)) tb = true →
      ∃ t, exec (.regulatorRequest x k h n tb) s = .next t ∧ s.SameMem t ∧ s.KeepsBut t [] ∧
        (t.reg x k h).held = (s.reg x k h).held ++ [(ceilDiv n 32 * 32, s.time)])) ∧
  (∀ (x : Fin 16) (k : Fin 3) (h : Fin 2) (n since : Nat) (rest : List (Nat × Nat)) (s : State),
    (s.reg x k h).held = (n, since) :: rest → s.regHolds (s.refill (s.reg x k h)) false = false →
    ∃ t, exec (.regulatorRetry x k h) s = .next t ∧ s.SameMem t ∧ (t.reg x k h).held = rest ∧
      t.get (Obj.heldNs x k) = min (s.get (Obj.heldNs x k) + s.since since) (maxU 64)) ∧
  (∀ s : State, 10000 ≤ s.since s.ext.shareAt →
    ∃ t, exec .regulatorShareUpdate s = .next t ∧ s.SameMem t ∧ s.KeepsBut t [] ∧ t.ext.shareAt = s.time ∧
      ∀ r ∈ t.ext.regs, r.req = 0)

/-- A spill pool inside the slow tier is taken as written while nothing of it is in use (R295); a request that must not be met leaves
REFUSED with its reason and moves nothing, and one that is met is in progress (R296, R298). The copy leaves every byte of the segment at
its new place and says DONE with result 0 (R297); a hold past WAIT_TMO ends it with result 6 and moves nothing. -/
def Obligations.SegmentsSpill : Prop :=
  (∀ (wr : Writer) (s : State), s.takes wr .priv Obj.spillPoolCommit → s.ext.pool = [] →
    inSlow (s.getS Obj.spillPoolBase) (s.getS Obj.spillPoolLen) = true → s.getS Obj.spillPoolBase < 0x01E380000000 →
    ∃ t, exec (.spillPoolCommit wr) s = .next t ∧ s.SameMem t ∧ t.get Obj.spillPoolBase = s.getS Obj.spillPoolBase ∧
      t.get Obj.spillPoolLen = s.getS Obj.spillPoolLen ∧ t.get Obj.spillPoolFree = s.getS Obj.spillPoolLen) ∧
  (∀ (wr : Writer) (x : Fin 16) (v : Nat) (s : State), s.takes wr (.privCtx x) (Obj.spillReq x) → v < 64 →
    (∀ r, s.spillRefusal x v = some r →
      ∃ t, exec (.spillReq wr x v) s = .next t ∧ t.get (Obj.spillState x) = 4 ∧ t.get (Obj.spillResult x) = r ∧ s.SameMem t ∧
        s.KeepsBut t [Obj.spillState x, Obj.spillResult x]) ∧
    (s.spillRefusal x v = none → (opSpillReq wr x v s.work).Sound →
      ∃ t, exec (.spillReq wr x v) s = .next t ∧ t.ext.spills.any (fun p => p.ctx == x.val && p.seg == v && !p.fill) = true ∧
        t.ext.pool.any (fun p => p.ctx == x.val && p.seg == v) = true)) ∧
  (∀ (wr : Writer) (x : Fin 16) (v : Nat) (s : State), s.takes wr (.privCtx x) (Obj.fillReq x) → v < 64 →
    (∀ r, s.fillRefusal x v = some r →
      ∃ t, exec (.fillReq wr x v) s = .next t ∧ t.get (Obj.spillState x) = 4 ∧ t.get (Obj.spillResult x) = r ∧ s.SameMem t ∧
        s.KeepsBut t [Obj.spillState x, Obj.spillResult x]) ∧
    (s.fillRefusal x v = none → (opFillReq wr x v s.work).Sound →
      ∃ t, exec (.fillReq wr x v) s = .next t ∧ t.ext.spills.any (fun p => p.ctx == x.val && p.seg == v && p.fill) = true)) ∧
  (∀ (x : Fin 16) (p : Spill) (s : State), s.ext.spills.find? (fun q => q.ctx == x.val && q.copying) = some p →
    mapped p.dst p.len = true →
    ∃ t, exec (.spillCopyDone x) s = .next t ∧ t.get (Obj.spillState x) = 3 ∧ t.get (Obj.spillResult x) = 0 ∧
      (∀ k, k < p.len → t.byte (p.dst + k) = s.byte (p.src + k)) ∧
      (∀ b, b < p.dst ∨ p.dst + p.len ≤ b → t.byte b = s.byte b) ∧ (∀ q ∈ t.ext.spills, q.ctx ≠ x)) ∧
  (∀ (x : Fin 16) (p : Spill) (s : State), s.ext.spills.find? (fun q => q.ctx == x.val && !q.copying) = some p →
    s.get (Obj.waitTmo x) * 1000 < s.since p.start →
    ∃ t, exec (.spillHoldTimeout x) s = .next t ∧ t.get (Obj.spillState x) = 3 ∧ t.get (Obj.spillResult x) = 6 ∧ s.SameMem t ∧
      (∀ q ∈ t.ext.spills, q.ctx ≠ x))

/-- A poll sets the temperature objects it reads, in two's complement; training ends a half's parts ONLINE, SLOW or OFF as it found them
(R266, R268); a couching buffer that could not drain before a reset is empty after it (R294). -/
def Obligations.MemoryPartsReport : Prop :=
  (∀ (stackC pkgs : List Int) (s : State), stackC.length = 12 → pkgs.length = 8 →
    ∃ t, exec (.dramTempPoll stackC pkgs) s = .next t ∧ s.SameMem t ∧
      (∀ k, k < 12 → t.get (Obj.stackTemp k) = toSigned 32 (stackC.getD k 0)) ∧
      (∀ k, k < 8 → t.get (Obj.pkgTemp k) = toSigned 32 (pkgs.getD k 0))) ∧
  (∀ (h : Fin 4) (slow dead : List Nat) (lanes : List (Nat × Nat × Nat)) (r : Reset) (s : State), s.memReset h 1 = none →
    s.memReset h 2 = some r → s.halfTraining h = true →
    ∃ t, exec (.memTrainingDone h slow dead lanes) s = .next t ∧ s.SameMem t ∧ ∀ p ∈ halfParts h,
      t.get (partState p) = if dead.contains p then 4 else if slow.contains p then 3 else 2) ∧
  (∀ (ctl : Fin 22) (parts : List Nat) (r : Reset) (s : State), s.memReset (ctlDie ctl.val) 1 = some r →
    100000 ≤ s.since r.memAt → (opCouchDrainTimeout ctl parts s.work).Sound →
    ∃ t, exec (.couchDrainTimeout ctl parts) s = .next t ∧ ∀ e ∈ t.ext.couch, e.ctl ≠ ctl)

/-! ## Pricking: launches, cores, slices and sections -/

/-- TILE_LAUNCH (R94, R114, R119): a launch whose tiles all pass holds them released and waiting; one whose first tile fails ends with
that status. CORE_ASSIGN and TILE_START (R120 to R123): an idle core whose choice is a tile loads it, one with nothing to take stays; a
loaded tile executes from now on, and a tile whose load meets an uncorrectable word leaves the core. TILE_END, TILE_OVERRUN and
TILE_STORE_DONE (R115, R118): a tile whose execution takes at most 720 cycles ends, and one that takes more is cut by the watchdog; either
way its core holds no tile after. A finished store has written its bytes where the tile's OUT lies, and nowhere else. -/
def Obligations.TilesRun : Prop :=
  (∀ (id : Nat) (c : Cmd) (s : State), s.running id 0x10 = some c → c.begun = false → s.launch? id = none →
    (∀ ts, s.work.releaseFrom c (tlTcount c.raw) 0 ⟨[], []⟩ 0 false = (ts, none) → ts ≠ [] →
      ∃ t, exec (.tileLaunch id) s = .next t ∧ s.SameMem t ∧ t.endOf id = none ∧
        t.launch? id = some ⟨id, c.ctx, linkTiles ts, 0, none⟩) ∧
    (∀ k st d, s.work.releaseFrom c (tlTcount c.raw) 0 ⟨[], []⟩ 0 false = ([], some (k, st, d)) →
      ∃ t, exec (.tileLaunch id) s = .next t ∧ s.SameMem t ∧ t.endOf id = some ⟨st, d, c.conv, c.r1, c.r2⟩ ∧ t.launch? id = none)) ∧
  (∀ (k : Fin 32) (a b : Bool) (l : Tile) (s : State), s.Sound → s.get (Obj.coreState k) = 0 → s.fencedCore k = false →
    s.choose k = some (.tile l, false) → s.firstIdle k (.tile l) = true → (s.core k).spill = none →
    ∃ t, exec (.coreAssign k a b) s = .next t ∧ s.SameMem t ∧ (t.core k).tile = some l ∧ (t.core k).level = 0 ∧
      (t.core k).since = s.time) ∧
  (∀ (k : Fin 32) (l : Tile) (h : Chain) (s : State), s.Sound → s.get (Obj.coreState k) = 1 → (s.core k).tile = some l →
    (s.core k).chain = some h →
    ((opTileStart k none s.work).Sound →
      ∃ t, exec (.tileStart k none) s = .next t ∧ (t.core k).execAt = s.time ∧ (t.core k).tile.isSome = true) ∧
    (∀ a : Nat, ∃ t, exec (.tileStart k (some (a, .uncorrectable))) s = .next t ∧ s.SameMem t ∧ (t.core k).tile = none)) ∧
  (∀ (k : Fin 32) (y : Stalls) (flips : List (Nat × Nat)) (l : Tile) (h : Chain) (n : Nat) (s : State), s.Sound →
    s.get (Obj.coreState k) = 2 → (s.core k).tile = some l → (s.core k).chain = some h →
    n = (s.work.tileRun (s.core k) l h 64 (2 ^ 24) (2 ^ 24)).cycles (if feedLocal k l then { y with feed := 0 } else y) →
    (n ≤ 720 → (opTileEnd k y flips s.work).Sound →
      ∃ t, exec (.tileEnd k y.feed y.wait y.drain flips) s = .next t ∧ (t.core k).tile = none) ∧
    (720 < n →
      (∃ t, exec (.tileEnd k y.feed y.wait y.drain flips) s = .next t ∧ s.KeepsBut t [] ∧ s.SameMem t) ∧
      (∃ t, exec (.tileOverrun k y.feed y.wait y.drain) s = .next t ∧ s.SameMem t ∧ (t.core k).tile = none ∧
        (t.core k).chain = none))) ∧
  (∀ (id a : Nat) (d : List Nat) (o : OutStore) (s : State), s.sched.stores.find? (fun o => o.id == id) = some o →
    o.writes = [(a, d)] → o.images = [] → mapped a d.length = true →
    ∃ t, exec (.tileStoreDone id) s = .next t ∧ (∀ q ∈ t.sched.stores, q.id ≠ id) ∧
      (∀ k, k < d.length → t.byte (a + k) = BitVec.ofNat 8 (d.getD k 0)) ∧
      (∀ b, b < a ∨ a + d.length ≤ b → t.byte b = s.byte b))

/-- SLICE_EXPIRE: an expired slice passes to a context in rotation, or to none (R130, R131); a slice that has not expired stays. A core
whose choice is a section starts it; a section whose phase is complete is gone; one past twice its bound is counted and marked, and when
its engine is in reset already nothing else happens to it (R133, R136). FENCE_SW: the value held leaves at least eight cores of a die
free; with every core idle each fenced core is FENCED at once and every other stays IDLE (R140, R141). -/
def Obligations.CoresAreShared : Prop :=
  (∀ (be : Bool) (s : State),
    (s.owner (b2n be) ≠ 0xFF → (if be then s.sched.lenBe else s.sched.lenLc) ≤
        s.since (if be then s.sched.sinceBe else s.sched.sinceLc) →
      ∃ t, exec (.sliceExpire be) s = .next t ∧ s.SameMem t ∧
        (t.owner (b2n be) = 0xFF ∨ t.owner (b2n be) < 16 ∧ s.inRotation (b2n be) (t.owner (b2n be)) = true)) ∧
    (s.since (if be then s.sched.sinceBe else s.sched.sinceLc) < (if be then s.sched.lenBe else s.sched.lenLc) →
      ∃ t, exec (.sliceExpire be) s = .next t ∧ s.SameMem t ∧ s.KeepsBut t [])) ∧
  (∀ (k : Fin 32) (id : Nat) (q : Section) (s : State), s.get (Obj.coreState k) = 0 → s.fencedCore k = false →
    s.choose k = some (.sect id, false) → s.firstIdle k (.sect id) = true →
    s.sched.sections.find? (fun q => q.id == id) = some q → (opSectionGrant k s.work).Sound →
    ∃ t, exec (.sectionGrant k) s = .next t ∧
      t.sched.sections.any (fun q => q.id == id && q.core == some k.val && q.start == s.time) = true) ∧
  (∀ (id k : Nat) (bad : List Nat) (q : Section) (s : State), s.sched.sections.find? (fun q => q.id == id) = some q →
    q.core = some k → id < s.nextId → (q.kind = 1 → s.batchOver q.ref = true) → (opSectionEnd id bad s.work).Sound →
    ∃ t, exec (.sectionEnd id bad) s = .next t ∧ ∀ p ∈ t.sched.sections, p.id ≠ id) ∧
  (∀ (id k : Nat) (q : Section) (s : State), s.sched.sections.find? (fun q => q.id == id) = some q → q.core = some k →
    q.kind ≠ 2 → q.overran = false → s.work.sectionDue q ≤ s.time → (∀ e, s.sectionOwner q = some e → s.instReset e = true) →
    ∃ t, exec (.sectionOverrun id) s = .next t ∧ s.SameMem t ∧
      t.get Obj.sectionOverrunCount = min (s.get Obj.sectionOverrunCount + 1) (maxU 64) ∧
      t.sched.sections.any (fun p => p.id == id && p.overran) = true) ∧
  (∀ (wr : Writer) (v : Nat) (s : State), s.takes wr .host Obj.fenceSw →
    (∀ k, k < 32 → s.get (Obj.coreState k) = 0 ∧ (s.core k).chain = none ∧ (s.core k).spill = none) →
    ∃ t, exec (.fenceSw wr v) s = .next t ∧ s.SameMem t ∧
      t.get Obj.fenceSw = fenceClamp (s.get Obj.fenceFw) (fenceClamp (s.get Obj.fenceFw) (v % 2 ^ 32) 0) 1 ∧
      ∀ k, k < 32 → t.get (Obj.coreState k) = if t.fencedCore k then 4 else 0)

/-! ## Picot and Plait -/

/-- GATHER and SCATTER_ADD (R96, R303, R304, R315): a range that fails translation or a header the rules refuse ends the command with that
status and writes nothing, a batch with an index out of range ends with ROW_RANGE at its position, and otherwise the command is under way
or, with no row to do, has ended. -/
def Obligations.PicotStarts : Prop :=
  ∀ (i : Instr) (id op : Nat) (c : Cmd) (s : State), (i, op) ∈ [(.gather id, 0x30), (.scatterAdd id, 0x31)] →
    s.running id op = some c → c.begun = false →
    (∀ st d, s.picotRanges c = .error (st, d) →
      ∃ t, exec i s = .next t ∧ s.SameMem t ∧ s.KeepsBut t [] ∧ t.endOf id = some ⟨st, d, c.conv, c.r1, c.r2⟩) ∧
    (∀ ha ia oa st d, s.picotRanges c = .ok (ha, ia, oa) → headerFault c.raw (s.work.readNat ha 64) = some (st, d) →
      ∃ t, exec i s = .next t ∧ s.SameMem t ∧ s.KeepsBut t [] ∧ t.endOf id = some ⟨st, d, c.conv, c.r1, c.r2⟩) ∧
    (∀ ha ia oa p, s.picotRanges c = .ok (ha, ia, oa) → headerFault c.raw (s.work.readNat ha 64) = none → gScatter c.raw = true →
      cNpb c.raw ≠ 0 → (s.work.indices c ia).find? (fun q => decide (gNrows c.raw ≤ q.2)) = some p →
      ∃ t, exec i s = .next t ∧ s.SameMem t ∧ s.KeepsBut t [] ∧ t.endOf id = some ⟨0x0217, p.1, c.conv, c.r1, c.r2⟩) ∧
    (∀ ha ia oa, s.picotRanges c = .ok (ha, ia, oa) → headerFault c.raw (s.work.readNat ha 64) = none →
      ∃ t, exec i s = .next t ∧ s.SameMem t ∧ ((t.picotJob? id).isSome = true ∨ (t.endOf id).isSome = true))

/-- The rows of a Picot command (R316, R317): a row whose lock is free is issued at once, and the wait counts; a row that returns is done,
and no row of a command that a read has failed goes on: outside a batch the command ends with the read's status. -/
def Obligations.PicotRowsGoOn : Prop :=
  (∀ (id p : Nat) (j : PicotJob) (r : PRow) (s : State), s.picotJob? id = some j → j.rows.find? (fun r => r.p == p) = some r →
    r.state = 1 → s.rowLocked j r.addr = false → j.kind ≠ 1 → j.ctx < 16 →
    ∃ t, exec (.picotLockGrant id p) s = .next t ∧ s.SameMem t ∧
      t.get (Obj.picotLockWaitNs j.ctx) = min (s.get (Obj.picotLockWaitNs j.ctx) + s.since r.since) (maxU 64) ∧
      (t.picotJob? id).any (fun q => q.rows.any (fun r => r.p == p && r.state == 2)) = true) ∧
  (∀ (id p : Nat) (res : ReadRes) (j : PicotJob) (c : Cmd) (r : PRow) (s : State), s.picotJob? id = some j →
    s.cmd? id = some c → j.rows.find? (fun r => r.p == p) = some r → r.state = 2 →
    ((opPicotRowReturn id p res s.work).Sound →
      ∃ t, exec (.picotRowReturn id p res) s = .next t ∧
        ∀ q, t.picotJob? id = some q → ∀ u ∈ q.rows, u.p = p → u.state = 3) ∧
    (∀ st d, readFail r.addr res = some (st, d) → j.kind ≠ 2 → c.done = none →
      ∃ t, exec (.picotRowReturn id p res) s = .next t ∧ s.SameMem t ∧ t.picotJob? id = none ∧
        t.endOf id = some ⟨st, d, c.conv, c.r1, c.r2⟩))

/-- A COLL's start (R97, R363 to R366): the checks of its descriptor, its groups and its ranges come in that order, each ending the
command with its own status and no write; a COLL on a group that is LOST ends with PEER_LOST; one that passes is the last sequence number
its group started. -/
def Obligations.CollectivesStart : Prop :=
  ∀ (i : Instr) (id op : Nat) (c : Cmd) (s : State),
    (i, op) ∈ [(.allGather id, 0), (.reduceScatter id, 1), (.allReduce id, 2), (.paramGather id, 3), (.send id, 4), (.recv id, 5),
      (.allReduceC4 id, 6)] →
    s.running id 0x40 = some c → c.begun = false → lOp c.raw = op →
    (∀ st d, s.xlate c.ctx c.segs (lCdesc c.raw) 64 .read = .error (st, d) →
      ∃ t, exec i s = .next t ∧ s.SameMem t ∧ s.KeepsBut t [] ∧ t.endOf id = some ⟨st, d, c.conv, c.r1, c.r2⟩) ∧
    (∀ a d, s.xlate c.ctx c.segs (lCdesc c.raw) 64 .read = .ok a → d = s.work.readNat a 64 →
      (∀ b, s.collFault c d = some b →
        ∃ t, exec i s = .next t ∧ s.SameMem t ∧ s.KeepsBut t [] ∧ t.endOf id = some ⟨0x0211, b, c.conv, c.r1, c.r2⟩) ∧
      (∀ g, s.collFault c d = none → s.groupFault c.ctx op d (lGroup c.raw) = some g →
        ∃ t, exec i s = .next t ∧ s.SameMem t ∧ s.KeepsBut t [] ∧
          t.endOf id = some ⟨0x0712, g.1 * 2 ^ 28 + g.2, c.conv, c.r1, c.r2⟩) ∧
      (∀ rs, s.collFault c d = none → s.groupFault c.ctx op d (lGroup c.raw) = none →
        (op = 3 → s.groupFault c.ctx op d (cdInner d) = none) → s.collRanges c d = .ok rs →
        (∀ b, overlapFault op rs = some b →
          ∃ t, exec i s = .next t ∧ s.SameMem t ∧ s.KeepsBut t [] ∧ t.endOf id = some ⟨0x0211, b, c.conv, c.r1, c.r2⟩) ∧
        (overlapFault op rs = none → s.groupSt (lGroup c.raw) = 2 →
          ∃ t, exec i s = .next t ∧ s.SameMem t ∧ s.KeepsBut t [] ∧
            t.endOf id = some ⟨0x0710, s.blobNat .active Obj.groupLost (4 * lGroup c.raw) 4, c.conv, c.r1, c.r2⟩) ∧
        (overlapFault op rs = none → s.groupSt (lGroup c.raw) ≠ 2 → (op = 3 → s.groupSt (cdInner d) ≠ 2) →
          (work i s.work).Sound →
          ∃ t, exec i s = .next t ∧ (lGroup c.raw, lSeq c.raw) ∈ t.plait.lastSeq)))

/-- Chunks, timeouts and notices (R376 to R379, R387 to R389): a chunk that is ready leaves its landing slot, or claims a section where
its sums need one; a partner that stalls, or never starts, breaks the groups awaited through it, and an abort notice breaks the group it
names: of memory a break leaves open only the parts not complete of the COLLs it ends (R388); on a group that is broken already the notice
only counts. -/
def Obligations.CollectivesGoOn : Prop :=
  (∀ (id slot : Nat) (j : CollJob) (c : Cmd) (l : Landing) (s : State), s.coll? id = some j → s.cmd? id = some c →
    j.slots.find? (fun l => l.slot == slot) = some l → s.chunkReady j l = true → c.done = none →
    (cNpb c.raw = 0 → (opPlaitChunkLand id slot s.work).Sound →
      ∃ t, exec (.plaitChunkLand id slot) s = .next t ∧
        ∀ q, t.coll? id = some q → ∀ m ∈ q.slots, m.slot = slot → m.landed = false) ∧
    (cNpb c.raw ≠ 0 → (s.landWork j l).2 ≠ 0 →
      ∃ t, exec (.plaitChunkLand id slot) s = .next t ∧ s.SameMem t ∧ (t.coll? id).any (fun q => q.sect.isSome) = true)) ∧
  (∀ (id n : Nat) (j : CollJob) (s : State), s.coll? id = some j → s.awaited j n = true → (∀ g ∈ j.groupsVia n, g < 1024) →
    (∀ e, j.exch.find? (fun e => e.1 == n) = some e → e.2.2 ≤ s.since e.2.1 →
      (opPlaitStallTimeout id n s.work).Sound →
      ∃ t, exec (.plaitStallTimeout id n) s = .next t ∧ (∀ g ∈ j.groupsVia n, s.groupSt g = 1 → t.groupSt g = 2) ∧
        (∀ a, (∀ q ∈ s.plait.jobs, (∃ g ∈ j.groupsVia n, q.names g = true) → ∀ r ∈ s.openRanges q, a < r.1 ∨ r.1 + r.2 ≤ a) → t.byte a = s.byte a)) ∧
    (j.exch.any (fun e => e.1 == n) = false → j.first ≤ s.since j.start → 1 ≤ s.peerSt n → s.peerSt n ≤ 3 →
      (opPlaitNoStartTimeout id n s.work).Sound →
      ∃ t, exec (.plaitNoStartTimeout id n) s = .next t ∧ (∀ g ∈ j.groupsVia n, s.groupSt g = 1 → t.groupSt g = 2) ∧
        (∀ a, (∀ q ∈ s.plait.jobs, (∃ g ∈ j.groupsVia n, q.names g = true) → ∀ r ∈ s.openRanges q, a < r.1 ∨ r.1 + r.2 ≤ a) → t.byte a = s.byte a))) ∧
  (∀ (id g : Nat) (m : InMsg) (s : State), s.net.inbox.find? (fun m => m.id == id) = some m → m.key = abortKey g → g < 1024 →
    (s.groupSt g = 1 → (opPlaitAbortNoticeRx id s.work).Sound →
      ∃ t, exec (.plaitAbortNoticeRx id) s = .next t ∧ t.groupSt g = 2 ∧ (∀ q ∈ t.net.inbox, q.id ≠ id) ∧
        (∀ a, (∀ q ∈ s.plait.jobs, q.names g = true → ∀ r ∈ s.openRanges q, a < r.1 ∨ r.1 + r.2 ≤ a) → t.byte a = s.byte a)) ∧
    (s.groupSt g = 2 →
      ∃ t, exec (.plaitAbortNoticeRx id) s = .next t ∧ s.SameMem t ∧ t.groupSt g = 2 ∧
        t.get (Obj.relaysDropped (gvCtx (s.groupE g))) = min (s.get (Obj.relaysDropped (gvCtx (s.groupE g))) + 1) (maxU 64)))

/-- GROUP_COMMIT makes the two tables pending; once no COLL uses a group that changes they are in force, and every group is READY or,
without its VALID bit, absent (R361, R362). -/
def Obligations.GroupsCommit : Prop :=
  (∀ (wr : Writer) (s : State), s.takes wr .priv Obj.groupCommit → s.get Obj.groupCommit ≠ 1 →
    ∃ t, exec (.groupCommit wr) s = .next t ∧ t.get Obj.groupCommit = 1 ∧ s.KeepsBut t [Obj.groupCommit] ∧ s.SameMem t) ∧
  (∀ s : State, s.get Obj.groupCommit = 1 →
    s.plait.jobs.any (fun j => s.groupChanges j.group || (j.op == 3 && s.groupChanges j.inner)) = false →
    ∃ t, exec .groupCommitApply s = .next t ∧ s.SameMem t ∧ t.get Obj.groupCommit = 0 ∧
      ∀ g, g < 1024 → t.groupSt g = if gvValid (t.groupE g) then 1 else 0)

/-! ## Ports, Exbaene and time -/

/-- The states of Table 11.3 and their counters (R325), a bad frame that is counted and dropped (R326), and the commit of a die's ports
(R323), which is in force once its carve is free and no metro buffer holds data. -/
def Obligations.PortsAndLinks : Prop :=
  (∀ (p : Fin 8) (s : State),
    (s.get (Obj.linkState p) = 1 → ∃ t, exec (.linkSignalDetect p) s = .next t ∧ s.SameMem t ∧ s.KeepsBut t [Obj.linkState p] ∧
      t.get (Obj.linkState p) = 2) ∧
    (s.get (Obj.linkState p) = 2 → ∃ t, exec (.linkUp p) s = .next t ∧ s.SameMem t ∧ t.get (Obj.linkState p) = 3) ∧
    (s.portUp p = true → ∃ t, exec (.linkDown p) s = .next t ∧ s.SameMem t ∧ t.get (Obj.linkState p) = 1 ∧
      t.get (Obj.linkDownCount p) = min (s.get (Obj.linkDownCount p) + 1) (maxU 64)) ∧
    (∀ u c n, s.get (Obj.linkState p) = 3 → 10 < u ∨ 24 * n < c * 100000 →
      ∃ t, exec (.linkDegraded p u c n) s = .next t ∧ s.SameMem t ∧ t.get (Obj.linkState p) = 4) ∧
    (s.get (Obj.linkState p) = 4 → s.net.degAt.find? (fun q => q.1 == p.val) = none →
      ∃ t, exec (.linkDegradeClear p) s = .next t ∧ s.SameMem t ∧ t.get (Obj.linkState p) = 3) ∧
    (s.portUp p = true → ∃ t, exec (.ethFrameBad p .fcs) s = .next t ∧ s.SameMem t ∧
      s.KeepsBut t [Obj.rxFrames p, Obj.rxDrop p] ∧ t.get (Obj.rxFrames p) = min (s.get (Obj.rxFrames p) + 1) (maxU 64) ∧
      t.get (Obj.rxDrop p) = min (s.get (Obj.rxDrop p) + 1) (maxU 64))) ∧
  (∀ (wr : Writer) (d : Fin 2) (n : Nat) (s : State), n = (if d.val = 0 then Obj.portsCommitIo0 else Obj.portsCommitIo1) →
    (s.takes wr .host n → s.get n ≠ 1 →
      ∃ t, exec (.portsCommit wr d) s = .next t ∧ s.SameMem t ∧ t.get n = 1 ∧ s.KeepsBut t (n :: logObjs)) ∧
    (s.get n = 1 → s.work.carveWait d = false → (∀ p, p < 8 → s.metroBytes p = 0) →
      ∃ t, exec (.portsCommitApply d) s = .next t ∧ s.SameMem t ∧ t.get n = 0 ∧
        ∀ k, k < 4 → t.get (Obj.mtu (4 * d + k)) = s.getP (Obj.mtu (4 * d + k)) ∧
          t.get (Obj.portClass (4 * d + k)) = s.getP (Obj.portClass (4 * d + k))))

/-- Packets that arrive (R339, R340, R343): one for no session of this incarnation is STALE and counted, one that is malformed is counted;
a PROBE is answered, its reply ends the wait for it, and an ACK takes what it acknowledges from the packets held. DATA (R341): a packet
that was received before only counts; a new packet of a message whose receive is posted lands at its offset there, and no other byte
changes. -/
def Obligations.PacketsArrive : Prop :=
  (∀ (f : Rx) (why : Nat) (s : State), s.portUp f.port = true → hVer f.hdr = 1 → 1 ≤ hType f.hdr → hType f.hdr ≤ 9 →
    hType f.hdr ≠ 3 → s.rxFits f = true → s.staleWhy f = some why →
    ∃ t, exec (.exbStaleSessionRx f) s = .next t ∧ s.SameMem t ∧ t.get Obj.rxStale = min (s.get Obj.rxStale + 1) (maxU 64)) ∧
  (∀ (f : Rx) (i : Instr) (s : State), i ∈ [.exbDataRx f, .exbAckRx f, .exbOpenRx f, .exbOpenAckRx f, .exbRejectRx f, .exbProbeRx f,
      .exbProbeReplyRx f, .exbStaleRx f, .exbCloseRx f] → s.portUp f.port = true → hVer f.hdr ≠ 1 →
    ∃ t, exec i s = .next t ∧ s.SameMem t ∧ t.get Obj.rxMalformed = min (s.get Obj.rxMalformed + 1) (maxU 64)) ∧
  (∀ (f : Rx) (p : Sess) (s : State), s.hears f 6 p → p.home < 8 → s.portUp p.home = true → f.reply = .none →
    ∃ t, exec (.exbProbeRx f) s = .next t ∧ s.SameMem t ∧
      t.get (Obj.txFrames p.home) = min (s.get (Obj.txFrames p.home) + 1) (maxU 64) ∧
      (t.sess? p.n).any (fun q => q.lastRx == s.time) = true) ∧
  (∀ (f : Rx) (p : Sess) (s : State), s.hears f 7 p →
    ∃ t, exec (.exbProbeReplyRx f) s = .next t ∧ s.SameMem t ∧
      (t.sess? p.n).any (fun q => q.lastRx == s.time && q.probe.isNone) = true) ∧
  (∀ (f : Rx) (p : Sess) (s : State), s.hears f 2 p → p.ackPsn (bits f.ext 352 32) ≤ p.psn → p.ackRangesOf f.ext = [] →
    (opExbAckRx f s.work).Sound →
    ∃ t, exec (.exbAckRx f) s = .next t ∧ ∀ q, t.sess? p.n = some q → ∀ k ∈ q.pkts, p.ackPsn (bits f.ext 352 32) ≤ k.psn) ∧
  (∀ (f : Rx) (p : Sess) (s : State), s.hears f 1 p → p.home < 8 → p.unwrap (bits f.ext 160 32) = none →
    ∃ t, exec (.exbDataRx f) s = .next t ∧ s.SameMem t ∧
      t.get (Obj.dupPkts (s.lctx p.n)) = min (s.get (Obj.dupPkts (s.lctx p.n)) + 1) (maxU 64)) ∧
  (∀ (f : Rx) (p : Sess) (r : Posted) (a off : Nat) (s : State), s.hears f 1 p → p.unwrap (bits f.ext 160 32) = some a →
    p.ranges.any (fun r => decide (r.1 ≤ a) && decide (a ≤ r.2)) = false → a ≤ p.cum + 65535 → off = bits f.ext 32 32 →
    off + f.data.length ≤ bits f.ext 0 32 → (rangePut a p.ranges).length ≤ 16 →
    p.rx.find? (fun m => m.num == bits f.ext 128 32) = none →
    s.net.posted.find? (fun r => r.n == p.n && r.key == bits f.ext 64 64) = some r → r.len = bits f.ext 0 32 →
    mapped (r.addr + off) f.data.length = true →
    ∃ t, exec (.exbDataRx f) s = .next t ∧
      (∀ k, k < f.data.length → t.byte (r.addr + off + k) = f.data.getD k 0#8) ∧
      (∀ b, b < r.addr + off ∨ r.addr + off + f.data.length ≤ b → t.byte b = s.byte b))

/-- Sessions begin and end (R336, R337, R340): an OPEN that is not refused makes a session OPENING that this side did not open, and a
refused one counts; an OPEN_ACK opens the session or counts as a failed handshake; REJECT, STALE and CLOSE end the session they name, and
after a CLOSE only a session that this side opens anew can stand in its place. -/
def Obligations.SessionsBeginAndEnd : Prop :=
  (∀ (f : Rx) (n : Nat) (s : State), s.portUp f.port = true → hVer f.hdr = 1 → hType f.hdr = 3 → s.rxFits f = true →
    s.get Obj.entropyState ≠ 1 → s.entryFor f.ext = some n → n < 8192 → s.sess? n = none →
    ∃ t, exec (.exbOpenRx f) s = .next t ∧ s.SameMem t ∧
      (match s.openRefusal f with
       | none => t.peerSt n = 2 ∧
           (t.sess? n).any (fun q => !q.opener && q.peerSid == hSrcSid f.hdr && q.peerInc == hSrcInc f.hdr) = true
       | some _ => t.sess? n = none ∧ t.get Obj.handshakeFail = min (s.get Obj.handshakeFail + 1) (maxU 64))) ∧
  (∀ (f : Rx) (p : Sess) (s : State), s.hears f 4 p → p.n < 8192 → s.peerSt p.n = 2 → p.opener = true →
    ∃ t, exec (.exbOpenAckRx f) s = .next t ∧ s.SameMem t ∧
      (t.peerSt p.n = 3 ∨ t.get Obj.handshakeFail = min (s.get Obj.handshakeFail + 1) (maxU 64))) ∧
  (∀ (f : Rx) (p : Sess) (s : State),
    (s.hears f 5 p → (opExbRejectRx f s.work).Sound → ∃ t, exec (.exbRejectRx f) s = .next t ∧ t.sess? p.n = none) ∧
    (s.hears f 8 p → (opExbStaleRx f s.work).Sound → ∃ t, exec (.exbStaleRx f) s = .next t ∧ t.sess? p.n = none) ∧
    (s.hears f 9 p → (opExbCloseRx f s.work).Sound →
      ∃ t, exec (.exbCloseRx f) s = .next t ∧ ∀ q, t.sess? p.n = some q → q.opener = true))

/-- What a session sends (R341, R342, R346, R348, R350): a packet whose turn it is leaves, a fresh one under the next PSN and one sent
again no longer lost; a due acknowledgement leaves no packet unacknowledged; RNR holds end at their time; a rate interval starts anew.
Timeouts (R337, R342, R343): a packet past its RTO is lost and the count of timeouts rises; silence sends a PROBE; no progress for LOSS_US
ends the session; an OPEN without an answer is sent again, and a refused entry opens again once OPEN_RETRY_MS has passed. -/
def Obligations.SessionsSend : Prop :=
  (∀ (n port path : Nat) (bad : TxFault) (p : Sess) (s : State), s.sess? n = some p → s.turnOf port = some n →
    (∀ m len, s.sendable p = some (.fresh m len, port, path) → m ∈ s.net.msgs → m.n = n →
      ∃ t, exec (.exbDataTx n bad) s = .next t ∧ s.SameMem t ∧ (t.sess? n).any (fun q => q.psn == p.psn + 1) = true) ∧
    (∀ k, s.sendable p = some (.again k, port, path) → (s.msgOfPkt n k.msg).isSome = true →
      ∃ t, exec (.exbDataTx n bad) s = .next t ∧ s.SameMem t ∧
        (t.sess? n).any (fun q => q.psn == p.psn && q.pkts.all (fun u => u.psn != k.psn || !u.lost)) = true)) ∧
  (∀ (n t0 : Nat) (p : Sess) (s : State), s.sess? n = some p → p.ackDue = some t0 →
    s.get (Obj.ackDelayNs (s.portCls p.home)) ≤ s.since t0 →
    ∃ t, exec (.exbAckDelayExpire n) s = .next t ∧ s.SameMem t ∧
      (t.sess? n).any (fun q => q.ackDue.isNone && q.rxCount == 0 && q.ceCount == 0) = true) ∧
  (∀ (n msg t0 e : Nat) (m : TxMsg) (s : State), s.msgOfPkt n msg = some m → m.hold = some (t0, e) → t0 ≤ s.time →
    ∃ t, exec (.exbRnrExpire n msg) s = .next t ∧ s.SameMem t ∧ s.KeepsBut t [] ∧
      (t.msgOfPkt n msg).any (fun q => q.hold.isNone) = true) ∧
  (∀ (n : Nat) (p : Sess) (s : State), s.sess? n = some p → s.peerSt n = 3 →
    s.get (Obj.incUs (s.portCls p.home)) * 1000 ≤ s.since p.incAt →
    ∃ t, exec (.exbRateIncrease n) s = .next t ∧ s.SameMem t ∧ s.KeepsBut t [] ∧
      (t.sess? n).any (fun q => q.incAt == s.time && !q.incDec && !q.incCe) = true) ∧
  (∀ (n psn : Nat) (p : Sess) (k : TxPkt) (s : State), s.sess? n = some p → s.peerSt n = 3 →
    p.pkts.find? (fun k => k.psn == psn && !k.sacked && !k.lost && !k.heldBack) = some k → s.rtoNs p ≤ s.since k.last →
    ∃ t, exec (.exbRtoExpire n psn) s = .next t ∧ s.SameMem t ∧ s.KeepsBut t [] ∧
      (t.sess? n).any (fun q => q.k == p.k + 1 && q.pkts.all (fun u => u.psn != psn || u.lost)) = true) ∧
  (∀ (n : Nat) (p : Sess) (s : State), s.sess? n = some p → s.peerSt n = 3 → p.probe = none →
    s.get (Obj.probeIdleUs (s.portCls p.home)) * 1000 ≤ s.since p.lastRx →
    ∃ t, exec (.exbProbeIdleExpire n) s = .next t ∧ s.SameMem t ∧
      (t.sess? n).any (fun q => q.probe == some (s.time, s.time)) = true) ∧
  (∀ (n t0 : Nat) (p : Sess) (s : State), s.sess? n = some p → s.peerSt n = 3 → p.outSince = some t0 → p.outstanding = true →
    s.get (Obj.lossUs (s.portCls p.home)) * 1000 ≤ s.since (max p.lastProg t0) → (opExbLossTimeout n s.work).Sound →
    ∃ t, exec (.exbLossTimeout n) s = .next t ∧ t.sess? n = none) ∧
  (∀ (n : Nat) (p : Sess) (s : State), s.sess? n = some p → s.peerSt n = 2 → p.opener = true →
    s.since p.openAt < s.get (Obj.lossUs (s.portCls p.home)) * 1000 →
    s.get (Obj.rtoUs (s.portCls p.home)) * 1000 ≤ s.since p.openLast →
    ∃ t, exec (.exbOpenResend n) s = .next t ∧ s.SameMem t ∧ (t.sess? n).any (fun q => q.openLast == s.time) = true) ∧
  (∀ (n t0 home : Nat) (s : State), n < 8192 → s.net.rejectedAt.find? (fun q => q.1 == n) = some (n, t0) → s.peerSt n = 5 →
    s.peerWhy n = 10 ∨ s.peerWhy n = 11 ∨ s.peerWhy n = 13 → s.get Obj.openRetryMs * 1000000 ≤ s.since t0 →
    s.net.shut = false → pValid (s.peer n) = true → s.get (Obj.ctxState (pLctx (s.peer n))) = 1 →
    s.get (Obj.ownRank (pLctx (s.peer n))) < pRank (s.peer n) → s.homePick n = some home →
    ∃ t, exec (.exbRejectRetry n) s = .next t ∧ s.SameMem t ∧ t.peerSt n = 2 ∧ (t.sess? n).any (fun q => q.opener) = true)

/-- A commit of the peer table lets entries open again (R335, R352); a grandmaster is followed once it is announced, a two-step Sync waits
for its Follow_Up, a delay request for its answer, and silence of 3 s leaves HOLDOVER (R353, R355). -/
def Obligations.PeersAndTime : Prop :=
  (∀ (wr : Writer) (s : State), s.takes wr .priv Obj.peerCommit → (opPeerCommit wr s.work).Sound →
    ∃ t, exec (.peerCommit wr) s = .next t ∧ t.net.shut = false) ∧
  (∀ (p : Fin 8) (a : Announce) (s : State), s.ptpOn p a.domain = true → s.net.ptp.gm = none →
    ∃ t, exec (.ptpAnnounceRx p a) s = .next t ∧ s.SameMem t ∧ t.net.ptp.gm = some a ∧ t.net.ptp.syncAt = s.time ∧
      t.get Obj.ptpState = 1) ∧
  (∀ (p : Fin 8) (d gm seq t1 : Nat) (s : State), s.ptpOn p d = true → s.fromGm gm = true →
    (∃ t, exec (.ptpSyncRx p d gm seq true t1) s = .next t ∧ s.SameMem t ∧ t.net.ptp.syncAt = s.time ∧
      t.net.ptp.two.any (fun q => q.1 == seq) = true) ∧
    (∃ t, exec (.ptpSyncRx p d gm seq false t1) s = .next t ∧ s.SameMem t ∧ t.net.ptp.syncAt = s.time ∧ t.net.ptp.two = none) ∧
    (∀ t2, s.net.ptp.two = some (seq, t2) →
      ∃ t, exec (.ptpFollowUpRx p d gm seq t1) s = .next t ∧ s.SameMem t ∧ t.net.ptp.two = none ∧
        t.net.ptp.d21 = (t2 : Int) - t1) ∧
    (∀ t3, s.net.ptp.req = some (seq, t3) →
      ∃ t, exec (.ptpDelayRespRx p d gm seq t1) s = .next t ∧ s.SameMem t ∧ t.net.ptp.req = none ∧
        t.net.ptp.delay = (s.net.ptp.d21 + ((t1 : Int) - t3)) / 2)) ∧
  (∀ (a : Announce) (s : State), s.net.ptp.gm = some a → s.ptpOn (s.get Obj.ptpPort) a.domain = true → s.net.ptp.reqAt = none →
    ∃ t, exec .ptpDelayReqTx s = .next t ∧ s.SameMem t ∧ t.net.ptp.reqSeq = (s.net.ptp.reqSeq + 1) % 65536 ∧
      t.net.ptp.reqAt = some s.time ∧ t.net.ptp.req.any (fun q => q.1 == s.net.ptp.reqSeq) = true) ∧
  (∀ s : State, s.get Obj.ptpState = 1 ∨ s.get Obj.ptpState = 2 → 3000000000 ≤ s.since s.net.ptp.syncAt →
    ∃ t, exec .ptpHoldover s = .next t ∧ s.SameMem t ∧ t.get Obj.ptpState = 3)

/-! ## Loads, slots, bindings and the arena -/

/-- LOAD_COMMIT takes the staged group, and while a load is committed a second write takes no action; a load that waits goes on once a
slot may take it (R398, R410). A shard whose bytes have come, from storage or from the predecessor, lies at its place in the target and
nowhere else; its hash makes it VERIFIED or starts its next attempt, as a timeout and an UNAVAIL do; a REFETCH is answered (R399 to R402). -/
def Obligations.LoadsRun : Prop :=
  (∀ (wr : Writer) (s : State), s.takes wr .priv Obj.loadCommit →
    (s.get Obj.loadCommit ≠ 1 → (opLoadCommit wr s.work).Sound →
      ∃ t, exec (.loadCommit wr) s = .next t ∧ t.life.job.any (fun j => j.ctx == s.getS Obj.loadCtx && j.sel == s.getS Obj.loadSlot &&
        j.manifest == s.getS Obj.loadManifest) = true) ∧
    (s.get Obj.loadCommit = 1 →
      ∃ t, exec (.loadCommit wr) s = .next t ∧ s.SameMem t ∧ s.KeepsBut t (Obj.clampCount :: logObjs) ∧ t.life.job = s.life.job ∧
        t.get Obj.clampCount = min (s.get Obj.clampCount + 1) (maxU 64))) ∧
  (∀ (j : LoadJob) (s : State), s.life.job = some j → j.phase = 0 →
    (s.pickTarget j.sel = none → ∃ t, exec .loadStart s = .next t ∧ s.SameMem t ∧ s.KeepsBut t [] ∧ t.life.job = s.life.job) ∧
    (∀ k, s.pickTarget j.sel = some k → (∀ n, n < 3 → s.get (Obj.slotState n) ≠ 4) → (opLoadStart s.work).Sound →
      ∃ t, exec .loadStart s = .next t ∧ t.life.job.any (fun j => j.phase != 0) = true)) ∧
  (∀ (k a : Nat) (j : LoadJob) (h : Shard) (s : State), s.life.job = some j → s.shard? k = some h → j.phase = 2 →
    s.shardDest j h.entry = .ok a → mapped a (meLen h.entry) = true →
    (h.waits = 1 → h.pred = false →
      ∃ t, exec (.shardLanded k) s = .next t ∧ (∀ b, b < meLen h.entry → t.byte (a + b) = s.byte (h.eng + b)) ∧
        (∀ b, b < a ∨ a + meLen h.entry ≤ b → t.byte b = s.byte b)) ∧
    (∀ id m, s.net.inbox.find? (fun m => m.id == id) = some m → m.key / 2 ^ 48 = 0xFFF0 → bits m.key 46 2 = 0 →
      bits m.key 0 16 = k → m.n = j.pred → j.epochOf m.key = true → h.pred = true → h.waits ≤ 1 → m.data.length = meLen h.entry →
      ∃ t, exec (.loaderShardRx id) s = .next t ∧ (∀ b, b < meLen h.entry → t.byte (a + b) = m.data.getD b 0#8) ∧
        (∀ b, b < a ∨ a + meLen h.entry ≤ b → t.byte b = s.byte b))) ∧
  (∀ (k a : Nat) (j : LoadJob) (h : Shard) (s : State), s.life.job = some j → s.shard? k = some h → j.phase = 2 → h.att < 3 →
    (s.shardDest j h.entry = .ok a → h.waits = 3 → s.hashing 0 k = true → h.srcHash = false →
      (opShardHashDone k s.work).Sound →
      ∃ t, exec (.shardHashDone k) s = .next t ∧
        (if digestLe (s.work.read a (meLen h.entry)) = meDigest h.entry then (t.shard? k).any (fun u => u.st == 2) = true
          else (t.shard? k).any (fun u => decide (h.att < u.att)) = true)) ∧
    (∀ t0, h.start = some t0 → h.waits ≤ 1 → h.st ≠ 2 → h.tmo ≤ s.since t0 →
      ∃ t, exec (.shardAttemptTimeout k) s = .next t ∧ s.SameMem t ∧ (t.shard? k).any (fun u => decide (h.att < u.att)) = true) ∧
    (∀ id m, s.net.inbox.find? (fun m => m.id == id) = some m → m.key / 2 ^ 48 = 0xFFF0 → bits m.key 46 2 = 2 →
      bits m.key 0 16 = k → m.n = j.pred → j.epochOf m.key = true → h.pred = true → h.waits ≤ 1 → h.st ≠ 2 →
      ∃ t, exec (.loaderUnavailRx id) s = .next t ∧ s.SameMem t ∧ (t.shard? k).any (fun u => decide (h.att < u.att)) = true)) ∧
  (∀ (id : Nat) (m : InMsg) (s : State), s.net.inbox.find? (fun m => m.id == id) = some m → m.key / 2 ^ 48 = 0xFFF0 →
    bits m.key 46 2 = 1 →
    ∃ t, exec (.loaderRefetchRx id) s = .next t ∧ s.SameMem t ∧ s.KeepsBut t [] ∧ (∀ q ∈ t.net.inbox, q.id ≠ id) ∧
      t.net.msgs.length = s.net.msgs.length + 1 ∧ t.net.msgs.any (fun q => q.n == m.n && q.user == 2) = true)

/-- ACTIVATE makes a READY slot CURRENT and retires the one before (R408, R409); SWAP is refused with its reason or pauses admission, and
the exchange leaves the lent model CURRENT and the displaced one PARKED (R412); a staged slot group is in force while its slot is EMPTY or
INVALID (R394); SLOT_FLUSH empties a slot that nothing uses (R395). -/
def Obligations.SlotsChange : Prop :=
  (∀ (wr : Writer) (v : Nat) (s : State), s.takes wr .host Obj.activate →
    (s.mayActivate v = true →
      ∃ t, exec (.activate wr v) s = .next t ∧ s.SameMem t ∧ t.get (Obj.slotState v) = 3 ∧
        ∀ c, s.currentSlot = some c → t.get (Obj.slotState c) = if s.get (Obj.bindCount c) = 0 then 0 else 4) ∧
    (s.mayActivate v = false →
      ∃ t, exec (.activate wr v) s = .next t ∧ s.SameMem t ∧ s.KeepsBut t (Obj.clampCount :: logObjs))) ∧
  (∀ (wr : Writer) (s : State), s.takes wr .host Obj.swap →
    (s.swapRefusal ≠ 0 →
      ∃ t, exec (.swap wr) s = .next t ∧ s.SameMem t ∧ s.KeepsBut t [Obj.swapResult] ∧ t.get Obj.swapResult = s.swapRefusal) ∧
    (s.swapRefusal = 0 →
      ∃ t, exec (.swap wr) s = .next t ∧ s.SameMem t ∧ t.life.swap = true ∧ t.get Obj.admitPause = 2)) ∧
  (∀ (c : Nat) (s : State), [0, 1].find? (fun k => s.get (Obj.slotState k) == 7) = some c → s.life.swap = true →
    s.get (Obj.slotState 2) = 7 → s.life.job = none → (opSwapExchangeDone [] s.work).Sound →
    ∃ t, exec (.swapExchangeDone []) s = .next t ∧ t.get (Obj.slotState c) = 3 ∧ t.get (Obj.slotState 2) = 5 ∧
      t.get Obj.swapResult = 0 ∧ t.life.swap = false ∧ t.get (Obj.slotModelId c) = s.get (Obj.slotModelId 2) ∧
      t.get (Obj.slotModelId 2) = s.get (Obj.slotModelId c) ∧ t.get (Obj.slotEpoch c) = s.get (Obj.slotEpoch 2)) ∧
  (∀ (wr : Writer) (k : Fin 3) (s : State), s.takes wr .host (Obj.slotCommit k) → s.get (Obj.slotCommit k) ≠ 1 →
    (s.get (Obj.slotState k) = 0 ∨ s.get (Obj.slotState k) = 6 →
      ∃ t, exec (.slotCommit wr k) s = .next t ∧ s.SameMem t ∧ t.get (Obj.slotCommit k) = 0 ∧
        ∀ p, p < 4 → t.get (Obj.partBaseP k p) = s.getS (Obj.partBaseP k p) / 65536 * 65536) ∧
    (s.get (Obj.slotState k) ≠ 0 → s.get (Obj.slotState k) ≠ 6 →
      ∃ t, exec (.slotCommit wr k) s = .next t ∧ s.SameMem t ∧ t.get (Obj.slotCommit k) = 1 ∧ s.KeepsBut t [Obj.slotCommit k])) ∧
  (∀ (wr : Writer) (k : Fin 3) (s : State), s.takes wr .host (Obj.slotFlush k) → s.life.job = none →
    s.get (Obj.slotState k) = 2 ∨ s.get (Obj.slotState k) = 5 ∨ s.get (Obj.slotState k) = 6 →
    ∃ t, exec (.slotFlush wr k) s = .next t ∧ s.SameMem t ∧ t.get (Obj.slotState k) = 0)

/-- BIND_COMMIT makes the staged binding pending; it is in force once the context is OFF or holds no binding, and an unprivileged context
binds no model (R405, R407); ADD_SWAP waits for the next request boundary (R415). ARENA_COMMIT is in force while no block is allocated
(R416); SEQ_JOIN of a free slot waits for the request boundary, SEQ_LEAVE marks the sequence, SEQ_GROW takes free blocks at once, and a
sequence that is not there is a clamp (R417 to R419). -/
def Obligations.BindingsAndSequences : Prop :=
  (∀ (wr : Writer) (x : Fin 16) (s : State), s.takes wr (.own x) (Obj.bindCommit x) → s.get (Obj.bindCommit x) ≠ 1 →
    ∃ t, exec (.bindCommit wr x) s = .next t ∧ s.SameMem t ∧ t.get (Obj.bindCommit x) = 1 ∧ s.KeepsBut t [Obj.bindCommit x] ∧
      ∀ n ∈ bindGroup x, t.getP n = s.getS n) ∧
  (∀ (x : Fin 16) (s : State), s.get (Obj.bindCommit x) = 1 → s.get (Obj.ctxState x) = 0 ∨ s.holdsBinding x = false →
    ∃ t, exec (.bindCommitApply x) s = .next t ∧ s.SameMem t ∧ t.get (Obj.bindCommit x) = 0 ∧
      t.get (Obj.btBase x) = s.getP (Obj.btBase x) ∧ t.get (Obj.growEvt x) = s.getP (Obj.growEvt x) ∧
      t.get (Obj.modelBind x) = if s.isPriv x then s.getP (Obj.modelBind x) else 0) ∧
  (∀ (wr : Writer) (x : Fin 16) (s : State), s.takes wr (.own x) (Obj.addSwap x) →
    ∃ t, exec (.addSwap wr x) s = .next t ∧ s.SameMem t ∧ s.KeepsBut t [] ∧ x.val ∈ t.life.addSwap) ∧
  (∀ (wr : Writer) (s : State), s.takes wr .host Obj.arenaCommit → s.get Obj.arenaCommit ≠ 1 →
    (s.arena.blocks = [] → ∃ t, exec (.arenaCommit wr) s = .next t ∧ s.SameMem t ∧ t.get Obj.arenaCommit = 0 ∧
      t.get Obj.arenaFree = t.get Obj.arenaLen / 65536 ∧ t.get Obj.arenaBase = s.getS Obj.arenaBase / 65536 * 65536) ∧
    (s.arena.blocks ≠ [] → ∃ t, exec (.arenaCommit wr) s = .next t ∧ s.SameMem t ∧ t.get Obj.arenaCommit = 1 ∧
      s.KeepsBut t [Obj.arenaCommit])) ∧
  (∀ (wr : Writer) (x : Fin 16) (v : Nat) (s : State), s.takes wr (.own x) (Obj.seqJoin x) → s.seq? x (bits v 0 10) = none →
    bits v 16 13 ≤ 4096 →
    ∃ t, exec (.seqJoin wr x v) s = .next t ∧ s.SameMem t ∧
      (t.seq? x (bits v 0 10)).any (fun q => q.st == 1 && q.want == max 1 (bits v 16 13) && q.held == 0) = true) ∧
  (∀ (wr : Writer) (x : Fin 16) (v : Nat) (q : SeqSt) (s : State), s.seq? x (bits v 0 10) = some q →
    (s.takes wr (.own x) (Obj.seqLeave x) → 1 ≤ q.st → q.st ≤ 3 →
      ∃ t, exec (.seqLeave wr x v) s = .next t ∧ s.SameMem t ∧ (t.seq? x (bits v 0 10)).any (fun u => u.st == 4) = true) ∧
    (s.takes wr (.own x) (Obj.seqGrow x) → q.st = 3 → s.arena.grows = [] → q.held + bits v 16 13 ≤ 4096 →
      bits v 16 13 ≤ s.work.freeBlocks.length → (opSeqGrow wr x v s.work).Sound →
      ∃ t, exec (.seqGrow wr x v) s = .next t ∧ t.arena.grows = [] ∧
        (t.seq? x (bits v 0 10)).any (fun u => u.held == q.held + bits v 16 13) = true)) ∧
  (∀ (wr : Writer) (x : Fin 16) (v : Nat) (s : State), s.takes wr (.own x) (Obj.seqLeave x) → s.takes wr (.own x) (Obj.seqGrow x) →
    s.seq? x (bits v 0 10) = none → ∀ i ∈ [Instr.seqLeave wr x v, .seqGrow wr x v],
    ∃ t, exec i s = .next t ∧ s.SameMem t ∧ s.KeepsBut t (Obj.clampCount :: logObjs) ∧
      t.get Obj.clampCount = min (s.get Obj.clampCount + 1) (maxU 64))

/-! ## Pairing -/

/-- The commits of a mirror group and of the device's areas (R424, R425), a wait that expires and abandons what still runs (R426), and a
hash that leaves its engine (R427). -/
def Obligations.MirrorsRun : Prop :=
  (∀ (wr : Writer) (x : Fin 16) (s : State), s.takes wr (.privCtx x) (Obj.mirCommit x) → s.get (Obj.mirCommit x) ≠ 1 →
    (s.get (Obj.ctxState x) ≠ 0 → ∃ t, exec (.mirCommit wr x) s = .next t ∧ s.SameMem t ∧ t.get (Obj.mirCommit x) = 1 ∧
      s.KeepsBut t [Obj.mirCommit x]) ∧
    (s.get (Obj.ctxState x) = 0 → ∃ t, exec (.mirCommit wr x) s = .next t ∧ s.SameMem t ∧ t.get (Obj.mirCommit x) = 0)) ∧
  (∀ (wr : Writer) (s : State), s.takes wr .host Obj.mirDevCommit → s.get Obj.mirDevCommit ≠ 1 →
    ∃ t, exec (.mirDevCommit wr) s = .next t ∧ s.SameMem t ∧ t.get Obj.mirDevCommit = 1 ∧ s.KeepsBut t [Obj.mirDevCommit]) ∧
  (∀ s : State, s.get Obj.mirDevCommit = 1 → s.mirBusy = false → (opMirDevCommitApply s.work).Sound →
    ∃ t, exec .mirDevCommitApply s = .next t ∧ t.get Obj.mirDevCommit = 0) ∧
  (∀ (x : Fin 16) (t0 n : Nat) (m : Mirror) (u : MirShard) (s : State), s.pair.wait.find? (fun p => p.1 == x.val) = some (x.val, t0) →
    s.get (Obj.mirWaitMs x) * 1000000 ≤ s.since t0 → s.mirror? x = some m → n < 16 → m.shards.find? (fun u => u.s == n) = some u →
    u.outcome = 0 →
    ∃ t, exec (.mirrorWaitExpire x) s = .next t ∧ s.SameMem t ∧ t.get (Obj.mirState x n) = 5) ∧
  (∀ (x n : Fin 16) (s : State), s.hashing 1 (16 * x.val + n.val) = true → (opMirrorHashDone x n s.work).Sound →
    ∃ t, exec (.mirrorHashDone x n) s = .next t ∧ t.hashing 1 (16 * x.val + n.val) = false)

/-- What a partner holds (R428, R431): a header that does not fit is refused and counted, one that opens a copy of a held shard is written
in the slot that is not the last, data goes to its place there, and no other byte changes; MIR_FREE frees the entry; a request for a shard
that is not held, or by another rank, is answered with NONE. -/
def Obligations.PartnersHoldCopies : Prop :=
  (∀ (id : Nat) (m : InMsg) (s : State), s.pairMsg id 0 = some m →
    (m.data.length ≠ 128 →
      ∃ t, exec (.pairingHeaderRx id) s = .next t ∧ s.SameMem t ∧ (∀ q ∈ t.net.inbox, q.id ≠ id) ∧
        t.get Obj.mirRefused = min (s.get Obj.mirRefused + 1) (maxU 64) ∧ s.KeepsBut t [Obj.mirRefused]) ∧
    (∀ h e k, h = leNat (m.data.take 128) → e = s.peer m.n → m.data.length = 128 → chJob h = pJob e → chRank h = pRank e →
      chCtx h = pRctx e → chLen h % 4096 = 0 → 0 < chLen h → chLen h ≤ 16 * 2 ^ 30 → chMagic h = 0x4F5A5052 → chState h = 1 →
      s.work.findHeld (chJob h) (chRank h) (chCtx h) (bits m.key 0 32) = some k → heLen (s.work.held k) = chLen h →
      s.slotRead (heNext (s.work.held k)) = false → mapped (heNext (s.work.held k)) 4096 = true →
      ∃ t, exec (.pairingHeaderRx id) s = .next t ∧ (k, m.n) ∈ t.pair.recv ∧
        (∀ b, b < 4096 → t.byte (heNext (s.work.held k) + b) = (leBytes h 4096).getD b 0#8) ∧
        (∀ b, b < heNext (s.work.held k) ∨ heNext (s.work.held k) + 4096 ≤ b → t.byte b = s.byte b))) ∧
  (∀ (id k off : Nat) (m : InMsg) (s : State), s.pairMsg id 1 = some m →
    s.work.findHeld (pJob (s.peer m.n)) (pRank (s.peer m.n)) (pRctx (s.peer m.n)) (bits m.key 0 32) = some k →
    s.pair.recv.contains (k, m.n) = true → off = bits m.key 32 8 * 2 ^ 30 → off + m.data.length ≤ heLen (s.work.held k) →
    mapped (heNext (s.work.held k) + 4096 + off) m.data.length = true →
    ∃ t, exec (.pairingDataRx id) s = .next t ∧
      (∀ b, b < m.data.length → t.byte (heNext (s.work.held k) + 4096 + off + b) = m.data.getD b 0#8) ∧
      (∀ b, b < heNext (s.work.held k) + 4096 + off ∨ heNext (s.work.held k) + 4096 + off + m.data.length ≤ b →
        t.byte b = s.byte b)) ∧
  (∀ (wr : Writer) (v : Nat) (s : State), s.takes wr .host Obj.mirFree → v < 1024 → heValid (s.work.held v) = true →
    mapped (s.heldAddr v) 32 = true →
    ∃ t, exec (.mirFree wr v) s = .next t ∧ heValid (t.work.held v) = false ∧
      ∀ b, b < s.heldAddr v ∨ s.heldAddr v + 32 ≤ b → t.byte b = s.byte b) ∧
  (∀ (id : Nat) (m : InMsg) (s : State), s.pairMsg id 2 = some m → m.data.length = 64 →
    (pRank (s.peer m.n) ≠ bits (leNat (m.data.take 64)) 32 32 ∨
      s.work.findHeld (bits (leNat (m.data.take 64)) 128 32) (bits (leNat (m.data.take 64)) 32 32) (bits (leNat (m.data.take 64)) 160 4)
        (bits (leNat (m.data.take 64)) 0 32) = none) →
    ∃ t, exec (.pairingRestoreReqRx id) s = .next t ∧ s.SameMem t ∧ s.KeepsBut t [] ∧ (∀ q ∈ t.net.inbox, q.id ≠ id) ∧
      t.net.msgs.length = s.net.msgs.length + 1)

/-- A restore (R430 to R432): RESTORE_REQ is refused while one runs and otherwise holds the context; the first copy's data lands in the
shard range; a header or a NONE answers a shard; the choice ends it with DONE. -/
def Obligations.RestoresRun : Prop :=
  (∀ (wr : Writer) (x : Fin 16) (mask : Nat) (s : State), s.takes wr (.own x) (Obj.restoreReq x) →
    ((s.restore? x).isSome = true ∨ s.get (Obj.mirCommit x) = 1 →
      ∃ t, exec (.restoreReq wr x mask) s = .next t ∧ s.SameMem t ∧ t.get (Obj.restoreState x) = 4 ∧
        s.KeepsBut t [Obj.restoreState x]) ∧
    (s.restore? x = none → s.get (Obj.mirCommit x) ≠ 1 →
      ∃ t, exec (.restoreReq wr x mask) s = .next t ∧ s.SameMem t ∧ (t.restore? x).isSome = true ∧
        (t.get (Obj.restoreState x) = 1 ∨ t.get (Obj.restoreState x) = 2))) ∧
  (∀ (id a off x : Nat) (m : InMsg) (u : RestShard) (s : State), s.pairMsg id 4 = some m →
    s.restOf m.n (bits m.key 0 32) = some (x, u) → u.copies = [] → s.shardRange x u.s = .ok a → off = bits m.key 32 8 * 2 ^ 30 →
    off + m.data.length ≤ s.get (Obj.mirLen x u.s) → mapped (a + off) m.data.length = true →
    ∃ t, exec (.pairingRestoreDataRx id) s = .next t ∧
      (∀ b, b < m.data.length → t.byte (a + off + b) = m.data.getD b 0#8) ∧
      (∀ b, b < a + off ∨ a + off + m.data.length ≤ b → t.byte b = s.byte b)) ∧
  (∀ (id x : Nat) (m : InMsg) (u : RestShard) (s : State), s.restOf m.n (bits m.key 0 32) = some (x, u) →
    (s.pairMsg id 3 = some m →
      ∃ t, exec (.pairingRestoreHdrRx id) s = .next t ∧ s.SameMem t ∧ s.KeepsBut t [] ∧ (t.restore? x).any (fun r =>
        r.shards.any (fun v => v.s == u.s && v.answered && v.copies.length == u.copies.length + 1)) = true) ∧
    (s.pairMsg id 5 = some m →
      ∃ t, exec (.pairingRestoreNoneRx id) s = .next t ∧ s.SameMem t ∧ s.KeepsBut t [] ∧ (t.restore? x).any (fun r =>
        r.shards.any (fun v => v.s == u.s && v.answered)) = true)) ∧
  (∀ (x : Fin 16) (r : Restore) (s : State), s.restore? x = some r → r.ready = true →
    r.shards.any (fun u => !u.answered || !u.parts.isEmpty) = false →
    s.net.inbox.any (fun m => m.key / 2 ^ 48 == 0xFFE0 && s.lctx m.n == x.val && decide (3 ≤ bits m.key 44 4)) = false →
    (opRestoreDone x s.work).Sound →
    ∃ t, exec (.restoreDone x) s = .next t ∧ t.restore? x = none ∧ t.get (Obj.restoreState x) = 3)

/-! ## Health, resets and clocks -/

/-- The Sampler (R435 to R438): a shadow run whose inputs differ from the original's is void, one whose outputs agree passes, and one that
differs calls for a referee; a run that has waited too long is dropped and counted; known answers restart their period. -/
def Obligations.SamplerCompares : Prop :=
  (∀ (id a : Nat) (o : Digest) (r : SampRun) (l : Tile) (s : State),
    s.sched.runs.find? (fun r => r.id == id && r.ended) = some r → r.tiles.head? = some l → r.before = [(a, o)] → a < 32 → r.core < 32 →
    (o.inp ≠ r.dig.inp → ∃ t, exec (.samplerRunDone id) s = .next t ∧ s.SameMem t ∧ s.KeepsBut t [Obj.voids] ∧
      t.get Obj.voids = min (s.get Obj.voids + 1) (maxU 64) ∧ ∀ q ∈ t.sched.runs, q.id ≠ id) ∧
    (o.inp = r.dig.inp → o.outp = r.dig.outp → ∃ t, exec (.samplerRunDone id) s = .next t ∧ s.SameMem t ∧
      t.get Obj.passes = min (s.get Obj.passes + 1) (maxU 64) ∧ ∀ q ∈ t.sched.runs, q.id ≠ id) ∧
    (o.inp = r.dig.inp → o.outp ≠ r.dig.outp → ∃ t, exec (.samplerRunDone id) s = .next t ∧ s.SameMem t ∧
      t.sched.runs.any (fun q => q.kind == 2 && !q.started && q.before == [(a, o), (r.core, r.dig)]) = true)) ∧
  (∀ (id : Nat) (r : SampRun) (s : State), s.sched.runs.find? (fun r => r.id == id && !r.started) = some r →
    s.get Obj.shadowLagMs * 1000000 ≤ s.since r.due →
    ∃ t, exec (.samplerLagDrop id) s = .next t ∧ s.SameMem t ∧ t.get Obj.dropped = min (s.get Obj.dropped + 1) (maxU 64) ∧
      ∀ q ∈ t.sched.runs, q.id ≠ id) ∧
  (∀ (ns : Nat) (res : List (Fin 32 × Nat × Nat)) (s : State), s.ready = true → s.katPeriod ≤ s.since s.health.katAt →
    ∃ t, exec (.katPeriod ns res) s = .next t ∧ s.SameMem t ∧ t.health.katAt = s.time)

/-- Health (R440 to R444): the score is taken every 100 ms, PROBATION that is over leads to HEALTHY, a report counts modulo 2^32,
HEALTH_CLEAR leads to HEALTHY, FENCE_FW_CLEAR clears its core's bit, and a window of 60 s gives the overhead and starts anew. -/
def Obligations.HealthIsKept : Prop :=
  (∀ s : State, s.ready = true → 100000000 ≤ s.since s.health.scoreAt →
    ∃ t, exec .healthScoreTick s = .next t ∧ s.SameMem t ∧ s.KeepsBut t [Obj.healthScore, Obj.healthCapacity] ∧
      t.get Obj.healthScore = s.score ∧ t.get Obj.healthCapacity = 1000 * (s.unfenced 0 + s.unfenced 1) / 32) ∧
  (∀ s : State, s.ready = true → s.get Obj.healthState = 1 → s.probLeft = 0 →
    ∃ t, exec .probationEnd s = .next t ∧ s.SameMem t ∧ t.get Obj.healthState = 0 ∧ t.get Obj.healthReason = 6 ∧
      s.KeepsBut t (Obj.healthState :: Obj.healthReason :: logObjs)) ∧
  (∀ s : State, s.ready = true → s.get Obj.healthPeriodMs * 1000000 ≤ s.since s.health.reportAt →
    ∃ t, exec .healthReport s = .next t ∧ s.SameMem t ∧ s.KeepsBut t logObjs ∧
      t.health.reportSeq = (s.health.reportSeq + 1) % 2 ^ 32 ∧ t.health.reportAt = s.time ∧ t.health.due = none) ∧
  (∀ (wr : Writer) (v : Nat) (s : State), s.takes wr .host Obj.healthClear → v % 256 = 1 → s.get Obj.healthState ≠ 0 →
    ∃ t, exec (.healthClear wr v) s = .next t ∧ s.SameMem t ∧ t.get Obj.healthState = 0 ∧ t.get Obj.healthReason = 7 ∧
      s.KeepsBut t (Obj.healthState :: Obj.healthReason :: logObjs)) ∧
  (∀ (wr : Writer) (v : Nat) (s : State), s.takes wr .host Obj.fenceFwClear → v % 256 < 32 →
    (∀ k, k < 32 → s.get (Obj.coreState k) = 0 ∧ (s.core k).chain = none ∧ (s.core k).spill = none) →
    ∃ t, exec (.fenceFwClear wr v) s = .next t ∧ s.SameMem t ∧ t.get Obj.fenceFw = setBit (s.get Obj.fenceFw) (v % 256) false) ∧
  (∀ s : State, s.ready = true → 60000000000 ≤ s.since s.health.winAt →
    ∃ t, exec .ovhWindow s = .next t ∧ s.SameMem t ∧ s.KeepsBut t [Obj.ovhPermil, Obj.shadowPermil] ∧ t.health.winAt = s.time ∧
      t.health.shadowNs = 0 ∧ t.get Obj.ovhPermil = min (1000 * (s.health.shadowNs + (s.health.katNs + 32 * s.pair.holdNs)) /
        (32 * s.since s.health.winAt)) (maxU 16))

/-- Requests for a reset (R448, R449, R469): one under way already changes nothing, one that a larger reset contains is absorbed and
counted, any other starts, with IO1 alone meaning the device; a target that does not exist is a clamp. Watchdogs (R450 to R453), with no
reset under way and outside the DEVICE recovery mode: each starts the reset of its own domain, the firmware's that of the device. -/
def Obligations.ResetsAreAskedFor : Prop :=
  (∀ (wr : Writer) (v num dom lim : Nat) (i : Instr) (s : State),
    (i, num, dom, lim) ∈ [(.engineReset wr v, Obj.engineReset, 1, 13), (.coreReset wr v, Obj.coreReset, 2, 32)] →
    s.takes wr .priv num →
    (v % 256 < lim → (s.reset? dom (v % 256)).isSome = true → ∃ t, exec i s = .next t ∧ s.SameMem t ∧ s.KeepsBut t []) ∧
    (v % 256 < lim → s.reset? dom (v % 256) = none → s.rst.runs.any (fun r => r.contains dom (v % 256)) = true →
      ∃ t, exec i s = .next t ∧ s.SameMem t ∧ t.get Obj.absorbed = min (s.get Obj.absorbed + 1) (maxU 64)) ∧
    (v % 256 < lim → s.reset? dom (v % 256) = none → s.rst.runs.any (fun r => r.contains dom (v % 256)) = false →
      (work i s.work).Sound → ∃ t, exec i s = .next t ∧ (t.reset? dom (v % 256)).isSome = true) ∧
    (lim ≤ v % 256 → ∃ t, exec i s = .next t ∧ s.SameMem t ∧ s.KeepsBut t (Obj.clampCount :: logObjs))) ∧
  (∀ (wr : Writer) (v : Nat) (s : State), s.takes wr .priv Obj.dieReset → s.rst.runs = [] → (opDieReset wr v s.work).Sound →
    (v % 256 < 3 → ∃ t, exec (.dieReset wr v) s = .next t ∧ (t.reset? 4 (v % 256)).isSome = true) ∧
    (v % 256 = 3 → ∃ t, exec (.dieReset wr v) s = .next t ∧ (t.reset? 5 0).isSome = true)) ∧
  (∀ (wr : Writer) (x : Fin 16) (s : State), s.takes wr (.own x) (Obj.ctxReset x) →
    ((s.reset? 3 x).isSome = true → ∃ t, exec (.ctxReset wr x) s = .next t ∧ s.SameMem t ∧ s.KeepsBut t []) ∧
    (s.rst.runs = [] → (opCtxReset wr x s.work).Sound → ∃ t, exec (.ctxReset wr x) s = .next t ∧ (t.reset? 3 x).isSome = true)) ∧
  (∀ (wr : Writer) (s : State), s.takes wr .priv Obj.deviceReset →
    ((s.reset? 5 0).isSome = true → ∃ t, exec (.deviceReset wr) s = .next t ∧ s.SameMem t ∧ s.KeepsBut t []) ∧
    (s.reset? 5 0 = none → (opDeviceReset wr s.work).Sound → ∃ t, exec (.deviceReset wr) s = .next t ∧ (t.reset? 5 0).isSome = true)) ∧
  (∀ s : State, s.ready = true → s.rst.runs = [] → s.devMode = false →
    (∀ (e : Fin 13) (id : Nat) (c : Cmd), s.cmd? id = some c → s.cmdInstance c = some e.val → c.done = none →
      s.get Obj.engWdtUs * 1000 ≤ s.since c.start → (opEngineWdtFire e id s.work).Sound →
      ∃ t, exec (.engineWdtFire e id) s = .next t ∧ (t.reset? 1 e).isSome = true) ∧
    (∀ k : Fin 32, s.get (Obj.coreState k) = 1 ∨ s.get (Obj.coreState k) = 2 →
      s.get Obj.coreWdtUs * 1000 ≤ s.since (s.core k).since → (opCoreWdtFire k s.work).Sound →
      ∃ t, exec (.coreWdtFire k) s = .next t ∧ (t.reset? 2 k).isSome = true) ∧
    (∀ (x : Fin 16) (t0 : Nat), s.get (Obj.ctxState x) = 1 → s.get (Obj.ctxWdtEn x) = 1 → s.waitsByDesign x = false →
      s.q.prog.find? (fun p => p.1 == x.val) = some (x.val, t0) → s.get Obj.ctxWdtMs * 1000000 ≤ s.since t0 →
      (opCtxWdtFire x s.work).Sound → ∃ t, exec (.ctxWdtFire x) s = .next t ∧ (t.reset? 3 x).isSome = true) ∧
    (∀ c : Fin 22, ctlDie c.val < 3 → (opMemWdtFire c s.work).Sound →
      ∃ t, exec (.memWdtFire c) s = .next t ∧ (t.reset? 4 (ctlDie c.val)).isSome = true) ∧
    ((opFwWdtFire s.work).Sound → ∃ t, exec .fwWdtFire s = .next t ∧ (t.reset? 5 0).isSome = true))

/-- A reset that is over is no longer under way (R459 to R461); a die reset past its limit becomes a warm reset (R467), a warm reset past
its limit is stuck and asks for a cold one where it may (R468); a sample that takes too long is given up (R455). -/
def Obligations.ResetsEnd : Prop :=
  (∀ (dom target n : Nat) (bad : List (Nat × Nat)) (r : Reset) (s : State), s.reset? dom target = some r → s.resetOver r = true →
    (opResetDone dom target bad n s.work).Sound →
    ∃ t, exec (.resetDone dom target bad n) s = .next t ∧ t.reset? dom target = none) ∧
  (∀ (dom target : Nat) (r : Reset) (s : State), s.reset? dom target = some r → s.since r.start < r.limit →
    ∃ t, exec (.resetLimitExpire dom target) s = .next t ∧ s.SameMem t ∧ s.KeepsBut t []) ∧
  (∀ (r : Reset) (s : State), s.reset? 5 0 = some r → r.limit ≠ 0 → r.limit ≤ s.since r.start → s.rst.stuck = false →
    s.rst.runs.any (fun q => q.contains 5 0) = false →
    ∃ t, exec (.resetLimitExpire 5 0) s = .next t ∧ s.SameMem t ∧ t.rst.stuck = true ∧
      t.get Obj.coldReqPending = s.get Obj.coldReqEnable ∧ s.KeepsBut t (Obj.coldReqPending :: logObjs)) ∧
  (∀ (d : Nat) (r : Reset) (s : State), d < 3 → s.reset? 4 d = some r → r.limit ≠ 0 → r.limit ≤ s.since r.start →
    s.rst.stuck = false → s.rst.runs.any (fun q => q.contains 4 d) = false → s.reset? 5 0 = none →
    (opResetLimitExpire 4 d s.work).Sound →
    ∃ t, exec (.resetLimitExpire 4 d) s = .next t ∧ (t.reset? 5 0).isSome = true) ∧
  (∀ (k : Fin 32) (q : Section) (s : State), s.sectionOn k = some q → q.kind = 2 → q.ref = k.val → q.id < s.nextId →
    16000 ≤ s.since q.start →
    ∃ t, exec (.swatchSampleTimeout k) s = .next t ∧ s.SameMem t ∧ ∀ p ∈ t.sched.sections, p.id ≠ q.id)

/-- A resend on a RETRY instance counts (R481), a time sample keeps the time it was taken at (R482), a committed group of DVFS is in force
at the next decision (R486), and a frequency change goes on as its PLL locks and its voltage settles (R484, R485). -/
def Obligations.ClocksChange : Prop :=
  (∀ (inst : Nat) (s : State), s.boot.held = false → (inst / 1024 = 3 ∨ inst / 1024 = 4) → inst % 1024 < 2 →
    ∃ t, exec (.xqRetryResend inst) s = .next t ∧ s.SameMem t ∧ s.KeepsBut t [Obj.xqRetryCount] ∧
      t.get Obj.xqRetryCount = min (s.get Obj.xqRetryCount + 1) (maxU 64)) ∧
  (∀ s : State, s.boot.held = false →
    ∃ t, exec (.timeSample []) s = .next t ∧ s.SameMem t ∧ s.KeepsBut t [] ∧
      ∀ k, k < 9 → t.clk.samples.any (fun p => p.1 == k && p.2.1 == s.time) = true) ∧
  (∀ (a b : Nat) (s : State), s.ready = true → s.get Obj.dvfsCommit = 1 →
    ∃ t, exec (.dvfsDecision a b) s = .next t ∧ s.SameMem t ∧ t.get Obj.dvfsCommit = 0 ∧
      t.get Obj.dvfsMode = s.getP Obj.dvfsMode ∧ t.get Obj.lcFloorMhz = s.getP Obj.lcFloorMhz) ∧
  (∀ (d : Fin 2) (c : ClkChange) (s : State), s.change? d = some c → c.locked = false → 5000 ≤ s.since c.start →
    (c.up = true → c.reached = false → ∃ t, exec (.pllLocked d) s = .next t ∧ s.SameMem t ∧ s.KeepsBut t [] ∧
      (t.change? d).any (fun c => c.locked) = true) ∧
    (c.up = false → ∃ t, exec (.pllLocked d) s = .next t ∧ s.SameMem t ∧
      t.get (Obj.freqChanges d) = min (s.get (Obj.freqChanges d) + 1) (maxU 64))) ∧
  (∀ (d : Fin 2) (c : ClkChange) (s : State), s.change? d = some c →
    100 * ((setpointMv c.mhz - s.get (Obj.vcoreMv d)) + (s.get (Obj.vcoreMv d) - setpointMv c.mhz)) ≤ s.since c.start →
    (c.up = true ∧ c.reached = false ∧ c.locked = false) ∨ (c.up = false ∧ c.switched = true) →
    ∃ t, exec (.setpointReached d) s = .next t ∧ s.SameMem t ∧ t.get (Obj.vcoreMv d) = setpointMv c.mhz) ∧
  (∀ (wr : Writer) (s : State), s.takes wr .host Obj.dvfsCommit →
    (s.get Obj.dvfsCommit ≠ 1 → ∃ t, exec (.dvfsCommit wr) s = .next t ∧ s.SameMem t ∧ t.get Obj.dvfsCommit = 1 ∧
      s.KeepsBut t (Obj.dvfsCommit :: Obj.clampCount :: logObjs)) ∧
    (s.get Obj.dvfsCommit = 1 → ∃ t, exec (.dvfsCommit wr) s = .next t ∧ s.SameMem t ∧
      s.KeepsBut t (Obj.clampCount :: logObjs)))

/-! ## The dictionary and its interfaces -/

/-- A write of an object (R494, R496, R497, R569): outside the writer's reach it is denied and counted, of a read-only object it only
counts, of a wrong length it changes nothing, and a plain scalar takes the value its row holds, in its staged copy where the row is
staged. -/
def Obligations.ObjectWrites : Prop :=
  ∀ (wr : Writer) (n off : Nat) (data : List Byte) (r : ObjRow) (s : State), s.serves wr n = true → s.rowServed n = some r →
    s.get Obj.mgmtCommit ≠ 1 → s.get Obj.hokCommit ≠ 1 →
    (s.reaches wr (objReach n) = false →
      ∃ t, exec (.objectWrite wr n off data) s = .next t ∧ s.SameMem t ∧ s.KeepsBut t (Obj.accessDeniedCount :: logObjs) ∧
        t.get Obj.accessDeniedCount = min (s.get Obj.accessDeniedCount + 1) (maxU 64)) ∧
    (s.reaches wr (objReach n) = true → r.acc = 0 ∨ r.acc = 4 →
      ∃ t, exec (.objectWrite wr n off data) s = .next t ∧ s.SameMem t ∧ s.KeepsBut t [Obj.roWriteCount] ∧
        t.get Obj.roWriteCount = min (s.get Obj.roWriteCount + 1) (maxU 64)) ∧
    (s.reaches wr (objReach n) = true → r.acc ≠ 0 → r.acc ≠ 4 → r.sizeCheck off data.length ≠ 0 →
      ∃ t, exec (.objectWrite wr n off data) s = .next t ∧ s.SameMem t ∧ s.KeepsBut t []) ∧
    (s.reaches wr (objReach n) = true → r.acc ≠ 0 → r.acc ≠ 4 → r.typ ≠ 8 → data.length = r.size → off = 0 → r.keep = 0 →
      (match objCtx n with
       | some x => (Work.ctxAction wr x n (leNat data)).isNone = true ∧ s.addHeld x.val n = false
       | none => (Work.devAction wr n (leNat data)).isNone = true) →
      ∃ t, exec (.objectWrite wr n off data) s = .next t ∧ s.SameMem t ∧
        (r.acc = 2 → t.getS n = s.heldValue r n (leNat data) ∧ s.KeepsBut t (Obj.clampCount :: logObjs)) ∧
        (r.acc ≠ 2 → t.get n = s.heldValue r n (leNat data)))

/-- Every operation on a number that no table lists, and on every number of area E, ends with NO_OBJECT and reads and writes nothing; a
write to an RO or RC object that reaches it ends with NOT_WRITABLE, increments RO_WRITE_COUNT and changes nothing else; a read of a WO
object returns zeros and ends with NOT_READABLE (R491). -/
def Obligations.DictionaryAnswers : Prop :=
  (∀ n, n / 0x100000 = 0xE → objRow n = none) ∧
  (∀ (wr : Writer) (n off len : Nat) (act : Bool) (d : List Byte) (s : State), objRow n = none →
    s.work.objRd wr n off len act = ((0x120, List.replicate len 0), s.work) ∧ s.work.objWr wr n off d = (0x120, s.work) ∧
    s.work.objWrRd wr n off d = ((0x120, List.replicate d.length 0), s.work)) ∧
  (∀ (wr : Writer) (n off : Nat) (d : List Byte) (r : ObjRow) (s : State), s.rowServed n = some r → r.acc = 0 ∨ r.acc = 4 →
    s.reaches wr (objReach n) = true →
    (s.work.objWr wr n off d).1 = 0x122 ∧ (s.work.objWr wr n off d).2 = s.work.bump Obj.roWriteCount 1 ∧
    (s.work.bump Obj.roWriteCount 1).get Obj.roWriteCount = min (s.get Obj.roWriteCount + 1) (maxU 64) ∧
    (∀ m, m ≠ Obj.roWriteCount → (s.work.bump Obj.roWriteCount 1).get m = s.get m)) ∧
  (∀ (wr : Writer) (n off len : Nat) (act : Bool) (r : ObjRow) (s : State), s.rowServed n = some r → r.acc = 3 →
    s.work.objRd wr n off len act = ((0x121, List.replicate len 0), s.work))

/-- An operation sets its window busy with the status it will end with, one on a busy window changes nothing, and its end clears BUSY and
counts it (R502, R503). -/
def Obligations.WindowsOperate : Prop :=
  (∀ (fn : Fin 16) (n off len : Nat) (act : Bool) (s : State), s.windowUp fn = true → (s.window fn).busy = false → len ≤ 4096 →
    ∃ t, exec (.winRead fn n off len act) s = .next t ∧ s.SameMem t ∧ (t.window fn).busy = true ∧ (t.window fn).start = s.time ∧
      (t.window fn).object = n % 2 ^ 24 ∧ (t.window fn).next = (s.work.objRd (.fn fn) (n % 2 ^ 24) off len act).1.1) ∧
  (∀ (fn : Fin 16) (n off : Nat) (data : List Byte) (s : State), s.windowUp fn = true → (s.window fn).busy = false →
    data.length ≤ 4096 →
    ((opWinWrite fn n off data s.work).Sound →
      ∃ t, exec (.winWrite fn n off data) s = .next t ∧ (t.window fn).busy = true ∧
        (t.window fn).next = (s.work.objWr (.fn fn) (n % 2 ^ 24) off data).1) ∧
    ((opWinWriteRead fn n off data s.work).Sound →
      ∃ t, exec (.winWriteRead fn n off data) s = .next t ∧ (t.window fn).busy = true ∧
        (t.window fn).next = (s.work.objWrRd (.fn fn) (n % 2 ^ 24) off data).1.1)) ∧
  (∀ (fn : Fin 16) (n off len : Nat) (act : Bool) (data : List Byte) (s : State), s.windowUp fn = true → (s.window fn).busy = true →
    ∀ i ∈ [Instr.winRead fn n off len act, .winWrite fn n off data, .winWriteRead fn n off data],
    ∃ t, exec i s = .next t ∧ s.SameMem t ∧ s.KeepsBut t [] ∧ t.dict = s.dict) ∧
  (∀ (fn : Fin 16) (s : State), s.windowUp fn = true → (s.window fn).busy = true → 500 ≤ s.since (s.window fn).start →
    ∃ t, exec (.winOpDone fn) s = .next t ∧ s.SameMem t ∧ s.KeepsBut t [] ∧ (t.window fn).busy = false ∧
      (t.window fn).status = (s.window fn).next ∧ (t.window fn).done = ((s.window fn).done + 1) % 2 ^ 32)

/-- Hokutia (R506 to R513): a HELLO of no enrolled key, or with a signature that fails, counts as HOK_AUTH_FAILED, and one that verifies
opens a session; a message whose MAC fails counts; a REQUEST is taken once, in the order of its SEQ; CLOSE and idleness end the session. -/
def Obligations.HokutiaSessions : Prop :=
  (∀ (f : HokRx) (k : Nat) (s : State), s.mgmtLive = true → f.bytes.length = 336 → hokVer (hokHdrOf f) = 1 → hokType (hokHdrOf f) = 1 →
    hokLen (hokHdrOf f) = 320 → s.get Obj.entropyState ≠ 1 →
    (upto 4).find? (fun k => !s.dict.sessions.any (fun q => q.s == k)) = some k →
    ∃ t, exec (.hokHelloRx f) s = .next t ∧ s.SameMem t ∧
      match s.hokKeyOf f with
      | none => t.get Obj.hokAuthFail = min (s.get Obj.hokAuthFail + 1) (maxU 64) ∧ t.dict.sessions = s.dict.sessions
      | some key => if Config.ecdsaVerify (hokIdM f) ((hokData f).take 226) (hokSig f) = false
          then t.get Obj.hokAuthFail = min (s.get Obj.hokAuthFail + 1) (maxU 64) ∧ t.dict.sessions = s.dict.sessions
          else t.dict.sessions.any (fun q => q.s == k && q.key == key && q.addr == f.src && q.lastSeq == 0) = true) ∧
  (∀ (f : HokRx) (q : HokSession) (s : State), s.mgmtLive = true → f.bytes.length ≤ 9120 → 48 ≤ f.bytes.length →
    hokVer (hokHdrOf f) = 1 → hokLen (hokHdrOf f) = f.bytes.length - 16 →
    s.dict.sessions.find? (fun q => q.sid == hokSid (hokHdrOf f)) = some q →
    (hokType (hokHdrOf f) = 3 → (opHokRequestRx f s.work).Sound →
      ∃ t, exec (.hokRequestRx f) s = .next t ∧
        if Config.hmac q.kmd ((hokData f).take (f.bytes.length - 32)) % 2 ^ 256 ≠ beNat ((hokData f).drop (f.bytes.length - 32))
        then t.get Obj.hokMacFail = min (s.get Obj.hokMacFail + 1) (maxU 64)
        else (q.lastSeq < hokSeq (hokHdrOf f) → ∀ p ∈ t.dict.sessions, p.s = q.s → p.lastSeq = hokSeq (hokHdrOf f)) ∧
          (hokSeq (hokHdrOf f) < q.lastSeq → t.get Obj.hokReplay = min (s.get Obj.hokReplay + 1) (maxU 64))) ∧
    (hokType (hokHdrOf f) = 8 →
      ∃ t, exec (.hokCloseRx f) s = .next t ∧ s.SameMem t ∧
        if Config.hmac q.kmd ((hokData f).take (f.bytes.length - 32)) % 2 ^ 256 ≠ beNat ((hokData f).drop (f.bytes.length - 32))
        then t.get Obj.hokMacFail = min (s.get Obj.hokMacFail + 1) (maxU 64)
        else ∀ p ∈ t.dict.sessions, p.s ≠ q.s)) ∧
  (∀ (k : Fin 4) (q : HokSession) (s : State), s.dict.sessions.find? (fun q => q.s == k.val) = some q →
    s.get Obj.hokIdleS * 1000000000 ≤ s.since q.lastValid →
    ∃ t, exec (.hokIdleTimeout k) s = .next t ∧ s.SameMem t ∧ s.KeepsBut t logObjs ∧ ∀ p ∈ t.dict.sessions, p.s ≠ k.val)

/-- The management port (R504, R505, R514): a NOTIFY that is acknowledged is done with, one that is not is sent again three times and then
counts as lost; a frame for nobody counts as dropped; MGMT_COMMIT closes every session and HOK_COMMIT does where HOK_PORT changes; the
link is up or down as it is told. -/
def Obligations.ManagementPort : Prop :=
  (∀ (f : HokRx) (s : State), s.mgmtLive = true → f.bytes.length ≤ 9120 → 16 ≤ f.bytes.length → hokVer (hokHdrOf f) = 1 →
    hokLen (hokHdrOf f) = f.bytes.length - 16 → hokType (hokHdrOf f) = 6 → hokSid (hokHdrOf f) = 0 →
    ∃ t, exec (.hokNotifyAckRx f) s = .next t ∧ s.SameMem t ∧ s.KeepsBut t [Obj.mgmtRxFrames] ∧
      ∀ n ∈ t.log.notifs, n.seq = hokSeq (hokHdrOf f) → (s.notifyDest n.dest).1 ≠ f.src) ∧
  (∀ (k : Fin 4) (seq : Nat) (n : Notif) (s : State), s.log.notifs.find? (fun n => n.dest == k.val && n.seq == seq) = some n →
    100000000 ≤ s.since n.sentAt →
    (n.resends < 3 → ∃ t, exec (.notifyResend k seq) s = .next t ∧ s.SameMem t ∧ s.KeepsBut t [Obj.mgmtTxFrames] ∧
      t.log.notifs.any (fun m => m.dest == k.val && m.seq == seq && m.resends == n.resends + 1 && m.sentAt == s.time) = true) ∧
    (3 ≤ n.resends → ∃ t, exec (.notifyResend k seq) s = .next t ∧ s.SameMem t ∧ s.KeepsBut t logObjs ∧
      min (s.get Obj.notifyLost + 1) (maxU 64) ≤ t.get Obj.notifyLost)) ∧
  (∀ s : State, s.mgmtLive = true → ∃ t, exec (.mgmtFrameRx .other) s = .next t ∧ s.SameMem t ∧
    s.KeepsBut t [Obj.mgmtRxFrames, Obj.mgmtRxDrop] ∧ t.get Obj.mgmtRxDrop = min (s.get Obj.mgmtRxDrop + 1) (maxU 64)) ∧
  (∀ (wr : Writer) (s : State),
    (s.takes wr .host Obj.hokCommit → s.get Obj.hokCommit ≠ 1 →
      ∃ t, exec (.hokCommit wr) s = .next t ∧ s.SameMem t ∧ t.get Obj.hokCommit = 0 ∧ t.get Obj.hokPort = s.getS Obj.hokPort ∧
        (t.get Obj.hokPort ≠ s.get Obj.hokPort → t.dict.sessions = [])) ∧
    (s.takes wr .host Obj.mgmtCommit → s.get Obj.mgmtCommit ≠ 1 →
      ∃ t, exec (.mgmtCommit wr) s = .next t ∧ s.SameMem t ∧ t.get Obj.mgmtCommit = 0 ∧ t.dict.sessions = [] ∧
        ∀ n ∈ mgmtScalars, t.get n = s.getS n) ∧
    (s.takes wr .host Obj.notifyCommit →
      ∃ t, exec (.notifyCommit wr) s = .next t ∧ s.SameMem t ∧ s.KeepsBut t [] ∧ Obj.notifyDest ∈ t.dict.dirty)) ∧
  (∀ s : State, (s.mgmtUp = true → ∃ t, exec .mgmtLinkUp s = .next t ∧ s.SameMem t ∧ t.get Obj.mgmtLink = 1 ∧
      s.KeepsBut t [Obj.mgmtLink]) ∧
    (∃ t, exec .mgmtLinkDown s = .next t ∧ s.SameMem t ∧ t.get Obj.mgmtLink = 0 ∧ s.KeepsBut t [Obj.mgmtLink]))

/-- A store write leaves its object clean, or the store FAILED (R492, R493); an erasure is marked; LOG_CLEAR makes the next record the
oldest; a reader's position is its own (R518); the records dropped are told in a record (R516); a decision that breaks a policy object
counts, and one that does not changes nothing (R500). -/
def Obligations.StoreAndLog : Prop :=
  (∀ (n : Nat) (s : State), s.boot.held = false → s.boot.vsbLost = false → s.get Obj.storeState ≠ 2 → s.storeDirty n = true →
    s.dict.storeAt.find? (fun p => p.1 == n) = none →
    (∃ t, exec (.storeWrite n 0) s = .next t ∧ s.SameMem t ∧ s.KeepsBut t [Obj.storeWrites] ∧
      t.get Obj.storeWrites = min (s.get Obj.storeWrites + 1) (maxU 64) ∧ n ∉ t.dict.dirty) ∧
    (∃ t, exec (.storeWrite n 2) s = .next t ∧ s.SameMem t ∧ t.get Obj.storeState = 2 ∧ s.KeepsBut t (Obj.storeState :: logObjs) ∧
      t.dict.storeObj = s.dict.storeObj)) ∧
  (∀ (wr : Writer) (v : Nat) (s : State), s.takes wr .host Obj.storeErase →
    (v % 256 = 0x5A → ∃ t, exec (.storeErase wr v 0) s = .next t ∧ s.SameMem t ∧ s.KeepsBut t [] ∧ t.dict.erase = true) ∧
    (v % 256 ≠ 0x5A → ∃ t, exec (.storeErase wr v 0) s = .next t ∧ s.SameMem t ∧ s.KeepsBut t (Obj.clampCount :: logObjs) ∧
      t.dict.erase = s.dict.erase)) ∧
  (∀ (wr : Writer) (s : State), s.takes wr .host Obj.logClear →
    ∃ t, exec (.logClear wr) s = .next t ∧ s.SameMem t ∧ s.KeepsBut t logObjs ∧ t.get Obj.logOldestSeq = s.get Obj.logNextSeq) ∧
  (∀ (wr : Writer) (v : Nat) (s : State), s.takes wr .any Obj.logReadSeq →
    ∃ t, exec (.logReadSeqWrite wr v) s = .next t ∧ s.SameMem t ∧ s.KeepsBut t [] ∧
      Store.get (fun _ => 0) t.log.readSeq (readerKey wr) = v % 2 ^ 64) ∧
  (∀ s : State, 0 < s.log.lost → 0 < s.logRoom →
    ∃ t, exec .logDropped s = .next t ∧ s.SameMem t ∧ s.KeepsBut t logObjs ∧ s.get Obj.logNextSeq < t.get Obj.logNextSeq) ∧
  (∀ (n seen : Nat) (s : State), s.ready = true → isPolicy n = true → s.get n ≠ seen →
    (∃ t, exec (.fwDecision n seen true) s = .next t ∧ s.SameMem t ∧ s.KeepsBut t (Obj.fwOverrideCount :: logObjs) ∧
      t.get Obj.fwOverrideCount = min (s.get Obj.fwOverrideCount + 1) (maxU 64)) ∧
    (∃ t, exec (.fwDecision n seen false) s = .next t ∧ s.SameMem t ∧ s.KeepsBut t []))

/-! ## Host port, start-up, security, power and test -/

/-- The host port (R527 to R531): the bytes of a completion land at their host-window address and nowhere else, an error or a timeout
counts, a function-level reset takes the function's bus mastering and interrupts, PERST also drops every object window, and a link change
brings the host's configuration. -/
def Obligations.HostPortActs : Prop :=
  (∀ (r : Agent) (a : Nat) (d : List Byte) (s : State), s.hostReads r = true → a < 2 ^ 47 → d.length ≤ 2 ^ 47 - a →
    ∃ t, exec (.hostCplRx r a (.data d)) s = .next t ∧ s.KeepsBut t [] ∧
      (∀ k, k < d.length → t.byte (2 ^ 47 + a + k) = d.getD k 0#8) ∧
      (∀ b, b < 2 ^ 47 + a ∨ 2 ^ 47 + a + d.length ≤ b → t.byte b = s.byte b)) ∧
  (∀ (r : Agent) (a st : Nat) (s : State), s.hostReads r = true →
    ((opHostCplRx r a (.error st) s.work).Sound → ∃ t, exec (.hostCplRx r a (.error st)) s = .next t ∧
      (r = .other → s.SameMem t ∧ t.get Obj.hostAccessErrors = min (s.get Obj.hostAccessErrors + 1) (maxU 64))) ∧
    (s.mayTimeOut r = true → (opHostCplTimeout r a s.work).Sound → ∃ t, exec (.hostCplTimeout r a) s = .next t ∧
      (r = .other → s.SameMem t ∧ t.get Obj.hostCplTimeouts = min (s.get Obj.hostCplTimeouts + 1) (maxU 64)))) ∧
  (∀ s : State, s.boot.held = false →
    (∀ c : Fin 16, c ≠ 0 → s.fnEnabled c = true → (opFlrVf c s.work).Sound →
      ∃ t, exec (.flrVf c) s = .next t ∧ c.val ∉ t.pcie.busMaster ∧ c.val ∉ t.pcie.msix ∧
        (s.ready = false → s.SameMem t ∧ t.get Obj.flrCount = min (s.get Obj.flrCount + 1) (maxU 64))) ∧
    ((opFlrPf s.work).Sound →
      ∃ t, exec .flrPf s = .next t ∧ (∀ c, c < 16 → c ∉ t.pcie.busMaster ∧ c ∉ t.pcie.msix) ∧
        (s.ready = false → s.SameMem t ∧ t.get Obj.numVfs = 0 ∧ t.get Obj.flrCount = min (s.get Obj.flrCount + 1) (maxU 64))) ∧
    ((opPciePerst s.work).Sound →
      ∃ t, exec .pciePerst s = .next t ∧ (∀ c, c < 16 → c ∉ t.pcie.busMaster ∧ c ∉ t.pcie.msix) ∧ t.dict.windows = [] ∧
        (s.ready = false → s.SameMem t ∧ t.get Obj.numVfs = 0 ∧ t.get Obj.flrCount = s.get Obj.flrCount))) ∧
  (∀ (rate : Fin 7) (width : Fin 17) (cfg : HostCfg) (s : State), s.pcieUp = true →
    ∃ t, exec (.hostLinkChanged rate width cfg) s = .next t ∧ s.SameMem t ∧ t.get Obj.hostLinkRate = rate.val ∧
      t.get Obj.hostLinkWidth = width.val ∧ t.get Obj.numVfs = (if s.get Obj.bootState = 7 then 0 else cfg.numVfs.val) ∧
      t.pcie.busMaster = cfg.busMaster.map (fun f => f.val) ∧
      s.KeepsBut t (Obj.hostLinkRate :: Obj.hostLinkWidth :: Obj.numVfs :: logObjs))

/-- Start-up (R532, Table 18.5): a released reset verifies the firmware under a new INCARNATION or fails; the phases follow each other as
each reports its end, and DEVICE_READY leaves context 0 ACTIVE; a reset asserted holds the block. -/
def Obligations.StartUpPhases : Prop :=
  (∀ s : State, s.boot.held = true → s.boot.vsbLost = false →
    (∃ t, exec (.coldResetRelease true true true) s = .next t ∧ s.SameMem t ∧ t.boot.testMode = true ∧ t.boot.rails = true ∧
      t.boot.held = false) ∧
    (∃ t, exec (.coldResetRelease false false true) s = .next t ∧ s.SameMem t ∧ t.get Obj.bootState = 8 ∧ t.get Obj.bootFail = 2) ∧
    (∃ t, exec (.coldResetRelease false true false) s = .next t ∧ s.SameMem t ∧ t.get Obj.bootState = 8 ∧ t.get Obj.bootFail = 3) ∧
    (∃ t, exec (.coldResetRelease false true true) s = .next t ∧ s.SameMem t ∧ t.get Obj.bootState = 1 ∧
      t.get Obj.incarnation ≠ 0)) ∧
  (∀ s : State, s.boot.held = false →
    (∀ bad : List Nat, s.get Obj.bootState = 1 → (opFwVerifyDone bad s.work).Sound →
      ∃ t, exec (.fwVerifyDone bad) s = .next t ∧ t.get Obj.bootState = if (s.work.verifyBoot bad).1 then 2 else 7) ∧
    (∀ (rate : Fin 7) (width : Fin 17), s.get Obj.bootState = 2 →
      ∃ t, exec (.diePowerDone rate width) s = .next t ∧ s.SameMem t ∧ t.get Obj.bootState = 3 ∧ t.boot.rails = true ∧
        ∀ p, p < 20 → t.get (partState p) = 1) ∧
    (∀ (slow dead : List Nat) (lanes : List (Nat × Nat × Nat)), s.get Obj.bootState = 3 → s.boot.rails = true →
      ∃ t, exec (.memTrainDone slow dead lanes) s = .next t ∧ s.SameMem t ∧ t.get Obj.bootState = 4) ∧
    (∀ (res : List (Fin 32 × Nat × Nat)) (cfg : HostCfg), s.get Obj.bootState = 4 → s.boot.rails = true → (opDeviceReady res cfg s.work).Sound →
      ∃ t, exec (.deviceReady res cfg) s = .next t ∧ t.get Obj.bootState = 5 ∧ t.get (Obj.ctxState 0) = 1 ∧
        t.get Obj.numVfs = cfg.numVfs.val)) ∧
  (∀ s : State, (opColdRstAssert s.work).Sound →
    ∃ t, exec .coldRstAssert s = .next t ∧ t.boot.held = true ∧ t.q.cmds = [] ∧ t.q.pats = [] ∧ t.dict.sessions = [] ∧
      t.log.recs = [] ∧ t.boot.rails = false)

/-- Firmware banks (R536, R537): staged bytes lie in the bank that does not run; a commit verifies the image, which is then PENDING or
refused with its reason; the security version fuse only rises. Attestation (R540): a request fixes the body of its report and is PENDING
until the report is signed, oldest first. Entropy (R538): a failed health test is counted and holds until three retests in a row pass. -/
def Obligations.FirmwareAndEntropy : Prop :=
  (∀ (wr : Writer) (off : Nat) (data : List Byte) (s : State), s.takes wr .host Obj.fwStage →
    (s.get Obj.fwStageState ≠ 2 → 0 < data.length → off + data.length ≤ 16777472 →
      ∃ t, exec (.fwStage wr off data) s = .next t ∧ s.SameMem t ∧ t.get Obj.fwBank = s.get Obj.fwBank ∧
        ∀ k, k < data.length →
          Store.get (fun _ => 256) t.boot.flash ((1 - s.get Obj.fwBank) * 2 ^ 32 + off + k) = (data.getD k 0#8).toNat) ∧
    (s.get Obj.fwStageState = 2 →
      ∃ t, exec (.fwStage wr off data) s = .next t ∧ s.SameMem t ∧ t.boot.flash = s.boot.flash ∧
        s.KeepsBut t (Obj.clampCount :: logObjs))) ∧
  (∀ (wr : Writer) (s : State), s.takes wr .host Obj.fwStageCommit →
    (s.get Obj.fwStageState ≠ 2 → ∃ t, exec (.fwStageCommit wr) s = .next t ∧ s.SameMem t ∧ t.get Obj.fwStageState = 2 ∧
      s.KeepsBut t [Obj.fwStageState]) ∧
    (s.get Obj.fwStageState = 2 → ∃ t, exec (.fwStageCommit wr) s = .next t ∧ s.SameMem t ∧
      s.KeepsBut t (Obj.clampCount :: logObjs))) ∧
  (∀ s : State, s.get Obj.fwStageState = 2 →
    (∃ t, exec (.fwStageVerifyDone true) s = .next t ∧ s.SameMem t ∧ t.get Obj.fwStageState = 4 ∧ t.get Obj.fwStageReason = 6) ∧
    (s.get Obj.bootState ≠ 7 →
      ∃ t, exec (.fwStageVerifyDone false) s = .next t ∧ s.SameMem t ∧
        if s.imageCheck s.stageBank = 0 then t.get Obj.fwStageState = 3 ∧ t.get Obj.fwBootBank = s.stageBank
        else t.get Obj.fwStageState = 4 ∧ t.get Obj.fwStageReason = s.imageCheck s.stageBank)) ∧
  (∀ (wr : Writer) (s : State), s.takes wr .host Obj.fwSvnCommit →
    ∃ t, exec (.fwSvnCommit wr) s = .next t ∧ s.SameMem t ∧ s.boot.burned ≤ t.boot.burned ∧
      if s.svnFuse < s.get Obj.fwSvn then t.boot.burned = max s.boot.burned (min (s.get Obj.fwSvn) 63) ∧ s.KeepsBut t []
      else t.boot.burned = s.boot.burned ∧ s.KeepsBut t (Obj.clampCount :: logObjs)) ∧
  (∀ (wr : Writer) (x : Fin 16) (s : State), s.takes wr (.own x) (Obj.attestReq x) →
    (s.get (Obj.attestState x) ≠ 1 → ∃ t, exec (.attestReq wr x) s = .next t ∧ s.SameMem t ∧ t.get (Obj.attestState x) = 1 ∧
      s.KeepsBut t [Obj.attestState x] ∧ t.boot.attest.any (fun a => a.ctx == x.val && a.since == s.time) = true) ∧
    (s.get (Obj.attestState x) = 1 → ∃ t, exec (.attestReq wr x) s = .next t ∧ s.SameMem t ∧
      s.KeepsBut t (Obj.clampCount :: logObjs) ∧ t.boot.attest = s.boot.attest)) ∧
  (∀ (x : Fin 16) (a : Attest) (s : State), s.boot.attest.find? (fun a => a.ctx == x.val) = some a →
    s.boot.attest.any (fun b => b.before a) = false →
    ∃ t, exec (.attestDone x) s = .next t ∧ s.SameMem t ∧ t.get (Obj.attestState x) = 2 ∧ s.KeepsBut t [Obj.attestState x] ∧
      t.blobNat .active (Obj.attestReport x) 0 192 = a.body % 2 ^ 1536 ∧ ∀ b ∈ t.boot.attest, b.ctx ≠ x) ∧
  (∀ s : State, s.boot.held = false → s.boot.vsbLost = false → s.get Obj.bootState ≠ 0 → s.get Obj.bootState ≠ 8 →
    s.get Obj.entropyState ≠ 1 →
    ∃ t, exec .entropyFailed s = .next t ∧ s.SameMem t ∧ t.get Obj.entropyState = 1 ∧
      t.get Obj.entropyFails = min (s.get Obj.entropyFails + 1) (maxU 64) ∧
      s.KeepsBut t (Obj.entropyState :: Obj.entropyFails :: logObjs)) ∧
  (∀ s : State, s.get Obj.entropyState ≠ 0 → 1000000000 ≤ s.since s.boot.retestAt →
    (2 ≤ s.boot.passes → ∃ t, exec (.entropyRetest true) s = .next t ∧ s.SameMem t ∧ t.get Obj.entropyState = 0 ∧
      s.KeepsBut t [Obj.entropyState]) ∧
    (∃ t, exec (.entropyRetest false) s = .next t ∧ s.SameMem t ∧ t.boot.passes = 0 ∧ s.KeepsBut t []))

/-- Supplies and throttling (R552, R554, R555): a supply near its limit is counted and told, a trip or THERMTRIP takes the rails away with
everything in flight, a decision reads the sensors, and a fast throttle divides the clocks for at least 1 ms. -/
def Obligations.PowerIsGuarded : Prop :=
  (∀ (mv : Nat) (s : State), s.powered = true →
    (36000 ≤ mv → mv < 40000 → ∃ t, exec (.inputLow mv) s = .next t ∧ s.SameMem t ∧ t.boot.vinOut = true ∧
      t.get Obj.inputLowCount = min (s.get Obj.inputLowCount + 1) (maxU 64) ∧ s.KeepsBut t (Obj.inputLowCount :: logObjs)) ∧
    (60000 < mv → mv ≤ 62000 → ∃ t, exec (.inputHigh mv) s = .next t ∧ s.SameMem t ∧ t.boot.vinOut = true ∧
      t.get Obj.inputHighCount = min (s.get Obj.inputHighCount + 1) (maxU 64) ∧ s.KeepsBut t (Obj.inputHighCount :: logObjs)) ∧
    (∀ hi : Bool, s.boot.rails = true → (opP48vTrip hi s.work).Sound → ∃ t, exec (.p48vTrip hi) s = .next t ∧ t.boot.tripped = true ∧
      t.boot.rails = false ∧ t.log.recs = [] ∧ t.rst.runs = []) ∧
    (∀ (dram : Bool) (die : Fin 4), s.boot.rails = true → (opThermtrip dram die s.work).Sound → ∃ t, exec (.thermtrip dram die) s = .next t ∧
      t.boot.thermtrip = true ∧ t.boot.rails = false ∧ t.log.recs = [] ∧ t.rst.runs = [])) ∧
  (∀ s : State, (∃ t, exec .p48vInRange s = .next t ∧ s.SameMem t ∧ s.KeepsBut t [] ∧ t.boot.vinOut = false) ∧
    ((opP12vSbLoss s.work).Sound → ∃ t, exec .p12vSbLoss s = .next t ∧ t.boot.vsbLost = true ∧ t.boot.held = s.boot.held ∧
      t.q.cmds = [] ∧ t.boot.rails = false)) ∧
  (∀ (r : Sensors) (s : State), s.ready = true →
    ∃ t, exec (.throttleDecision r) s = .next t ∧ s.SameMem t ∧ t.get Obj.powerNowW = min r.power (maxU 16) ∧
      t.get Obj.vinMv = min r.vin (maxU 32) ∧ t.get (Obj.tjMaxC 2) = toSigned 32 r.io0) ∧
  (∀ (c i : Bool) (s : State), s.ready = true → (c || i) = true →
    ∃ t, exec (.fastThrottle c i) s = .next t ∧ s.SameMem t ∧ t.clk.div = true ∧ t.clk.divAt = s.time ∧
      t.get Obj.throttleStep = 2 ∧ t.get Obj.fastThrottleCount =
        if s.clk.div then s.get Obj.fastThrottleCount else min (s.get Obj.fastThrottleCount + 1) (maxU 64)) ∧
  (∀ s : State, s.clk.div = true →
    (1000000 ≤ s.since s.clk.divAt → ∃ t, exec .fastThrottleRelease s = .next t ∧ s.SameMem t ∧ t.clk.div = false) ∧
    (s.since s.clk.divAt < 1000000 → ∃ t, exec .fastThrottleRelease s = .next t ∧ s.SameMem t ∧ s.KeepsBut t []))

/-- The test access port (R562 to R565, Table 19.9): an instruction open to all is in force and shifts out what it selects; one that
drives pins outside test mode leaves BYPASS in force and is counted, and so does a code that selects none, uncounted. -/
def Obligations.TestAccess : Prop :=
  ∀ s : State, s.boot.vsbLost = false →
    (∃ t, exec (.tapReset false) s = .next t ∧ s.SameMem t ∧ t.get Obj.tapInstr = 4 ∧ s.KeepsBut t [Obj.tapInstr]) ∧
    (∀ (i : Instr) (code out : Nat), (i, code, out) ∈ [(Instr.idcode, 4, idcodeNum), (.usercode, 6, serialNum % 2 ^ 32)] →
      ∃ t, exec i s = .next t ∧ s.SameMem t ∧ t.get Obj.tapInstr = code ∧ s.KeepsBut t [Obj.tapInstr] ∧
        t.sent = [.tap code out]) ∧
    (∀ (pins load : Nat), ∃ t, exec (.samplePreload pins load) s = .next t ∧ s.SameMem t ∧ t.get Obj.tapInstr = 2 ∧
      s.KeepsBut t [Obj.tapInstr] ∧ t.boot.bsr = load % bsrBits ∧ t.sent = [.tap 2 (pins % bsrBits)]) ∧
    (∀ (pins load : Nat) (i : Instr) (code : Nat), (i, code) ∈ [(Instr.extest pins load, 0), (.clamp, 3), (.highz, 5), (.extestPulse pins load, 8),
        (.extestTrain pins load, 9)] →
      (s.boot.testMode = true → ∃ t, exec i s = .next t ∧ s.SameMem t ∧ t.get Obj.tapInstr = code ∧ s.KeepsBut t [Obj.tapInstr]) ∧
      (s.boot.testMode = false → ∃ t, exec i s = .next t ∧ s.SameMem t ∧ t.get Obj.tapInstr = 0xFF ∧
        t.get Obj.tapDeniedCount = min (s.get Obj.tapDeniedCount + 1) (maxU 64) ∧ t.boot.bsr = s.boot.bsr)) ∧
    (∀ code : Fin 256, tapListed.contains code.val = false →
      ∃ t, exec (.bypass code) s = .next t ∧ s.SameMem t ∧ t.get Obj.tapInstr = 0xFF ∧ s.KeepsBut t [Obj.tapInstr])

/-! ## Numbers -/

/-- The device encodes five trits of one byte as the sum of (t + 1)·3^i, trit i of byte j belongs to element 5j + i, and a code up to 242
decodes digit by digit to its digit less 1 (R36). -/
def Obligations.TritsAreCoded : Prop :=
  (∀ l : List Nat, l.length = 5 → (∀ d ∈ l, d < 3) →
    tritByte l = l.getD 0 0 + l.getD 1 0 * 3 + l.getD 2 0 * 9 + l.getD 3 0 * 27 + l.getD 4 0 * 81) ∧
  (∀ (blk : Nat) (l : List Nat) (i : Nat), blk = 32 ∨ blk = 64 → l.length = blk → (∀ d ∈ l, d < 3) → i < blk →
    elemCode .n2t blk (fun j => (tritBytes (ceilDiv blk 5) l).getD j 0) i = l.getD i 0) ∧
  (∀ c i, c < 243 → i < 5 → tritOf c i = ((c / 3 ^ i % 3 : Nat) : Int) - 1)
end

