-- ==== Sys2Proof/Laws/Store.lean ====
section
/-!
SUPPORT. Sys2Proof/Laws/Store.lean: a store reads back what was written, keeps every other key, and keeps its canonical form; the
same for memory and for a list of writes.
-/
namespace Sys2Proof.Machine

variable {α : Type} [DecidableEq α] {d : Nat → α}

omit [DecidableEq α] in
theorem Store.get_erase (k j : Nat) (m : List (Nat × α)) :
    Store.get d (Store.erase k m) j = if j = k then d k else Store.get d m j := by
  induction m with
  | nil => by_cases h : j = k <;> simp [Store.erase, Store.get, h]
  | cons p r ih =>
    obtain ⟨a, v⟩ := p
    by_cases h : a = k
    · have e : Store.erase k ((a, v) :: r) = Store.erase k r := by simp [Store.erase, h]
      rw [e, ih]
      by_cases hj : j = k
      · simp [hj]
      · have : ¬ a = j := fun e => hj (e.symm.trans h)
        simp [hj, Store.get, this]
    · have e : Store.erase k ((a, v) :: r) = (a, v) :: Store.erase k r := by simp [Store.erase, h]
      rw [e]
      by_cases hj : a = j
      · have : ¬ j = k := fun e => h (hj.trans e)
        simp [Store.get, hj, this]
      · simp [Store.get, hj, ih]

omit [DecidableEq α] in
theorem Store.get_insert (k j : Nat) (v : α) (m : List (Nat × α)) (h : ∀ p ∈ m, p.1 ≠ k) :
    Store.get d (Store.insert k v m) j = if j = k then v else Store.get d m j := by
  induction m with
  | nil =>
    by_cases hj : k = j
    · simp [Store.insert, Store.get, hj]
    · simp [Store.insert, Store.get, hj, Ne.symm hj]
  | cons p r ih =>
    obtain ⟨a, w⟩ := p
    have ha : a ≠ k := h (a, w) (by simp)
    have hr : ∀ p ∈ r, p.1 ≠ k := fun p hp => h p (by simp [hp])
    by_cases hk : k < a
    · by_cases hj : j = k
      · simp only [Store.insert, if_pos hk, Store.get, hj, if_true]
      · simp only [Store.insert, if_pos hk, Store.get, if_neg hj, if_neg (Ne.symm hj)]
    · simp only [Store.insert, if_neg hk, Store.get, ih hr]
      by_cases hj : a = j
      · have : ¬ j = k := fun e => ha (hj.trans e)
        simp only [if_pos hj, if_neg this]
      · simp only [if_neg hj]

omit [DecidableEq α] in
theorem Store.mem_erase (k : Nat) (m : List (Nat × α)) : ∀ p ∈ Store.erase k m, p.1 ≠ k := by
  intro p hp
  simpa using (List.mem_filter.mp hp).2

/-- A write is read back, and every other key reads as before. -/
theorem Store.get_set (m : List (Nat × α)) (k j : Nat) (v : α) :
    Store.get d (Store.set d m k v) j = if j = k then v else Store.get d m j := by
  unfold Store.set
  split
  · rename_i h
    rw [Store.get_erase, h]
  · rw [Store.get_insert k j v _ (Store.mem_erase k m), Store.get_erase]
    split <;> rfl

@[simp] theorem Store.get_set_same (m : List (Nat × α)) (k : Nat) (v : α) : Store.get d (Store.set d m k v) k = v := by
  simp [Store.get_set]

theorem Store.get_set_other (m : List (Nat × α)) {k j : Nat} (v : α) (h : j ≠ k) :
    Store.get d (Store.set d m k v) j = Store.get d m j := by
  simp [Store.get_set, h]

omit [DecidableEq α] in
theorem Store.above_iff (k : Nat) (m : List (Nat × α)) : Store.above k m = true ↔ ∀ p ∈ m, k < p.1 := by
  simp [Store.above]

theorem Store.wf_cons (a : Nat) (v : α) (r : List (Nat × α)) :
    Store.wf d ((a, v) :: r) = true ↔ v ≠ d a ∧ (∀ p ∈ r, a < p.1) ∧ Store.wf d r = true := by
  simp [Store.wf, Store.above, and_assoc]

theorem Store.wf_erase (k : Nat) (m : List (Nat × α)) (h : Store.wf d m = true) : Store.wf d (Store.erase k m) = true := by
  induction m with
  | nil => rfl
  | cons p r ih =>
    obtain ⟨a, v⟩ := p
    obtain ⟨h1, h2, h3⟩ := (Store.wf_cons a v r).mp h
    by_cases hk : a = k
    · have e : Store.erase k ((a, v) :: r) = Store.erase k r := by simp [Store.erase, hk]
      rw [e]
      exact ih h3
    · have e : Store.erase k ((a, v) :: r) = (a, v) :: Store.erase k r := by simp [Store.erase, hk]
      rw [e, Store.wf_cons]
      exact ⟨h1, fun p hp => h2 p (List.mem_filter.mp hp).1, ih h3⟩

omit [DecidableEq α] in
theorem Store.mem_insert (k : Nat) (v : α) (m : List (Nat × α)) (p : Nat × α) (hp : p ∈ Store.insert k v m) :
    p = (k, v) ∨ p ∈ m := by
  induction m with
  | nil => simpa [Store.insert] using hp
  | cons q r ih =>
    obtain ⟨a, w⟩ := q
    by_cases hk : k < a
    · simpa [Store.insert, hk] using hp
    · simp only [Store.insert, hk, if_false, List.mem_cons] at hp
      rcases hp with h | h
      · simp [h]
      · rcases ih h with h | h <;> simp [h]

theorem Store.wf_insert (k : Nat) (v : α) (m : List (Nat × α)) (hv : v ≠ d k) (hm : ∀ p ∈ m, p.1 ≠ k)
    (h : Store.wf d m = true) : Store.wf d (Store.insert k v m) = true := by
  induction m with
  | nil => simp [Store.insert, Store.wf, Store.above, hv]
  | cons p r ih =>
    obtain ⟨a, w⟩ := p
    obtain ⟨h1, h2, h3⟩ := (Store.wf_cons a w r).mp h
    have ha : a ≠ k := hm (a, w) (by simp)
    by_cases hk : k < a
    · simp only [Store.insert, hk, if_true]
      rw [Store.wf_cons]
      refine ⟨hv, fun p hp => ?_, h⟩
      rcases List.mem_cons.mp hp with rfl | hp
      · exact hk
      · exact Nat.lt_trans hk (h2 p hp)
    · simp only [Store.insert, hk, if_false]
      rw [Store.wf_cons]
      refine ⟨h1, fun p hp => ?_, ih (fun p hp => hm p (by simp [hp])) h3⟩
      rcases Store.mem_insert k v r p hp with rfl | hp
      · exact Nat.lt_of_le_of_ne (Nat.le_of_not_lt hk) ha
      · exact h2 p hp

/-- A write keeps the canonical form. -/
theorem Store.wf_set (m : List (Nat × α)) (k : Nat) (v : α) (h : Store.wf d m = true) : Store.wf d (Store.set d m k v) = true := by
  unfold Store.set
  split
  · exact Store.wf_erase k m h
  · rename_i hv
    exact Store.wf_insert k v _ hv (Store.mem_erase k m) (Store.wf_erase k m h)

/-! ### Memory -/

theorem Memory.get_set (m : List (Nat × Byte)) (a b : Nat) (v : Byte) :
    Memory.get (Memory.set m a v) b = if b = a then v else Memory.get m b := Store.get_set m a b v

theorem Memory.wf_set (m : List (Nat × Byte)) (a : Nat) (v : Byte) (h : Memory.wf m = true) :
    Memory.wf (Memory.set m a v) = true := Store.wf_set m a v h

/-- A string of bytes written keeps the canonical form. -/
theorem Memory.wf_write (d : List Byte) (m : List (Nat × Byte)) (a : Nat) (h : Memory.wf m = true) :
    Memory.wf (Memory.write m a d) = true := by
  induction d generalizing m a with
  | nil => exact h
  | cons b r ih => exact ih _ _ (Memory.wf_set m a b h)

/-- Outside the bytes written, memory reads as before; inside, it reads what was written. -/
theorem Memory.get_write (d : List Byte) (m : List (Nat × Byte)) (a b : Nat) :
    Memory.get (Memory.write m a d) b = if a ≤ b ∧ b < a + d.length then d.getD (b - a) 0#8 else Memory.get m b := by
  induction d generalizing m a with
  | nil =>
    have : ¬ (a ≤ b ∧ b < a + ([] : List Byte).length) := by simp
    rw [Memory.write, if_neg this]
  | cons v r ih =>
    rw [Memory.write, ih, Memory.get_set]
    rcases Nat.lt_trichotomy b a with h | h | h
    · have h1 : ¬ (a + 1 ≤ b ∧ b < a + 1 + r.length) := by omega
      have h2 : ¬ (a ≤ b ∧ b < a + (v :: r).length) := by omega
      have h3 : b ≠ a := by omega
      rw [if_neg h1, if_neg h2, if_neg h3]
    · subst h
      have h1 : ¬ (b + 1 ≤ b ∧ b < b + 1 + r.length) := by omega
      rw [if_neg h1]
      simp
    · have h3 : b ≠ a := by omega
      have h4 : b - a = (b - (a + 1)) + 1 := by omega
      by_cases hb : b < a + (v :: r).length
      · have h1 : a + 1 ≤ b ∧ b < a + 1 + r.length := by simp at hb; omega
        have h2 : a ≤ b ∧ b < a + (v :: r).length := by omega
        rw [if_pos h1, if_pos h2, h4, List.getD_cons_succ]
      · have h1 : ¬ (a + 1 ≤ b ∧ b < a + 1 + r.length) := by simp at hb; omega
        have h2 : ¬ (a ≤ b ∧ b < a + (v :: r).length) := by omega
        rw [if_neg h1, if_neg h2, if_neg h3]

/-- A list of writes keeps the canonical form. -/
theorem Memory.wf_applyAll (l : List MemWrite) (m : List (Nat × Byte)) (h : Memory.wf m = true) :
    Memory.wf (Memory.applyAll m l) = true := by
  induction l with
  | nil => exact h
  | cons x r ih => exact Memory.wf_write x.data _ x.addr ih

/-- A byte that no write of the list covers reads as before. -/
theorem Memory.get_applyAll_outside (l : List MemWrite) (m : List (Nat × Byte)) (b : Nat)
    (h : ∀ x ∈ l, ¬ (x.addr ≤ b ∧ b < x.addr + x.data.length)) : Memory.get (Memory.applyAll m l) b = Memory.get m b := by
  induction l with
  | nil => rfl
  | cons x r ih =>
    rw [Memory.applyAll, Memory.get_write, if_neg (h x (by simp))]
    exact ih (fun y hy => h y (by simp [hy]))

end Sys2Proof.Machine
end

