-- ==== Sys2Proof/Laws/State.lean ====
section
/-!
SUPPORT. Sys2Proof/Laws/State.lean: each field of the device after each of its updates (the writes list stands in Laws/Outputs.lean),
the reads of an object after a write of one, and the fields of the two ids that a command draws.
-/
namespace Sys2Proof.Machine

/-! ### put -/

@[simp] theorem Work.put_time (n v : Nat) (w : Work) : (w.put n v).time = w.time := rfl
@[simp] theorem Work.put_obj (n v : Nat) (w : Work) : (w.put n v).obj = Store.set objDefault w.obj n v := rfl
@[simp] theorem Work.put_objS (n v : Nat) (w : Work) : (w.put n v).objS = w.objS := rfl
@[simp] theorem Work.put_objP (n v : Nat) (w : Work) : (w.put n v).objP = w.objP := rfl
@[simp] theorem Work.put_blob (n v : Nat) (w : Work) : (w.put n v).blob = w.blob := rfl
@[simp] theorem Work.put_blobS (n v : Nat) (w : Work) : (w.put n v).blobS = w.blobS := rfl
@[simp] theorem Work.put_blobP (n v : Nat) (w : Work) : (w.put n v).blobP = w.blobP := rfl
@[simp] theorem Work.put_log (n v : Nat) (w : Work) : (w.put n v).log = w.log := rfl
@[simp] theorem Work.put_sent (n v : Nat) (w : Work) : (w.put n v).sent = w.sent := rfl
@[simp] theorem Work.put_nextId (n v : Nat) (w : Work) : (w.put n v).nextId = w.nextId := rfl
@[simp] theorem Work.put_free (n v : Nat) (w : Work) : (w.put n v).free = w.free := rfl
@[simp] theorem Work.put_pcie (n v : Nat) (w : Work) : (w.put n v).pcie = w.pcie := rfl
@[simp] theorem Work.put_q (n v : Nat) (w : Work) : (w.put n v).q = w.q := rfl
@[simp] theorem Work.put_bob (n v : Nat) (w : Work) : (w.put n v).bob = w.bob := rfl
@[simp] theorem Work.put_hoop (n v : Nat) (w : Work) : (w.put n v).hoop = w.hoop := rfl
@[simp] theorem Work.put_ext (n v : Nat) (w : Work) : (w.put n v).ext = w.ext := rfl
@[simp] theorem Work.put_sched (n v : Nat) (w : Work) : (w.put n v).sched = w.sched := rfl
@[simp] theorem Work.put_picot (n v : Nat) (w : Work) : (w.put n v).picot = w.picot := rfl
@[simp] theorem Work.put_net (n v : Nat) (w : Work) : (w.put n v).net = w.net := rfl
@[simp] theorem Work.put_plait (n v : Nat) (w : Work) : (w.put n v).plait = w.plait := rfl
@[simp] theorem Work.put_dict (n v : Nat) (w : Work) : (w.put n v).dict = w.dict := rfl
@[simp] theorem Work.put_arena (n v : Nat) (w : Work) : (w.put n v).arena = w.arena := rfl
@[simp] theorem Work.put_life (n v : Nat) (w : Work) : (w.put n v).life = w.life := rfl
@[simp] theorem Work.put_pair (n v : Nat) (w : Work) : (w.put n v).pair = w.pair := rfl
@[simp] theorem Work.put_health (n v : Nat) (w : Work) : (w.put n v).health = w.health := rfl
@[simp] theorem Work.put_rst (n v : Nat) (w : Work) : (w.put n v).rst = w.rst := rfl
@[simp] theorem Work.put_boot (n v : Nat) (w : Work) : (w.put n v).boot = w.boot := rfl
@[simp] theorem Work.put_clk (n v : Nat) (w : Work) : (w.put n v).clk = w.clk := rfl
@[simp] theorem Work.put_mem (n v : Nat) (w : Work) : (w.put n v).mem = w.mem := rfl

/-! ### putS -/

@[simp] theorem Work.putS_time (n v : Nat) (w : Work) : (w.putS n v).time = w.time := rfl
@[simp] theorem Work.putS_obj (n v : Nat) (w : Work) : (w.putS n v).obj = w.obj := rfl
@[simp] theorem Work.putS_objS (n v : Nat) (w : Work) : (w.putS n v).objS = Store.set objDefault w.objS n v := rfl
@[simp] theorem Work.putS_objP (n v : Nat) (w : Work) : (w.putS n v).objP = w.objP := rfl
@[simp] theorem Work.putS_blob (n v : Nat) (w : Work) : (w.putS n v).blob = w.blob := rfl
@[simp] theorem Work.putS_blobS (n v : Nat) (w : Work) : (w.putS n v).blobS = w.blobS := rfl
@[simp] theorem Work.putS_blobP (n v : Nat) (w : Work) : (w.putS n v).blobP = w.blobP := rfl
@[simp] theorem Work.putS_log (n v : Nat) (w : Work) : (w.putS n v).log = w.log := rfl
@[simp] theorem Work.putS_sent (n v : Nat) (w : Work) : (w.putS n v).sent = w.sent := rfl
@[simp] theorem Work.putS_nextId (n v : Nat) (w : Work) : (w.putS n v).nextId = w.nextId := rfl
@[simp] theorem Work.putS_free (n v : Nat) (w : Work) : (w.putS n v).free = w.free := rfl
@[simp] theorem Work.putS_pcie (n v : Nat) (w : Work) : (w.putS n v).pcie = w.pcie := rfl
@[simp] theorem Work.putS_q (n v : Nat) (w : Work) : (w.putS n v).q = w.q := rfl
@[simp] theorem Work.putS_bob (n v : Nat) (w : Work) : (w.putS n v).bob = w.bob := rfl
@[simp] theorem Work.putS_hoop (n v : Nat) (w : Work) : (w.putS n v).hoop = w.hoop := rfl
@[simp] theorem Work.putS_ext (n v : Nat) (w : Work) : (w.putS n v).ext = w.ext := rfl
@[simp] theorem Work.putS_sched (n v : Nat) (w : Work) : (w.putS n v).sched = w.sched := rfl
@[simp] theorem Work.putS_picot (n v : Nat) (w : Work) : (w.putS n v).picot = w.picot := rfl
@[simp] theorem Work.putS_net (n v : Nat) (w : Work) : (w.putS n v).net = w.net := rfl
@[simp] theorem Work.putS_plait (n v : Nat) (w : Work) : (w.putS n v).plait = w.plait := rfl
@[simp] theorem Work.putS_dict (n v : Nat) (w : Work) : (w.putS n v).dict = w.dict := rfl
@[simp] theorem Work.putS_arena (n v : Nat) (w : Work) : (w.putS n v).arena = w.arena := rfl
@[simp] theorem Work.putS_life (n v : Nat) (w : Work) : (w.putS n v).life = w.life := rfl
@[simp] theorem Work.putS_pair (n v : Nat) (w : Work) : (w.putS n v).pair = w.pair := rfl
@[simp] theorem Work.putS_health (n v : Nat) (w : Work) : (w.putS n v).health = w.health := rfl
@[simp] theorem Work.putS_rst (n v : Nat) (w : Work) : (w.putS n v).rst = w.rst := rfl
@[simp] theorem Work.putS_boot (n v : Nat) (w : Work) : (w.putS n v).boot = w.boot := rfl
@[simp] theorem Work.putS_clk (n v : Nat) (w : Work) : (w.putS n v).clk = w.clk := rfl
@[simp] theorem Work.putS_mem (n v : Nat) (w : Work) : (w.putS n v).mem = w.mem := rfl

/-! ### putP -/

@[simp] theorem Work.putP_time (n v : Nat) (w : Work) : (w.putP n v).time = w.time := rfl
@[simp] theorem Work.putP_obj (n v : Nat) (w : Work) : (w.putP n v).obj = w.obj := rfl
@[simp] theorem Work.putP_objS (n v : Nat) (w : Work) : (w.putP n v).objS = w.objS := rfl
@[simp] theorem Work.putP_objP (n v : Nat) (w : Work) : (w.putP n v).objP = Store.set objDefault w.objP n v := rfl
@[simp] theorem Work.putP_blob (n v : Nat) (w : Work) : (w.putP n v).blob = w.blob := rfl
@[simp] theorem Work.putP_blobS (n v : Nat) (w : Work) : (w.putP n v).blobS = w.blobS := rfl
@[simp] theorem Work.putP_blobP (n v : Nat) (w : Work) : (w.putP n v).blobP = w.blobP := rfl
@[simp] theorem Work.putP_log (n v : Nat) (w : Work) : (w.putP n v).log = w.log := rfl
@[simp] theorem Work.putP_sent (n v : Nat) (w : Work) : (w.putP n v).sent = w.sent := rfl
@[simp] theorem Work.putP_nextId (n v : Nat) (w : Work) : (w.putP n v).nextId = w.nextId := rfl
@[simp] theorem Work.putP_free (n v : Nat) (w : Work) : (w.putP n v).free = w.free := rfl
@[simp] theorem Work.putP_pcie (n v : Nat) (w : Work) : (w.putP n v).pcie = w.pcie := rfl
@[simp] theorem Work.putP_q (n v : Nat) (w : Work) : (w.putP n v).q = w.q := rfl
@[simp] theorem Work.putP_bob (n v : Nat) (w : Work) : (w.putP n v).bob = w.bob := rfl
@[simp] theorem Work.putP_hoop (n v : Nat) (w : Work) : (w.putP n v).hoop = w.hoop := rfl
@[simp] theorem Work.putP_ext (n v : Nat) (w : Work) : (w.putP n v).ext = w.ext := rfl
@[simp] theorem Work.putP_sched (n v : Nat) (w : Work) : (w.putP n v).sched = w.sched := rfl
@[simp] theorem Work.putP_picot (n v : Nat) (w : Work) : (w.putP n v).picot = w.picot := rfl
@[simp] theorem Work.putP_net (n v : Nat) (w : Work) : (w.putP n v).net = w.net := rfl
@[simp] theorem Work.putP_plait (n v : Nat) (w : Work) : (w.putP n v).plait = w.plait := rfl
@[simp] theorem Work.putP_dict (n v : Nat) (w : Work) : (w.putP n v).dict = w.dict := rfl
@[simp] theorem Work.putP_arena (n v : Nat) (w : Work) : (w.putP n v).arena = w.arena := rfl
@[simp] theorem Work.putP_life (n v : Nat) (w : Work) : (w.putP n v).life = w.life := rfl
@[simp] theorem Work.putP_pair (n v : Nat) (w : Work) : (w.putP n v).pair = w.pair := rfl
@[simp] theorem Work.putP_health (n v : Nat) (w : Work) : (w.putP n v).health = w.health := rfl
@[simp] theorem Work.putP_rst (n v : Nat) (w : Work) : (w.putP n v).rst = w.rst := rfl
@[simp] theorem Work.putP_boot (n v : Nat) (w : Work) : (w.putP n v).boot = w.boot := rfl
@[simp] theorem Work.putP_clk (n v : Nat) (w : Work) : (w.putP n v).clk = w.clk := rfl
@[simp] theorem Work.putP_mem (n v : Nat) (w : Work) : (w.putP n v).mem = w.mem := rfl

/-! ### bump -/

@[simp] theorem Work.bump_time (n k : Nat) (w : Work) : (w.bump n k).time = w.time := rfl
@[simp] theorem Work.bump_objS (n k : Nat) (w : Work) : (w.bump n k).objS = w.objS := rfl
@[simp] theorem Work.bump_objP (n k : Nat) (w : Work) : (w.bump n k).objP = w.objP := rfl
@[simp] theorem Work.bump_blob (n k : Nat) (w : Work) : (w.bump n k).blob = w.blob := rfl
@[simp] theorem Work.bump_blobS (n k : Nat) (w : Work) : (w.bump n k).blobS = w.blobS := rfl
@[simp] theorem Work.bump_blobP (n k : Nat) (w : Work) : (w.bump n k).blobP = w.blobP := rfl
@[simp] theorem Work.bump_log (n k : Nat) (w : Work) : (w.bump n k).log = w.log := rfl
@[simp] theorem Work.bump_sent (n k : Nat) (w : Work) : (w.bump n k).sent = w.sent := rfl
@[simp] theorem Work.bump_nextId (n k : Nat) (w : Work) : (w.bump n k).nextId = w.nextId := rfl
@[simp] theorem Work.bump_free (n k : Nat) (w : Work) : (w.bump n k).free = w.free := rfl
@[simp] theorem Work.bump_pcie (n k : Nat) (w : Work) : (w.bump n k).pcie = w.pcie := rfl
@[simp] theorem Work.bump_q (n k : Nat) (w : Work) : (w.bump n k).q = w.q := rfl
@[simp] theorem Work.bump_bob (n k : Nat) (w : Work) : (w.bump n k).bob = w.bob := rfl
@[simp] theorem Work.bump_hoop (n k : Nat) (w : Work) : (w.bump n k).hoop = w.hoop := rfl
@[simp] theorem Work.bump_ext (n k : Nat) (w : Work) : (w.bump n k).ext = w.ext := rfl
@[simp] theorem Work.bump_sched (n k : Nat) (w : Work) : (w.bump n k).sched = w.sched := rfl
@[simp] theorem Work.bump_picot (n k : Nat) (w : Work) : (w.bump n k).picot = w.picot := rfl
@[simp] theorem Work.bump_net (n k : Nat) (w : Work) : (w.bump n k).net = w.net := rfl
@[simp] theorem Work.bump_plait (n k : Nat) (w : Work) : (w.bump n k).plait = w.plait := rfl
@[simp] theorem Work.bump_dict (n k : Nat) (w : Work) : (w.bump n k).dict = w.dict := rfl
@[simp] theorem Work.bump_arena (n k : Nat) (w : Work) : (w.bump n k).arena = w.arena := rfl
@[simp] theorem Work.bump_life (n k : Nat) (w : Work) : (w.bump n k).life = w.life := rfl
@[simp] theorem Work.bump_pair (n k : Nat) (w : Work) : (w.bump n k).pair = w.pair := rfl
@[simp] theorem Work.bump_health (n k : Nat) (w : Work) : (w.bump n k).health = w.health := rfl
@[simp] theorem Work.bump_rst (n k : Nat) (w : Work) : (w.bump n k).rst = w.rst := rfl
@[simp] theorem Work.bump_boot (n k : Nat) (w : Work) : (w.bump n k).boot = w.boot := rfl
@[simp] theorem Work.bump_clk (n k : Nat) (w : Work) : (w.bump n k).clk = w.clk := rfl
@[simp] theorem Work.bump_mem (n k : Nat) (w : Work) : (w.bump n k).mem = w.mem := rfl

/-! ### send -/

@[simp] theorem Work.send_time (m : OutMsg) (w : Work) : (w.send m).time = w.time := rfl
@[simp] theorem Work.send_obj (m : OutMsg) (w : Work) : (w.send m).obj = w.obj := rfl
@[simp] theorem Work.send_objS (m : OutMsg) (w : Work) : (w.send m).objS = w.objS := rfl
@[simp] theorem Work.send_objP (m : OutMsg) (w : Work) : (w.send m).objP = w.objP := rfl
@[simp] theorem Work.send_blob (m : OutMsg) (w : Work) : (w.send m).blob = w.blob := rfl
@[simp] theorem Work.send_blobS (m : OutMsg) (w : Work) : (w.send m).blobS = w.blobS := rfl
@[simp] theorem Work.send_blobP (m : OutMsg) (w : Work) : (w.send m).blobP = w.blobP := rfl
@[simp] theorem Work.send_log (m : OutMsg) (w : Work) : (w.send m).log = w.log := rfl
@[simp] theorem Work.send_sent (m : OutMsg) (w : Work) : (w.send m).sent = w.sent ++ [m] := rfl
@[simp] theorem Work.send_nextId (m : OutMsg) (w : Work) : (w.send m).nextId = w.nextId := rfl
@[simp] theorem Work.send_free (m : OutMsg) (w : Work) : (w.send m).free = w.free := rfl
@[simp] theorem Work.send_pcie (m : OutMsg) (w : Work) : (w.send m).pcie = w.pcie := rfl
@[simp] theorem Work.send_q (m : OutMsg) (w : Work) : (w.send m).q = w.q := rfl
@[simp] theorem Work.send_bob (m : OutMsg) (w : Work) : (w.send m).bob = w.bob := rfl
@[simp] theorem Work.send_hoop (m : OutMsg) (w : Work) : (w.send m).hoop = w.hoop := rfl
@[simp] theorem Work.send_ext (m : OutMsg) (w : Work) : (w.send m).ext = w.ext := rfl
@[simp] theorem Work.send_sched (m : OutMsg) (w : Work) : (w.send m).sched = w.sched := rfl
@[simp] theorem Work.send_picot (m : OutMsg) (w : Work) : (w.send m).picot = w.picot := rfl
@[simp] theorem Work.send_net (m : OutMsg) (w : Work) : (w.send m).net = w.net := rfl
@[simp] theorem Work.send_plait (m : OutMsg) (w : Work) : (w.send m).plait = w.plait := rfl
@[simp] theorem Work.send_dict (m : OutMsg) (w : Work) : (w.send m).dict = w.dict := rfl
@[simp] theorem Work.send_arena (m : OutMsg) (w : Work) : (w.send m).arena = w.arena := rfl
@[simp] theorem Work.send_life (m : OutMsg) (w : Work) : (w.send m).life = w.life := rfl
@[simp] theorem Work.send_pair (m : OutMsg) (w : Work) : (w.send m).pair = w.pair := rfl
@[simp] theorem Work.send_health (m : OutMsg) (w : Work) : (w.send m).health = w.health := rfl
@[simp] theorem Work.send_rst (m : OutMsg) (w : Work) : (w.send m).rst = w.rst := rfl
@[simp] theorem Work.send_boot (m : OutMsg) (w : Work) : (w.send m).boot = w.boot := rfl
@[simp] theorem Work.send_clk (m : OutMsg) (w : Work) : (w.send m).clk = w.clk := rfl
@[simp] theorem Work.send_mem (m : OutMsg) (w : Work) : (w.send m).mem = w.mem := rfl

/-! ### write -/

@[simp] theorem Work.write_time (a : Nat) (d : List Byte) (w : Work) : (w.write a d).time = w.time := by unfold Work.write; split <;> rfl
@[simp] theorem Work.write_obj (a : Nat) (d : List Byte) (w : Work) : (w.write a d).obj = w.obj := by unfold Work.write; split <;> rfl
@[simp] theorem Work.write_objS (a : Nat) (d : List Byte) (w : Work) : (w.write a d).objS = w.objS := by unfold Work.write; split <;> rfl
@[simp] theorem Work.write_objP (a : Nat) (d : List Byte) (w : Work) : (w.write a d).objP = w.objP := by unfold Work.write; split <;> rfl
@[simp] theorem Work.write_blob (a : Nat) (d : List Byte) (w : Work) : (w.write a d).blob = w.blob := by unfold Work.write; split <;> rfl
@[simp] theorem Work.write_blobS (a : Nat) (d : List Byte) (w : Work) : (w.write a d).blobS = w.blobS := by unfold Work.write; split <;> rfl
@[simp] theorem Work.write_blobP (a : Nat) (d : List Byte) (w : Work) : (w.write a d).blobP = w.blobP := by unfold Work.write; split <;> rfl
@[simp] theorem Work.write_log (a : Nat) (d : List Byte) (w : Work) : (w.write a d).log = w.log := by unfold Work.write; split <;> rfl
@[simp] theorem Work.write_sent (a : Nat) (d : List Byte) (w : Work) : (w.write a d).sent = w.sent := by unfold Work.write; split <;> rfl
@[simp] theorem Work.write_nextId (a : Nat) (d : List Byte) (w : Work) : (w.write a d).nextId = w.nextId := by unfold Work.write; split <;> rfl
@[simp] theorem Work.write_free (a : Nat) (d : List Byte) (w : Work) : (w.write a d).free = w.free := by unfold Work.write; split <;> rfl
@[simp] theorem Work.write_pcie (a : Nat) (d : List Byte) (w : Work) : (w.write a d).pcie = w.pcie := by unfold Work.write; split <;> rfl
@[simp] theorem Work.write_q (a : Nat) (d : List Byte) (w : Work) : (w.write a d).q = w.q := by unfold Work.write; split <;> rfl
@[simp] theorem Work.write_bob (a : Nat) (d : List Byte) (w : Work) : (w.write a d).bob = w.bob := by unfold Work.write; split <;> rfl
@[simp] theorem Work.write_hoop (a : Nat) (d : List Byte) (w : Work) : (w.write a d).hoop = w.hoop := by unfold Work.write; split <;> rfl
@[simp] theorem Work.write_ext (a : Nat) (d : List Byte) (w : Work) : (w.write a d).ext = w.ext := by unfold Work.write; split <;> rfl
@[simp] theorem Work.write_sched (a : Nat) (d : List Byte) (w : Work) : (w.write a d).sched = w.sched := by unfold Work.write; split <;> rfl
@[simp] theorem Work.write_picot (a : Nat) (d : List Byte) (w : Work) : (w.write a d).picot = w.picot := by unfold Work.write; split <;> rfl
@[simp] theorem Work.write_net (a : Nat) (d : List Byte) (w : Work) : (w.write a d).net = w.net := by unfold Work.write; split <;> rfl
@[simp] theorem Work.write_plait (a : Nat) (d : List Byte) (w : Work) : (w.write a d).plait = w.plait := by unfold Work.write; split <;> rfl
@[simp] theorem Work.write_dict (a : Nat) (d : List Byte) (w : Work) : (w.write a d).dict = w.dict := by unfold Work.write; split <;> rfl
@[simp] theorem Work.write_arena (a : Nat) (d : List Byte) (w : Work) : (w.write a d).arena = w.arena := by unfold Work.write; split <;> rfl
@[simp] theorem Work.write_life (a : Nat) (d : List Byte) (w : Work) : (w.write a d).life = w.life := by unfold Work.write; split <;> rfl
@[simp] theorem Work.write_pair (a : Nat) (d : List Byte) (w : Work) : (w.write a d).pair = w.pair := by unfold Work.write; split <;> rfl
@[simp] theorem Work.write_health (a : Nat) (d : List Byte) (w : Work) : (w.write a d).health = w.health := by unfold Work.write; split <;> rfl
@[simp] theorem Work.write_rst (a : Nat) (d : List Byte) (w : Work) : (w.write a d).rst = w.rst := by unfold Work.write; split <;> rfl
@[simp] theorem Work.write_boot (a : Nat) (d : List Byte) (w : Work) : (w.write a d).boot = w.boot := by unfold Work.write; split <;> rfl
@[simp] theorem Work.write_clk (a : Nat) (d : List Byte) (w : Work) : (w.write a d).clk = w.clk := by unfold Work.write; split <;> rfl
@[simp] theorem Work.write_mem (a : Nat) (d : List Byte) (w : Work) : (w.write a d).mem = w.mem := by unfold Work.write; split <;> rfl

/-! ### setPats -/

@[simp] theorem Work.setPats_time (l : List Pattern) (w : Work) : (w.setPats l).time = w.time := rfl
@[simp] theorem Work.setPats_obj (l : List Pattern) (w : Work) : (w.setPats l).obj = w.obj := rfl
@[simp] theorem Work.setPats_objS (l : List Pattern) (w : Work) : (w.setPats l).objS = w.objS := rfl
@[simp] theorem Work.setPats_objP (l : List Pattern) (w : Work) : (w.setPats l).objP = w.objP := rfl
@[simp] theorem Work.setPats_blob (l : List Pattern) (w : Work) : (w.setPats l).blob = w.blob := rfl
@[simp] theorem Work.setPats_blobS (l : List Pattern) (w : Work) : (w.setPats l).blobS = w.blobS := rfl
@[simp] theorem Work.setPats_blobP (l : List Pattern) (w : Work) : (w.setPats l).blobP = w.blobP := rfl
@[simp] theorem Work.setPats_log (l : List Pattern) (w : Work) : (w.setPats l).log = w.log := rfl
@[simp] theorem Work.setPats_sent (l : List Pattern) (w : Work) : (w.setPats l).sent = w.sent := rfl
@[simp] theorem Work.setPats_nextId (l : List Pattern) (w : Work) : (w.setPats l).nextId = w.nextId := rfl
@[simp] theorem Work.setPats_free (l : List Pattern) (w : Work) : (w.setPats l).free = w.free := rfl
@[simp] theorem Work.setPats_pcie (l : List Pattern) (w : Work) : (w.setPats l).pcie = w.pcie := rfl
@[simp] theorem Work.setPats_q (l : List Pattern) (w : Work) : (w.setPats l).q = { w.q with pats := l } := rfl
@[simp] theorem Work.setPats_bob (l : List Pattern) (w : Work) : (w.setPats l).bob = w.bob := rfl
@[simp] theorem Work.setPats_hoop (l : List Pattern) (w : Work) : (w.setPats l).hoop = w.hoop := rfl
@[simp] theorem Work.setPats_ext (l : List Pattern) (w : Work) : (w.setPats l).ext = w.ext := rfl
@[simp] theorem Work.setPats_sched (l : List Pattern) (w : Work) : (w.setPats l).sched = w.sched := rfl
@[simp] theorem Work.setPats_picot (l : List Pattern) (w : Work) : (w.setPats l).picot = w.picot := rfl
@[simp] theorem Work.setPats_net (l : List Pattern) (w : Work) : (w.setPats l).net = w.net := rfl
@[simp] theorem Work.setPats_plait (l : List Pattern) (w : Work) : (w.setPats l).plait = w.plait := rfl
@[simp] theorem Work.setPats_dict (l : List Pattern) (w : Work) : (w.setPats l).dict = w.dict := rfl
@[simp] theorem Work.setPats_arena (l : List Pattern) (w : Work) : (w.setPats l).arena = w.arena := rfl
@[simp] theorem Work.setPats_life (l : List Pattern) (w : Work) : (w.setPats l).life = w.life := rfl
@[simp] theorem Work.setPats_pair (l : List Pattern) (w : Work) : (w.setPats l).pair = w.pair := rfl
@[simp] theorem Work.setPats_health (l : List Pattern) (w : Work) : (w.setPats l).health = w.health := rfl
@[simp] theorem Work.setPats_rst (l : List Pattern) (w : Work) : (w.setPats l).rst = w.rst := rfl
@[simp] theorem Work.setPats_boot (l : List Pattern) (w : Work) : (w.setPats l).boot = w.boot := rfl
@[simp] theorem Work.setPats_clk (l : List Pattern) (w : Work) : (w.setPats l).clk = w.clk := rfl
@[simp] theorem Work.setPats_mem (l : List Pattern) (w : Work) : (w.setPats l).mem = w.mem := rfl

/-! ### setCmds -/

@[simp] theorem Work.setCmds_time (l : List Cmd) (w : Work) : (w.setCmds l).time = w.time := rfl
@[simp] theorem Work.setCmds_obj (l : List Cmd) (w : Work) : (w.setCmds l).obj = w.obj := rfl
@[simp] theorem Work.setCmds_objS (l : List Cmd) (w : Work) : (w.setCmds l).objS = w.objS := rfl
@[simp] theorem Work.setCmds_objP (l : List Cmd) (w : Work) : (w.setCmds l).objP = w.objP := rfl
@[simp] theorem Work.setCmds_blob (l : List Cmd) (w : Work) : (w.setCmds l).blob = w.blob := rfl
@[simp] theorem Work.setCmds_blobS (l : List Cmd) (w : Work) : (w.setCmds l).blobS = w.blobS := rfl
@[simp] theorem Work.setCmds_blobP (l : List Cmd) (w : Work) : (w.setCmds l).blobP = w.blobP := rfl
@[simp] theorem Work.setCmds_log (l : List Cmd) (w : Work) : (w.setCmds l).log = w.log := rfl
@[simp] theorem Work.setCmds_sent (l : List Cmd) (w : Work) : (w.setCmds l).sent = w.sent := rfl
@[simp] theorem Work.setCmds_nextId (l : List Cmd) (w : Work) : (w.setCmds l).nextId = w.nextId := rfl
@[simp] theorem Work.setCmds_free (l : List Cmd) (w : Work) : (w.setCmds l).free = w.free := rfl
@[simp] theorem Work.setCmds_pcie (l : List Cmd) (w : Work) : (w.setCmds l).pcie = w.pcie := rfl
@[simp] theorem Work.setCmds_q (l : List Cmd) (w : Work) : (w.setCmds l).q = { w.q with cmds := l } := rfl
@[simp] theorem Work.setCmds_bob (l : List Cmd) (w : Work) : (w.setCmds l).bob = w.bob := rfl
@[simp] theorem Work.setCmds_hoop (l : List Cmd) (w : Work) : (w.setCmds l).hoop = w.hoop := rfl
@[simp] theorem Work.setCmds_ext (l : List Cmd) (w : Work) : (w.setCmds l).ext = w.ext := rfl
@[simp] theorem Work.setCmds_sched (l : List Cmd) (w : Work) : (w.setCmds l).sched = w.sched := rfl
@[simp] theorem Work.setCmds_picot (l : List Cmd) (w : Work) : (w.setCmds l).picot = w.picot := rfl
@[simp] theorem Work.setCmds_net (l : List Cmd) (w : Work) : (w.setCmds l).net = w.net := rfl
@[simp] theorem Work.setCmds_plait (l : List Cmd) (w : Work) : (w.setCmds l).plait = w.plait := rfl
@[simp] theorem Work.setCmds_dict (l : List Cmd) (w : Work) : (w.setCmds l).dict = w.dict := rfl
@[simp] theorem Work.setCmds_arena (l : List Cmd) (w : Work) : (w.setCmds l).arena = w.arena := rfl
@[simp] theorem Work.setCmds_life (l : List Cmd) (w : Work) : (w.setCmds l).life = w.life := rfl
@[simp] theorem Work.setCmds_pair (l : List Cmd) (w : Work) : (w.setCmds l).pair = w.pair := rfl
@[simp] theorem Work.setCmds_health (l : List Cmd) (w : Work) : (w.setCmds l).health = w.health := rfl
@[simp] theorem Work.setCmds_rst (l : List Cmd) (w : Work) : (w.setCmds l).rst = w.rst := rfl
@[simp] theorem Work.setCmds_boot (l : List Cmd) (w : Work) : (w.setCmds l).boot = w.boot := rfl
@[simp] theorem Work.setCmds_clk (l : List Cmd) (w : Work) : (w.setCmds l).clk = w.clk := rfl
@[simp] theorem Work.setCmds_mem (l : List Cmd) (w : Work) : (w.setCmds l).mem = w.mem := rfl

/-! ### setTimers -/

@[simp] theorem Work.setTimers_time (l : List Timer) (w : Work) : (w.setTimers l).time = w.time := rfl
@[simp] theorem Work.setTimers_obj (l : List Timer) (w : Work) : (w.setTimers l).obj = w.obj := rfl
@[simp] theorem Work.setTimers_objS (l : List Timer) (w : Work) : (w.setTimers l).objS = w.objS := rfl
@[simp] theorem Work.setTimers_objP (l : List Timer) (w : Work) : (w.setTimers l).objP = w.objP := rfl
@[simp] theorem Work.setTimers_blob (l : List Timer) (w : Work) : (w.setTimers l).blob = w.blob := rfl
@[simp] theorem Work.setTimers_blobS (l : List Timer) (w : Work) : (w.setTimers l).blobS = w.blobS := rfl
@[simp] theorem Work.setTimers_blobP (l : List Timer) (w : Work) : (w.setTimers l).blobP = w.blobP := rfl
@[simp] theorem Work.setTimers_log (l : List Timer) (w : Work) : (w.setTimers l).log = w.log := rfl
@[simp] theorem Work.setTimers_sent (l : List Timer) (w : Work) : (w.setTimers l).sent = w.sent := rfl
@[simp] theorem Work.setTimers_nextId (l : List Timer) (w : Work) : (w.setTimers l).nextId = w.nextId := rfl
@[simp] theorem Work.setTimers_free (l : List Timer) (w : Work) : (w.setTimers l).free = w.free := rfl
@[simp] theorem Work.setTimers_pcie (l : List Timer) (w : Work) : (w.setTimers l).pcie = w.pcie := rfl
@[simp] theorem Work.setTimers_q (l : List Timer) (w : Work) : (w.setTimers l).q = { w.q with timers := l } := rfl
@[simp] theorem Work.setTimers_bob (l : List Timer) (w : Work) : (w.setTimers l).bob = w.bob := rfl
@[simp] theorem Work.setTimers_hoop (l : List Timer) (w : Work) : (w.setTimers l).hoop = w.hoop := rfl
@[simp] theorem Work.setTimers_ext (l : List Timer) (w : Work) : (w.setTimers l).ext = w.ext := rfl
@[simp] theorem Work.setTimers_sched (l : List Timer) (w : Work) : (w.setTimers l).sched = w.sched := rfl
@[simp] theorem Work.setTimers_picot (l : List Timer) (w : Work) : (w.setTimers l).picot = w.picot := rfl
@[simp] theorem Work.setTimers_net (l : List Timer) (w : Work) : (w.setTimers l).net = w.net := rfl
@[simp] theorem Work.setTimers_plait (l : List Timer) (w : Work) : (w.setTimers l).plait = w.plait := rfl
@[simp] theorem Work.setTimers_dict (l : List Timer) (w : Work) : (w.setTimers l).dict = w.dict := rfl
@[simp] theorem Work.setTimers_arena (l : List Timer) (w : Work) : (w.setTimers l).arena = w.arena := rfl
@[simp] theorem Work.setTimers_life (l : List Timer) (w : Work) : (w.setTimers l).life = w.life := rfl
@[simp] theorem Work.setTimers_pair (l : List Timer) (w : Work) : (w.setTimers l).pair = w.pair := rfl
@[simp] theorem Work.setTimers_health (l : List Timer) (w : Work) : (w.setTimers l).health = w.health := rfl
@[simp] theorem Work.setTimers_rst (l : List Timer) (w : Work) : (w.setTimers l).rst = w.rst := rfl
@[simp] theorem Work.setTimers_boot (l : List Timer) (w : Work) : (w.setTimers l).boot = w.boot := rfl
@[simp] theorem Work.setTimers_clk (l : List Timer) (w : Work) : (w.setTimers l).clk = w.clk := rfl
@[simp] theorem Work.setTimers_mem (l : List Timer) (w : Work) : (w.setTimers l).mem = w.mem := rfl

/-! ### setStreams -/

@[simp] theorem Work.setStreams_time (l : List Stream) (w : Work) : (w.setStreams l).time = w.time := rfl
@[simp] theorem Work.setStreams_obj (l : List Stream) (w : Work) : (w.setStreams l).obj = w.obj := rfl
@[simp] theorem Work.setStreams_objS (l : List Stream) (w : Work) : (w.setStreams l).objS = w.objS := rfl
@[simp] theorem Work.setStreams_objP (l : List Stream) (w : Work) : (w.setStreams l).objP = w.objP := rfl
@[simp] theorem Work.setStreams_blob (l : List Stream) (w : Work) : (w.setStreams l).blob = w.blob := rfl
@[simp] theorem Work.setStreams_blobS (l : List Stream) (w : Work) : (w.setStreams l).blobS = w.blobS := rfl
@[simp] theorem Work.setStreams_blobP (l : List Stream) (w : Work) : (w.setStreams l).blobP = w.blobP := rfl
@[simp] theorem Work.setStreams_log (l : List Stream) (w : Work) : (w.setStreams l).log = w.log := rfl
@[simp] theorem Work.setStreams_sent (l : List Stream) (w : Work) : (w.setStreams l).sent = w.sent := rfl
@[simp] theorem Work.setStreams_nextId (l : List Stream) (w : Work) : (w.setStreams l).nextId = w.nextId := rfl
@[simp] theorem Work.setStreams_free (l : List Stream) (w : Work) : (w.setStreams l).free = w.free := rfl
@[simp] theorem Work.setStreams_pcie (l : List Stream) (w : Work) : (w.setStreams l).pcie = w.pcie := rfl
@[simp] theorem Work.setStreams_q (l : List Stream) (w : Work) : (w.setStreams l).q = w.q := rfl
@[simp] theorem Work.setStreams_bob (l : List Stream) (w : Work) : (w.setStreams l).bob = { w.bob with streams := l } := rfl
@[simp] theorem Work.setStreams_hoop (l : List Stream) (w : Work) : (w.setStreams l).hoop = w.hoop := rfl
@[simp] theorem Work.setStreams_ext (l : List Stream) (w : Work) : (w.setStreams l).ext = w.ext := rfl
@[simp] theorem Work.setStreams_sched (l : List Stream) (w : Work) : (w.setStreams l).sched = w.sched := rfl
@[simp] theorem Work.setStreams_picot (l : List Stream) (w : Work) : (w.setStreams l).picot = w.picot := rfl
@[simp] theorem Work.setStreams_net (l : List Stream) (w : Work) : (w.setStreams l).net = w.net := rfl
@[simp] theorem Work.setStreams_plait (l : List Stream) (w : Work) : (w.setStreams l).plait = w.plait := rfl
@[simp] theorem Work.setStreams_dict (l : List Stream) (w : Work) : (w.setStreams l).dict = w.dict := rfl
@[simp] theorem Work.setStreams_arena (l : List Stream) (w : Work) : (w.setStreams l).arena = w.arena := rfl
@[simp] theorem Work.setStreams_life (l : List Stream) (w : Work) : (w.setStreams l).life = w.life := rfl
@[simp] theorem Work.setStreams_pair (l : List Stream) (w : Work) : (w.setStreams l).pair = w.pair := rfl
@[simp] theorem Work.setStreams_health (l : List Stream) (w : Work) : (w.setStreams l).health = w.health := rfl
@[simp] theorem Work.setStreams_rst (l : List Stream) (w : Work) : (w.setStreams l).rst = w.rst := rfl
@[simp] theorem Work.setStreams_boot (l : List Stream) (w : Work) : (w.setStreams l).boot = w.boot := rfl
@[simp] theorem Work.setStreams_clk (l : List Stream) (w : Work) : (w.setStreams l).clk = w.clk := rfl
@[simp] theorem Work.setStreams_mem (l : List Stream) (w : Work) : (w.setStreams l).mem = w.mem := rfl

/-! ### setFills -/

@[simp] theorem Work.setFills_time (l : List Fill) (w : Work) : (w.setFills l).time = w.time := rfl
@[simp] theorem Work.setFills_obj (l : List Fill) (w : Work) : (w.setFills l).obj = w.obj := rfl
@[simp] theorem Work.setFills_objS (l : List Fill) (w : Work) : (w.setFills l).objS = w.objS := rfl
@[simp] theorem Work.setFills_objP (l : List Fill) (w : Work) : (w.setFills l).objP = w.objP := rfl
@[simp] theorem Work.setFills_blob (l : List Fill) (w : Work) : (w.setFills l).blob = w.blob := rfl
@[simp] theorem Work.setFills_blobS (l : List Fill) (w : Work) : (w.setFills l).blobS = w.blobS := rfl
@[simp] theorem Work.setFills_blobP (l : List Fill) (w : Work) : (w.setFills l).blobP = w.blobP := rfl
@[simp] theorem Work.setFills_log (l : List Fill) (w : Work) : (w.setFills l).log = w.log := rfl
@[simp] theorem Work.setFills_sent (l : List Fill) (w : Work) : (w.setFills l).sent = w.sent := rfl
@[simp] theorem Work.setFills_nextId (l : List Fill) (w : Work) : (w.setFills l).nextId = w.nextId := rfl
@[simp] theorem Work.setFills_free (l : List Fill) (w : Work) : (w.setFills l).free = w.free := rfl
@[simp] theorem Work.setFills_pcie (l : List Fill) (w : Work) : (w.setFills l).pcie = w.pcie := rfl
@[simp] theorem Work.setFills_q (l : List Fill) (w : Work) : (w.setFills l).q = w.q := rfl
@[simp] theorem Work.setFills_bob (l : List Fill) (w : Work) : (w.setFills l).bob = { w.bob with fills := l } := rfl
@[simp] theorem Work.setFills_hoop (l : List Fill) (w : Work) : (w.setFills l).hoop = w.hoop := rfl
@[simp] theorem Work.setFills_ext (l : List Fill) (w : Work) : (w.setFills l).ext = w.ext := rfl
@[simp] theorem Work.setFills_sched (l : List Fill) (w : Work) : (w.setFills l).sched = w.sched := rfl
@[simp] theorem Work.setFills_picot (l : List Fill) (w : Work) : (w.setFills l).picot = w.picot := rfl
@[simp] theorem Work.setFills_net (l : List Fill) (w : Work) : (w.setFills l).net = w.net := rfl
@[simp] theorem Work.setFills_plait (l : List Fill) (w : Work) : (w.setFills l).plait = w.plait := rfl
@[simp] theorem Work.setFills_dict (l : List Fill) (w : Work) : (w.setFills l).dict = w.dict := rfl
@[simp] theorem Work.setFills_arena (l : List Fill) (w : Work) : (w.setFills l).arena = w.arena := rfl
@[simp] theorem Work.setFills_life (l : List Fill) (w : Work) : (w.setFills l).life = w.life := rfl
@[simp] theorem Work.setFills_pair (l : List Fill) (w : Work) : (w.setFills l).pair = w.pair := rfl
@[simp] theorem Work.setFills_health (l : List Fill) (w : Work) : (w.setFills l).health = w.health := rfl
@[simp] theorem Work.setFills_rst (l : List Fill) (w : Work) : (w.setFills l).rst = w.rst := rfl
@[simp] theorem Work.setFills_boot (l : List Fill) (w : Work) : (w.setFills l).boot = w.boot := rfl
@[simp] theorem Work.setFills_clk (l : List Fill) (w : Work) : (w.setFills l).clk = w.clk := rfl
@[simp] theorem Work.setFills_mem (l : List Fill) (w : Work) : (w.setFills l).mem = w.mem := rfl

/-! ### setSpills -/

@[simp] theorem Work.setSpills_time (l : List Spill) (w : Work) : (w.setSpills l).time = w.time := rfl
@[simp] theorem Work.setSpills_obj (l : List Spill) (w : Work) : (w.setSpills l).obj = w.obj := rfl
@[simp] theorem Work.setSpills_objS (l : List Spill) (w : Work) : (w.setSpills l).objS = w.objS := rfl
@[simp] theorem Work.setSpills_objP (l : List Spill) (w : Work) : (w.setSpills l).objP = w.objP := rfl
@[simp] theorem Work.setSpills_blob (l : List Spill) (w : Work) : (w.setSpills l).blob = w.blob := rfl
@[simp] theorem Work.setSpills_blobS (l : List Spill) (w : Work) : (w.setSpills l).blobS = w.blobS := rfl
@[simp] theorem Work.setSpills_blobP (l : List Spill) (w : Work) : (w.setSpills l).blobP = w.blobP := rfl
@[simp] theorem Work.setSpills_log (l : List Spill) (w : Work) : (w.setSpills l).log = w.log := rfl
@[simp] theorem Work.setSpills_sent (l : List Spill) (w : Work) : (w.setSpills l).sent = w.sent := rfl
@[simp] theorem Work.setSpills_nextId (l : List Spill) (w : Work) : (w.setSpills l).nextId = w.nextId := rfl
@[simp] theorem Work.setSpills_free (l : List Spill) (w : Work) : (w.setSpills l).free = w.free := rfl
@[simp] theorem Work.setSpills_pcie (l : List Spill) (w : Work) : (w.setSpills l).pcie = w.pcie := rfl
@[simp] theorem Work.setSpills_q (l : List Spill) (w : Work) : (w.setSpills l).q = w.q := rfl
@[simp] theorem Work.setSpills_bob (l : List Spill) (w : Work) : (w.setSpills l).bob = w.bob := rfl
@[simp] theorem Work.setSpills_hoop (l : List Spill) (w : Work) : (w.setSpills l).hoop = w.hoop := rfl
@[simp] theorem Work.setSpills_ext (l : List Spill) (w : Work) : (w.setSpills l).ext = { w.ext with spills := l } := rfl
@[simp] theorem Work.setSpills_sched (l : List Spill) (w : Work) : (w.setSpills l).sched = w.sched := rfl
@[simp] theorem Work.setSpills_picot (l : List Spill) (w : Work) : (w.setSpills l).picot = w.picot := rfl
@[simp] theorem Work.setSpills_net (l : List Spill) (w : Work) : (w.setSpills l).net = w.net := rfl
@[simp] theorem Work.setSpills_plait (l : List Spill) (w : Work) : (w.setSpills l).plait = w.plait := rfl
@[simp] theorem Work.setSpills_dict (l : List Spill) (w : Work) : (w.setSpills l).dict = w.dict := rfl
@[simp] theorem Work.setSpills_arena (l : List Spill) (w : Work) : (w.setSpills l).arena = w.arena := rfl
@[simp] theorem Work.setSpills_life (l : List Spill) (w : Work) : (w.setSpills l).life = w.life := rfl
@[simp] theorem Work.setSpills_pair (l : List Spill) (w : Work) : (w.setSpills l).pair = w.pair := rfl
@[simp] theorem Work.setSpills_health (l : List Spill) (w : Work) : (w.setSpills l).health = w.health := rfl
@[simp] theorem Work.setSpills_rst (l : List Spill) (w : Work) : (w.setSpills l).rst = w.rst := rfl
@[simp] theorem Work.setSpills_boot (l : List Spill) (w : Work) : (w.setSpills l).boot = w.boot := rfl
@[simp] theorem Work.setSpills_clk (l : List Spill) (w : Work) : (w.setSpills l).clk = w.clk := rfl
@[simp] theorem Work.setSpills_mem (l : List Spill) (w : Work) : (w.setSpills l).mem = w.mem := rfl

/-! ### setCouch -/

@[simp] theorem Work.setCouch_time (l : List Couch) (w : Work) : (w.setCouch l).time = w.time := rfl
@[simp] theorem Work.setCouch_obj (l : List Couch) (w : Work) : (w.setCouch l).obj = w.obj := rfl
@[simp] theorem Work.setCouch_objS (l : List Couch) (w : Work) : (w.setCouch l).objS = w.objS := rfl
@[simp] theorem Work.setCouch_objP (l : List Couch) (w : Work) : (w.setCouch l).objP = w.objP := rfl
@[simp] theorem Work.setCouch_blob (l : List Couch) (w : Work) : (w.setCouch l).blob = w.blob := rfl
@[simp] theorem Work.setCouch_blobS (l : List Couch) (w : Work) : (w.setCouch l).blobS = w.blobS := rfl
@[simp] theorem Work.setCouch_blobP (l : List Couch) (w : Work) : (w.setCouch l).blobP = w.blobP := rfl
@[simp] theorem Work.setCouch_log (l : List Couch) (w : Work) : (w.setCouch l).log = w.log := rfl
@[simp] theorem Work.setCouch_sent (l : List Couch) (w : Work) : (w.setCouch l).sent = w.sent := rfl
@[simp] theorem Work.setCouch_nextId (l : List Couch) (w : Work) : (w.setCouch l).nextId = w.nextId := rfl
@[simp] theorem Work.setCouch_free (l : List Couch) (w : Work) : (w.setCouch l).free = w.free := rfl
@[simp] theorem Work.setCouch_pcie (l : List Couch) (w : Work) : (w.setCouch l).pcie = w.pcie := rfl
@[simp] theorem Work.setCouch_q (l : List Couch) (w : Work) : (w.setCouch l).q = w.q := rfl
@[simp] theorem Work.setCouch_bob (l : List Couch) (w : Work) : (w.setCouch l).bob = w.bob := rfl
@[simp] theorem Work.setCouch_hoop (l : List Couch) (w : Work) : (w.setCouch l).hoop = w.hoop := rfl
@[simp] theorem Work.setCouch_ext (l : List Couch) (w : Work) : (w.setCouch l).ext = { w.ext with couch := l } := rfl
@[simp] theorem Work.setCouch_sched (l : List Couch) (w : Work) : (w.setCouch l).sched = w.sched := rfl
@[simp] theorem Work.setCouch_picot (l : List Couch) (w : Work) : (w.setCouch l).picot = w.picot := rfl
@[simp] theorem Work.setCouch_net (l : List Couch) (w : Work) : (w.setCouch l).net = w.net := rfl
@[simp] theorem Work.setCouch_plait (l : List Couch) (w : Work) : (w.setCouch l).plait = w.plait := rfl
@[simp] theorem Work.setCouch_dict (l : List Couch) (w : Work) : (w.setCouch l).dict = w.dict := rfl
@[simp] theorem Work.setCouch_arena (l : List Couch) (w : Work) : (w.setCouch l).arena = w.arena := rfl
@[simp] theorem Work.setCouch_life (l : List Couch) (w : Work) : (w.setCouch l).life = w.life := rfl
@[simp] theorem Work.setCouch_pair (l : List Couch) (w : Work) : (w.setCouch l).pair = w.pair := rfl
@[simp] theorem Work.setCouch_health (l : List Couch) (w : Work) : (w.setCouch l).health = w.health := rfl
@[simp] theorem Work.setCouch_rst (l : List Couch) (w : Work) : (w.setCouch l).rst = w.rst := rfl
@[simp] theorem Work.setCouch_boot (l : List Couch) (w : Work) : (w.setCouch l).boot = w.boot := rfl
@[simp] theorem Work.setCouch_clk (l : List Couch) (w : Work) : (w.setCouch l).clk = w.clk := rfl
@[simp] theorem Work.setCouch_mem (l : List Couch) (w : Work) : (w.setCouch l).mem = w.mem := rfl

/-! ### setSched -/

@[simp] theorem Work.setSched_time (f : SchedState → SchedState) (w : Work) : (w.setSched f).time = w.time := rfl
@[simp] theorem Work.setSched_obj (f : SchedState → SchedState) (w : Work) : (w.setSched f).obj = w.obj := rfl
@[simp] theorem Work.setSched_objS (f : SchedState → SchedState) (w : Work) : (w.setSched f).objS = w.objS := rfl
@[simp] theorem Work.setSched_objP (f : SchedState → SchedState) (w : Work) : (w.setSched f).objP = w.objP := rfl
@[simp] theorem Work.setSched_blob (f : SchedState → SchedState) (w : Work) : (w.setSched f).blob = w.blob := rfl
@[simp] theorem Work.setSched_blobS (f : SchedState → SchedState) (w : Work) : (w.setSched f).blobS = w.blobS := rfl
@[simp] theorem Work.setSched_blobP (f : SchedState → SchedState) (w : Work) : (w.setSched f).blobP = w.blobP := rfl
@[simp] theorem Work.setSched_log (f : SchedState → SchedState) (w : Work) : (w.setSched f).log = w.log := rfl
@[simp] theorem Work.setSched_sent (f : SchedState → SchedState) (w : Work) : (w.setSched f).sent = w.sent := rfl
@[simp] theorem Work.setSched_nextId (f : SchedState → SchedState) (w : Work) : (w.setSched f).nextId = w.nextId := rfl
@[simp] theorem Work.setSched_free (f : SchedState → SchedState) (w : Work) : (w.setSched f).free = w.free := rfl
@[simp] theorem Work.setSched_pcie (f : SchedState → SchedState) (w : Work) : (w.setSched f).pcie = w.pcie := rfl
@[simp] theorem Work.setSched_q (f : SchedState → SchedState) (w : Work) : (w.setSched f).q = w.q := rfl
@[simp] theorem Work.setSched_bob (f : SchedState → SchedState) (w : Work) : (w.setSched f).bob = w.bob := rfl
@[simp] theorem Work.setSched_hoop (f : SchedState → SchedState) (w : Work) : (w.setSched f).hoop = w.hoop := rfl
@[simp] theorem Work.setSched_ext (f : SchedState → SchedState) (w : Work) : (w.setSched f).ext = w.ext := rfl
@[simp] theorem Work.setSched_sched (f : SchedState → SchedState) (w : Work) : (w.setSched f).sched = f w.sched := rfl
@[simp] theorem Work.setSched_picot (f : SchedState → SchedState) (w : Work) : (w.setSched f).picot = w.picot := rfl
@[simp] theorem Work.setSched_net (f : SchedState → SchedState) (w : Work) : (w.setSched f).net = w.net := rfl
@[simp] theorem Work.setSched_plait (f : SchedState → SchedState) (w : Work) : (w.setSched f).plait = w.plait := rfl
@[simp] theorem Work.setSched_dict (f : SchedState → SchedState) (w : Work) : (w.setSched f).dict = w.dict := rfl
@[simp] theorem Work.setSched_arena (f : SchedState → SchedState) (w : Work) : (w.setSched f).arena = w.arena := rfl
@[simp] theorem Work.setSched_life (f : SchedState → SchedState) (w : Work) : (w.setSched f).life = w.life := rfl
@[simp] theorem Work.setSched_pair (f : SchedState → SchedState) (w : Work) : (w.setSched f).pair = w.pair := rfl
@[simp] theorem Work.setSched_health (f : SchedState → SchedState) (w : Work) : (w.setSched f).health = w.health := rfl
@[simp] theorem Work.setSched_rst (f : SchedState → SchedState) (w : Work) : (w.setSched f).rst = w.rst := rfl
@[simp] theorem Work.setSched_boot (f : SchedState → SchedState) (w : Work) : (w.setSched f).boot = w.boot := rfl
@[simp] theorem Work.setSched_clk (f : SchedState → SchedState) (w : Work) : (w.setSched f).clk = w.clk := rfl
@[simp] theorem Work.setSched_mem (f : SchedState → SchedState) (w : Work) : (w.setSched f).mem = w.mem := rfl

/-! ### setJobs -/

@[simp] theorem Work.setJobs_time (l : List PicotJob) (w : Work) : (w.setJobs l).time = w.time := rfl
@[simp] theorem Work.setJobs_obj (l : List PicotJob) (w : Work) : (w.setJobs l).obj = w.obj := rfl
@[simp] theorem Work.setJobs_objS (l : List PicotJob) (w : Work) : (w.setJobs l).objS = w.objS := rfl
@[simp] theorem Work.setJobs_objP (l : List PicotJob) (w : Work) : (w.setJobs l).objP = w.objP := rfl
@[simp] theorem Work.setJobs_blob (l : List PicotJob) (w : Work) : (w.setJobs l).blob = w.blob := rfl
@[simp] theorem Work.setJobs_blobS (l : List PicotJob) (w : Work) : (w.setJobs l).blobS = w.blobS := rfl
@[simp] theorem Work.setJobs_blobP (l : List PicotJob) (w : Work) : (w.setJobs l).blobP = w.blobP := rfl
@[simp] theorem Work.setJobs_log (l : List PicotJob) (w : Work) : (w.setJobs l).log = w.log := rfl
@[simp] theorem Work.setJobs_sent (l : List PicotJob) (w : Work) : (w.setJobs l).sent = w.sent := rfl
@[simp] theorem Work.setJobs_nextId (l : List PicotJob) (w : Work) : (w.setJobs l).nextId = w.nextId := rfl
@[simp] theorem Work.setJobs_free (l : List PicotJob) (w : Work) : (w.setJobs l).free = w.free := rfl
@[simp] theorem Work.setJobs_pcie (l : List PicotJob) (w : Work) : (w.setJobs l).pcie = w.pcie := rfl
@[simp] theorem Work.setJobs_q (l : List PicotJob) (w : Work) : (w.setJobs l).q = w.q := rfl
@[simp] theorem Work.setJobs_bob (l : List PicotJob) (w : Work) : (w.setJobs l).bob = w.bob := rfl
@[simp] theorem Work.setJobs_hoop (l : List PicotJob) (w : Work) : (w.setJobs l).hoop = w.hoop := rfl
@[simp] theorem Work.setJobs_ext (l : List PicotJob) (w : Work) : (w.setJobs l).ext = w.ext := rfl
@[simp] theorem Work.setJobs_sched (l : List PicotJob) (w : Work) : (w.setJobs l).sched = w.sched := rfl
@[simp] theorem Work.setJobs_picot (l : List PicotJob) (w : Work) : (w.setJobs l).picot = { w.picot with jobs := l } := rfl
@[simp] theorem Work.setJobs_net (l : List PicotJob) (w : Work) : (w.setJobs l).net = w.net := rfl
@[simp] theorem Work.setJobs_plait (l : List PicotJob) (w : Work) : (w.setJobs l).plait = w.plait := rfl
@[simp] theorem Work.setJobs_dict (l : List PicotJob) (w : Work) : (w.setJobs l).dict = w.dict := rfl
@[simp] theorem Work.setJobs_arena (l : List PicotJob) (w : Work) : (w.setJobs l).arena = w.arena := rfl
@[simp] theorem Work.setJobs_life (l : List PicotJob) (w : Work) : (w.setJobs l).life = w.life := rfl
@[simp] theorem Work.setJobs_pair (l : List PicotJob) (w : Work) : (w.setJobs l).pair = w.pair := rfl
@[simp] theorem Work.setJobs_health (l : List PicotJob) (w : Work) : (w.setJobs l).health = w.health := rfl
@[simp] theorem Work.setJobs_rst (l : List PicotJob) (w : Work) : (w.setJobs l).rst = w.rst := rfl
@[simp] theorem Work.setJobs_boot (l : List PicotJob) (w : Work) : (w.setJobs l).boot = w.boot := rfl
@[simp] theorem Work.setJobs_clk (l : List PicotJob) (w : Work) : (w.setJobs l).clk = w.clk := rfl
@[simp] theorem Work.setJobs_mem (l : List PicotJob) (w : Work) : (w.setJobs l).mem = w.mem := rfl

/-! ### setNet -/

@[simp] theorem Work.setNet_time (f : NetState → NetState) (w : Work) : (w.setNet f).time = w.time := rfl
@[simp] theorem Work.setNet_obj (f : NetState → NetState) (w : Work) : (w.setNet f).obj = w.obj := rfl
@[simp] theorem Work.setNet_objS (f : NetState → NetState) (w : Work) : (w.setNet f).objS = w.objS := rfl
@[simp] theorem Work.setNet_objP (f : NetState → NetState) (w : Work) : (w.setNet f).objP = w.objP := rfl
@[simp] theorem Work.setNet_blob (f : NetState → NetState) (w : Work) : (w.setNet f).blob = w.blob := rfl
@[simp] theorem Work.setNet_blobS (f : NetState → NetState) (w : Work) : (w.setNet f).blobS = w.blobS := rfl
@[simp] theorem Work.setNet_blobP (f : NetState → NetState) (w : Work) : (w.setNet f).blobP = w.blobP := rfl
@[simp] theorem Work.setNet_log (f : NetState → NetState) (w : Work) : (w.setNet f).log = w.log := rfl
@[simp] theorem Work.setNet_sent (f : NetState → NetState) (w : Work) : (w.setNet f).sent = w.sent := rfl
@[simp] theorem Work.setNet_nextId (f : NetState → NetState) (w : Work) : (w.setNet f).nextId = w.nextId := rfl
@[simp] theorem Work.setNet_free (f : NetState → NetState) (w : Work) : (w.setNet f).free = w.free := rfl
@[simp] theorem Work.setNet_pcie (f : NetState → NetState) (w : Work) : (w.setNet f).pcie = w.pcie := rfl
@[simp] theorem Work.setNet_q (f : NetState → NetState) (w : Work) : (w.setNet f).q = w.q := rfl
@[simp] theorem Work.setNet_bob (f : NetState → NetState) (w : Work) : (w.setNet f).bob = w.bob := rfl
@[simp] theorem Work.setNet_hoop (f : NetState → NetState) (w : Work) : (w.setNet f).hoop = w.hoop := rfl
@[simp] theorem Work.setNet_ext (f : NetState → NetState) (w : Work) : (w.setNet f).ext = w.ext := rfl
@[simp] theorem Work.setNet_sched (f : NetState → NetState) (w : Work) : (w.setNet f).sched = w.sched := rfl
@[simp] theorem Work.setNet_picot (f : NetState → NetState) (w : Work) : (w.setNet f).picot = w.picot := rfl
@[simp] theorem Work.setNet_net (f : NetState → NetState) (w : Work) : (w.setNet f).net = f w.net := rfl
@[simp] theorem Work.setNet_plait (f : NetState → NetState) (w : Work) : (w.setNet f).plait = w.plait := rfl
@[simp] theorem Work.setNet_dict (f : NetState → NetState) (w : Work) : (w.setNet f).dict = w.dict := rfl
@[simp] theorem Work.setNet_arena (f : NetState → NetState) (w : Work) : (w.setNet f).arena = w.arena := rfl
@[simp] theorem Work.setNet_life (f : NetState → NetState) (w : Work) : (w.setNet f).life = w.life := rfl
@[simp] theorem Work.setNet_pair (f : NetState → NetState) (w : Work) : (w.setNet f).pair = w.pair := rfl
@[simp] theorem Work.setNet_health (f : NetState → NetState) (w : Work) : (w.setNet f).health = w.health := rfl
@[simp] theorem Work.setNet_rst (f : NetState → NetState) (w : Work) : (w.setNet f).rst = w.rst := rfl
@[simp] theorem Work.setNet_boot (f : NetState → NetState) (w : Work) : (w.setNet f).boot = w.boot := rfl
@[simp] theorem Work.setNet_clk (f : NetState → NetState) (w : Work) : (w.setNet f).clk = w.clk := rfl
@[simp] theorem Work.setNet_mem (f : NetState → NetState) (w : Work) : (w.setNet f).mem = w.mem := rfl

/-! ### setColls -/

@[simp] theorem Work.setColls_time (l : List CollJob) (w : Work) : (w.setColls l).time = w.time := rfl
@[simp] theorem Work.setColls_obj (l : List CollJob) (w : Work) : (w.setColls l).obj = w.obj := rfl
@[simp] theorem Work.setColls_objS (l : List CollJob) (w : Work) : (w.setColls l).objS = w.objS := rfl
@[simp] theorem Work.setColls_objP (l : List CollJob) (w : Work) : (w.setColls l).objP = w.objP := rfl
@[simp] theorem Work.setColls_blob (l : List CollJob) (w : Work) : (w.setColls l).blob = w.blob := rfl
@[simp] theorem Work.setColls_blobS (l : List CollJob) (w : Work) : (w.setColls l).blobS = w.blobS := rfl
@[simp] theorem Work.setColls_blobP (l : List CollJob) (w : Work) : (w.setColls l).blobP = w.blobP := rfl
@[simp] theorem Work.setColls_log (l : List CollJob) (w : Work) : (w.setColls l).log = w.log := rfl
@[simp] theorem Work.setColls_sent (l : List CollJob) (w : Work) : (w.setColls l).sent = w.sent := rfl
@[simp] theorem Work.setColls_nextId (l : List CollJob) (w : Work) : (w.setColls l).nextId = w.nextId := rfl
@[simp] theorem Work.setColls_free (l : List CollJob) (w : Work) : (w.setColls l).free = w.free := rfl
@[simp] theorem Work.setColls_pcie (l : List CollJob) (w : Work) : (w.setColls l).pcie = w.pcie := rfl
@[simp] theorem Work.setColls_q (l : List CollJob) (w : Work) : (w.setColls l).q = w.q := rfl
@[simp] theorem Work.setColls_bob (l : List CollJob) (w : Work) : (w.setColls l).bob = w.bob := rfl
@[simp] theorem Work.setColls_hoop (l : List CollJob) (w : Work) : (w.setColls l).hoop = w.hoop := rfl
@[simp] theorem Work.setColls_ext (l : List CollJob) (w : Work) : (w.setColls l).ext = w.ext := rfl
@[simp] theorem Work.setColls_sched (l : List CollJob) (w : Work) : (w.setColls l).sched = w.sched := rfl
@[simp] theorem Work.setColls_picot (l : List CollJob) (w : Work) : (w.setColls l).picot = w.picot := rfl
@[simp] theorem Work.setColls_net (l : List CollJob) (w : Work) : (w.setColls l).net = w.net := rfl
@[simp] theorem Work.setColls_plait (l : List CollJob) (w : Work) : (w.setColls l).plait = { w.plait with jobs := l } := rfl
@[simp] theorem Work.setColls_dict (l : List CollJob) (w : Work) : (w.setColls l).dict = w.dict := rfl
@[simp] theorem Work.setColls_arena (l : List CollJob) (w : Work) : (w.setColls l).arena = w.arena := rfl
@[simp] theorem Work.setColls_life (l : List CollJob) (w : Work) : (w.setColls l).life = w.life := rfl
@[simp] theorem Work.setColls_pair (l : List CollJob) (w : Work) : (w.setColls l).pair = w.pair := rfl
@[simp] theorem Work.setColls_health (l : List CollJob) (w : Work) : (w.setColls l).health = w.health := rfl
@[simp] theorem Work.setColls_rst (l : List CollJob) (w : Work) : (w.setColls l).rst = w.rst := rfl
@[simp] theorem Work.setColls_boot (l : List CollJob) (w : Work) : (w.setColls l).boot = w.boot := rfl
@[simp] theorem Work.setColls_clk (l : List CollJob) (w : Work) : (w.setColls l).clk = w.clk := rfl
@[simp] theorem Work.setColls_mem (l : List CollJob) (w : Work) : (w.setColls l).mem = w.mem := rfl

/-! ### setDict -/

@[simp] theorem Work.setDict_time (f : DictState → DictState) (w : Work) : (w.setDict f).time = w.time := rfl
@[simp] theorem Work.setDict_obj (f : DictState → DictState) (w : Work) : (w.setDict f).obj = w.obj := rfl
@[simp] theorem Work.setDict_objS (f : DictState → DictState) (w : Work) : (w.setDict f).objS = w.objS := rfl
@[simp] theorem Work.setDict_objP (f : DictState → DictState) (w : Work) : (w.setDict f).objP = w.objP := rfl
@[simp] theorem Work.setDict_blob (f : DictState → DictState) (w : Work) : (w.setDict f).blob = w.blob := rfl
@[simp] theorem Work.setDict_blobS (f : DictState → DictState) (w : Work) : (w.setDict f).blobS = w.blobS := rfl
@[simp] theorem Work.setDict_blobP (f : DictState → DictState) (w : Work) : (w.setDict f).blobP = w.blobP := rfl
@[simp] theorem Work.setDict_log (f : DictState → DictState) (w : Work) : (w.setDict f).log = w.log := rfl
@[simp] theorem Work.setDict_sent (f : DictState → DictState) (w : Work) : (w.setDict f).sent = w.sent := rfl
@[simp] theorem Work.setDict_nextId (f : DictState → DictState) (w : Work) : (w.setDict f).nextId = w.nextId := rfl
@[simp] theorem Work.setDict_free (f : DictState → DictState) (w : Work) : (w.setDict f).free = w.free := rfl
@[simp] theorem Work.setDict_pcie (f : DictState → DictState) (w : Work) : (w.setDict f).pcie = w.pcie := rfl
@[simp] theorem Work.setDict_q (f : DictState → DictState) (w : Work) : (w.setDict f).q = w.q := rfl
@[simp] theorem Work.setDict_bob (f : DictState → DictState) (w : Work) : (w.setDict f).bob = w.bob := rfl
@[simp] theorem Work.setDict_hoop (f : DictState → DictState) (w : Work) : (w.setDict f).hoop = w.hoop := rfl
@[simp] theorem Work.setDict_ext (f : DictState → DictState) (w : Work) : (w.setDict f).ext = w.ext := rfl
@[simp] theorem Work.setDict_sched (f : DictState → DictState) (w : Work) : (w.setDict f).sched = w.sched := rfl
@[simp] theorem Work.setDict_picot (f : DictState → DictState) (w : Work) : (w.setDict f).picot = w.picot := rfl
@[simp] theorem Work.setDict_net (f : DictState → DictState) (w : Work) : (w.setDict f).net = w.net := rfl
@[simp] theorem Work.setDict_plait (f : DictState → DictState) (w : Work) : (w.setDict f).plait = w.plait := rfl
@[simp] theorem Work.setDict_dict (f : DictState → DictState) (w : Work) : (w.setDict f).dict = f w.dict := rfl
@[simp] theorem Work.setDict_arena (f : DictState → DictState) (w : Work) : (w.setDict f).arena = w.arena := rfl
@[simp] theorem Work.setDict_life (f : DictState → DictState) (w : Work) : (w.setDict f).life = w.life := rfl
@[simp] theorem Work.setDict_pair (f : DictState → DictState) (w : Work) : (w.setDict f).pair = w.pair := rfl
@[simp] theorem Work.setDict_health (f : DictState → DictState) (w : Work) : (w.setDict f).health = w.health := rfl
@[simp] theorem Work.setDict_rst (f : DictState → DictState) (w : Work) : (w.setDict f).rst = w.rst := rfl
@[simp] theorem Work.setDict_boot (f : DictState → DictState) (w : Work) : (w.setDict f).boot = w.boot := rfl
@[simp] theorem Work.setDict_clk (f : DictState → DictState) (w : Work) : (w.setDict f).clk = w.clk := rfl
@[simp] theorem Work.setDict_mem (f : DictState → DictState) (w : Work) : (w.setDict f).mem = w.mem := rfl

/-! ### setArena -/

@[simp] theorem Work.setArena_time (f : ArenaState → ArenaState) (w : Work) : (w.setArena f).time = w.time := rfl
@[simp] theorem Work.setArena_obj (f : ArenaState → ArenaState) (w : Work) : (w.setArena f).obj = w.obj := rfl
@[simp] theorem Work.setArena_objS (f : ArenaState → ArenaState) (w : Work) : (w.setArena f).objS = w.objS := rfl
@[simp] theorem Work.setArena_objP (f : ArenaState → ArenaState) (w : Work) : (w.setArena f).objP = w.objP := rfl
@[simp] theorem Work.setArena_blob (f : ArenaState → ArenaState) (w : Work) : (w.setArena f).blob = w.blob := rfl
@[simp] theorem Work.setArena_blobS (f : ArenaState → ArenaState) (w : Work) : (w.setArena f).blobS = w.blobS := rfl
@[simp] theorem Work.setArena_blobP (f : ArenaState → ArenaState) (w : Work) : (w.setArena f).blobP = w.blobP := rfl
@[simp] theorem Work.setArena_log (f : ArenaState → ArenaState) (w : Work) : (w.setArena f).log = w.log := rfl
@[simp] theorem Work.setArena_sent (f : ArenaState → ArenaState) (w : Work) : (w.setArena f).sent = w.sent := rfl
@[simp] theorem Work.setArena_nextId (f : ArenaState → ArenaState) (w : Work) : (w.setArena f).nextId = w.nextId := rfl
@[simp] theorem Work.setArena_free (f : ArenaState → ArenaState) (w : Work) : (w.setArena f).free = w.free := rfl
@[simp] theorem Work.setArena_pcie (f : ArenaState → ArenaState) (w : Work) : (w.setArena f).pcie = w.pcie := rfl
@[simp] theorem Work.setArena_q (f : ArenaState → ArenaState) (w : Work) : (w.setArena f).q = w.q := rfl
@[simp] theorem Work.setArena_bob (f : ArenaState → ArenaState) (w : Work) : (w.setArena f).bob = w.bob := rfl
@[simp] theorem Work.setArena_hoop (f : ArenaState → ArenaState) (w : Work) : (w.setArena f).hoop = w.hoop := rfl
@[simp] theorem Work.setArena_ext (f : ArenaState → ArenaState) (w : Work) : (w.setArena f).ext = w.ext := rfl
@[simp] theorem Work.setArena_sched (f : ArenaState → ArenaState) (w : Work) : (w.setArena f).sched = w.sched := rfl
@[simp] theorem Work.setArena_picot (f : ArenaState → ArenaState) (w : Work) : (w.setArena f).picot = w.picot := rfl
@[simp] theorem Work.setArena_net (f : ArenaState → ArenaState) (w : Work) : (w.setArena f).net = w.net := rfl
@[simp] theorem Work.setArena_plait (f : ArenaState → ArenaState) (w : Work) : (w.setArena f).plait = w.plait := rfl
@[simp] theorem Work.setArena_dict (f : ArenaState → ArenaState) (w : Work) : (w.setArena f).dict = w.dict := rfl
@[simp] theorem Work.setArena_arena (f : ArenaState → ArenaState) (w : Work) : (w.setArena f).arena = f w.arena := rfl
@[simp] theorem Work.setArena_life (f : ArenaState → ArenaState) (w : Work) : (w.setArena f).life = w.life := rfl
@[simp] theorem Work.setArena_pair (f : ArenaState → ArenaState) (w : Work) : (w.setArena f).pair = w.pair := rfl
@[simp] theorem Work.setArena_health (f : ArenaState → ArenaState) (w : Work) : (w.setArena f).health = w.health := rfl
@[simp] theorem Work.setArena_rst (f : ArenaState → ArenaState) (w : Work) : (w.setArena f).rst = w.rst := rfl
@[simp] theorem Work.setArena_boot (f : ArenaState → ArenaState) (w : Work) : (w.setArena f).boot = w.boot := rfl
@[simp] theorem Work.setArena_clk (f : ArenaState → ArenaState) (w : Work) : (w.setArena f).clk = w.clk := rfl
@[simp] theorem Work.setArena_mem (f : ArenaState → ArenaState) (w : Work) : (w.setArena f).mem = w.mem := rfl

/-! ### mapLoad -/

@[simp] theorem Work.mapLoad_time (f : LoadJob → LoadJob) (w : Work) : (w.mapLoad f).time = w.time := rfl
@[simp] theorem Work.mapLoad_obj (f : LoadJob → LoadJob) (w : Work) : (w.mapLoad f).obj = w.obj := rfl
@[simp] theorem Work.mapLoad_objS (f : LoadJob → LoadJob) (w : Work) : (w.mapLoad f).objS = w.objS := rfl
@[simp] theorem Work.mapLoad_objP (f : LoadJob → LoadJob) (w : Work) : (w.mapLoad f).objP = w.objP := rfl
@[simp] theorem Work.mapLoad_blob (f : LoadJob → LoadJob) (w : Work) : (w.mapLoad f).blob = w.blob := rfl
@[simp] theorem Work.mapLoad_blobS (f : LoadJob → LoadJob) (w : Work) : (w.mapLoad f).blobS = w.blobS := rfl
@[simp] theorem Work.mapLoad_blobP (f : LoadJob → LoadJob) (w : Work) : (w.mapLoad f).blobP = w.blobP := rfl
@[simp] theorem Work.mapLoad_log (f : LoadJob → LoadJob) (w : Work) : (w.mapLoad f).log = w.log := rfl
@[simp] theorem Work.mapLoad_sent (f : LoadJob → LoadJob) (w : Work) : (w.mapLoad f).sent = w.sent := rfl
@[simp] theorem Work.mapLoad_nextId (f : LoadJob → LoadJob) (w : Work) : (w.mapLoad f).nextId = w.nextId := rfl
@[simp] theorem Work.mapLoad_free (f : LoadJob → LoadJob) (w : Work) : (w.mapLoad f).free = w.free := rfl
@[simp] theorem Work.mapLoad_pcie (f : LoadJob → LoadJob) (w : Work) : (w.mapLoad f).pcie = w.pcie := rfl
@[simp] theorem Work.mapLoad_q (f : LoadJob → LoadJob) (w : Work) : (w.mapLoad f).q = w.q := rfl
@[simp] theorem Work.mapLoad_bob (f : LoadJob → LoadJob) (w : Work) : (w.mapLoad f).bob = w.bob := rfl
@[simp] theorem Work.mapLoad_hoop (f : LoadJob → LoadJob) (w : Work) : (w.mapLoad f).hoop = w.hoop := rfl
@[simp] theorem Work.mapLoad_ext (f : LoadJob → LoadJob) (w : Work) : (w.mapLoad f).ext = w.ext := rfl
@[simp] theorem Work.mapLoad_sched (f : LoadJob → LoadJob) (w : Work) : (w.mapLoad f).sched = w.sched := rfl
@[simp] theorem Work.mapLoad_picot (f : LoadJob → LoadJob) (w : Work) : (w.mapLoad f).picot = w.picot := rfl
@[simp] theorem Work.mapLoad_net (f : LoadJob → LoadJob) (w : Work) : (w.mapLoad f).net = w.net := rfl
@[simp] theorem Work.mapLoad_plait (f : LoadJob → LoadJob) (w : Work) : (w.mapLoad f).plait = w.plait := rfl
@[simp] theorem Work.mapLoad_dict (f : LoadJob → LoadJob) (w : Work) : (w.mapLoad f).dict = w.dict := rfl
@[simp] theorem Work.mapLoad_arena (f : LoadJob → LoadJob) (w : Work) : (w.mapLoad f).arena = w.arena := rfl
@[simp] theorem Work.mapLoad_life (f : LoadJob → LoadJob) (w : Work) : (w.mapLoad f).life = { w.life with job := w.life.job.map f } := rfl
@[simp] theorem Work.mapLoad_pair (f : LoadJob → LoadJob) (w : Work) : (w.mapLoad f).pair = w.pair := rfl
@[simp] theorem Work.mapLoad_health (f : LoadJob → LoadJob) (w : Work) : (w.mapLoad f).health = w.health := rfl
@[simp] theorem Work.mapLoad_rst (f : LoadJob → LoadJob) (w : Work) : (w.mapLoad f).rst = w.rst := rfl
@[simp] theorem Work.mapLoad_boot (f : LoadJob → LoadJob) (w : Work) : (w.mapLoad f).boot = w.boot := rfl
@[simp] theorem Work.mapLoad_clk (f : LoadJob → LoadJob) (w : Work) : (w.mapLoad f).clk = w.clk := rfl
@[simp] theorem Work.mapLoad_mem (f : LoadJob → LoadJob) (w : Work) : (w.mapLoad f).mem = w.mem := rfl

/-! ### setPair -/

@[simp] theorem Work.setPair_time (f : PairState → PairState) (w : Work) : (w.setPair f).time = w.time := rfl
@[simp] theorem Work.setPair_obj (f : PairState → PairState) (w : Work) : (w.setPair f).obj = w.obj := rfl
@[simp] theorem Work.setPair_objS (f : PairState → PairState) (w : Work) : (w.setPair f).objS = w.objS := rfl
@[simp] theorem Work.setPair_objP (f : PairState → PairState) (w : Work) : (w.setPair f).objP = w.objP := rfl
@[simp] theorem Work.setPair_blob (f : PairState → PairState) (w : Work) : (w.setPair f).blob = w.blob := rfl
@[simp] theorem Work.setPair_blobS (f : PairState → PairState) (w : Work) : (w.setPair f).blobS = w.blobS := rfl
@[simp] theorem Work.setPair_blobP (f : PairState → PairState) (w : Work) : (w.setPair f).blobP = w.blobP := rfl
@[simp] theorem Work.setPair_log (f : PairState → PairState) (w : Work) : (w.setPair f).log = w.log := rfl
@[simp] theorem Work.setPair_sent (f : PairState → PairState) (w : Work) : (w.setPair f).sent = w.sent := rfl
@[simp] theorem Work.setPair_nextId (f : PairState → PairState) (w : Work) : (w.setPair f).nextId = w.nextId := rfl
@[simp] theorem Work.setPair_free (f : PairState → PairState) (w : Work) : (w.setPair f).free = w.free := rfl
@[simp] theorem Work.setPair_pcie (f : PairState → PairState) (w : Work) : (w.setPair f).pcie = w.pcie := rfl
@[simp] theorem Work.setPair_q (f : PairState → PairState) (w : Work) : (w.setPair f).q = w.q := rfl
@[simp] theorem Work.setPair_bob (f : PairState → PairState) (w : Work) : (w.setPair f).bob = w.bob := rfl
@[simp] theorem Work.setPair_hoop (f : PairState → PairState) (w : Work) : (w.setPair f).hoop = w.hoop := rfl
@[simp] theorem Work.setPair_ext (f : PairState → PairState) (w : Work) : (w.setPair f).ext = w.ext := rfl
@[simp] theorem Work.setPair_sched (f : PairState → PairState) (w : Work) : (w.setPair f).sched = w.sched := rfl
@[simp] theorem Work.setPair_picot (f : PairState → PairState) (w : Work) : (w.setPair f).picot = w.picot := rfl
@[simp] theorem Work.setPair_net (f : PairState → PairState) (w : Work) : (w.setPair f).net = w.net := rfl
@[simp] theorem Work.setPair_plait (f : PairState → PairState) (w : Work) : (w.setPair f).plait = w.plait := rfl
@[simp] theorem Work.setPair_dict (f : PairState → PairState) (w : Work) : (w.setPair f).dict = w.dict := rfl
@[simp] theorem Work.setPair_arena (f : PairState → PairState) (w : Work) : (w.setPair f).arena = w.arena := rfl
@[simp] theorem Work.setPair_life (f : PairState → PairState) (w : Work) : (w.setPair f).life = w.life := rfl
@[simp] theorem Work.setPair_pair (f : PairState → PairState) (w : Work) : (w.setPair f).pair = f w.pair := rfl
@[simp] theorem Work.setPair_health (f : PairState → PairState) (w : Work) : (w.setPair f).health = w.health := rfl
@[simp] theorem Work.setPair_rst (f : PairState → PairState) (w : Work) : (w.setPair f).rst = w.rst := rfl
@[simp] theorem Work.setPair_boot (f : PairState → PairState) (w : Work) : (w.setPair f).boot = w.boot := rfl
@[simp] theorem Work.setPair_clk (f : PairState → PairState) (w : Work) : (w.setPair f).clk = w.clk := rfl
@[simp] theorem Work.setPair_mem (f : PairState → PairState) (w : Work) : (w.setPair f).mem = w.mem := rfl

/-! ### setHealth -/

@[simp] theorem Work.setHealth_time (f : HealthState → HealthState) (w : Work) : (w.setHealth f).time = w.time := rfl
@[simp] theorem Work.setHealth_obj (f : HealthState → HealthState) (w : Work) : (w.setHealth f).obj = w.obj := rfl
@[simp] theorem Work.setHealth_objS (f : HealthState → HealthState) (w : Work) : (w.setHealth f).objS = w.objS := rfl
@[simp] theorem Work.setHealth_objP (f : HealthState → HealthState) (w : Work) : (w.setHealth f).objP = w.objP := rfl
@[simp] theorem Work.setHealth_blob (f : HealthState → HealthState) (w : Work) : (w.setHealth f).blob = w.blob := rfl
@[simp] theorem Work.setHealth_blobS (f : HealthState → HealthState) (w : Work) : (w.setHealth f).blobS = w.blobS := rfl
@[simp] theorem Work.setHealth_blobP (f : HealthState → HealthState) (w : Work) : (w.setHealth f).blobP = w.blobP := rfl
@[simp] theorem Work.setHealth_log (f : HealthState → HealthState) (w : Work) : (w.setHealth f).log = w.log := rfl
@[simp] theorem Work.setHealth_sent (f : HealthState → HealthState) (w : Work) : (w.setHealth f).sent = w.sent := rfl
@[simp] theorem Work.setHealth_nextId (f : HealthState → HealthState) (w : Work) : (w.setHealth f).nextId = w.nextId := rfl
@[simp] theorem Work.setHealth_free (f : HealthState → HealthState) (w : Work) : (w.setHealth f).free = w.free := rfl
@[simp] theorem Work.setHealth_pcie (f : HealthState → HealthState) (w : Work) : (w.setHealth f).pcie = w.pcie := rfl
@[simp] theorem Work.setHealth_q (f : HealthState → HealthState) (w : Work) : (w.setHealth f).q = w.q := rfl
@[simp] theorem Work.setHealth_bob (f : HealthState → HealthState) (w : Work) : (w.setHealth f).bob = w.bob := rfl
@[simp] theorem Work.setHealth_hoop (f : HealthState → HealthState) (w : Work) : (w.setHealth f).hoop = w.hoop := rfl
@[simp] theorem Work.setHealth_ext (f : HealthState → HealthState) (w : Work) : (w.setHealth f).ext = w.ext := rfl
@[simp] theorem Work.setHealth_sched (f : HealthState → HealthState) (w : Work) : (w.setHealth f).sched = w.sched := rfl
@[simp] theorem Work.setHealth_picot (f : HealthState → HealthState) (w : Work) : (w.setHealth f).picot = w.picot := rfl
@[simp] theorem Work.setHealth_net (f : HealthState → HealthState) (w : Work) : (w.setHealth f).net = w.net := rfl
@[simp] theorem Work.setHealth_plait (f : HealthState → HealthState) (w : Work) : (w.setHealth f).plait = w.plait := rfl
@[simp] theorem Work.setHealth_dict (f : HealthState → HealthState) (w : Work) : (w.setHealth f).dict = w.dict := rfl
@[simp] theorem Work.setHealth_arena (f : HealthState → HealthState) (w : Work) : (w.setHealth f).arena = w.arena := rfl
@[simp] theorem Work.setHealth_life (f : HealthState → HealthState) (w : Work) : (w.setHealth f).life = w.life := rfl
@[simp] theorem Work.setHealth_pair (f : HealthState → HealthState) (w : Work) : (w.setHealth f).pair = w.pair := rfl
@[simp] theorem Work.setHealth_health (f : HealthState → HealthState) (w : Work) : (w.setHealth f).health = f w.health := rfl
@[simp] theorem Work.setHealth_rst (f : HealthState → HealthState) (w : Work) : (w.setHealth f).rst = w.rst := rfl
@[simp] theorem Work.setHealth_boot (f : HealthState → HealthState) (w : Work) : (w.setHealth f).boot = w.boot := rfl
@[simp] theorem Work.setHealth_clk (f : HealthState → HealthState) (w : Work) : (w.setHealth f).clk = w.clk := rfl
@[simp] theorem Work.setHealth_mem (f : HealthState → HealthState) (w : Work) : (w.setHealth f).mem = w.mem := rfl

/-! ### setRst -/

@[simp] theorem Work.setRst_time (f : ResetState → ResetState) (w : Work) : (w.setRst f).time = w.time := rfl
@[simp] theorem Work.setRst_obj (f : ResetState → ResetState) (w : Work) : (w.setRst f).obj = w.obj := rfl
@[simp] theorem Work.setRst_objS (f : ResetState → ResetState) (w : Work) : (w.setRst f).objS = w.objS := rfl
@[simp] theorem Work.setRst_objP (f : ResetState → ResetState) (w : Work) : (w.setRst f).objP = w.objP := rfl
@[simp] theorem Work.setRst_blob (f : ResetState → ResetState) (w : Work) : (w.setRst f).blob = w.blob := rfl
@[simp] theorem Work.setRst_blobS (f : ResetState → ResetState) (w : Work) : (w.setRst f).blobS = w.blobS := rfl
@[simp] theorem Work.setRst_blobP (f : ResetState → ResetState) (w : Work) : (w.setRst f).blobP = w.blobP := rfl
@[simp] theorem Work.setRst_log (f : ResetState → ResetState) (w : Work) : (w.setRst f).log = w.log := rfl
@[simp] theorem Work.setRst_sent (f : ResetState → ResetState) (w : Work) : (w.setRst f).sent = w.sent := rfl
@[simp] theorem Work.setRst_nextId (f : ResetState → ResetState) (w : Work) : (w.setRst f).nextId = w.nextId := rfl
@[simp] theorem Work.setRst_free (f : ResetState → ResetState) (w : Work) : (w.setRst f).free = w.free := rfl
@[simp] theorem Work.setRst_pcie (f : ResetState → ResetState) (w : Work) : (w.setRst f).pcie = w.pcie := rfl
@[simp] theorem Work.setRst_q (f : ResetState → ResetState) (w : Work) : (w.setRst f).q = w.q := rfl
@[simp] theorem Work.setRst_bob (f : ResetState → ResetState) (w : Work) : (w.setRst f).bob = w.bob := rfl
@[simp] theorem Work.setRst_hoop (f : ResetState → ResetState) (w : Work) : (w.setRst f).hoop = w.hoop := rfl
@[simp] theorem Work.setRst_ext (f : ResetState → ResetState) (w : Work) : (w.setRst f).ext = w.ext := rfl
@[simp] theorem Work.setRst_sched (f : ResetState → ResetState) (w : Work) : (w.setRst f).sched = w.sched := rfl
@[simp] theorem Work.setRst_picot (f : ResetState → ResetState) (w : Work) : (w.setRst f).picot = w.picot := rfl
@[simp] theorem Work.setRst_net (f : ResetState → ResetState) (w : Work) : (w.setRst f).net = w.net := rfl
@[simp] theorem Work.setRst_plait (f : ResetState → ResetState) (w : Work) : (w.setRst f).plait = w.plait := rfl
@[simp] theorem Work.setRst_dict (f : ResetState → ResetState) (w : Work) : (w.setRst f).dict = w.dict := rfl
@[simp] theorem Work.setRst_arena (f : ResetState → ResetState) (w : Work) : (w.setRst f).arena = w.arena := rfl
@[simp] theorem Work.setRst_life (f : ResetState → ResetState) (w : Work) : (w.setRst f).life = w.life := rfl
@[simp] theorem Work.setRst_pair (f : ResetState → ResetState) (w : Work) : (w.setRst f).pair = w.pair := rfl
@[simp] theorem Work.setRst_health (f : ResetState → ResetState) (w : Work) : (w.setRst f).health = w.health := rfl
@[simp] theorem Work.setRst_rst (f : ResetState → ResetState) (w : Work) : (w.setRst f).rst = f w.rst := rfl
@[simp] theorem Work.setRst_boot (f : ResetState → ResetState) (w : Work) : (w.setRst f).boot = w.boot := rfl
@[simp] theorem Work.setRst_clk (f : ResetState → ResetState) (w : Work) : (w.setRst f).clk = w.clk := rfl
@[simp] theorem Work.setRst_mem (f : ResetState → ResetState) (w : Work) : (w.setRst f).mem = w.mem := rfl

/-! ### setBoot -/

@[simp] theorem Work.setBoot_time (f : BootState → BootState) (w : Work) : (w.setBoot f).time = w.time := rfl
@[simp] theorem Work.setBoot_obj (f : BootState → BootState) (w : Work) : (w.setBoot f).obj = w.obj := rfl
@[simp] theorem Work.setBoot_objS (f : BootState → BootState) (w : Work) : (w.setBoot f).objS = w.objS := rfl
@[simp] theorem Work.setBoot_objP (f : BootState → BootState) (w : Work) : (w.setBoot f).objP = w.objP := rfl
@[simp] theorem Work.setBoot_blob (f : BootState → BootState) (w : Work) : (w.setBoot f).blob = w.blob := rfl
@[simp] theorem Work.setBoot_blobS (f : BootState → BootState) (w : Work) : (w.setBoot f).blobS = w.blobS := rfl
@[simp] theorem Work.setBoot_blobP (f : BootState → BootState) (w : Work) : (w.setBoot f).blobP = w.blobP := rfl
@[simp] theorem Work.setBoot_log (f : BootState → BootState) (w : Work) : (w.setBoot f).log = w.log := rfl
@[simp] theorem Work.setBoot_sent (f : BootState → BootState) (w : Work) : (w.setBoot f).sent = w.sent := rfl
@[simp] theorem Work.setBoot_nextId (f : BootState → BootState) (w : Work) : (w.setBoot f).nextId = w.nextId := rfl
@[simp] theorem Work.setBoot_free (f : BootState → BootState) (w : Work) : (w.setBoot f).free = w.free := rfl
@[simp] theorem Work.setBoot_pcie (f : BootState → BootState) (w : Work) : (w.setBoot f).pcie = w.pcie := rfl
@[simp] theorem Work.setBoot_q (f : BootState → BootState) (w : Work) : (w.setBoot f).q = w.q := rfl
@[simp] theorem Work.setBoot_bob (f : BootState → BootState) (w : Work) : (w.setBoot f).bob = w.bob := rfl
@[simp] theorem Work.setBoot_hoop (f : BootState → BootState) (w : Work) : (w.setBoot f).hoop = w.hoop := rfl
@[simp] theorem Work.setBoot_ext (f : BootState → BootState) (w : Work) : (w.setBoot f).ext = w.ext := rfl
@[simp] theorem Work.setBoot_sched (f : BootState → BootState) (w : Work) : (w.setBoot f).sched = w.sched := rfl
@[simp] theorem Work.setBoot_picot (f : BootState → BootState) (w : Work) : (w.setBoot f).picot = w.picot := rfl
@[simp] theorem Work.setBoot_net (f : BootState → BootState) (w : Work) : (w.setBoot f).net = w.net := rfl
@[simp] theorem Work.setBoot_plait (f : BootState → BootState) (w : Work) : (w.setBoot f).plait = w.plait := rfl
@[simp] theorem Work.setBoot_dict (f : BootState → BootState) (w : Work) : (w.setBoot f).dict = w.dict := rfl
@[simp] theorem Work.setBoot_arena (f : BootState → BootState) (w : Work) : (w.setBoot f).arena = w.arena := rfl
@[simp] theorem Work.setBoot_life (f : BootState → BootState) (w : Work) : (w.setBoot f).life = w.life := rfl
@[simp] theorem Work.setBoot_pair (f : BootState → BootState) (w : Work) : (w.setBoot f).pair = w.pair := rfl
@[simp] theorem Work.setBoot_health (f : BootState → BootState) (w : Work) : (w.setBoot f).health = w.health := rfl
@[simp] theorem Work.setBoot_rst (f : BootState → BootState) (w : Work) : (w.setBoot f).rst = w.rst := rfl
@[simp] theorem Work.setBoot_boot (f : BootState → BootState) (w : Work) : (w.setBoot f).boot = f w.boot := rfl
@[simp] theorem Work.setBoot_clk (f : BootState → BootState) (w : Work) : (w.setBoot f).clk = w.clk := rfl
@[simp] theorem Work.setBoot_mem (f : BootState → BootState) (w : Work) : (w.setBoot f).mem = w.mem := rfl

/-! ### setClk -/

@[simp] theorem Work.setClk_time (f : ClockState → ClockState) (w : Work) : (w.setClk f).time = w.time := rfl
@[simp] theorem Work.setClk_obj (f : ClockState → ClockState) (w : Work) : (w.setClk f).obj = w.obj := rfl
@[simp] theorem Work.setClk_objS (f : ClockState → ClockState) (w : Work) : (w.setClk f).objS = w.objS := rfl
@[simp] theorem Work.setClk_objP (f : ClockState → ClockState) (w : Work) : (w.setClk f).objP = w.objP := rfl
@[simp] theorem Work.setClk_blob (f : ClockState → ClockState) (w : Work) : (w.setClk f).blob = w.blob := rfl
@[simp] theorem Work.setClk_blobS (f : ClockState → ClockState) (w : Work) : (w.setClk f).blobS = w.blobS := rfl
@[simp] theorem Work.setClk_blobP (f : ClockState → ClockState) (w : Work) : (w.setClk f).blobP = w.blobP := rfl
@[simp] theorem Work.setClk_log (f : ClockState → ClockState) (w : Work) : (w.setClk f).log = w.log := rfl
@[simp] theorem Work.setClk_sent (f : ClockState → ClockState) (w : Work) : (w.setClk f).sent = w.sent := rfl
@[simp] theorem Work.setClk_nextId (f : ClockState → ClockState) (w : Work) : (w.setClk f).nextId = w.nextId := rfl
@[simp] theorem Work.setClk_free (f : ClockState → ClockState) (w : Work) : (w.setClk f).free = w.free := rfl
@[simp] theorem Work.setClk_pcie (f : ClockState → ClockState) (w : Work) : (w.setClk f).pcie = w.pcie := rfl
@[simp] theorem Work.setClk_q (f : ClockState → ClockState) (w : Work) : (w.setClk f).q = w.q := rfl
@[simp] theorem Work.setClk_bob (f : ClockState → ClockState) (w : Work) : (w.setClk f).bob = w.bob := rfl
@[simp] theorem Work.setClk_hoop (f : ClockState → ClockState) (w : Work) : (w.setClk f).hoop = w.hoop := rfl
@[simp] theorem Work.setClk_ext (f : ClockState → ClockState) (w : Work) : (w.setClk f).ext = w.ext := rfl
@[simp] theorem Work.setClk_sched (f : ClockState → ClockState) (w : Work) : (w.setClk f).sched = w.sched := rfl
@[simp] theorem Work.setClk_picot (f : ClockState → ClockState) (w : Work) : (w.setClk f).picot = w.picot := rfl
@[simp] theorem Work.setClk_net (f : ClockState → ClockState) (w : Work) : (w.setClk f).net = w.net := rfl
@[simp] theorem Work.setClk_plait (f : ClockState → ClockState) (w : Work) : (w.setClk f).plait = w.plait := rfl
@[simp] theorem Work.setClk_dict (f : ClockState → ClockState) (w : Work) : (w.setClk f).dict = w.dict := rfl
@[simp] theorem Work.setClk_arena (f : ClockState → ClockState) (w : Work) : (w.setClk f).arena = w.arena := rfl
@[simp] theorem Work.setClk_life (f : ClockState → ClockState) (w : Work) : (w.setClk f).life = w.life := rfl
@[simp] theorem Work.setClk_pair (f : ClockState → ClockState) (w : Work) : (w.setClk f).pair = w.pair := rfl
@[simp] theorem Work.setClk_health (f : ClockState → ClockState) (w : Work) : (w.setClk f).health = w.health := rfl
@[simp] theorem Work.setClk_rst (f : ClockState → ClockState) (w : Work) : (w.setClk f).rst = w.rst := rfl
@[simp] theorem Work.setClk_boot (f : ClockState → ClockState) (w : Work) : (w.setClk f).boot = w.boot := rfl
@[simp] theorem Work.setClk_clk (f : ClockState → ClockState) (w : Work) : (w.setClk f).clk = f w.clk := rfl
@[simp] theorem Work.setClk_mem (f : ClockState → ClockState) (w : Work) : (w.setClk f).mem = w.mem := rfl

/-! ### The two counters -/

@[simp] theorem Work.freeDraw_time (w : Work) : w.freeDraw.2.time = w.time := rfl
@[simp] theorem Work.freeDraw_obj (w : Work) : w.freeDraw.2.obj = w.obj := rfl
@[simp] theorem Work.freeDraw_objS (w : Work) : w.freeDraw.2.objS = w.objS := rfl
@[simp] theorem Work.freeDraw_objP (w : Work) : w.freeDraw.2.objP = w.objP := rfl
@[simp] theorem Work.freeDraw_blob (w : Work) : w.freeDraw.2.blob = w.blob := rfl
@[simp] theorem Work.freeDraw_blobS (w : Work) : w.freeDraw.2.blobS = w.blobS := rfl
@[simp] theorem Work.freeDraw_blobP (w : Work) : w.freeDraw.2.blobP = w.blobP := rfl
@[simp] theorem Work.freeDraw_log (w : Work) : w.freeDraw.2.log = w.log := rfl
@[simp] theorem Work.freeDraw_sent (w : Work) : w.freeDraw.2.sent = w.sent := rfl
@[simp] theorem Work.freeDraw_nextId (w : Work) : w.freeDraw.2.nextId = w.nextId := rfl
@[simp] theorem Work.freeDraw_free (w : Work) : w.freeDraw.2.free = w.free + 1 := rfl
@[simp] theorem Work.freeDraw_pcie (w : Work) : w.freeDraw.2.pcie = w.pcie := rfl
@[simp] theorem Work.freeDraw_q (w : Work) : w.freeDraw.2.q = w.q := rfl
@[simp] theorem Work.freeDraw_bob (w : Work) : w.freeDraw.2.bob = w.bob := rfl
@[simp] theorem Work.freeDraw_hoop (w : Work) : w.freeDraw.2.hoop = w.hoop := rfl
@[simp] theorem Work.freeDraw_ext (w : Work) : w.freeDraw.2.ext = w.ext := rfl
@[simp] theorem Work.freeDraw_sched (w : Work) : w.freeDraw.2.sched = w.sched := rfl
@[simp] theorem Work.freeDraw_picot (w : Work) : w.freeDraw.2.picot = w.picot := rfl
@[simp] theorem Work.freeDraw_net (w : Work) : w.freeDraw.2.net = w.net := rfl
@[simp] theorem Work.freeDraw_plait (w : Work) : w.freeDraw.2.plait = w.plait := rfl
@[simp] theorem Work.freeDraw_dict (w : Work) : w.freeDraw.2.dict = w.dict := rfl
@[simp] theorem Work.freeDraw_arena (w : Work) : w.freeDraw.2.arena = w.arena := rfl
@[simp] theorem Work.freeDraw_life (w : Work) : w.freeDraw.2.life = w.life := rfl
@[simp] theorem Work.freeDraw_pair (w : Work) : w.freeDraw.2.pair = w.pair := rfl
@[simp] theorem Work.freeDraw_health (w : Work) : w.freeDraw.2.health = w.health := rfl
@[simp] theorem Work.freeDraw_rst (w : Work) : w.freeDraw.2.rst = w.rst := rfl
@[simp] theorem Work.freeDraw_boot (w : Work) : w.freeDraw.2.boot = w.boot := rfl
@[simp] theorem Work.freeDraw_clk (w : Work) : w.freeDraw.2.clk = w.clk := rfl
@[simp] theorem Work.freeDraw_mem (w : Work) : w.freeDraw.2.mem = w.mem := rfl

@[simp] theorem Work.entropyDraw_time (w : Work) : w.entropyDraw.2.time = w.time := rfl
@[simp] theorem Work.entropyDraw_obj (w : Work) : w.entropyDraw.2.obj = w.obj := rfl
@[simp] theorem Work.entropyDraw_objS (w : Work) : w.entropyDraw.2.objS = w.objS := rfl
@[simp] theorem Work.entropyDraw_objP (w : Work) : w.entropyDraw.2.objP = w.objP := rfl
@[simp] theorem Work.entropyDraw_blob (w : Work) : w.entropyDraw.2.blob = w.blob := rfl
@[simp] theorem Work.entropyDraw_blobS (w : Work) : w.entropyDraw.2.blobS = w.blobS := rfl
@[simp] theorem Work.entropyDraw_blobP (w : Work) : w.entropyDraw.2.blobP = w.blobP := rfl
@[simp] theorem Work.entropyDraw_log (w : Work) : w.entropyDraw.2.log = w.log := rfl
@[simp] theorem Work.entropyDraw_sent (w : Work) : w.entropyDraw.2.sent = w.sent := rfl
@[simp] theorem Work.entropyDraw_nextId (w : Work) : w.entropyDraw.2.nextId = w.nextId := rfl
@[simp] theorem Work.entropyDraw_free (w : Work) : w.entropyDraw.2.free = w.free + 1 := rfl
@[simp] theorem Work.entropyDraw_pcie (w : Work) : w.entropyDraw.2.pcie = w.pcie := rfl
@[simp] theorem Work.entropyDraw_q (w : Work) : w.entropyDraw.2.q = w.q := rfl
@[simp] theorem Work.entropyDraw_bob (w : Work) : w.entropyDraw.2.bob = w.bob := rfl
@[simp] theorem Work.entropyDraw_hoop (w : Work) : w.entropyDraw.2.hoop = w.hoop := rfl
@[simp] theorem Work.entropyDraw_ext (w : Work) : w.entropyDraw.2.ext = w.ext := rfl
@[simp] theorem Work.entropyDraw_sched (w : Work) : w.entropyDraw.2.sched = w.sched := rfl
@[simp] theorem Work.entropyDraw_picot (w : Work) : w.entropyDraw.2.picot = w.picot := rfl
@[simp] theorem Work.entropyDraw_net (w : Work) : w.entropyDraw.2.net = w.net := rfl
@[simp] theorem Work.entropyDraw_plait (w : Work) : w.entropyDraw.2.plait = w.plait := rfl
@[simp] theorem Work.entropyDraw_dict (w : Work) : w.entropyDraw.2.dict = w.dict := rfl
@[simp] theorem Work.entropyDraw_arena (w : Work) : w.entropyDraw.2.arena = w.arena := rfl
@[simp] theorem Work.entropyDraw_life (w : Work) : w.entropyDraw.2.life = w.life := rfl
@[simp] theorem Work.entropyDraw_pair (w : Work) : w.entropyDraw.2.pair = w.pair := rfl
@[simp] theorem Work.entropyDraw_health (w : Work) : w.entropyDraw.2.health = w.health := rfl
@[simp] theorem Work.entropyDraw_rst (w : Work) : w.entropyDraw.2.rst = w.rst := rfl
@[simp] theorem Work.entropyDraw_boot (w : Work) : w.entropyDraw.2.boot = w.boot := rfl
@[simp] theorem Work.entropyDraw_clk (w : Work) : w.entropyDraw.2.clk = w.clk := rfl
@[simp] theorem Work.entropyDraw_mem (w : Work) : w.entropyDraw.2.mem = w.mem := rfl

@[simp] theorem Work.newId_time (w : Work) : w.newId.2.time = w.time := rfl
@[simp] theorem Work.newId_obj (w : Work) : w.newId.2.obj = w.obj := rfl
@[simp] theorem Work.newId_objS (w : Work) : w.newId.2.objS = w.objS := rfl
@[simp] theorem Work.newId_objP (w : Work) : w.newId.2.objP = w.objP := rfl
@[simp] theorem Work.newId_blob (w : Work) : w.newId.2.blob = w.blob := rfl
@[simp] theorem Work.newId_blobS (w : Work) : w.newId.2.blobS = w.blobS := rfl
@[simp] theorem Work.newId_blobP (w : Work) : w.newId.2.blobP = w.blobP := rfl
@[simp] theorem Work.newId_log (w : Work) : w.newId.2.log = w.log := rfl
@[simp] theorem Work.newId_sent (w : Work) : w.newId.2.sent = w.sent := rfl
@[simp] theorem Work.newId_nextId (w : Work) : w.newId.2.nextId = w.nextId + 1 := rfl
@[simp] theorem Work.newId_free (w : Work) : w.newId.2.free = w.free := rfl
@[simp] theorem Work.newId_pcie (w : Work) : w.newId.2.pcie = w.pcie := rfl
@[simp] theorem Work.newId_q (w : Work) : w.newId.2.q = w.q := rfl
@[simp] theorem Work.newId_bob (w : Work) : w.newId.2.bob = w.bob := rfl
@[simp] theorem Work.newId_hoop (w : Work) : w.newId.2.hoop = w.hoop := rfl
@[simp] theorem Work.newId_ext (w : Work) : w.newId.2.ext = w.ext := rfl
@[simp] theorem Work.newId_sched (w : Work) : w.newId.2.sched = w.sched := rfl
@[simp] theorem Work.newId_picot (w : Work) : w.newId.2.picot = w.picot := rfl
@[simp] theorem Work.newId_net (w : Work) : w.newId.2.net = w.net := rfl
@[simp] theorem Work.newId_plait (w : Work) : w.newId.2.plait = w.plait := rfl
@[simp] theorem Work.newId_dict (w : Work) : w.newId.2.dict = w.dict := rfl
@[simp] theorem Work.newId_arena (w : Work) : w.newId.2.arena = w.arena := rfl
@[simp] theorem Work.newId_life (w : Work) : w.newId.2.life = w.life := rfl
@[simp] theorem Work.newId_pair (w : Work) : w.newId.2.pair = w.pair := rfl
@[simp] theorem Work.newId_health (w : Work) : w.newId.2.health = w.health := rfl
@[simp] theorem Work.newId_rst (w : Work) : w.newId.2.rst = w.rst := rfl
@[simp] theorem Work.newId_boot (w : Work) : w.newId.2.boot = w.boot := rfl
@[simp] theorem Work.newId_clk (w : Work) : w.newId.2.clk = w.clk := rfl
@[simp] theorem Work.newId_mem (w : Work) : w.newId.2.mem = w.mem := rfl

/-! ### Objects -/

@[simp] theorem Work.putS_get (n v : Nat) (w : Work) (j : Nat) : (w.putS n v).get j = w.get j := rfl
@[simp] theorem Work.putP_get (n v : Nat) (w : Work) (j : Nat) : (w.putP n v).get j = w.get j := rfl
@[simp] theorem Work.send_get (m : OutMsg) (w : Work) (j : Nat) : (w.send m).get j = w.get j := rfl
@[simp] theorem Work.write_get (a : Nat) (d : List Byte) (w : Work) (j : Nat) : (w.write a d).get j = w.get j := by unfold Work.write; split <;> rfl
@[simp] theorem Work.setPats_get (l : List Pattern) (w : Work) (j : Nat) : (w.setPats l).get j = w.get j := rfl
@[simp] theorem Work.setCmds_get (l : List Cmd) (w : Work) (j : Nat) : (w.setCmds l).get j = w.get j := rfl
@[simp] theorem Work.setTimers_get (l : List Timer) (w : Work) (j : Nat) : (w.setTimers l).get j = w.get j := rfl
@[simp] theorem Work.setStreams_get (l : List Stream) (w : Work) (j : Nat) : (w.setStreams l).get j = w.get j := rfl
@[simp] theorem Work.setFills_get (l : List Fill) (w : Work) (j : Nat) : (w.setFills l).get j = w.get j := rfl
@[simp] theorem Work.setSpills_get (l : List Spill) (w : Work) (j : Nat) : (w.setSpills l).get j = w.get j := rfl
@[simp] theorem Work.setCouch_get (l : List Couch) (w : Work) (j : Nat) : (w.setCouch l).get j = w.get j := rfl
@[simp] theorem Work.setSched_get (f : SchedState → SchedState) (w : Work) (j : Nat) : (w.setSched f).get j = w.get j := rfl
@[simp] theorem Work.setJobs_get (l : List PicotJob) (w : Work) (j : Nat) : (w.setJobs l).get j = w.get j := rfl
@[simp] theorem Work.setNet_get (f : NetState → NetState) (w : Work) (j : Nat) : (w.setNet f).get j = w.get j := rfl
@[simp] theorem Work.setColls_get (l : List CollJob) (w : Work) (j : Nat) : (w.setColls l).get j = w.get j := rfl
@[simp] theorem Work.setDict_get (f : DictState → DictState) (w : Work) (j : Nat) : (w.setDict f).get j = w.get j := rfl
@[simp] theorem Work.setArena_get (f : ArenaState → ArenaState) (w : Work) (j : Nat) : (w.setArena f).get j = w.get j := rfl
@[simp] theorem Work.mapLoad_get (f : LoadJob → LoadJob) (w : Work) (j : Nat) : (w.mapLoad f).get j = w.get j := rfl
@[simp] theorem Work.setPair_get (f : PairState → PairState) (w : Work) (j : Nat) : (w.setPair f).get j = w.get j := rfl
@[simp] theorem Work.setHealth_get (f : HealthState → HealthState) (w : Work) (j : Nat) : (w.setHealth f).get j = w.get j := rfl
@[simp] theorem Work.setRst_get (f : ResetState → ResetState) (w : Work) (j : Nat) : (w.setRst f).get j = w.get j := rfl
@[simp] theorem Work.setBoot_get (f : BootState → BootState) (w : Work) (j : Nat) : (w.setBoot f).get j = w.get j := rfl
@[simp] theorem Work.setClk_get (f : ClockState → ClockState) (w : Work) (j : Nat) : (w.setClk f).get j = w.get j := rfl

/-- An object reads what was written, and every other object reads as before. -/
theorem Work.put_get (n v m : Nat) (w : Work) : (w.put n v).get m = if m = n then v else w.get m := Store.get_set w.obj n m v

@[simp] theorem Work.put_get_same (n v : Nat) (w : Work) : (w.put n v).get n = v := Store.get_set_same w.obj n v

theorem Work.put_get_other {n m : Nat} (v : Nat) (w : Work) (h : m ≠ n) : (w.put n v).get m = w.get m := Store.get_set_other w.obj v h

theorem Work.putS_getS (n v m : Nat) (w : Work) : (w.putS n v).getS m = if m = n then v else w.getS m := Store.get_set w.objS n m v

theorem Work.putP_getP (n v m : Nat) (w : Work) : (w.putP n v).getP m = if m = n then v else w.getP m := Store.get_set w.objP n m v

/-- A counter holds at 2^64 - 1 (R65). -/
theorem Work.bump_get (n k m : Nat) (w : Work) : (w.bump n k).get m = if m = n then min (w.get n + k) (maxU 64) else w.get m :=
  Work.put_get n _ m w

end Sys2Proof.Machine
end

