-- ==== Sys2Proof/Laws/Objects.lean ====
section
/-!
SUPPORT. Sys2Proof/Laws/Objects.lean: what a write of BLOB bytes leaves, and the three things the gate of an object write can do
(R491, R572).
-/
namespace Sys2Proof.Machine

theorem blobKey_inj {n n' o o' : Nat} (h : o < 2 ^ 32) (h' : o' < 2 ^ 32) : blobKey n o = blobKey n' o' ↔ n = n' ∧ o = o' := by
  unfold blobKey
  constructor
  · intro e
    omega
  · rintro ⟨rfl, rfl⟩
    rfl

/-- The bytes written hold the number; every other byte of every BLOB reads as before. -/
theorem blobWrite_get (n n' o : Nat) (ho : o < 2 ^ 32) (len : Nat) (m : List (Nat × Nat)) (off v : Nat) (h : off + len ≤ 2 ^ 32) :
    Store.get blobDefault (blobWrite m n off v len) (blobKey n' o) =
      if n' = n ∧ off ≤ o ∧ o < off + len then v / 256 ^ (o - off) % 256 else Store.get blobDefault m (blobKey n' o) := by
  induction len generalizing m off v with
  | zero =>
    rw [if_neg (by omega)]
    rfl
  | succ k ih =>
    rw [blobWrite, ih _ _ _ (by omega), Store.get_set]
    simp only [blobKey_inj ho (show off < 2 ^ 32 by omega)]
    by_cases hn : n' = n
    · rcases Nat.lt_trichotomy o off with g | g | g
      · rw [if_neg (by omega), if_neg (by omega), if_neg (by omega)]
      · subst g
        rw [if_neg (by omega), if_pos ⟨hn, rfl⟩, if_pos ⟨hn, by omega, by omega⟩]
        simp
      · by_cases hk : o < off + (k + 1)
        · rw [if_pos ⟨hn, by omega, by omega⟩, if_pos ⟨hn, by omega, hk⟩, Nat.div_div_eq_div_mul, ← Nat.pow_succ',
            show (o - (off + 1)).succ = o - off by omega]
        · rw [if_neg (by omega), if_neg (by omega), if_neg (by omega)]
    · rw [if_neg (fun e => hn e.1), if_neg (fun e => hn e.1), if_neg (fun e => hn e.1)]

/-- A number written to a BLOB is read back, as far as its bytes go. -/
theorem Work.blobPut_blobNat (c : Copy) (n off v len : Nat) (w : Work) (h : off + len ≤ 2 ^ 32) :
    (w.blobPut c n off v len).blobNat c n off len = v % 256 ^ len := by
  have e : (w.blobPut c n off v len).blobs c = blobWrite (w.blobs c) n off v len := by
    cases c <;> rfl
  have g : ∀ (k i : Nat), i + k = len → (w.blobPut c n off v len).blobNat c n (off + i) k = v / 256 ^ i % 256 ^ k := by
    intro k
    induction k with
    | zero => intro i _; simp [Dev.blobNat, Nat.mod_one]
    | succ k ih =>
      intro i hi
      rw [Dev.blobNat, e, blobWrite_get n n (off + i) (by omega) len _ off v h, if_pos ⟨rfl, by omega, by omega⟩,
        Nat.add_sub_cancel_left, Nat.add_assoc, ih (i + 1) (by omega), Nat.pow_succ, ← Nat.div_div_eq_div_mul,
        Nat.pow_succ' (n := k), Nat.mod_mul]
  simpa using g len 0 (by omega)

/-- A write of an object takes its action, is denied, or is not served. -/
theorem Work.gated_cases (wr : Writer) (r : Reach) (num : Nat) (act : Work → Work) (w : Work) :
    (w.serves wr num = true ∧ w.reaches wr r = true ∧ w.gated wr r num act = act w) ∨
    (w.serves wr num = true ∧ w.reaches wr r = false ∧ w.gated wr r num act = w.deny wr num) ∨
    (w.serves wr num = false ∧ (w.gated wr r num act = w.hostDrop ∨ w.gated wr r num act = w)) := by
  unfold Work.gated
  cases h1 : w.serves wr num
  · refine .inr (.inr ⟨rfl, ?_⟩)
    cases wr <;> simp
  · cases h2 : w.reaches wr r
    · exact .inr (.inl ⟨rfl, rfl, by simp⟩)
    · exact .inl ⟨rfl, rfl, by simp⟩

end Sys2Proof.Machine
end

