-- ==== Sys2Proof/Laws/Outputs.lean ====
section
/-!
SUPPORT. Sys2Proof/Laws/Outputs.lean: the shared operations, and the commands, that write no memory: the list of writes after one is
the list before it. A command whose operation stands here answers a next state from every state (State.run_quiet).
-/
set_option linter.all false
namespace Sys2Proof.Machine
@[simp] theorem foldl_out {α : Type} (f : Work → α → Work) (h : ∀ w a, (f w a).out = w.out) (l : List α) (w : Work) : (l.foldl f w).out = w.out := by
  induction l generalizing w with
  | nil => rfl
  | cons a l ih => simp [List.foldl, ih, h]
@[simp] theorem foldl_out2 {α β : Type} (f : β × Work → α → β × Work) (h : ∀ p a, (f p a).2.out = p.2.out) (l : List α) (w : β × Work) : (l.foldl f w).2.out = w.2.out := by
  induction l generalizing w with
  | nil => rfl
  | cons a l ih => simp [List.foldl, ih, h]
@[simp] theorem foldl_out1 {α β : Type} (f : Work × β → α → Work × β) (h : ∀ p a, (f p a).1.out = p.1.out) (l : List α) (w : Work × β) : (l.foldl f w).1.out = w.1.out := by
  induction l generalizing w with
  | nil => rfl
  | cons a l ih => simp [List.foldl, ih, h]
@[simp] theorem forUpto_out (f : Nat → Work → Work) (h : ∀ i w, (f i w).out = w.out) (n : Nat) (w : Work) : (forUpto f n w).out = w.out := by
  induction n generalizing w with
  | zero => rfl
  | succ n ih => simp [forUpto, ih, h]
@[simp] theorem forUpto_out2 {β : Type} (f : Nat → β × Work → β × Work) (h : ∀ i w, (f i w).2.out = w.2.out) (n : Nat) (w : β × Work) : (forUpto f n w).2.out = w.2.out := by
  induction n generalizing w with
  | zero => rfl
  | succ n ih => simp [forUpto, ih, h]
@[simp] theorem Work.tagBlocks_out (n : Nat) (lo : Nat) (hi : Nat) (tag : Nat) (w : Work) : (Work.tagBlocks n lo hi tag w).out = w.out := by rfl

@[simp] theorem Work.put_out (n : Nat) (v : Nat) (w : Work) : (Work.put n v w).out = w.out := by rfl

@[simp] theorem Work.putS_out (n : Nat) (v : Nat) (w : Work) : (Work.putS n v w).out = w.out := by rfl

@[simp] theorem Work.putP_out (n : Nat) (v : Nat) (w : Work) : (Work.putP n v w).out = w.out := by rfl

@[simp] theorem Work.setBlobs_out (c : Copy) (m : List (Nat × Nat)) (w : Work) : (Work.setBlobs c m w).out = w.out := by unfold Work.setBlobs; (repeat' split) <;> simp [*]

@[simp] theorem Work.blobPut_out (c : Copy) (n : Nat) (off : Nat) (v : Nat) (len : Nat) (w : Work) : (Work.blobPut c n off v len w).out = w.out := by unfold Work.blobPut; simp [*]

@[simp] theorem Work.blobCopy_out (src : Copy) (dst : Copy) (n : Nat) (w : Work) : (Work.blobCopy src dst n w).out = w.out := by unfold Work.blobCopy; simp [*]

@[simp] theorem Work.stageToPend_out (n : Nat) (w : Work) : (Work.stageToPend n w).out = w.out := by rfl

@[simp] theorem Work.pendToActive_out (n : Nat) (w : Work) : (Work.pendToActive n w).out = w.out := by rfl

@[simp] theorem Work.groupToPend_out (scalars : List Nat) (blobs : List Nat) (w : Work) : (Work.groupToPend scalars blobs w).out = w.out := by unfold Work.groupToPend; simp [*]

@[simp] theorem Work.groupToActive_out (scalars : List Nat) (blobs : List Nat) (w : Work) : (Work.groupToActive scalars blobs w).out = w.out := by unfold Work.groupToActive; simp [*]

@[simp] theorem Work.bump_out (n : Nat) (k : Nat) (w : Work) : (Work.bump n k w).out = w.out := by rfl

@[simp] theorem Work.bumpUe_out (n : Nat) (w : Work) : (Work.bumpUe n w).out = w.out := by rfl

@[simp] theorem Work.raiseMax_out (n : Nat) (v : Nat) (w : Work) : (Work.raiseMax n v w).out = w.out := by rfl

@[simp] theorem Work.freeDraw_out (w : Work) : (Work.freeDraw w).2.out = w.out := by rfl

@[simp] theorem Work.entropyDraw_out (w : Work) : (Work.entropyDraw w).2.out = w.out := by rfl

@[simp] theorem Work.newId_out (w : Work) : (Work.newId w).2.out = w.out := by rfl

@[simp] theorem Work.send_out (m : OutMsg) (w : Work) : (Work.send m w).out = w.out := by rfl

@[simp] theorem Work.rateMark_out (key : Nat) (w : Work) : (Work.rateMark key w).out = w.out := by rfl

@[simp] theorem Work.mgmtSend_out (m : OutMsg) (w : Work) : (Work.mgmtSend m w).out = w.out := by unfold Work.mgmtSend; (repeat' split) <;> simp [*]

@[simp] theorem Work.notifyTx_out (i : Nat) (seq : Nat) (kind : Nat) (body : List Nat) (w : Work) : (Work.notifyTx i seq kind body w).out = w.out := by unfold Work.notifyTx; simp [*]

@[simp] theorem Work.notifyOne_out (i : Nat) (kind : Nat) (body : List Nat) (w : Work) : (Work.notifyOne i kind body w).2.out = w.out := by
  unfold Work.notifyOne; (try dsimp only); (repeat' split) <;> simp_all [apply_ite Work.out]

@[simp] theorem Work.notifyAll_out (kind : Nat) (body : List Nat) (w : Work) : (Work.notifyAll kind body w).2.out = w.out := by
  unfold Work.notifyAll; refine forUpto_out2 _ (fun i p => ?_) _ _; have h := Work.notifyOne_out i kind body p.2; (try dsimp only); split <;> simp_all

@[simp] theorem Work.logRec_out (code : Nat) (ctx : Nat) (source : Nat) (detail : Nat) (extra : Nat) (w : Work) : (Work.logRec code ctx source detail extra w).2.out = w.out := by
  unfold Work.logRec; simp

@[simp] theorem Work.logUnit_out (v0 : Nat) (v1 : Nat) (v2 : Nat) (v3 : Nat) (v4 : Nat) (v5 : Nat) (v6 : Work) : (Work.logUnit v0 v1 v2 v3 v4 v5 v6).out = v6.out := by
  induction v0 generalizing v1 v2 v3 v4 v5 v6 with
  | zero => rfl
  | succ k ih =>
    unfold Work.logUnit; dsimp only
    split
    · split
      · split
        · rename_i h; have h := congrArg (fun p => p.2.out) h; simp at h; split
          · rw [h]; simp [ih]
          · exact h.symm
        · rename_i h; have h := congrArg (fun p => p.2.out) h; simp at h; exact h.symm
      · simp
    · simp

@[simp] theorem Work.log1_out (code : Nat) (ctx : Nat) (source : Nat) (detail : Nat) (extra : Nat) (w : Work) : (Work.log1 code ctx source detail extra w).out = w.out := by unfold Work.log1; simp [*]

@[simp] theorem Work.event_out (code : Nat) (ctx : Nat) (source : Nat) (detail : Nat) (w : Work) : (Work.event code ctx source detail w).out = w.out := by unfold Work.event; simp [*]

@[simp] theorem Work.eventLimited_out (key : Nat) (gap : Nat) (code : Nat) (ctx : Nat) (source : Nat) (detail : Nat) (w : Work) : (Work.eventLimited key gap code ctx source detail w).out = w.out := by unfold Work.eventLimited; (repeat' split) <;> simp [*]

@[simp] theorem Work.notifyLostEvent_out (i : Nat) (w : Work) : (Work.notifyLostEvent i w).out = w.out := by unfold Work.notifyLostEvent; simp [*]

@[simp] theorem Work.notify_out (kind : Nat) (body : List Nat) (w : Work) : (Work.notify kind body w).out = w.out := by
  unfold Work.notify; have h := Work.notifyAll_out kind body w; split <;> simp_all

@[simp] theorem Work.hokClosed_out (s : HokSession) (reason : Nat) (w : Work) : (Work.hokClosed s reason w).out = w.out := by unfold Work.hokClosed; simp [*]

@[simp] theorem Work.deny_out (wr : Writer) (num : Nat) (w : Work) : (Work.deny wr num w).out = w.out := by unfold Work.deny; simp [*]

@[simp] theorem Work.clamped_out (wr : Writer) (num : Nat) (written : Nat) (held : Nat) (off : Nat) (w : Work) : (Work.clamped wr num written held off w).out = w.out := by unfold Work.clamped; dsimp only; (repeat' split) <;> simp_all

@[simp] theorem Work.clampTo_out (wr : Writer) (num : Nat) (written : Nat) (held : Nat) (w : Work) : (Work.clampTo wr num written held w).out = w.out := by unfold Work.clampTo; (repeat' split) <;> simp [*]

@[simp] theorem Work.noAction_out (wr : Writer) (num : Nat) (written : Nat) (w : Work) : (Work.noAction wr num written w).out = w.out := by unfold Work.noAction; simp [*]

@[simp] theorem Work.commitReq_out (wr : Writer) (num : Nat) (scalars : List Nat) (blobs : List Nat) (w : Work) : (Work.commitReq wr num scalars blobs w).out = w.out := by unfold Work.commitReq; (repeat' split) <;> simp [*]

@[simp] theorem Work.hostDrop_out (w : Work) : (Work.hostDrop w).out = w.out := by unfold Work.hostDrop; dsimp only; (repeat' split) <;> simp_all

@[simp] theorem Work.gated_out (wr : Writer) (r : Reach) (num : Nat) (act : Work → Work) (w : Work) (h0 : ∀ y0, (act y0).out = y0.out) : (Work.gated wr r num act w).out = w.out := by unfold Work.gated; (repeat' split) <;> simp [*]

@[simp] theorem Work.raise_out (c : Nat) (v : Nat) (w : Work) : (Work.raise c v w).out = w.out := by unfold Work.raise; (repeat' split) <;> simp [*]

@[simp] theorem Work.xqParity_out (inst : Nat) (w : Work) : (Work.xqParity inst w).out = w.out := by unfold Work.xqParity; simp [*]

@[simp] theorem Work.raiseDevice_out (w : Work) : (Work.raiseDevice w).out = w.out := by unfold Work.raiseDevice; (repeat' split) <;> simp [*]

@[simp] theorem Work.descClamped_out (wr : Writer) (num : Nat) (off : Nat) (before : Nat) (after : Nat) (w : Work) : (Work.descClamped wr num off before after w).out = w.out := by unfold Work.descClamped; (repeat' split) <;> simp [*]

@[simp] theorem Work.correctDesc_out (wr : Writer) (c : Copy) (num : Nat) (off : Nat) (rules : List (Nat → Nat)) (w : Work) : (Work.correctDesc wr c num off rules w).out = w.out := by
  unfold Work.correctDesc; (try dsimp only); simp [apply_ite Work.out]

@[simp] theorem Work.correctShared_out (wr : Writer) (c : Copy) (x : Nat) (w : Work) : (Work.correctShared wr c x w).out = w.out := by
  unfold Work.correctShared; simp

@[simp] theorem Work.setArena_out (f : ArenaState → ArenaState) (w : Work) : (Work.setArena f w).out = w.out := by rfl

@[simp] theorem Work.seqSync_out (x : Nat) (q : Nat) (w : Work) : (Work.seqSync x q w).out = w.out := by rfl

@[simp] theorem Work.putSeq_out (x : Nat) (q : Nat) (v : Option SeqSt) (w : Work) : (Work.putSeq x q v w).out = w.out := by rfl

@[simp] theorem Work.setGrow_out (g : Option Grow) (w : Work) : (Work.setGrow g w).out = w.out := by rfl

@[simp] theorem Work.freeHeld_out (b : Nat) (n : Nat) (w : Work) : (Work.freeHeld b n w).out = w.out := by rfl

@[simp] theorem Work.setFills_out (l : List Fill) (w : Work) : (Work.setFills l w).out = w.out := by rfl

@[simp] theorem Work.mapFill_out (id : Nat) (f : Fill → Fill) (w : Work) : (Work.mapFill id f w).out = w.out := by rfl

@[simp] theorem Work.issueFill_out (id : Nat) (v0 : Nat) (v1 : Work) : (Work.issueFill id v0 v1).out = v1.out := by
  induction v0 generalizing v1 with
  | zero => rfl
  | succ k ih => unfold Work.issueFill; (try dsimp only); (repeat' split) <;> simp_all

@[simp] theorem Work.issueBuffer_out (b : Nat) (w : Work) : (Work.issueBuffer b w).out = w.out := by
  unfold Work.issueBuffer; refine foldl_out _ (fun w a => ?_) _ _; (try dsimp only); (repeat' split) <;> simp_all

@[simp] theorem Work.passFill_out (id : Nat) (w : Work) : (Work.passFill id w).out = w.out := by unfold Work.passFill; dsimp only; (repeat' split) <;> simp_all

@[simp] theorem Work.passFills_out (x : Nat) (w : Work) : (Work.passFills x w).out = w.out := by
  unfold Work.passFills; refine foldl_out _ (fun w a => ?_) _ _; (try dsimp only); (repeat' split) <;> simp_all

@[simp] theorem Work.setCmds_out (l : List Cmd) (w : Work) : (Work.setCmds l w).out = w.out := by rfl

@[simp] theorem Work.setPats_out (l : List Pattern) (w : Work) : (Work.setPats l w).out = w.out := by rfl

@[simp] theorem Work.setStreams_out (l : List Stream) (w : Work) : (Work.setStreams l w).out = w.out := by rfl

@[simp] theorem Work.evtPut_out (x : Nat) (n : Nat) (v : Nat) (w : Work) : (Work.evtPut x n v w).out = w.out := by unfold Work.evtPut; simp [*]

@[simp] theorem Work.evtAdd_out (x : Nat) (n : Nat) (k : Nat) (w : Work) : (Work.evtAdd x n k w).out = w.out := by unfold Work.evtAdd; simp [*]

@[simp] theorem opSeqJoin_out (wr : Writer) (x : Fin 16) (v : Nat) (w : Work) : (opSeqJoin wr x v w).out = w.out := by
  unfold opSeqJoin; (try dsimp only); simp [apply_ite Work.out]

@[simp] theorem opSeqLeave_out (wr : Writer) (x : Fin 16) (v : Nat) (w : Work) : (opSeqLeave wr x v w).out = w.out := by
  unfold opSeqLeave; refine Work.gated_out _ _ _ _ _ (fun w => ?_); (try dsimp only); (repeat' split) <;> simp_all [apply_ite Work.out]

@[simp] theorem Work.mapCmd_out (id : Nat) (f : Cmd → Cmd) (w : Work) : (Work.mapCmd id f w).out = w.out := by rfl

@[simp] theorem Work.gather_out (id : Nat) (flags : Nat) (w : Work) : (Work.gather id flags w).out = w.out := by rfl

@[simp] theorem Work.startFill_out (j : PfJob) (cmd : Option Nat) (stream : Option Nat) (w : Work) : (Work.startFill j cmd stream w).out = w.out := by unfold Work.startFill; dsimp only; (repeat' split) <;> simp_all

@[simp] theorem Work.finishCmd_out (id : Nat) (status : Nat) (detail : Nat) (w : Work) : (Work.finishCmd id status detail w).out = w.out := by rfl

@[simp] theorem opPrefetch_out (id : Nat) (w : Work) : (opPrefetch id w).out = w.out := by unfold opPrefetch; (repeat' split) <;> simp [*]

@[simp] theorem Work.settleCancel_out (b : Nat) (w : Work) : (Work.settleCancel b w).out = w.out := by unfold Work.settleCancel; (repeat' split) <;> simp [*]

@[simp] theorem Work.dropFill_out (id : Nat) (w : Work) : (Work.dropFill id w).out = w.out := by rfl

@[simp] theorem Work.settleFill_out (id : Nat) (w : Work) : (Work.settleFill id w).out = w.out := by unfold Work.settleFill; (repeat' split) <;> simp [*]

@[simp] theorem opPrefetchWaitTimeout_out (id : Nat) (w : Work) : (opPrefetchWaitTimeout id w).out = w.out := by unfold opPrefetchWaitTimeout; (repeat' split) <;> simp [*]

@[simp] theorem Work.putStream_out (t : Stream) (w : Work) : (Work.putStream t w).out = w.out := by rfl

@[simp] theorem Work.armStream_out (x : Nat) (s : Nat) (w : Work) : (Work.armStream x s w).out = w.out := by rfl

@[simp] theorem Work.wakeStreams_out (x : Nat) (w : Work) : (Work.wakeStreams x w).out = w.out := by
  unfold Work.wakeStreams; refine forUpto_out _ (fun i w => ?_) _ _; (try dsimp only); (repeat' split) <;> simp_all [apply_ite Work.out]

@[simp] theorem Work.haltQueue_out (x : Nat) (q : Nat) (status : Nat) (detail : Nat) (w : Work) : (Work.haltQueue x q status detail w).out = w.out := by unfold Work.haltQueue; dsimp only; (repeat' split) <;> simp_all

@[simp] theorem Work.faultNoRecord_out (x : Nat) (q : Nat) (status : Nat) (detail : Nat) (w : Work) : (Work.faultNoRecord x q status detail w).out = w.out := by unfold Work.faultNoRecord; simp [*]

@[simp] theorem Work.streamFault_out (x : Nat) (s : Nat) (st : Nat) (det : Nat) (w : Work) : (Work.streamFault x s st det w).out = w.out := by unfold Work.streamFault; simp [*]

@[simp] theorem Work.takeover_out (x : Nat) (s : Nat) (w : Work) : (Work.takeover x s w).out = w.out := by
  unfold Work.takeover; (try dsimp only); (repeat' split) <;> simp_all [apply_ite Work.out]

@[simp] theorem opStreamRearm_out (wr : Writer) (x : Fin 16) (s : Fin 8) (w : Work) : (opStreamRearm wr x s w).out = w.out := by
  unfold opStreamRearm; (try dsimp only); simp [apply_ite Work.out]

@[simp] theorem Work.packApply_out (x : Nat) (w : Work) : (Work.packApply x w).out = w.out := by
  unfold Work.packApply; refine forUpto_out _ (fun i w => ?_) _ _; (try dsimp only); (repeat' split) <;> simp_all [apply_ite Work.out]

@[simp] theorem opPackCommit_out (wr : Writer) (x : Fin 16) (r : Fin 4) (w : Work) : (opPackCommit wr x r w).out = w.out := by
  unfold opPackCommit; (try dsimp only); simp [apply_ite Work.out]

@[simp] theorem Work.holdAdd_out (x : Nat) (a : Option Nat) (w : Work) : (Work.holdAdd x a w).out = w.out := by unfold Work.holdAdd; (repeat' split) <;> simp [*]

@[simp] theorem Work.holdSlot_out (s : Option Nat) (w : Work) : (Work.holdSlot s w).out = w.out := by unfold Work.holdSlot; (repeat' split) <;> simp [*]

@[simp] theorem opStreamTrigger_out (x : Fin 16) (s : Fin 8) (w : Work) : (opStreamTrigger x s w).out = w.out := by unfold opStreamTrigger; dsimp only; (repeat' split) <;> simp_all

@[simp] theorem Work.streamNext_out (x : Nat) (s : Nat) (d : Nat) (k : Nat) (w : Work) : (Work.streamNext x s d k w).out = w.out := by unfold Work.streamNext; dsimp only; (repeat' split) <;> simp_all

@[simp] theorem Work.ditchFill_out (f : Fill) (w : Work) : (Work.ditchFill f w).out = w.out := by unfold Work.ditchFill; simp [*]

@[simp] theorem opPbCommit_out (wr : Writer) (b : Fin 64) (w : Work) : (opPbCommit wr b w).out = w.out := by unfold opPbCommit; simp [*]

@[simp] theorem opPbCommitApply_out (b : Fin 64) (w : Work) : (opPbCommitApply b w).out = w.out := by unfold opPbCommitApply; dsimp only; (repeat' split) <;> simp_all

@[simp] theorem Work.onchipWord_out (x : Nat) (a : Nat) (res : ReadRes) (w : Work) : (Work.onchipWord x a res w).out = w.out := by unfold Work.onchipWord; (repeat' split) <;> simp [*]

@[simp] theorem opNearScrub_out (a : Nat) (res : ReadRes) (w : Work) : (opNearScrub a res w).out = w.out := by unfold opNearScrub; (repeat' split) <;> simp [*]

@[simp] theorem Work.setDict_out (f : DictState → DictState) (w : Work) : (Work.setDict f w).out = w.out := by rfl

@[simp] theorem Work.drawIncarnation_out (w : Work) : (Work.drawIncarnation w).out = w.out := by unfold Work.drawIncarnation; dsimp only; (repeat' split) <;> simp_all

@[simp] theorem Work.phase_out (n : Nat) (w : Work) : (Work.phase n w).out = w.out := by unfold Work.phase; simp [*]

@[simp] theorem Work.setBoot_out (f : BootState → BootState) (w : Work) : (Work.setBoot f w).out = w.out := by rfl

@[simp] theorem opColdResetRelease_out (testMode : Bool) (entropyOk : Bool) (fusesOk : Bool) (w : Work) : (opColdResetRelease testMode entropyOk fusesOk w).out = w.out := by unfold opColdResetRelease; dsimp only; (repeat' split) <;> simp_all

@[simp] theorem Work.nextIncarnation_out (w : Work) : (Work.nextIncarnation w).out = w.out := by unfold Work.nextIncarnation; dsimp only; (repeat' split) <;> simp_all

@[simp] theorem Work.trainHalf_out (h : Nat) (w : Work) : (Work.trainHalf h w).out = w.out := by unfold Work.trainHalf; simp [*]

@[simp] theorem opDiePowerDone_out (rate : Fin 7) (width : Fin 17) (w : Work) : (opDiePowerDone rate width w).out = w.out := by unfold opDiePowerDone; (repeat' split) <;> simp [*]

@[simp] theorem Work.setErased_out (p : ExtPlace) (ls : List Nat) (w : Work) : (Work.setErased p ls w).out = w.out := by unfold Work.setErased; (repeat' split) <;> simp [*]

@[simp] theorem Work.laneTest_out (p : ExtPlace) (failed : List Nat) (w : Work) : (Work.laneTest p failed w).out = w.out := by unfold Work.laneTest; dsimp only; (repeat' split) <;> simp_all

@[simp] theorem Work.trainRates_out (w : Work) : (Work.trainRates w).out = w.out := by rfl

@[simp] theorem Work.trainDone_out (h : Nat) (slow : List Nat) (dead : List Nat) (lanes : List (Nat × Nat × Nat)) (w : Work) : (Work.trainDone h slow dead lanes w).out = w.out := by
  unfold Work.trainDone; (try dsimp only); simp [apply_ite Work.out]

@[simp] theorem opMemTrainDone_out (slow : List Nat) (dead : List Nat) (lanes : List (Nat × Nat × Nat)) (w : Work) : (opMemTrainDone slow dead lanes w).out = w.out := by unfold opMemTrainDone; (repeat' split) <;> simp [*]

@[simp] theorem Work.setHealth_out (f : HealthState → HealthState) (w : Work) : (Work.setHealth f w).out = w.out := by rfl

@[simp] theorem Work.comparison_out (v : Nat) (cores : List Nat) (w : Work) : (Work.comparison v cores w).out = w.out := by unfold Work.comparison; simp [*]

@[simp] theorem Work.setSched_out (f : SchedState → SchedState) (w : Work) : (Work.setSched f w).out = w.out := by rfl

@[simp] theorem Work.putCore_out (c : Core) (w : Work) : (Work.putCore c w).out = w.out := by rfl

@[simp] theorem Work.chainSave_out (k : Nat) (w : Work) : (Work.chainSave k w).out = w.out := by unfold Work.chainSave; dsimp only; (repeat' split) <;> simp_all

@[simp] theorem Work.coreNow_out (k : Nat) (st : Nat) (x : Nat) (w : Work) : (Work.coreNow k st x w).out = w.out := by rfl

@[simp] theorem Work.setRuns_out (l : List SampRun) (w : Work) : (Work.setRuns l w).out = w.out := by rfl

@[simp] theorem Work.dropRun_out (samp : Option Nat) (w : Work) : (Work.dropRun samp w).out = w.out := by unfold Work.dropRun; (repeat' split) <;> simp [*]

@[simp] theorem Work.setLaunches_out (l : List Launch) (w : Work) : (Work.setLaunches l w).out = w.out := by rfl

@[simp] theorem Work.mapLaunch_out (cmd : Nat) (f : Launch → Launch) (w : Work) : (Work.mapLaunch cmd f w).out = w.out := by rfl

@[simp] theorem Work.launchFault_out (cmd : Nat) (idx : Nat) (st : Nat) (detail : Nat) (w : Work) : (Work.launchFault cmd idx st detail w).out = w.out := by rfl

@[simp] theorem Work.launchStep_out (cmd : Nat) (w : Work) : (Work.launchStep cmd w).out = w.out := by unfold Work.launchStep; (repeat' split) <;> simp [*]

@[simp] theorem Work.tileGone_out (cmd : Nat) (w : Work) : (Work.tileGone cmd w).out = w.out := by unfold Work.tileGone; simp [*]

@[simp] theorem Work.chainLost_out (sp : SpillChain) (w : Work) : (Work.chainLost sp w).out = w.out := by unfold Work.chainLost; (repeat' split) <;> simp [*]

@[simp] theorem Work.spillMove_out (k : Nat) (w : Work) : (Work.spillMove k w).out = w.out := by unfold Work.spillMove; dsimp only; (repeat' split) <;> simp_all

@[simp] theorem Work.fenceCore_out (k : Nat) (w : Work) : (Work.fenceCore k w).out = w.out := by unfold Work.fenceCore; dsimp only; (repeat' split) <;> simp_all

@[simp] theorem Work.unfenceCore_out (k : Nat) (w : Work) : (Work.unfenceCore k w).out = w.out := by unfold Work.unfenceCore; (repeat' split) <;> simp [*]

@[simp] theorem Work.fencesNow_out (w : Work) : (Work.fencesNow w).out = w.out := by
  unfold Work.fencesNow; (try dsimp only); simp [apply_ite Work.out]

@[simp] theorem Work.persist_out (n : Nat) (w : Work) : (Work.persist n w).out = w.out := by rfl

@[simp] theorem Work.healthTo_out (st : Nat) (reason : Nat) (w : Work) : (Work.healthTo st reason w).out = w.out := by unfold Work.healthTo; (repeat' split) <;> simp [*]

@[simp] theorem Work.becomeOwner_out (cls : Nat) (c : Nat) (w : Work) : (Work.becomeOwner cls c w).out = w.out := by rfl

@[simp] theorem Work.offerSlice_out (cls : Nat) (p : Nat) (v0 : Nat) (v1 : Work) : (Work.offerSlice cls p v0 v1).out = v1.out := by
  induction v0 generalizing p v1 with
  | zero => simp [Work.offerSlice]
  | succ k ih => unfold Work.offerSlice; (try dsimp only); (repeat' split) <;> simp_all

@[simp] theorem Work.handover_out (cls : Nat) (p : Nat) (w : Work) : (Work.handover cls p w).out = w.out := by unfold Work.handover; simp [*]

@[simp] theorem Work.rotateClass_out (cls : Nat) (w : Work) : (Work.rotateClass cls w).out = w.out := by unfold Work.rotateClass; dsimp only; (repeat' split) <;> simp_all

@[simp] theorem Work.rotation_out (w : Work) : (Work.rotation w).out = w.out := by unfold Work.rotation; simp [*]

@[simp] theorem Work.tooFew_out (w : Work) : (Work.tooFew w).out = w.out := by unfold Work.tooFew; (repeat' split) <;> simp [*]

@[simp] theorem Work.confirm_out (k : Nat) (bin : Nat) (w : Work) : (Work.confirm k bin w).out = w.out := by unfold Work.confirm; dsimp only; (repeat' split) <;> simp_all

@[simp] theorem Work.confirmedIn_out (k : Nat) (bin : Nat) (cores : List Nat) (w : Work) : (Work.confirmedIn k bin cores w).out = w.out := by unfold Work.confirmedIn; simp [*]

@[simp] theorem Work.pass_out (cores : List Nat) (w : Work) : (Work.pass cores w).out = w.out := by unfold Work.pass; simp [*]

@[simp] theorem Work.void_out (w : Work) : (Work.void w).out = w.out := by rfl

@[simp] theorem Work.selfTest_out (k : Nat) (v : Nat) (bin : Nat) (w : Work) : (Work.selfTest k v bin w).out = w.out := by unfold Work.selfTest; (repeat' split) <;> simp [*]

@[simp] theorem Work.setClk_out (f : ClockState → ClockState) (w : Work) : (Work.setClk f w).out = w.out := by rfl

@[simp] theorem opXqRetryResend_out (inst : Nat) (w : Work) : (opXqRetryResend inst w).out = w.out := by unfold opXqRetryResend; dsimp only; (repeat' split) <;> simp_all

@[simp] theorem Work.timeSample_out (i : Nat) (w : Work) : (Work.timeSample i w).out = w.out := by rfl

@[simp] theorem opTimeSample_out (bad : List Nat) (w : Work) : (opTimeSample bad w).out = w.out := by
  unfold opTimeSample; split <;> (try dsimp only) <;> (repeat' split) <;> simp_all [apply_ite Work.out]

@[simp] theorem Work.freqSync_out (w : Work) : (Work.freqSync w).out = w.out := by rfl

@[simp] theorem Work.putChange_out (d : Nat) (c : Option ClkChange) (w : Work) : (Work.putChange d c w).out = w.out := by rfl

@[simp] theorem Work.beginChange_out (d : Nat) (mhz : Nat) (w : Work) : (Work.beginChange d mhz w).out = w.out := by unfold Work.beginChange; dsimp only; (repeat' split) <;> simp_all

@[simp] theorem Work.endChange_out (d : Nat) (w : Work) : (Work.endChange d w).out = w.out := by unfold Work.endChange; dsimp only; (repeat' split) <;> simp_all

@[simp] theorem Work.switchClock_out (c : ClkChange) (w : Work) : (Work.switchClock c w).out = w.out := by unfold Work.switchClock; dsimp only; (repeat' split) <;> simp_all

@[simp] theorem opPllLocked_out (d : Fin 2) (w : Work) : (opPllLocked d w).out = w.out := by unfold opPllLocked; (repeat' split) <;> simp [*]

@[simp] theorem opSetpointReached_out (d : Fin 2) (w : Work) : (opSetpointReached d w).out = w.out := by unfold opSetpointReached; dsimp only; (repeat' split) <;> simp_all

@[simp] theorem Work.setTarget_out (d : Nat) (mhz : Nat) (w : Work) : (Work.setTarget d mhz w).out = w.out := by unfold Work.setTarget; dsimp only; (repeat' split) <;> simp_all

@[simp] theorem Work.floorCheck_out (w : Work) : (Work.floorCheck w).out = w.out := by
  unfold Work.floorCheck; refine forUpto_out _ (fun i w => ?_) _ _; (try dsimp only); split <;> split <;> (try split) <;> simp_all

@[simp] theorem Work.stepSync_out (w : Work) : (Work.stepSync w).out = w.out := by unfold Work.stepSync; dsimp only; (repeat' split) <;> simp_all

@[simp] theorem Work.fixPend_out (wr : Writer) (n : Nat) (v : Nat) (w : Work) : (Work.fixPend wr n v w).out = w.out := by unfold Work.fixPend; simp [*]

@[simp] theorem Work.dvfsClamp_out (wr : Writer) (w : Work) : (Work.dvfsClamp wr w).out = w.out := by unfold Work.dvfsClamp; simp [*]

@[simp] theorem opDvfsCommit_out (wr : Writer) (w : Work) : (opDvfsCommit wr w).out = w.out := by
  unfold opDvfsCommit; refine Work.gated_out _ _ _ _ _ (fun w => ?_); (try dsimp only); (repeat' split) <;> simp_all [apply_ite Work.out]

@[simp] theorem Work.doorbellBad_out (fn : Nat) (x : Nat) (off : Nat) (w : Work) : (Work.doorbellBad fn x off w).out = w.out := by unfold Work.doorbellBad; simp [*]

@[simp] theorem Work.doorbell_out (fn : Nat) (x : Nat) (act : Work → Work) (w : Work) (h0 : ∀ y0, (act y0).out = y0.out) : (Work.doorbell fn x act w).out = w.out := by unfold Work.doorbell; (repeat' split) <;> simp [*]

@[simp] theorem opDoorbellSqTail_out (fn : Fin 16) (x : Fin 16) (q : Fin 5) (width : Nat) (v : Nat) (w : Work) : (opDoorbellSqTail fn x q width v w).out = w.out := by
  unfold opDoorbellSqTail; (try dsimp only); simp [apply_ite Work.out]

@[simp] theorem opEvtHost_out (fn : Fin 16) (x : Fin 16) (width : Nat) (v : Nat) (w : Work) : (opEvtHost fn x width v w).out = w.out := by
  unfold opEvtHost; (try dsimp only); simp [apply_ite Work.out]

@[simp] theorem Work.mapPat_out (pid : Nat) (f : Pattern → Pattern) (w : Work) : (Work.mapPat pid f w).out = w.out := by rfl

@[simp] theorem Work.fetchNext_out (pid : Nat) (w : Work) : (Work.fetchNext pid w).out = w.out := by unfold Work.fetchNext; (repeat' split) <;> simp [*]

@[simp] theorem Work.ctxProgress_out (x : Nat) (w : Work) : (Work.ctxProgress x w).out = w.out := by rfl

@[simp] theorem Work.startCmd_out (p : Pattern) (early : Option (Nat × Nat)) (w : Work) : (Work.startCmd p early w).out = w.out := by unfold Work.startCmd; (repeat' split) <;> simp [*]

@[simp] theorem opCommandStart_out (x : Fin 16) (q : Fin 5) (w : Work) : (opCommandStart x q w).out = w.out := by unfold opCommandStart; dsimp only; (repeat' split) <;> simp_all

@[simp] theorem opNop_out (id : Nat) (w : Work) : (opNop id w).out = w.out := by unfold opNop; (repeat' split) <;> simp [*]

@[simp] theorem opEvtSignal_out (id : Nat) (w : Work) : (opEvtSignal id w).out = w.out := by unfold opEvtSignal; (repeat' split) <;> simp [*]

@[simp] theorem opEvtWait_out (id : Nat) (w : Work) : (opEvtWait id w).out = w.out := by unfold opEvtWait; (repeat' split) <;> simp [*]

@[simp] theorem opFence_out (id : Nat) (w : Work) : (opFence id w).out = w.out := by unfold opFence; (repeat' split) <;> simp [*]

@[simp] theorem Work.setTimers_out (l : List Timer) (w : Work) : (Work.setTimers l w).out = w.out := by rfl

@[simp] theorem opTimerArm_out (id : Nat) (w : Work) : (opTimerArm id w).out = w.out := by unfold opTimerArm; dsimp only; (repeat' split) <;> simp_all

@[simp] theorem opTimerFire_out (x : Fin 16) (i : Fin 8) (w : Work) : (opTimerFire x i w).out = w.out := by unfold opTimerFire; (repeat' split) <;> simp [*]

@[simp] theorem Work.yieldSlice_out (x : Nat) (w : Work) : (Work.yieldSlice x w).out = w.out := by unfold Work.yieldSlice; dsimp only; (repeat' split) <;> simp_all

@[simp] theorem opYield_out (id : Nat) (w : Work) : (opYield id w).out = w.out := by unfold opYield; (repeat' split) <;> simp [*]

@[simp] theorem Work.wideApply_out (x : Nat) (w : Work) : (Work.wideApply x w).out = w.out := by unfold Work.wideApply; (repeat' split) <;> simp [*]

@[simp] theorem opStepMarkTimeout_out (x : Fin 16) (w : Work) : (opStepMarkTimeout x w).out = w.out := by unfold opStepMarkTimeout; (repeat' split) <;> simp [*]

@[simp] theorem opWaitTimeout_out (x : Fin 16) (q : Fin 5) (w : Work) : (opWaitTimeout x q w).out = w.out := by unfold opWaitTimeout; dsimp only; (repeat' split) <;> simp_all

@[simp] theorem Work.qCtrl_out (wr : Writer) (x : Nat) (q : Nat) (v : Nat) (ok : List Nat) (act : Work → Work) (w : Work) (h0 : ∀ y0, (act y0).out = y0.out) : (Work.qCtrl wr x q v ok act w).out = w.out := by
  unfold Work.qCtrl; refine Work.gated_out _ _ _ _ _ (fun w => ?_); (try dsimp only); (repeat' split) <;> simp_all

@[simp] theorem opQStart_out (wr : Writer) (x : Fin 16) (q : Fin 5) (w : Work) : (opQStart wr x q w).out = w.out := by unfold opQStart; simp [*]

@[simp] theorem opQStop_out (wr : Writer) (x : Fin 16) (q : Fin 5) (w : Work) : (opQStop wr x q w).out = w.out := by unfold opQStop; simp [*]

@[simp] theorem opQResume_out (wr : Writer) (x : Fin 16) (q : Fin 5) (w : Work) : (opQResume wr x q w).out = w.out := by unfold opQResume; simp [*]

@[simp] theorem opQCommit_out (wr : Writer) (x : Fin 16) (q : Fin 5) (w : Work) : (opQCommit wr x q w).out = w.out := by unfold opQCommit; simp [*]

@[simp] theorem opQCommitApply_out (x : Fin 16) (q : Fin 5) (w : Work) : (opQCommitApply x q w).out = w.out := by unfold opQCommitApply; dsimp only; (repeat' split) <;> simp_all

@[simp] theorem opCtxCommit_out (wr : Writer) (x : Fin 16) (w : Work) : (opCtxCommit wr x w).out = w.out := by unfold opCtxCommit; simp [*]

@[simp] theorem Work.ctxCtrl_out (wr : Writer) (x : Nat) (v : Nat) (ok : List Nat) (act : Work → Work) (w : Work) (h0 : ∀ y0, (act y0).out = y0.out) : (Work.ctxCtrl wr x v ok act w).out = w.out := by
  unfold Work.ctxCtrl; refine Work.gated_out _ _ _ _ _ (fun w => ?_); (try dsimp only); (repeat' split) <;> simp_all

@[simp] theorem Work.clearEvents_out (x : Nat) (w : Work) : (Work.clearEvents x w).out = w.out := by rfl

@[simp] theorem Work.setNet_out (f : NetState → NetState) (w : Work) : (Work.setNet f w).out = w.out := by rfl

@[simp] theorem Work.addSess_out (s : Sess) (w : Work) : (Work.addSess s w).out = w.out := by rfl

@[simp] theorem Work.nextSid_out (n : Nat) (w : Work) : (Work.nextSid n w).2.out = w.out := by rfl

@[simp] theorem Work.openBody_out (n : Nat) (port : Nat) (nonceI : Nat) (nonceR : Nat) (hdr : Nat) (w : Work) : (Work.openBody n port nonceI nonceR hdr w).2.out = w.out := by rfl

@[simp] theorem Work.countOpen_out (w : Work) : (Work.countOpen w).out = w.out := by rfl

@[simp] theorem Work.putPeerSt_out (n : Nat) (st : Nat) (why : Nat) (w : Work) : (Work.putPeerSt n st why w).out = w.out := by rfl

@[simp] theorem Work.frame_out (p : Nat) (addr : Nat) (rport : Nat) (sid : Nat) (path : Nat) (hdr : Nat) (ext : Nat) (extLen : Nat) (payload : List Byte) (bad : TxFault) (w : Work) : (Work.frame p addr rport sid path hdr ext extLen payload bad w).out = w.out := by unfold Work.frame; (repeat' split) <;> simp [*]

@[simp] theorem Work.sendOpen_out (s : Sess) (w : Work) : (Work.sendOpen s w).out = w.out := by unfold Work.sendOpen; simp [*]

@[simp] theorem Work.tryOpen_out (n : Nat) (w : Work) : (Work.tryOpen n w).out = w.out := by unfold Work.tryOpen; dsimp only; (repeat' split) <;> simp_all

@[simp] theorem Work.openCtx_out (x : Nat) (w : Work) : (Work.openCtx x w).out = w.out := by
  unfold Work.openCtx; refine foldl_out _ (fun w a => ?_) _ _; (try dsimp only); (repeat' split) <;> simp_all

@[simp] theorem opCtxResume_out (wr : Writer) (x : Fin 16) (w : Work) : (opCtxResume wr x w).out = w.out := by unfold opCtxResume; simp [*]

@[simp] theorem Work.endCmd_out (id : Nat) (d : Done) (w : Work) : (Work.endCmd id d w).out = w.out := by rfl

@[simp] theorem Work.slotApply_out (s : Nat) (w : Work) : (Work.slotApply s w).out = w.out := by
  unfold Work.slotApply; (try dsimp only); simp [apply_ite Work.out]

@[simp] theorem Work.slotQuiet_out (s : Nat) (w : Work) : (Work.slotQuiet s w).out = w.out := by unfold Work.slotQuiet; dsimp only; (repeat' split) <;> simp_all

@[simp] theorem Work.dropSlot_out (s : Option Nat) (w : Work) : (Work.dropSlot s w).out = w.out := by unfold Work.dropSlot; dsimp only; (repeat' split) <;> simp_all

@[simp] theorem Work.dropAdd_out (x : Nat) (a : Option Nat) (w : Work) : (Work.dropAdd x a w).out = w.out := by unfold Work.dropAdd; (repeat' split) <;> simp [*]

@[simp] theorem Work.setSpills_out (l : List Spill) (w : Work) : (Work.setSpills l w).out = w.out := by rfl

@[simp] theorem Work.readEvents_out (x : Nat) (a : Nat) (res : ReadRes) (w : Work) : (Work.readEvents x a res w).out = w.out := by unfold Work.readEvents; (repeat' split) <;> simp [*]

@[simp] theorem Work.eraseLane_out (p : ExtPlace) (l : Nat) (w : Work) : (Work.eraseLane p l w).out = w.out := by unfold Work.eraseLane; (repeat' split) <;> simp [*]

@[simp] theorem Work.laneThreshold_out (p : ExtPlace) (l : Nat) (w : Work) : (Work.laneThreshold p l w).out = w.out := by unfold Work.laneThreshold; dsimp only; (repeat' split) <;> simp_all

@[simp] theorem Work.laneSymbol_out (p : ExtPlace) (l : Nat) (w : Work) : (Work.laneSymbol p l w).out = w.out := by unfold Work.laneSymbol; dsimp only; (repeat' split) <;> simp_all

@[simp] theorem Work.setErrs_out (a : Nat) (e : List (Nat × Nat)) (w : Work) : (Work.setErrs a e w).out = w.out := by rfl

@[simp] theorem Work.decodeSector_out (p : ExtPlace) (a : Nat) (flips : List (Nat × Nat)) (w : Work) : (Work.decodeSector p a flips w).2.out = w.out := by unfold Work.decodeSector; dsimp only; (repeat' split) <;> simp_all

@[simp] theorem opExtScrub_out (a : Nat) (flips : List (Nat × Nat)) (raced : Bool) (w : Work) : (opExtScrub a flips raced w).out = w.out := by unfold opExtScrub; dsimp only; (repeat' split) <;> simp_all

@[simp] theorem opDramTempPoll_out (stackC : List Int) (pkgs : List Int) (w : Work) : (opDramTempPoll stackC pkgs w).out = w.out := by unfold opDramTempPoll; simp [*]

@[simp] theorem Work.setCouch_out (l : List Couch) (w : Work) : (Work.setCouch l w).out = w.out := by rfl

@[simp] theorem Work.rmwRead_out (e : Couch) (cw : Nat) (k : Nat) (bad : List Nat) (w : Work) : (Work.rmwRead e cw k bad w).2.out = w.out := by unfold Work.rmwRead; dsimp only; (repeat' split) <;> simp_all

@[simp] theorem Work.putReg_out (r : Reg) (w : Work) : (Work.putReg r w).out = w.out := by rfl

@[simp] theorem Work.regPass_out (r : Reg) (n : Nat) (w : Work) : (Work.regPass r n w).out = w.out := by unfold Work.regPass; dsimp only; (repeat' split) <;> simp_all

@[simp] theorem opRegulatorRequest_out (x : Fin 16) (t : Fin 3) (h : Fin 2) (n : Nat) (tileBound : Bool) (w : Work) : (opRegulatorRequest x t h n tileBound w).out = w.out := by unfold opRegulatorRequest; dsimp only; (repeat' split) <;> simp_all

@[simp] theorem opRegulatorRetry_out (x : Fin 16) (t : Fin 3) (h : Fin 2) (w : Work) : (opRegulatorRetry x t h w).out = w.out := by unfold opRegulatorRetry; dsimp only; (repeat' split) <;> simp_all

@[simp] theorem opRegulatorShareUpdate_out (w : Work) : (opRegulatorShareUpdate w).out = w.out := by unfold opRegulatorShareUpdate; (repeat' split) <;> simp [*]

@[simp] theorem Work.writeMin_out (wr : Writer) (x : Nat) (t : Nat) (v : Nat) (w : Work) : (Work.writeMin wr x t v w).out = w.out := by unfold Work.writeMin; dsimp only; (repeat' split) <;> simp_all

@[simp] theorem Work.writeCap_out (wr : Writer) (x : Nat) (t : Nat) (v : Nat) (w : Work) : (Work.writeCap wr x t v w).out = w.out := by unfold Work.writeCap; simp [*]

@[simp] theorem Work.setPool_out (l : List PoolUse) (w : Work) : (Work.setPool l w).out = w.out := by rfl

@[simp] theorem opSpillPoolCommit_out (wr : Writer) (w : Work) : (opSpillPoolCommit wr w).out = w.out := by unfold opSpillPoolCommit; simp [*]

@[simp] theorem Work.spillRefuse_out (x : Nat) (r : Nat) (w : Work) : (Work.spillRefuse x r w).out = w.out := by rfl

@[simp] theorem Work.spillDrop_out (x : Nat) (w : Work) : (Work.spillDrop x w).out = w.out := by rfl

@[simp] theorem Work.spillUndo_out (sp : Spill) (result : Nat) (w : Work) : (Work.spillUndo sp result w).out = w.out := by unfold Work.spillUndo; (repeat' split) <;> simp [*]

@[simp] theorem Work.spillAbort_out (x : Nat) (w : Work) : (Work.spillAbort x w).out = w.out := by unfold Work.spillAbort; (repeat' split) <;> simp [*]

@[simp] theorem Work.retarget_out (x : Nat) (i : Nat) (base : Nat) (len : Nat) (w : Work) : (Work.retarget x i base len w).out = w.out := by
  unfold Work.retarget; simp

@[simp] theorem Work.runImage_out (b : Nat) (w : Work) : (Work.runImage b w).out = w.out := by rfl

@[simp] theorem Work.verifyBoot_out (bad : List Nat) (w : Work) : (Work.verifyBoot bad w).2.out = w.out := by unfold Work.verifyBoot; dsimp only; (repeat' split) <;> simp_all

@[simp] theorem opFwSvnCommit_out (wr : Writer) (w : Work) : (opFwSvnCommit wr w).out = w.out := by
  unfold opFwSvnCommit; (try dsimp only); simp [apply_ite Work.out]

@[simp] theorem Work.stageBegin_out (w : Work) : (Work.stageBegin w).out = w.out := by unfold Work.stageBegin; dsimp only; (repeat' split) <;> simp_all

@[simp] theorem Work.stageWrite_out (wr : Writer) (off : Nat) (d : List Byte) (w : Work) : (Work.stageWrite wr off d w).out = w.out := by unfold Work.stageWrite; (repeat' split) <;> simp [*]

@[simp] theorem opFwStage_out (wr : Writer) (off : Nat) (data : List Byte) (w : Work) : (opFwStage wr off data w).out = w.out := by unfold opFwStage; simp [*]

@[simp] theorem opFwStageCommit_out (wr : Writer) (w : Work) : (opFwStageCommit wr w).out = w.out := by
  unfold opFwStageCommit; refine Work.gated_out _ _ _ _ _ (fun w => ?_); (try dsimp only); (repeat' split) <;> simp_all [apply_ite Work.out]

@[simp] theorem opEntropyFailed_out (w : Work) : (opEntropyFailed w).out = w.out := by unfold opEntropyFailed; dsimp only; (repeat' split) <;> simp_all

@[simp] theorem opEntropyRetest_out (pass : Bool) (w : Work) : (opEntropyRetest pass w).out = w.out := by unfold opEntropyRetest; dsimp only; (repeat' split) <;> simp_all

@[simp] theorem opAttestReq_out (wr : Writer) (x : Fin 16) (w : Work) : (opAttestReq wr x w).out = w.out := by
  unfold opAttestReq; (try dsimp only); simp [apply_ite Work.out]

@[simp] theorem opAttestDone_out (x : Fin 16) (w : Work) : (opAttestDone x w).out = w.out := by unfold opAttestDone; (repeat' split) <;> simp [*]

@[simp] theorem Work.countConv_out (x : Nat) (c : Conv) (w : Work) : (Work.countConv x c w).out = w.out := by unfold Work.countConv; (repeat' split) <;> simp [*]

@[simp] theorem Work.suspectCheck_out (reason : Nat) (w : Work) : (Work.suspectCheck reason w).out = w.out := by unfold Work.suspectCheck; (repeat' split) <;> simp [*]

@[simp] theorem Work.unreproducedIn_out (k : Nat) (bin : Nat) (cores : List Nat) (w : Work) : (Work.unreproducedIn k bin cores w).out = w.out := by unfold Work.unreproducedIn; dsimp only; (repeat' split) <;> simp_all

@[simp] theorem Work.sdcStep_out (x : Nat) (step : Nat) (k : Nat) (w : Work) : (Work.sdcStep x step k w).out = w.out := by unfold Work.sdcStep; simp [*]

@[simp] theorem Work.unresolved_out (x : Nat) (step : Nat) (k : Nat) (cores : List Nat) (w : Work) : (Work.unresolved x step k cores w).out = w.out := by unfold Work.unresolved; simp [*]

@[simp] theorem Work.runNext_out (r : SampRun) (kind : Nat) (notCores : List Nat) (onCore : Option Nat) (w : Work) : (Work.runNext r kind notCores onCore w).out = w.out := by unfold Work.runNext; simp [*]

@[simp] theorem opSamplerRunDone_out (id : Nat) (w : Work) : (opSamplerRunDone id w).out = w.out := by unfold opSamplerRunDone; (repeat' split) <;> simp [*]

@[simp] theorem opSamplerLagDrop_out (id : Nat) (w : Work) : (opSamplerLagDrop id w).out = w.out := by unfold opSamplerLagDrop; (repeat' split) <;> simp [*]

@[simp] theorem Work.katVerdict_out (k : Nat) (v : Nat) (bin : Nat) (w : Work) : (Work.katVerdict k v bin w).out = w.out := by unfold Work.katVerdict; (repeat' split) <;> simp [*]

@[simp] theorem opKatPeriod_out (ns : Nat) (res : List (Fin 32 × Nat × Nat)) (w : Work) : (opKatPeriod ns res w).out = w.out := by
  unfold opKatPeriod; (try dsimp only); simp [apply_ite Work.out]

@[simp] theorem opHealthScoreTick_out (w : Work) : (opHealthScoreTick w).out = w.out := by unfold opHealthScoreTick; dsimp only; (repeat' split) <;> simp_all

@[simp] theorem opProbationEnd_out (w : Work) : (opProbationEnd w).out = w.out := by unfold opProbationEnd; dsimp only; (repeat' split) <;> simp_all

@[simp] theorem opHealthReport_out (w : Work) : (opHealthReport w).out = w.out := by
  unfold opHealthReport; (try dsimp only); simp [apply_ite Work.out]

@[simp] theorem opHealthClear_out (wr : Writer) (v : Nat) (w : Work) : (opHealthClear wr v w).out = w.out := by
  unfold opHealthClear; split <;> (try dsimp only) <;> (repeat' split) <;> simp_all [apply_ite Work.out]

@[simp] theorem opFenceFwClear_out (wr : Writer) (v : Nat) (w : Work) : (opFenceFwClear wr v w).out = w.out := by unfold opFenceFwClear; simp [*]

@[simp] theorem Work.setPair_out (f : PairState → PairState) (w : Work) : (Work.setPair f w).out = w.out := by rfl

@[simp] theorem opOvhWindow_out (w : Work) : (opOvhWindow w).out = w.out := by unfold opOvhWindow; dsimp only; (repeat' split) <;> simp_all

@[simp] theorem Work.hokAnswer_out (f : HokRx) (m : List Nat) (w : Work) : (Work.hokAnswer f m w).out = w.out := by unfold Work.hokAnswer; simp [*]

@[simp] theorem Work.hokError_out (f : HokRx) (code : Nat) (w : Work) : (Work.hokError f code w).out = w.out := by unfold Work.hokError; (repeat' split) <;> simp [*]

@[simp] theorem Work.hokTake_out (f : HokRx) (type : Nat) (act : Work → Work) (w : Work) (h0 : ∀ y0, (act y0).out = y0.out) : (Work.hokTake f type act w).out = w.out := by unfold Work.hokTake; dsimp only; (repeat' split) <;> simp_all

@[simp] theorem Work.hokIn_out (f : HokRx) (act : HokSession → Work → Work) (w : Work) (h0 : ∀ y0 y1, (act y0 y1).out = y1.out) : (Work.hokIn f act w).out = w.out := by unfold Work.hokIn; dsimp only; (repeat' split) <;> simp_all

@[simp] theorem Work.putHok_out (s : HokSession) (w : Work) : (Work.putHok s w).out = w.out := by rfl

@[simp] theorem Work.hokAuthFail_out (f : HokRx) (why : Nat) (w : Work) : (Work.hokAuthFail f why w).out = w.out := by unfold Work.hokAuthFail; dsimp only; (repeat' split) <;> simp_all

@[simp] theorem Work.hokOpen_out (f : HokRx) (key : Nat) (s : Nat) (w : Work) : (Work.hokOpen f key s w).out = w.out := by unfold Work.hokOpen; simp [*]

@[simp] theorem Work.acked_out (addr : Nat) (seq : Nat) (w : Work) : (Work.acked addr seq w).out = w.out := by rfl

@[simp] theorem opHokNotifyAckRx_out (f : HokRx) (w : Work) : (opHokNotifyAckRx f w).out = w.out := by unfold opHokNotifyAckRx; (repeat' split) <;> simp [*]

@[simp] theorem opHokCloseRx_out (f : HokRx) (w : Work) : (opHokCloseRx f w).out = w.out := by unfold opHokCloseRx; simp [*]

@[simp] theorem opHokIdleTimeout_out (s : Fin 4) (w : Work) : (opHokIdleTimeout s w).out = w.out := by unfold opHokIdleTimeout; (repeat' split) <;> simp [*]

@[simp] theorem Work.hoopPut_out (x : Nat) (t : Nat) (r : Nat) (w : Work) : (Work.hoopPut x t r w).out = w.out := by rfl

@[simp] theorem Work.hoopClamp_out (wr : Writer) (num : Nat) (off : Nat) (r : Nat) (w : Work) : (Work.hoopClamp wr num off r w).2.out = w.out := by unfold Work.hoopClamp; dsimp only; (repeat' split) <;> simp_all

@[simp] theorem Work.hoopReport_out (x : Nat) (t : Nat) (k : Conv) (w : Work) : (Work.hoopReport x t k w).out = w.out := by rfl

@[simp] theorem Work.historyLost_out (x : Nat) (t : Nat) (w : Work) : (Work.historyLost x t w).out = w.out := by unfold Work.historyLost; simp [*]

@[simp] theorem Work.monitor_out (x : Nat) (t : Nat) (r : Nat) (w : Work) : (Work.monitor x t r w).2.out = w.out := by unfold Work.monitor; dsimp only; (repeat' split) <;> simp_all

@[simp] theorem Work.hoopImageApply_out (x : Nat) (t : Nat) (w : Work) : (Work.hoopImageApply x t w).out = w.out := by unfold Work.hoopImageApply; dsimp only; (repeat' split) <;> simp_all

@[simp] theorem Work.hoopRestage_out (x : Nat) (w : Work) : (Work.hoopRestage x w).out = w.out := by unfold Work.hoopRestage; simp [*]

@[simp] theorem Work.hoopApply_out (x : Nat) (w : Work) : (Work.hoopApply x w).out = w.out := by unfold Work.hoopApply; dsimp only; (repeat' split) <;> simp_all

@[simp] theorem Work.hoopCommit_out (x : Nat) (w : Work) : (Work.hoopCommit x w).out = w.out := by
  unfold Work.hoopCommit; (try dsimp only); simp [apply_ite Work.out]

@[simp] theorem Work.hoopForgetSlot_out (x : Nat) (t : Nat) (w : Work) : (Work.hoopForgetSlot x t w).out = w.out := by
  unfold Work.hoopForgetSlot; (try dsimp only); simp [apply_ite Work.out]

@[simp] theorem Work.hoopForgets_out (x : Nat) (w : Work) : (Work.hoopForgets x w).out = w.out := by
  unfold Work.hoopForgets; (try dsimp only); simp [apply_ite Work.out]

@[simp] theorem Work.hoopStage_out (wr : Writer) (x : Nat) (off : Nat) (v : Nat) (len : Nat) (w : Work) : (Work.hoopStage wr x off v len w).out = w.out := by unfold Work.hoopStage; simp [*]

@[simp] theorem Work.hoopStageImage_out (x : Nat) (off : Nat) (v : Nat) (len : Nat) (w : Work) : (Work.hoopStageImage x off v len w).out = w.out := by unfold Work.hoopStageImage; (repeat' split) <;> simp [*]

@[simp] theorem Work.fnReset_out (c : Nat) (w : Work) : (Work.fnReset c w).out = w.out := by rfl

@[simp] theorem Work.allFnReset_out (w : Work) : (Work.allFnReset w).out = w.out := by
  unfold Work.allFnReset; simp

@[simp] theorem Work.hostConfig_out (cfg : HostCfg) (w : Work) : (Work.hostConfig cfg w).out = w.out := by rfl

@[simp] theorem opHostLinkChanged_out (rate : Fin 7) (width : Fin 17) (cfg : HostCfg) (w : Work) : (opHostLinkChanged rate width cfg w).out = w.out := by unfold opHostLinkChanged; dsimp only; (repeat' split) <;> simp_all

@[simp] theorem Work.setHashes_out (l : List HashJob) (w : Work) : (Work.setHashes l w).out = w.out := by rfl

@[simp] theorem Work.hashAdd_out (kind : Nat) (ref : Nat) (w : Work) : (Work.hashAdd kind ref w).out = w.out := by rfl

@[simp] theorem Work.hashDrop_out (kind : Nat) (ref : Nat) (w : Work) : (Work.hashDrop kind ref w).out = w.out := by rfl

@[simp] theorem Work.mapLoad_out (f : LoadJob → LoadJob) (w : Work) : (Work.mapLoad f w).out = w.out := by rfl

@[simp] theorem Work.putShard_out (s : Shard) (w : Work) : (Work.putShard s w).out = w.out := by rfl

@[simp] theorem Work.activateSlot_out (s : Nat) (w : Work) : (Work.activateSlot s w).out = w.out := by unfold Work.activateSlot; (repeat' split) <;> simp [*]

@[simp] theorem opActivate_out (wr : Writer) (v : Nat) (w : Work) : (opActivate wr v w).out = w.out := by
  unfold opActivate; refine Work.gated_out _ _ _ _ _ (fun w => ?_); (try dsimp only); (repeat' split) <;> simp_all [apply_ite Work.out]

@[simp] theorem Work.resumeAdmit_out (w : Work) : (Work.resumeAdmit w).out = w.out := by unfold Work.resumeAdmit; (repeat' split) <;> simp [*]

@[simp] theorem Work.loadOver_out (st : Nat) (w : Work) : (Work.loadOver st w).out = w.out := by unfold Work.loadOver; dsimp only; (repeat' split) <;> simp_all

@[simp] theorem Work.queueMsg_out (m : TxMsg) (w : Work) : (Work.queueMsg m w).out = w.out := by rfl

@[simp] theorem Work.tellSucc_out (j : LoadJob) (w : Work) : (Work.tellSucc j w).out = w.out := by
  unfold Work.tellSucc; split <;> (try dsimp only) <;> (repeat' split) <;> simp_all [apply_ite Work.out]

@[simp] theorem Work.loadFail_out (det : Nat) (w : Work) : (Work.loadFail det w).out = w.out := by unfold Work.loadFail; (repeat' split) <;> simp [*]

@[simp] theorem Work.loadInvalid_out (reason : Nat) (entry : Nat) (w : Work) : (Work.loadInvalid reason entry w).out = w.out := by unfold Work.loadInvalid; (repeat' split) <;> simp [*]

@[simp] theorem Work.nextAttempt_out (i : Nat) (st : Nat) (w : Work) : (Work.nextAttempt i st w).out = w.out := by unfold Work.nextAttempt; (repeat' split) <;> simp [*]

@[simp] theorem Work.hashReady_out (i : Nat) (w : Work) : (Work.hashReady i w).out = w.out := by unfold Work.hashReady; (repeat' split) <;> simp [*]

@[simp] theorem Work.issueShard_out (i : Nat) (w : Work) : (Work.issueShard i w).out = w.out := by unfold Work.issueShard; dsimp only; (repeat' split) <;> simp_all

@[simp] theorem Work.forward_out (v0 : Nat) (v1 : Work) : (Work.forward v0 v1).out = v1.out := by
  induction v0 generalizing v1 with
  | zero => rfl
  | succ k ih => unfold Work.forward; (try dsimp only); (repeat' split) <;> simp_all

@[simp] theorem opSlotCommit_out (wr : Writer) (s : Fin 3) (w : Work) : (opSlotCommit wr s w).out = w.out := by unfold opSlotCommit; simp [*]

@[simp] theorem opSwap_out (wr : Writer) (w : Work) : (opSwap wr w).out = w.out := by
  unfold opSwap; refine Work.gated_out _ _ _ _ _ (fun w => ?_); (try dsimp only); (repeat' split) <;> simp_all [apply_ite Work.out]

@[simp] theorem opBindCommit_out (wr : Writer) (x : Fin 16) (w : Work) : (opBindCommit wr x w).out = w.out := by unfold opBindCommit; simp [*]

@[simp] theorem Work.bindClamps_out (x : Nat) (w : Work) : (Work.bindClamps x w).out = w.out := by
  unfold Work.bindClamps; (try dsimp only); simp [apply_ite Work.out]

@[simp] theorem opBindCommitApply_out (x : Fin 16) (w : Work) : (opBindCommitApply x w).out = w.out := by unfold opBindCommitApply; dsimp only; (repeat' split) <;> simp_all

@[simp] theorem opAddSwap_out (wr : Writer) (x : Fin 16) (w : Work) : (opAddSwap wr x w).out = w.out := by
  unfold opAddSwap; (try dsimp only); simp [apply_ite Work.out]

@[simp] theorem Work.addSwapNow_out (x : Nat) (w : Work) : (Work.addSwapNow x w).out = w.out := by unfold Work.addSwapNow; (repeat' split) <;> simp [*]

@[simp] theorem opFwDecision_out (num : Nat) (seen : Nat) (breaks : Bool) (w : Work) : (opFwDecision num seen breaks w).out = w.out := by unfold opFwDecision; (repeat' split) <;> simp [*]

@[simp] theorem Work.storeEnd_out (res : Fin 3) (w : Work) : (Work.storeEnd res w).out = w.out := by unfold Work.storeEnd; (repeat' split) <;> simp [*]

@[simp] theorem Work.storeSave_out (n : Nat) (w : Work) : (Work.storeSave n w).out = w.out := by unfold Work.storeSave; (repeat' split) <;> simp [*]

@[simp] theorem opStoreWrite_out (num : Nat) (res : Fin 3) (w : Work) : (opStoreWrite num res w).out = w.out := by unfold opStoreWrite; dsimp only; (repeat' split) <;> simp_all

@[simp] theorem opStoreErase_out (wr : Writer) (v : Nat) (res : Fin 3) (w : Work) : (opStoreErase wr v res w).out = w.out := by
  unfold opStoreErase; (try dsimp only); simp [apply_ite Work.out]

@[simp] theorem Work.mgmtReq_out (wr : Writer) (w : Work) : (Work.mgmtReq wr w).out = w.out := by unfold Work.mgmtReq; simp [*]

@[simp] theorem Work.mgmtApply_out (w : Work) : (Work.mgmtApply w).out = w.out := by unfold Work.mgmtApply; (repeat' split) <;> simp [*]

@[simp] theorem opMgmtCommit_out (wr : Writer) (w : Work) : (opMgmtCommit wr w).out = w.out := by unfold opMgmtCommit; simp [*]

@[simp] theorem opNotifyCommit_out (wr : Writer) (w : Work) : (opNotifyCommit wr w).out = w.out := by unfold opNotifyCommit; simp [*]

@[simp] theorem Work.sendClose_out (s : HokSession) (w : Work) : (Work.sendClose s w).out = w.out := by unfold Work.sendClose; simp [*]

@[simp] theorem Work.hokReq_out (wr : Writer) (w : Work) : (Work.hokReq wr w).out = w.out := by
  unfold Work.hokReq; refine Work.gated_out _ _ _ _ _ (fun w => ?_); (try dsimp only); (repeat' split) <;> simp_all [apply_ite Work.out]

@[simp] theorem Work.hokApply_out (w : Work) : (Work.hokApply w).out = w.out := by
  unfold Work.hokApply; (try dsimp only); simp [apply_ite Work.out]

@[simp] theorem opHokCommit_out (wr : Writer) (w : Work) : (opHokCommit wr w).out = w.out := by unfold opHokCommit; simp [*]

@[simp] theorem opLogClear_out (wr : Writer) (w : Work) : (opLogClear wr w).out = w.out := by unfold opLogClear; simp [*]

@[simp] theorem opLogReadSeqWrite_out (wr : Writer) (v : Nat) (w : Work) : (opLogReadSeqWrite wr v w).out = w.out := by unfold opLogReadSeqWrite; simp [*]

@[simp] theorem opLogDropped_out (w : Work) : (opLogDropped w).out = w.out := by unfold opLogDropped; (repeat' split) <;> simp [*]

@[simp] theorem opMgmtLinkUp_out (w : Work) : (opMgmtLinkUp w).out = w.out := by unfold opMgmtLinkUp; (repeat' split) <;> simp [*]

@[simp] theorem opMgmtLinkDown_out (w : Work) : (opMgmtLinkDown w).out = w.out := by rfl

@[simp] theorem opMgmtFrameRx_out (f : MgmtFrame) (w : Work) : (opMgmtFrameRx f w).out = w.out := by unfold opMgmtFrameRx; dsimp only; (repeat' split) <;> simp_all

@[simp] theorem opNotifyResend_out (i : Fin 4) (seq : Nat) (w : Work) : (opNotifyResend i seq w).out = w.out := by unfold opNotifyResend; (repeat' split) <;> simp [*]

@[simp] theorem Work.putSess_out (s : Sess) (w : Work) : (Work.putSess s w).out = w.out := by rfl

@[simp] theorem Work.mapSess_out (n : Nat) (f : Sess → Sess) (w : Work) : (Work.mapSess n f w).out = w.out := by unfold Work.mapSess; (repeat' split) <;> simp [*]

@[simp] theorem Work.clampRates_out (w : Work) : (Work.clampRates w).out = w.out := by unfold Work.clampRates; simp [*]

@[simp] theorem Work.sendCtl_out (s : Sess) (type : Nat) (flags : Nat) (ext : Nat) (extLen : Nat) (bad : TxFault) (w : Work) : (Work.sendCtl s type flags ext extLen bad w).out = w.out := by unfold Work.sendCtl; simp [*]

@[simp] theorem Work.reply_out (p : Nat) (addr : Nat) (type : Nat) (reason : Nat) (h : Nat) (w : Work) : (Work.reply p addr type reason h w).out = w.out := by unfold Work.reply; dsimp only; (repeat' split) <;> simp_all

@[simp] theorem Work.mapMsg_out (n : Nat) (num : Nat) (f : TxMsg → TxMsg) (w : Work) : (Work.mapMsg n num f w).out = w.out := by rfl

@[simp] theorem Work.withdraw_out (user : Nat) (ref : Nat) (w : Work) : (Work.withdraw user ref w).out = w.out := by rfl

@[simp] theorem Work.metroSync_out (w : Work) : (Work.metroSync w).out = w.out := by rfl

@[simp] theorem Work.ackNow_out (n : Nat) (rnr : Bool) (bad : TxFault) (w : Work) : (Work.ackNow n rnr bad w).out = w.out := by unfold Work.ackNow; (repeat' split) <;> simp [*]

@[simp] theorem Work.rateAck_out (n : Nat) (ce : Nat) (rx : Nat) (w : Work) : (Work.rateAck n ce rx w).out = w.out := by unfold Work.rateAck; (repeat' split) <;> simp [*]

@[simp] theorem Work.rateStart_out (n : Nat) (w : Work) : (Work.rateStart n w).out = w.out := by unfold Work.rateStart; simp [*]

@[simp] theorem Work.endSess_out (n : Nat) (st : Nat) (why : Nat) (w : Work) : (Work.endSess n st why w).out = w.out := by
  unfold Work.endSess; simp

@[simp] theorem Work.sessOver_out (n : Nat) (st : Nat) (why : Nat) (w : Work) : (Work.sessOver n st why w).out = w.out := by unfold Work.sessOver; (repeat' split) <;> simp [*]

@[simp] theorem Work.setColls_out (l : List CollJob) (w : Work) : (Work.setColls l w).out = w.out := by rfl

@[simp] theorem Work.collEnd_out (id : Nat) (w : Work) : (Work.collEnd id w).out = w.out := by unfold Work.collEnd; (repeat' split) <;> simp [*]

@[simp] theorem Work.mapColl_out (id : Nat) (f : CollJob → CollJob) (w : Work) : (Work.mapColl id f w).out = w.out := by rfl

@[simp] theorem Work.exchanged_out (id : Nat) (n : Nat) (lv : Nat) (w : Work) : (Work.exchanged id n lv w).out = w.out := by unfold Work.exchanged; (repeat' split) <;> simp [*]

@[simp] theorem Work.chunkDelivered_out (m : TxMsg) (w : Work) : (Work.chunkDelivered m w).out = w.out := by unfold Work.chunkDelivered; simp [*]

@[simp] theorem Work.mapMirror_out (x : Nat) (f : Mirror → Mirror) (w : Work) : (Work.mapMirror x f w).out = w.out := by rfl

@[simp] theorem Work.mapMir_out (x : Nat) (s : Nat) (f : MirShard → MirShard) (w : Work) : (Work.mapMir x s f w).out = w.out := by rfl

@[simp] theorem Work.mirrorFinal_out (x : Nat) (s : Nat) (w : Work) : (Work.mirrorFinal x s w).out = w.out := by unfold Work.mirrorFinal; (repeat' split) <;> simp [*]

@[simp] theorem Work.mirrorTell_out (x : Nat) (w : Work) : (Work.mirrorTell x w).out = w.out := by unfold Work.mirrorTell; (repeat' split) <;> simp [*]

@[simp] theorem Work.pairDelivered_out (m : TxMsg) (w : Work) : (Work.pairDelivered m w).out = w.out := by unfold Work.pairDelivered; (repeat' split) <;> simp [*]

@[simp] theorem Work.delivered_out (m : TxMsg) (w : Work) : (Work.delivered m w).out = w.out := by
  unfold Work.delivered; split
  · simp
  · split <;> simp

@[simp] theorem Work.rxCounted_out (f : Rx) (w : Work) : (Work.rxCounted f w).out = w.out := by unfold Work.rxCounted; (repeat' split) <;> simp [*]

@[simp] theorem Work.responderOpen_out (n : Nat) (w : Work) : (Work.responderOpen n w).out = w.out := by unfold Work.responderOpen; (repeat' split) <;> simp [*]

@[simp] theorem Work.arrival_out (n : Nat) (psn : Nat) (ce : Bool) (w : Work) : (Work.arrival n psn ce w).out = w.out := by unfold Work.arrival; simp [*]

@[simp] theorem Work.dataAck_out (n : Nat) (gap : Bool) (bad : TxFault) (w : Work) : (Work.dataAck n gap bad w).out = w.out := by unfold Work.dataAck; dsimp only; (repeat' split) <;> simp_all

@[simp] theorem Work.deliverAll_out (n : Nat) (w : Work) : (Work.deliverAll n w).out = w.out := by unfold Work.deliverAll; simp [*]

@[simp] theorem Work.rnrHold_out (n : Nat) (echo : Nat) (w : Work) : (Work.rnrHold n echo w).out = w.out := by unfold Work.rnrHold; dsimp only; (repeat' split) <;> simp_all

@[simp] theorem Work.openRefuse_out (f : Rx) (why : Nat) (w : Work) : (Work.openRefuse f why w).out = w.out := by unfold Work.openRefuse; simp [*]

@[simp] theorem Work.sendOpenAck_out (s : Sess) (w : Work) : (Work.sendOpenAck s w).out = w.out := by unfold Work.sendOpenAck; simp [*]

@[simp] theorem Work.openTake_out (f : Rx) (n : Nat) (w : Work) : (Work.openTake f n w).out = w.out := by unfold Work.openTake; dsimp only; (repeat' split) <;> simp_all

@[simp] theorem Work.sendProbe_out (n : Nat) (w : Work) : (Work.sendProbe n w).out = w.out := by unfold Work.sendProbe; (repeat' split) <;> simp [*]

@[simp] theorem Work.rxOpenAck_out (f : Rx) (n : Nat) (w : Work) : (Work.rxOpenAck f n w).out = w.out := by unfold Work.rxOpenAck; dsimp only; (repeat' split) <;> simp_all

@[simp] theorem Work.collSweep_out (w : Work) : (Work.collSweep w).out = w.out := by unfold Work.collSweep; simp [*]

@[simp] theorem opExbAckDelayExpire_out (n : Nat) (w : Work) : (opExbAckDelayExpire n w).out = w.out := by unfold opExbAckDelayExpire; (repeat' split) <;> simp [*]

@[simp] theorem opExbRtoExpire_out (n : Nat) (psn : Nat) (w : Work) : (opExbRtoExpire n psn w).out = w.out := by unfold opExbRtoExpire; (repeat' split) <;> simp [*]

@[simp] theorem opExbProbeIdleExpire_out (n : Nat) (w : Work) : (opExbProbeIdleExpire n w).out = w.out := by unfold opExbProbeIdleExpire; (repeat' split) <;> simp [*]

@[simp] theorem opExbOpenResend_out (n : Nat) (w : Work) : (opExbOpenResend n w).out = w.out := by unfold opExbOpenResend; dsimp only; (repeat' split) <;> simp_all

@[simp] theorem opExbRejectRetry_out (n : Nat) (w : Work) : (opExbRejectRetry n w).out = w.out := by unfold opExbRejectRetry; dsimp only; (repeat' split) <;> simp_all

@[simp] theorem opExbRnrExpire_out (n : Nat) (msg : Nat) (w : Work) : (opExbRnrExpire n msg w).out = w.out := by unfold opExbRnrExpire; (repeat' split) <;> simp [*]

@[simp] theorem opExbRateIncrease_out (n : Nat) (w : Work) : (opExbRateIncrease n w).out = w.out := by unfold opExbRateIncrease; dsimp only; (repeat' split) <;> simp_all

@[simp] theorem Work.fixPeer_out (n : Nat) (e : Nat) (w : Work) : (Work.fixPeer n e w).out = w.out := by
  unfold Work.fixPeer; (try dsimp only); simp [apply_ite Work.out]

@[simp] theorem Work.correctPeer_out (n : Nat) (w : Work) : (Work.correctPeer n w).out = w.out := by
  unfold Work.correctPeer; (try dsimp only); simp [apply_ite Work.out]

@[simp] theorem Work.settlePeer_out (n : Nat) (old : Nat) (kept : Bool) (w : Work) : (Work.settlePeer n old kept w).out = w.out := by unfold Work.settlePeer; dsimp only; (repeat' split) <;> simp_all

@[simp] theorem Work.portLost_out (p : Nat) (w : Work) : (Work.portLost p w).out = w.out := by unfold Work.portLost; simp [*]

@[simp] theorem Work.rehome_out (w : Work) : (Work.rehome w).out = w.out := by
  unfold Work.rehome; refine foldl_out _ (fun w a => ?_) _ _; (try dsimp only); (repeat' split) <;> simp_all

@[simp] theorem Work.linkDown_out (p : Nat) (w : Work) : (Work.linkDown p w).out = w.out := by unfold Work.linkDown; (repeat' split) <;> simp [*]

@[simp] theorem Work.linkOff_out (p : Nat) (w : Work) : (Work.linkOff p w).out = w.out := by unfold Work.linkOff; (repeat' split) <;> simp [*]

@[simp] theorem opLinkSignalDetect_out (p : Fin 8) (w : Work) : (opLinkSignalDetect p w).out = w.out := by unfold opLinkSignalDetect; (repeat' split) <;> simp [*]

@[simp] theorem opLinkUp_out (p : Fin 8) (w : Work) : (opLinkUp p w).out = w.out := by unfold opLinkUp; (repeat' split) <;> simp [*]

@[simp] theorem opLinkDown_out (p : Fin 8) (w : Work) : (opLinkDown p w).out = w.out := by unfold opLinkDown; (repeat' split) <;> simp [*]

@[simp] theorem opLinkDegraded_out (p : Fin 8) (uncorr : Nat) (corr : Nat) (total : Nat) (w : Work) : (opLinkDegraded p uncorr corr total w).out = w.out := by unfold opLinkDegraded; dsimp only; (repeat' split) <;> simp_all

@[simp] theorem opLinkDegradeClear_out (p : Fin 8) (w : Work) : (opLinkDegradeClear p w).out = w.out := by unfold opLinkDegradeClear; dsimp only; (repeat' split) <;> simp_all

@[simp] theorem opEthFrameBad_out (p : Fin 8) (why : BadFrame) (w : Work) : (opEthFrameBad p why w).out = w.out := by unfold opEthFrameBad; (repeat' split) <;> simp [*]

@[simp] theorem Work.fixObj_out (n : Nat) (v : Nat) (w : Work) : (Work.fixObj n v w).out = w.out := by unfold Work.fixObj; simp [*]

@[simp] theorem Work.portsTake_out (d : Nat) (w : Work) : (Work.portsTake d w).out = w.out := by
  unfold Work.portsTake; (try dsimp only); simp [apply_ite Work.out]

@[simp] theorem Work.carveLog_out (d : Nat) (w : Work) : (Work.carveLog d w).out = w.out := by unfold Work.carveLog; dsimp only; (repeat' split) <;> simp_all

@[simp] theorem opPortsCommit_out (wr : Writer) (d : Fin 2) (w : Work) : (opPortsCommit wr d w).out = w.out := by
  unfold opPortsCommit; (try dsimp only); simp [apply_ite Work.out]

@[simp] theorem Work.carveClamp_out (d : Nat) (w : Work) : (Work.carveClamp d w).out = w.out := by
  unfold Work.carveClamp; (try dsimp only); simp [apply_ite Work.out]

@[simp] theorem opPortsCommitApply_out (d : Fin 2) (w : Work) : (opPortsCommitApply d w).out = w.out := by
  unfold opPortsCommitApply; (try dsimp only); simp [apply_ite Work.out]

@[simp] theorem Work.clearRead_out (r : ObjRow) (n : Nat) (off : Nat) (len : Nat) (w : Work) : (Work.clearRead r n off len w).out = w.out := by unfold Work.clearRead; (repeat' split) <;> simp [*]

@[simp] theorem Work.objRd_out (wr : Writer) (n : Nat) (off : Nat) (len : Nat) (active : Bool) (w : Work) : (Work.objRd wr n off len active w).2.out = w.out := by unfold Work.objRd; dsimp only; (repeat' split) <;> simp_all

@[simp] theorem Work.ptpEnter_out (st : Nat) (w : Work) : (Work.ptpEnter st w).out = w.out := by unfold Work.ptpEnter; dsimp only; (repeat' split) <;> simp_all

@[simp] theorem Work.setPtp_out (f : PtpState → PtpState) (w : Work) : (Work.setPtp f w).out = w.out := by rfl

@[simp] theorem Work.ptpOff_out (w : Work) : (Work.ptpOff w).out = w.out := by unfold Work.ptpOff; simp [*]

@[simp] theorem Work.afterWrite_out (wr : Writer) (n : Nat) (w : Work) : (Work.afterWrite wr n w).out = w.out := by unfold Work.afterWrite; dsimp only; (repeat' split) <;> simp_all

@[simp] theorem Work.setScalar_out (wr : Writer) (r : ObjRow) (n : Nat) (v : Nat) (w : Work) : (Work.setScalar wr r n v w).out = w.out := by unfold Work.setScalar; (repeat' split) <;> simp [*]

@[simp] theorem Work.one_out (wr : Writer) (n : Nat) (v : Nat) (f : Work → Work) (w : Work) (h0 : ∀ y0, (f y0).out = y0.out) : (Work.one wr n v f w).out = w.out := by unfold Work.one; (repeat' split) <;> simp [*]

@[simp] theorem Work.coded_out (wr : Writer) (n : Nat) (v : Nat) (last : Nat) (f : Nat → Work → Work) (w : Work) (h0 : ∀ y0 y1, (f y0 y1).out = y1.out) : (Work.coded wr n v last f w).out = w.out := by unfold Work.coded; (repeat' split) <;> simp [*]

@[simp] theorem Work.hoopReq_out (wr : Writer) (x : Nat) (w : Work) : (Work.hoopReq wr x w).out = w.out := by unfold Work.hoopReq; (repeat' split) <;> simp [*]

@[simp] theorem Work.hoopForget_out (wr : Writer) (x : Nat) (v : Nat) (w : Work) : (Work.hoopForget wr x v w).out = w.out := by unfold Work.hoopForget; (repeat' split) <;> simp [*]

@[simp] theorem Work.wideReq_out (wr : Writer) (x : Nat) (w : Work) : (Work.wideReq wr x w).out = w.out := by unfold Work.wideReq; dsimp only; (repeat' split) <;> simp_all

@[simp] theorem Work.fixEntry_out (wr : Writer) (n : Nat) (off : Nat) (len : Nat) (held : Nat) (w : Work) : (Work.fixEntry wr n off len held w).out = w.out := by unfold Work.fixEntry; dsimp only; (repeat' split) <;> simp_all

@[simp] theorem Work.fixMgmtAddr_out (wr : Writer) (w : Work) : (Work.fixMgmtAddr wr w).out = w.out := by
  unfold Work.fixMgmtAddr; (try dsimp only); simp [apply_ite Work.out]

@[simp] theorem Work.fixHokKeys_out (wr : Writer) (w : Work) : (Work.fixHokKeys wr w).out = w.out := by
  unfold Work.fixHokKeys; (try dsimp only); simp [apply_ite Work.out]

@[simp] theorem Work.fixNotifyDest_out (wr : Writer) (w : Work) : (Work.fixNotifyDest wr w).out = w.out := by
  unfold Work.fixNotifyDest; (try dsimp only); simp [apply_ite Work.out]

@[simp] theorem Work.segWrite_out (wr : Writer) (x : Nat) (off : Nat) (d : List Byte) (w : Work) : (Work.segWrite wr x off d w).out = w.out := by
  unfold Work.segWrite; (try dsimp only); simp [apply_ite Work.out]

@[simp] theorem Work.setBlob_out (wr : Writer) (r : ObjRow) (n : Nat) (off : Nat) (d : List Byte) (w : Work) : (Work.setBlob wr r n off d w).out = w.out := by unfold Work.setBlob; (repeat' split) <;> simp [*]

@[simp] theorem Work.afterAnswer_out (w : Work) : (Work.afterAnswer w).out = w.out := by unfold Work.afterAnswer; simp [*]

@[simp] theorem Work.freeBytes_out (n : Nat) (w : Work) : (Work.freeBytes n w).2.out = w.out := by rfl

@[simp] theorem Work.mirIdle_out (x : Nat) (w : Work) : (Work.mirIdle x w).out = w.out := by
  unfold Work.mirIdle; refine forUpto_out _ (fun i w => ?_) _ _; (try dsimp only); (repeat' split) <;> simp_all [apply_ite Work.out]

@[simp] theorem Work.storeFree_out (w : Work) : (Work.storeFree w).out = w.out := by rfl

@[simp] theorem Work.fixRange_out (base : Nat) (len : Nat) (w : Work) : (Work.fixRange base len w).out = w.out := by unfold Work.fixRange; (repeat' split) <;> simp [*]

@[simp] theorem opMirDevCommit_out (wr : Writer) (w : Work) : (opMirDevCommit wr w).out = w.out := by unfold opMirDevCommit; simp [*]

@[simp] theorem Work.mirrorAbandon_out (x : Nat) (s : Nat) (w : Work) : (Work.mirrorAbandon x s w).out = w.out := by unfold Work.mirrorAbandon; (repeat' split) <;> simp [*]

@[simp] theorem Work.mirrorAbandonAll_out (x : Nat) (w : Work) : (Work.mirrorAbandonAll x w).out = w.out := by
  unfold Work.mirrorAbandonAll; simp

@[simp] theorem Work.mirrorSend_out (x : Nat) (w : Work) : (Work.mirrorSend x w).out = w.out := by
  unfold Work.mirrorSend; (try dsimp only); split <;> simp [apply_ite Work.out]

@[simp] theorem opMirrorWaitExpire_out (x : Fin 16) (w : Work) : (opMirrorWaitExpire x w).out = w.out := by unfold opMirrorWaitExpire; (repeat' split) <;> simp [*]

@[simp] theorem Work.unbox_out (id : Nat) (w : Work) : (Work.unbox id w).out = w.out := by rfl

@[simp] theorem Work.mirRefuse_out (w : Work) : (Work.mirRefuse w).out = w.out := by rfl

@[simp] theorem Work.sendSlot_out (n : Nat) (id : Nat) (k : Nat) (a : Nat) (w : Work) : (Work.sendSlot n id k a w).out = w.out := by unfold Work.sendSlot; simp [*]

@[simp] theorem Work.sendNone_out (n : Nat) (id : Nat) (reason : Nat) (w : Work) : (Work.sendNone n id reason w).out = w.out := by rfl

@[simp] theorem opPairingRestoreReqRx_out (id : Nat) (w : Work) : (opPairingRestoreReqRx id w).out = w.out := by unfold opPairingRestoreReqRx; dsimp only; (repeat' split) <;> simp_all

@[simp] theorem Work.mapRestore_out (x : Nat) (f : Restore → Restore) (w : Work) : (Work.mapRestore x f w).out = w.out := by rfl

@[simp] theorem Work.mapRest_out (x : Nat) (s : Nat) (f : RestShard → RestShard) (w : Work) : (Work.mapRest x s f w).out = w.out := by rfl

@[simp] theorem Work.restoreAsk_out (x : Nat) (v0 : Nat) (v1 : Work) : (Work.restoreAsk x v0 v1).out = v1.out := by
  induction v0 generalizing v1 with
  | zero => rfl
  | succ k ih => unfold Work.restoreAsk; (try dsimp only); (repeat' split) <;> simp_all

@[simp] theorem Work.restoreStep_out (x : Nat) (w : Work) : (Work.restoreStep x w).out = w.out := by unfold Work.restoreStep; (repeat' split) <;> simp [*]

@[simp] theorem opRestoreReq_out (wr : Writer) (x : Fin 16) (mask : Nat) (w : Work) : (opRestoreReq wr x mask w).out = w.out := by
  unfold opRestoreReq; (try dsimp only); simp [apply_ite Work.out]

@[simp] theorem opPairingRestoreHdrRx_out (id : Nat) (w : Work) : (opPairingRestoreHdrRx id w).out = w.out := by unfold opPairingRestoreHdrRx; dsimp only; (repeat' split) <;> simp_all

@[simp] theorem opPairingRestoreNoneRx_out (id : Nat) (w : Work) : (opPairingRestoreNoneRx id w).out = w.out := by unfold opPairingRestoreNoneRx; dsimp only; (repeat' split) <;> simp_all

@[simp] theorem Work.restResult_out (x : Nat) (s : Nat) (src : Nat) (divergent : Nat) (hdr : Nat) (w : Work) : (Work.restResult x s src divergent hdr w).out = w.out := by rfl

@[simp] theorem Work.pairGone_out (n : Nat) (w : Work) : (Work.pairGone n w).out = w.out := by unfold Work.pairGone; dsimp only; (repeat' split) <;> simp_all

@[simp] theorem Work.setJobs_out (l : List PicotJob) (w : Work) : (Work.setJobs l w).out = w.out := by rfl

@[simp] theorem Work.mapJob_out (id : Nat) (f : PicotJob → PicotJob) (w : Work) : (Work.mapJob id f w).out = w.out := by rfl

@[simp] theorem Work.setLocks_out (l : List PLock) (w : Work) : (Work.setLocks l w).out = w.out := by rfl

@[simp] theorem Work.mapRow_out (id : Nat) (p : Nat) (f : PRow → PRow) (w : Work) : (Work.mapRow id p f w).out = w.out := by rfl

@[simp] theorem Work.issueRow_out (j : PicotJob) (r : PRow) (w : Work) : (Work.issueRow j r w).out = w.out := by unfold Work.issueRow; (repeat' split) <;> simp [*]

@[simp] theorem Work.issueJob_out (id : Nat) (w : Work) : (Work.issueJob id w).out = w.out := by
  unfold Work.issueJob; split
  · rfl
  · split
    · rw [apply_ite Work.out, foldl_out, ite_self]; intro w a; (repeat' split) <;> simp
    · refine foldl_out _ (fun w a => ?_) _ _; dsimp only; (repeat' split) <;> simp

@[simp] theorem Work.issueDie_out (d : Nat) (w : Work) : (Work.issueDie d w).out = w.out := by
  unfold Work.issueDie; refine foldl_out _ (fun w a => ?_) _ _; (try dsimp only); (repeat' split) <;> simp_all

@[simp] theorem Work.dropLocks_out (id : Nat) (w : Work) : (Work.dropLocks id w).out = w.out := by rfl

@[simp] theorem Work.endPicot_out (id : Nat) (st : Nat) (d : Nat) (w : Work) : (Work.endPicot id st d w).out = w.out := by unfold Work.endPicot; simp [*]

@[simp] theorem Work.setSections_out (l : List Section) (w : Work) : (Work.setSections l w).out = w.out := by rfl

@[simp] theorem Work.claimSection_out (kind : Nat) (ref : Nat) (ctx : Nat) (die : Nat) (cls : Nat) (bound : Nat) (w : Work) : (Work.claimSection kind ref ctx die cls bound w).2.out = w.out := by unfold Work.claimSection; simp [*]

@[simp] theorem Work.startPicot_out (c : Cmd) (w : Work) : (Work.startPicot c w).out = w.out := by unfold Work.startPicot; dsimp only; (repeat' split) <;> simp_all

@[simp] theorem opGather_out (id : Nat) (w : Work) : (opGather id w).out = w.out := by unfold opGather; (repeat' split) <;> simp [*]

@[simp] theorem opScatterAdd_out (id : Nat) (w : Work) : (opScatterAdd id w).out = w.out := by unfold opScatterAdd; (repeat' split) <;> simp [*]

@[simp] theorem opPicotLockGrant_out (id : Nat) (p : Nat) (w : Work) : (opPicotLockGrant id p w).out = w.out := by unfold opPicotLockGrant; (repeat' split) <;> simp [*]

@[simp] theorem Work.batchRelease_out (id : Nat) (w : Work) : (Work.batchRelease id w).out = w.out := by unfold Work.batchRelease; (repeat' split) <;> simp [*]

@[simp] theorem Work.postFrom_out (id : Nat) (lv : Nat) (pos : Nat) (v0 : Nat) (v1 : Work) : (Work.postFrom id lv pos v0 v1).out = v1.out := by
  induction v0 generalizing v1 with
  | zero => rfl
  | succ k ih => unfold Work.postFrom; (try dsimp only); (repeat' split) <;> simp_all

@[simp] theorem Work.postAll_out (id : Nat) (w : Work) : (Work.postAll id w).out = w.out := by unfold Work.postAll; (repeat' split) <;> simp [*]

@[simp] theorem Work.sendChunk_out (id : Nat) (lv : Nat) (pos : Nat) (round : Nat) (chunk : Nat) (data : List Nat) (src : List (Nat × Nat)) (w : Work) : (Work.sendChunk id lv pos round chunk data src w).out = w.out := by unfold Work.sendChunk; (repeat' split) <;> simp [*]

@[simp] theorem Work.collConv_out (j : CollJob) (k : Conv) (w : Work) : (Work.collConv j k w).out = w.out := by unfold Work.collConv; dsimp only; (repeat' split) <;> simp_all

@[simp] theorem Work.merged_out (j : CollJob) (c : Cmd) (n : Nat) (wt : Nat) (w : Work) : (Work.merged j c n wt w).out = w.out := by unfold Work.merged; (repeat' split) <;> simp [*]

@[simp] theorem Work.innerSend_out (id : Nat) (v0 : Nat) (v1 : Work) : (Work.innerSend id v0 v1).out = v1.out := by
  induction v0 generalizing v1 with
  | zero => rfl
  | succ k ih => unfold Work.innerSend; (try dsimp only); (repeat' split) <;> simp_all

@[simp] theorem Work.sliceGot_out (id : Nat) (part : Nat) (chunk : Nat) (y : List Nat) (w : Work) : (Work.sliceGot id part chunk y w).out = w.out := by unfold Work.sliceGot; simp [*]

@[simp] theorem Work.freeSlot_out (id : Nat) (l : Landing) (w : Work) : (Work.freeSlot id l w).out = w.out := by unfold Work.freeSlot; simp [*]

@[simp] theorem Work.collStop_out (id : Nat) (st : Nat) (det : Nat) (w : Work) : (Work.collStop id st det w).out = w.out := by unfold Work.collStop; dsimp only; (repeat' split) <;> simp_all

@[simp] theorem Work.sendSource_out (j : CollJob) (c : Cmd) (chunk : Nat) (e0 : Nat) (lane : Nat) (len : Nat) (round : Nat) (dst : List Nat) (w : Work) : (Work.sendSource j c chunk e0 lane len round dst w).out = w.out := by unfold Work.sendSource; (repeat' split) <;> simp [*]

@[simp] theorem Work.chunkLanded_out (p : Posted) (w : Work) : (Work.chunkLanded p w).out = w.out := by unfold Work.chunkLanded; (repeat' split) <;> simp [*]

@[simp] theorem Work.collSection_out (j : CollJob) (c : Cmd) (w : Work) : (Work.collSection j c w).out = w.out := by unfold Work.collSection; dsimp only; (repeat' split) <;> simp_all

@[simp] theorem Work.mismatch_out (key : Nat) (rank : Nat) (w : Work) : (Work.mismatch key rank w).out = w.out := by unfold Work.mismatch; dsimp only; (repeat' split) <;> simp_all

@[simp] theorem opGroupCommit_out (wr : Writer) (w : Work) : (opGroupCommit wr w).out = w.out := by unfold opGroupCommit; simp [*]

@[simp] theorem Work.fixMember_out (k : Nat) (v : Nat) (w : Work) : (Work.fixMember k v w).out = w.out := by unfold Work.fixMember; simp [*]

@[simp] theorem Work.fixGroup_out (g : Nat) (w : Work) : (Work.fixGroup g w).out = w.out := by
  unfold Work.fixGroup; (try dsimp only); simp [apply_ite Work.out]

@[simp] theorem opGroupCommitApply_out (w : Work) : (opGroupCommitApply w).out = w.out := by
  unfold opGroupCommitApply; (try dsimp only); simp [apply_ite Work.out]

@[simp] theorem opInputLow_out (mv : Nat) (w : Work) : (opInputLow mv w).out = w.out := by unfold opInputLow; (repeat' split) <;> simp [*]

@[simp] theorem opInputHigh_out (mv : Nat) (w : Work) : (opInputHigh mv w).out = w.out := by unfold opInputHigh; (repeat' split) <;> simp [*]

@[simp] theorem opP48vInRange_out (w : Work) : (opP48vInRange w).out = w.out := by rfl

@[simp] theorem Work.tripLast_out (cause : Nat) (die : Nat) (w : Work) : (Work.tripLast cause die w).out = w.out := by
  unfold Work.tripLast; simp

@[simp] theorem Work.sensed_out (r : Sensors) (w : Work) : (Work.sensed r w).out = w.out := by
  unfold Work.sensed; simp

@[simp] theorem Work.setCap_out (d : Nat) (c : Option Nat) (w : Work) : (Work.setCap d c w).out = w.out := by rfl

@[simp] theorem Work.stepOne_out (r : Sensors) (d : Nat) (w : Work) : (Work.stepOne r d w).out = w.out := by unfold Work.stepOne; dsimp only; (repeat' split) <;> simp_all

@[simp] theorem opThrottleDecision_out (r : Sensors) (w : Work) : (opThrottleDecision r w).out = w.out := by unfold opThrottleDecision; (repeat' split) <;> simp [*]

@[simp] theorem opFastThrottle_out (core : Bool) (current : Bool) (w : Work) : (opFastThrottle core current w).out = w.out := by unfold opFastThrottle; (repeat' split) <;> simp [*]

@[simp] theorem opFastThrottleRelease_out (w : Work) : (opFastThrottleRelease w).out = w.out := by unfold opFastThrottleRelease; (repeat' split) <;> simp [*]

@[simp] theorem Work.stamp_out (w : Work) : (Work.stamp w).2.out = w.out := by rfl

@[simp] theorem opPtpAnnounceRx_out (p : Fin 8) (a : Announce) (w : Work) : (opPtpAnnounceRx p a w).out = w.out := by unfold opPtpAnnounceRx; dsimp only; (repeat' split) <;> simp_all

@[simp] theorem Work.servo_out (off : Int) (w : Work) : (Work.servo off w).out = w.out := by
  unfold Work.servo; dsimp only; (repeat' split) <;> simp only [Work.ptpEnter_out, Work.setPtp_out, Work.bump_out, Work.event_out] <;> rfl

@[simp] theorem Work.measured_out (t2 : Nat) (t1 : Nat) (w : Work) : (Work.measured t2 t1 w).out = w.out := by unfold Work.measured; simp [*]

@[simp] theorem opPtpSyncRx_out (p : Fin 8) (domain : Nat) (gm : Nat) (seq : Nat) (twoStep : Bool) (t1 : Nat) (w : Work) : (opPtpSyncRx p domain gm seq twoStep t1 w).out = w.out := by unfold opPtpSyncRx; (repeat' split) <;> simp [*]

@[simp] theorem opPtpFollowUpRx_out (p : Fin 8) (domain : Nat) (gm : Nat) (seq : Nat) (t1 : Nat) (w : Work) : (opPtpFollowUpRx p domain gm seq t1 w).out = w.out := by unfold opPtpFollowUpRx; dsimp only; (repeat' split) <;> simp_all

@[simp] theorem opPtpDelayReqTx_out (w : Work) : (opPtpDelayReqTx w).out = w.out := by unfold opPtpDelayReqTx; dsimp only; (repeat' split) <;> simp_all

@[simp] theorem opPtpDelayRespRx_out (p : Fin 8) (domain : Nat) (gm : Nat) (seq : Nat) (t4 : Nat) (w : Work) : (opPtpDelayRespRx p domain gm seq t4 w).out = w.out := by unfold opPtpDelayRespRx; dsimp only; (repeat' split) <;> simp_all

@[simp] theorem opPtpHoldover_out (w : Work) : (opPtpHoldover w).out = w.out := by unfold opPtpHoldover; dsimp only; (repeat' split) <;> simp_all

@[simp] theorem Work.tick_out (w : Work) : (Work.tick w).out = w.out := by rfl

@[simp] theorem Work.dropPattern_out (p : Pattern) (w : Work) : (Work.dropPattern p w).out = w.out := by unfold Work.dropPattern; simp [*]

@[simp] theorem Work.tornCheck_out (j : PicotJob) (w : Work) : (Work.tornCheck j w).out = w.out := by unfold Work.tornCheck; (repeat' split) <;> simp [*]

@[simp] theorem Work.picotStop_out (j : PicotJob) (st : Nat) (det : Nat) (w : Work) : (Work.picotStop j st det w).out = w.out := by unfold Work.picotStop; dsimp only; (repeat' split) <;> simp_all

@[simp] theorem Work.cmdReadFail_out (c : Cmd) (st : Nat) (det : Nat) (w : Work) : (Work.cmdReadFail c st det w).out = w.out := by unfold Work.cmdReadFail; (repeat' split) <;> simp [*]

@[simp] theorem Work.fetchFail_out (x : Nat) (q : Nat) (st : Nat) (det : Nat) (w : Work) : (Work.fetchFail x q st det w).out = w.out := by unfold Work.fetchFail; (repeat' split) <;> simp [*]

@[simp] theorem Work.breakQuiet_out (g : Nat) (w : Work) : (Work.breakQuiet g w).out = w.out := by unfold Work.breakQuiet; (repeat' split) <;> simp [*]

@[simp] theorem Work.engineEnd_out (c : Cmd) (st : Nat) (e : Nat) (w : Work) : (Work.engineEnd c st e w).out = w.out := by
  unfold Work.engineEnd; (try dsimp only); (repeat' split) <;> simp_all [apply_ite Work.out]

@[simp] theorem Work.settleDebt_out (s : Section) (w : Work) : (Work.settleDebt s w).out = w.out := by unfold Work.settleDebt; dsimp only; (repeat' split) <;> simp_all

@[simp] theorem Work.endSection_out (id : Nat) (w : Work) : (Work.endSection id w).out = w.out := by unfold Work.endSection; dsimp only; (repeat' split) <;> simp_all

@[simp] theorem Work.sectionCut_out (s : Section) (w : Work) : (Work.sectionCut s w).out = w.out := by unfold Work.sectionCut; (repeat' split) <;> simp [*]

@[simp] theorem Work.engineFinish_out (e : Nat) (w : Work) : (Work.engineFinish e w).out = w.out := by unfold Work.engineFinish; simp [*]

@[simp] theorem Work.setRst_out (f : ResetState → ResetState) (w : Work) : (Work.setRst f w).out = w.out := by rfl

@[simp] theorem Work.mapReset_out (dom : Nat) (target : Nat) (f : Reset → Reset) (w : Work) : (Work.mapReset dom target f w).out = w.out := by rfl

@[simp] theorem Work.writeSwatch_out (sw : Swatch) (w : Work) : (Work.writeSwatch sw w).out = w.out := by unfold Work.writeSwatch; simp [*]

@[simp] theorem Work.swatchStep_out (dom : Nat) (target : Nat) (w : Work) : (Work.swatchStep dom target w).out = w.out := by unfold Work.swatchStep; (repeat' split) <;> simp [*]

@[simp] theorem Work.sampled_out (k : Nat) (s : Option SwSample) (nbad : Nat) (w : Work) : (Work.sampled k s nbad w).out = w.out := by
  unfold Work.sampled; (try dsimp only); simp [apply_ite Work.out]

@[simp] theorem Work.sampleLost_out (k : Nat) (w : Work) : (Work.sampleLost k w).out = w.out := by unfold Work.sampleLost; simp [*]

@[simp] theorem Work.coreDetach_out (k : Nat) (w : Work) : (Work.coreDetach k w).2.out = w.out := by unfold Work.coreDetach; (repeat' split) <;> simp [*]

@[simp] theorem Work.coreBack_out (k : Nat) (w : Work) : (Work.coreBack k w).out = w.out := by unfold Work.coreBack; dsimp only; (repeat' split) <;> simp_all

@[simp] theorem Work.clearTags_out (f : Nat → Nat → Bool) (w : Work) : (Work.clearTags f w).out = w.out := by rfl

@[simp] theorem Work.coreFinish_out (k : Nat) (ends : List (Nat × Nat × Nat)) (w : Work) : (Work.coreFinish k ends w).out = w.out := by
  unfold Work.coreFinish; (try dsimp only); refine (foldl_out _ (fun w a => ?_) _ _).trans (by split <;> simp); (repeat' split) <;> simp_all [apply_ite Work.out]

@[simp] theorem Work.dropCmd_out (c : Cmd) (w : Work) : (Work.dropCmd c w).out = w.out := by unfold Work.dropCmd; simp [*]

@[simp] theorem Work.blobClear_out (n : Nat) (w : Work) : (Work.blobClear n w).out = w.out := by rfl

@[simp] theorem Work.attestDrop_out (x : Nat) (w : Work) : (Work.attestDrop x w).out = w.out := by unfold Work.attestDrop; (repeat' split) <;> simp [*]

@[simp] theorem Work.lifeReset_out (w : Work) : (Work.lifeReset w).out = w.out := by
  unfold Work.lifeReset; (try dsimp only); simp [apply_ite Work.out]

@[simp] theorem Work.pruneSamples_out (w : Work) : (Work.pruneSamples w).out = w.out := by unfold Work.pruneSamples; simp [*]

@[simp] theorem Work.resetSync_out (w : Work) : (Work.resetSync w).out = w.out := by rfl

@[simp] theorem Work.dropReset_out (dom : Nat) (target : Nat) (w : Work) : (Work.dropReset dom target w).out = w.out := by rfl

@[simp] theorem Work.resetEvent_out (code : Nat) (dom : Nat) (cause : Nat) (target : Nat) (w : Work) : (Work.resetEvent code dom cause target w).out = w.out := by unfold Work.resetEvent; simp [*]

@[simp] theorem Work.absorb_out (big : Nat) (r : Reset) (w : Work) : (Work.absorb big r w).out = w.out := by unfold Work.absorb; (repeat' split) <;> simp [*]

@[simp] theorem Work.pushReset_out (r : Reset) (w : Work) : (Work.pushReset r w).out = w.out := by unfold Work.pushReset; (repeat' split) <;> simp [*]

@[simp] theorem Work.coresStop_out (cores : List Nat) (w : Work) : (Work.coresStop cores w).out = w.out := by unfold Work.coresStop; simp [*]

@[simp] theorem Work.commitsGone_out (w : Work) : (Work.commitsGone w).out = w.out := by
  unfold Work.commitsGone; simp

@[simp] theorem Work.warmBuffers_out (w : Work) : (Work.warmBuffers w).out = w.out := by
  unfold Work.warmBuffers; simp

@[simp] theorem Work.warmQueues_out (w : Work) : (Work.warmQueues w).out = w.out := by
  unfold Work.warmQueues; (try dsimp only); simp [apply_ite Work.out]

@[simp] theorem Work.warmNet_out (w : Work) : (Work.warmNet w).out = w.out := by
  unfold Work.warmNet; (try dsimp only); simp [apply_ite Work.out]

@[simp] theorem Work.warmWork_out (w : Work) : (Work.warmWork w).out = w.out := by rfl

@[simp] theorem Work.warmRest_out (w : Work) : (Work.warmRest w).out = w.out := by unfold Work.warmRest; simp [*]

@[simp] theorem Work.escalated_out (r : Reset) (into : Nat) (skip : Nat) (w : Work) : (Work.escalated r into skip w).out = w.out := by unfold Work.escalated; simp [*]

@[simp] theorem Work.sampleLate_out (s : Section) (k : Nat) (w : Work) : (Work.sampleLate s k w).out = w.out := by unfold Work.sampleLate; simp [*]

@[simp] theorem opSwatchSampleTimeout_out (k : Fin 32) (w : Work) : (opSwatchSampleTimeout k w).out = w.out := by unfold opSwatchSampleTimeout; (repeat' split) <;> simp [*]

@[simp] theorem opMemTrainingDone_out (h : Fin 4) (slow : List Nat) (dead : List Nat) (lanes : List (Nat × Nat × Nat)) (w : Work) : (opMemTrainingDone h slow dead lanes w).out = w.out := by unfold opMemTrainingDone; dsimp only; (repeat' split) <;> simp_all

@[simp] theorem Work.hoopBack_out (d : Nat) (bad : List (Nat × Nat)) (w : Work) : (Work.hoopBack d bad w).out = w.out := by unfold Work.hoopBack; simp [*]

@[simp] theorem Work.lastReset_out (r : Reset) (w : Work) : (Work.lastReset r w).out = w.out := by
  unfold Work.lastReset; simp

@[simp] theorem Work.portsBack_out (ps : List Nat) (w : Work) : (Work.portsBack ps w).out = w.out := by
  unfold Work.portsBack; refine foldl_out _ (fun w a => ?_) _ _; (try dsimp only); (repeat' split) <;> simp_all

@[simp] theorem Work.spareBlocks_out (k : Nat) (off : Nat) (len : Nat) (w : Work) : (Work.spareBlocks k off len w).out = w.out := by unfold Work.spareBlocks; dsimp only; (repeat' split) <;> simp_all

@[simp] theorem Work.beginTile_out (k : Nat) (t : Tile) (level : Nat) (chain : Chain) (w : Work) : (Work.beginTile k t level chain w).out = w.out := by rfl

@[simp] theorem Work.noteWait_out (t : Tile) (w : Work) : (Work.noteWait t w).out = w.out := by unfold Work.noteWait; (repeat' split) <;> simp [*]

@[simp] theorem Work.takeTile_out (t : Tile) (w : Work) : (Work.takeTile t w).out = w.out := by unfold Work.takeTile; simp [*]

@[simp] theorem Work.newChain_out (k : Nat) (t : Tile) (samp : Option Nat) (w : Work) : (Work.newChain k t samp w).2.out = w.out := by rfl

@[simp] theorem Work.goOn_out (k : Nat) (w : Work) : (Work.goOn k w).out = w.out := by unfold Work.goOn; dsimp only; (repeat' split) <;> simp_all

@[simp] theorem Work.grant_out (k : Nat) (id : Nat) (w : Work) : (Work.grant k id w).out = w.out := by rfl

@[simp] theorem opSliceExpire_out (be : Bool) (w : Work) : (opSliceExpire be w).out = w.out := by unfold opSliceExpire; dsimp only; (repeat' split) <;> simp_all

@[simp] theorem opFenceSw_out (wr : Writer) (v : Nat) (w : Work) : (opFenceSw wr v w).out = w.out := by unfold opFenceSw; simp [*]

@[simp] theorem Work.saveUe_out (k : Nat) (w : Work) : (Work.saveUe k w).out = w.out := by unfold Work.saveUe; simp [*]

@[simp] theorem Work.spillLost_out (k : Nat) (w : Work) : (Work.spillLost k w).out = w.out := by unfold Work.spillLost; (repeat' split) <;> simp [*]

@[simp] theorem Work.sampleCore_out (k : Nat) (bad : List Nat) (w : Work) : (Work.sampleCore k bad w).2.out = w.out := by rfl

@[simp] theorem Work.sampleEnd_out (s : Section) (k : Nat) (bad : List Nat) (w : Work) : (Work.sampleEnd s k bad w).out = w.out := by unfold Work.sampleEnd; simp [*]

@[simp] theorem opSegTableWrite_out (wr : Writer) (x : Fin 16) (off : Nat) (data : List Byte) (w : Work) : (opSegTableWrite wr x off data w).out = w.out := by unfold opSegTableWrite; (repeat' split) <;> simp [*]

@[simp] theorem Work.segCommit_out (wr : Writer) (x : Nat) (w : Work) : (Work.segCommit wr x w).out = w.out := by unfold Work.segCommit; (repeat' split) <;> simp [*]

@[simp] theorem opSegCommit_out (wr : Writer) (x : Fin 16) (w : Work) : (opSegCommit wr x w).out = w.out := by unfold opSegCommit; simp [*]

@[simp] theorem opSegCommitApplied_out (x : Fin 16) (w : Work) : (opSegCommitApplied x w).out = w.out := by unfold opSegCommitApplied; dsimp only; (repeat' split) <;> simp_all

@[simp] theorem Work.privWrite_out (wr : Writer) (x : Nat) (v : Nat) (w : Work) : (Work.privWrite wr x v w).out = w.out := by unfold Work.privWrite; dsimp only; (repeat' split) <;> simp_all

@[simp] theorem opPrivWrite_out (wr : Writer) (x : Fin 16) (v : Nat) (w : Work) : (opPrivWrite wr x v w).out = w.out := by unfold opPrivWrite; simp [*]

@[simp] theorem Work.engineWords_out (e : Nat) (w : Work) : (Work.engineWords e w).2.out = w.out := by unfold Work.engineWords; simp [*]

@[simp] theorem Work.stateWords_out (w : Work) : (Work.stateWords w).2.out = w.out := by
  unfold Work.stateWords; simp

@[simp] theorem Work.newSwatch_out (dom : Nat) (cause : Nat) (target : Nat) (ctxs : List Nat) (cores : List Nat) (dies : List Nat) (w : Work) : (Work.newSwatch dom cause target ctxs cores dies w).2.out = w.out := by
  unfold Work.newSwatch; simp

@[simp] theorem Work.claimSamples_out (cores : List Nat) (w : Work) : (Work.claimSamples cores w).out = w.out := by
  unfold Work.claimSamples; refine foldl_out _ (fun w a => ?_) _ _; (try dsimp only); (repeat' split) <;> simp_all

@[simp] theorem Work.tapTake_out (code : Nat) (out : Nat) (w : Work) : (Work.tapTake code out w).out = w.out := by rfl

@[simp] theorem Work.tapBypass_out (w : Work) : (Work.tapBypass w).out = w.out := by
  rfl

@[simp] theorem Work.tap_out (code : Nat) (test : Bool) (act : Work → Work) (w : Work) (h0 : ∀ y0, (act y0).out = y0.out) : (Work.tap code test act w).out = w.out := by
  unfold Work.tap; (try dsimp only); split
  · rfl
  · split
    · split <;> simp [Work.tapBypass]
    · exact h0 w

@[simp] theorem Work.boundary_out (code : Nat) (pins : Nat) (load : Nat) (w : Work) : (Work.boundary code pins load w).out = w.out := by rfl

@[simp] theorem opExtest_out (pins : Nat) (load : Nat) (w : Work) : (opExtest pins load w).out = w.out := by unfold opExtest; simp [*]

@[simp] theorem opSamplePreload_out (pins : Nat) (load : Nat) (w : Work) : (opSamplePreload pins load w).out = w.out := by unfold opSamplePreload; simp [*]

@[simp] theorem opClamp_out (w : Work) : (opClamp w).out = w.out := by unfold opClamp; simp [*]

@[simp] theorem opIdcode_out (w : Work) : (opIdcode w).out = w.out := by unfold opIdcode; simp [*]

@[simp] theorem opHighz_out (w : Work) : (opHighz w).out = w.out := by unfold opHighz; simp [*]

@[simp] theorem opUsercode_out (w : Work) : (opUsercode w).out = w.out := by unfold opUsercode; simp [*]

@[simp] theorem opExtestPulse_out (pins : Nat) (load : Nat) (w : Work) : (opExtestPulse pins load w).out = w.out := by unfold opExtestPulse; simp [*]

@[simp] theorem opExtestTrain_out (pins : Nat) (load : Nat) (w : Work) : (opExtestTrain pins load w).out = w.out := by unfold opExtestTrain; simp [*]

@[simp] theorem opBypass_out (code : Fin 256) (w : Work) : (opBypass code w).out = w.out := by unfold opBypass; (repeat' split) <;> simp [*]

@[simp] theorem opTapReset_out (power : Bool) (w : Work) : (opTapReset power w).out = w.out := by unfold opTapReset; dsimp only; (repeat' split) <;> simp_all

@[simp] theorem opTileLaunch_out (id : Nat) (w : Work) : (opTileLaunch id w).out = w.out := by unfold opTileLaunch; (repeat' split) <;> simp [*]

@[simp] theorem Work.noteDispatch_out (k : Nat) (t : Tile) (w : Work) : (Work.noteDispatch k t w).out = w.out := by unfold Work.noteDispatch; dsimp only; (repeat' split) <;> simp_all

@[simp] theorem Work.coreFree_out (k : Nat) (w : Work) : (Work.coreFree k w).out = w.out := by rfl

@[simp] theorem Work.tileLoadFail_out (k : Nat) (t : Tile) (samp : Option Nat) (st : Nat) (d : Nat) (w : Work) : (Work.tileLoadFail k t samp st d w).out = w.out := by unfold Work.tileLoadFail; (repeat' split) <;> simp [*]

@[simp] theorem Work.countRun_out (k : Nat) (t : Tile) (r : TileRun) (s : Stalls) (own : Bool) (np : Nat) (pc : Nat) (nc : Nat) (w : Work) : (Work.countRun k t r s own np pc nc w).out = w.out := by unfold Work.countRun; dsimp only; (repeat' split) <;> simp_all

@[simp] theorem Work.chainEnd_out (k : Nat) (h : Chain) (w : Work) : (Work.chainEnd k h w).out = w.out := by unfold Work.chainEnd; dsimp only; (repeat' split) <;> simp_all

@[simp] theorem Work.runTime_out (k : Nat) (t : Tile) (samp : Bool) (w : Work) : (Work.runTime k t samp w).out = w.out := by unfold Work.runTime; (repeat' split) <;> simp [*]

@[simp] theorem opTileOverrun_out (k : Fin 32) (st : Stalls) (w : Work) : (opTileOverrun k st w).out = w.out := by unfold opTileOverrun; dsimp only; (repeat' split) <;> simp_all

@[simp] theorem Work.putWindow_out (v : Window) (w : Work) : (Work.putWindow v w).out = w.out := by rfl

@[simp] theorem opWinOpDone_out (fn : Fin 16) (w : Work) : (opWinOpDone fn w).out = w.out := by unfold opWinOpDone; dsimp only; (repeat' split) <;> simp_all

/-! ### A device warm reset writes what its units had issued, and nothing else (R465) -/

@[simp] theorem Work.warmStop_out (w : Work) : w.warmStop.out = w.warmUnits.out := by
  simp [Work.warmStop]

/-- What comes before the units stop when a device warm reset starts. -/
def Work.warmPre (cause esc : Nat) (dev : Bool) (culprit : Option Nat) (w : Work) : Work :=
  let p := w.newSwatch 5 cause 0 (upto 16) (upto 32) [0, 1]
  let r : Reset :=
    { dom := 5, target := 0, cause := cause, start := p.2.time, limit := p.2.resetLimit 5, esc := esc, dev := dev,
      culprit := culprit, swatch := some p.1, todo := upto 32, phase := 0, memAt := 0, ctxs := upto 16, ends := [], queues := [] }
  let w := ((p.2.rst.runs.filter (fun q => r.contains q.dom q.target)).foldl (fun (w : Work) (q : Reset) => w.absorb 5 q) p.2).pushReset r
  let left := w.probLeft
  let w := w.setHealth (fun h => { h with left := left, leftAt := w.time })
  (w.put Obj.bootState 6).raiseDevice

theorem Work.resetAsk_warm (cause esc : Nat) (dev : Bool) (culprit : Option Nat) (w : Work) (h : w.reset? 5 0 = none) :
    (w.resetAsk 5 0 cause esc dev culprit).out = (w.warmPre cause esc dev culprit).warmUnits.out := by
  have e : w.resetAsk 5 0 cause esc dev culprit = w.resetStart 5 0 cause esc dev culprit := by
    unfold Work.resetAsk
    simp [h, Reset.contains]
  rw [e]
  unfold Work.resetStart
  dsimp only [if_true]
  simp only [if_neg (show ¬ (5 : Nat) = 3 by decide), if_neg (show ¬ (5 : Nat) = 4 by decide),
    if_neg (show ¬ (5 : Nat) = 1 by decide), if_true]
  simp only [Work.swatchStep_out]
  unfold Work.warmBegin
  simp only [Work.claimSamples_out, Work.commitsGone_out, Work.warmStop_out]
  rfl

/-- A write that its register takes is its action. -/
theorem Work.gated_takes (wr : Writer) (r : Reach) (num : Nat) (act : Work → Work) (w : Work)
    (h1 : w.serves wr num = true) (h2 : w.reaches wr r = true) : w.gated wr r num act = act w := by
  unfold Work.gated
  simp [h1, h2]

theorem Work.engWrite_out_mem (x a : Nat) (d : List Byte) (w : Work) (q : MemWrite) (h : q ∈ (w.engWrite x a d).out) :
    q ∈ w.out ∨ (q.addr = a ∧ q.data = d) := by
  have key : ∀ v : Work, v.out = (w.write a d).out → q ∈ v.out → q ∈ w.out ∨ (q.addr = a ∧ q.data = d) := by
    intro v hv hq
    rw [hv] at hq
    unfold Work.write at hq
    split at hq
    · exact Or.inl hq
    · rcases List.mem_cons.mp hq with rfl | hq
      · exact Or.inr ⟨rfl, rfl⟩
      · exact Or.inl hq
  refine key _ ?_ h
  unfold Work.engWrite
  dsimp only
  split
  · split <;> rfl
  · rfl

/-- What the break of a group leaves undefined: only bytes of parts that are not complete (R388). -/
theorem Work.undefine_out (j : CollJob) (w : Work) (q : MemWrite) (h : q ∈ (w.undefine j).out) :
    q ∈ w.out ∨ ∃ r ∈ w.openRanges j, q.addr = r.1 ∧ q.data.length = r.2 := by
  unfold Work.undefine at h
  generalize w.openRanges j = rs at h
  induction rs generalizing w with
  | nil => exact Or.inl h
  | cons r rs ih =>
    simp only [List.foldl_cons] at h
    rcases ih _ h with h | ⟨t, ht, e⟩
    · split at h
      · exact Or.inl h
      · rcases Work.engWrite_out_mem _ _ _ _ _ h with h | ⟨ha, hd⟩
        · exact Or.inl h
        · exact Or.inr ⟨r, List.mem_cons_self, ha, by rw [hd]; simp [Work.freeBytes, upto]⟩
    · exact Or.inr ⟨t, List.mem_cons_of_mem _ ht, e⟩

end Sys2Proof.Machine
end

