-- ==== Sys2Proof/Laws/Run.lean ====
section
/-!
SUPPORT. Sys2Proof/Laws/Run.lean: what becomes of a command's work (R18, R277): when it answers a next state, and everything that
state holds.
-/
namespace Sys2Proof.Machine

/-- A command runs its work. -/
theorem exec_work (i : Instr) (s : State) : exec i s = s.run (work i) := by cases i <;> rfl

/-- Work whose writes are all mapped answers the state after it. -/
theorem State.run_sound (s : State) (f : Work → Work) (h : (f s.work).Sound) : s.run f = .next (s.after f) := by
  have e : (f s.work).out.find? (fun x => !mapped x.addr x.data.length) = none := by
    rw [List.find?_eq_none]
    intro x hx
    simp [h x hx]
  show (match (f s.work).out.find? (fun x => !mapped x.addr x.data.length) with
    | some x => Host.Outcome.fault (Fault.unmapped x.addr)
    | none => Host.Outcome.next (s.after f)) = _
  rw [e]

/-- Work answers the state after it, or faults at an address that no region maps. -/
theorem State.run_cases (s : State) (f : Work → Work) :
    (s.run f = .next (s.after f) ∧ (f s.work).Sound) ∨
      ∃ x ∈ (f s.work).out, mapped x.addr x.data.length = false ∧ s.run f = .fault (.unmapped x.addr) := by
  cases e : (f s.work).out.find? (fun x => !mapped x.addr x.data.length) with
  | none =>
    have h : (f s.work).Sound := by
      intro x hx
      have := List.find?_eq_none.mp e x hx
      simpa using this
    exact .inl ⟨s.run_sound f h, h⟩
  | some x =>
    refine .inr ⟨x, List.mem_of_find?_eq_some e, ?_, ?_⟩
    · have := List.find?_some e
      simpa using this
    · show (match (f s.work).out.find? (fun x => !mapped x.addr x.data.length) with
        | some x => Host.Outcome.fault (Fault.unmapped x.addr)
        | none => Host.Outcome.next (s.after f)) = _
      rw [e]

/-- A next state is the state after the work. -/
theorem State.run_next (s t : State) (f : Work → Work) (h : s.run f = .next t) : t = s.after f := by
  rcases s.run_cases f with ⟨e, _⟩ | ⟨x, _, _, e⟩
  · rw [e] at h
    exact (Host.Outcome.next.inj h).symm
  · rw [e] at h
    cases h

/-- Without a write no stored error is replaced. -/
@[simp] theorem Dev.heal_nil (w : Dev) : w.heal [] = w := by
  unfold Dev.heal
  split
  · rfl
  · have a : w.ext.errs.filter (fun e => !coversSector [] e.1) = w.ext.errs := List.filter_eq_self.mpr (fun _ _ => rfl)
    have b : w.ext.ue.filter (fun e => !coversSector [] e) = w.ext.ue := List.filter_eq_self.mpr (fun _ _ => rfl)
    rw [a, b]

/-- Work that writes no memory answers the device it leaves, with memory as it was. -/
theorem State.run_quiet (s : State) (f : Work → Work) (h : (f s.work).out = []) :
    s.run f = .next { toDev := (f s.work).toDev, mem := s.mem, pending := s.pending } := by
  have hs : (f s.work).Sound := by
    intro x hx
    rw [h] at hx
    cases hx
  rw [s.run_sound f hs, State.after, h, Dev.heal_nil]
  rfl

@[simp] theorem State.after_pending (s : State) (f : Work → Work) : (s.after f).pending = s.pending := rfl
@[simp] theorem State.after_mem (s : State) (f : Work → Work) :
    (s.after f).mem = Memory.applyAll s.mem (f s.work).out := rfl

/-- Writes that cover whole sectors change nothing of the device but the errors stored in those sectors (R277). -/
theorem Dev.heal_get (w : Dev) (out : List MemWrite) (n : Nat) : (w.heal out).get n = w.get n := by
  unfold Dev.heal
  split <;> rfl

@[simp] theorem State.after_get (s : State) (f : Work → Work) (n : Nat) : (s.after f).get n = (f s.work).get n :=
  Dev.heal_get _ _ n

/-- The state after any work keeps memory's canonical form. -/
theorem State.after_memWf (s : State) (f : Work → Work) (h : s.MemWf) : (s.after f).MemWf :=
  Memory.wf_applyAll _ _ h

end Sys2Proof.Machine
end

