-- ==== Sys2Proof/WellFormed.lean ====
section
/-!
DEFINITION. Sys2Proof/WellFormed.lean: which terms of the syntax spell a command that can reach the block: every operand within what its
register, field, packet or pin can carry. The meanings are total all the same: what they do with an ill-formed operand is no claim.
-/
namespace Sys2Proof

/-- A BAR0 access writes 8, 16, 32 or 64 bits (R82). -/
def widthOk (width v : Nat) : Bool := [8, 16, 32, 64].contains width && decide (v < 2 ^ width)
/-- A scalar object holds at most 64 bits (Table 17.1). -/
def valueOk (v : Nat) : Bool := decide (v < 2 ^ 64)
/-- Object numbers have 24 bits (R490). -/
def objectOk (n : Nat) : Bool := decide (n < 2 ^ 24)
/-- Byte offsets in a BLOB have 32 bits (Table 17.4). -/
def offsetOk (off : Nat) : Bool := decide (off < 2 ^ 32)
/-- A write within a structure of `size` bytes. -/
def rangeOk (off n size : Nat) : Bool := decide (off + n ≤ size)
/-- Device addresses have 48 bits (R18). -/
def addrOk (a : Nat) : Bool := decide (a < 2 ^ 48)
/-- Host bus addresses have 47 bits (R20). -/
def busOk (a : Nat) : Bool := decide (a < 2 ^ 47)
/-- A completion carries at most a read request's 4,096 bytes (Table 18.1), or one of PCIe's status codes. -/
def cplOk (c : HostCpl) : Bool :=
  match c with
  | .data d => decide (d.length ≤ 4096)
  | .error st => decide (st < 8) && st != 0
  | .poisoned => true
/-- A symbol of a codeword of an external tier: its position and a difference that is not 0 (R272). -/
def symbolOk (p : Nat × Nat) : Bool := decide (p.1 < 64) && decide (p.2 < 256) && p.2 != 0
/-- A part of the external tiers: 12 stacks, 8 packages. -/
def partOk (p : Nat) : Bool := decide (p < 20)
/-- A lane of a channel of a part. -/
def laneOk (l : Nat × Nat × Nat) : Bool :=
  partOk l.1 && decide (l.2.1 < (if l.1 < 12 then 64 else 8)) && decide (l.2.2 < (if l.1 < 12 then 36 else 16))
/-- IPv6 addresses have 128 bits. -/
def ipOk (a : Nat) : Bool := decide (a < 2 ^ 128)
/-- A received Exbaene frame (Table 11.5): fields within their widths, at most a jumbo frame. -/
def frameOk (f : Rx) : Bool :=
  ipOk f.src && decide (f.hdr < 2 ^ 192) && decide (f.ext < 2 ^ 2048) && decide (f.len ≤ 9216) && decide (f.data.length ≤ 9216)
/-- A UDP datagram to the management port. -/
def datagramOk (f : HokRx) : Bool := ipOk f.src && decide (f.sport < 65536) && decide (f.bytes.length ≤ 9168)
/-- The peer table has 8,192 entries (R334). -/
def entryOk (n : Nat) : Bool := decide (n < 8192)
/-- Fields of a PTP message: domain, sequence and a timestamp in ns. -/
def ptpOk (domain seq t : Nat) : Bool := decide (domain < 256) && decide (seq < 65536) && decide (t < 2 ^ 64)
/-- A reset domain below cold reset, and a target within it (Table 15.1). -/
def domainOk (dom target : Nat) : Bool :=
  match dom with
  | 1 => decide (target < 13)
  | 2 => decide (target < 32)
  | 3 => decide (target < 16)
  | 4 => decide (target < 4)
  | 5 => target == 0
  | _ => false
/-- The boundary register has 102 cells (R565). -/
def scanOk (v : Nat) : Bool := decide (v < 2 ^ 102)
/-- A PCIe link is down or trains at one of five widths (Table 18.1). -/
def laneCountOk (n : Nat) : Bool := [0, 1, 2, 4, 8, 16].contains n

/-- The command can reach the block. -/
def Instr.wellFormed (i : Instr) : Bool :=
  match i with
  | .doorbellSqTail _ _ _ width v => widthOk width v
  | .doorbellCqHead _ _ _ width v => widthOk width v
  | .evtHost _ _ width v => widthOk width v
  | .patternAdmit _ _ => true
  | .commandStart _ _ => true
  | .commandComplete _ => true
  | .nop _ => true
  | .evtSignal _ => true
  | .evtWait _ => true
  | .fence _ => true
  | .timerArm _ => true
  | .writeImm _ => true
  | .yield _ => true
  | .stepMark _ => true
  | .tileLaunch _ => true
  | .copy _ => true
  | .prefetch _ => true
  | .cancel _ => true
  | .gather _ => true
  | .scatterAdd _ => true
  | .allGather _ => true
  | .reduceScatter _ => true
  | .allReduce _ => true
  | .paramGather _ => true
  | .send _ => true
  | .recv _ => true
  | .allReduceC4 _ => true
  | .waitTimeout _ _ => true
  | .stepMarkTimeout _ => true
  | .timerFire _ _ => true
  | .ctxEnable _ _ => true
  | .ctxDisable _ _ => true
  | .ctxDisableDone _ => true
  | .ctxResume _ _ => true
  | .qStart _ _ _ => true
  | .qStop _ _ _ => true
  | .qResume _ _ _ => true
  | .qFlush _ _ _ => true
  | .qCommit _ _ _ => true
  | .qCommitApply _ _ => true
  | .ctxCommit _ _ => true
  | .privWrite _ _ v => valueOk v
  | .segTableWrite _ _ off data => rangeOk off data.length 1024
  | .segCommit _ _ => true
  | .segCommitApplied _ => true
  | .coreAssign _ _ _ => true
  | .tileStart _ bad => match bad with | some (a, _) => addrOk a | none => true
  | .tileEnd _ _ _ _ flips => flips.all (fun p => decide (p.2 < 256))
  | .tileOverrun _ _ _ _ => true
  | .tileStoreDone _ => true
  | .sliceExpire _ => true
  | .sectionGrant _ => true
  | .sectionEnd _ _ => true
  | .sectionOverrun _ => true
  | .fenceSw _ v => valueOk v
  | .bobbinSectorLand _ _ _ _ => true
  | .prefetchWaitTimeout _ => true
  | .pbCommit _ _ => true
  | .pbCommitApply _ => true
  | .streamRearm _ _ _ => true
  | .streamTrigger _ _ => true
  | .streamXferDone _ _ => true
  | .streamDeadlineMiss _ _ => true
  | .packCommit _ _ _ => true
  | .nearScrub a _ => addrOk a
  | .extReadReturn _ a flips => addrOk a && flips.all symbolOk
  | .extScrub a flips _ => addrOk a && flips.all symbolOk
  | .couchWrite _ a d => addrOk a && !d.isEmpty && decide (a % 128 + d.length ≤ 128)
  | .couchRetire _ _ _ _ => true
  | .regulatorRequest _ _ _ n _ => decide (0 < n)
  | .regulatorRetry _ _ _ => true
  | .regulatorShareUpdate => true
  | .spillPoolCommit _ => true
  | .spillReq _ _ v => valueOk v
  | .spillHoldTimeout _ => true
  | .spillCopyDone _ => true
  | .fillReq _ _ v => valueOk v
  | .dramTempPoll stackC pkgs => stackC.length == 12 && pkgs.length == 8
  | .couchDrainTimeout _ parts => parts.all partOk
  | .memTrainingDone _ slow dead lanes => slow.all partOk && dead.all partOk && lanes.all laneOk
  | .picotLockGrant _ _ => true
  | .portsCommit _ _ => true
  | .portsCommitApply _ => true
  | .linkSignalDetect _ => true
  | .linkUp _ => true
  | .linkDown _ => true
  | .linkDegraded _ _ corr total => decide (corr ≤ total)
  | .linkDegradeClear _ => true
  | .ethFrameBad _ _ => true
  | .exbDataRx f => frameOk f
  | .exbAckRx f => frameOk f
  | .exbOpenRx f => frameOk f
  | .exbOpenAckRx f => frameOk f
  | .exbRejectRx f => frameOk f
  | .exbProbeRx f => frameOk f
  | .exbProbeReplyRx f => frameOk f
  | .exbStaleRx f => frameOk f
  | .exbCloseRx f => frameOk f
  | .exbStaleSessionRx f => frameOk f
  | .exbDataTx n _ => entryOk n
  | .exbAckDelayExpire n => entryOk n
  | .exbRtoExpire n _ => entryOk n
  | .exbProbeIdleExpire n => entryOk n
  | .exbLossTimeout n => entryOk n
  | .exbOpenResend n => entryOk n
  | .exbRejectRetry n => entryOk n
  | .exbRnrExpire n _ => entryOk n
  | .exbRateIncrease n => entryOk n
  | .peerCommit _ => true
  | .ptpAnnounceRx _ _ => true
  | .ptpSyncRx _ domain _ seq _ t1 => ptpOk domain seq t1
  | .ptpFollowUpRx _ domain _ seq t1 => ptpOk domain seq t1
  | .ptpDelayReqTx => true
  | .ptpDelayRespRx _ domain _ seq t4 => ptpOk domain seq t4
  | .ptpHoldover => true
  | .plaitChunkLand _ _ => true
  | .plaitStallTimeout _ n => entryOk n
  | .plaitNoStartTimeout _ n => entryOk n
  | .plaitAbortNoticeRx _ => true
  | .groupCommit _ => true
  | .groupCommitApply => true
  | .loadCommit _ => true
  | .loadStart => true
  | .shardLanded _ => true
  | .shardHashDone _ => true
  | .shardAttemptTimeout _ => true
  | .loaderShardRx _ => true
  | .loaderRefetchRx _ => true
  | .loaderUnavailRx _ => true
  | .activate _ v => valueOk v
  | .admitPauseTick _ _ => true
  | .swap _ => true
  | .swapExchangeDone _ => true
  | .slotCommit _ _ => true
  | .slotFlush _ _ => true
  | .bindCommit _ _ => true
  | .bindCommitApply _ => true
  | .addSwap _ _ => true
  | .arenaCommit _ => true
  | .seqJoin _ _ v => valueOk v
  | .seqLeave _ _ v => valueOk v
  | .seqGrow _ _ v => valueOk v
  | .mirCommit _ _ => true
  | .mirDevCommit _ => true
  | .mirDevCommitApply => true
  | .mirrorWaitExpire _ => true
  | .mirrorHashDone _ _ => true
  | .pairingHeaderRx _ => true
  | .pairingDataRx _ => true
  | .pairingRestoreReqRx _ => true
  | .pairingRestoreDataRx _ => true
  | .pairingRestoreHdrRx _ => true
  | .pairingRestoreNoneRx _ => true
  | .restoreReq _ _ mask => valueOk mask
  | .restoreDone _ => true
  | .samplerRunDone _ => true
  | .samplerLagDrop _ => true
  | .katPeriod _ res => res.all (fun r => decide (r.2.2 < 48))
  | .healthScoreTick => true
  | .probationEnd => true
  | .healthReport => true
  | .healthClear _ v => valueOk v
  | .fenceFwClear _ v => valueOk v
  | .mirFree _ v => valueOk v
  | .ovhWindow => true
  | .engineWdtFire _ _ => true
  | .coreWdtFire _ => true
  | .ctxWdtFire _ => true
  | .memWdtFire _ => true
  | .fwWdtFire => true
  | .engineReset _ v => valueOk v
  | .coreReset _ v => valueOk v
  | .ctxReset _ _ => true
  | .dieReset _ v => valueOk v
  | .deviceReset _ => true
  | .resetLimitExpire dom target => domainOk dom target
  | .swatchSampleTimeout _ => true
  | .resetDone dom target bad _ => domainOk dom target && bad.all (fun p => decide (p.1 < 16) && decide (p.2 < 1024))
  | .xqRetryResend inst => decide (inst < 65536)
  | .timeSample bad => bad.all (fun i => decide (i < 9))
  | .dvfsDecision _ _ => true
  | .pllLocked _ => true
  | .setpointReached _ => true
  | .dvfsCommit _ => true
  | .fwDecision num seen _ => objectOk num && valueOk seen
  | .winRead _ object off len _ => objectOk object && offsetOk off && decide (len < 8192)
  | .winWrite _ object off data => objectOk object && offsetOk off && decide (data.length < 8192)
  | .winWriteRead _ object off data => objectOk object && offsetOk off && decide (data.length < 8192)
  | .winOpDone _ => true
  | .objectWrite _ num off data => objectOk num && offsetOk off && decide (data.length ≤ 8192)
  | .hokHelloRx f => datagramOk f
  | .hokRequestRx f => datagramOk f
  | .hokNotifyAckRx f => datagramOk f
  | .hokCloseRx f => datagramOk f
  | .hokIdleTimeout _ => true
  | .notifyResend _ _ => true
  | .mgmtFrameRx f => match f with | .solicit src t => ipOk src && ipOk t | .echo src dst data => ipOk src && ipOk dst && decide (data.length ≤ 9168) | .other => true
  | .hokCommit _ => true
  | .mgmtCommit _ => true
  | .notifyCommit _ => true
  | .storeWrite num _ => objectOk num
  | .storeErase _ v _ => valueOk v
  | .logClear _ => true
  | .logReadSeqWrite _ v => valueOk v
  | .logDropped => true
  | .hostCplRx _ a cpl => busOk a && cplOk cpl
  | .hostCplTimeout _ a => busOk a
  | .flrVf c => c != 0
  | .flrPf => true
  | .pciePerst => true
  | .hostLinkChanged _ width _ => laneCountOk width.val
  | .coldResetRelease _ _ _ => true
  | .fwVerifyDone bad => bad.all (fun b => decide (b < 2))
  | .diePowerDone _ width => laneCountOk width.val
  | .memTrainDone slow dead lanes => slow.all partOk && dead.all partOk && lanes.all laneOk
  | .deviceReady res _ => res.all (fun r => decide (r.2.2 < 48))
  | .fwStage _ off data => offsetOk off && decide (data.length ≤ 8192)
  | .fwStageCommit _ => true
  | .fwStageVerifyDone _ => true
  | .fwSvnCommit _ => true
  | .attestReq _ _ => true
  | .attestDone _ => true
  | .entropyFailed => true
  | .entropyRetest _ => true
  | .coldRstAssert => true
  | .inputLow mv => decide (36000 ≤ mv) && decide (mv < 40000)
  | .inputHigh mv => decide (60000 < mv) && decide (mv ≤ 62000)
  | .p48vTrip _ => true
  | .p12vSbLoss => true
  | .throttleDecision r => r.cores.length == 32
  | .fastThrottle core current => core || current
  | .fastThrottleRelease => true
  | .thermtrip _ _ => true
  | .tapReset _ => true
  | .extest pins load => scanOk pins && scanOk load
  | .samplePreload pins load => scanOk pins && scanOk load
  | .clamp => true
  | .idcode => true
  | .highz => true
  | .usercode => true
  | .extestPulse pins load => scanOk pins && scanOk load
  | .extestTrain pins load => scanOk pins && scanOk load
  | .bypass code => !([0x00, 0x02, 0x03, 0x04, 0x05, 0x06, 0x08, 0x09].contains code.val)
  | .picotRowReturn _ _ _ => true
  | .mgmtLinkUp => true
  | .mgmtLinkDown => true
  | .p48vInRange => true

end Sys2Proof
end

