-- ==== Sys2Proof/Tests/Slice0.lean ====
section
/-!
SUPPORT. Sys2Proof/Tests/Slice0.lean: the model's own tests. Expected values come from the spec's tables and examples, or from its rules by
hand; each test names its source. Then, for every statement with hypotheses, a state and operands that meet them together.
-/
open Sys2Proof Sys2Proof.Machine
set_option Elab.async false
namespace Sys2Proof.Tests

/-! ## Well-formedness: an ill-formed term for each check -/

def rx0 : Rx := { port := 0, src := 0, ce := false, fix := 0, hdr := 0, ext := 0, len := 0, data := [], reply := .none }

theorem test_wf_accepts : (Instr.doorbellSqTail 0 1 2 32 5).wellFormed = true ∧ (Instr.exbDataRx rx0).wellFormed = true ∧
    (Instr.resetDone 5 0 [] 0).wellFormed = true ∧ (Instr.inputLow 39999).wellFormed = true := by decide +kernel

/-- Register writes that are too wide, too long or past their structure. -/
theorem test_wf_refuses_values : [Instr.doorbellSqTail 0 1 2 24 5, .doorbellCqHead 0 1 2 8 256, .evtHost 0 1 7 1, .privWrite .fw 1 (2 ^ 64),
    .segTableWrite .fw 1 1020 [0, 0, 0, 0, 0], .winRead 0 (2 ^ 24) 0 4 false, .winRead 0 0 (2 ^ 32) 4 false, .winRead 0 0 0 8192 false,
    .winWrite 0 (2 ^ 24) 0 [], .winWriteRead 0 0 (2 ^ 32) [], .objectWrite .fw (2 ^ 24) 0 [], .storeWrite (2 ^ 24) 0,
    .fwDecision 0 (2 ^ 64) true, .fwStage .fw (2 ^ 32) [1]].all (fun i => !i.wellFormed) = true := by decide +kernel

/-- Addresses, codewords, parts and lanes that do not exist. -/
theorem test_wf_refuses_memory : [Instr.nearScrub (2 ^ 48) .ok, .extReadReturn .other (2 ^ 48) [], .extReadReturn .other 0 [(64, 1)],
    .extScrub 0 [(0, 256)] false, .extScrub 0 [(0, 0)] false, .couchWrite 0 0 [], .couchWrite 0 127 [1, 2], .regulatorRequest 0 0 0 0 false,
    .dramTempPoll [0] [0], .couchDrainTimeout 2 [20], .memTrainDone [20] [] [], .memTrainDone [] [] [(0, 64, 0)], .memTrainDone [] [] [(12, 0, 16)],
    .hostCplRx .other (2 ^ 47) .poisoned, .hostCplRx .other 0 (.error 0), .hostCplRx .other 0 (.error 8),
    .hostCplTimeout .other (2 ^ 47)].all (fun i => !i.wellFormed) = true := by decide +kernel

/-- Frames, entries and times that no port can carry. -/
theorem test_wf_refuses_network : [Instr.linkDegraded 0 0 2 1, .exbDataRx { rx0 with src := 2 ^ 128 }, .exbAckRx { rx0 with hdr := 2 ^ 192 },
    .exbOpenRx { rx0 with ext := 2 ^ 2048 }, .exbCloseRx { rx0 with len := 9217 }, .exbRtoExpire 8192 0, .ptpSyncRx 0 256 0 0 true 0,
    .ptpFollowUpRx 0 0 0 65536 0, .ptpDelayRespRx 0 0 0 0 (2 ^ 64), .hokHelloRx ⟨2 ^ 128, 0, []⟩, .hokCloseRx ⟨0, 65536, []⟩,
    .mgmtFrameRx (.solicit (2 ^ 128) 0)].all (fun i => !i.wellFormed) = true := by decide +kernel

/-- Resets, sensors, supplies and pins out of range. -/
theorem test_wf_refuses_parts : [Instr.resetLimitExpire 6 0, .resetLimitExpire 2 32, .resetDone 1 13 [] 0, .resetDone 5 0 [(16, 0)] 0,
    .xqRetryResend 65536, .timeSample [9], .katPeriod 0 [(0, 0, 48)], .flrVf 0, .hostLinkChanged 0 3 ⟨0, [], []⟩, .fwVerifyDone [2],
    .diePowerDone 0 12, .deviceReady [(0, 0, 48)] ⟨0, [], []⟩, .inputLow 40000, .inputHigh 60000, .throttleDecision ⟨[], 0, 0, 0, 0, 0, 0, 0⟩,
    .fastThrottle false false, .extest (2 ^ 102) 0, .samplePreload 0 (2 ^ 102), .bypass 4].all (fun i => !i.wellFormed) = true := by
  decide +kernel

/-! ## Numbers -/

/-- Table 02.12: a block of largest magnitude 0.0371 (here 9958955 / 2^28) takes scale byte 0x2E in N8F. -/
theorem test_n8f_scale : toSigned 8 (fitScale .n8f ⟨9958955, -28⟩) = 0x2E := by decide +kernel

/-- Table 02.12, rows 1 and 2: under its random bits the value becomes 0x7E or 0x7D. -/
theorem test_n8f_stochastic : (storeValue .n8f (some 0x2E) false .sr 14876 ⟨9958955, -28⟩).1 = 0x7E ∧
    (storeValue .n8f (some 0x2E) false .sr 40960 ⟨9958955, -28⟩).1 = 0x7D := by decide +kernel

/-- Table 02.12, rows 3 and 4: 2.9 × 10^-6 becomes 0x10, and -6.0 × 10^-8 becomes a positive zero with FLUSH. -/
theorem test_n8f_small : (storeValue .n8f (some 0x2E) false .sr 52001 ⟨12754335, -42⟩).1 = 0x10 ∧
    (storeValue .n8f (some 0x2E) false .sr 30500 ⟨-67553994, -50⟩).1 = 0 ∧
    (storeValue .n8f (some 0x2E) false .sr 30500 ⟨-67553994, -50⟩).2.flags = fFlush := by decide +kernel

/-- R36, R37: five trits of a byte; a code of 243 or more reads as zeros. -/
theorem test_trits : [0, 1, 2, 3, 4].map (tritOf 242) = [1, 1, 1, 1, 1] ∧ [0, 1, 2, 3, 4].map (tritOf 5) = [1, 0, -1, -1, -1] ∧
    [0, 1, 2, 3, 4].map (tritOf 243) = [0, 0, 0, 0, 0] := by decide +kernel

/-- R214 by hand: seed 0x0123456789ABCDEF, step 5, d 1, u 0x10002, lane 7. -/
theorem test_generator : srBits 0x0123456789ABCDEF 5 1 0x10002 7 = 52266 := by decide +kernel

/-- Table 01.5: the last byte of a region, and the first of the hole after it. -/
theorem test_regions : (regionOf 0x006BFFFFFFFF).isSome = true ∧ (regionOf 0x006C00000000).isSome = false := by decide +kernel

/-- The table of commands gives no row any bits. -/
theorem test_no_word_spells_a_command (nbits w : Nat) : decodeTableWord nbits w = none := rfl

/-! ## Small states -/

/-- A segment over the fast tier that reads and writes. -/
def seg0 : Nat := 8556641475982684734188423217167

/-- The device in READY with contexts 0 and 1 ACTIVE and both tiers online; the objects of o hold the values named. -/
def st (o : List (Nat × Nat)) : State :=
  { toDev := { Dev.reset with
      time := 10000000000000000
      nextId := 100
      obj := o ++ [(Obj.bootState, 5), (Obj.ctxState 0, 1), (Obj.ctxState 1, 1), (Obj.halfOnline, 15)]
      boot := { BootState.reset with held := false, rails := true } }
    mem := []
    pending := [] }

/-- A command in flight that has not begun. -/
def cmd (id x q raw : Nat) : Cmd :=
  { id := id, ctx := x, q := q, pid := 0, idx := 0, raw := raw, segs := [(0, seg0)], seed := 0, step := 0, rnd := 0, cls := 0, home := 0,
    start := 0, since := 0, slot := none, add := none, released := false, fence := [], conv := 0, r1 := 0, r2 := 0, begun := false,
    done := none }

/-- A pattern of one command that is next. -/
def pat (pid x q raw : Nat) : Pattern :=
  { pid := pid, ctx := x, q := q, idx := 0, base := 0, ncmd := 1, tag := 0, req := false, pirq := false, deadline := 0, epoch := none,
    slot := none, addSel := none, next := 0, ended := 0, cut := 0, isCut := false, status := 0, detail := 0, conv := 0, r1 := 0,
    r2 := 0, head := raw, bad := none, since := 0, released := false }

/-- With the queues' state changed. -/
def withQ (s : State) (f : QueueState → QueueState) : State := { s with q := f s.q }

/-- With one command in flight. -/
def one (o : List (Nat × Nat)) (c : Cmd) : State := withQ (st o) (fun q => { q with cmds := [c] })

theorem ok_of {ε α : Type} (x : Except ε α) (a : α) (h : x.toOption = some a) : x = .ok a := by
  cases x with
  | ok b => simp [Except.toOption] at h; rw [h]
  | error e => simp [Except.toOption] at h

theorem err_of {ε α : Type} (x : Except ε α) (e : ε) (h : (match x with | .error e => some e | .ok _ => none) = some e) :
    x = .error e := by
  cases x with
  | ok b => simp at h
  | error d => simp at h; rw [h]

theorem sound_of (w : Work) (h : w.out.all (fun x => mapped x.addr x.data.length) = true) : w.Sound := List.all_eq_true.mp h

/-- A queue of context 1 whose next submission entry is d, read through segment 0 at device address 0. -/
def fetchState (d : Nat) (o : List (Nat × Nat)) : State :=
  { st (o ++ [(Obj.sqTail 1 2, 1), (Obj.sqLog2 1 2, 4), (Obj.cqLog2 1 2, 4), (Obj.qState 1 2, 1)]) with
    blob := ((upto 16).map (fun i => (blobKey (Obj.segTable 1) i, bits seg0 (8 * i) 8))).filter (fun p => p.2 != 0)
    mem := ((upto 16).map (fun i => (i, BitVec.ofNat 8 (bits d (8 * i) 8)))).filter (fun (p : Nat × Byte) => p.2 != 0#8) }

/-- The listed bytes of a number of n bytes at an address. -/
def bytesAt (a n v : Nat) : List (Nat × Byte) :=
  ((upto n).map (fun i => (a + i, BitVec.ofNat 8 (bits v (8 * i) 8)))).filter (fun (p : Nat × Byte) => p.2 != 0#8)

/-- A descriptor of a tile that drains one row of Pillow's accumulators as W32 to the 32 bytes at context address 0x3000. -/
def desc0 : Nat :=
  1 + 2 ^ 8 + 0x3000 * 2 ^ 384 + 32 * 2 ^ 432 + (2 + 2 * 2 ^ 4 + 2 ^ 14 + 2 ^ 16 + 7 * 2 ^ 348 + 2 ^ 460) * 2 ^ 512

/-- The same tile, released by command 3 of context 1. -/
def tile0 : Tile :=
  { cmd := 3, idx := 0, ctx := 1, tid := 0, desc := desc0, size := 2, nextDesc := 0, in0 := 0, in1 := 0, out := 0x3000, prog := 0,
    feedCtx := 0, feedDev := 0, cls := 0, defer := false, seed := 0, step := 0, rnd := 0, recomp := 0, home := 0, scales := [],
    released := 0, selected := false }

/-- Its chain. -/
def chain0 : Chain :=
  { id := 8, cmd := 3, ctx := 1, samp := none, idx := 0, acc := [], slots := [], chans := [], be := false, tiles := [],
    dig := ⟨0, 0, 0⟩ }

/-- Cores of which core k is c. -/
def coresWith (c : Core) : SchedState := { SchedState.reset with cores := SchedState.reset.cores.set c.k c }
/-- The low n bytes of v as bytes of BLOB object k from offset off; a zero byte is the default. -/
def blobAt (k off n v : Nat) : List (Nat × Nat) :=
  ((upto n).map (fun i => (blobKey k (off + i), bits v (8 * i) 8))).filter (fun p => p.2 != 0)

/-- Session 0x11 of peer entry 7 with nothing sent or received. -/
def sess0 : Sess :=
  { n := 7, sid := 0x11, opener := true, peerSid := 0x22, peerInc := 5, peerCgen := 0, home := 0, nonce := 0, body := 0, openAt := 0,
    openLast := 0, psn := 0, msg := 0, k := 0, pkts := [], covered := none, outSince := none, cum := 0, ranges := [], newest := 0, rx := [],
    rxCount := 0, ceCount := 0, echo := 0, ackDue := none, gapAt := none, alpha := ⟨0, 1⟩, rate := ⟨1000000000, 1⟩, srtt := 0,
    measured := false, lastDec := none, incN := 0, incAt := 0, incDec := false, incCe := false, nextTx := 0, lastRx := 0, lastProg := 0,
    probe := none, viol := [] }

/-- Port 0 is UP, and entry 7 of context 1, sent to over port 0, is in state k with the sessions ss and the messages ms. -/
def net (k : Nat) (ss : List Sess) (ms : List TxMsg) : State :=
  { st [(Obj.linkState 0, 3)] with
    blob := blobAt Obj.peerTable (64 * 7) 64 (1 + 2 ^ 4 + 2 ^ 12 + 2 ^ 64) ++ blobAt Obj.peerState 7 1 k
    net := { NetState.reset with sess := ss, msgs := ms } }

/-- A packet of type ty for session 0x11 with an extended header and data. -/
def rxOf (ty n ext : Nat) (d : List Byte) : Rx :=
  { port := 0, src := 0, ce := false, fix := 0, hdr := 2 ^ 188 + ty * 2 ^ 184 + n * 2 ^ 160 + 0x11 * 2 ^ 128 + 0x22 * 2 ^ 96 + 5 * 2 ^ 64,
    ext := ext, len := n, data := d, reply := .none }

/-- A message of four bytes on session 7. -/
def msg0 : TxMsg := ⟨7, none, 1, 4, 3, 0, 0, [1, 2, 3, 4], [], 0, 0, none⟩

/-- A packet that was sent. -/
def pkt0 : TxPkt := ⟨0, 0, 0, 4, 0, 0, 0, 0, false, false, false, none, [1, 2, 3, 4]⟩

/-- A load for context 1 into target k, in phase ph. -/
def load0 (k ph : Nat) (hs : List Shard) : LoadJob :=
  { ctx := 1, sel := k, target := k, chain := true, pred := 7, succ := 8191, manifest := 0x1000, copy := [], hdr := 0, inPlace := false,
    phase := ph, shards := hs, fwd := 0 }

/-- A shard of four bytes at offset 0 of part 0, with n bytes of it to wait for. -/
def shard0 (pred : Bool) (waits : Nat) : Shard := ⟨0, 4 * 2 ^ 392, 1, 0, pred, some 0, 1000, false, waits, 0x6000⟩

/-- The device with that load. -/
def loading (o : List (Nat × Nat)) (j : LoadJob) (hs : List HashJob) (ms : List InMsg) : State :=
  { st (o ++ [(Obj.partBaseP 0 0, 0x4000)]) with
    life := { Dev.reset.life with job := some j, hashes := hs }
    net := { NetState.reset with inbox := ms } }

/-- A message of kind k of Pairing for identity 9 from entry 7. -/
def pmsg (k : Nat) (d : List Byte) : InMsg := ⟨5, 7, 0xFFE0 * 2 ^ 48 + k * 2 ^ 44 + 9, d⟩

/-- A held entry for job 0, rank 1, context 0, identity 9: 8,192 bytes with slots at 0x200000 and 0x300000. -/
def held0 : Nat := 1 + 1 * 2 ^ 64 + 9 * 2 ^ 96 + 0x200 * 2 ^ 128 + 0x300 * 2 ^ 164 + 2 * 2 ^ 200

/-- A partner that holds it in entry 0 of its store. -/
def holding (ms : List InMsg) (rc : List (Nat × Nat)) : State :=
  { st [(Obj.mirStoreBase, 0x100000), (Obj.mirStoreLen, 0x10000000)] with
    blob := blobAt Obj.peerTable (64 * 7) 64 (1 + 2 ^ 4 + 2 ^ 12 + 2 ^ 64)
    mem := bytesAt 0x100000 32 held0
    net := { NetState.reset with inbox := ms }
    pair := { Dev.reset.pair with recv := rc } }

/-- A restore of shard 0 of context 1, which partner 7 has been asked for. -/
def restoring (u : RestShard) (rdy : Bool) (ms : List InMsg) : State :=
  { st [(Obj.mirAddr 1 0, 0x1000), (Obj.mirLen 1 0, 4096), (Obj.mirId 1 0, 9), (Obj.mirPeer 1 0, 7)] with
    blob := blobAt (Obj.segTable 1) 0 16 seg0 ++ blobAt Obj.peerTable (64 * 7) 64 (1 + 2 ^ 4 + 2 ^ 12 + 2 ^ 64)
    net := { NetState.reset with inbox := ms }
    pair := { Dev.reset.pair with restores := [⟨1, [u], rdy, 0⟩] } }

/-- A header of the copy that fits held0. -/
def chdr0 : Nat := 0x4F5A5052 + 2 ^ 32 + 9 * 2 ^ 64 + 2 ^ 96 + 8192 * 2 ^ 320

/-- Where a shard's hash answers, nothing outside the map is written if neither outcome writes there. -/
theorem hash_sound (k a : Nat) (j : LoadJob) (h : Shard) (w : Work) (hj : w.life.job = some j) (hs : w.shard? k = some h)
    (hc : j.phase = 2 ∧ h.waits = 3 ∧ w.hashing 0 k = true) (hn : h.srcHash = false)
    (hd : (w.hashDrop 0 k).shardDest j h.entry = .ok a)
    (h1 : (((w.hashDrop 0 k).putShard { h with st := 2, waits := 4 }).loadStep).Sound)
    (h2 : (((w.hashDrop 0 k).nextAttempt k 3).loadStep).Sound) : (opShardHashDone k w).Sound := by
  unfold opShardHashDone
  simp only [hj, hs]
  rw [if_neg (by simp [hc]), if_neg (by simp [hn])]
  simp only [hd]
  split
  · exact h1
  · exact h2

/-- The row of an object. -/
def rowOf (n : Nat) : ObjRow := (objRow n).getD ⟨0, 0, 0, 0, 0, 0, 0, 0, 0, 0, 0, 0, 0, false⟩

/-- The management port is enabled and up. -/
def mgmt (o : List (Nat × Nat)) (ss : List HokSession) : State :=
  { st (o ++ [(Obj.mgmtEn, 1), (Obj.mgmtLink, 1)]) with dict := { DictState.reset with sessions := ss } }

/-- A Hokutia message of n bytes in all: type, SID, SEQ, and zeros. -/
def hok (n ty sid seq : Nat) : HokRx :=
  ⟨5, 4000, (beBytes (2 ^ 124 + ty * 2 ^ 120 + (n - 16) * 2 ^ 96 + sid * 2 ^ 64 + seq) 16).map (BitVec.ofNat 8) ++ List.replicate (n - 16) 0#8⟩

/-- Session 2, whose last SEQ is 9. -/
def hses : HokSession := ⟨2, 77, 0, 5, 4000, 1, 2, 9, [], 0⟩

/-- A REQUEST of a SEQ that is past writes nothing, whatever its MAC. -/
theorem hok_sound (f : HokRx) (q : HokSession) (w : Work) (h0 : (w.bump Obj.mgmtRxFrames 1).dict.sessions.find? (fun s => s.sid == hokSid (hokHdrOf f)) = some q)
    (h1 : hokSeq (hokHdrOf f) < q.lastSeq) (h2 : w.mgmtLive = true) (h3 : ¬9120 < f.bytes.length) (h4 : ¬f.bytes.length < 16) (h5 : hokVer (hokHdrOf f) = 1)
    (h6 : hokLen (hokHdrOf f) = f.bytes.length - 16 ∧ hokType (hokHdrOf f) = 3)
    (h7 : ((w.bump Obj.mgmtRxFrames 1).bump Obj.hokMacFail 1).Sound) (h8 : ((w.bump Obj.mgmtRxFrames 1).bump Obj.hokReplay 1).Sound) :
    (opHokRequestRx f w).Sound := by
  unfold opHokRequestRx Work.hokTake Work.hokIn
  simp only [h2, h0]
  rw [if_neg (by simp), if_neg h3, if_neg h4, if_neg (by simp [h5]), if_neg (by simp [h6])]
  split
  · exact h7
  · rw [if_neg (by omega), if_neg (by omega)]
    exact h8

/-! ## One step of a command -/

/-- What a command leaves, read by f; d where it stops. -/
def left {α : Type} (i : Instr) (s : State) (f : State → α) (d : α) : α :=
  match step { s with pending := [i] } with
  | .next t => f t
  | _ => d

/-- R99, R104: an event counter wraps at 2^64. -/
theorem test_evt_host_wraps : left (.evtHost 1 1 64 (7 + 3 * 2 ^ 8))
    { st [] with blob := blobAt (Obj.events 1) 56 8 (2 ^ 64 - 2) } (fun t => t.evt 1 7) 9 = 1 := by decide +kernel

/-- R82: a SQ_TAIL doorbell of 16 bits counts as invalid and leaves the tail. -/
theorem test_doorbell_width : left (.doorbellSqTail 1 1 2 16 5) (st []) (fun t => (t.get Obj.doorbellInvalidCount, t.get (Obj.sqTail 1 2)))
    (9, 9) = (1, 0) := by decide +kernel

/-- Table 03.11: WRITE_IMM stores VALUE least significant byte first. -/
theorem test_write_imm_order : left (.writeImm 3) (one [] (cmd 3 1 4 (5 + 0x1000 * 2 ^ 128 + 0x1122334455667788 * 2 ^ 192)))
    (fun t => (t.byte 0x1000, t.byte 0x1007)) (0, 0) = (0x88, 0x11) := by decide +kernel

/-- R27: an access past the segment's last byte ends with SEGMENT_LIMIT. -/
theorem test_write_imm_limit : left (.writeImm 3) (one [] (cmd 3 1 4 (5 + 0x6C00000000 * 2 ^ 128)))
    (fun t => (t.endOf 3).map (fun e => e.status)) none = some 0x0214 := by decide +kernel

/-- R79: context 0 is never disabled. -/
theorem test_ctx_disable_zero : left (.ctxDisable .fw 0) (st []) (fun t => (t.q.disabling, t.get (Obj.ctxState 0))) ([7], 9) = ([], 1) := by
  decide +kernel

/-- R496's worked example: BE_MIN_SHARE written 30 holds 25, and counts one clamp. -/
theorem test_object_write_clamps : left (.objectWrite (.fn 0) Obj.beMinShare 0 [30]) (st [])
    (fun t => (t.get Obj.beMinShare, t.get Obj.clampCount)) (0, 0) = (25, 1) := by decide +kernel

/-- R491: a write of an RO object counts in RO_WRITE_COUNT. -/
theorem test_object_write_ro : left (.objectWrite (.fn 0) Obj.storeState 0 [1]) (st [])
    (fun t => (t.get Obj.storeState, t.get Obj.roWriteCount)) (9, 9) = (0, 1) := by decide +kernel

/-- R141: a fence of every core of C0 leaves eight of them free. -/
theorem test_fence_leaves_eight : left (.fenceSw (.fn 0) 0xFFFF) (st [])
    (fun t => (upto 16).countP (fun k => !bitOf (t.get Obj.fenceSw) k)) 0 = 8 := by decide +kernel

/-- Table 19.9: IDCODE is code 4; a code that the table does not list selects the bypass register. -/
theorem test_tap_codes : left .idcode (st []) (fun t => t.get Obj.tapInstr) 9 = 4 ∧ left (.bypass 7) (st []) (fun t => t.get Obj.tapInstr) 9 = 0xFF := by
  decide +kernel

/-- R563: outside test mode EXTEST selects the bypass register and counts. -/
theorem test_extest_denied : left (.extest 0 5) (st []) (fun t => (t.get Obj.tapInstr, t.get Obj.tapDeniedCount, t.boot.bsr)) (0, 0, 9) = (0xFF, 1, 0) := by
  decide +kernel

/-- Table 11.3: a port that carries links counts the link's loss. -/
theorem test_link_down_counts : left (.linkDown 3) (st [(Obj.linkState 3, 3)]) (fun t => (t.get (Obj.linkState 3), t.get (Obj.linkDownCount 3)))
    (9, 9) = (1, 1) := by decide +kernel

/-- R552: P48V below 40 V is told, and counts once. -/
theorem test_input_low : left (.inputLow 39000) (st []) (fun t => (t.boot.vinOut, t.get Obj.inputLowCount)) (false, 9) = (true, 1) := by
  decide +kernel

/-- R530: a reset of virtual function 3 takes its bus mastering. -/
theorem test_flr_vf : left (.flrVf 3) { st [(Obj.numVfs, 15)] with pcie := ⟨[3, 4], []⟩ } (fun t => (t.pcie.busMaster, t.get Obj.flrCount))
    ([], 0) = ([4], 1) := by decide +kernel

/-! ## Statements with hypotheses: each is met -/

/-! ## Device warm resets -/

/-- A device warm reset writes only mapped addresses if its units do. -/
theorem sound_warm {w : Work} {cause esc : Nat} {dev : Bool} {culprit : Option Nat} (h : w.reset? 5 0 = none)
    (h3 : (w.warmPre cause esc dev culprit).warmUnits.out.all (fun x => mapped x.addr x.data.length) = true) :
    (w.resetAsk 5 0 cause esc dev culprit).Sound := by
  unfold Work.Sound
  rw [Work.resetAsk_warm cause esc dev culprit w h]
  exact List.all_eq_true.mp h3

theorem sound_device : (opDeviceReset (.fn 0) (st []).work).Sound := by
  have e : opDeviceReset (.fn 0) (st []).work = (st []).work.resetAsk 5 0 8 0 (st []).work.devMode none :=
    Work.gated_takes _ _ _ _ _ (by decide +kernel) (by decide +kernel)
  rw [e]
  exact sound_warm (by decide +kernel) (by decide +kernel)

theorem sound_io1 : (opDieReset (.fn 0) 3 (st []).work).Sound := by
  have e : opDieReset (.fn 0) 3 (st []).work = opDeviceReset (.fn 0) (st []).work := by
    unfold opDieReset opDeviceReset Work.resetReq
    rw [Work.gated_takes _ _ _ _ _ (by decide +kernel) (by decide +kernel), Work.gated_takes _ _ _ _ _ (by decide +kernel) (by decide +kernel)]
    unfold Work.resetAsk
    simp
  rw [e]
  exact sound_device

theorem sound_fw : (opFwWdtFire (st []).work).Sound := by
  unfold opFwWdtFire
  rw [if_pos (by decide +kernel)]
  exact sound_warm (by decide +kernel) (by decide +kernel)

/-- A reset of die C0 that is past its limit. -/
def lateDie : Reset := ⟨4, 0, 8, 0, 500, 0, false, none, none, [], 0, 0, [], [], []⟩

/-- The device in which it runs. -/
def lateSt : State := { st [] with rst := ⟨[lateDie], [], 0, false⟩ }

theorem sound_late : (opResetLimitExpire 4 0 lateSt.work).Sound := by
  have h : lateSt.work.reset? 4 0 = some lateDie := by decide +kernel
  have n : ¬(lateDie.limit = 0 ∨ lateSt.work.since lateDie.start < lateDie.limit ∨ lateSt.work.rst.stuck = true ∨
      lateSt.work.rst.runs.any (fun q => q.contains 4 0) = true) := by decide +kernel
  have h2 : (lateSt.work.escalated lateDie 5 0).reset? 5 0 = none := by decide +kernel
  have h3 : ((lateSt.work.escalated lateDie 5 0).warmPre 7 1 false none).warmUnits.out.all
      (fun x => mapped x.addr x.data.length) = true := by decide +kernel
  generalize lateSt.work = w at *
  unfold opResetLimitExpire
  rw [h]
  simp only [if_neg n]
  exact sound_warm h2 h3

theorem witness_StepIdlesOnAnEmptyQueue_off : ∃ s : State, s.pending = [] ∧ s.powered = false :=
  ⟨State.reset, by decide +kernel, by decide +kernel⟩

theorem witness_StepKeepsMemoryCanonical : ∃ s t : State, s.MemWf ∧ s.MemMapped ∧ step s = .next t :=
  ⟨{ st [] with mem := [(0x1000, 7)], pending := [.mgmtLinkDown] }, _, by unfold State.MemWf; decide +kernel,
   by unfold State.MemMapped; decide +kernel, rfl⟩

theorem witness_StepKeepsTheBookkeeping : ∃ s t : State, s.Sound ∧ step s = .next t :=
  ⟨{ one [] (cmd 3 1 4 0) with pending := [.mgmtLinkDown] }, _, by unfold State.Sound; decide +kernel, rfl⟩

/-- A partner's store that software has laid outside the address map: freeing an entry there faults. -/
theorem witness_CommandsStopOnlyOutsideTheMap : ∃ (i : Instr) (s : State) (f : Fault), exec i s = .fault f :=
  ⟨.mirFree (.fn 0) 0, { st [(Obj.mirStoreBase, 0x700000000000), (Obj.mirStoreLen, 0x10000000)] with mem := [(0x700000000000, 1)] }, _, rfl⟩

theorem witness_BytesOutsideTheWritesStay : ∃ (i : Instr) (s t : State) (a : Nat), exec i s = .next t ∧
    ∀ x ∈ (work i s.work).out, ¬ (x.addr ≤ a ∧ a < x.addr + x.data.length) :=
  ⟨.mirFree (.fn 0) 0, holding [] [], _, 0x100020, rfl, by decide +kernel⟩

theorem witness_AddressesDecode : ∃ a r, regionOf a = some r := ⟨0x006BFFFFFFFF, _, rfl⟩

theorem witness_DictionaryAnswers :
    (∃ n, n / 0x100000 = 0xE) ∧ (∃ n, objRow n = none) ∧
    (∃ (wr : Writer) (n : Nat) (r : ObjRow) (s : State), s.rowServed n = some r ∧ (r.acc = 0 ∨ r.acc = 4) ∧ s.reaches wr (objReach n) = true) ∧
    (∃ (n : Nat) (r : ObjRow) (s : State), s.rowServed n = some r ∧ r.acc = 3) :=
  ⟨⟨0xE00001, by decide⟩, ⟨0x0FFFFF, by decide +kernel⟩,
   ⟨.fn 0, Obj.storeState, rowOf Obj.storeState, st [], by decide +kernel, by decide +kernel, by decide +kernel⟩,
   ⟨Obj.storeErase, rowOf Obj.storeErase, st [], by decide +kernel, by decide +kernel⟩⟩

theorem witness_TritsAreCoded :
    (∃ l : List Nat, l.length = 5 ∧ ∀ d ∈ l, d < 3) ∧ (∃ (blk : Nat) (l : List Nat) (i : Nat), (blk = 32 ∨ blk = 64) ∧ l.length = blk ∧
      (∀ d ∈ l, d < 3) ∧ i < blk) ∧ (∃ c i, c < 243 ∧ i < 5) :=
  ⟨⟨[2, 1, 0, 2, 2], by decide, by decide⟩, ⟨64, List.replicate 64 2, 63, by decide, by decide, by decide, by decide⟩, ⟨242, 4, by decide, by decide⟩⟩

theorem witness_StepIdlesOnAnEmptyQueue :
    (∃ (s : State), (s.pending = []) ∧ (s.powered = true)) :=
  ⟨st [], by decide +kernel, by decide +kernel⟩

theorem witness_DoorbellsTakeEffect :
    (∃ (fn x : Fin 16) (q : Fin 5) (v : Nat) (s : State), (fn = 0 ∨ fn = x) ∧ (s.ready = true) ∧ (s.get (Obj.ctxState x) ≠ 0) ∧ (s.q.committed.contains (x.val, q.val) = true) ∧ (sub32 (v % 2 ^ 32) (s.get (Obj.sqTail x q)) ≤ 2 ^ s.get (Obj.sqLog2 x q)) ∧ (sub32 (v % 2 ^ 32) (s.get (Obj.sqHead x q)) ≤ 2 ^ s.get (Obj.sqLog2 x q))) ∧
    (∃ (fn x : Fin 16) (q : Fin 5) (v : Nat) (s : State), (fn = 0 ∨ fn = x) ∧ (s.ready = true) ∧ (s.get (Obj.ctxState x) ≠ 0) ∧ (s.q.committed.contains (x.val, q.val) = true) ∧ (sub32 (v % 2 ^ 32) (s.get (Obj.cqHead x q)) ≤ sub32 (s.get (Obj.cqTail x q)) (s.get (Obj.cqHead x q))) ∧ (s.q.owed.find? (fun o => o.ctx == x.val && o.q == q.val) = none)) :=
  ⟨⟨0, 1, 2, 16, (withQ (st [(Obj.sqTail 1 2, 1), (Obj.cqTail 1 2, 2), (Obj.sqLog2 1 2, 4), (Obj.qState 1 2, 1)]) (fun q => { q with committed := [(1, 2)] })), by decide +kernel, by decide +kernel, by decide +kernel, by decide +kernel, by decide +kernel, by decide +kernel⟩,
   ⟨1, 1, 2, 2, (withQ (st [(Obj.sqTail 1 2, 1), (Obj.cqTail 1 2, 2), (Obj.sqLog2 1 2, 4), (Obj.qState 1 2, 1)]) (fun q => { q with committed := [(1, 2)] })), by decide +kernel, by decide +kernel, by decide +kernel, by decide +kernel, by decide +kernel, by decide +kernel⟩⟩

theorem witness_HostEventsAdd :
    (∃ (fn x : Fin 16) (v : Nat) (s : State), (fn = 0 ∨ fn = x) ∧ (s.ready = true) ∧ (s.get (Obj.ctxState x) ≠ 0)) :=
  ⟨1, 1, 0xFFFFFFFFFFFFFFFF, st [], by decide +kernel, by decide +kernel, by decide +kernel⟩

theorem witness_DoorbellsRefused :
    (∃ (fn x : Fin 16) (q : Fin 5) (width v : Nat) (s : State), (fn = 0 ∨ fn = x) ∧ (s.ready = true) ∧ ((width ≠ 32 ∨ s.get (Obj.ctxState x) = 0 ∨ s.q.committed.contains (x.val, q.val) = false ∨ 2 ^ s.get (Obj.sqLog2 x q) < sub32 (v % 2 ^ 32) (s.get (Obj.sqTail x q)) ∨ 2 ^ s.get (Obj.sqLog2 x q) < sub32 (v % 2 ^ 32) (s.get (Obj.sqHead x q))))) ∧
    (∃ (fn x : Fin 16) (q : Fin 5) (width v : Nat) (s : State), (fn ≠ 0) ∧ (fn ≠ x)) ∧
    (∃ (fn x : Fin 16) (q : Fin 5) (width v : Nat) (s : State), (fn ≠ 0) ∧ (fn ≠ x)) ∧
    (∃ (fn x : Fin 16) (q : Fin 5) (width v : Nat) (s : State), (fn ≠ 0) ∧ (fn ≠ x)) :=
  ⟨⟨1, 1, 2, 32, 18, (withQ (st [(Obj.sqTail 1 2, 1), (Obj.cqTail 1 2, 2), (Obj.sqLog2 1 2, 4), (Obj.qState 1 2, 1)]) (fun q => { q with committed := [(1, 2)] })), by decide +kernel, by decide +kernel, by decide +kernel⟩,
   ⟨2, 1, 2, 32, 1, st [], by decide +kernel, by decide +kernel⟩,
   ⟨2, 1, 2, 32, 1, st [], by decide +kernel, by decide +kernel⟩,
   ⟨2, 1, 2, 32, 1, st [], by decide +kernel, by decide +kernel⟩⟩

theorem witness_QueuesAreControlled_QueueControl :
    (∃ (wr : Writer) (x : Fin 16) (q : Fin 5) (s : State), (s.takes wr (.own x) (Obj.qCtrl x q)) ∧ (s.get (Obj.ctxState x) ≠ 3) ∧ (s.get (Obj.qState x q) = 0)) ∧
    (∃ (wr : Writer) (x : Fin 16) (q : Fin 5) (s : State), (s.takes wr (.own x) (Obj.qCtrl x q)) ∧ (s.get (Obj.ctxState x) ≠ 3) ∧ (s.get (Obj.qState x q) = 1)) ∧
    (∃ (wr : Writer) (x : Fin 16) (q : Fin 5) (s : State), (s.takes wr (.own x) (Obj.qCtrl x q)) ∧ (s.get (Obj.ctxState x) ≠ 3) ∧ (s.get (Obj.qState x q) = 2)) ∧
    (∃ (wr : Writer) (x : Fin 16) (q : Fin 5) (s : State), (s.takes wr (.own x) (Obj.qCtrl x q)) ∧ (s.get (Obj.ctxState x) ≠ 3) ∧ (s.get (Obj.qState x q) ≠ 1) ∧ (s.curPat? x q = none) ∧ (s.q.flushing.contains (x.val, q.val) = false) ∧ ((opQFlush wr x q s.work).Sound) ∧ (s.get (Obj.qState x q) ≤ 2)) ∧
    (∃ (wr : Writer) (x : Fin 16) (q : Fin 5) (s : State), (s.takes wr (.own x) (Obj.qCtrl x q)) ∧ (s.get (Obj.qState x q) ≠ 0)) :=
  ⟨⟨.fn 1, 1, 4, st [(Obj.qState 1 4, 0)], ⟨by decide +kernel, by decide +kernel⟩, by decide +kernel, by decide +kernel⟩,
   ⟨.fn 0, 1, 4, st [(Obj.qState 1 4, 1)], ⟨by decide +kernel, by decide +kernel⟩, by decide +kernel, by decide +kernel⟩,
   ⟨.fw, 15, 0, st [(Obj.qState 15 0, 2)], ⟨by decide +kernel, by decide +kernel⟩, by decide +kernel, by decide +kernel⟩,
   ⟨.fn 1, 1, 2, st [(Obj.qState 1 2, 0), (Obj.sqTail 1 2, 3)], ⟨by decide +kernel, by decide +kernel⟩, by decide +kernel, by decide +kernel, by decide +kernel, by decide +kernel, sound_of _ (by decide +kernel), by decide +kernel⟩,
   ⟨.fn 1, 1, 2, st [(Obj.qState 1 2, 1)], ⟨by decide +kernel, by decide +kernel⟩, by decide +kernel⟩⟩

theorem witness_QueuesAreControlled_RingCommit :
    (∃ (wr : Writer) (x : Fin 16) (q : Fin 5) (s : State), (s.takes wr (.own x) (Obj.qCommit x q)) ∧ (s.get (Obj.qCommit x q) ≠ 1)) ∧
    (∃ (x : Fin 16) (q : Fin 5) (s : State), (s.get (Obj.qCommit x q) = 1) ∧ (s.inflight x q = 0) ∧ (s.q.pats.any (fun p => p.ctx == x.val && p.q == q.val) = false) ∧ (s.q.owed.any (fun o => o.ctx == x.val && o.q == q.val) = false) ∧ ((s.get (Obj.qState x q) = 0 ∨ s.get (Obj.qState x q) = 1 ∧ s.get (Obj.sqHead x q) = s.get (Obj.sqTail x q)))) :=
  ⟨⟨.fn 1, 1, 2, st [], ⟨by decide +kernel, by decide +kernel⟩, by decide +kernel⟩,
   ⟨1, 2, st [(Obj.qCommit 1 2, 1), (Obj.qState 1 2, 1), (Obj.sqHead 1 2, 5), (Obj.sqTail 1 2, 5)], by decide +kernel, by decide +kernel, by decide +kernel, by decide +kernel, by decide +kernel⟩⟩

theorem witness_ContextControl :
    (∃ (wr : Writer) (x : Fin 16) (s : State), (s.takes wr (.own x) (Obj.ctxCtrl x)) ∧ (s.q.disabling.contains x.val = false) ∧ (s.get (Obj.ctxState x) = 0) ∧ ((opCtxEnable wr x s.work).Sound)) ∧
    (∃ (wr : Writer) (x : Fin 16) (s : State), (s.takes wr (.own x) (Obj.ctxCtrl x)) ∧ (s.q.disabling.contains x.val = false) ∧ (s.get (Obj.ctxState x) = 2)) ∧
    (∃ (wr : Writer) (x : Fin 16) (s : State), (s.takes wr (.own x) (Obj.ctxCtrl x)) ∧ (s.q.disabling.contains x.val = false) ∧ (x ≠ 0) ∧ (s.get (Obj.ctxState x) = 1 ∨ s.get (Obj.ctxState x) = 2) ∧ ((opCtxDisable wr x s.work).Sound)) ∧
    (∃ (x : Fin 16) (s : State), (s.get (Obj.ctxState x) ≠ 3) ∧ (s.q.disabling.contains x.val = true) ∧ (s.q.cmds.any (fun c => c.ctx == x.val) = false) ∧ (s.bob.streams.any (fun t => t.ctx == x.val && t.cap.isSome) = false) ∧ ((opCtxDisableDone x s.work).Sound)) ∧
    (∃ (wr : Writer) (x : Fin 16) (s : State), (s.takes wr (.own x) (Obj.ctxCommit x))) :=
  ⟨⟨.fn 2, 2, st [], ⟨by decide +kernel, by decide +kernel⟩, by decide +kernel, by decide +kernel, sound_of _ (by decide +kernel)⟩,
   ⟨.fn 2, 2, st [(Obj.ctxState 2, 2)], ⟨by decide +kernel, by decide +kernel⟩, by decide +kernel, by decide +kernel⟩,
   ⟨.fn 1, 1, st [], ⟨by decide +kernel, by decide +kernel⟩, by decide +kernel, by decide +kernel, by decide +kernel, sound_of _ (by decide +kernel)⟩,
   ⟨1, withQ (st []) (fun q => { q with disabling := [1] }), by decide +kernel, by decide +kernel, by decide +kernel, by decide +kernel, sound_of _ (by decide +kernel)⟩,
   ⟨.fn 1, 1, st [], ⟨by decide +kernel, by decide +kernel⟩⟩⟩

theorem witness_PatternsAndCommandsRun_PatternsAndCommandsStart :
    (∃ (x : Fin 16) (q : Fin 5) (d : Nat) (s : State), (s.admitDue x q = true) ∧ (s.paused x = false) ∧ (s.work.sqDesc x q = .ok d) ∧ (s.lapsed (pDeadline d) = false) ∧ (pNcmd d ≠ 0)) ∧
    (∃ (x : Fin 16) (q : Fin 5) (p : Pattern) (s : State), (s.curPat? x q = some p) ∧ (s.startOk p = true) ∧ (p.bad = none) ∧ (p.released = true ∨ cWait p.head = false)) ∧
    (∃ (x : Fin 16) (q : Fin 5) (d : Nat) (s : State), (s.admitDue x q = true) ∧ (s.paused x = true) ∧ (s.work.sqDesc x q = .ok d) ∧ (s.lapsed (pDeadline d) = true) ∧ ((opAdmitPauseTick x q s.work).Sound)) :=
  ⟨⟨1, 2, 0x1000000000000, fetchState 0x1000000000000 [], by decide +kernel, by decide +kernel, ok_of _ _ (by decide +kernel), by decide +kernel, by decide +kernel⟩,
   ⟨1, 4, pat 7 1 4 0, withQ (st [(Obj.cqLog2 1 4, 4), (Obj.qState 1 4, 1)]) (fun q => { q with pats := [pat 7 1 4 0] }), by decide +kernel, by decide +kernel, by decide +kernel, by decide +kernel⟩,
   ⟨1, 2, 0x1000000000001000000000000, fetchState 0x1000000000001000000000000 [(Obj.admitPause, 1), (Obj.modelBind 1, 1)], by decide +kernel, by decide +kernel, ok_of _ _ (by decide +kernel), by decide +kernel, sound_of _ (by decide +kernel)⟩⟩

theorem witness_PatternsAndCommandsRun_CommandsComplete :
    (∃ (id : Nat) (c : Cmd) (d : Done) (s : State), (s.cmd? id = some c) ∧ (c.done = some d) ∧ (cOpcode c.raw ≠ 0x22) ∧ (s.get (Obj.ctxState c.ctx) ≠ 3) ∧ ((opCommandComplete id s.work).Sound)) :=
  ⟨3, { cmd 3 1 4 0 with done := some ⟨0, 0, 0, 0, 0⟩ }, ⟨0, 0, 0, 0, 0⟩, one [] { cmd 3 1 4 0 with done := some ⟨0, 0, 0, 0, 0⟩ }, by decide +kernel, by decide +kernel, by decide +kernel, by decide +kernel, sound_of _ (by decide +kernel)⟩

theorem witness_ControlCommandsEnd_ControlCommands :
    (∃ (id : Nat) (c : Cmd) (s : State), (s.running id 0x00 = some c)) ∧
    (∃ (id : Nat) (c : Cmd) (s : State), (s.control id 0x01 = some c)) ∧
    (∃ (id : Nat) (c : Cmd) (s : State), (s.control id 0x02 = some c) ∧ (c.released = true ∨ kValue c.raw ≤ s.evt c.ctx (kEvt c.raw))) ∧
    (∃ (id : Nat) (c : Cmd) (s : State), (s.control id 0x02 = some c) ∧ (c.released = false) ∧ (s.evt c.ctx (kEvt c.raw) < kValue c.raw)) ∧
    (∃ (id : Nat) (c : Cmd) (s : State), (s.control id 0x03 = some c) ∧ ((∀ p ∈ c.fence, s.postedTo c.ctx p.1 p.2 = true))) ∧
    (∃ (id : Nat) (c : Cmd) (s : State), (s.control id 0x04 = some c)) ∧
    (∃ (id : Nat) (c : Cmd) (s : State), (s.control id 0x06 = some c)) :=
  ⟨⟨3, cmd 3 1 4 0, one [] (cmd 3 1 4 0), by decide +kernel⟩,
   ⟨3, cmd 3 1 4 31385508676933403905950950680877640263672302117421066485761, one [] (cmd 3 1 4 31385508676933403905950950680877640263672302117421066485761), by decide +kernel⟩,
   ⟨3, cmd 3 1 4 2, one [] (cmd 3 1 4 2), by decide +kernel, by decide +kernel⟩,
   ⟨3, cmd 3 1 4 31385508676933403905950950680877640263672302117421066485762, one [] (cmd 3 1 4 31385508676933403905950950680877640263672302117421066485762), by decide +kernel, by decide +kernel, by decide +kernel⟩,
   ⟨3, cmd 3 1 4 3, one [] (cmd 3 1 4 3), by decide +kernel, by decide +kernel⟩,
   ⟨3, cmd 3 1 4 6277101735386680764638515526774160251412456143395575723720708, one [] (cmd 3 1 4 6277101735386680764638515526774160251412456143395575723720708), by decide +kernel⟩,
   ⟨3, cmd 3 1 4 6, one [] (cmd 3 1 4 6), by decide +kernel⟩⟩

theorem witness_ControlCommandsEnd_WriteImmStores :
    (∃ (id a : Nat) (c : Cmd) (s : State), (s.control id 0x05 = some c) ∧ (s.xlate c.ctx c.segs (kAddr c.raw) 8 .write = .ok a) ∧ (mapped a 8 = true)) ∧
    (∃ (id st d : Nat) (c : Cmd) (s : State), (s.control id 0x05 = some c) ∧ (s.xlate c.ctx c.segs (kAddr c.raw) 8 .write = .error (st, d))) :=
  ⟨⟨3, 0x6BFFFFFFF8, cmd 3 1 4 7749745057451750591901162661835976927491110755785796004143107408624827236357, one [] (cmd 3 1 4 7749745057451750591901162661835976927491110755785796004143107408624827236357), by decide +kernel, ok_of _ _ (by decide +kernel), by decide +kernel⟩,
   ⟨3, 0x0212, 63, cmd 3 1 4 95780971304115331388461321689186616979311740990783493, one [] (cmd 3 1 4 95780971304115331388461321689186616979311740990783493), by decide +kernel, err_of _ _ (by decide +kernel)⟩⟩

theorem witness_StepMarksAndTimers_StepMarkCounts :
    (∃ (id : Nat) (c : Cmd) (s : State), (s.control id 0x07 = some c) ∧ (c.ctx < 16) ∧ ((∀ q, q < 4 → s.inflight c.ctx q = 0)) ∧ ((s.work.mirApply c.ctx).mirrors c.ctx = false) ∧ ((opStepMark id s.work).Sound)) :=
  ⟨3, cmd 3 1 4 7, one [] (cmd 3 1 4 7), by decide +kernel, by decide +kernel, by decide +kernel, by decide +kernel, sound_of _ (by decide +kernel)⟩

theorem witness_StepMarksAndTimers_TimeoutsAndTimers :
    (∃ (x : Fin 16) (c : Cmd) (s : State), (s.q.cmds.find? (fun c => c.ctx == x.val && c.q == 4 && true && c.done.isNone && (cOpcode c.raw == 0x02 || cOpcode c.raw == 0x03)) = some c) ∧ (cOpcode c.raw = 0x02) ∧ (c.released = false) ∧ ((∀ e ∈ s.q.cmds, e.id = c.id → e = c)) ∧ ((if kTimeout c.raw = 0 then s.get (Obj.waitTmo x) * 1000 else kTimeout c.raw * 1000) < s.since c.since)) ∧
    (∃ (x : Fin 16) (c : Cmd) (s : State), (s.q.cmds.find? (fun c => c.ctx == x.val && c.q == 4 && cOpcode c.raw == 0x07 && c.done.isNone && !c.begun) = some c) ∧ ((∀ e ∈ s.q.cmds, e.id = c.id → e = c)) ∧ ((∃ q, q < 4 ∧ s.inflight x q ≠ 0)) ∧ (s.get (Obj.waitTmo x) * 1000 ≤ s.since c.start)) ∧
    (∃ (x : Fin 16) (n : Fin 8) (u : Timer) (s : State), (s.q.timers.find? (fun u => u.ctx == x.val && u.i == n.val) = some u) ∧ (u.due ≤ s.time)) :=
  ⟨⟨1, cmd 3 1 4 31385508676933403819178947116038332080511777222320172564482, one [] (cmd 3 1 4 31385508676933403819178947116038332080511777222320172564482), by decide +kernel, by decide +kernel, by decide +kernel, by decide +kernel, by decide +kernel⟩,
   ⟨1, cmd 3 1 4 7, withQ (st []) (fun q => { q with cmds := [cmd 2 1 0 16, cmd 3 1 4 7] }), by decide +kernel, by decide +kernel, by decide +kernel, by decide +kernel⟩,
   ⟨1, 7, ⟨1, 7, 255, 10000000000000000, 0⟩, withQ (st []) (fun q => { q with timers := [⟨1, 7, 255, 10000000000000000, 0⟩] }), by decide +kernel, by decide +kernel⟩⟩

theorem witness_SegmentTables :
    (∃ (wr : Writer) (x : Fin 16) (off : Nat) (data : List Byte) (s : State), (s.takes wr (.privCtx x) (Obj.segTable x))) ∧
    (∃ (wr : Writer) (x : Fin 16) (s : State), (s.takes wr (.privCtx x) (Obj.segCommit x)) ∧ (s.get (Obj.segCommit x) = 0)) ∧
    (∃ (x : Fin 16) (s : State), (s.get (Obj.segCommit x) = 1) ∧ (s.segsTaken x = true) ∧ (s.spilling x = false)) ∧
    (∃ (wr : Writer) (x : Fin 16) (v : Nat) (s : State), (s.takes wr .host (Obj.priv x))) :=
  ⟨⟨.fn 0, 1, 1008, List.replicate 16 255#8, st [], ⟨by decide +kernel, by decide +kernel⟩⟩,
   ⟨.fn 0, 1, st [], ⟨by decide +kernel, by decide +kernel⟩, by decide +kernel⟩,
   ⟨1, st [(Obj.segCommit 1, 1)], by decide +kernel, by decide +kernel, by decide +kernel⟩,
   ⟨.fn 0, 2, 1, st [], ⟨by decide +kernel, by decide +kernel⟩⟩⟩

theorem witness_CopyMovesBytes :
    (∃ (id st d : Nat) (c : Cmd) (s : State), (s.running id 0x20 = some c) ∧ (s.copyAddrs (s.copyJob c) = .error (st, d))) ∧
    (∃ (id : Nat) (c : Cmd) (a : CopyAddrs) (s : State), (s.running id 0x20 = some c) ∧ (s.copyAddrs (s.copyJob c) = .ok a) ∧ ((opCopy id s.work).Sound)) ∧
    (∃ (id : Nat) (c : Cmd) (a : CopyAddrs) (s : State), (s.running id 0x20 = some c) ∧ (s.copyAddrs (s.copyJob c) = .ok a) ∧ (cSrcFmt (bConv c.raw) = .raw) ∧ (bRows c.raw = 1) ∧ (mapped (a.dst.getD 0 0) (bCount c.raw) = true)) :=
  ⟨⟨3, 0x0212, 1, cmd 3 1 1 39402006563354258315367176117707028064144184871151634158563711042419893421622804842156339847154711000840302936195104, one [] (cmd 3 1 1 39402006563354258315367176117707028064144184871151634158563711042419893421622804842156339847154711000840302936195104), by decide +kernel, err_of _ _ (by decide +kernel)⟩,
   ⟨3, cmd 3 1 1 39402006563354258315367176117707028064144184871151634158563711040923315746389756828823930524799219580753150606311456, ⟨[0x1000], [0x2000], 0, 0⟩, { one [] (cmd 3 1 1 39402006563354258315367176117707028064144184871151634158563711040923315746389756828823930524799219580753150606311456) with mem := (List.range 64).map (fun i => (0x1000 + i, BitVec.ofNat 8 (i + 1))) }, by decide +kernel, ok_of _ _ (by decide +kernel), sound_of _ (by decide +kernel)⟩,
   ⟨3, cmd 3 1 1 39402006563354258315367176117707028064144184871151634158563711040923315746389756828823930524799219580753150606311456, ⟨[0x1000], [0x2000], 0, 0⟩, { one [] (cmd 3 1 1 39402006563354258315367176117707028064144184871151634158563711040923315746389756828823930524799219580753150606311456) with mem := (List.range 64).map (fun i => (0x1000 + i, BitVec.ofNat 8 (i + 1))) }, by decide +kernel, ok_of _ _ (by decide +kernel), by decide +kernel, by decide +kernel, by decide +kernel⟩⟩

theorem witness_PrefetchBuffersFill_PrefetchAndCancel :
    (∃ (id : Nat) (c : Cmd) (s : State), ∃ e, (s.running id 0x21 = some c) ∧ (c.begun = false) ∧ (s.pfCheck (pfJob c) cmdBits 464 = some e)) ∧
    (∃ (id : Nat) (c : Cmd) (s : State), (s.running id 0x21 = some c) ∧ (c.begun = false) ∧ (s.pfCheck (pfJob c) cmdBits 464 = none)) ∧
    (∃ (id : Nat) (c : Cmd) (s : State), (s.running id 0x22 = some c) ∧ (c.begun = false) ∧ (64 ≤ bPbuf c.raw ∨ s.get (Obj.pbOwner (bPbuf c.raw)) ≠ c.ctx)) ∧
    (∃ (id : Nat) (c : Cmd) (s : State), (s.running id 0x22 = some c) ∧ (c.begun = false) ∧ (bPbuf c.raw < 64) ∧ (s.get (Obj.pbOwner (bPbuf c.raw)) = c.ctx) ∧ ((opCancel id s.work).Sound)) :=
  ⟨⟨3, cmd 3 1 1 3000948466032524270279550599048147268648473448849432930819315790834834583457011875658557575279756580347455709953289961431490576419564678021153, one [] (cmd 3 1 1 3000948466032524270279550599048147268648473448849432930819315790834834583457011875658557575279756580347455709953289961431490576419564678021153), (0x0211, 464), by decide +kernel, by decide +kernel, by decide +kernel⟩,
   ⟨3, cmd 3 1 1 3000948466032524270279550599048147268648473448849432930819315790834834583457011875658557575279756580347455709953289961431490576419564678021153, one [(Obj.pbOwner 63, 1), (Obj.pbBase 63, 0x4000), (Obj.pbNslot 63, 2), (Obj.pbSlotKib 63, 4), (Obj.pbFill 63, 0xFFFFFFFF), (Obj.pbGen 63, 255), (Obj.pbCreditsFree 63, 2), (Obj.pbRelEvt 63, 9)] (cmd 3 1 1 3000948466032524270279550599048147268648473448849432930819315790834834583457011875658557575279756580347455709953289961431490576419564678021153), by decide +kernel, by decide +kernel, by decide +kernel⟩,
   ⟨3, cmd 3 1 1 3048582568667961163458591044719888970457615373696260889510895468384152088691177363398736428772941378085768487423248655171335913749304966119458, one [(Obj.pbOwner 63, 1), (Obj.pbBase 63, 0x4000), (Obj.pbNslot 63, 2), (Obj.pbSlotKib 63, 4), (Obj.pbFill 63, 0xFFFFFFFF), (Obj.pbGen 63, 255), (Obj.pbCreditsFree 63, 2), (Obj.pbRelEvt 63, 9)] (cmd 3 1 1 3048582568667961163458591044719888970457615373696260889510895468384152088691177363398736428772941378085768487423248655171335913749304966119458), by decide +kernel, by decide +kernel, by decide +kernel⟩,
   ⟨3, cmd 3 1 1 3000948466032524270279550559646140705294215133482256813112287726690649712305377717095631172073364169053178354807260394934283790096972076023842, one [(Obj.pbOwner 63, 1), (Obj.pbBase 63, 0x4000), (Obj.pbNslot 63, 2), (Obj.pbSlotKib 63, 4), (Obj.pbFill 63, 0xFFFFFFFF), (Obj.pbGen 63, 255), (Obj.pbCreditsFree 63, 2), (Obj.pbRelEvt 63, 9)] (cmd 3 1 1 3000948466032524270279550559646140705294215133482256813112287726690649712305377717095631172073364169053178354807260394934283790096972076023842), by decide +kernel, by decide +kernel, by decide +kernel, by decide +kernel, sound_of _ (by decide +kernel)⟩⟩

theorem witness_PrefetchBuffersFill_LandedSectors :
    (∃ (id n k : Nat) (f : Fill) (c : Chunk) (s : State), (s.work.fill? id = some f) ∧ (f.chunks[n]? = some c) ∧ (c.issued = true) ∧ (k < c.sectors f.base) ∧ (c.landed.contains k = false) ∧ (f.buf.isSome = true) ∧ (s.get (Obj.pbGen (f.buf.getD 0)) = f.gen) ∧ (mapped (f.base + c.off + (c.piece f.base k).1) (c.piece f.base k).2 = true)) ∧
    (∃ (id n k : Nat) (f : Fill) (s : State), (s.work.fill? id = some f)) :=
  ⟨⟨5, 0, 1, (⟨5, some 3, none, 1, some 63, 0, 0, 0x4000, true, 0, [⟨0, 0x1010, 40, true, []⟩], false, 0, 0, 0⟩ : Fill), ⟨0, 0x1010, 40, true, []⟩, { one [(Obj.pbOwner 63, 1), (Obj.pbBase 63, 0x4000), (Obj.pbNslot 63, 2), (Obj.pbSlotKib 63, 4), (Obj.pbFill 63, 0xFFFFFFFF), (Obj.pbGen 63, 0), (Obj.pbCreditsFree 63, 2), (Obj.pbRelEvt 63, 9)] (cmd 3 1 1 3000948466032524270279550599048147268648473448849432930819315790834834583457011875658557575279756580347455709953289961431490576419564678021153) with bob := { BobbinState.reset with fills := [(⟨5, some 3, none, 1, some 63, 0, 0, 0x4000, true, 0, [⟨0, 0x1010, 40, true, []⟩], false, 0, 0, 0⟩ : Fill)] }, mem := (List.range 64).map (fun i => (0x1000 + i, BitVec.ofNat 8 (i + 1))) }, by decide +kernel, by decide +kernel, by decide +kernel, by decide +kernel, by decide +kernel, by decide +kernel, by decide +kernel, by decide +kernel⟩,
   ⟨5, 0, 1, (⟨5, some 3, none, 1, some 63, 0, 0, 0x4000, true, 0, [⟨0, 0x1010, 40, true, []⟩], false, 0, 0, 0⟩ : Fill), { one [(Obj.pbOwner 63, 1), (Obj.pbBase 63, 0x4000), (Obj.pbNslot 63, 2), (Obj.pbSlotKib 63, 4), (Obj.pbFill 63, 0xFFFFFFFF), (Obj.pbGen 63, 0), (Obj.pbCreditsFree 63, 2), (Obj.pbRelEvt 63, 9)] (cmd 3 1 1 3000948466032524270279550599048147268648473448849432930819315790834834583457011875658557575279756580347455709953289961431490576419564678021153) with bob := { BobbinState.reset with fills := [(⟨5, some 3, none, 1, some 63, 0, 0, 0x4000, true, 0, [⟨0, 0x1010, 40, true, []⟩], false, 0, 0, 0⟩ : Fill)] }, mem := (List.range 64).map (fun i => (0x1000 + i, BitVec.ofNat 8 (i + 1))) }, by decide +kernel⟩⟩

theorem witness_PrefetchBuffersFill_PrefetchWaitEnds :
    (∃ (id b : Nat) (f : Fill) (c : Cmd) (s : State), (s.bob.fills.find? (fun f => f.cmd == some id && !f.passed && !f.stopped) = some f) ∧ (f.buf = some b) ∧ (b < 64) ∧ (s.cmd? id = some c) ∧ (c.done = none) ∧ (s.get (Obj.waitTmo f.ctx) * 1000 < s.since f.since)) :=
  ⟨3, 63, (⟨5, some 3, none, 1, some 63, 0, 0, 0x4000, false, 0, [⟨0, 0x1010, 40, false, []⟩], false, 0, 0, 0⟩ : Fill), cmd 3 1 1 3000948466032524270279550599048147268648473448849432930819315790834834583457011875658557575279756580347455709953289961431490576419564678021153, { one [(Obj.pbOwner 63, 1), (Obj.pbBase 63, 0x4000), (Obj.pbNslot 63, 2), (Obj.pbSlotKib 63, 4), (Obj.pbFill 63, 0xFFFFFFFF), (Obj.pbGen 63, 0), (Obj.pbCreditsFree 63, 2), (Obj.pbRelEvt 63, 9)] (cmd 3 1 1 3000948466032524270279550599048147268648473448849432930819315790834834583457011875658557575279756580347455709953289961431490576419564678021153) with bob := { BobbinState.reset with fills := [(⟨5, some 3, none, 1, some 63, 0, 0, 0x4000, false, 0, [⟨0, 0x1010, 40, false, []⟩], false, 0, 0, 0⟩ : Fill)] } }, by decide +kernel, by decide +kernel, by decide +kernel, by decide +kernel, by decide +kernel, by decide +kernel⟩

theorem witness_PrefetchBuffersFill_PrefetchBufferCommit :
    (∃ (wr : Writer) (b : Fin 64) (s : State), (s.takes wr .priv (Obj.pbCommit b)) ∧ (s.get (Obj.pbCommit b) ≠ 1)) ∧
    (∃ (b : Fin 64) (s : State), (s.get (Obj.pbCommit b) = 1) ∧ (s.pbBusy b = false)) :=
  ⟨⟨.fn 0, 63, st [], ⟨by decide +kernel, by decide +kernel⟩, by decide +kernel⟩,
   ⟨63, { st [(Obj.pbCommit 63, 1)] with objP := [(Obj.pbOwner 63, 1), (Obj.pbBase 63, 0x020100000000), (Obj.pbNslot 63, 4), (Obj.pbSlotKib 63, 4)] }, by decide +kernel, by decide +kernel⟩⟩

theorem witness_StreamsAndPackRegions_StreamsRun :
    (∃ (wr : Writer) (x : Fin 16) (n : Fin 8) (s : State), (s.takes wr (.own x) (Obj.streamRearm x n)) ∧ (s.get (Obj.streamState x n) = 2)) ∧
    (∃ (wr : Writer) (x : Fin 16) (n : Fin 8) (s : State), (s.takes wr (.own x) (Obj.streamRearm x n)) ∧ (s.get (Obj.streamState x n) ≠ 2) ∧ (sKind (s.blobNat .active (Obj.streamShadow x n) 0 64) = 0)) ∧
    (∃ (x : Fin 16) (n : Fin 8) (r : Stream) (s : State), (s.stream? x n = some r) ∧ (s.get (Obj.streamState x n) = 1) ∧ (r.trig.isSome = true) ∧ (s.get (Obj.ctxState x) = 1) ∧ (s.spilling x = false) ∧ (s.instReset (s.streamInst x n (s.streamDesc x n)) = false)) ∧
    (∃ (x : Fin 16) (n : Fin 8) (r : Stream) (p : StreamCap) (f : Fill) (s : State), (s.stream? x n = some r) ∧ (r.cap = some p) ∧ (sKind (s.streamDesc x n) = 2) ∧ (s.bob.fills.find? (fun f => f.ctx == x.val && f.stream == some n.val) = some f) ∧ (f.chunks.all (fun c => c.whole f.base) = true) ∧ (f.stopped = false) ∧ (f.status = 0) ∧ (s.get (Obj.streamPending x n) = 0) ∧ ((opStreamXferDone x n s.work).Sound)) ∧
    (∃ (x : Fin 16) (n : Fin 8) (r : Stream) (t0 : Nat) (s : State), (s.stream? x n = some r) ∧ (r.trig = some t0) ∧ (sNeed (s.streamDesc x n) ≠ 0) ∧ (r.missed = false) ∧ (t0 + sNeed (s.streamDesc x n) ≤ s.time)) :=
  ⟨⟨.fn 1, 1, 7, st [(Obj.streamState 1 7, 2), (Obj.streamPending 1 7, 1)], ⟨by decide +kernel, by decide +kernel⟩, by decide +kernel⟩,
   ⟨.fn 1, 1, 7, st [(Obj.streamState 1 7, 4)], ⟨by decide +kernel, by decide +kernel⟩, by decide +kernel, by decide +kernel⟩,
   ⟨1, 7, ⟨1, 7, some 5, false, none⟩, { st [(Obj.streamState 1 7, 1)] with bob := { BobbinState.reset with streams := [⟨1, 7, some 5, false, none⟩] } }, by decide +kernel, by decide +kernel, by decide +kernel, by decide +kernel, by decide +kernel, by decide +kernel⟩,
   ⟨1, 7, ⟨1, 7, some 5, false, some ⟨[], 0, 0, 0, none, none⟩⟩, ⟨[], 0, 0, 0, none, none⟩, (⟨5, none, some 7, 1, some 63, 0, 0, 0x4000, true, 0, [⟨0, 0x1000, 32, true, [0]⟩], false, 0, 0, 0⟩ : Fill), { st [(Obj.streamState 1 7, 2), (Obj.streamXfer 1 7, 0xFFFFFFFF)] with blob := [(blobKey (Obj.streamActive 1 7) 0, 2), (blobKey (Obj.streamActive 1 7) 4, 200)], bob := { BobbinState.reset with fills := [(⟨5, none, some 7, 1, some 63, 0, 0, 0x4000, true, 0, [⟨0, 0x1000, 32, true, [0]⟩], false, 0, 0, 0⟩ : Fill)], streams := [⟨1, 7, some 5, false, some ⟨[], 0, 0, 0, none, none⟩⟩] } }, by decide +kernel, by decide +kernel, by decide +kernel, by decide +kernel, by decide +kernel, by decide +kernel, by decide +kernel, by decide +kernel, sound_of _ (by decide +kernel)⟩,
   ⟨1, 7, ⟨1, 7, some 9999999999999800, false, none⟩, 9999999999999800, { st [(Obj.streamState 1 7, 1)] with blob := [(blobKey (Obj.streamActive 1 7) 0, 2), (blobKey (Obj.streamActive 1 7) 4, 200)], bob := { BobbinState.reset with streams := [⟨1, 7, some 9999999999999800, false, none⟩] } }, by decide +kernel, by decide +kernel, by decide +kernel, by decide +kernel, by decide +kernel⟩⟩

theorem witness_StreamsAndPackRegions_PackRegions :
    (∃ (wr : Writer) (x : Fin 16) (r : Fin 4) (s : State), (s.takes wr (.own x) (Obj.packCommit x r))) :=
  ⟨.fn 1, 1, 3, { st [] with objS := [(Obj.packBase 1 3, 0x1000), (Obj.packS 1 3, 3)] }, ⟨by decide +kernel, by decide +kernel⟩⟩

theorem witness_SectorsAreCorrected :
    (∃ (r : Agent) (a : Nat) (p : ExtPlace) (s : State), (a % 32 = 0) ∧ (extPlace a = some p) ∧ (s.sectorErrs a = []) ∧ (s.ext.ue.contains a = false)) ∧
    (∃ (r : Agent) (a : Nat) (p : ExtPlace) (s : State), (a % 32 = 0) ∧ (extPlace a = some p) ∧ (s.sectorErrs a = []) ∧ (s.ext.ue.contains a = false)) ∧
    (∃ (r : Agent) (a : Nat) (p : ExtPlace) (flips : List (Nat × Nat)) (s : State), (a % 32 = 0) ∧ (extPlace a = some p) ∧ (s.ext.ue.contains a = true) ∧ ((opExtReadReturn r a flips s.work).Sound)) ∧
    (∃ (a : Nat) (p : ExtPlace) (flips v : List (Nat × Nat)) (s : State), (a % 32 = 0) ∧ (extPlace a = some p) ∧ ((s.work.decodeSector p a flips).1 = .fixed v)) ∧
    (∃ (a : Nat) (s : State), (0x020000000000 ≤ a) ∧ (a < 0x020800000000)) ∧
    (∃ (a : Nat) (s : State), (0x020000000000 ≤ a) ∧ (a < 0x020800000000)) ∧
    (∃ (a : Nat) (s : State), (0x020000000000 ≤ a) ∧ (a < 0x020800000000)) :=
  ⟨⟨.other, 0x01E37FFFFFE0, slowPlace 0x01E37FFFFFE0, st [], by decide +kernel, by decide +kernel, by decide +kernel, by decide +kernel⟩,
   ⟨.other, 0x01E37FFFFFE0, slowPlace 0x01E37FFFFFE0, st [], by decide +kernel, by decide +kernel, by decide +kernel, by decide +kernel⟩,
   ⟨.other, 32, fastPlace 32, [], { st [] with ext := { ExtState.reset with ue := [32] } }, by decide +kernel, by decide +kernel, by decide +kernel, sound_of _ (by decide +kernel)⟩,
   ⟨0, fastPlace 0, [(3, 0xFF)], [(3, 0xFF)], st [], by decide +kernel, by decide +kernel, by decide +kernel⟩,
   ⟨0x0207FFFFFFF8, st [], by decide +kernel, by decide +kernel⟩,
   ⟨0x0207FFFFFFF8, st [], by decide +kernel, by decide +kernel⟩,
   ⟨0x0207FFFFFFF8, st [], by decide +kernel, by decide +kernel⟩⟩

theorem witness_CouchingBuffers_CouchedWrites :
    (∃ (x : Fin 16) (a ctl : Nat) (d : List Byte) (s : State), (0 < d.length) ∧ (d.length ≤ 128 - a % 128) ∧ (mapped a d.length = true) ∧ (controllerOf a = some ctl) ∧ (s.couch? ctl (a / 128) = none) ∧ (a % 128 % codewordBytes ctl ≠ 0) ∧ ((s.ext.couch.filter (fun e => e.ctl == ctl)).length < couchSize ctl)) ∧
    (∃ (x : Fin 16) (a ctl : Nat) (d : List Byte) (s : State), (d.length ≤ 128 - a % 128) ∧ (controllerOf a = some ctl) ∧ (s.couch? ctl (a / 128) = none) ∧ (a % 128 % codewordBytes ctl ≠ 0) ∧ (couchSize ctl ≤ (s.ext.couch.filter (fun e => e.ctl == ctl)).length)) ∧
    (∃ (x : Fin 16) (a : Nat) (d : List Byte) (s : State), (0 < d.length) ∧ (d.length ≤ 128 - a % 128) ∧ (mapped a d.length = true) ∧ (controllerOf a = none)) :=
  ⟨⟨1, 0x1004, 2 + (fastPlace 0x1004).part, [1#8, 2#8], st [], by decide +kernel, by decide +kernel, by decide +kernel, by decide +kernel, by decide +kernel, by decide +kernel, by decide +kernel⟩,
   ⟨1, 0x1004, 2 + (fastPlace 0x1004).part, [1#8, 2#8], { st [] with ext := { ExtState.reset with couch := ((List.range 512).map (fun i => (⟨2 + (fastPlace 0x1004).part, 1000 + i, 1, [], [], 0, 0, 0⟩ : Couch))) } }, by decide +kernel, by decide +kernel, by decide +kernel, by decide +kernel, by decide +kernel⟩,
   ⟨1, 0x021000000004, [1#8, 2#8], st [], by decide +kernel, by decide +kernel, by decide +kernel, by decide +kernel⟩⟩

theorem witness_CouchingBuffers_CouchedLinesRetire :
    (∃ (ctl : Fin 22) (line : Nat) (bad : List Nat) (rst : Bool) (e : Couch) (s : State), (s.couch? ctl line = some e) ∧ (e.valid = 2 ^ 128 - 1)) ∧
    (∃ (ctl : Fin 22) (line : Nat) (bad : List Nat) (e : Couch) (s : State), (s.couch? ctl line = some e) ∧ (e.valid ≠ 2 ^ 128 - 1) ∧ (s.since e.time < e.hold) ∧ (s.ext.draining.contains ctl.val = false)) :=
  ⟨⟨21, 9, [0, 1], false, (⟨21, 9, 2 ^ 128 - 1, List.replicate 128 1#8, [], 1, 0, 0⟩ : Couch), { st [] with ext := { ExtState.reset with couch := [(⟨21, 9, 2 ^ 128 - 1, List.replicate 128 1#8, [], 1, 0, 0⟩ : Couch)] } }, by decide +kernel, by decide +kernel⟩,
   ⟨21, 9, [0], (⟨21, 9, 1, List.replicate 128 1#8, [], 1, 9999999999999999, 500⟩ : Couch), { st [] with ext := { ExtState.reset with couch := [(⟨21, 9, 1, List.replicate 128 1#8, [], 1, 9999999999999999, 500⟩ : Couch)] } }, by decide +kernel, by decide +kernel, by decide +kernel, by decide +kernel⟩⟩

theorem witness_RegulatorsMeter :
    (∃ (x : Fin 16) (k : Fin 3) (h : Fin 2) (n : Nat) (tb : Bool) (s : State), (s.regHolds (s.refill (s.reg x k h)) tb = false)) ∧
    (∃ (x : Fin 16) (k : Fin 3) (h : Fin 2) (n : Nat) (tb : Bool) (s : State), (s.regHolds (s.refill (s.reg x k h)) tb = true)) ∧
    (∃ (x : Fin 16) (k : Fin 3) (h : Fin 2) (n since : Nat) (rest : List (Nat × Nat)) (s : State), ((s.reg x k h).held = (n, since) :: rest) ∧ (s.regHolds (s.refill (s.reg x k h)) false = false)) ∧
    (∃ (s : State), (10000 ≤ s.since s.ext.shareAt)) :=
  ⟨⟨15, 2, 1, 33, false, st [], by decide +kernel⟩,
   ⟨15, 2, 1, 33, false, { st [(Obj.capMbps 15 2, 100)] with ext := { ExtState.reset with regs := [(⟨15, 2, 1, ⟨-5, 1⟩, ⟨-5, 1⟩, 10000000000000000, ⟨1, 2⟩, 0, [(32, 7)]⟩ : Reg)] } }, by decide +kernel⟩,
   ⟨15, 2, 1, 32, 7, [], { st [(Obj.capMbps 15 2, 100)] with ext := { ExtState.reset with regs := [(⟨15, 2, 1, ⟨-5, 1⟩, ⟨-5, 1⟩, 0, ⟨1, 2⟩, 0, [(32, 7)]⟩ : Reg)] } }, by decide +kernel, by decide +kernel⟩,
   ⟨st [], by decide +kernel⟩⟩

theorem witness_SegmentsSpill_SpillsStart :
    (∃ (wr : Writer) (s : State), (s.takes wr .priv Obj.spillPoolCommit) ∧ (s.ext.pool = []) ∧ (inSlow (s.getS Obj.spillPoolBase) (s.getS Obj.spillPoolLen) = true) ∧ (s.getS Obj.spillPoolBase < 0x01E380000000)) ∧
    (∃ (wr : Writer) (x : Fin 16) (v : Nat) (s : State), ∃ r, (s.takes wr (.privCtx x) (Obj.spillReq x)) ∧ (v < 64) ∧ (s.spillRefusal x v = some r)) ∧
    (∃ (wr : Writer) (x : Fin 16) (v : Nat) (s : State), (s.takes wr (.privCtx x) (Obj.spillReq x)) ∧ (v < 64) ∧ (s.spillRefusal x v = none) ∧ ((opSpillReq wr x v s.work).Sound)) ∧
    (∃ (wr : Writer) (x : Fin 16) (v : Nat) (s : State), ∃ r, (s.takes wr (.privCtx x) (Obj.fillReq x)) ∧ (v < 64) ∧ (s.fillRefusal x v = some r)) ∧
    (∃ (wr : Writer) (x : Fin 16) (v : Nat) (s : State), (s.takes wr (.privCtx x) (Obj.fillReq x)) ∧ (v < 64) ∧ (s.fillRefusal x v = none) ∧ ((opFillReq wr x v s.work).Sound)) :=
  ⟨⟨.fn 0, { st [] with objS := [(Obj.spillPoolBase, 0x01E37FFF0000), (Obj.spillPoolLen, 0x10000)] }, ⟨by decide +kernel, by decide +kernel⟩, by decide +kernel, by decide +kernel, by decide +kernel⟩,
   ⟨.fn 0, 1, 63, st [], 3, ⟨by decide +kernel, by decide +kernel⟩, by decide +kernel, by decide +kernel⟩,
   ⟨.fn 0, 1, 0, { st [(Obj.ctxClass 1, 1), (Obj.spillPoolBase, 0x010000000000), (Obj.spillPoolLen, 0x100000), (Obj.spillPoolFree, 0x100000), (Obj.spilledSegs 1, 0), (Obj.fillBase 1, 0x100000)] with blob := ((upto 16).map (fun i => (blobKey (Obj.segTable 1) i, bits (1 + 2 + 4 + (0x10 * 2 ^ 12) + 0x1F * 2 ^ 76) (8 * i) 8))) }, ⟨by decide +kernel, by decide +kernel⟩, by decide +kernel, by decide +kernel, sound_of _ (by decide +kernel)⟩,
   ⟨.fn 0, 1, 63, st [], 3, ⟨by decide +kernel, by decide +kernel⟩, by decide +kernel, by decide +kernel⟩,
   ⟨.fn 0, 1, 0, { st [(Obj.ctxClass 1, 1), (Obj.spillPoolBase, 0x010000000000), (Obj.spillPoolLen, 0x100000), (Obj.spillPoolFree, 0x100000), (Obj.spilledSegs 1, 1), (Obj.fillBase 1, 0x100000)] with blob := ((upto 16).map (fun i => (blobKey (Obj.segTable 1) i, bits (1 + 2 + 4 + (0x10000000 * 2 ^ 12) + 0x1000000F * 2 ^ 76) (8 * i) 8))), ext := { ExtState.reset with pool := [⟨1, 0, 0x010000000000, 0x10000⟩] } }, ⟨by decide +kernel, by decide +kernel⟩, by decide +kernel, by decide +kernel, sound_of _ (by decide +kernel)⟩⟩

theorem witness_SegmentsSpill_SpillsEnd :
    (∃ (x : Fin 16) (p : Spill) (s : State), (s.ext.spills.find? (fun q => q.ctx == x.val && q.copying) = some p) ∧ (mapped p.dst p.len = true)) ∧
    (∃ (x : Fin 16) (p : Spill) (s : State), (s.ext.spills.find? (fun q => q.ctx == x.val && !q.copying) = some p) ∧ (s.get (Obj.waitTmo x) * 1000 < s.since p.start)) :=
  ⟨⟨1, (⟨1, 0, false, 0x1000, 0x010000000000, 16, true, 0⟩ : Spill), { st [] with ext := { ExtState.reset with spills := [(⟨1, 0, false, 0x1000, 0x010000000000, 16, true, 0⟩ : Spill)], pool := [⟨1, 0, 0x010000000000, 0x10000⟩] }, mem := (List.range 64).map (fun i => (0x1000 + i, BitVec.ofNat 8 (i + 1))) }, by decide +kernel, by decide +kernel⟩,
   ⟨1, (⟨1, 0, false, 0x1000, 0x010000000000, 16, false, 0⟩ : Spill), { st [] with ext := { ExtState.reset with spills := [(⟨1, 0, false, 0x1000, 0x010000000000, 16, false, 0⟩ : Spill)] } }, by decide +kernel, by decide +kernel⟩⟩

theorem witness_MemoryPartsReport :
    (∃ (stackC pkgs : List Int) (s : State), (stackC.length = 12) ∧ (pkgs.length = 8)) ∧
    (∃ (h : Fin 4) (slow dead : List Nat) (lanes : List (Nat × Nat × Nat)) (r : Reset) (s : State), (s.memReset h 1 = none) ∧ (s.memReset h 2 = some r) ∧ (s.halfTraining h = true)) ∧
    (∃ (ctl : Fin 22) (parts : List Nat) (r : Reset) (s : State), (s.memReset (ctlDie ctl.val) 1 = some r) ∧ (100000 ≤ s.since r.memAt) ∧ ((opCouchDrainTimeout ctl parts s.work).Sound)) :=
  ⟨⟨[-40, 1, 2, 3, 4, 5, 6, 7, 8, 9, 10, 105], [-1, 0, 1, 2, 3, 4, 5, 85], st [], by decide +kernel, by decide +kernel⟩,
   ⟨3, [16], [19], [], (⟨4, 3, 8, 0, 0, 0, false, none, none, [], 2, 0, [], [], []⟩ : Reset), { st [(Obj.pkgState 4, 1), (Obj.pkgState 7, 1)] with rst := ⟨[(⟨4, 3, 8, 0, 0, 0, false, none, none, [], 2, 0, [], [], []⟩ : Reset)], [], 0, false⟩ }, by decide +kernel, by decide +kernel, by decide +kernel⟩,
   ⟨21, [19, 0], (⟨4, 3, 8, 0, 0, 0, false, none, none, [], 1, 0, [], [], []⟩ : Reset), { st [] with rst := ⟨[(⟨4, 3, 8, 0, 0, 0, false, none, none, [], 1, 0, [], [], []⟩ : Reset)], [], 0, false⟩, ext := { ExtState.reset with couch := [⟨21, 9, 1, List.replicate 128 1#8, [], 1, 0, 0⟩] } }, by decide +kernel, by decide +kernel, sound_of _ (by decide +kernel)⟩⟩

theorem witness_TilesRun_LaunchesRelease :
    (∃ (id : Nat) (c : Cmd) (s : State), ∃ ts, (s.running id 0x10 = some c) ∧ (c.begun = false) ∧ (s.launch? id = none) ∧ (s.work.releaseFrom c (tlTcount c.raw) 0 ⟨[], []⟩ 0 false = (ts, none)) ∧ (ts ≠ [])) ∧
    (∃ (id : Nat) (c : Cmd) (s : State), ∃ k st d, (s.running id 0x10 = some c) ∧ (c.begun = false) ∧ (s.launch? id = none) ∧ (s.work.releaseFrom c (tlTcount c.raw) 0 ⟨[], []⟩ 0 false = ([], some (k, st, d)))) :=
  ⟨⟨3, cmd 3 1 0 6277293297329290393739659124750006550732699827376901586960, { one [] (cmd 3 1 0 6277293297329290393739659124750006550732699827376901586960) with mem := bytesAt 0x1000 128 desc0 }, (({ one [] (cmd 3 1 0 6277293297329290393739659124750006550732699827376901586960) with mem := bytesAt 0x1000 128 desc0 }).work.releaseFrom (cmd 3 1 0 6277293297329290393739659124750006550732699827376901586960) 1 0 ⟨[], []⟩ 0 false).1, by decide +kernel, by decide +kernel, by decide +kernel, by decide +kernel, by decide +kernel⟩,
   ⟨3, cmd 3 1 0 6277293297329290393739659124750006550732699827376901586960, one [] (cmd 3 1 0 6277293297329290393739659124750006550732699827376901586960), 0, 0x0315, 0, by decide +kernel, by decide +kernel, by decide +kernel, by decide +kernel⟩⟩

theorem witness_TilesRun_CoresTakeTiles :
    (∃ (k : Fin 32) (a b : Bool) (l : Tile) (s : State), (s.Sound) ∧ (s.get (Obj.coreState k) = 0) ∧ (s.fencedCore k = false) ∧ (s.choose k = some (.tile l, false)) ∧ (s.firstIdle k (.tile l) = true) ∧ ((s.core k).spill = none)) ∧
    (∃ (k : Fin 32) (l : Tile) (h : Chain) (s : State), (s.Sound) ∧ (s.get (Obj.coreState k) = 1) ∧ ((s.core k).tile = some l) ∧ ((s.core k).chain = some h) ∧ ((opTileStart k none s.work).Sound)) ∧
    (∃ (k : Fin 32) (l : Tile) (h : Chain) (s : State), ∃ (a : Nat), (s.Sound) ∧ (s.get (Obj.coreState k) = 1) ∧ ((s.core k).tile = some l) ∧ ((s.core k).chain = some h)) :=
  ⟨⟨0, false, false, tile0, { st [] with sched := { SchedState.reset with launches := [⟨3, 1, [tile0], 0, none⟩] } }, by unfold State.Sound; decide +kernel, by decide +kernel, by decide +kernel, by decide +kernel, by decide +kernel, by decide +kernel⟩,
   ⟨31, tile0, chain0, { st [(Obj.coreState 31, 1)] with sched := coresWith { Core.reset 31 with tile := some tile0, chain := some chain0 } }, by unfold State.Sound; decide +kernel, by decide +kernel, by decide +kernel, by decide +kernel, sound_of _ (by decide +kernel)⟩,
   ⟨31, tile0, chain0, { st [(Obj.coreState 31, 1)] with sched := coresWith { Core.reset 31 with tile := some tile0, chain := some chain0 } }, 0x2000, by unfold State.Sound; decide +kernel, by decide +kernel, by decide +kernel, by decide +kernel⟩⟩

theorem witness_TilesRun_TilesEnd :
    (∃ (k : Fin 32) (y : Stalls) (flips : List (Nat × Nat)) (l : Tile) (h : Chain) (n : Nat) (s : State), (s.Sound) ∧ (s.get (Obj.coreState k) = 2) ∧ ((s.core k).tile = some l) ∧ ((s.core k).chain = some h) ∧ (n = (s.work.tileRun (s.core k) l h 64 (2 ^ 24) (2 ^ 24)).cycles (if feedLocal k l then { y with feed := 0 } else y)) ∧ (n ≤ 720) ∧ ((opTileEnd k y flips s.work).Sound)) ∧
    (∃ (k : Fin 32) (y : Stalls) (flips : List (Nat × Nat)) (l : Tile) (h : Chain) (n : Nat) (s : State), (s.Sound) ∧ (s.get (Obj.coreState k) = 2) ∧ ((s.core k).tile = some l) ∧ ((s.core k).chain = some h) ∧ (n = (s.work.tileRun (s.core k) l h 64 (2 ^ 24) (2 ^ 24)).cycles (if feedLocal k l then { y with feed := 0 } else y)) ∧ (720 < n)) ∧
    (∃ (k : Fin 32) (y : Stalls) (flips : List (Nat × Nat)) (l : Tile) (h : Chain) (n : Nat) (s : State), (s.Sound) ∧ (s.get (Obj.coreState k) = 2) ∧ ((s.core k).tile = some l) ∧ ((s.core k).chain = some h) ∧ (n = (s.work.tileRun (s.core k) l h 64 (2 ^ 24) (2 ^ 24)).cycles (if feedLocal k l then { y with feed := 0 } else y)) ∧ (720 < n)) ∧
    (∃ (id a : Nat) (d : List Nat) (o : OutStore) (s : State), (s.sched.stores.find? (fun o => o.id == id) = some o) ∧ (o.writes = [(a, d)]) ∧ (o.images = []) ∧ (mapped a d.length = true)) :=
  ⟨⟨31, ⟨0, 0, 0⟩, [], tile0, chain0, 1, { one [(Obj.coreState 31, 2)] (cmd 3 1 0 6277293297329290393739659124750006550732699827376901586960) with sched := coresWith { Core.reset 31 with tile := some tile0, chain := some chain0 } }, by unfold State.Sound; decide +kernel, by decide +kernel, by decide +kernel, by decide +kernel, by decide +kernel, by decide +kernel, sound_of _ (by decide +kernel)⟩,
   ⟨31, ⟨0, 0, 720⟩, [], tile0, chain0, 721, { one [(Obj.coreState 31, 2)] (cmd 3 1 0 6277293297329290393739659124750006550732699827376901586960) with sched := coresWith { Core.reset 31 with tile := some tile0, chain := some chain0 } }, by unfold State.Sound; decide +kernel, by decide +kernel, by decide +kernel, by decide +kernel, by decide +kernel, by decide +kernel⟩,
   ⟨31, ⟨0, 0, 721⟩, [], tile0, chain0, 722, { one [(Obj.coreState 31, 2)] (cmd 3 1 0 6277293297329290393739659124750006550732699827376901586960) with sched := coresWith { Core.reset 31 with tile := some tile0, chain := some chain0 } }, by unfold State.Sound; decide +kernel, by decide +kernel, by decide +kernel, by decide +kernel, by decide +kernel, by decide +kernel⟩,
   ⟨6, 0x3000, [1, 255], (⟨6, tile0, 31, [(0x3000, [1, 255])], [], 0⟩ : OutStore), { one [] (cmd 3 1 0 6277293297329290393739659124750006550732699827376901586960) with sched := { SchedState.reset with stores := [(⟨6, tile0, 31, [(0x3000, [1, 255])], [], 0⟩ : OutStore)], launches := [⟨3, 1, [], 1, none⟩] } }, by decide +kernel, by decide +kernel, by decide +kernel, by decide +kernel⟩⟩

theorem witness_CoresAreShared_SlicesPass :
    (∃ (be : Bool) (s : State), (s.owner (b2n be) ≠ 0xFF) ∧ ((if be then s.sched.lenBe else s.sched.lenLc) ≤ s.since (if be then s.sched.sinceBe else s.sched.sinceLc))) ∧
    (∃ (be : Bool) (s : State), (s.since (if be then s.sched.sinceBe else s.sched.sinceLc) < (if be then s.sched.lenBe else s.sched.lenLc))) :=
  ⟨⟨true, { st [(Obj.ctxClass 1, 1), (Obj.beOwner, 1)] with sched := { SchedState.reset with launches := [⟨3, 1, [{ tile0 with cls := 1 }], 0, none⟩] } }, by decide +kernel, by decide +kernel⟩,
   ⟨false, { st [] with sched := { SchedState.reset with sinceLc := 10000000000000000, lenLc := 5000000 } }, by decide +kernel⟩⟩

theorem witness_CoresAreShared_SectionsRun :
    (∃ (k : Fin 32) (id : Nat) (q : Section) (s : State), (s.get (Obj.coreState k) = 0) ∧ (s.fencedCore k = false) ∧ (s.choose k = some (.sect id, false)) ∧ (s.firstIdle k (.sect id) = true) ∧ (s.sched.sections.find? (fun q => q.id == id) = some q) ∧ ((opSectionGrant k s.work).Sound)) ∧
    (∃ (id k : Nat) (bad : List Nat) (q : Section) (s : State), (s.sched.sections.find? (fun q => q.id == id) = some q) ∧ (q.core = some k) ∧ (id < s.nextId) ∧ ((q.kind = 1 → s.batchOver q.ref = true)) ∧ ((opSectionEnd id bad s.work).Sound)) ∧
    (∃ (id k : Nat) (q : Section) (s : State), (s.sched.sections.find? (fun q => q.id == id) = some q) ∧ (q.core = some k) ∧ (q.kind ≠ 2) ∧ (q.overran = false) ∧ (s.work.sectionDue q ≤ s.time) ∧ ((∀ e, s.sectionOwner q = some e → s.instReset e = true))) :=
  ⟨⟨0, 5, (⟨5, 0, 3, 1, 0, 0, 8, 7, none, 0, false⟩ : Section), { one [] (cmd 3 1 3 64) with sched := { SchedState.reset with sections := [(⟨5, 0, 3, 1, 0, 0, 8, 7, none, 0, false⟩ : Section)] }, nextId := 9 }, by decide +kernel, by decide +kernel, by decide +kernel, by decide +kernel, by decide +kernel, sound_of _ (by decide +kernel)⟩,
   ⟨5, 0, [], (⟨5, 0, 3, 1, 0, 0, 8, 7, some 0, 0, false⟩ : Section), { one [(Obj.coreState 0, 3)] (cmd 3 1 3 64) with sched := { SchedState.reset with sections := [(⟨5, 0, 3, 1, 0, 0, 8, 7, some 0, 0, false⟩ : Section)] }, nextId := 9 }, by decide +kernel, by decide +kernel, by decide +kernel, by decide +kernel, sound_of _ (by decide +kernel)⟩,
   ⟨5, 0, (⟨5, 0, 3, 1, 0, 0, 8, 7, some 0, 0, false⟩ : Section), { st [(Obj.coreState 0, 3)] with sched := { SchedState.reset with sections := [(⟨5, 0, 3, 1, 0, 0, 8, 7, some 0, 0, false⟩ : Section)] }, nextId := 9 }, by decide +kernel, by decide +kernel, by decide +kernel, by decide +kernel, by decide +kernel, by decide +kernel⟩⟩

theorem witness_CoresAreShared_FencesTakeCores :
    (∃ (wr : Writer) (v : Nat) (s : State), (s.takes wr .host Obj.fenceSw) ∧ ((∀ k, k < 32 → s.get (Obj.coreState k) = 0 ∧ (s.core k).chain = none ∧ (s.core k).spill = none))) :=
  ⟨.fn 0, 0xFFFFFFFF, st [], ⟨by decide +kernel, by decide +kernel⟩, by decide +kernel⟩

theorem witness_PicotStarts :
    (∃ (i : Instr) (id op : Nat) (c : Cmd) (s : State), ∃ st d, ((i, op) ∈ [(.gather id, 0x30), (.scatterAdd id, 0x31)]) ∧ (s.running id op = some c) ∧ (c.begun = false) ∧ (s.picotRanges c = .error (st, d))) ∧
    (∃ (i : Instr) (id op : Nat) (c : Cmd) (s : State), ∃ ha ia oa st d, ((i, op) ∈ [(.gather id, 0x30), (.scatterAdd id, 0x31)]) ∧ (s.running id op = some c) ∧ (c.begun = false) ∧ (s.picotRanges c = .ok (ha, ia, oa)) ∧ (headerFault c.raw (s.work.readNat ha 64) = some (st, d))) ∧
    (∃ (i : Instr) (id op : Nat) (c : Cmd) (s : State), ∃ ha ia oa p, ((i, op) ∈ [(.gather id, 0x30), (.scatterAdd id, 0x31)]) ∧ (s.running id op = some c) ∧ (c.begun = false) ∧ (s.picotRanges c = .ok (ha, ia, oa)) ∧ (headerFault c.raw (s.work.readNat ha 64) = none) ∧ (gScatter c.raw = true) ∧ (cNpb c.raw ≠ 0) ∧ ((s.work.indices c ia).find? (fun q => decide (gNrows c.raw ≤ q.2)) = some p)) ∧
    (∃ (i : Instr) (id op : Nat) (c : Cmd) (s : State), ∃ ha ia oa, ((i, op) ∈ [(.gather id, 0x30), (.scatterAdd id, 0x31)]) ∧ (s.running id op = some c) ∧ (c.begun = false) ∧ (s.picotRanges c = .ok (ha, ia, oa)) ∧ (headerFault c.raw (s.work.readNat ha 64) = none)) :=
  ⟨⟨.gather 3, 3, 0x30, { cmd 3 1 1 286687326998889309253845607572642636161636748943870079541865356377675724228333207325688544380312463867952 with segs := [] }, one [] { cmd 3 1 1 286687326998889309253845607572642636161636748943870079541865356377675724228333207325688544380312463867952 with segs := [] }, 530, 0, by simp, by decide +kernel, by decide +kernel, err_of _ _ (by decide +kernel)⟩,
   ⟨.gather 3, 3, 0x30, cmd 3 1 1 286687326998889309253845607572642636161636748943870079541865356377675724228333207325688544380312463867952, one [] (cmd 3 1 1 286687326998889309253845607572642636161636748943870079541865356377675724228333207325688544380312463867952), 0xFC0, 0x2000, 0x3000, 0x0513, 0, by simp, by decide +kernel, by decide +kernel, ok_of _ _ (by decide +kernel), by decide +kernel⟩,
   ⟨.scatterAdd 3, 3, 0x31, cmd 3 1 1 286687326998889309253845607572642636161636748943870079541865356377675724228333207325688544380312463933489, { one [] (cmd 3 1 1 286687326998889309253845607572642636161636748943870079541865356377675724228333207325688544380312463933489) with mem := bytesAt 0xFC0 64 20769187434139310514121985316946151 ++ bytesAt 0x2000 4 9 }, 0xFC0, 0x2000, 0x3000, (0, 9), by simp, by decide +kernel, by decide +kernel, ok_of _ _ (by decide +kernel), by decide +kernel, by decide +kernel, by decide +kernel, by decide +kernel⟩,
   ⟨.gather 3, 3, 0x30, cmd 3 1 1 286687326998889309253845607572642636161636748943870079541865356377675724228333207325688544380312463867952, { one [] (cmd 3 1 1 286687326998889309253845607572642636161636748943870079541865356377675724228333207325688544380312463867952) with mem := bytesAt 0xFC0 64 20769187434139310514121985316946151 ++ bytesAt 0x2000 4 2 }, 0xFC0, 0x2000, 0x3000, by simp, by decide +kernel, by decide +kernel, ok_of _ _ (by decide +kernel), by decide +kernel⟩⟩

theorem witness_PicotRowsGoOn :
    (∃ (id p : Nat) (j : PicotJob) (r : PRow) (s : State), (s.picotJob? id = some j) ∧ (j.rows.find? (fun r => r.p == p) = some r) ∧ (r.state = 1) ∧ (s.rowLocked j r.addr = false) ∧ (j.kind ≠ 1) ∧ (j.ctx < 16)) ∧
    (∃ (id p : Nat) (res : ReadRes) (j : PicotJob) (c : Cmd) (r : PRow) (s : State), (s.picotJob? id = some j) ∧ (s.cmd? id = some c) ∧ (j.rows.find? (fun r => r.p == p) = some r) ∧ (r.state = 2) ∧ ((opPicotRowReturn id p res s.work).Sound)) ∧
    (∃ (id p : Nat) (res : ReadRes) (j : PicotJob) (c : Cmd) (r : PRow) (s : State), ∃ st d, (s.picotJob? id = some j) ∧ (s.cmd? id = some c) ∧ (j.rows.find? (fun r => r.p == p) = some r) ∧ (r.state = 2) ∧ (readFail r.addr res = some (st, d)) ∧ (j.kind ≠ 2) ∧ (c.done = none)) :=
  ⟨⟨3, 0, (⟨3, 1, 0, 0, 20769187434139310514121985316946151, 0x3000, 256, [⟨0, [0], 2, 4160, 0, 0, false, 1, 5⟩], [], [0], none, none, 0⟩ : PicotJob), ⟨0, [0], 2, 4160, 0, 0, false, 1, 5⟩, { one [] (cmd 3 1 1 286687326998889309253845607572642636161636748943870079541865356377675724228333207325688544380312463867952) with mem := bytesAt 0xFC0 64 20769187434139310514121985316946151 ++ bytesAt 0x2000 4 2, picot := ⟨[(⟨3, 1, 0, 0, 20769187434139310514121985316946151, 0x3000, 256, [⟨0, [0], 2, 4160, 0, 0, false, 1, 5⟩], [], [0], none, none, 0⟩ : PicotJob)], []⟩ }, by decide +kernel, by decide +kernel, by decide +kernel, by decide +kernel, by decide +kernel, by decide +kernel⟩,
   ⟨3, 0, .ok, (⟨3, 1, 0, 0, 20769187434139310514121985316946151, 0x3000, 256, [⟨0, [0], 2, 4160, 0, 0, false, 2, 5⟩], [], [0], none, none, 0⟩ : PicotJob), cmd 3 1 1 286687326998889309253845607572642636161636748943870079541865356377675724228333207325688544380312463867952, ⟨0, [0], 2, 4160, 0, 0, false, 2, 5⟩, { one [] (cmd 3 1 1 286687326998889309253845607572642636161636748943870079541865356377675724228333207325688544380312463867952) with mem := bytesAt 0xFC0 64 20769187434139310514121985316946151 ++ bytesAt 0x2000 4 2, picot := ⟨[(⟨3, 1, 0, 0, 20769187434139310514121985316946151, 0x3000, 256, [⟨0, [0], 2, 4160, 0, 0, false, 2, 5⟩], [], [0], none, none, 0⟩ : PicotJob)], []⟩ }, by decide +kernel, by decide +kernel, by decide +kernel, by decide +kernel, sound_of _ (by decide +kernel)⟩,
   ⟨3, 0, .parity 7, (⟨3, 1, 0, 0, 20769187434139310514121985316946151, 0x3000, 256, [⟨0, [0], 2, 4160, 0, 0, false, 2, 5⟩], [], [0], none, none, 0⟩ : PicotJob), cmd 3 1 1 286687326998889309253845607572642636161636748943870079541865356377675724228333207325688544380312463867952, ⟨0, [0], 2, 4160, 0, 0, false, 2, 5⟩, { one [] (cmd 3 1 1 286687326998889309253845607572642636161636748943870079541865356377675724228333207325688544380312463867952) with mem := bytesAt 0xFC0 64 20769187434139310514121985316946151 ++ bytesAt 0x2000 4 2, picot := ⟨[(⟨3, 1, 0, 0, 20769187434139310514121985316946151, 0x3000, 256, [⟨0, [0], 2, 4160, 0, 0, false, 2, 5⟩], [], [0], none, none, 0⟩ : PicotJob)], []⟩ }, 0x0B10, 7, by decide +kernel, by decide +kernel, by decide +kernel, by decide +kernel, by decide +kernel, by decide +kernel, by decide +kernel⟩⟩

theorem witness_CollectivesStart :
    (∃ (i : Instr) (id op : Nat) (c : Cmd) (s : State), ∃ st d, ((i, op) ∈ [(.allGather id, 0), (.reduceScatter id, 1), (.allReduce id, 2), (.paramGather id, 3), (.send id, 4), (.recv id, 5), (.allReduceC4 id, 6)]) ∧ (s.running id 0x40 = some c) ∧ (c.begun = false) ∧ (lOp c.raw = op) ∧ (s.xlate c.ctx c.segs (lCdesc c.raw) 64 .read = .error (st, d))) ∧
    (∃ (i : Instr) (id op : Nat) (c : Cmd) (s : State), ∃ a d, ∃ b, ((i, op) ∈ [(.allGather id, 0), (.reduceScatter id, 1), (.allReduce id, 2), (.paramGather id, 3), (.send id, 4), (.recv id, 5), (.allReduceC4 id, 6)]) ∧ (s.running id 0x40 = some c) ∧ (c.begun = false) ∧ (lOp c.raw = op) ∧ (s.xlate c.ctx c.segs (lCdesc c.raw) 64 .read = .ok a) ∧ (d = s.work.readNat a 64) ∧ (s.collFault c d = some b)) ∧
    (∃ (i : Instr) (id op : Nat) (c : Cmd) (s : State), ∃ a d, ∃ g, ((i, op) ∈ [(.allGather id, 0), (.reduceScatter id, 1), (.allReduce id, 2), (.paramGather id, 3), (.send id, 4), (.recv id, 5), (.allReduceC4 id, 6)]) ∧ (s.running id 0x40 = some c) ∧ (c.begun = false) ∧ (lOp c.raw = op) ∧ (s.xlate c.ctx c.segs (lCdesc c.raw) 64 .read = .ok a) ∧ (d = s.work.readNat a 64) ∧ (s.collFault c d = none) ∧ (s.groupFault c.ctx op d (lGroup c.raw) = some g)) ∧
    (∃ (i : Instr) (id op : Nat) (c : Cmd) (s : State), ∃ a d, ∃ rs, ∃ b, ((i, op) ∈ [(.allGather id, 0), (.reduceScatter id, 1), (.allReduce id, 2), (.paramGather id, 3), (.send id, 4), (.recv id, 5), (.allReduceC4 id, 6)]) ∧ (s.running id 0x40 = some c) ∧ (c.begun = false) ∧ (lOp c.raw = op) ∧ (s.xlate c.ctx c.segs (lCdesc c.raw) 64 .read = .ok a) ∧ (d = s.work.readNat a 64) ∧ (s.collFault c d = none) ∧ (s.groupFault c.ctx op d (lGroup c.raw) = none) ∧ ((op = 3 → s.groupFault c.ctx op d (cdInner d) = none)) ∧ (s.collRanges c d = .ok rs) ∧ (overlapFault op rs = some b)) ∧
    (∃ (i : Instr) (id op : Nat) (c : Cmd) (s : State), ∃ a d, ∃ rs, ((i, op) ∈ [(.allGather id, 0), (.reduceScatter id, 1), (.allReduce id, 2), (.paramGather id, 3), (.send id, 4), (.recv id, 5), (.allReduceC4 id, 6)]) ∧ (s.running id 0x40 = some c) ∧ (c.begun = false) ∧ (lOp c.raw = op) ∧ (s.xlate c.ctx c.segs (lCdesc c.raw) 64 .read = .ok a) ∧ (d = s.work.readNat a 64) ∧ (s.collFault c d = none) ∧ (s.groupFault c.ctx op d (lGroup c.raw) = none) ∧ ((op = 3 → s.groupFault c.ctx op d (cdInner d) = none)) ∧ (s.collRanges c d = .ok rs) ∧ (overlapFault op rs = none) ∧ (s.groupSt (lGroup c.raw) = 2)) ∧
    (∃ (i : Instr) (id op : Nat) (c : Cmd) (s : State), ∃ a d, ∃ rs, ((i, op) ∈ [(.allGather id, 0), (.reduceScatter id, 1), (.allReduce id, 2), (.paramGather id, 3), (.send id, 4), (.recv id, 5), (.allReduceC4 id, 6)]) ∧ (s.running id 0x40 = some c) ∧ (c.begun = false) ∧ (lOp c.raw = op) ∧ (s.xlate c.ctx c.segs (lCdesc c.raw) 64 .read = .ok a) ∧ (d = s.work.readNat a 64) ∧ (s.collFault c d = none) ∧ (s.groupFault c.ctx op d (lGroup c.raw) = none) ∧ ((op = 3 → s.groupFault c.ctx op d (cdInner d) = none)) ∧ (s.collRanges c d = .ok rs) ∧ (overlapFault op rs = none) ∧ (s.groupSt (lGroup c.raw) ≠ 2) ∧ ((op = 3 → s.groupSt (cdInner d) ≠ 2)) ∧ ((work i s.work).Sound)) :=
  ⟨⟨.allGather 3, 3, 0, { cmd 3 1 1 1606938044258990276935758667249326548868185385823315429425216 with segs := [] }, one [] { cmd 3 1 1 1606938044258990276935758667249326548868185385823315429425216 with segs := [] }, 530, 0, by simp, by decide +kernel, by decide +kernel, by decide +kernel, err_of _ _ (by decide +kernel)⟩,
   ⟨.allGather 3, 3, 0, cmd 3 1 1 1606938044258990276935758667249326548868185385823315429425216, { one [] (cmd 3 1 1 1606938044258990276935758667249326548868185385823315429425216) with mem := bytesAt 0x1000 64 51146734345542354232329276353845477206181480669810991748130195386688853261210459433973526387892033090520548116928330288759421630898779231670274883592, blob := blobAt Obj.groupTable 0 32 4294967313 ++ blobAt Obj.groupState 0 1 1 }, 0x1000, 51146734345542354232329276353845477206181480669810991748130195386688853261210459433973526387892033090520548116928330288759421630898779231670274883592, 512, by simp, by decide +kernel, by decide +kernel, by decide +kernel, ok_of _ _ (by decide +kernel), by decide +kernel, by decide +kernel⟩,
   ⟨.allGather 3, 3, 0, cmd 3 1 1 1606938044258990276935758667249326548868185385823315429425216, { one [] (cmd 3 1 1 1606938044258990276935758667249326548868185385823315429425216) with mem := bytesAt 0x1000 64 51146734345542354232329276353845477206181480669810991748130195386688853261210459433973526387892033090520548116928330288759421630898779231670274883584, blob := blobAt Obj.groupTable 0 32 4294967313 ++ blobAt Obj.groupState 0 1 0 }, 0x1000, 51146734345542354232329276353845477206181480669810991748130195386688853261210459433973526387892033090520548116928330288759421630898779231670274883584, (1, 0), by simp, by decide +kernel, by decide +kernel, by decide +kernel, ok_of _ _ (by decide +kernel), by decide +kernel, by decide +kernel, by decide +kernel⟩,
   ⟨.allGather 3, 3, 0, cmd 3 1 1 1606938044258990276935758667249326548868185385823315429425216, { one [] (cmd 3 1 1 1606938044258990276935758667249326548868185385823315429425216) with mem := bytesAt 0x1000 64 51146734345542354232329276353845477206181480669810991748130195386688853261210459433973526387892033090520548116907062640826862976932318318705789370368, blob := blobAt Obj.groupTable 0 32 4294967313 ++ blobAt Obj.groupState 0 1 1 }, 0x1000, 51146734345542354232329276353845477206181480669810991748130195386688853261210459433973526387892033090520548116907062640826862976932318318705789370368, [(0x4000, 128), (0x4000, 128), (0, 0), (0, 0), (0, 0), (0, 0), (0x100000, 0x20000)], 624, by simp, by decide +kernel, by decide +kernel, by decide +kernel, ok_of _ _ (by decide +kernel), by decide +kernel, by decide +kernel, by decide +kernel, by decide +kernel, ok_of _ _ (by decide +kernel), by decide +kernel⟩,
   ⟨.allGather 3, 3, 0, cmd 3 1 1 1606938044258990276935758667249326548868185385823315429425216, { one [] (cmd 3 1 1 1606938044258990276935758667249326548868185385823315429425216) with mem := bytesAt 0x1000 64 51146734345542354232329276353845477206181480669810991748130195386688853261210459433973526387892033090520548116928330288759421630898779231670274883584, blob := blobAt Obj.groupTable 0 32 4294967313 ++ blobAt Obj.groupState 0 1 2 }, 0x1000, 51146734345542354232329276353845477206181480669810991748130195386688853261210459433973526387892033090520548116928330288759421630898779231670274883584, [(0x4000, 128), (0x5000, 128), (0, 0), (0, 0), (0, 0), (0, 0), (0x100000, 0x20000)], by simp, by decide +kernel, by decide +kernel, by decide +kernel, ok_of _ _ (by decide +kernel), by decide +kernel, by decide +kernel, by decide +kernel, by decide +kernel, ok_of _ _ (by decide +kernel), by decide +kernel, by decide +kernel⟩,
   ⟨.allGather 3, 3, 0, cmd 3 1 1 1606938044258990276935758667249326548868185385823315429425216, { one [] (cmd 3 1 1 1606938044258990276935758667249326548868185385823315429425216) with mem := bytesAt 0x1000 64 51146734345542354232329276353845477206181480669810991748130195386688853261210459433973526387892033090520548116928330288759421630898779231670274883584, blob := blobAt Obj.groupTable 0 32 4294967313 ++ blobAt Obj.groupState 0 1 1 }, 0x1000, 51146734345542354232329276353845477206181480669810991748130195386688853261210459433973526387892033090520548116928330288759421630898779231670274883584, [(0x4000, 128), (0x5000, 128), (0, 0), (0, 0), (0, 0), (0, 0), (0x100000, 0x20000)], by simp, by decide +kernel, by decide +kernel, by decide +kernel, ok_of _ _ (by decide +kernel), by decide +kernel, by decide +kernel, by decide +kernel, by decide +kernel, ok_of _ _ (by decide +kernel), by decide +kernel, by decide +kernel, by decide +kernel, sound_of _ (by decide +kernel)⟩⟩

theorem witness_CollectivesGoOn :
    (∃ (id slot : Nat) (j : CollJob) (c : Cmd) (l : Landing) (s : State), (s.coll? id = some j) ∧ (s.cmd? id = some c) ∧ (j.slots.find? (fun l => l.slot == slot) = some l) ∧ (s.chunkReady j l = true) ∧ (c.done = none) ∧ (cNpb c.raw = 0) ∧ ((opPlaitChunkLand id slot s.work).Sound)) ∧
    (∃ (id slot : Nat) (j : CollJob) (c : Cmd) (l : Landing) (s : State), (s.coll? id = some j) ∧ (s.cmd? id = some c) ∧ (j.slots.find? (fun l => l.slot == slot) = some l) ∧ (s.chunkReady j l = true) ∧ (c.done = none) ∧ (cNpb c.raw ≠ 0) ∧ ((s.landWork j l).2 ≠ 0)) ∧
    (∃ (id n : Nat) (j : CollJob) (s : State), ∃ e, (s.coll? id = some j) ∧ (s.awaited j n = true) ∧ ((∀ g ∈ j.groupsVia n, g < 1024)) ∧ (j.exch.find? (fun e => e.1 == n) = some e) ∧ (e.2.2 ≤ s.since e.2.1) ∧ ((opPlaitStallTimeout id n s.work).Sound)) ∧
    (∃ (id n : Nat) (j : CollJob) (s : State), (s.coll? id = some j) ∧ (s.awaited j n = true) ∧ ((∀ g ∈ j.groupsVia n, g < 1024)) ∧ (j.exch.any (fun e => e.1 == n) = false) ∧ (j.first ≤ s.since j.start) ∧ (1 ≤ s.peerSt n) ∧ (s.peerSt n ≤ 3) ∧ ((opPlaitNoStartTimeout id n s.work).Sound)) ∧
    (∃ (id g : Nat) (m : InMsg) (s : State), (s.net.inbox.find? (fun m => m.id == id) = some m) ∧ (m.key = abortKey g) ∧ (g < 1024) ∧ (s.groupSt g = 1) ∧ ((opPlaitAbortNoticeRx id s.work).Sound)) ∧
    (∃ (id g : Nat) (m : InMsg) (s : State), (s.net.inbox.find? (fun m => m.id == id) = some m) ∧ (m.key = abortKey g) ∧ (g < 1024) ∧ (s.groupSt g = 2)) :=
  ⟨⟨3, 0, (({ id := 3, ctx := 1, group := 0, inner := 0, op := 5, desc := 51146734345542354232329276353845477206181480669810991748130195386688853261210459433973526387892033090520548116928330288759421630898779231670274883584, seq := 1, cap := 256, src := 0x4000, dst := 0x5000, ss := 0, ds := 0, tin := 0, tout := 0, work := 0x100000, rx := [⟨0, 1, 7, 1, 1, 1, 0⟩], tx := [], slots := [⟨0, 0, 1, 0, true, 0⟩], acc := [], wire := [], inSent := 0, start := 0, first := 0, exch := [], sect := none, fail := none }) : CollJob), cmd 3 1 1 1606938523163846797526026904232772533339805266679291111800896, ⟨0, 0, 1, 0, true, 0⟩, { { one [] (cmd 3 1 1 1606938523163846797526026904232772533339805266679291111800896) with mem := bytesAt 0x1000 64 51146734345542354232329276353845477206181480669810991748130195386688853261210459433973526387892033090520548116928330288759421630898779231670274883584, blob := blobAt Obj.groupTable 0 32 8589934609 ++ blobAt Obj.groupState 0 1 1 } with plait := ⟨[{ id := 3, ctx := 1, group := 0, inner := 0, op := 5, desc := 51146734345542354232329276353845477206181480669810991748130195386688853261210459433973526387892033090520548116928330288759421630898779231670274883584, seq := 1, cap := 256, src := 0x4000, dst := 0x5000, ss := 0, ds := 0, tin := 0, tout := 0, work := 0x100000, rx := [⟨0, 1, 7, 1, 1, 1, 0⟩], tx := [], slots := [⟨0, 0, 1, 0, true, 0⟩], acc := [], wire := [], inSent := 0, start := 0, first := 0, exch := [], sect := none, fail := none }], []⟩ }, by decide +kernel, by decide +kernel, by decide +kernel, by decide +kernel, by decide +kernel, by decide +kernel, sound_of _ (by decide +kernel)⟩,
   ⟨3, 0, (({ id := 3, ctx := 1, group := 0, inner := 0, op := 5, desc := 51146734345542354232329276353845477206181480669810991748130195386688855113883887231032653165027793229527073769248084939008446262220123358280349122560, seq := 1, cap := 256, src := 0x4000, dst := 0x5000, ss := 0, ds := 0, tin := 0, tout := 0, work := 0x100000, rx := [⟨0, 1, 7, 1, 1, 1, 0⟩], tx := [], slots := [⟨0, 0, 1, 0, true, 0⟩], acc := [], wire := [], inSent := 0, start := 0, first := 0, exch := [], sect := none, fail := none }) : CollJob), cmd 3 1 1 1606938523163846797526026904232772533339805266679291111866432, ⟨0, 0, 1, 0, true, 0⟩, { { one [] (cmd 3 1 1 1606938523163846797526026904232772533339805266679291111866432) with mem := bytesAt 0x1000 64 51146734345542354232329276353845477206181480669810991748130195386688855113883887231032653165027793229527073769248084939008446262220123358280349122560, blob := blobAt Obj.groupTable 0 32 8589934609 ++ blobAt Obj.groupState 0 1 1 } with plait := ⟨[{ id := 3, ctx := 1, group := 0, inner := 0, op := 5, desc := 51146734345542354232329276353845477206181480669810991748130195386688855113883887231032653165027793229527073769248084939008446262220123358280349122560, seq := 1, cap := 256, src := 0x4000, dst := 0x5000, ss := 0, ds := 0, tin := 0, tout := 0, work := 0x100000, rx := [⟨0, 1, 7, 1, 1, 1, 0⟩], tx := [], slots := [⟨0, 0, 1, 0, true, 0⟩], acc := [], wire := [], inSent := 0, start := 0, first := 0, exch := [], sect := none, fail := none }], []⟩ }, by decide +kernel, by decide +kernel, by decide +kernel, by decide +kernel, by decide +kernel, by decide +kernel, by decide +kernel⟩,
   ⟨3, 7, (({ id := 3, ctx := 1, group := 0, inner := 0, op := 5, desc := 51146734345542354232329276353845477206181480669810991748130195386688853261210459433973526387892033090520548116928330288759421630898779231670274883584, seq := 1, cap := 256, src := 0x4000, dst := 0x5000, ss := 0, ds := 0, tin := 0, tout := 0, work := 0x100000, rx := [⟨0, 1, 7, 1, 1, 0, 0⟩], tx := [], slots := [], acc := [], wire := [], inSent := 0, start := 0, first := 0, exch := [(7, 0, 5)], sect := none, fail := none }) : CollJob), { { one [] (cmd 3 1 1 1606938523163846797526026904232772533339805266679291111800896) with mem := bytesAt 0x1000 64 51146734345542354232329276353845477206181480669810991748130195386688853261210459433973526387892033090520548116928330288759421630898779231670274883584, blob := blobAt Obj.groupTable 0 32 8589934609 ++ blobAt Obj.groupState 0 1 1 } with plait := ⟨[{ id := 3, ctx := 1, group := 0, inner := 0, op := 5, desc := 51146734345542354232329276353845477206181480669810991748130195386688853261210459433973526387892033090520548116928330288759421630898779231670274883584, seq := 1, cap := 256, src := 0x4000, dst := 0x5000, ss := 0, ds := 0, tin := 0, tout := 0, work := 0x100000, rx := [⟨0, 1, 7, 1, 1, 0, 0⟩], tx := [], slots := [], acc := [], wire := [], inSent := 0, start := 0, first := 0, exch := [(7, 0, 5)], sect := none, fail := none }], []⟩ }, (7, 0, 5), by decide +kernel, by decide +kernel, by decide +kernel, by decide +kernel, by decide +kernel, sound_of _ (by decide +kernel)⟩,
   ⟨3, 7, (({ id := 3, ctx := 1, group := 0, inner := 0, op := 5, desc := 51146734345542354232329276353845477206181480669810991748130195386688853261210459433973526387892033090520548116928330288759421630898779231670274883584, seq := 1, cap := 256, src := 0x4000, dst := 0x5000, ss := 0, ds := 0, tin := 0, tout := 0, work := 0x100000, rx := [⟨0, 1, 7, 1, 1, 0, 0⟩], tx := [], slots := [], acc := [], wire := [], inSent := 0, start := 0, first := 0, exch := [], sect := none, fail := none }) : CollJob), { { one [] (cmd 3 1 1 1606938523163846797526026904232772533339805266679291111800896) with mem := bytesAt 0x1000 64 51146734345542354232329276353845477206181480669810991748130195386688853261210459433973526387892033090520548116928330288759421630898779231670274883584, blob := blobAt Obj.peerState 7 1 2 ++ blobAt Obj.groupTable 0 32 8589934609 ++ blobAt Obj.groupState 0 1 1 } with plait := ⟨[{ id := 3, ctx := 1, group := 0, inner := 0, op := 5, desc := 51146734345542354232329276353845477206181480669810991748130195386688853261210459433973526387892033090520548116928330288759421630898779231670274883584, seq := 1, cap := 256, src := 0x4000, dst := 0x5000, ss := 0, ds := 0, tin := 0, tout := 0, work := 0x100000, rx := [⟨0, 1, 7, 1, 1, 0, 0⟩], tx := [], slots := [], acc := [], wire := [], inSent := 0, start := 0, first := 0, exch := [], sect := none, fail := none }], []⟩ }, by decide +kernel, by decide +kernel, by decide +kernel, by decide +kernel, by decide +kernel, by decide +kernel, by decide +kernel, sound_of _ (by decide +kernel)⟩,
   ⟨5, 0, ⟨5, 7, abortKey 0, []⟩, { st [] with blob := blobAt Obj.groupTable 0 32 8589934609 ++ blobAt Obj.groupState 0 1 1, net := { NetState.reset with inbox := [⟨5, 7, abortKey 0, []⟩] } }, by decide +kernel, by decide +kernel, by decide +kernel, by decide +kernel, sound_of _ (by decide +kernel)⟩,
   ⟨5, 0, ⟨5, 7, abortKey 0, []⟩, { st [] with blob := blobAt Obj.groupTable 0 32 8589934609 ++ blobAt Obj.groupState 0 1 2, net := { NetState.reset with inbox := [⟨5, 7, abortKey 0, []⟩] } }, by decide +kernel, by decide +kernel, by decide +kernel, by decide +kernel⟩⟩

theorem witness_GroupsCommit :
    (∃ (wr : Writer) (s : State), (s.takes wr .priv Obj.groupCommit) ∧ (s.get Obj.groupCommit ≠ 1)) ∧
    (∃ (s : State), (s.get Obj.groupCommit = 1) ∧ (s.plait.jobs.any (fun j => s.groupChanges j.group || (j.op == 3 && s.groupChanges j.inner)) = false)) :=
  ⟨⟨.fn 0, st [], ⟨by decide +kernel, by decide +kernel⟩, by decide +kernel⟩,
   ⟨{ st [(Obj.groupCommit, 1)] with blobP := blobAt Obj.groupTable 0 32 8589934609 }, by decide +kernel, by decide +kernel⟩⟩

theorem witness_PortsAndLinks :
    (∃ (p : Fin 8) (s : State), (s.get (Obj.linkState p) = 1)) ∧
    (∃ (p : Fin 8) (s : State), (s.get (Obj.linkState p) = 2)) ∧
    (∃ (p : Fin 8) (s : State), (s.portUp p = true)) ∧
    (∃ (p : Fin 8) (s : State), ∃ u c n, (s.get (Obj.linkState p) = 3) ∧ (10 < u ∨ 24 * n < c * 100000)) ∧
    (∃ (p : Fin 8) (s : State), (s.get (Obj.linkState p) = 4) ∧ (s.net.degAt.find? (fun q => q.1 == p.val) = none)) ∧
    (∃ (p : Fin 8) (s : State), (s.portUp p = true)) ∧
    (∃ (wr : Writer) (d : Fin 2) (n : Nat) (s : State), (n = (if d.val = 0 then Obj.portsCommitIo0 else Obj.portsCommitIo1)) ∧ (s.takes wr .host n) ∧ (s.get n ≠ 1)) ∧
    (∃ (wr : Writer) (d : Fin 2) (n : Nat) (s : State), (n = (if d.val = 0 then Obj.portsCommitIo0 else Obj.portsCommitIo1)) ∧ (s.get n = 1) ∧ (s.work.carveWait d = false) ∧ ((∀ p, p < 8 → s.metroBytes p = 0))) :=
  ⟨⟨7, st [(Obj.linkState 7, 1)], by decide +kernel⟩,
   ⟨7, st [(Obj.linkState 7, 2)], by decide +kernel⟩,
   ⟨0, st [(Obj.linkState 0, 4)], by decide +kernel⟩,
   ⟨0, st [(Obj.linkState 0, 3)], 11, 0, 0, by decide +kernel, by decide +kernel⟩,
   ⟨0, st [(Obj.linkState 0, 4)], by decide +kernel, by decide +kernel⟩,
   ⟨0, st [(Obj.linkState 0, 3)], by decide +kernel⟩,
   ⟨.fn 0, 1, Obj.portsCommitIo1, st [], by decide +kernel, ⟨by decide +kernel, by decide +kernel⟩, by decide +kernel⟩,
   ⟨.fn 0, 1, Obj.portsCommitIo1, st [(Obj.portsCommitIo1, 1)], by decide +kernel, by decide +kernel, by decide +kernel, by decide +kernel⟩⟩

theorem witness_PacketsArrive_PacketsArrive :
    (∃ (f : Rx) (why : Nat) (s : State), (s.portUp f.port = true) ∧ (hVer f.hdr = 1) ∧ (1 ≤ hType f.hdr) ∧ (hType f.hdr ≤ 9) ∧ (hType f.hdr ≠ 3) ∧ (s.rxFits f = true) ∧ (s.staleWhy f = some why)) ∧
    (∃ (f : Rx) (i : Instr) (s : State), (i ∈ [.exbDataRx f, .exbAckRx f, .exbOpenRx f, .exbOpenAckRx f, .exbRejectRx f, .exbProbeRx f, .exbProbeReplyRx f, .exbStaleRx f, .exbCloseRx f]) ∧ (s.portUp f.port = true) ∧ (hVer f.hdr ≠ 1)) ∧
    (∃ (f : Rx) (p : Sess) (s : State), (s.hears f 6 p) ∧ (p.home < 8) ∧ (s.portUp p.home = true) ∧ (f.reply = .none)) ∧
    (∃ (f : Rx) (p : Sess) (s : State), (s.hears f 7 p)) ∧
    (∃ (f : Rx) (p : Sess) (s : State), (s.hears f 2 p) ∧ (p.ackPsn (bits f.ext 352 32) ≤ p.psn) ∧ (p.ackRangesOf f.ext = []) ∧ ((opExbAckRx f s.work).Sound)) :=
  ⟨⟨rxOf 7 16 0 [], 1, net 3 [] [], by decide +kernel, by decide +kernel, by decide +kernel, by decide +kernel, by decide +kernel, by decide +kernel, by decide +kernel⟩,
   ⟨{ rxOf 7 16 0 [] with hdr := 0 }, .exbProbeReplyRx { rxOf 7 16 0 [] with hdr := 0 }, net 3 [] [], by simp, by decide +kernel, by decide +kernel⟩,
   ⟨rxOf 6 8 0 [], sess0, net 3 [sess0] [], ⟨by decide +kernel, by decide +kernel, by decide +kernel, by decide +kernel, by decide +kernel, by decide +kernel, by decide +kernel, by decide +kernel, by decide +kernel⟩, by decide +kernel, by decide +kernel, by decide +kernel⟩,
   ⟨rxOf 7 16 0 [], sess0, net 3 [sess0] [], ⟨by decide +kernel, by decide +kernel, by decide +kernel, by decide +kernel, by decide +kernel, by decide +kernel, by decide +kernel, by decide +kernel, by decide +kernel⟩⟩,
   ⟨rxOf 2 48 (2 ^ 352) [], { sess0 with psn := 1, pkts := [pkt0], outSince := some 0 }, net 3 [{ sess0 with psn := 1, pkts := [pkt0], outSince := some 0 }] [{ msg0 with num := some 0, cut := 4 }], ⟨by decide +kernel, by decide +kernel, by decide +kernel, by decide +kernel, by decide +kernel, by decide +kernel, by decide +kernel, by decide +kernel, by decide +kernel⟩, by decide +kernel, by decide +kernel, sound_of _ (by decide +kernel)⟩⟩

theorem witness_PacketsArrive_DataLands :
    (∃ (f : Rx) (p : Sess) (s : State), (s.hears f 1 p) ∧ (p.home < 8) ∧ (p.unwrap (bits f.ext 160 32) = none)) ∧
    (∃ (f : Rx) (p : Sess) (r : Posted) (a off : Nat) (s : State), (s.hears f 1 p) ∧ (p.unwrap (bits f.ext 160 32) = some a) ∧ (p.ranges.any (fun r => decide (r.1 ≤ a) && decide (a ≤ r.2)) = false) ∧ (a ≤ p.cum + 65535) ∧ (off = bits f.ext 32 32) ∧ (off + f.data.length ≤ bits f.ext 0 32) ∧ ((rangePut a p.ranges).length ≤ 16) ∧ (p.rx.find? (fun m => m.num == bits f.ext 128 32) = none) ∧ (s.net.posted.find? (fun r => r.n == p.n && r.key == bits f.ext 64 64) = some r) ∧ (r.len = bits f.ext 0 32) ∧ (mapped (r.addr + off) f.data.length = true)) :=
  ⟨⟨rxOf 1 26 (2 + (2 ^ 32 - 1) * 2 ^ 160) [7, 8], sess0, net 3 [sess0] [], ⟨by decide +kernel, by decide +kernel, by decide +kernel, by decide +kernel, by decide +kernel, by decide +kernel, by decide +kernel, by decide +kernel, by decide +kernel⟩, by decide +kernel, by decide +kernel⟩,
   ⟨rxOf 1 26 (2 + 9 * 2 ^ 64) [7, 8], sess0, ⟨7, 9, 2, 3, 0, 0x4000⟩, 0, 0, { net 3 [sess0] [] with net := { NetState.reset with sess := [sess0], posted := [⟨7, 9, 2, 3, 0, 0x4000⟩] } }, ⟨by decide +kernel, by decide +kernel, by decide +kernel, by decide +kernel, by decide +kernel, by decide +kernel, by decide +kernel, by decide +kernel, by decide +kernel⟩, by decide +kernel, by decide +kernel, by decide +kernel, by decide +kernel, by decide +kernel, by decide +kernel, by decide +kernel, by decide +kernel, by decide +kernel, by decide +kernel⟩⟩

theorem witness_SessionsBeginAndEnd :
    (∃ (f : Rx) (n : Nat) (s : State), (s.portUp f.port = true) ∧ (hVer f.hdr = 1) ∧ (hType f.hdr = 3) ∧ (s.rxFits f = true) ∧ (s.get Obj.entropyState ≠ 1) ∧ (s.entryFor f.ext = some n) ∧ (n < 8192) ∧ (s.sess? n = none)) ∧
    (∃ (f : Rx) (p : Sess) (s : State), (s.hears f 4 p) ∧ (p.n < 8192) ∧ (s.peerSt p.n = 2) ∧ (p.opener = true)) ∧
    (∃ (f : Rx) (p : Sess) (s : State), (s.hears f 5 p) ∧ ((opExbRejectRx f s.work).Sound)) ∧
    (∃ (f : Rx) (p : Sess) (s : State), (s.hears f 8 p) ∧ ((opExbStaleRx f s.work).Sound)) ∧
    (∃ (f : Rx) (p : Sess) (s : State), (s.hears f 9 p) ∧ ((opExbCloseRx f s.work).Sound)) :=
  ⟨⟨rxOf 3 256 (2 ^ 1944 + 2 ^ 1984) [], 7, net 1 [] [], by decide +kernel, by decide +kernel, by decide +kernel, by decide +kernel, by decide +kernel, by decide +kernel, by decide +kernel, by decide +kernel⟩,
   ⟨rxOf 4 256 0 [], sess0, net 2 [sess0] [], ⟨by decide +kernel, by decide +kernel, by decide +kernel, by decide +kernel, by decide +kernel, by decide +kernel, by decide +kernel, by decide +kernel, by decide +kernel⟩, by decide +kernel, by decide +kernel, by decide +kernel⟩,
   ⟨rxOf 5 4 (7 * 2 ^ 24) [], sess0, net 2 [sess0] [], ⟨by decide +kernel, by decide +kernel, by decide +kernel, by decide +kernel, by decide +kernel, by decide +kernel, by decide +kernel, by decide +kernel, by decide +kernel⟩, sound_of _ (by decide +kernel)⟩,
   ⟨rxOf 8 4 0 [], sess0, net 3 [sess0] [], ⟨by decide +kernel, by decide +kernel, by decide +kernel, by decide +kernel, by decide +kernel, by decide +kernel, by decide +kernel, by decide +kernel, by decide +kernel⟩, sound_of _ (by decide +kernel)⟩,
   ⟨rxOf 9 0 0 [], sess0, net 3 [sess0] [], ⟨by decide +kernel, by decide +kernel, by decide +kernel, by decide +kernel, by decide +kernel, by decide +kernel, by decide +kernel, by decide +kernel, by decide +kernel⟩, sound_of _ (by decide +kernel)⟩⟩

theorem witness_SessionsSend_SessionsSend :
    (∃ (n port path : Nat) (bad : TxFault) (p : Sess) (s : State), ∃ m len, (s.sess? n = some p) ∧ (s.turnOf port = some n) ∧ (s.sendable p = some (.fresh m len, port, path)) ∧ (m ∈ s.net.msgs) ∧ (m.n = n)) ∧
    (∃ (n port path : Nat) (bad : TxFault) (p : Sess) (s : State), ∃ k, (s.sess? n = some p) ∧ (s.turnOf port = some n) ∧ (s.sendable p = some (.again k, port, path)) ∧ ((s.msgOfPkt n k.msg).isSome = true)) ∧
    (∃ (n t0 : Nat) (p : Sess) (s : State), (s.sess? n = some p) ∧ (p.ackDue = some t0) ∧ (s.get (Obj.ackDelayNs (s.portCls p.home)) ≤ s.since t0)) ∧
    (∃ (n msg t0 e : Nat) (m : TxMsg) (s : State), (s.msgOfPkt n msg = some m) ∧ (m.hold = some (t0, e)) ∧ (t0 ≤ s.time)) ∧
    (∃ (n : Nat) (p : Sess) (s : State), (s.sess? n = some p) ∧ (s.peerSt n = 3) ∧ (s.get (Obj.incUs (s.portCls p.home)) * 1000 ≤ s.since p.incAt)) :=
  ⟨⟨7, 0, 0, .none, sess0, net 3 [sess0] [msg0], msg0, 4, by decide +kernel, by decide +kernel, by decide +kernel, by decide +kernel, by decide +kernel⟩,
   ⟨7, 0, 1, .none, { sess0 with psn := 1, pkts := [{ pkt0 with lost := true }], outSince := some 0 }, net 3 [{ sess0 with psn := 1, pkts := [{ pkt0 with lost := true }], outSince := some 0 }] [{ msg0 with num := some 0, cut := 4 }], { pkt0 with lost := true }, by decide +kernel, by decide +kernel, by decide +kernel, by decide +kernel⟩,
   ⟨7, 0, { sess0 with ackDue := some 0, rxCount := 2 }, net 3 [{ sess0 with ackDue := some 0, rxCount := 2 }] [], by decide +kernel, by decide +kernel, by decide +kernel⟩,
   ⟨7, 0, 5, 0, { msg0 with num := some 0, cut := 4, hold := some (5, 0) }, net 3 [sess0] [{ msg0 with num := some 0, cut := 4, hold := some (5, 0) }], by decide +kernel, by decide +kernel, by decide +kernel⟩,
   ⟨7, sess0, net 3 [sess0] [], by decide +kernel, by decide +kernel, by decide +kernel⟩⟩

theorem witness_SessionsSend_SessionTimeouts :
    (∃ (n psn : Nat) (p : Sess) (k : TxPkt) (s : State), (s.sess? n = some p) ∧ (s.peerSt n = 3) ∧ (p.pkts.find? (fun k => k.psn == psn && !k.sacked && !k.lost && !k.heldBack) = some k) ∧ (s.rtoNs p ≤ s.since k.last)) ∧
    (∃ (n : Nat) (p : Sess) (s : State), (s.sess? n = some p) ∧ (s.peerSt n = 3) ∧ (p.probe = none) ∧ (s.get (Obj.probeIdleUs (s.portCls p.home)) * 1000 ≤ s.since p.lastRx)) ∧
    (∃ (n t0 : Nat) (p : Sess) (s : State), (s.sess? n = some p) ∧ (s.peerSt n = 3) ∧ (p.outSince = some t0) ∧ (p.outstanding = true) ∧ (s.get (Obj.lossUs (s.portCls p.home)) * 1000 ≤ s.since (max p.lastProg t0)) ∧ ((opExbLossTimeout n s.work).Sound)) ∧
    (∃ (n : Nat) (p : Sess) (s : State), (s.sess? n = some p) ∧ (s.peerSt n = 2) ∧ (p.opener = true) ∧ (s.since p.openAt < s.get (Obj.lossUs (s.portCls p.home)) * 1000) ∧ (s.get (Obj.rtoUs (s.portCls p.home)) * 1000 ≤ s.since p.openLast)) ∧
    (∃ (n t0 home : Nat) (s : State), (n < 8192) ∧ (s.net.rejectedAt.find? (fun q => q.1 == n) = some (n, t0)) ∧ (s.peerSt n = 5) ∧ (s.peerWhy n = 10 ∨ s.peerWhy n = 11 ∨ s.peerWhy n = 13) ∧ (s.get Obj.openRetryMs * 1000000 ≤ s.since t0) ∧ (s.net.shut = false) ∧ (pValid (s.peer n) = true) ∧ (s.get (Obj.ctxState (pLctx (s.peer n))) = 1) ∧ (s.get (Obj.ownRank (pLctx (s.peer n))) < pRank (s.peer n)) ∧ (s.homePick n = some home)) :=
  ⟨⟨7, 0, { sess0 with psn := 1, pkts := [pkt0], outSince := some 0 }, pkt0, net 3 [{ sess0 with psn := 1, pkts := [pkt0], outSince := some 0 }] [{ msg0 with num := some 0, cut := 4 }], by decide +kernel, by decide +kernel, by decide +kernel, by decide +kernel⟩,
   ⟨7, sess0, net 3 [sess0] [], by decide +kernel, by decide +kernel, by decide +kernel, by decide +kernel⟩,
   ⟨7, 0, { sess0 with psn := 1, pkts := [pkt0], outSince := some 0 }, net 3 [{ sess0 with psn := 1, pkts := [pkt0], outSince := some 0 }] [{ msg0 with num := some 0, cut := 4 }], by decide +kernel, by decide +kernel, by decide +kernel, by decide +kernel, by decide +kernel, sound_of _ (by decide +kernel)⟩,
   ⟨7, { sess0 with openAt := 10000000000000000 - 900000 }, net 2 [{ sess0 with openAt := 10000000000000000 - 900000 }] [], by decide +kernel, by decide +kernel, by decide +kernel, by decide +kernel, by decide +kernel⟩,
   ⟨7, 0, 0, { net (5 + 8 * 13) [] [] with net := { NetState.reset with rejectedAt := [(7, 0)] } }, by decide +kernel, by decide +kernel, by decide +kernel, by decide +kernel, by decide +kernel, by decide +kernel, by decide +kernel, by decide +kernel, by decide +kernel, by decide +kernel⟩⟩

theorem witness_PeersAndTime :
    (∃ (wr : Writer) (s : State), (s.takes wr .priv Obj.peerCommit) ∧ ((opPeerCommit wr s.work).Sound)) ∧
    (∃ (p : Fin 8) (a : Announce) (s : State), (s.ptpOn p a.domain = true) ∧ (s.net.ptp.gm = none)) ∧
    (∃ (p : Fin 8) (d gm seq t1 : Nat) (s : State), (s.ptpOn p d = true) ∧ (s.fromGm gm = true)) ∧
    (∃ (p : Fin 8) (d gm seq t1 : Nat) (s : State), (s.ptpOn p d = true) ∧ (s.fromGm gm = true)) ∧
    (∃ (p : Fin 8) (d gm seq t1 : Nat) (s : State), ∃ t2, (s.ptpOn p d = true) ∧ (s.fromGm gm = true) ∧ (s.net.ptp.two = some (seq, t2))) ∧
    (∃ (p : Fin 8) (d gm seq t1 : Nat) (s : State), ∃ t3, (s.ptpOn p d = true) ∧ (s.fromGm gm = true) ∧ (s.net.ptp.req = some (seq, t3))) ∧
    (∃ (a : Announce) (s : State), (s.net.ptp.gm = some a) ∧ (s.ptpOn (s.get Obj.ptpPort) a.domain = true) ∧ (s.net.ptp.reqAt = none)) ∧
    (∃ (s : State), (s.get Obj.ptpState = 1 ∨ s.get Obj.ptpState = 2) ∧ (3000000000 ≤ s.since s.net.ptp.syncAt)) :=
  ⟨⟨.fn 0, net 3 [] [], ⟨by decide +kernel, by decide +kernel⟩, sound_of _ (by decide +kernel)⟩,
   ⟨0, (⟨0, 1, 2, 3, 4, 5, 6, 0, 0, 0⟩ : Announce), st [(Obj.linkState 0, 3), (Obj.ptpEn, 1)], by decide +kernel, by decide +kernel⟩,
   ⟨0, 0, 6, 3, 1000, { st [(Obj.linkState 0, 3), (Obj.ptpEn, 1)] with net := { NetState.reset with ptp := { PtpState.reset with gm := some (⟨0, 1, 2, 3, 4, 5, 6, 0, 0, 0⟩ : Announce) } } }, by decide +kernel, by decide +kernel⟩,
   ⟨0, 0, 6, 3, 1000, { st [(Obj.linkState 0, 3), (Obj.ptpEn, 1)] with net := { NetState.reset with ptp := { PtpState.reset with gm := some (⟨0, 1, 2, 3, 4, 5, 6, 0, 0, 0⟩ : Announce) } } }, by decide +kernel, by decide +kernel⟩,
   ⟨0, 0, 6, 3, 1000, { st [(Obj.linkState 0, 3), (Obj.ptpEn, 1)] with net := { NetState.reset with ptp := { PtpState.reset with gm := some (⟨0, 1, 2, 3, 4, 5, 6, 0, 0, 0⟩ : Announce), two := some (3, 500) } } }, 500, by decide +kernel, by decide +kernel, by decide +kernel⟩,
   ⟨0, 0, 6, 3, 1000, { st [(Obj.linkState 0, 3), (Obj.ptpEn, 1)] with net := { NetState.reset with ptp := { PtpState.reset with gm := some (⟨0, 1, 2, 3, 4, 5, 6, 0, 0, 0⟩ : Announce), req := some (3, 500) } } }, 500, by decide +kernel, by decide +kernel, by decide +kernel⟩,
   ⟨(⟨0, 1, 2, 3, 4, 5, 6, 0, 0, 0⟩ : Announce), { st [(Obj.linkState 0, 3), (Obj.ptpEn, 1)] with net := { NetState.reset with ptp := { PtpState.reset with gm := some (⟨0, 1, 2, 3, 4, 5, 6, 0, 0, 0⟩ : Announce) } } }, by decide +kernel, by decide +kernel, by decide +kernel⟩,
   ⟨st [(Obj.ptpState, 2)], by decide +kernel, by decide +kernel⟩⟩

theorem witness_LoadsRun_LoadsStart :
    (∃ (wr : Writer) (s : State), (s.takes wr .priv Obj.loadCommit) ∧ (s.get Obj.loadCommit ≠ 1) ∧ ((opLoadCommit wr s.work).Sound)) ∧
    (∃ (wr : Writer) (s : State), (s.takes wr .priv Obj.loadCommit) ∧ (s.get Obj.loadCommit = 1)) ∧
    (∃ (j : LoadJob) (s : State), (s.life.job = some j) ∧ (j.phase = 0) ∧ (s.pickTarget j.sel = none)) ∧
    (∃ (j : LoadJob) (s : State), ∃ k, (s.life.job = some j) ∧ (j.phase = 0) ∧ (s.pickTarget j.sel = some k) ∧ ((∀ n, n < 3 → s.get (Obj.slotState n) ≠ 4)) ∧ ((opLoadStart s.work).Sound)) :=
  ⟨⟨.fn 0, st [], ⟨by decide +kernel, by decide +kernel⟩, by decide +kernel, sound_of _ (by decide +kernel)⟩,
   ⟨.fn 0, st [(Obj.loadCommit, 1)], ⟨by decide +kernel, by decide +kernel⟩, by decide +kernel⟩,
   ⟨load0 3 0 [], loading [(Obj.slotState 0, 3), (Obj.slotState 1, 4)] (load0 3 0 []) [] [], by decide +kernel, by decide +kernel, by decide +kernel⟩,
   ⟨load0 4 0 [], loading [] (load0 4 0 []) [] [], 4, by decide +kernel, by decide +kernel, by decide +kernel, by decide +kernel, sound_of _ (by decide +kernel)⟩⟩

theorem witness_LoadsRun_ShardsLand :
    (∃ (k a : Nat) (j : LoadJob) (h : Shard) (s : State), (s.life.job = some j) ∧ (s.shard? k = some h) ∧ (j.phase = 2) ∧ (s.shardDest j h.entry = .ok a) ∧ (mapped a (meLen h.entry) = true) ∧ (h.waits = 1) ∧ (h.pred = false)) ∧
    (∃ (k a : Nat) (j : LoadJob) (h : Shard) (s : State), ∃ id m, (s.life.job = some j) ∧ (s.shard? k = some h) ∧ (j.phase = 2) ∧ (s.shardDest j h.entry = .ok a) ∧ (mapped a (meLen h.entry) = true) ∧ (s.net.inbox.find? (fun m => m.id == id) = some m) ∧ (m.key / 2 ^ 48 = 0xFFF0) ∧ (bits m.key 46 2 = 0) ∧ (bits m.key 0 16 = k) ∧ (m.n = j.pred) ∧ (j.epochOf m.key = true) ∧ (h.pred = true) ∧ (h.waits ≤ 1) ∧ (m.data.length = meLen h.entry)) ∧
    (∃ (k a : Nat) (j : LoadJob) (h : Shard) (s : State), (s.life.job = some j) ∧ (s.shard? k = some h) ∧ (j.phase = 2) ∧ (h.att < 3) ∧ (s.shardDest j h.entry = .ok a) ∧ (h.waits = 3) ∧ (s.hashing 0 k = true) ∧ (h.srcHash = false) ∧ ((opShardHashDone k s.work).Sound)) ∧
    (∃ (k a : Nat) (j : LoadJob) (h : Shard) (s : State), ∃ t0, (s.life.job = some j) ∧ (s.shard? k = some h) ∧ (j.phase = 2) ∧ (h.att < 3) ∧ (h.start = some t0) ∧ (h.waits ≤ 1) ∧ (h.st ≠ 2) ∧ (h.tmo ≤ s.since t0)) ∧
    (∃ (k a : Nat) (j : LoadJob) (h : Shard) (s : State), ∃ id m, (s.life.job = some j) ∧ (s.shard? k = some h) ∧ (j.phase = 2) ∧ (h.att < 3) ∧ (s.net.inbox.find? (fun m => m.id == id) = some m) ∧ (m.key / 2 ^ 48 = 0xFFF0) ∧ (bits m.key 46 2 = 2) ∧ (bits m.key 0 16 = k) ∧ (m.n = j.pred) ∧ (j.epochOf m.key = true) ∧ (h.pred = true) ∧ (h.waits ≤ 1) ∧ (h.st ≠ 2)) ∧
    (∃ (id : Nat) (m : InMsg) (s : State), (s.net.inbox.find? (fun m => m.id == id) = some m) ∧ (m.key / 2 ^ 48 = 0xFFF0) ∧ (bits m.key 46 2 = 1)) :=
  ⟨⟨0, 0x4000, load0 0 2 [shard0 false 1], shard0 false 1, loading [] (load0 0 2 [shard0 false 1]) [] [], by decide +kernel, by decide +kernel, by decide +kernel, ok_of _ _ (by decide +kernel), by decide +kernel, by decide +kernel, by decide +kernel⟩,
   ⟨0, 0x4000, load0 0 2 [shard0 true 1], shard0 true 1, loading [] (load0 0 2 [shard0 true 1]) [] [(⟨5, 7, 0xFFF0 * 2 ^ 48 + 0 * 2 ^ 46, [1, 2, 3, 4]⟩ : InMsg)], 5, (⟨5, 7, 0xFFF0 * 2 ^ 48 + 0 * 2 ^ 46, [1, 2, 3, 4]⟩ : InMsg), by decide +kernel, by decide +kernel, by decide +kernel, ok_of _ _ (by decide +kernel), by decide +kernel, by decide +kernel, by decide +kernel, by decide +kernel, by decide +kernel, by decide +kernel, by decide +kernel, by decide +kernel, by decide +kernel, by decide +kernel⟩,
   ⟨0, 0x4000, load0 0 2 [shard0 false 3], shard0 false 3, loading [] (load0 0 2 [shard0 false 3]) [⟨0, 0, some 0⟩] [], by decide +kernel, by decide +kernel, by decide +kernel, by decide +kernel, ok_of _ _ (by decide +kernel), by decide +kernel, by decide +kernel, by decide +kernel, hash_sound 0 0x4000 _ _ _ rfl rfl (by decide +kernel) rfl (ok_of _ _ (by decide +kernel)) (sound_of _ (by decide +kernel)) (sound_of _ (by decide +kernel))⟩,
   ⟨0, 0x4000, load0 0 2 [shard0 true 1], shard0 true 1, loading [] (load0 0 2 [shard0 true 1]) [] [], 0, by decide +kernel, by decide +kernel, by decide +kernel, by decide +kernel, by decide +kernel, by decide +kernel, by decide +kernel, by decide +kernel⟩,
   ⟨0, 0x4000, load0 0 2 [shard0 true 1], shard0 true 1, loading [] (load0 0 2 [shard0 true 1]) [] [(⟨5, 7, 0xFFF0 * 2 ^ 48 + 2 * 2 ^ 46, []⟩ : InMsg)], 5, (⟨5, 7, 0xFFF0 * 2 ^ 48 + 2 * 2 ^ 46, []⟩ : InMsg), by decide +kernel, by decide +kernel, by decide +kernel, by decide +kernel, by decide +kernel, by decide +kernel, by decide +kernel, by decide +kernel, by decide +kernel, by decide +kernel, by decide +kernel, by decide +kernel, by decide +kernel⟩,
   ⟨5, (⟨5, 7, 0xFFF0 * 2 ^ 48 + 1 * 2 ^ 46, []⟩ : InMsg), { st [] with net := { NetState.reset with inbox := [(⟨5, 7, 0xFFF0 * 2 ^ 48 + 1 * 2 ^ 46, []⟩ : InMsg)] } }, by decide +kernel, by decide +kernel, by decide +kernel⟩⟩

theorem witness_SlotsChange :
    (∃ (wr : Writer) (v : Nat) (s : State), (s.takes wr .host Obj.activate) ∧ (s.mayActivate v = true)) ∧
    (∃ (wr : Writer) (v : Nat) (s : State), (s.takes wr .host Obj.activate) ∧ (s.mayActivate v = false)) ∧
    (∃ (wr : Writer) (s : State), (s.takes wr .host Obj.swap) ∧ (s.swapRefusal ≠ 0)) ∧
    (∃ (wr : Writer) (s : State), (s.takes wr .host Obj.swap) ∧ (s.swapRefusal = 0)) ∧
    (∃ (c : Nat) (s : State), ([0, 1].find? (fun k => s.get (Obj.slotState k) == 7) = some c) ∧ (s.life.swap = true) ∧ (s.get (Obj.slotState 2) = 7) ∧ (s.life.job = none) ∧ ((opSwapExchangeDone [] s.work).Sound)) ∧
    (∃ (wr : Writer) (k : Fin 3) (s : State), (s.takes wr .host (Obj.slotCommit k)) ∧ (s.get (Obj.slotCommit k) ≠ 1) ∧ (s.get (Obj.slotState k) = 0 ∨ s.get (Obj.slotState k) = 6)) ∧
    (∃ (wr : Writer) (k : Fin 3) (s : State), (s.takes wr .host (Obj.slotCommit k)) ∧ (s.get (Obj.slotCommit k) ≠ 1) ∧ (s.get (Obj.slotState k) ≠ 0) ∧ (s.get (Obj.slotState k) ≠ 6)) ∧
    (∃ (wr : Writer) (k : Fin 3) (s : State), (s.takes wr .host (Obj.slotFlush k)) ∧ (s.life.job = none) ∧ (s.get (Obj.slotState k) = 2 ∨ s.get (Obj.slotState k) = 5 ∨ s.get (Obj.slotState k) = 6)) :=
  ⟨⟨.fn 0, 1, st [(Obj.slotState 1, 2), (Obj.slotState 0, 3), (Obj.slotModelId 0, 5)], ⟨by decide +kernel, by decide +kernel⟩, by decide +kernel⟩,
   ⟨.fn 0, 1, st [], ⟨by decide +kernel, by decide +kernel⟩, by decide +kernel⟩,
   ⟨.fn 0, st [], ⟨by decide +kernel, by decide +kernel⟩, by decide +kernel⟩,
   ⟨.fn 0, st [(Obj.slotState 0, 3), (Obj.slotState 2, 5)], ⟨by decide +kernel, by decide +kernel⟩, by decide +kernel⟩,
   ⟨1, { st [(Obj.slotState 1, 7), (Obj.slotState 2, 7), (Obj.slotModelId 1, 8)] with life := { Dev.reset.life with swap := true } }, by decide +kernel, by decide +kernel, by decide +kernel, by decide +kernel, sound_of _ (by decide +kernel)⟩,
   ⟨.fn 0, 2, { st [(Obj.slotState 2, 6)] with objS := [(Obj.partBaseP 2 0, 0x12345)] }, ⟨by decide +kernel, by decide +kernel⟩, by decide +kernel, by decide +kernel⟩,
   ⟨.fn 0, 2, st [(Obj.slotState 2, 3)], ⟨by decide +kernel, by decide +kernel⟩, by decide +kernel, by decide +kernel, by decide +kernel⟩,
   ⟨.fn 0, 2, st [(Obj.slotState 2, 5)], ⟨by decide +kernel, by decide +kernel⟩, by decide +kernel, by decide +kernel⟩⟩

theorem witness_BindingsAndSequences_BindingsCommit :
    (∃ (wr : Writer) (x : Fin 16) (s : State), (s.takes wr (.own x) (Obj.bindCommit x)) ∧ (s.get (Obj.bindCommit x) ≠ 1)) ∧
    (∃ (x : Fin 16) (s : State), (s.get (Obj.bindCommit x) = 1) ∧ (s.get (Obj.ctxState x) = 0 ∨ s.holdsBinding x = false)) ∧
    (∃ (wr : Writer) (x : Fin 16) (s : State), (s.takes wr (.own x) (Obj.addSwap x))) :=
  ⟨⟨.fn 1, 1, { st [] with objS := [(Obj.btBase 1, 64)] }, ⟨by decide +kernel, by decide +kernel⟩, by decide +kernel⟩,
   ⟨1, { st [(Obj.bindCommit 1, 1)] with objP := [(Obj.btBase 1, 64)] }, by decide +kernel, by decide +kernel⟩,
   ⟨.fn 0, 1, st [], ⟨by decide +kernel, by decide +kernel⟩⟩⟩

theorem witness_BindingsAndSequences_SequencesChange :
    (∃ (wr : Writer) (s : State), (s.takes wr .host Obj.arenaCommit) ∧ (s.get Obj.arenaCommit ≠ 1) ∧ (s.arena.blocks = [])) ∧
    (∃ (wr : Writer) (s : State), (s.takes wr .host Obj.arenaCommit) ∧ (s.get Obj.arenaCommit ≠ 1) ∧ (s.arena.blocks ≠ [])) ∧
    (∃ (wr : Writer) (x : Fin 16) (v : Nat) (s : State), (s.takes wr (.own x) (Obj.seqJoin x)) ∧ (s.seq? x (bits v 0 10) = none) ∧ (bits v 16 13 ≤ 4096)) ∧
    (∃ (wr : Writer) (x : Fin 16) (v : Nat) (q : SeqSt) (s : State), (s.seq? x (bits v 0 10) = some q) ∧ (s.takes wr (.own x) (Obj.seqLeave x)) ∧ (1 ≤ q.st) ∧ (q.st ≤ 3)) ∧
    (∃ (wr : Writer) (x : Fin 16) (v : Nat) (q : SeqSt) (s : State), (s.seq? x (bits v 0 10) = some q) ∧ (s.takes wr (.own x) (Obj.seqGrow x)) ∧ (q.st = 3) ∧ (s.arena.grows = []) ∧ (q.held + bits v 16 13 ≤ 4096) ∧ (bits v 16 13 ≤ s.work.freeBlocks.length) ∧ ((opSeqGrow wr x v s.work).Sound)) ∧
    (∃ (wr : Writer) (x : Fin 16) (v : Nat) (s : State), ∃ i, (s.takes wr (.own x) (Obj.seqLeave x)) ∧ (s.takes wr (.own x) (Obj.seqGrow x)) ∧ (s.seq? x (bits v 0 10) = none) ∧ (i ∈ [Instr.seqLeave wr x v, .seqGrow wr x v])) :=
  ⟨⟨.fn 0, { st [] with objS := [(Obj.arenaBase, 0x12345), (Obj.arenaLen, 0x100000)] }, ⟨by decide +kernel, by decide +kernel⟩, by decide +kernel, by decide +kernel⟩,
   ⟨.fn 0, { st [] with arena := { blocks := [⟨0, 1, 3, 0⟩], seqs := [], grows := [] } }, ⟨by decide +kernel, by decide +kernel⟩, by decide +kernel, by decide +kernel⟩,
   ⟨.fn 1, 1, 3 + 2 ^ 16, st [], ⟨by decide +kernel, by decide +kernel⟩, by decide +kernel, by decide +kernel⟩,
   ⟨.fn 1, 1, 3, (⟨1, 3, 3, 1, 0, 0, 0, []⟩ : SeqSt), { st [(Obj.arenaBase, 0x100000), (Obj.arenaLen, 0x100000), (Obj.arenaFree, 16)] with arena := { blocks := [], seqs := [(⟨1, 3, 3, 1, 0, 0, 0, []⟩ : SeqSt)], grows := [] } }, by decide +kernel, ⟨by decide +kernel, by decide +kernel⟩, by decide +kernel, by decide +kernel⟩,
   ⟨.fn 1, 1, 3 + 2 * 2 ^ 16, (⟨1, 3, 3, 1, 0, 0, 0, []⟩ : SeqSt), { st [(Obj.arenaBase, 0x100000), (Obj.arenaLen, 0x100000), (Obj.arenaFree, 16)] with arena := { blocks := [], seqs := [(⟨1, 3, 3, 1, 0, 0, 0, []⟩ : SeqSt)], grows := [] } }, by decide +kernel, ⟨by decide +kernel, by decide +kernel⟩, by decide +kernel, by decide +kernel, by decide +kernel, by decide +kernel, sound_of _ (by decide +kernel)⟩,
   ⟨.fn 1, 1, 3, st [], .seqGrow (.fn 1) 1 3, ⟨by decide +kernel, by decide +kernel⟩, ⟨by decide +kernel, by decide +kernel⟩, by decide +kernel, by simp⟩⟩

theorem witness_MirrorsRun :
    (∃ (wr : Writer) (x : Fin 16) (s : State), (s.takes wr (.privCtx x) (Obj.mirCommit x)) ∧ (s.get (Obj.mirCommit x) ≠ 1) ∧ (s.get (Obj.ctxState x) ≠ 0)) ∧
    (∃ (wr : Writer) (x : Fin 16) (s : State), (s.takes wr (.privCtx x) (Obj.mirCommit x)) ∧ (s.get (Obj.mirCommit x) ≠ 1) ∧ (s.get (Obj.ctxState x) = 0)) ∧
    (∃ (wr : Writer) (s : State), (s.takes wr .host Obj.mirDevCommit) ∧ (s.get Obj.mirDevCommit ≠ 1)) ∧
    (∃ (s : State), (s.get Obj.mirDevCommit = 1) ∧ (s.mirBusy = false) ∧ ((opMirDevCommitApply s.work).Sound)) ∧
    (∃ (x : Fin 16) (t0 n : Nat) (m : Mirror) (u : MirShard) (s : State), (s.pair.wait.find? (fun p => p.1 == x.val) = some (x.val, t0)) ∧ (s.get (Obj.mirWaitMs x) * 1000000 ≤ s.since t0) ∧ (s.mirror? x = some m) ∧ (n < 16) ∧ (m.shards.find? (fun u => u.s == n) = some u) ∧ (u.outcome = 0)) ∧
    (∃ (x n : Fin 16) (s : State), (s.hashing 1 (16 * x.val + n.val) = true) ∧ ((opMirrorHashDone x n s.work).Sound)) :=
  ⟨⟨.fn 0, 1, st [], ⟨by decide +kernel, by decide +kernel⟩, by decide +kernel, by decide +kernel⟩,
   ⟨.fn 0, 2, st [], ⟨by decide +kernel, by decide +kernel⟩, by decide +kernel, by decide +kernel⟩,
   ⟨.fn 0, st [], ⟨by decide +kernel, by decide +kernel⟩, by decide +kernel⟩,
   ⟨st [(Obj.mirDevCommit, 1)], by decide +kernel, by decide +kernel, sound_of _ (by decide +kernel)⟩,
   ⟨1, 0, 0, (⟨1, 1, [(⟨0, 9, 7, 0x1000, 4096, none, 0, false, 0, false, 0⟩ : MirShard)], false⟩ : Mirror), (⟨0, 9, 7, 0x1000, 4096, none, 0, false, 0, false, 0⟩ : MirShard), { st [] with pair := { Dev.reset.pair with mirrors := [(⟨1, 1, [(⟨0, 9, 7, 0x1000, 4096, none, 0, false, 0, false, 0⟩ : MirShard)], false⟩ : Mirror)], wait := [(1, 0)] } }, by decide +kernel, by decide +kernel, by decide +kernel, by decide +kernel, by decide +kernel, by decide +kernel⟩,
   ⟨1, 0, { st [] with life := { Dev.reset.life with hashes := [⟨1, 16, some 0⟩] }, pair := { Dev.reset.pair with mirrors := [(⟨1, 1, [(⟨0, 9, 7, 0x1000, 4096, none, 0, false, 0, false, 0⟩ : MirShard)], false⟩ : Mirror)] } }, by decide +kernel, sound_of _ (by decide +kernel)⟩⟩

theorem witness_PartnersHoldCopies :
    (∃ (id : Nat) (m : InMsg) (s : State), (s.pairMsg id 0 = some m) ∧ (m.data.length ≠ 128)) ∧
    (∃ (id : Nat) (m : InMsg) (s : State), ∃ h e k, (s.pairMsg id 0 = some m) ∧ (h = leNat (m.data.take 128)) ∧ (e = s.peer m.n) ∧ (m.data.length = 128) ∧ (chJob h = pJob e) ∧ (chRank h = pRank e) ∧ (chCtx h = pRctx e) ∧ (chLen h % 4096 = 0) ∧ (0 < chLen h) ∧ (chLen h ≤ 16 * 2 ^ 30) ∧ (chMagic h = 0x4F5A5052) ∧ (chState h = 1) ∧ (s.work.findHeld (chJob h) (chRank h) (chCtx h) (bits m.key 0 32) = some k) ∧ (heLen (s.work.held k) = chLen h) ∧ (s.slotRead (heNext (s.work.held k)) = false) ∧ (mapped (heNext (s.work.held k)) 4096 = true)) ∧
    (∃ (id k off : Nat) (m : InMsg) (s : State), (s.pairMsg id 1 = some m) ∧ (s.work.findHeld (pJob (s.peer m.n)) (pRank (s.peer m.n)) (pRctx (s.peer m.n)) (bits m.key 0 32) = some k) ∧ (s.pair.recv.contains (k, m.n) = true) ∧ (off = bits m.key 32 8 * 2 ^ 30) ∧ (off + m.data.length ≤ heLen (s.work.held k)) ∧ (mapped (heNext (s.work.held k) + 4096 + off) m.data.length = true)) ∧
    (∃ (wr : Writer) (v : Nat) (s : State), (s.takes wr .host Obj.mirFree) ∧ (v < 1024) ∧ (heValid (s.work.held v) = true) ∧ (mapped (s.heldAddr v) 32 = true)) ∧
    (∃ (id : Nat) (m : InMsg) (s : State), (s.pairMsg id 2 = some m) ∧ (m.data.length = 64) ∧ ((pRank (s.peer m.n) ≠ bits (leNat (m.data.take 64)) 32 32 ∨ s.work.findHeld (bits (leNat (m.data.take 64)) 128 32) (bits (leNat (m.data.take 64)) 32 32) (bits (leNat (m.data.take 64)) 160 4) (bits (leNat (m.data.take 64)) 0 32) = none))) :=
  ⟨⟨5, pmsg 0 [], holding [pmsg 0 []] [], by decide +kernel, by decide +kernel⟩,
   ⟨5, pmsg 0 (leBytes chdr0 128), holding [pmsg 0 (leBytes chdr0 128)] [], chdr0, 1 + 2 ^ 4 + 2 ^ 12 + 2 ^ 64, 0, by decide +kernel, by decide +kernel, by decide +kernel, by decide +kernel, by decide +kernel, by decide +kernel, by decide +kernel, by decide +kernel, by decide +kernel, by decide +kernel, by decide +kernel, by decide +kernel, by decide +kernel, by decide +kernel, by decide +kernel, by decide +kernel⟩,
   ⟨5, 0, 0, pmsg 1 [1, 2, 3], holding [pmsg 1 [1, 2, 3]] [(0, 7)], by decide +kernel, by decide +kernel, by decide +kernel, by decide +kernel, by decide +kernel, by decide +kernel⟩,
   ⟨.fn 0, 0, holding [] [], ⟨by decide +kernel, by decide +kernel⟩, by decide +kernel, by decide +kernel, by decide +kernel⟩,
   ⟨5, pmsg 2 (List.replicate 64 1#8), holding [pmsg 2 (List.replicate 64 1#8)] [], by decide +kernel, by decide +kernel, by decide +kernel⟩⟩

theorem witness_RestoresRun :
    (∃ (wr : Writer) (x : Fin 16) (mask : Nat) (s : State), (s.takes wr (.own x) (Obj.restoreReq x)) ∧ ((s.restore? x).isSome = true ∨ s.get (Obj.mirCommit x) = 1)) ∧
    (∃ (wr : Writer) (x : Fin 16) (mask : Nat) (s : State), (s.takes wr (.own x) (Obj.restoreReq x)) ∧ (s.restore? x = none) ∧ (s.get (Obj.mirCommit x) ≠ 1)) ∧
    (∃ (id a off x : Nat) (m : InMsg) (u : RestShard) (s : State), (s.pairMsg id 4 = some m) ∧ (s.restOf m.n (bits m.key 0 32) = some (x, u)) ∧ (u.copies = []) ∧ (s.shardRange x u.s = .ok a) ∧ (off = bits m.key 32 8 * 2 ^ 30) ∧ (off + m.data.length ≤ s.get (Obj.mirLen x u.s)) ∧ (mapped (a + off) m.data.length = true)) ∧
    (∃ (id x : Nat) (m : InMsg) (u : RestShard) (s : State), (s.restOf m.n (bits m.key 0 32) = some (x, u)) ∧ (s.pairMsg id 3 = some m)) ∧
    (∃ (id x : Nat) (m : InMsg) (u : RestShard) (s : State), (s.restOf m.n (bits m.key 0 32) = some (x, u)) ∧ (s.pairMsg id 5 = some m)) ∧
    (∃ (x : Fin 16) (r : Restore) (s : State), (s.restore? x = some r) ∧ (r.ready = true) ∧ (r.shards.any (fun u => !u.answered || !u.parts.isEmpty) = false) ∧ (s.net.inbox.any (fun m => m.key / 2 ^ 48 == 0xFFE0 && s.lctx m.n == x.val && decide (3 ≤ bits m.key 44 4)) = false) ∧ ((opRestoreDone x s.work).Sound)) :=
  ⟨⟨.fn 1, 1, 1, st [(Obj.mirCommit 1, 1)], ⟨by decide +kernel, by decide +kernel⟩, by decide +kernel⟩,
   ⟨.fn 1, 1, 1, st [], ⟨by decide +kernel, by decide +kernel⟩, by decide +kernel, by decide +kernel⟩,
   ⟨5, 0x1000, 0, 1, pmsg 4 [1, 2, 3], ⟨0, true, false, [], []⟩, restoring ⟨0, true, false, [], []⟩ true [pmsg 4 [1, 2, 3]], by decide +kernel, by decide +kernel, by decide +kernel, ok_of _ _ (by decide +kernel), by decide +kernel, by decide +kernel, by decide +kernel⟩,
   ⟨5, 1, pmsg 3 (leBytes chdr0 128), ⟨0, true, false, [], []⟩, restoring ⟨0, true, false, [], []⟩ true [pmsg 3 (leBytes chdr0 128)], by decide +kernel, by decide +kernel⟩,
   ⟨5, 1, pmsg 5 [], ⟨0, true, false, [], []⟩, restoring ⟨0, true, false, [], []⟩ true [pmsg 5 []], by decide +kernel, by decide +kernel⟩,
   ⟨1, ⟨1, [⟨0, true, true, [], []⟩], true, 0⟩, restoring ⟨0, true, true, [], []⟩ true [], by decide +kernel, by decide +kernel, by decide +kernel, by decide +kernel, sound_of _ (by decide +kernel)⟩⟩

theorem witness_SamplerCompares :
    (∃ (id a : Nat) (o : Digest) (r : SampRun) (l : Tile) (s : State), (s.sched.runs.find? (fun r => r.id == id && r.ended) = some r) ∧ (r.tiles.head? = some l) ∧ (r.before = [(a, o)]) ∧ (a < 32) ∧ (r.core < 32) ∧ (o.inp ≠ r.dig.inp)) ∧
    (∃ (id a : Nat) (o : Digest) (r : SampRun) (l : Tile) (s : State), (s.sched.runs.find? (fun r => r.id == id && r.ended) = some r) ∧ (r.tiles.head? = some l) ∧ (r.before = [(a, o)]) ∧ (a < 32) ∧ (r.core < 32) ∧ (o.inp = r.dig.inp) ∧ (o.outp = r.dig.outp)) ∧
    (∃ (id a : Nat) (o : Digest) (r : SampRun) (l : Tile) (s : State), (s.sched.runs.find? (fun r => r.id == id && r.ended) = some r) ∧ (r.tiles.head? = some l) ∧ (r.before = [(a, o)]) ∧ (a < 32) ∧ (r.core < 32) ∧ (o.inp = r.dig.inp) ∧ (o.outp ≠ r.dig.outp)) ∧
    (∃ (id : Nat) (r : SampRun) (s : State), (s.sched.runs.find? (fun r => r.id == id && !r.started) = some r) ∧ (s.get Obj.shadowLagMs * 1000000 ≤ s.since r.due)) ∧
    (∃ (ns : Nat) (res : List (Fin 32 × Nat × Nat)) (s : State), (s.ready = true) ∧ (s.katPeriod ≤ s.since s.health.katAt)) :=
  ⟨⟨5, 0, ⟨1, 2, 0⟩, (⟨5, 1, [tile0], [], none, 0, 0, true, true, 1, ⟨9, 2, 0⟩, [(0, ⟨1, 2, 0⟩)]⟩ : SampRun), tile0, { st [] with sched := { SchedState.reset with runs := [(⟨5, 1, [tile0], [], none, 0, 0, true, true, 1, ⟨9, 2, 0⟩, [(0, ⟨1, 2, 0⟩)]⟩ : SampRun)] } }, by decide +kernel, by decide +kernel, by decide +kernel, by decide +kernel, by decide +kernel, by decide +kernel⟩,
   ⟨5, 0, ⟨1, 2, 0⟩, (⟨5, 1, [tile0], [], none, 0, 0, true, true, 1, ⟨1, 2, 0⟩, [(0, ⟨1, 2, 0⟩)]⟩ : SampRun), tile0, { st [] with sched := { SchedState.reset with runs := [(⟨5, 1, [tile0], [], none, 0, 0, true, true, 1, ⟨1, 2, 0⟩, [(0, ⟨1, 2, 0⟩)]⟩ : SampRun)] } }, by decide +kernel, by decide +kernel, by decide +kernel, by decide +kernel, by decide +kernel, by decide +kernel, by decide +kernel⟩,
   ⟨5, 0, ⟨1, 2, 0⟩, (⟨5, 1, [tile0], [], none, 0, 0, true, true, 1, ⟨1, 3, 0⟩, [(0, ⟨1, 2, 0⟩)]⟩ : SampRun), tile0, { st [] with sched := { SchedState.reset with runs := [(⟨5, 1, [tile0], [], none, 0, 0, true, true, 1, ⟨1, 3, 0⟩, [(0, ⟨1, 2, 0⟩)]⟩ : SampRun)] } }, by decide +kernel, by decide +kernel, by decide +kernel, by decide +kernel, by decide +kernel, by decide +kernel, by decide +kernel⟩,
   ⟨5, (⟨5, 1, [tile0], [], none, 0, 0, false, false, 1, ⟨1, 2, 0⟩, [(0, ⟨1, 2, 0⟩)]⟩ : SampRun), { st [] with sched := { SchedState.reset with runs := [(⟨5, 1, [tile0], [], none, 0, 0, false, false, 1, ⟨1, 2, 0⟩, [(0, ⟨1, 2, 0⟩)]⟩ : SampRun)] } }, by decide +kernel, by decide +kernel⟩,
   ⟨100, [], st [], by decide +kernel, by decide +kernel⟩⟩

theorem witness_HealthIsKept :
    (∃ (s : State), (s.ready = true) ∧ (100000000 ≤ s.since s.health.scoreAt)) ∧
    (∃ (s : State), (s.ready = true) ∧ (s.get Obj.healthState = 1) ∧ (s.probLeft = 0)) ∧
    (∃ (s : State), (s.ready = true) ∧ (s.get Obj.healthPeriodMs * 1000000 ≤ s.since s.health.reportAt)) ∧
    (∃ (wr : Writer) (v : Nat) (s : State), (s.takes wr .host Obj.healthClear) ∧ (v % 256 = 1) ∧ (s.get Obj.healthState ≠ 0)) ∧
    (∃ (wr : Writer) (v : Nat) (s : State), (s.takes wr .host Obj.fenceFwClear) ∧ (v % 256 < 32) ∧ ((∀ k, k < 32 → s.get (Obj.coreState k) = 0 ∧ (s.core k).chain = none ∧ (s.core k).spill = none))) ∧
    (∃ (s : State), (s.ready = true) ∧ (60000000000 ≤ s.since s.health.winAt)) :=
  ⟨⟨st [], by decide +kernel, by decide +kernel⟩,
   ⟨st [(Obj.healthState, 1)], by decide +kernel, by decide +kernel, by decide +kernel⟩,
   ⟨st [], by decide +kernel, by decide +kernel⟩,
   ⟨.fn 0, 257, st [(Obj.healthState, 2)], ⟨by decide +kernel, by decide +kernel⟩, by decide +kernel, by decide +kernel⟩,
   ⟨.fn 0, 31, st [(Obj.fenceFw, 2 ^ 31 + 1)], ⟨by decide +kernel, by decide +kernel⟩, by decide +kernel, by decide +kernel⟩,
   ⟨st [], by decide +kernel, by decide +kernel⟩⟩

theorem witness_ResetsAreAskedFor_ResetRequests :
    (∃ (wr : Writer) (v num dom lim : Nat) (i : Instr) (s : State), ((i, num, dom, lim) ∈ [(.engineReset wr v, Obj.engineReset, 1, 13), (.coreReset wr v, Obj.coreReset, 2, 32)]) ∧ (s.takes wr .priv num) ∧ (v % 256 < lim) ∧ ((s.reset? dom (v % 256)).isSome = true)) ∧
    (∃ (wr : Writer) (v num dom lim : Nat) (i : Instr) (s : State), ((i, num, dom, lim) ∈ [(.engineReset wr v, Obj.engineReset, 1, 13), (.coreReset wr v, Obj.coreReset, 2, 32)]) ∧ (s.takes wr .priv num) ∧ (v % 256 < lim) ∧ (s.reset? dom (v % 256) = none) ∧ (s.rst.runs.any (fun r => r.contains dom (v % 256)) = true)) ∧
    (∃ (wr : Writer) (v num dom lim : Nat) (i : Instr) (s : State), ((i, num, dom, lim) ∈ [(.engineReset wr v, Obj.engineReset, 1, 13), (.coreReset wr v, Obj.coreReset, 2, 32)]) ∧ (s.takes wr .priv num) ∧ (v % 256 < lim) ∧ (s.reset? dom (v % 256) = none) ∧ (s.rst.runs.any (fun r => r.contains dom (v % 256)) = false) ∧ ((work i s.work).Sound)) ∧
    (∃ (wr : Writer) (v num dom lim : Nat) (i : Instr) (s : State), ((i, num, dom, lim) ∈ [(.engineReset wr v, Obj.engineReset, 1, 13), (.coreReset wr v, Obj.coreReset, 2, 32)]) ∧ (s.takes wr .priv num) ∧ (lim ≤ v % 256)) ∧
    (∃ (wr : Writer) (v : Nat) (s : State), (s.takes wr .priv Obj.dieReset) ∧ (s.rst.runs = []) ∧ ((opDieReset wr v s.work).Sound) ∧ (v % 256 < 3)) ∧
    (∃ (wr : Writer) (v : Nat) (s : State), (s.takes wr .priv Obj.dieReset) ∧ (s.rst.runs = []) ∧ ((opDieReset wr v s.work).Sound) ∧ (v % 256 = 3)) ∧
    (∃ (wr : Writer) (x : Fin 16) (s : State), (s.takes wr (.own x) (Obj.ctxReset x)) ∧ ((s.reset? 3 x).isSome = true)) ∧
    (∃ (wr : Writer) (x : Fin 16) (s : State), (s.takes wr (.own x) (Obj.ctxReset x)) ∧ (s.rst.runs = []) ∧ ((opCtxReset wr x s.work).Sound)) ∧
    (∃ (wr : Writer) (s : State), (s.takes wr .priv Obj.deviceReset) ∧ ((s.reset? 5 0).isSome = true)) ∧
    (∃ (wr : Writer) (s : State), (s.takes wr .priv Obj.deviceReset) ∧ (s.reset? 5 0 = none) ∧ ((opDeviceReset wr s.work).Sound)) :=
  ⟨⟨.fn 0, 256 + 12, Obj.engineReset, 1, 13, .engineReset (.fn 0) (256 + 12), { st [] with rst := ⟨[(⟨1, 12, 8, 0, 0, 0, false, none, none, [], 0, 0, [], [], []⟩ : Reset)], [], 0, false⟩ }, by simp, ⟨by decide +kernel, by decide +kernel⟩, by decide +kernel, by decide +kernel⟩,
   ⟨.fn 0, 31, Obj.coreReset, 2, 32, .coreReset (.fn 0) 31, { st [] with rst := ⟨[(⟨4, 1, 8, 0, 0, 0, false, none, none, [], 0, 0, [], [], []⟩ : Reset)], [], 0, false⟩ }, by simp, ⟨by decide +kernel, by decide +kernel⟩, by decide +kernel, by decide +kernel, by decide +kernel⟩,
   ⟨.fn 0, 31, Obj.coreReset, 2, 32, .coreReset (.fn 0) 31, st [], by simp, ⟨by decide +kernel, by decide +kernel⟩, by decide +kernel, by decide +kernel, by decide +kernel, sound_of _ (by decide +kernel)⟩,
   ⟨.fn 0, 13, Obj.engineReset, 1, 13, .engineReset (.fn 0) 13, st [], by simp, ⟨by decide +kernel, by decide +kernel⟩, by decide +kernel⟩,
   ⟨.fn 0, 2, st [], ⟨by decide +kernel, by decide +kernel⟩, by decide +kernel, sound_of _ (by decide +kernel), by decide +kernel⟩,
   ⟨.fn 0, 3, st [], ⟨by decide +kernel, by decide +kernel⟩, by decide +kernel, sound_io1, by decide +kernel⟩,
   ⟨.fn 1, 1, { st [] with rst := ⟨[(⟨3, 1, 8, 0, 0, 0, false, none, none, [], 0, 0, [], [], []⟩ : Reset)], [], 0, false⟩ }, ⟨by decide +kernel, by decide +kernel⟩, by decide +kernel⟩,
   ⟨.fn 1, 1, st [], ⟨by decide +kernel, by decide +kernel⟩, by decide +kernel, sound_of _ (by decide +kernel)⟩,
   ⟨.fn 0, { st [] with rst := ⟨[(⟨5, 0, 8, 0, 0, 0, false, none, none, [], 0, 0, [], [], []⟩ : Reset)], [], 0, false⟩ }, ⟨by decide +kernel, by decide +kernel⟩, by decide +kernel⟩,
   ⟨.fn 0, st [], ⟨by decide +kernel, by decide +kernel⟩, by decide +kernel, sound_device⟩⟩

theorem witness_ResetsAreAskedFor_WatchdogsFire :
    (∃ (s : State), ∃ (e : Fin 13) (id : Nat) (c : Cmd), (s.ready = true) ∧ (s.rst.runs = []) ∧ (s.devMode = false) ∧ (s.cmd? id = some c) ∧ (s.cmdInstance c = some e.val) ∧ (c.done = none) ∧ (s.get Obj.engWdtUs * 1000 ≤ s.since c.start) ∧ ((opEngineWdtFire e id s.work).Sound)) ∧
    (∃ (s : State), ∃ (k : Fin 32), (s.ready = true) ∧ (s.rst.runs = []) ∧ (s.devMode = false) ∧ (s.get (Obj.coreState k) = 1 ∨ s.get (Obj.coreState k) = 2) ∧ (s.get Obj.coreWdtUs * 1000 ≤ s.since (s.core k).since) ∧ ((opCoreWdtFire k s.work).Sound)) ∧
    (∃ (s : State), ∃ (x : Fin 16) (t0 : Nat), (s.ready = true) ∧ (s.rst.runs = []) ∧ (s.devMode = false) ∧ (s.get (Obj.ctxState x) = 1) ∧ (s.get (Obj.ctxWdtEn x) = 1) ∧ (s.waitsByDesign x = false) ∧ (s.q.prog.find? (fun p => p.1 == x.val) = some (x.val, t0)) ∧ (s.get Obj.ctxWdtMs * 1000000 ≤ s.since t0) ∧ ((opCtxWdtFire x s.work).Sound)) ∧
    (∃ (s : State), ∃ (c : Fin 22), (s.ready = true) ∧ (s.rst.runs = []) ∧ (s.devMode = false) ∧ (ctlDie c.val < 3) ∧ ((opMemWdtFire c s.work).Sound)) ∧
    (∃ (s : State), (s.ready = true) ∧ (s.rst.runs = []) ∧ (s.devMode = false) ∧ ((opFwWdtFire s.work).Sound)) :=
  ⟨⟨one [] (cmd 3 1 1 0x20), 0, 3, cmd 3 1 1 0x20, by decide +kernel, by decide +kernel, by decide +kernel, by decide +kernel, by decide +kernel, by decide +kernel, by decide +kernel, sound_of _ (by decide +kernel)⟩,
   ⟨st [(Obj.coreState 31, 2)], 31, by decide +kernel, by decide +kernel, by decide +kernel, by decide +kernel, by decide +kernel, sound_of _ (by decide +kernel)⟩,
   ⟨withQ (st [(Obj.ctxWdtEn 1, 1)]) (fun q => { q with prog := [(1, 0)], cmds := [cmd 3 1 0 16] }), 1, 0, by decide +kernel, by decide +kernel, by decide +kernel, by decide +kernel, by decide +kernel, by decide +kernel, by decide +kernel, by decide +kernel, sound_of _ (by decide +kernel)⟩,
   ⟨st [], 2, by decide +kernel, by decide +kernel, by decide +kernel, by decide +kernel, sound_of _ (by decide +kernel)⟩,
   ⟨st [], by decide +kernel, by decide +kernel, by decide +kernel, sound_fw⟩⟩

theorem witness_ResetsEnd :
    (∃ (dom target n : Nat) (bad : List (Nat × Nat)) (r : Reset) (s : State), (s.reset? dom target = some r) ∧ (s.resetOver r = true) ∧ ((opResetDone dom target bad n s.work).Sound)) ∧
    (∃ (dom target : Nat) (r : Reset) (s : State), (s.reset? dom target = some r) ∧ (s.since r.start < r.limit)) ∧
    (∃ (r : Reset) (s : State), (s.reset? 5 0 = some r) ∧ (r.limit ≠ 0) ∧ (r.limit ≤ s.since r.start) ∧ (s.rst.stuck = false) ∧ (s.rst.runs.any (fun q => q.contains 5 0) = false)) ∧
    (∃ (d : Nat) (r : Reset) (s : State), (d < 3) ∧ (s.reset? 4 d = some r) ∧ (r.limit ≠ 0) ∧ (r.limit ≤ s.since r.start) ∧ (s.rst.stuck = false) ∧ (s.rst.runs.any (fun q => q.contains 4 d) = false) ∧ (s.reset? 5 0 = none) ∧ ((opResetLimitExpire 4 d s.work).Sound)) ∧
    (∃ (k : Fin 32) (q : Section) (s : State), (s.sectionOn k = some q) ∧ (q.kind = 2) ∧ (q.ref = k.val) ∧ (q.id < s.nextId) ∧ (16000 ≤ s.since q.start)) :=
  ⟨⟨2, 31, 0, [], (⟨2, 31, 8, 0, 0, 0, false, none, none, [], 0, 0, [], [], []⟩ : Reset), { st [] with rst := ⟨[(⟨2, 31, 8, 0, 0, 0, false, none, none, [], 0, 0, [], [], []⟩ : Reset)], [], 0, false⟩ }, by decide +kernel, by decide +kernel, sound_of _ (by decide +kernel)⟩,
   ⟨4, 1, (⟨4, 1, 8, 9999999999999999, 500, 0, false, none, none, [], 0, 0, [], [], []⟩ : Reset), { st [] with rst := ⟨[(⟨4, 1, 8, 9999999999999999, 500, 0, false, none, none, [], 0, 0, [], [], []⟩ : Reset)], [], 0, false⟩ }, by decide +kernel, by decide +kernel⟩,
   ⟨(⟨5, 0, 8, 0, 500, 0, false, none, none, [], 0, 0, [], [], []⟩ : Reset), { st [] with rst := ⟨[(⟨5, 0, 8, 0, 500, 0, false, none, none, [], 0, 0, [], [], []⟩ : Reset)], [], 0, false⟩ }, by decide +kernel, by decide +kernel, by decide +kernel, by decide +kernel, by decide +kernel⟩,
   ⟨0, lateDie, lateSt, by decide +kernel, by decide +kernel, by decide +kernel, by decide +kernel, by decide +kernel, by decide +kernel, by decide +kernel, sound_late⟩,
   ⟨31, (⟨9, 2, 31, 0, 1, 0, 16, 0, some 31, 0, false⟩ : Section), { st [] with sched := { SchedState.reset with sections := [(⟨9, 2, 31, 0, 1, 0, 16, 0, some 31, 0, false⟩ : Section)] } }, by decide +kernel, by decide +kernel, by decide +kernel, by decide +kernel, by decide +kernel⟩⟩

theorem witness_ClocksChange :
    (∃ (inst : Nat) (s : State), (s.boot.held = false) ∧ ((inst / 1024 = 3 ∨ inst / 1024 = 4)) ∧ (inst % 1024 < 2)) ∧
    (∃ (s : State), (s.boot.held = false)) ∧
    (∃ (a b : Nat) (s : State), (s.ready = true) ∧ (s.get Obj.dvfsCommit = 1)) ∧
    (∃ (d : Fin 2) (c : ClkChange) (s : State), (s.change? d = some c) ∧ (c.locked = false) ∧ (5000 ≤ s.since c.start) ∧ (c.up = true) ∧ (c.reached = false)) ∧
    (∃ (d : Fin 2) (c : ClkChange) (s : State), (s.change? d = some c) ∧ (c.locked = false) ∧ (5000 ≤ s.since c.start) ∧ (c.up = false)) ∧
    (∃ (d : Fin 2) (c : ClkChange) (s : State), (s.change? d = some c) ∧ (100 * ((setpointMv c.mhz - s.get (Obj.vcoreMv d)) + (s.get (Obj.vcoreMv d) - setpointMv c.mhz)) ≤ s.since c.start) ∧ ((c.up = true ∧ c.reached = false ∧ c.locked = false) ∨ (c.up = false ∧ c.switched = true))) ∧
    (∃ (wr : Writer) (s : State), (s.takes wr .host Obj.dvfsCommit) ∧ (s.get Obj.dvfsCommit ≠ 1)) ∧
    (∃ (wr : Writer) (s : State), (s.takes wr .host Obj.dvfsCommit) ∧ (s.get Obj.dvfsCommit = 1)) :=
  ⟨⟨4 * 1024 + 1, st [], by decide +kernel, by decide +kernel, by decide +kernel⟩,
   ⟨st [], by decide +kernel⟩,
   ⟨1800, 1500, { st [(Obj.dvfsCommit, 1)] with objP := [(Obj.dvfsMode, 1)] }, by decide +kernel, by decide +kernel⟩,
   ⟨1, (⟨1, 1850, true, false, false, false, 0⟩ : ClkChange), { st [] with clk := { ClockState.reset with changes := [(⟨1, 1850, true, false, false, false, 0⟩ : ClkChange)] } }, by decide +kernel, by decide +kernel, by decide +kernel, by decide +kernel, by decide +kernel⟩,
   ⟨1, (⟨1, 1200, false, false, false, false, 0⟩ : ClkChange), { st [] with clk := { ClockState.reset with changes := [(⟨1, 1200, false, false, false, false, 0⟩ : ClkChange)] } }, by decide +kernel, by decide +kernel, by decide +kernel, by decide +kernel⟩,
   ⟨1, (⟨1, 1850, true, false, false, false, 0⟩ : ClkChange), { st [] with clk := { ClockState.reset with changes := [(⟨1, 1850, true, false, false, false, 0⟩ : ClkChange)] } }, by decide +kernel, by decide +kernel, by decide +kernel⟩,
   ⟨.fn 0, st [], ⟨by decide +kernel, by decide +kernel⟩, by decide +kernel⟩,
   ⟨.fn 0, st [(Obj.dvfsCommit, 1)], ⟨by decide +kernel, by decide +kernel⟩, by decide +kernel⟩⟩

theorem witness_ObjectWrites :
    (∃ (wr : Writer) (n off : Nat) (data : List Byte) (r : ObjRow) (s : State), (s.serves wr n = true) ∧ (s.rowServed n = some r) ∧ (s.get Obj.mgmtCommit ≠ 1) ∧ (s.get Obj.hokCommit ≠ 1) ∧ (s.reaches wr (objReach n) = false)) ∧
    (∃ (wr : Writer) (n off : Nat) (data : List Byte) (r : ObjRow) (s : State), (s.serves wr n = true) ∧ (s.rowServed n = some r) ∧ (s.get Obj.mgmtCommit ≠ 1) ∧ (s.get Obj.hokCommit ≠ 1) ∧ (s.reaches wr (objReach n) = true) ∧ (r.acc = 0 ∨ r.acc = 4)) ∧
    (∃ (wr : Writer) (n off : Nat) (data : List Byte) (r : ObjRow) (s : State), (s.serves wr n = true) ∧ (s.rowServed n = some r) ∧ (s.get Obj.mgmtCommit ≠ 1) ∧ (s.get Obj.hokCommit ≠ 1) ∧ (s.reaches wr (objReach n) = true) ∧ (r.acc ≠ 0) ∧ (r.acc ≠ 4) ∧ (r.sizeCheck off data.length ≠ 0)) ∧
    (∃ (wr : Writer) (n off : Nat) (data : List Byte) (r : ObjRow) (s : State), (s.serves wr n = true) ∧ (s.rowServed n = some r) ∧ (s.get Obj.mgmtCommit ≠ 1) ∧ (s.get Obj.hokCommit ≠ 1) ∧ (s.reaches wr (objReach n) = true) ∧ (r.acc ≠ 0) ∧ (r.acc ≠ 4) ∧ (r.typ ≠ 8) ∧ (data.length = r.size) ∧ (off = 0) ∧ (r.keep = 0) ∧ ((match objCtx n with | some x => (Work.ctxAction wr x n (leNat data)).isNone = true ∧ s.addHeld x.val n = false | none => (Work.devAction wr n (leNat data)).isNone = true))) :=
  ⟨⟨.fn 1, Obj.storeErase, 0, [0x5A], rowOf Obj.storeErase, st [], by decide +kernel, by decide +kernel, by decide +kernel, by decide +kernel, by decide +kernel⟩,
   ⟨.fn 0, Obj.storeState, 0, [1], rowOf Obj.storeState, st [], by decide +kernel, by decide +kernel, by decide +kernel, by decide +kernel, by decide +kernel, by decide +kernel⟩,
   ⟨.fn 0, Obj.engWdtUs, 0, [1], rowOf Obj.engWdtUs, st [], by decide +kernel, by decide +kernel, by decide +kernel, by decide +kernel, by decide +kernel, by decide +kernel, by decide +kernel, by decide +kernel⟩,
   ⟨.fn 0, Obj.engWdtUs, 0, [1, 2, 3, 4], rowOf Obj.engWdtUs, st [], by decide +kernel, by decide +kernel, by decide +kernel, by decide +kernel, by decide +kernel, by decide +kernel, by decide +kernel, by decide +kernel, by decide +kernel, by decide +kernel, by decide +kernel, by show (Work.devAction _ _ _).isNone = true; decide +kernel⟩⟩

theorem witness_WindowsOperate :
    (∃ (fn : Fin 16) (n off len : Nat) (act : Bool) (s : State), (s.windowUp fn = true) ∧ ((s.window fn).busy = false) ∧ (len ≤ 4096)) ∧
    (∃ (fn : Fin 16) (n off : Nat) (data : List Byte) (s : State), (s.windowUp fn = true) ∧ ((s.window fn).busy = false) ∧ (data.length ≤ 4096) ∧ ((opWinWrite fn n off data s.work).Sound)) ∧
    (∃ (fn : Fin 16) (n off : Nat) (data : List Byte) (s : State), (s.windowUp fn = true) ∧ ((s.window fn).busy = false) ∧ (data.length ≤ 4096) ∧ ((opWinWriteRead fn n off data s.work).Sound)) ∧
    (∃ (fn : Fin 16) (n off len : Nat) (act : Bool) (data : List Byte) (s : State), ∃ i, (s.windowUp fn = true) ∧ ((s.window fn).busy = true) ∧ (i ∈ [Instr.winRead fn n off len act, .winWrite fn n off data, .winWriteRead fn n off data])) ∧
    (∃ (fn : Fin 16) (s : State), (s.windowUp fn = true) ∧ ((s.window fn).busy = true) ∧ (500 ≤ s.since (s.window fn).start)) :=
  ⟨⟨15, Obj.engWdtUs, 0, 4, false, st [], by decide +kernel, by decide +kernel, by decide +kernel⟩,
   ⟨0, Obj.engWdtUs, 0, [1, 2, 3, 4], st [], by decide +kernel, by decide +kernel, by decide +kernel, sound_of _ (by decide +kernel)⟩,
   ⟨0, Obj.engWdtUs, 0, [1, 2, 3, 4], st [], by decide +kernel, by decide +kernel, by decide +kernel, sound_of _ (by decide +kernel)⟩,
   ⟨2, Obj.engWdtUs, 0, 4, false, [1, 2, 3, 4], { st [] with dict := { DictState.reset with windows := [⟨2, Obj.engWdtUs, false, 0, 4, 0, true, 0, [], 0, 0x120⟩] } }, .winWrite 2 Obj.engWdtUs 0 [1, 2, 3, 4], by decide +kernel, by decide +kernel, by simp⟩,
   ⟨2, { st [] with dict := { DictState.reset with windows := [⟨2, Obj.engWdtUs, false, 0, 4, 0, true, 0, [], 0, 0x120⟩] } }, by decide +kernel, by decide +kernel, by decide +kernel⟩⟩

theorem witness_HokutiaSessions :
    (∃ (f : HokRx) (k : Nat) (s : State), (s.mgmtLive = true) ∧ (f.bytes.length = 336) ∧ (hokVer (hokHdrOf f) = 1) ∧ (hokType (hokHdrOf f) = 1) ∧ (hokLen (hokHdrOf f) = 320) ∧ (s.get Obj.entropyState ≠ 1) ∧ ((upto 4).find? (fun k => !s.dict.sessions.any (fun q => q.s == k)) = some k)) ∧
    (∃ (f : HokRx) (q : HokSession) (s : State), (s.mgmtLive = true) ∧ (f.bytes.length ≤ 9120) ∧ (48 ≤ f.bytes.length) ∧ (hokVer (hokHdrOf f) = 1) ∧ (hokLen (hokHdrOf f) = f.bytes.length - 16) ∧ (s.dict.sessions.find? (fun q => q.sid == hokSid (hokHdrOf f)) = some q) ∧ (hokType (hokHdrOf f) = 3) ∧ ((opHokRequestRx f s.work).Sound)) ∧
    (∃ (f : HokRx) (q : HokSession) (s : State), (s.mgmtLive = true) ∧ (f.bytes.length ≤ 9120) ∧ (48 ≤ f.bytes.length) ∧ (hokVer (hokHdrOf f) = 1) ∧ (hokLen (hokHdrOf f) = f.bytes.length - 16) ∧ (s.dict.sessions.find? (fun q => q.sid == hokSid (hokHdrOf f)) = some q) ∧ (hokType (hokHdrOf f) = 8)) ∧
    (∃ (k : Fin 4) (q : HokSession) (s : State), (s.dict.sessions.find? (fun q => q.s == k.val) = some q) ∧ (s.get Obj.hokIdleS * 1000000000 ≤ s.since q.lastValid)) :=
  ⟨⟨hok 336 1 0 0, 3, mgmt [] [{ hses with s := 0 }, { hses with s := 1 }, hses], by decide +kernel, by decide +kernel, by decide +kernel, by decide +kernel, by decide +kernel, by decide +kernel, by decide +kernel⟩,
   ⟨hok 48 3 77 8, hses, mgmt [] [hses], by decide +kernel, by decide +kernel, by decide +kernel, by decide +kernel, by decide +kernel, by decide +kernel, by decide +kernel, hok_sound _ hses _ (by decide +kernel) (by decide +kernel) (by decide +kernel) (by decide +kernel) (by decide +kernel) (by decide +kernel) (by decide +kernel) (sound_of _ (by decide +kernel)) (sound_of _ (by decide +kernel))⟩,
   ⟨hok 48 8 77 0, hses, mgmt [] [hses], by decide +kernel, by decide +kernel, by decide +kernel, by decide +kernel, by decide +kernel, by decide +kernel, by decide +kernel⟩,
   ⟨2, hses, mgmt [] [hses], by decide +kernel, by decide +kernel⟩⟩

theorem witness_ManagementPort :
    (∃ (f : HokRx) (s : State), (s.mgmtLive = true) ∧ (f.bytes.length ≤ 9120) ∧ (16 ≤ f.bytes.length) ∧ (hokVer (hokHdrOf f) = 1) ∧ (hokLen (hokHdrOf f) = f.bytes.length - 16) ∧ (hokType (hokHdrOf f) = 6) ∧ (hokSid (hokHdrOf f) = 0)) ∧
    (∃ (k : Fin 4) (seq : Nat) (n : Notif) (s : State), (s.log.notifs.find? (fun n => n.dest == k.val && n.seq == seq) = some n) ∧ (100000000 ≤ s.since n.sentAt) ∧ (n.resends < 3)) ∧
    (∃ (k : Fin 4) (seq : Nat) (n : Notif) (s : State), (s.log.notifs.find? (fun n => n.dest == k.val && n.seq == seq) = some n) ∧ (100000000 ≤ s.since n.sentAt) ∧ (3 ≤ n.resends)) ∧
    (∃ (s : State), (s.mgmtLive = true)) ∧
    (∃ (wr : Writer) (s : State), (s.takes wr .host Obj.hokCommit) ∧ (s.get Obj.hokCommit ≠ 1)) ∧
    (∃ (wr : Writer) (s : State), (s.takes wr .host Obj.mgmtCommit) ∧ (s.get Obj.mgmtCommit ≠ 1)) ∧
    (∃ (wr : Writer) (s : State), (s.takes wr .host Obj.notifyCommit)) ∧
    (∃ (s : State), (s.mgmtUp = true)) :=
  ⟨⟨hok 16 6 0 4, mgmt [] [], by decide +kernel, by decide +kernel, by decide +kernel, by decide +kernel, by decide +kernel, by decide +kernel, by decide +kernel⟩,
   ⟨3, 4, (⟨3, 4, 0, 2, 0, []⟩ : Notif), { st [] with log := { LogState.reset with notifs := [(⟨3, 4, 0, 2, 0, []⟩ : Notif)] } }, by decide +kernel, by decide +kernel, by decide +kernel⟩,
   ⟨3, 4, (⟨3, 4, 0, 3, 0, []⟩ : Notif), { st [] with log := { LogState.reset with notifs := [(⟨3, 4, 0, 3, 0, []⟩ : Notif)] } }, by decide +kernel, by decide +kernel, by decide +kernel⟩,
   ⟨mgmt [] [], by decide +kernel⟩,
   ⟨.fn 0, { mgmt [] [hses] with objS := [(Obj.hokPort, 99)] }, ⟨by decide +kernel, by decide +kernel⟩, by decide +kernel⟩,
   ⟨.fn 0, mgmt [] [hses], ⟨by decide +kernel, by decide +kernel⟩, by decide +kernel⟩,
   ⟨.fn 0, st [], ⟨by decide +kernel, by decide +kernel⟩⟩,
   ⟨st [], by decide +kernel⟩⟩

theorem witness_StoreAndLog :
    (∃ (n : Nat) (s : State), (s.boot.held = false) ∧ (s.boot.vsbLost = false) ∧ (s.get Obj.storeState ≠ 2) ∧ (s.storeDirty n = true) ∧ (s.dict.storeAt.find? (fun p => p.1 == n) = none)) ∧
    (∃ (n : Nat) (s : State), (s.boot.held = false) ∧ (s.boot.vsbLost = false) ∧ (s.get Obj.storeState ≠ 2) ∧ (s.storeDirty n = true) ∧ (s.dict.storeAt.find? (fun p => p.1 == n) = none)) ∧
    (∃ (wr : Writer) (v : Nat) (s : State), (s.takes wr .host Obj.storeErase) ∧ (v % 256 = 0x5A)) ∧
    (∃ (wr : Writer) (v : Nat) (s : State), (s.takes wr .host Obj.storeErase) ∧ (v % 256 ≠ 0x5A)) ∧
    (∃ (wr : Writer) (s : State), (s.takes wr .host Obj.logClear)) ∧
    (∃ (wr : Writer) (v : Nat) (s : State), (s.takes wr .any Obj.logReadSeq)) ∧
    (∃ (s : State), (0 < s.log.lost) ∧ (0 < s.logRoom)) ∧
    (∃ (n seen : Nat) (s : State), (s.ready = true) ∧ (isPolicy n = true) ∧ (s.get n ≠ seen)) ∧
    (∃ (n seen : Nat) (s : State), (s.ready = true) ∧ (isPolicy n = true) ∧ (s.get n ≠ seen)) :=
  ⟨⟨Obj.engWdtUs, { st [] with dict := { DictState.reset with dirty := [Obj.engWdtUs] } }, by decide +kernel, by decide +kernel, by decide +kernel, by decide +kernel, by decide +kernel⟩,
   ⟨Obj.engWdtUs, { st [] with dict := { DictState.reset with dirty := [Obj.engWdtUs] } }, by decide +kernel, by decide +kernel, by decide +kernel, by decide +kernel, by decide +kernel⟩,
   ⟨.fn 0, 0x15A, st [], ⟨by decide +kernel, by decide +kernel⟩, by decide +kernel⟩,
   ⟨.fn 0, 0, st [], ⟨by decide +kernel, by decide +kernel⟩, by decide +kernel⟩,
   ⟨.fn 0, st [], ⟨by decide +kernel, by decide +kernel⟩⟩,
   ⟨.hok 2, 2 ^ 64 + 5, mgmt [] [hses], ⟨by decide +kernel, by decide +kernel⟩⟩,
   ⟨{ st [] with log := { LogState.reset with lost := 3 } }, by decide +kernel, by decide +kernel⟩,
   ⟨Obj.dvfsMode, 9, st [], by decide +kernel, by decide +kernel, by decide +kernel⟩,
   ⟨Obj.dvfsMode, 9, st [], by decide +kernel, by decide +kernel, by decide +kernel⟩⟩

theorem witness_HostPortActs :
    (∃ (r : Agent) (a : Nat) (d : List Byte) (s : State), (s.hostReads r = true) ∧ (a < 2 ^ 47) ∧ (d.length ≤ 2 ^ 47 - a)) ∧
    (∃ (r : Agent) (a st : Nat) (s : State), (s.hostReads r = true) ∧ ((opHostCplRx r a (.error st) s.work).Sound)) ∧
    (∃ (r : Agent) (a st : Nat) (s : State), (s.hostReads r = true) ∧ (s.mayTimeOut r = true) ∧ ((opHostCplTimeout r a s.work).Sound)) ∧
    (∃ (s : State), ∃ (c : Fin 16), (s.boot.held = false) ∧ (c ≠ 0) ∧ (s.fnEnabled c = true) ∧ ((opFlrVf c s.work).Sound)) ∧
    (∃ (s : State), (s.boot.held = false) ∧ ((opFlrPf s.work).Sound)) ∧
    (∃ (s : State), (s.boot.held = false) ∧ ((opPciePerst s.work).Sound)) ∧
    (∃ (rate : Fin 7) (width : Fin 17) (cfg : HostCfg) (s : State), (s.pcieUp = true)) :=
  ⟨⟨.other, 2 ^ 47 - 2, [0, 9], st [], by decide +kernel, by decide +kernel, by decide +kernel⟩,
   ⟨.other, 5, 1, st [], by decide +kernel, sound_of _ (by decide +kernel)⟩,
   ⟨.other, 5, 1, st [], by decide +kernel, by decide +kernel, sound_of _ (by decide +kernel)⟩,
   ⟨{ st [(Obj.numVfs, 15)] with pcie := { busMaster := [15], msix := [15] } }, 15, by decide +kernel, by decide +kernel, by decide +kernel, sound_of _ (by decide +kernel)⟩,
   ⟨st [(Obj.numVfs, 15)], by decide +kernel, sound_of _ (by decide +kernel)⟩,
   ⟨st [(Obj.numVfs, 15)], by decide +kernel, sound_of _ (by decide +kernel)⟩,
   ⟨6, 16, ⟨15, [0, 1], [0]⟩, st [], by decide +kernel⟩⟩

theorem witness_StartUpPhases :
    (∃ (s : State), (s.boot.held = true) ∧ (s.boot.vsbLost = false)) ∧
    (∃ (s : State), (s.boot.held = true) ∧ (s.boot.vsbLost = false)) ∧
    (∃ (s : State), (s.boot.held = true) ∧ (s.boot.vsbLost = false)) ∧
    (∃ (s : State), (s.boot.held = true) ∧ (s.boot.vsbLost = false)) ∧
    (∃ (s : State), ∃ (bad : List Nat), (s.boot.held = false) ∧ (s.get Obj.bootState = 1) ∧ ((opFwVerifyDone bad s.work).Sound)) ∧
    (∃ (s : State), ∃ (rate : Fin 7) (width : Fin 17), (s.boot.held = false) ∧ (s.get Obj.bootState = 2)) ∧
    (∃ (s : State), ∃ (slow dead : List Nat) (lanes : List (Nat × Nat × Nat)), (s.boot.held = false) ∧ (s.get Obj.bootState = 3) ∧ (s.boot.rails = true)) ∧
    (∃ (s : State), ∃ (res : List (Fin 32 × Nat × Nat)) (cfg : HostCfg), (s.boot.held = false) ∧ (s.get Obj.bootState = 4) ∧ (s.boot.rails = true) ∧ ((opDeviceReady res cfg s.work).Sound)) ∧
    (∃ (s : State), ((opColdRstAssert s.work).Sound)) :=
  ⟨⟨State.reset, by decide +kernel, by decide +kernel⟩,
   ⟨State.reset, by decide +kernel, by decide +kernel⟩,
   ⟨State.reset, by decide +kernel, by decide +kernel⟩,
   ⟨State.reset, by decide +kernel, by decide +kernel⟩,
   ⟨{ st [] with obj := [(Obj.bootState, 1)], boot := { BootState.reset with held := false } }, [0, 1], by decide +kernel, by decide +kernel, sound_of _ (by decide +kernel)⟩,
   ⟨{ st [] with obj := [(Obj.bootState, 2)] }, 6, 16, by decide +kernel, by decide +kernel⟩,
   ⟨{ st [] with obj := [(Obj.bootState, 3)] }, [], [], [], by decide +kernel, by decide +kernel, by decide +kernel⟩,
   ⟨{ st [] with obj := [(Obj.bootState, 4)] }, [], ⟨15, [], []⟩, by decide +kernel, by decide +kernel, by decide +kernel, sound_of _ (by decide +kernel)⟩,
   ⟨one [] (cmd 3 1 0 16), sound_of _ (by decide +kernel)⟩⟩

theorem witness_FirmwareAndEntropy_FirmwareIsStaged :
    (∃ (wr : Writer) (off : Nat) (data : List Byte) (s : State), (s.takes wr .host Obj.fwStage) ∧ (s.get Obj.fwStageState ≠ 2) ∧ (0 < data.length) ∧ (off + data.length ≤ 16777472)) ∧
    (∃ (wr : Writer) (off : Nat) (data : List Byte) (s : State), (s.takes wr .host Obj.fwStage) ∧ (s.get Obj.fwStageState = 2)) ∧
    (∃ (wr : Writer) (s : State), (s.takes wr .host Obj.fwStageCommit) ∧ (s.get Obj.fwStageState ≠ 2)) ∧
    (∃ (wr : Writer) (s : State), (s.takes wr .host Obj.fwStageCommit) ∧ (s.get Obj.fwStageState = 2)) ∧
    (∃ (s : State), (s.get Obj.fwStageState = 2)) ∧
    (∃ (s : State), (s.get Obj.fwStageState = 2) ∧ (s.get Obj.bootState ≠ 7)) ∧
    (∃ (wr : Writer) (s : State), (s.takes wr .host Obj.fwSvnCommit)) :=
  ⟨⟨.fn 0, 16777471, [7], st [], ⟨by decide +kernel, by decide +kernel⟩, by decide +kernel, by decide +kernel, by decide +kernel⟩,
   ⟨.fn 0, 16777471, [7], st [(Obj.fwStageState, 2)], ⟨by decide +kernel, by decide +kernel⟩, by decide +kernel⟩,
   ⟨.fn 0, st [], ⟨by decide +kernel, by decide +kernel⟩, by decide +kernel⟩,
   ⟨.fn 0, st [(Obj.fwStageState, 2)], ⟨by decide +kernel, by decide +kernel⟩, by decide +kernel⟩,
   ⟨st [(Obj.fwStageState, 2)], by decide +kernel⟩,
   ⟨st [(Obj.fwStageState, 2)], by decide +kernel, by decide +kernel⟩,
   ⟨.fn 0, st [(Obj.fwSvn, 63)], ⟨by decide +kernel, by decide +kernel⟩⟩⟩

theorem witness_FirmwareAndEntropy_AttestationAndEntropy :
    (∃ (wr : Writer) (x : Fin 16) (s : State), (s.takes wr (.own x) (Obj.attestReq x)) ∧ (s.get (Obj.attestState x) ≠ 1)) ∧
    (∃ (wr : Writer) (x : Fin 16) (s : State), (s.takes wr (.own x) (Obj.attestReq x)) ∧ (s.get (Obj.attestState x) = 1)) ∧
    (∃ (x : Fin 16) (a : Attest) (s : State), (s.boot.attest.find? (fun a => a.ctx == x.val) = some a) ∧ (s.boot.attest.any (fun b => b.before a) = false)) ∧
    (∃ (s : State), (s.boot.held = false) ∧ (s.boot.vsbLost = false) ∧ (s.get Obj.bootState ≠ 0) ∧ (s.get Obj.bootState ≠ 8) ∧ (s.get Obj.entropyState ≠ 1)) ∧
    (∃ (s : State), (s.get Obj.entropyState ≠ 0) ∧ (1000000000 ≤ s.since s.boot.retestAt) ∧ (2 ≤ s.boot.passes)) ∧
    (∃ (s : State), (s.get Obj.entropyState ≠ 0) ∧ (1000000000 ≤ s.since s.boot.retestAt)) :=
  ⟨⟨.fn 1, 1, st [], ⟨by decide +kernel, by decide +kernel⟩, by decide +kernel⟩,
   ⟨.fn 1, 1, st [(Obj.attestState 1, 1)], ⟨by decide +kernel, by decide +kernel⟩, by decide +kernel⟩,
   ⟨1, ⟨1, 9, 5⟩, { st [(Obj.attestState 1, 1)] with boot := { Dev.reset.boot with attest := [⟨1, 9, 5⟩, ⟨2, 9, 5⟩], held := false, rails := true } }, by decide +kernel, by decide +kernel⟩,
   ⟨st [], by decide +kernel, by decide +kernel, by decide +kernel, by decide +kernel, by decide +kernel⟩,
   ⟨{ st [(Obj.entropyState, 1)] with boot := { Dev.reset.boot with passes := 2, held := false, rails := true } }, by decide +kernel, by decide +kernel, by decide +kernel⟩,
   ⟨st [(Obj.entropyState, 1)], by decide +kernel, by decide +kernel⟩⟩

theorem witness_PowerIsGuarded :
    (∃ (mv : Nat) (s : State), (s.powered = true) ∧ (36000 ≤ mv) ∧ (mv < 40000)) ∧
    (∃ (mv : Nat) (s : State), (s.powered = true) ∧ (60000 < mv) ∧ (mv ≤ 62000)) ∧
    (∃ (mv : Nat) (s : State), ∃ (hi : Bool), (s.powered = true) ∧ (s.boot.rails = true) ∧ ((opP48vTrip hi s.work).Sound)) ∧
    (∃ (mv : Nat) (s : State), ∃ (dram : Bool) (die : Fin 4), (s.powered = true) ∧ (s.boot.rails = true) ∧ ((opThermtrip dram die s.work).Sound)) ∧
    (∃ (s : State), ((opP12vSbLoss s.work).Sound)) ∧
    (∃ (r : Sensors) (s : State), (s.ready = true)) ∧
    (∃ (c i : Bool) (s : State), (s.ready = true) ∧ ((c || i) = true)) ∧
    (∃ (s : State), (s.clk.div = true) ∧ (1000000 ≤ s.since s.clk.divAt)) ∧
    (∃ (s : State), (s.clk.div = true) ∧ (s.since s.clk.divAt < 1000000)) :=
  ⟨⟨39999, st [], by decide +kernel, by decide +kernel, by decide +kernel⟩,
   ⟨62000, st [], by decide +kernel, by decide +kernel, by decide +kernel⟩,
   ⟨0, one [] (cmd 3 1 0 16), true, by decide +kernel, by decide +kernel, sound_of _ (by decide +kernel)⟩,
   ⟨0, one [] (cmd 3 1 0 16), true, 3, by decide +kernel, by decide +kernel, sound_of _ (by decide +kernel)⟩,
   ⟨one [] (cmd 3 1 0 16), sound_of _ (by decide +kernel)⟩,
   ⟨⟨[70, 80], -5, 60, 100000, 48000, 20, 12000, 7⟩, st [], by decide +kernel⟩,
   ⟨false, true, st [], by decide +kernel, by decide +kernel⟩,
   ⟨{ st [] with clk := { ClockState.reset with div := true, divAt := 0 } }, by decide +kernel, by decide +kernel⟩,
   ⟨{ st [] with clk := { ClockState.reset with div := true, divAt := 9999999999999999 } }, by decide +kernel, by decide +kernel⟩⟩

theorem witness_TestAccess :
    (∃ (s : State), (s.boot.vsbLost = false)) ∧
    (∃ (s : State), ∃ (i : Instr) (code out : Nat), (s.boot.vsbLost = false) ∧ ((i, code, out) ∈ [(Instr.idcode, 4, idcodeNum), (.usercode, 6, serialNum % 2 ^ 32)])) ∧
    (∃ (s : State), ∃ (pins load : Nat), (s.boot.vsbLost = false)) ∧
    (∃ (s : State), ∃ (pins load : Nat) (i : Instr) (code : Nat), (s.boot.vsbLost = false) ∧ ((i, code) ∈ [(Instr.extest pins load, 0), (.clamp, 3), (.highz, 5), (.extestPulse pins load, 8), (.extestTrain pins load, 9)]) ∧ (s.boot.testMode = true)) ∧
    (∃ (s : State), ∃ (pins load : Nat) (i : Instr) (code : Nat), (s.boot.vsbLost = false) ∧ ((i, code) ∈ [(Instr.extest pins load, 0), (.clamp, 3), (.highz, 5), (.extestPulse pins load, 8), (.extestTrain pins load, 9)]) ∧ (s.boot.testMode = false)) ∧
    (∃ (s : State), ∃ (code : Fin 256), (s.boot.vsbLost = false) ∧ (tapListed.contains code.val = false)) :=
  ⟨⟨st [], by decide +kernel⟩,
   ⟨st [], .usercode, 6, serialNum % 2 ^ 32, by decide +kernel, by simp⟩,
   ⟨st [], 2 ^ 102 - 1, 5, by decide +kernel⟩,
   ⟨{ st [] with boot := { Dev.reset.boot with testMode := true, held := false, rails := true } }, 0, 5, .clamp, 3, by decide +kernel, by simp, by decide +kernel⟩,
   ⟨st [], 0, 5, .extestTrain 0 5, 9, by decide +kernel, by simp, by decide +kernel⟩,
   ⟨st [], 7, by decide +kernel, by decide +kernel⟩⟩

end Sys2Proof.Tests
end

namespace Sys2Proof.Machine

/-- The fast tier is one region of the model (the segment reading below Table 01.5), so the region of its first address runs
past the C0 half, the table's row that holds the address. -/
theorem regionOf_zero : regionOf 0 = some ⟨0, 0x006BFFFFFFFF⟩ := rfl

/-- Refutes O8: at address 0 the region is the whole fast tier, whose bounds are those of no row of Table 01.5; its row ends at
0x0035FFFFFFFF, and no scratchpad begins at 0. -/
theorem not_addressesDecode : ¬ Obligations.AddressesDecode := by
  unfold Obligations.AddressesDecode
  rintro ⟨-, region_is_row, -⟩
  rcases region_is_row 0 _ regionOf_zero with listed | ⟨n, -, first_eq, -⟩
  · exact absurd listed (by decide)
  · simp only at first_eq
    omega

end Sys2Proof.Machine

namespace Sys2Proof.Machine

/-! ### Trits in a byte (R36) -/

/-- R36's sum written out; a digit that is missing is 1, the zero trit (R38). -/
theorem tritByte_eq_sum (l : List Nat) :
    tritByte l = l.getD 0 1 + l.getD 1 1 * 3 + l.getD 2 1 * 9 + l.getD 3 1 * 27 + l.getD 4 1 * 81 := by
  simp only [tritByte, upto, List.range_succ, List.range_zero, List.nil_append, List.cons_append, List.foldl_cons, List.foldl_nil]
  omega

theorem getD_zeroTrit_lt_three {l : List Nat} (digits : ∀ d ∈ l, d < 3) (i : Nat) : l.getD i 1 < 3 := by
  rw [List.getD_eq_getElem?_getD]
  cases h : l[i]? with
  | none => exact (by decide : 1 < 3)
  | some d => exact digits d (List.mem_of_getElem? h)

/-- The device never writes a code that R37 reads as five zeros. -/
theorem tritByte_lt {l : List Nat} (digits : ∀ d ∈ l, d < 3) : tritByte l < 243 := by
  have lt := getD_zeroTrit_lt_three digits
  have := lt 0; have := lt 1; have := lt 2; have := lt 3; have := lt 4
  rw [tritByte_eq_sum]
  omega

theorem tritByte_digit {l : List Nat} (digits : ∀ d ∈ l, d < 3) {i : Nat} (hi : i < 5) :
    tritByte l / 3 ^ i % 3 = l.getD i 1 := by
  have lt := getD_zeroTrit_lt_three digits
  have := lt 0; have := lt 1; have := lt 2; have := lt 3; have := lt 4
  rw [tritByte_eq_sum]
  obtain rfl | rfl | rfl | rfl | rfl : i = 0 ∨ i = 1 ∨ i = 2 ∨ i = 3 ∨ i = 4 := by omega
  all_goals omega

/-- Byte j holds the digits from element 5j on. -/
theorem tritBytes_getD {k j : Nat} (l : List Nat) (hj : j < k) :
    (tritBytes k l).getD j 0 = tritByte ((l.drop (5 * j)).take 5) := by
  induction k generalizing j l with
  | zero => omega
  | succ k ih =>
    cases j with
    | zero => rfl
    | succ j =>
      rw [tritBytes, List.getD_cons_succ, ih (l.drop 5) (by omega), List.drop_drop, Nat.mul_succ, Nat.add_comm 5]

theorem offset_n2t_of_lt {blk i : Nat} (hi : i < blk) : Fmt.n2t.offset blk i = i / 5 := by
  simp only [Fmt.offset, Nat.div_eq_of_lt hi, Nat.mod_eq_of_lt hi, Nat.zero_mul, Nat.zero_add]

/-- Reading an element of the first block: the digit of its byte that its place in the group of five names. -/
theorem elemCode_n2t_of_lt {blk i : Nat} {byte : Nat → Nat} (hi : i < blk) (hcode : byte (i / 5) < 243) :
    elemCode .n2t blk byte i = byte (i / 5) / 3 ^ (i % 5) % 3 := by
  simp only [elemCode, offset_n2t_of_lt hi, Nat.mod_eq_of_lt hi, if_neg (Nat.not_le.mpr hcode)]

/-- The digits of a block of any size are read back from the bytes they are coded in. -/
theorem elemCode_tritBytes {l : List Nat} (digits : ∀ d ∈ l, d < 3) {i : Nat} (hi : i < l.length) :
    elemCode .n2t l.length (fun j => (tritBytes (ceilDiv l.length 5) l).getD j 0) i = l.getD i 0 := by
  have group_digits : ∀ d ∈ (l.drop (5 * (i / 5))).take 5, d < 3 := fun d hd =>
    digits d (List.mem_of_mem_drop (List.mem_of_mem_take hd))
  have byte_eq : (tritBytes (ceilDiv l.length 5) l).getD (i / 5) 0 = tritByte ((l.drop (5 * (i / 5))).take 5) :=
    tritBytes_getD l (by unfold ceilDiv; omega)
  have place_lt : i % 5 < 5 := Nat.mod_lt i (by decide)
  rw [elemCode_n2t_of_lt hi (byte_eq ▸ tritByte_lt group_digits), byte_eq, tritByte_digit group_digits place_lt]
  simp only [List.getD_eq_getElem?_getD, List.getElem?_take_of_lt place_lt, List.getElem?_drop, Nat.div_add_mod,
    List.getElem?_eq_getElem hi, Option.getD_some]

theorem tritOf_of_lt {c : Nat} (i : Nat) (hc : c < 243) : tritOf c i = ((c / 3 ^ i % 3 : Nat) : Int) - 1 :=
  if_neg (Nat.not_le.mpr hc)

/-- Settles O60: a byte's code is R36's sum, whose base-3 digits are its trits' digits, so every element is read back. -/
theorem tritsAreCoded : Obligations.TritsAreCoded := by
  unfold Obligations.TritsAreCoded
  refine ⟨fun l hlen _ => ?_, fun blk l i _ hlen digits hi => ?_, fun c i hc _ => tritOf_of_lt i hc⟩
  · match l, hlen with
    | [a, b, c, d, e], _ => exact tritByte_eq_sum [a, b, c, d, e]
  · subst hlen
    exact elemCode_tritBytes digits hi

end Sys2Proof.Machine

namespace Sys2Proof.Machine

/-! ### Event counters (R99, R104) -/

/-- A write of a BLOB leaves a number of the same copy whose bytes it does not touch. -/
theorem Work.blobPut_blobNat_other {c : Copy} {n n' off off' v len len' : Nat} (w : Work) (fits : off + len ≤ 2 ^ 32)
    (fits' : off' + len' ≤ 2 ^ 32) (apart : n' ≠ n ∨ off' + len' ≤ off ∨ off + len ≤ off') :
    (w.blobPut c n off v len).blobNat c n' off' len' = w.blobNat c n' off' len' := by
  have written : (w.blobPut c n off v len).blobs c = blobWrite (w.blobs c) n off v len := by
    cases c <;> rfl
  induction len' generalizing off' with
  | zero => rfl
  | succ k ih =>
    rw [Dev.blobNat, Dev.blobNat, ih (by omega) (by omega), written,
      blobWrite_get n n' off' (by omega) len _ off v fits, if_neg (by omega)]

/-- The BLOBs in force, EVENTS among them, and the queues with their commands in flight. -/
def Dev.eventState (w : Dev) : List (Nat × Nat) × QueueState := (w.blob, w.q)

theorem Dev.blobNat_active_of_blob_eq {w w' : Dev} (same : w'.blob = w.blob) (n off len : Nat) :
    w'.blobNat .active n off len = w.blobNat .active n off len := by
  induction len generalizing off with
  | zero => rfl
  | succ k ih => rw [Dev.blobNat, Dev.blobNat, ih, Dev.blobs, Dev.blobs, same]

/-- A counter is read from the BLOBs in force alone. -/
theorem Dev.evt_of_blob_eq {w w' : Dev} (same : w'.blob = w.blob) (x n : Nat) : w'.evt x n = w.evt x n :=
  Dev.blobNat_active_of_blob_eq same _ _ _

theorem foldl_eventState {α : Type} {f : Work → α → Work} (keeps : ∀ w a, (f w a).eventState = w.eventState) (l : List α)
    (w : Work) : (l.foldl f w).eventState = w.eventState :=
  List.foldlRecOn l f (motive := fun w' => w'.eventState = w.eventState) rfl (fun w' same a _ => (keeps w' a).trans same)

/-! The fills that an update of a counter lets pass (R244) change credits, waits and fills, and no counter or command. -/

theorem Work.issueFill_eventState (id k : Nat) (w : Work) : (w.issueFill id k).eventState = w.eventState := by
  induction k generalizing w with
  | zero => rfl
  | succ k ih =>
    unfold Work.issueFill
    split
    · split
      · split
        · rw [ih]
          rfl
        · rfl
      · rfl
    · rfl

theorem Work.issueBuffer_eventState (b : Nat) (w : Work) : (w.issueBuffer b).eventState = w.eventState := by
  refine foldl_eventState (fun w f => ?_) _ w
  split
  · exact w.issueFill_eventState f.id _
  · rfl

theorem Work.passFill_eventState (id : Nat) (w : Work) : (w.passFill id).eventState = w.eventState := by
  unfold Work.passFill
  split
  · split
    · split
      · rw [Work.issueBuffer_eventState]
        split <;> rfl
      · rfl
    · rfl
  · rfl

theorem Work.passFills_eventState (x : Nat) (w : Work) : (w.passFills x).eventState = w.eventState := by
  refine foldl_eventState (fun w f => ?_) _ w
  split
  · exact w.passFill_eventState f.id
  · rfl

/-- Of the BLOBs, the update of a counter writes the counter alone. -/
theorem Work.evtPut_blob (x n v : Nat) (w : Work) :
    (w.evtPut x n v).blob = (w.blobPut .active (Obj.events x) (8 * n) (v % 2 ^ 64) 8).blob :=
  congrArg Prod.fst (Work.passFills_eventState x _)

/-- What the update of counter n of context x to v does to a command in flight: an EVT_WAIT whose condition it makes true is
released (R99). -/
def Cmd.afterEvt (x n v : Nat) (c : Cmd) : Cmd :=
  if c.ctx = x ∧ c.q = 4 ∧ cOpcode c.raw = 0x02 ∧ kEvt c.raw = n ∧ kValue c.raw ≤ v then { c with released := true } else c

theorem Cmd.afterEvt_id (x n v : Nat) (c : Cmd) : (c.afterEvt x n v).id = c.id := by
  unfold Cmd.afterEvt
  split <;> rfl

theorem Work.evtPut_cmds (x n v : Nat) (w : Work) : (w.evtPut x n v).q.cmds = w.q.cmds.map (Cmd.afterEvt x n (v % 2 ^ 64)) :=
  congrArg (fun e => e.2.cmds) (Work.passFills_eventState x _)

/-- The update of a counter starts no command and removes none. -/
theorem Work.evtPut_cmdIds (x n v : Nat) (w : Work) :
    (w.evtPut x n v).q.cmds.map (fun c => c.id) = w.q.cmds.map (fun c => c.id) := by
  rw [Work.evtPut_cmds, List.map_map]
  exact List.map_congr_left (fun c _ => c.afterEvt_id x n _)

theorem Work.evtPut_evt_same {n : Nat} (x v : Nat) (w : Work) (hn : n < 256) : (w.evtPut x n v).evt x n = v % 2 ^ 64 := by
  rw [Dev.evt_of_blob_eq (w.evtPut_blob x n v), Dev.evt, Work.blobPut_blobNat _ _ _ _ _ _ (by omega)]
  omega

theorem Work.evtPut_evt_other {n m : Nat} (x v : Nat) (w : Work) (hn : n < 256) (hm : m < 256) (other : m ≠ n) :
    (w.evtPut x n v).evt x m = w.evt x m := by
  rw [Dev.evt_of_blob_eq (w.evtPut_blob x n v), Dev.evt,
    Work.blobPut_blobNat_other w (by omega) (by omega) (.inr (by omega)), Dev.evt]

/-- R81, R104: the physical function, or the function whose page it is, adds to a counter of a context that is not OFF. -/
theorem opEvtHost_taken {fn x : Fin 16} (v : Nat) {w : Work} (own : fn = 0 ∨ fn = x) (ready : w.ready = true)
    (on : w.get (Obj.ctxState x) ≠ 0) : opEvtHost fn x 64 v w = w.evtAdd x (bits v 0 8) (bits v 8 56) := by
  have own_page : ¬(fn.val ≠ 0 ∧ fn.val ≠ x.val) := by
    rintro ⟨not_physical, not_own⟩
    rcases own with rfl | rfl
    · exact not_physical rfl
    · exact not_own rfl
  exact (if_neg own_page).trans ((if_pos ready).trans (if_pos ⟨rfl, on⟩))

/-- Settles O10: the write is one update of counter EVT, which writes that counter's eight bytes and no memory. -/
theorem hostEventsAdd : Obligations.HostEventsAdd := by
  unfold Obligations.HostEventsAdd
  intro fn x v s own ready on
  have counter_lt : bits v 0 8 < 256 := Nat.mod_lt _ (by decide)
  have taken : opEvtHost fn x 64 v s.work = s.work.evtAdd x (bits v 0 8) (bits v 8 56) := opEvtHost_taken v own ready on
  have runs := (exec_work (.evtHost fn x 64 v) s).trans (s.run_quiet _ (opEvtHost_out fn x 64 v s.work))
  have start_evt : ∀ n, s.work.evt x n = s.evt x n := Dev.evt_of_blob_eq rfl x
  simp only [work, taken, Work.evtAdd, start_evt] at runs
  refine ⟨_, runs, fun _ => rfl, ?_, fun n hn other => ?_, Work.evtPut_cmdIds _ _ _ _⟩
  · exact (Work.evtPut_evt_same x _ s.work counter_lt).trans (Nat.mod_mod _ _)
  · exact (Work.evtPut_evt_other x _ s.work counter_lt hn other).trans (start_evt n)

end Sys2Proof.Machine

namespace Sys2Proof.Machine

/-! ### Answers of the object engine (R491, R569) -/

/-- R7: area E has no table. -/
theorem objRow_of_areaE {n : Nat} (areaE : n / 0x100000 = 0xE) : objRow n = none := by
  rw [objRow, areaE]
  rfl

theorem Dev.rowServed_of_unlisted {n : Nat} (w : Dev) (unlisted : objRow n = none) : w.rowServed n = none := by
  unfold Dev.rowServed
  split
  · rfl
  · exact unlisted

/-! R569's checks, in their order: each lemma is the answer where that check is the first to fail. -/

theorem Work.objRd_of_not_served {w : Work} {n : Nat} (absent : w.rowServed n = none) (wr : Writer) (off len : Nat) (act : Bool) :
    w.objRd wr n off len act = ((0x120, List.replicate len 0), w) := by
  simp only [Work.objRd, absent]

theorem Work.objWr_of_not_served {w : Work} {n : Nat} (absent : w.rowServed n = none) (wr : Writer) (off : Nat) (d : List Byte) :
    w.objWr wr n off d = (0x120, w) := by
  simp only [Work.objWr, absent]

/-- A WRITE_READ whose write fails ends as that write does and reads nothing. -/
theorem Work.objWrRd_of_objWr_failed {w w' : Work} {wr : Writer} {n off st : Nat} {d : List Byte}
    (write : w.objWr wr n off d = (st, w')) (failed : st ≠ 0) :
    w.objWrRd wr n off d = ((st, List.replicate d.length 0), w') := by
  simp only [Work.objWrRd, write, if_pos failed]

theorem Work.objWr_of_readOnly {w : Work} {n : Nat} {r : ObjRow} {wr : Writer} (served : w.rowServed n = some r)
    (reach : w.reaches wr (objReach n) = true) (readOnly : r.acc = 0 ∨ r.acc = 4) (off : Nat) (d : List Byte) :
    w.objWr wr n off d = (0x122, w.bump Obj.roWriteCount 1) := by
  simp only [Work.objWr, served, reach, Bool.true_eq_false, if_false, if_pos readOnly]

theorem Work.objRd_of_writeOnly {w : Work} {n : Nat} {r : ObjRow} (served : w.rowServed n = some r) (writeOnly : r.acc = 3)
    (wr : Writer) (off len : Nat) (act : Bool) : w.objRd wr n off len act = ((0x121, List.replicate len 0), w) := by
  simp only [Work.objRd, served, if_pos writeOnly]

/-- Settles O50: no row of a table holds a number of area E, and each answer is that of the first check of R569 that fails. -/
theorem dictionaryAnswers : Obligations.DictionaryAnswers := by
  unfold Obligations.DictionaryAnswers
  refine ⟨fun _ => objRow_of_areaE, fun wr n off len act d s unlisted => ?noObject,
    fun wr n off d r s served readOnly reach => ?notWritable,
    fun wr n off len act r s served writeOnly => Work.objRd_of_writeOnly served writeOnly wr off len act⟩
  case noObject =>
    have absent : s.work.rowServed n = none := s.work.rowServed_of_unlisted unlisted
    have write := Work.objWr_of_not_served absent wr off d
    exact ⟨Work.objRd_of_not_served absent wr off len act, write, Work.objWrRd_of_objWr_failed write (by decide)⟩
  case notWritable =>
    have write : s.work.objWr wr n off d = (0x122, s.work.bump Obj.roWriteCount 1) :=
      Work.objWr_of_readOnly served reach readOnly off d
    have count : ∀ m, (s.work.bump Obj.roWriteCount 1).get m =
        if m = Obj.roWriteCount then min (s.get Obj.roWriteCount + 1) (maxU 64) else s.get m :=
      fun m => Work.bump_get Obj.roWriteCount 1 m s.work
    exact ⟨congrArg Prod.fst write, congrArg Prod.snd write, (count _).trans (if_pos rfl),
      fun m other => (count m).trans (if_neg other)⟩

end Sys2Proof.Machine

namespace Sys2Proof.Machine

/-! ### The block as a whole -/

/-- Settles O1: the two sides are one branch of `step`. -/
theorem stepRunsTheFrontCommand : Obligations.StepRunsTheFrontCommand := by
  unfold Obligations.StepRunsTheFrontCommand
  intro c rest s
  rfl

/-- A step with no command waiting and the power on is the run of one cycle of the time base. -/
theorem step_of_powered {s : State} (empty : s.pending = []) (powered : s.powered = true) :
    step s = .next { toDev := s.work.tick.toDev, mem := s.mem, pending := s.pending } := by
  rw [← s.run_quiet Work.tick rfl, step, empty]
  exact if_pos powered

theorem step_of_not_powered {s : State} (empty : s.pending = []) (off : s.powered = false) : step s = .next s := by
  rw [step, empty]
  exact if_neg (by rw [off]; decide)

/-- R354: an uncorrected cycle is 2 ns, counted in parts of 10⁹. -/
theorem Work.tick_time_of_uncorrected {w : Work} (freq : w.net.ptp.freq = 0) (slew : w.net.ptp.slew = 0) :
    w.tick.time = w.time + (w.net.ptp.sub + 2000000000) / 1000000000 := by
  have units : ((w.net.ptp.sub : Int) + 2 * (1000000000 + (w.net.ptp.freq + w.net.ptp.slew))).toNat
      = w.net.ptp.sub + 2000000000 := by
    rw [freq, slew]
    omega
  simp only [Work.tick, units]

/-- Settles O2: the tick writes the time base and no memory, object or queue. -/
theorem stepIdlesOnAnEmptyQueue : Obligations.StepIdlesOnAnEmptyQueue := by
  unfold Obligations.StepIdlesOnAnEmptyQueue
  intro s empty
  refine ⟨step_of_not_powered empty, fun powered => ⟨_, step_of_powered empty powered, rfl, empty, fun _ _ => rfl, rfl, ?_⟩⟩
  intro freq slew
  exact Work.tick_time_of_uncorrected (w := s.work) freq slew

/-- What a step that answers a next state has done: nothing, one cycle of the time base, or the work of the front command. -/
theorem step_cases {s t : State} (h : step s = .next t) :
    t = s ∨ t = s.after Work.tick ∨
      ∃ i rest, t = State.after { s with pending := rest } (work i) ∧ (work i s.work).Sound := by
  unfold step at h
  split at h
  · split at h
    · exact .inr (.inl (s.run_next t _ h))
    · exact .inl (Host.Outcome.next.inj h).symm
  · next i rest _ =>
    rw [exec_work] at h
    rcases State.run_cases { s with pending := rest } (work i) with ⟨e, sound⟩ | ⟨x, _, _, e⟩
    · exact .inr (.inr ⟨i, rest, State.run_next _ t _ h, sound⟩)
    · rw [e] at h
      cases h

/-! ### Memory stays inside the map (R18) -/

/-- An address of a mapped range has a region. -/
theorem regionOf_isSome_of_mapped {a n b : Nat} (m : mapped a n = true) (lo : a ≤ b) (hi : b < a + n) :
    (regionOf b).isSome = true := by
  unfold mapped at m
  split at m
  · next r found =>
    have inside := List.find?_some found
    have fits : a + n ≤ r.last + 1 := of_decide_eq_true m
    simp only [Bool.and_eq_true, decide_eq_true_eq] at inside
    refine List.find?_isSome.mpr ⟨r, List.mem_of_find?_eq_some found, ?_⟩
    simp only [Bool.and_eq_true, decide_eq_true_eq]
    omega
  · cases m

theorem Memory.mem_set {m : List (Nat × Byte)} {a : Nat} {v : Byte} {p : Nat × Byte} (h : p ∈ Memory.set m a v) :
    p.1 = a ∨ p ∈ m := by
  unfold Memory.set Store.set at h
  split at h
  · exact .inr (List.mem_filter.mp h).1
  · rcases Store.mem_insert _ _ _ _ h with rfl | h
    · exact .inl rfl
    · exact .inr (List.mem_filter.mp h).1

theorem Memory.mem_write {d : List Byte} {m : List (Nat × Byte)} {a : Nat} {p : Nat × Byte} (h : p ∈ Memory.write m a d) :
    (a ≤ p.1 ∧ p.1 < a + d.length) ∨ p ∈ m := by
  induction d generalizing m a with
  | nil => exact .inr h
  | cons b r ih =>
    rw [List.length_cons]
    rcases ih h with inside | h
    · exact .inl (by omega)
    · rcases Memory.mem_set h with at_a | h
      · exact .inl (by omega)
      · exact .inr h

/-- A listed byte was listed before, or lies in one of the writes. -/
theorem Memory.mem_applyAll {l : List MemWrite} {m : List (Nat × Byte)} {p : Nat × Byte} (h : p ∈ Memory.applyAll m l) :
    (∃ x ∈ l, x.addr ≤ p.1 ∧ p.1 < x.addr + x.data.length) ∨ p ∈ m := by
  induction l with
  | nil => exact .inr h
  | cons x r ih =>
    rcases Memory.mem_write h with inside | h
    · exact .inl ⟨x, List.mem_cons_self, inside⟩
    · rcases ih h with ⟨y, hy, inside⟩ | h
      · exact .inl ⟨y, List.mem_cons_of_mem _ hy, inside⟩
      · exact .inr h

/-- Work whose writes are all mapped leaves memory inside the map. -/
theorem State.after_memMapped {s : State} {f : Work → Work} (before : s.MemMapped) (sound : (f s.work).Sound) :
    (s.after f).MemMapped := by
  intro p hp
  rcases Memory.mem_applyAll hp with ⟨x, hx, lo, hi⟩ | hp
  · exact regionOf_isSome_of_mapped (sound x hx) lo hi
  · exact before p hp

/-- Settles O4: a step's writes keep the canonical form, and a step that answers a next state has written mapped bytes alone. -/
theorem stepKeepsMemoryCanonical : Obligations.StepKeepsMemoryCanonical := by
  unfold Obligations.StepKeepsMemoryCanonical
  intro s t canonical inside h
  rcases step_cases h with rfl | rfl | ⟨i, rest, rfl, sound⟩
  · exact ⟨canonical, inside⟩
  · exact ⟨s.after_memWf _ canonical, State.after_memMapped inside (by intro x hx; cases hx)⟩
  · exact ⟨State.after_memWf _ _ canonical, State.after_memMapped inside sound⟩

/-- Settles O6: a command runs its work, which stops at a write outside the map and nowhere else. -/
theorem commandsStopOnlyOutsideTheMap : Obligations.CommandsStopOnlyOutsideTheMap := by
  unfold Obligations.CommandsStopOnlyOutsideTheMap
  intro i s
  rw [exec_work]
  rcases s.run_cases (work i) with ⟨e, sound⟩ | ⟨x, hx, outside, e⟩ <;> rw [e]
  · exact ⟨fun _ h => (nomatch h), iff_of_true sound ⟨_, rfl⟩, fun _ h => (nomatch h)⟩
  · refine ⟨fun _ h => (nomatch h), iff_of_false (fun sound => ?_) (fun ⟨_, h⟩ => nomatch h), fun f h => ?_⟩
    · exact Bool.false_ne_true (outside.symm.trans (sound x hx))
    · exact ⟨x, hx, outside, (Host.Outcome.fault.inj h).symm⟩

/-- Settles O7: memory after a command is memory before it with the command's writes, and the queue is not the command's. -/
theorem bytesOutsideTheWritesStay : Obligations.BytesOutsideTheWritesStay := by
  unfold Obligations.BytesOutsideTheWritesStay
  intro i s t h
  rw [exec_work] at h
  obtain rfl := s.run_next t _ h
  exact ⟨rfl, fun a uncovered => Memory.get_applyAll_outside _ _ a uncovered⟩

end Sys2Proof.Machine

namespace Sys2Proof.Machine

/-! ### The book-keeping of cores and commands -/

/-- What the book-keeping reads of the device: the cores' numbers, the identities of the commands in flight, and the next identity. -/
def Dev.book (w : Dev) : List Nat × List Nat × Nat :=
  (w.sched.cores.map (fun c => c.k), w.q.cmds.map (fun c => c.id), w.nextId)

/-- The book of a device written out. -/
@[simp] theorem Dev.book_mk (time : Nat) (obj objS objP blob blobS blobP : List (Nat × Nat)) (log : LogState) (sent : List OutMsg)
    (nextId free : Nat) (pcie : PcieState) (q : QueueState) (bob : BobbinState) (hoop : HoopState) (ext : ExtState)
    (sched : SchedState) (picot : PicotState) (net : NetState) (plait : PlaitState) (dict : DictState) (arena : ArenaState)
    (life : LifeState) (pair : PairState) (health : HealthState) (rst : ResetState) (boot : BootState) (clk : ClockState) :
    Dev.book ⟨time, obj, objS, objP, blob, blobS, blobP, log, sent, nextId, free, pcie, q, bob, hoop, ext, sched, picot, net, plait,
      dict, arena, life, pair, health, rst, boot, clk⟩ =
      (sched.cores.map (fun c => c.k), q.cmds.map (fun c => c.id), nextId) := rfl

@[simp] theorem Dev.book_eta (w : Dev) :
    (w.sched.cores.map (fun c => c.k), w.q.cmds.map (fun c => c.id), w.nextId) = w.book := rfl

@[simp] theorem Work.ite_book (c : Prop) [Decidable c] (a b : Work) :
    (if c then a else b).book = if c then a.book else b.book := by
  split <;> rfl

@[simp] theorem Cmd.ite_id (c : Prop) [Decidable c] (a b : Cmd) : (if c then a else b).id = if c then a.id else b.id := by
  split <;> rfl

@[simp] theorem foldl_book {α : Type} (f : Work → α → Work) (h : ∀ w a, (f w a).book = w.book) (l : List α) (w : Work) :
    (l.foldl f w).book = w.book :=
  List.foldlRecOn l f (motive := fun w' => w'.book = w.book) rfl (fun w' same a _ => (h w' a).trans same)

@[simp] theorem foldl_snd_book {α β : Type} (f : β × Work → α → β × Work) (h : ∀ p a, (f p a).2.book = p.2.book) (l : List α)
    (p : β × Work) : (l.foldl f p).2.book = p.2.book :=
  List.foldlRecOn l f (motive := fun p' => p'.2.book = p.2.book) rfl (fun p' same a _ => (h p' a).trans same)

@[simp] theorem foldl_fst_book {α β : Type} (f : Work × β → α → Work × β) (h : ∀ p a, (f p a).1.book = p.1.book) (l : List α)
    (p : Work × β) : (l.foldl f p).1.book = p.1.book :=
  List.foldlRecOn l f (motive := fun p' => p'.1.book = p.1.book) rfl (fun p' same a _ => (h p' a).trans same)

@[simp] theorem forUpto_book (f : Nat → Work → Work) (h : ∀ i w, (f i w).book = w.book) (n : Nat) (w : Work) :
    (forUpto f n w).book = w.book := by
  induction n with
  | zero => rfl
  | succ n ih => exact (h n _).trans ih

@[simp] theorem forUpto_snd_book {β : Type} (f : Nat → β × Work → β × Work) (h : ∀ i p, (f i p).2.book = p.2.book) (n : Nat)
    (p : β × Work) : (forUpto f n p).2.book = p.2.book := by
  induction n with
  | zero => rfl
  | succ n ih => exact (h n _).trans ih

/-- A change of Pricking's state that leaves the cores leaves the book. -/
@[simp] theorem Work.setSched_book (f : SchedState → SchedState) (w : Work) (h : (f w.sched).cores = w.sched.cores) :
    (w.setSched f).book = w.book := by
  simp only [Dev.book, Work.setSched_sched, Work.setSched_q, Work.setSched_nextId, h]

/-- A change of commands in flight that leaves their identities leaves the book. -/
@[simp] theorem Work.setCmds_map_book (f : Cmd → Cmd) (w : Work) (h : ∀ c, (f c).id = c.id) :
    (w.setCmds (w.q.cmds.map f)).book = w.book := by
  simp only [Dev.book, Work.setCmds_sched, Work.setCmds_q, Work.setCmds_nextId, List.map_map]
  exact congrArg (fun l => (_, l, _)) (List.map_congr_left (fun c _ => h c))

@[simp] theorem Work.mapCmd_book (id : Nat) (f : Cmd → Cmd) (w : Work) (h : ∀ c, (f c).id = c.id) :
    (w.mapCmd id f).book = w.book := by
  refine w.setCmds_map_book _ (fun c => ?_)
  split
  · exact h c
  · rfl

theorem book_of_mid_eq {α β γ : Type} {p : α × β × Work × γ} {a : α} {b : β} {c : γ} {w' w : Work} (e : p = (a, b, w', c))
    (h : p.2.2.1.book = w.book) : w'.book = w.book := by
  rw [e] at h
  exact h

/-- The work of a result that is known. -/
theorem book_of_snd_eq {α : Type} {p : α × Work} {a : α} {w' w : Work} (e : p = (a, w')) (h : p.2.book = w.book) :
    w'.book = w.book := by
  rw [e] at h
  exact h

theorem book_of_fst_eq {α : Type} {p : Work × α} {a : α} {w' w : Work} (e : p = (w', a)) (h : p.1.book = w.book) :
    w'.book = w.book := by
  rw [e] at h
  exact h

theorem Work.withLog_book (l : LogState) (w : Work) : ({ w with log := l } : Work).book = w.book := rfl

theorem iter_book (f : Work → Work) (h : ∀ w, (f w).book = w.book) (n : Nat) (w : Work) : (iter f n w).book = w.book := by
  induction n generalizing w with
  | zero => rfl
  | succ n ih => exact (ih _).trans (h w)

@[simp] theorem Work.setLocks_book (l : List PLock) (w : Work) : (Work.setLocks l w).book = w.book := by rfl

@[simp] theorem Work.dropLocks_book (id : Nat) (w : Work) : (Work.dropLocks id w).book = w.book := by rfl

@[simp] theorem Work.setJobs_book (l : List PicotJob) (w : Work) : (Work.setJobs l w).book = w.book := by rfl

@[simp] theorem Work.finishCmd_book (id : Nat) (status : Nat) (detail : Nat) (w : Work) : (Work.finishCmd id status detail w).book = w.book := by
  unfold Work.finishCmd
  simp [*]

@[simp] theorem Work.mapJob_book (id : Nat) (f : PicotJob → PicotJob) (w : Work) : (Work.mapJob id f w).book = w.book := by rfl

@[simp] theorem Work.mapRow_book (id : Nat) (p : Nat) (f : PRow → PRow) (w : Work) : (Work.mapRow id p f w).book = w.book := by rfl

@[simp] theorem Work.issueRow_book (j : PicotJob) (r : PRow) (w : Work) : (Work.issueRow j r w).book = w.book := by
  unfold Work.issueRow
  (repeat' split) <;> simp [*]

@[simp] theorem Work.issueJob_book (id : Nat) (w : Work) : (w.issueJob id).book = w.book := by
  unfold Work.issueJob
  split
  · rfl
  next j _ =>
  split
  · rw [Work.ite_book, foldl_book]
    · exact ite_self _
    · intro w r
      (repeat' split) <;> simp
  · refine foldl_book _ (fun w r => ?_) _ _
    (repeat' split) <;> simp

@[simp] theorem Work.issueDie_book (d : Nat) (w : Work) : (Work.issueDie d w).book = w.book := by
  unfold Work.issueDie
  simp [*]

@[simp] theorem Work.endPicot_book (id : Nat) (st : Nat) (d : Nat) (w : Work) : (Work.endPicot id st d w).book = w.book := by
  unfold Work.endPicot
  simp

@[simp] theorem Work.put_book (n : Nat) (v : Nat) (w : Work) : (Work.put n v w).book = w.book := by rfl

@[simp] theorem Work.bump_book (n : Nat) (k : Nat) (w : Work) : (Work.bump n k w).book = w.book := by rfl

@[simp] theorem Work.batchRelease_book (id : Nat) (w : Work) : (Work.batchRelease id w).book = w.book := by
  unfold Work.batchRelease
  (repeat' split) <;> simp [*]

@[simp] theorem Work.setLaunches_book (l : List Launch) (w : Work) : (Work.setLaunches l w).book = w.book := by rfl

@[simp] theorem Work.launchStep_book (cmd : Nat) (w : Work) : (Work.launchStep cmd w).book = w.book := by
  unfold Work.launchStep
  (repeat' split) <;> simp [*]

@[simp] theorem Work.mapLaunch_book (cmd : Nat) (f : Launch → Launch) (w : Work) : (Work.mapLaunch cmd f w).book = w.book := by rfl

@[simp] theorem Work.launchFault_book (cmd : Nat) (idx : Nat) (st : Nat) (detail : Nat) (w : Work) : (Work.launchFault cmd idx st detail w).book
    = w.book := by rfl

@[simp] theorem Work.setRuns_book (l : List SampRun) (w : Work) : (Work.setRuns l w).book = w.book := by rfl

@[simp] theorem Work.dropRun_book (samp : Option Nat) (w : Work) : (Work.dropRun samp w).book = w.book := by
  unfold Work.dropRun
  split <;> simp

@[simp] theorem Work.tileGone_book (cmd : Nat) (w : Work) : (Work.tileGone cmd w).book = w.book := by
  unfold Work.tileGone
  simp

@[simp] theorem Work.chainLost_book (sp : SpillChain) (w : Work) : (Work.chainLost sp w).book = w.book := by
  unfold Work.chainLost
  (repeat' split) <;> simp [*]

@[simp] theorem Work.send_book (m : OutMsg) (w : Work) : (Work.send m w).book = w.book := by rfl

@[simp] theorem Work.mgmtSend_book (m : OutMsg) (w : Work) : (Work.mgmtSend m w).book = w.book := by
  unfold Work.mgmtSend
  split <;> simp

@[simp] theorem Work.notifyTx_book (i : Nat) (seq : Nat) (kind : Nat) (body : List Nat) (w : Work) : (Work.notifyTx i seq kind body w).book =
    w.book := by
  unfold Work.notifyTx
  simp

@[simp] theorem Work.notifyOne_book (i : Nat) (kind : Nat) (body : List Nat) (w : Work) : (Work.notifyOne i kind body w).2.book = w.book := by
  unfold Work.notifyOne
  dsimp only
  (repeat' split) <;> simp [*]

@[simp] theorem Work.notifyAll_book (kind : Nat) (body : List Nat) (w : Work) : (w.notifyAll kind body).2.book = w.book := by
  unfold Work.notifyAll
  refine forUpto_snd_book _ (fun i p => ?_) _ _
  split
  · next e => exact book_of_snd_eq e (by simp)
  · next e => exact book_of_snd_eq e (by simp)

@[simp] theorem Work.rateMark_book (key : Nat) (w : Work) : (Work.rateMark key w).book = w.book := by rfl

@[simp] theorem Work.logRec_book (code ctx source detail extra : Nat) (w : Work) :
    (w.logRec code ctx source detail extra).2.book = w.book := by
  exact (Work.put_book _ _ _).trans ((Work.put_book _ _ _).trans (w.withLog_book _))

@[simp] theorem Work.logUnit_book (v0 v1 v2 v3 v4 v5 : Nat) (w : Work) : (Work.logUnit v0 v1 v2 v3 v4 v5 w).book = w.book := by
  induction v0 generalizing v1 v2 v3 v4 v5 w with
  | zero => rfl
  | succ k ih =>
    unfold Work.logUnit
    dsimp only
    split
    · split
      · split
        · next e =>
          have told := book_of_snd_eq (w := w) e (by simp)
          split
          · rw [ih]
            exact told
          · exact told
        · next e => exact book_of_snd_eq e (by simp)
      · simp
    · simp

@[simp] theorem Work.log1_book (code : Nat) (ctx : Nat) (source : Nat) (detail : Nat) (extra : Nat) (w : Work) : (Work.log1 code ctx source detail
    extra w).book = w.book := by
  unfold Work.log1
  simp

@[simp] theorem Work.event_book (code : Nat) (ctx : Nat) (source : Nat) (detail : Nat) (w : Work) : (Work.event code ctx source detail w).book =
    w.book := by
  unfold Work.event
  simp

@[simp] theorem Work.coreNow_book (k : Nat) (st : Nat) (x : Nat) (w : Work) : (Work.coreNow k st x w).book = w.book := by rfl

@[simp] theorem Work.unfenceCore_book (k : Nat) (w : Work) : (Work.unfenceCore k w).book = w.book := by
  unfold Work.unfenceCore
  split <;> simp

@[simp] theorem Work.becomeOwner_book (cls c : Nat) (w : Work) : (w.becomeOwner cls c).book = w.book := by
  unfold Work.becomeOwner
  refine Eq.trans (Work.setSched_book _ _ ?_) ?_
  · split <;> rfl
  · exact (Work.put_book _ _ _).trans (Work.put_book _ _ _)

@[simp] theorem Work.offerSlice_book (cls p v2 : Nat) (v3 : Work) : (Work.offerSlice cls p v2 v3).book = v3.book := by
  induction v2 generalizing p v3 with
  | zero => exact Work.put_book _ _ _
  | succ k ih =>
    unfold Work.offerSlice
    split
    · exact Work.put_book _ _ _
    · split
      · exact (ih _ _).trans (Work.put_book _ _ _)
      · exact Work.becomeOwner_book _ _ _

@[simp] theorem Work.handover_book (cls : Nat) (p : Nat) (w : Work) : (Work.handover cls p w).book = w.book := by
  unfold Work.handover
  simp

@[simp] theorem Work.rotateClass_book (cls : Nat) (w : Work) : (Work.rotateClass cls w).book = w.book := by
  unfold Work.rotateClass
  dsimp only
  (repeat' split) <;> simp [*]

@[simp] theorem Work.rotation_book (w : Work) : (Work.rotation w).book = w.book := by
  unfold Work.rotation
  simp

@[simp] theorem Work.settleDebt_book (s : Section) (w : Work) : (Work.settleDebt s w).book = w.book := by
  unfold Work.settleDebt
  dsimp only
  (repeat' split) <;> simp [*]

@[simp] theorem Work.setSections_book (l : List Section) (w : Work) : (Work.setSections l w).book = w.book := by rfl

@[simp] theorem Work.setColls_book (l : List CollJob) (w : Work) : (Work.setColls l w).book = w.book := by rfl

@[simp] theorem Work.collEnd_book (id : Nat) (w : Work) : (Work.collEnd id w).book = w.book := by
  unfold Work.collEnd
  (repeat' split) <;> simp [*]

@[simp] theorem Work.mapColl_book (id : Nat) (f : CollJob → CollJob) (w : Work) : (Work.mapColl id f w).book = w.book := by rfl

@[simp] theorem Work.setRst_book (f : ResetState → ResetState) (w : Work) : (Work.setRst f w).book = w.book := by rfl

@[simp] theorem Work.mapReset_book (dom : Nat) (target : Nat) (f : Reset → Reset) (w : Work) : (Work.mapReset dom target f w).book = w.book
    := by rfl

@[simp] theorem Work.clearTags_book (f : Nat → Nat → Bool) (w : Work) : (Work.clearTags f w).book = w.book := by rfl

@[simp] theorem Work.tornCheck_book (j : PicotJob) (w : Work) : (Work.tornCheck j w).book = w.book := by
  unfold Work.tornCheck
  split <;> simp

@[simp] theorem Work.picotStop_book (j : PicotJob) (st : Nat) (det : Nat) (w : Work) : (Work.picotStop j st det w).book = w.book := by
  unfold Work.picotStop
  dsimp only
  (repeat' split) <;> simp [*]

@[simp] theorem Work.setNet_book (f : NetState → NetState) (w : Work) : (Work.setNet f w).book = w.book := by rfl

@[simp] theorem Work.withdraw_book (user : Nat) (ref : Nat) (w : Work) : (Work.withdraw user ref w).book = w.book := by rfl

@[simp] theorem Work.collStop_book (id : Nat) (st : Nat) (det : Nat) (w : Work) : (Work.collStop id st det w).book = w.book := by
  unfold Work.collStop
  dsimp only
  (repeat' split) <;> simp [*]

@[simp] theorem Work.resetEvent_book (code : Nat) (dom : Nat) (cause : Nat) (target : Nat) (w : Work) : (Work.resetEvent code dom cause target
    w).book = w.book := by
  unfold Work.resetEvent
  simp

@[simp] theorem Work.resetSync_book (w : Work) : (Work.resetSync w).book = w.book := by rfl

@[simp] theorem Work.dropReset_book (dom : Nat) (target : Nat) (w : Work) : (Work.dropReset dom target w).book = w.book := by rfl

@[simp] theorem Work.exchanged_book (id : Nat) (n : Nat) (lv : Nat) (w : Work) : (Work.exchanged id n lv w).book = w.book := by
  unfold Work.exchanged
  split <;> simp

@[simp] theorem Work.chunkLanded_book (p : Posted) (w : Work) : (Work.chunkLanded p w).book = w.book := by
  unfold Work.chunkLanded
  (repeat' split) <;> simp [*]

@[simp] theorem Work.tagBlocks_book (n : Nat) (lo : Nat) (hi : Nat) (tag : Nat) (w : Work) : (Work.tagBlocks n lo hi tag w).book = w.book := by rfl

@[simp] theorem Work.write_book (a : Nat) (d : List Byte) (w : Work) : (Work.write a d w).book = w.book := by
  unfold Work.write
  split <;> simp

@[simp] theorem Work.engWrite_book (x : Nat) (a : Nat) (d : List Byte) (w : Work) : (Work.engWrite x a d w).book = w.book := by
  unfold Work.engWrite
  (repeat' split) <;> simp [*]

@[simp] theorem Work.setBlobs_book (c : Copy) (m : List (Nat × Nat)) (w : Work) : (Work.setBlobs c m w).book = w.book := by
  unfold Work.setBlobs
  (repeat' split) <;> simp [*]

@[simp] theorem Work.blobPut_book (c : Copy) (n : Nat) (off : Nat) (v : Nat) (len : Nat) (w : Work) : (Work.blobPut c n off v len w).book =
    w.book := by
  unfold Work.blobPut
  simp

@[simp] theorem Work.putSess_book (s : Sess) (w : Work) : (Work.putSess s w).book = w.book := by rfl

@[simp] theorem Work.mapSess_book (n : Nat) (f : Sess → Sess) (w : Work) : (Work.mapSess n f w).book = w.book := by
  unfold Work.mapSess
  split <;> simp

@[simp] theorem Work.eventLimited_book (key : Nat) (gap : Nat) (code : Nat) (ctx : Nat) (source : Nat) (detail : Nat) (w : Work) :
    (Work.eventLimited key gap code ctx source detail w).book = w.book := by
  unfold Work.eventLimited
  split <;> simp

@[simp] theorem Work.xqParity_book (inst : Nat) (w : Work) : (Work.xqParity inst w).book = w.book := by
  unfold Work.xqParity
  simp

@[simp] theorem Work.frame_book (p : Nat) (addr : Nat) (rport : Nat) (sid : Nat) (path : Nat) (hdr : Nat) (ext : Nat) (extLen : Nat) (payload : List
    Byte) (bad : TxFault) (w : Work) : (Work.frame p addr rport sid path hdr ext extLen payload bad w).book = w.book := by
  unfold Work.frame
  (repeat' split) <;> simp [*]

@[simp] theorem Work.sendCtl_book (s : Sess) (type : Nat) (flags : Nat) (ext : Nat) (extLen : Nat) (bad : TxFault) (w : Work) : (Work.sendCtl s
    type flags ext extLen bad w).book = w.book := by
  unfold Work.sendCtl
  simp

@[simp] theorem Work.ackNow_book (n : Nat) (rnr : Bool) (bad : TxFault) (w : Work) : (Work.ackNow n rnr bad w).book = w.book := by
  unfold Work.ackNow
  split <;> simp

@[simp] theorem Work.dataAck_book (n : Nat) (gap : Bool) (bad : TxFault) (w : Work) : (Work.dataAck n gap bad w).book = w.book := by
  unfold Work.dataAck
  dsimp only
  (repeat' split) <;> simp [*]

@[simp] theorem Work.acked_book (addr : Nat) (seq : Nat) (w : Work) : (Work.acked addr seq w).book = w.book := by rfl

@[simp] theorem Work.clamped_book (wr : Writer) (num : Nat) (written : Nat) (held : Nat) (off : Nat) (w : Work) : (Work.clamped wr num written
    held off w).book = w.book := by
  unfold Work.clamped
  dsimp only
  split <;> simp

@[simp] theorem Work.clampTo_book (wr : Writer) (num : Nat) (written : Nat) (held : Nat) (w : Work) : (Work.clampTo wr num written held
    w).book = w.book := by
  unfold Work.clampTo
  split <;> simp

@[simp] theorem Work.pendToActive_book (n : Nat) (w : Work) : (Work.pendToActive n w).book = w.book := by rfl

@[simp] theorem Work.blobCopy_book (src : Copy) (dst : Copy) (n : Nat) (w : Work) : (Work.blobCopy src dst n w).book = w.book := by
  unfold Work.blobCopy
  simp

@[simp] theorem Work.groupToActive_book (scalars : List Nat) (blobs : List Nat) (w : Work) : (Work.groupToActive scalars blobs w).book =
    w.book := by
  unfold Work.groupToActive
  simp

@[simp] theorem Work.slotApply_book (s : Nat) (w : Work) : (Work.slotApply s w).book = w.book := by
  unfold Work.slotApply
  dsimp only
  simp [apply_ite]

@[simp] theorem Work.activateSlot_book (s : Nat) (w : Work) : (Work.activateSlot s w).book = w.book := by
  unfold Work.activateSlot
  (repeat' split) <;> simp [*]

@[simp] theorem Work.addSess_book (s : Sess) (w : Work) : (Work.addSess s w).book = w.book := by rfl

@[simp] theorem Work.addSwapNow_book (x : Nat) (w : Work) : (Work.addSwapNow x w).book = w.book := by
  unfold Work.addSwapNow
  simp [*]

@[simp] theorem Work.holdAdd_book (x : Nat) (a : Option Nat) (w : Work) : (Work.holdAdd x a w).book = w.book := by
  unfold Work.holdAdd
  split <;> simp

@[simp] theorem Work.setPats_book (l : List Pattern) (w : Work) : (Work.setPats l w).book = w.book := by rfl

@[simp] theorem Work.holdSlot_book (s : Option Nat) (w : Work) : (Work.holdSlot s w).book = w.book := by
  unfold Work.holdSlot
  split <;> simp

@[simp] theorem Work.mapPat_book (pid : Nat) (f : Pattern → Pattern) (w : Work) : (Work.mapPat pid f w).book = w.book := by rfl

@[simp] theorem Work.fetchNext_book (pid : Nat) (w : Work) : (Work.fetchNext pid w).book = w.book := by
  unfold Work.fetchNext
  (repeat' split) <;> simp [*]

@[simp] theorem Work.writeNat_book (a : Nat) (v : Nat) (n : Nat) (w : Work) : (Work.writeNat a v n w).book = w.book := by
  unfold Work.writeNat
  simp

@[simp] theorem Work.raise_book (c : Nat) (v : Nat) (w : Work) : (Work.raise c v w).book = w.book := by
  unfold Work.raise
  (repeat' split) <;> simp [*]

@[simp] theorem Work.postRecord_book (x : Nat) (q : Nat) (recd : Nat) (irq : Bool) (w : Work) : (Work.postRecord x q recd irq w).1.book =
    w.book := by
  unfold Work.postRecord
  dsimp only
  (repeat' split) <;> simp [*]

@[simp] theorem Work.haltQueue_book (x : Nat) (q : Nat) (status : Nat) (detail : Nat) (w : Work) : (Work.haltQueue x q status detail w).book =
    w.book := by
  unfold Work.haltQueue
  dsimp only
  split <;> simp

@[simp] theorem Work.postOrHalt_book (x q recd : Nat) (irq : Bool) (w : Work) : (w.postOrHalt x q recd irq).book = w.book := by
  unfold Work.postOrHalt
  split
  · next e => exact book_of_fst_eq e (by simp)
  · next e => exact (by simp : _ = _).trans (book_of_fst_eq e (by simp))

@[simp] theorem Work.payOwed_book (x : Nat) (q : Nat) (v2 : Nat) (v3 : Work) : (Work.payOwed x q v2 v3).book = v3.book := by
  induction v2 generalizing v3 with
  | zero => rfl
  | succ k ih =>
    unfold Work.payOwed
    (repeat' split) <;> simp [*]

@[simp] theorem Work.postOwed_book (x : Nat) (q : Nat) (recd : Nat) (irq : Bool) (w : Work) : (Work.postOwed x q recd irq w).book = w.book := by
  unfold Work.postOwed
  simp [*]

@[simp] theorem Work.persist_book (n : Nat) (w : Work) : (Work.persist n w).book = w.book := by rfl

@[simp] theorem Work.sendClose_book (s : HokSession) (w : Work) : (Work.sendClose s w).book = w.book := by
  unfold Work.sendClose
  simp

@[simp] theorem Work.hokClosed_book (s : HokSession) (reason : Nat) (w : Work) : (Work.hokClosed s reason w).book = w.book := by
  unfold Work.hokClosed
  simp [*]

@[simp] theorem Work.hokApply_book (w : Work) : (Work.hokApply w).book = w.book := by
  unfold Work.hokApply
  dsimp only
  simp [apply_ite]

@[simp] theorem Work.mgmtApply_book (w : Work) : (Work.mgmtApply w).book = w.book := by
  unfold Work.mgmtApply
  split <;> simp

@[simp] theorem Work.afterAnswer_book (w : Work) : (Work.afterAnswer w).book = w.book := by
  unfold Work.afterAnswer
  simp

@[simp] theorem Work.setPtp_book (f : PtpState → PtpState) (w : Work) : (Work.setPtp f w).book = w.book := by rfl

@[simp] theorem Work.ptpEnter_book (st : Nat) (w : Work) : (Work.ptpEnter st w).book = w.book := by
  unfold Work.ptpEnter
  dsimp only
  (repeat' split) <;> simp [*]

@[simp] theorem Work.ptpOff_book (w : Work) : (Work.ptpOff w).book = w.book := by
  unfold Work.ptpOff
  simp

@[simp] theorem Work.afterWrite_book (wr : Writer) (n : Nat) (w : Work) : (Work.afterWrite wr n w).book = w.book := by
  unfold Work.afterWrite
  dsimp only
  (repeat' split) <;> simp [*]

@[simp] theorem Work.fnReset_book (c : Nat) (w : Work) : (Work.fnReset c w).book = w.book := by rfl

@[simp] theorem Work.allFnReset_book (w : Work) : (Work.allFnReset w).book = w.book := by
  unfold Work.allFnReset
  simp

@[simp] theorem Work.setBoot_book (f : BootState → BootState) (w : Work) : (Work.setBoot f w).book = w.book := by rfl

@[simp] theorem Work.noAction_book (wr : Writer) (num : Nat) (written : Nat) (w : Work) : (Work.noAction wr num written w).book = w.book := by
  unfold Work.noAction
  simp

@[simp] theorem Work.deny_book (wr : Writer) (num : Nat) (w : Work) : (Work.deny wr num w).book = w.book := by
  unfold Work.deny
  simp

@[simp] theorem Work.hostDrop_book (w : Work) : (Work.hostDrop w).book = w.book := by
  unfold Work.hostDrop
  dsimp only
  split <;> simp

@[simp] theorem Work.gated_book (wr : Writer) (r : Reach) (num : Nat) (act : Work → Work) (w : Work) (h0 : ∀ y0, (act y0).book = y0.book)
    : (Work.gated wr r num act w).book = w.book := by
  unfold Work.gated
  (repeat' split) <;> simp [*]

@[simp] theorem opFwSvnCommit_book (wr : Writer) (w : Work) : (opFwSvnCommit wr w).book = w.book := by
  unfold opFwSvnCommit
  dsimp only
  simp [apply_ite]

@[simp] theorem Work.putP_book (n : Nat) (v : Nat) (w : Work) : (Work.putP n v w).book = w.book := by rfl

@[simp] theorem Work.stageToPend_book (n : Nat) (w : Work) : (Work.stageToPend n w).book = w.book := by rfl

@[simp] theorem Work.groupToPend_book (scalars : List Nat) (blobs : List Nat) (w : Work) : (Work.groupToPend scalars blobs w).book = w.book
    := by
  unfold Work.groupToPend
  simp

@[simp] theorem Work.commitReq_book (wr : Writer) (num : Nat) (scalars : List Nat) (blobs : List Nat) (w : Work) : (Work.commitReq wr num
    scalars blobs w).book = w.book := by
  unfold Work.commitReq
  split <;> simp

@[simp] theorem Work.mgmtReq_book (wr : Writer) (w : Work) : (Work.mgmtReq wr w).book = w.book := by
  unfold Work.mgmtReq
  simp

@[simp] theorem Work.setPool_book (l : List PoolUse) (w : Work) : (Work.setPool l w).book = w.book := by rfl

@[simp] theorem opSpillPoolCommit_book (wr : Writer) (w : Work) : (opSpillPoolCommit wr w).book = w.book := by
  unfold opSpillPoolCommit
  simp

@[simp] theorem Work.arenaApply_book (w : Work) : (Work.arenaApply w).book = w.book := by
  unfold Work.arenaApply
  simp [*]

@[simp] theorem opArenaCommit_book (wr : Writer) (w : Work) : (opArenaCommit wr w).book = w.book := by
  unfold opArenaCommit
  simp

@[simp] theorem opLogReadSeqWrite_book (wr : Writer) (v : Nat) (w : Work) : (opLogReadSeqWrite wr v w).book = w.book := by
  unfold opLogReadSeqWrite
  exact Work.gated_book _ _ _ _ _ (fun y => rfl)

@[simp] theorem Work.writeSwatch_book (sw : Swatch) (w : Work) : (Work.writeSwatch sw w).book = w.book := by
  unfold Work.writeSwatch
  simp

@[simp] theorem Work.trainHalf_book (h : Nat) (w : Work) : (Work.trainHalf h w).book = w.book := by
  unfold Work.trainHalf
  simp

@[simp] theorem Work.swatchStep_book (dom : Nat) (target : Nat) (w : Work) : (Work.swatchStep dom target w).book = w.book := by
  unfold Work.swatchStep
  (repeat' split) <;> simp [*]

@[simp] theorem Work.sampled_book (k : Nat) (s : Option SwSample) (nbad : Nat) (w : Work) : (Work.sampled k s nbad w).book = w.book := by
  unfold Work.sampled
  dsimp only
  (repeat' split) <;> simp_all [apply_ite]

@[simp] theorem Work.setHealth_book (f : HealthState → HealthState) (w : Work) : (Work.setHealth f w).book = w.book := by rfl

@[simp] theorem Work.comparison_book (v : Nat) (cores : List Nat) (w : Work) : (Work.comparison v cores w).book = w.book := by
  unfold Work.comparison
  simp

@[simp] theorem Work.healthTo_book (st : Nat) (reason : Nat) (w : Work) : (Work.healthTo st reason w).book = w.book := by
  unfold Work.healthTo
  split <;> simp

@[simp] theorem Work.tooFew_book (w : Work) : (Work.tooFew w).book = w.book := by
  unfold Work.tooFew
  split <;> simp

@[simp] theorem Work.suspectCheck_book (reason : Nat) (w : Work) : (Work.suspectCheck reason w).book = w.book := by
  unfold Work.suspectCheck
  split <;> simp

@[simp] theorem Work.freeDraw_book (w : Work) : (Work.freeDraw w).2.book = w.book := by rfl

@[simp] theorem Work.engineWords_book (e : Nat) (w : Work) : (Work.engineWords e w).2.book = w.book := by
  unfold Work.engineWords
  simp

@[simp] theorem Work.stateWords_book (w : Work) : (Work.stateWords w).2.book = w.book := by
  unfold Work.stateWords
  simp

@[simp] theorem Work.newSwatch_book (dom : Nat) (cause : Nat) (target : Nat) (ctxs : List Nat) (cores : List Nat) (dies : List Nat) (w : Work) :
    (Work.newSwatch dom cause target ctxs cores dies w).2.book = w.book := by
  unfold Work.newSwatch
  simp

@[simp] theorem Work.setArena_book (f : ArenaState → ArenaState) (w : Work) : (Work.setArena f w).book = w.book := by rfl

@[simp] theorem Work.setPair_book (f : PairState → PairState) (w : Work) : (Work.setPair f w).book = w.book := by rfl

@[simp] theorem Work.warmWork_book (w : Work) : (Work.warmWork w).book = w.book := by rfl

@[simp] theorem Work.warmRest_book (w : Work) : (Work.warmRest w).book = w.book := by
  unfold Work.warmRest
  simp [*]

@[simp] theorem Work.warmBuffers_book (w : Work) : (Work.warmBuffers w).book = w.book := by
  unfold Work.warmBuffers
  simp [*]

@[simp] theorem Work.blobClear_book (n : Nat) (w : Work) : (Work.blobClear n w).book = w.book := by rfl

@[simp] theorem Work.attestDrop_book (x : Nat) (w : Work) : (Work.attestDrop x w).book = w.book := by
  unfold Work.attestDrop
  simp [*]

@[simp] theorem Work.metroSync_book (w : Work) : (Work.metroSync w).book = w.book := by rfl

@[simp] theorem Work.countOpen_book (w : Work) : (Work.countOpen w).book = w.book := by rfl

@[simp] theorem Work.putPeerSt_book (n : Nat) (st : Nat) (why : Nat) (w : Work) : (Work.putPeerSt n st why w).book = w.book := by rfl

@[simp] theorem Work.endSess_book (n : Nat) (st : Nat) (why : Nat) (w : Work) : (Work.endSess n st why w).book = w.book := by
  unfold Work.endSess
  simp

@[simp] theorem Work.breakQuiet_book (g : Nat) (w : Work) : (Work.breakQuiet g w).book = w.book := by
  unfold Work.breakQuiet
  split <;> simp

@[simp] theorem Work.warmNet_book (w : Work) : (Work.warmNet w).book = w.book := by
  unfold Work.warmNet
  dsimp only
  simp [apply_ite]

@[simp] theorem Work.freeBytes_book (n : Nat) (w : Work) : (Work.freeBytes n w).2.book = w.book := by rfl

@[simp] theorem Work.restWrite_book (x : Nat) (s : Nat) (d : List Byte) (w : Work) : (Work.restWrite x s d w).2.book = w.book := by
  unfold Work.restWrite
  split <;> simp

@[simp] theorem Work.restoreAbort_book (x : Nat) (w : Work) : (Work.restoreAbort x w).book = w.book := by
  unfold Work.restoreAbort
  split <;> simp

@[simp] theorem Work.resumeAdmit_book (w : Work) : (Work.resumeAdmit w).book = w.book := by
  unfold Work.resumeAdmit
  split <;> simp

@[simp] theorem Work.slotQuiet_book (s : Nat) (w : Work) : (Work.slotQuiet s w).book = w.book := by
  unfold Work.slotQuiet
  dsimp only
  (repeat' split) <;> simp [*]

@[simp] theorem Work.setStreams_book (l : List Stream) (w : Work) : (Work.setStreams l w).book = w.book := by rfl

@[simp] theorem Work.mapLoad_book (f : LoadJob → LoadJob) (w : Work) : (Work.mapLoad f w).book = w.book := by rfl

@[simp] theorem Work.setHashes_book (l : List HashJob) (w : Work) : (Work.setHashes l w).book = w.book := by rfl

@[simp] theorem Work.loadOver_book (st : Nat) (w : Work) : (Work.loadOver st w).book = w.book := by
  unfold Work.loadOver
  dsimp only
  (repeat' split) <;> simp [*]

@[simp] theorem Work.queueMsg_book (m : TxMsg) (w : Work) : (Work.queueMsg m w).book = w.book := by rfl

@[simp] theorem Work.tellSucc_book (j : LoadJob) (w : Work) : (Work.tellSucc j w).book = w.book := by
  unfold Work.tellSucc
  simp [*]

@[simp] theorem Work.loadFail_book (det : Nat) (w : Work) : (Work.loadFail det w).book = w.book := by
  unfold Work.loadFail
  (repeat' split) <;> simp [*]

@[simp] theorem Work.lifeReset_book (w : Work) : (w.lifeReset).book = w.book := by
  unfold Work.lifeReset
  dsimp only
  refine (forUpto_book _ (fun s w => by split <;> simp) _ _).trans ?_
  simp only [Work.resumeAdmit_book, Work.setStreams_book]
  refine Eq.trans (Work.setCmds_map_book _ _ ?_) ?_
  · exact fun c => rfl
  simp only [Work.setPats_book]
  refine (forUpto_book _ (fun s w => by split <;> simp) _ _).trans ?_
  exact (by simp : (w.loadFail 0xFFFF).book = w.book)

@[simp] theorem Work.putStream_book (t : Stream) (w : Work) : (Work.putStream t w).book = w.book := by rfl

@[simp] theorem Work.seqSync_book (x : Nat) (q : Nat) (w : Work) : (Work.seqSync x q w).book = w.book := by rfl

@[simp] theorem Work.putSeq_book (x : Nat) (q : Nat) (v : Option SeqSt) (w : Work) : (Work.putSeq x q v w).book = w.book := by rfl

@[simp] theorem Work.blockEntry_book (x : Nat) (q : Nat) (n : Nat) (v : Nat) (w : Work) : (Work.blockEntry x q n v w).book = w.book := by
  unfold Work.blockEntry
  split <;> simp

@[simp] theorem Work.takeBlocks_book (x : Nat) (q : Nat) (k : Nat) (w : Work) : (Work.takeBlocks x q k w).book = w.book := by
  unfold Work.takeBlocks
  split <;> simp

@[simp] theorem Work.freeSeq_book (x : Nat) (q : Nat) (w : Work) : (Work.freeSeq x q w).book = w.book := by
  unfold Work.freeSeq
  split <;> simp

@[simp] theorem Work.setFills_book (l : List Fill) (w : Work) : (Work.setFills l w).book = w.book := by rfl

@[simp] theorem Work.mapFill_book (id : Nat) (f : Fill → Fill) (w : Work) : (Work.mapFill id f w).book = w.book := by rfl

@[simp] theorem Work.freeHeld_book (b : Nat) (n : Nat) (w : Work) : (Work.freeHeld b n w).book = w.book := by rfl

@[simp] theorem Work.issueFill_book (id : Nat) (v1 : Nat) (v2 : Work) : (Work.issueFill id v1 v2).book = v2.book := by
  induction v1 generalizing v2 with
  | zero => rfl
  | succ k ih =>
    unfold Work.issueFill
    (repeat' split) <;> simp [*]

@[simp] theorem Work.issueBuffer_book (b : Nat) (w : Work) : (Work.issueBuffer b w).book = w.book := by
  unfold Work.issueBuffer
  simp [*]

@[simp] theorem Work.passFill_book (id : Nat) (w : Work) : (Work.passFill id w).book = w.book := by
  unfold Work.passFill
  dsimp only
  (repeat' split) <;> simp [*]

@[simp] theorem Work.passFills_book (x : Nat) (w : Work) : (Work.passFills x w).book = w.book := by
  unfold Work.passFills
  simp [*]

@[simp] theorem Work.evtPut_book (x n v : Nat) (w : Work) : (w.evtPut x n v).book = w.book := by
  unfold Work.evtPut
  simp only [Work.passFills_book, Work.setStreams_book]
  refine (Work.setCmds_map_book _ _ (fun c => ?_)).trans (by simp)
  split <;> rfl

@[simp] theorem Work.evtAdd_book (x : Nat) (n : Nat) (k : Nat) (w : Work) : (Work.evtAdd x n k w).book = w.book := by
  unfold Work.evtAdd
  simp

@[simp] theorem Work.setGrow_book (g : Option Grow) (w : Work) : (Work.setGrow g w).book = w.book := by rfl

@[simp] theorem Work.growEnd_book (g : Grow) (w : Work) : (Work.growEnd g w).book = w.book := by
  unfold Work.growEnd
  simp

@[simp] theorem Work.spillBlock_book (x : Nat) (q : Nat) (w : Work) : (Work.spillBlock x q w).book = w.book := by
  unfold Work.spillBlock
  dsimp only
  (repeat' split) <;> simp [*]

@[simp] theorem Work.spillMany_book (g : Grow) (x : Nat) (v2 : Nat) (v3 : Nat) (v4 : Work) : (Work.spillMany g x v2 v3 v4).2.book = v4.book := by
  induction v2 generalizing v3 v4 with
  | zero => rfl
  | succ k ih =>
    unfold Work.spillMany
    (repeat' split) <;> simp [*]

@[simp] theorem Work.growGo_book (v0 : Nat) (v1 : Work) : (Work.growGo v0 v1).book = v1.book := by
  induction v0 generalizing v1 with
  | zero => rfl
  | succ k ih =>
    unfold Work.growGo
    dsimp only
    (repeat' split) <;> simp [*]

@[simp] theorem Work.growStep_book (w : Work) : (Work.growStep w).book = w.book := by
  unfold Work.growStep
  split <;> simp

@[simp] theorem Work.mapRestore_book (x : Nat) (f : Restore → Restore) (w : Work) : (Work.mapRestore x f w).book = w.book := by rfl

@[simp] theorem Work.mapRest_book (x : Nat) (s : Nat) (f : RestShard → RestShard) (w : Work) : (Work.mapRest x s f w).book = w.book := by rfl

@[simp] theorem Work.restoreAsk_book (x : Nat) (v1 : Nat) (v2 : Work) : (Work.restoreAsk x v1 v2).book = v2.book := by
  induction v1 generalizing v2 with
  | zero => rfl
  | succ k ih =>
    unfold Work.restoreAsk
    (repeat' split) <;> simp [*]

@[simp] theorem Work.restoreStep_book (x : Nat) (w : Work) : (Work.restoreStep x w).book = w.book := by
  unfold Work.restoreStep
  (repeat' split) <;> simp [*]

@[simp] theorem Work.setSpills_book (l : List Spill) (w : Work) : (Work.setSpills l w).book = w.book := by rfl

@[simp] theorem Work.spillStep_book (x : Nat) (w : Work) : (Work.spillStep x w).book = w.book := by
  unfold Work.spillStep
  split <;> simp

@[simp] theorem Work.dropSlot_book (s : Option Nat) (w : Work) : (Work.dropSlot s w).book = w.book := by
  unfold Work.dropSlot
  dsimp only
  (repeat' split) <;> simp [*]

@[simp] theorem Work.dropAdd_book (x : Nat) (a : Option Nat) (w : Work) : (Work.dropAdd x a w).book = w.book := by
  unfold Work.dropAdd
  split <;> simp

@[simp] theorem Work.streamRelease_book (x : Nat) (cap : StreamCap) (w : Work) : (Work.streamRelease x cap w).book = w.book := by
  unfold Work.streamRelease
  simp

@[simp] theorem Work.idleStreams_book (x : Nat) (w : Work) : (w.idleStreams x).book = w.book := by
  unfold Work.idleStreams
  refine forUpto_book _ (fun s w => ?_) _ _
  simp only [Work.put_book, Work.setStreams_book]
  (repeat' split) <;> simp

@[simp] theorem Work.spillDrop_book (x : Nat) (w : Work) : (Work.spillDrop x w).book = w.book := by rfl

@[simp] theorem Work.spillUndo_book (sp : Spill) (result : Nat) (w : Work) : (Work.spillUndo sp result w).book = w.book := by
  unfold Work.spillUndo
  split <;> simp

@[simp] theorem Work.spillAbort_book (x : Nat) (w : Work) : (Work.spillAbort x w).book = w.book := by
  unfold Work.spillAbort
  split <;> simp

@[simp] theorem Work.hoopRestage_book (x : Nat) (w : Work) : (Work.hoopRestage x w).book = w.book := by
  unfold Work.hoopRestage
  simp [*]

@[simp] theorem Work.commitsGone_book (w : Work) : (Work.commitsGone w).book = w.book := by
  unfold Work.commitsGone
  simp [*]

@[simp] theorem Work.raiseDevice_book (w : Work) : (Work.raiseDevice w).book = w.book := by
  unfold Work.raiseDevice
  split <;> simp

@[simp] theorem Work.pushReset_book (r : Reset) (w : Work) : (Work.pushReset r w).book = w.book := by
  unfold Work.pushReset
  (repeat' split) <;> simp [*]

@[simp] theorem Work.settleCancel_book (b : Nat) (w : Work) : (Work.settleCancel b w).book = w.book := by
  unfold Work.settleCancel
  simp [*]

@[simp] theorem Work.dropFill_book (id : Nat) (w : Work) : (Work.dropFill id w).book = w.book := by rfl

@[simp] theorem Work.settleFill_book (id : Nat) (w : Work) : (Work.settleFill id w).book = w.book := by
  unfold Work.settleFill
  (repeat' split) <;> simp [*]

@[simp] theorem Work.ditchFill_book (f : Fill) (w : Work) : (Work.ditchFill f w).book = w.book := by
  unfold Work.ditchFill
  simp

@[simp] theorem Work.dropPattern_book (p : Pattern) (w : Work) : (Work.dropPattern p w).book = w.book := by
  unfold Work.dropPattern
  simp

@[simp] theorem Work.armStream_book (x : Nat) (s : Nat) (w : Work) : (Work.armStream x s w).book = w.book := by rfl

@[simp] theorem Work.faultNoRecord_book (x : Nat) (q : Nat) (status : Nat) (detail : Nat) (w : Work) : (Work.faultNoRecord x q status detail
    w).book = w.book := by
  unfold Work.faultNoRecord
  simp

@[simp] theorem Work.streamFault_book (x : Nat) (s : Nat) (st : Nat) (det : Nat) (w : Work) : (Work.streamFault x s st det w).book = w.book := by
  unfold Work.streamFault
  simp

@[simp] theorem Work.takeover_book (x : Nat) (s : Nat) (w : Work) : (Work.takeover x s w).book = w.book := by
  unfold Work.takeover
  dsimp only
  (repeat' split) <;> simp [*]

@[simp] theorem Work.streamNext_book (x : Nat) (s : Nat) (d : Nat) (k : Nat) (w : Work) : (Work.streamNext x s d k w).book = w.book := by
  unfold Work.streamNext
  dsimp only
  (repeat' split) <;> simp [*]

@[simp] theorem Work.cancelStream_book (x : Nat) (s : Nat) (w : Work) : (Work.cancelStream x s w).book = w.book := by
  unfold Work.cancelStream
  (repeat' split) <;> simp [*]

@[simp] theorem Work.stopFill_book (f : Fill) (w : Work) : (Work.stopFill f w).book = w.book := by
  unfold Work.stopFill
  (repeat' split) <;> simp [*]

@[simp] theorem Work.cancelBuffer_book (x : Nat) (b : Nat) (w : Work) : (Work.cancelBuffer x b w).book = w.book := by
  unfold Work.cancelBuffer
  simp [*]

@[simp] theorem Work.mapMirror_book (x : Nat) (f : Mirror → Mirror) (w : Work) : (Work.mapMirror x f w).book = w.book := by rfl

@[simp] theorem Work.mapMir_book (x : Nat) (s : Nat) (f : MirShard → MirShard) (w : Work) : (Work.mapMir x s f w).book = w.book := by rfl

@[simp] theorem Work.mirrorAbandon_book (x : Nat) (s : Nat) (w : Work) : (Work.mirrorAbandon x s w).book = w.book := by
  unfold Work.mirrorAbandon
  (repeat' split) <;> simp [*]

@[simp] theorem Work.mirrorTell_book (x : Nat) (w : Work) : (Work.mirrorTell x w).book = w.book := by
  unfold Work.mirrorTell
  (repeat' split) <;> simp [*]

@[simp] theorem Work.pairGone_book (n : Nat) (w : Work) : (Work.pairGone n w).book = w.book := by
  unfold Work.pairGone
  dsimp only
  (repeat' split) <;> simp [*]

@[simp] theorem Work.undefine_book (j : CollJob) (w : Work) : (Work.undefine j w).book = w.book := by
  unfold Work.undefine
  dsimp only
  simp [apply_ite]

@[simp] theorem Work.breakGroup_book (g : Nat) (cause : Nat) (rank : Nat) (orig : Nat) (skip : List Nat) (w : Work) : (Work.breakGroup g cause
    rank orig skip w).book = w.book := by
  unfold Work.breakGroup
  dsimp only
  (repeat' split) <;> simp_all [apply_ite]

@[simp] theorem Work.plaitGone_book (n : Nat) (cause : Nat) (w : Work) : (Work.plaitGone n cause w).book = w.book := by
  unfold Work.plaitGone
  dsimp only
  simp [apply_ite]

@[simp] theorem Work.sessOver_book (n : Nat) (st : Nat) (why : Nat) (w : Work) : (Work.sessOver n st why w).book = w.book := by
  unfold Work.sessOver
  (repeat' split) <;> simp [*]

@[simp] theorem Work.forward_book (v0 : Nat) (v1 : Work) : (Work.forward v0 v1).book = v1.book := by
  induction v0 generalizing v1 with
  | zero => rfl
  | succ k ih =>
    unfold Work.forward
    (repeat' split) <;> simp [*]

@[simp] theorem Work.putShard_book (s : Shard) (w : Work) : (Work.putShard s w).book = w.book := by rfl

@[simp] theorem Work.hashAdd_book (kind : Nat) (ref : Nat) (w : Work) : (Work.hashAdd kind ref w).book = w.book := by rfl

@[simp] theorem Work.hashReady_book (i : Nat) (w : Work) : (Work.hashReady i w).book = w.book := by
  unfold Work.hashReady
  split <;> simp

@[simp] theorem Work.nextAttempt_book (i : Nat) (st : Nat) (w : Work) : (Work.nextAttempt i st w).book = w.book := by
  unfold Work.nextAttempt
  (repeat' split) <;> simp [*]

@[simp] theorem Work.issueShard_book (i : Nat) (w : Work) : (Work.issueShard i w).book = w.book := by
  unfold Work.issueShard
  dsimp only
  (repeat' split) <;> simp [*]

@[simp] theorem Work.zeroGaps_book (j : LoadJob) (w : Work) : (w.zeroGaps j).book = w.book := by
  unfold Work.zeroGaps
  refine forUpto_book _ (fun p w => ?_) _ _
  refine foldl_book _ (fun w g => ?_) _ _
  dsimp only
  split <;> simp

@[simp] theorem Work.loadDone_book (j : LoadJob) (w : Work) : (Work.loadDone j w).book = w.book := by
  unfold Work.loadDone
  dsimp only
  (repeat' split) <;> simp [*]

@[simp] theorem Work.loadStep_book (w : Work) : (w.loadStep).book = w.book := by
  unfold Work.loadStep
  dsimp only
  split
  · rfl
  split
  · rfl
  · next j _ _ =>
    have shards : ((iter (fun w : Work => forUpto (fun i w => w.issueShard i) j.shards.length w) 4 w).forward
        j.shards.length).book = w.book := by
      rw [Work.forward_book]
      exact iter_book _ (fun w => by simp) _ _
    split
    · split
      · rw [Work.loadDone_book]
        exact shards
      · exact shards
    · exact shards

@[simp] theorem Work.hashDrop_book (kind : Nat) (ref : Nat) (w : Work) : (Work.hashDrop kind ref w).book = w.book := by rfl

@[simp] theorem Work.shardMissing_book (i : Nat) (w : Work) : (Work.shardMissing i w).book = w.book := by
  unfold Work.shardMissing
  (repeat' split) <;> simp [*]

@[simp] theorem Work.loaderGone_book (n : Nat) (w : Work) : (Work.loaderGone n w).book = w.book := by
  unfold Work.loaderGone
  (repeat' split) <;> simp [*]

@[simp] theorem Work.sessGone_book (n : Nat) (st : Nat) (why : Nat) (w : Work) : (Work.sessGone n st why w).book = w.book := by
  unfold Work.sessGone
  simp

@[simp] theorem Work.mirrorAbandonAll_book (x : Nat) (w : Work) : (Work.mirrorAbandonAll x w).book = w.book := by
  unfold Work.mirrorAbandonAll
  simp

@[simp] theorem Work.ctxSever_book (x : Nat) (w : Work) : (Work.ctxSever x w).book = w.book := by
  unfold Work.ctxSever
  dsimp only
  (repeat' split) <;> simp_all [apply_ite]

@[simp] theorem Work.portLost_book (p : Nat) (w : Work) : (Work.portLost p w).book = w.book := by
  unfold Work.portLost
  simp

@[simp] theorem Work.clampRates_book (w : Work) : (Work.clampRates w).book = w.book := by
  unfold Work.clampRates
  simp

@[simp] theorem Work.rehome_book (w : Work) : (w.rehome).book = w.book := by
  unfold Work.rehome
  refine foldl_book _ (fun w s => ?_) _ _
  (repeat' split) <;> simp

@[simp] theorem Work.linkOff_book (p : Nat) (w : Work) : (Work.linkOff p w).book = w.book := by
  unfold Work.linkOff
  split <;> simp

@[simp] theorem Work.sessLostQuiet_book (n : Nat) (w : Work) : (Work.sessLostQuiet n w).book = w.book := by
  unfold Work.sessLostQuiet
  simp

@[simp] theorem Work.streamFail_book (x : Nat) (s : Nat) (st : Nat) (det : Nat) (t : Stream) (w : Work) : (Work.streamFail x s st det t w).book
    = w.book := by
  unfold Work.streamFail
  split <;> simp

@[simp] theorem Work.engineEnd_book (c : Cmd) (st : Nat) (e : Nat) (w : Work) : (Work.engineEnd c st e w).book = w.book := by
  unfold Work.engineEnd
  dsimp only
  (repeat' split) <;> simp_all [apply_ite]

@[simp] theorem opActivate_book (wr : Writer) (v : Nat) (w : Work) : (opActivate wr v w).book = w.book := by
  unfold opActivate
  simp [*]

@[simp] theorem opFwStageCommit_book (wr : Writer) (w : Work) : (opFwStageCommit wr w).book = w.book := by
  unfold opFwStageCommit
  simp [*]

@[simp] theorem opGroupCommit_book (wr : Writer) (w : Work) : (opGroupCommit wr w).book = w.book := by
  unfold opGroupCommit
  simp

@[simp] theorem opMirDevCommit_book (wr : Writer) (w : Work) : (opMirDevCommit wr w).book = w.book := by
  unfold opMirDevCommit
  simp

@[simp] theorem opNotifyCommit_book (wr : Writer) (w : Work) : (opNotifyCommit wr w).book = w.book := by
  unfold opNotifyCommit
  simp

@[simp] theorem Work.carveLog_book (d : Nat) (w : Work) : (Work.carveLog d w).book = w.book := by
  unfold Work.carveLog
  dsimp only
  split <;> simp

@[simp] theorem Work.fixObj_book (n : Nat) (v : Nat) (w : Work) : (Work.fixObj n v w).book = w.book := by
  unfold Work.fixObj
  simp

@[simp] theorem Work.portsTake_book (d : Nat) (w : Work) : (Work.portsTake d w).book = w.book := by
  unfold Work.portsTake
  simp [*]

@[simp] theorem opPortsCommit_book (wr : Writer) (d : Fin 2) (w : Work) : (opPortsCommit wr d w).book = w.book := by
  unfold opPortsCommit
  dsimp only
  simp [apply_ite]

@[simp] theorem Work.loadInvalid_book (reason : Nat) (entry : Nat) (w : Work) : (Work.loadInvalid reason entry w).book = w.book := by
  unfold Work.loadInvalid
  split <;> simp

@[simp] theorem Work.loadRun_book (w : Work) : (Work.loadRun w).book = w.book := by
  unfold Work.loadRun
  (repeat' split) <;> simp [*]

@[simp] theorem Work.loadTry_book (w : Work) : (Work.loadTry w).book = w.book := by
  unfold Work.loadTry
  dsimp only
  (repeat' split) <;> simp [*]

@[simp] theorem opLoadCommit_book (wr : Writer) (w : Work) : (opLoadCommit wr w).book = w.book := by
  unfold opLoadCommit
  simp [*]

@[simp] theorem opLogClear_book (wr : Writer) (w : Work) : (opLogClear wr w).book = w.book := by
  unfold opLogClear
  simp

@[simp] theorem opSlotFlush_book (wr : Writer) (s : Fin 3) (w : Work) : (opSlotFlush wr s w).book = w.book := by
  unfold opSlotFlush
  dsimp only
  simp [apply_ite]

@[simp] theorem opPbCommit_book (wr : Writer) (b : Fin 64) (w : Work) : (opPbCommit wr b w).book = w.book := by
  unfold opPbCommit
  simp

@[simp] theorem opSlotCommit_book (wr : Writer) (s : Fin 3) (w : Work) : (opSlotCommit wr s w).book = w.book := by
  unfold opSlotCommit
  simp

@[simp] theorem Work.one_book (wr : Writer) (n : Nat) (v : Nat) (f : Work → Work) (w : Work) (h0 : ∀ y0, (f y0).book = y0.book) : (Work.one
    wr n v f w).book = w.book := by
  unfold Work.one
  split <;> simp [*]

@[simp] theorem opSwap_book (wr : Writer) (w : Work) : (opSwap wr w).book = w.book := by
  unfold opSwap
  refine Work.gated_book _ _ _ _ _ (fun y => ?_)
  dsimp only
  (repeat' split) <;> simp

@[simp] theorem Work.storeFree_book (w : Work) : (Work.storeFree w).book = w.book := by rfl

@[simp] theorem Work.putHeld_book (i : Nat) (e : Nat) (w : Work) : (Work.putHeld i e w).book = w.book := by rfl

@[simp] theorem opMirFree_book (wr : Writer) (v : Nat) (w : Work) : (opMirFree wr v w).book = w.book := by
  unfold opMirFree
  dsimp only
  simp [apply_ite]

@[simp] theorem Work.openBody_book (n : Nat) (port : Nat) (nonceI : Nat) (nonceR : Nat) (hdr : Nat) (w : Work) : (Work.openBody n port nonceI
    nonceR hdr w).2.book = w.book := by rfl

@[simp] theorem Work.entropyDraw_book (w : Work) : (Work.entropyDraw w).2.book = w.book := by rfl

@[simp] theorem Work.sendOpen_book (s : Sess) (w : Work) : (Work.sendOpen s w).book = w.book := by
  unfold Work.sendOpen
  simp

@[simp] theorem Work.nextSid_book (n : Nat) (w : Work) : (Work.nextSid n w).2.book = w.book := by rfl

@[simp] theorem Work.tryOpen_book (n : Nat) (w : Work) : (Work.tryOpen n w).book = w.book := by
  unfold Work.tryOpen
  dsimp only
  (repeat' split) <;> simp [*]

@[simp] theorem Work.settlePeer_book (n : Nat) (old : Nat) (kept : Bool) (w : Work) : (Work.settlePeer n old kept w).book = w.book := by
  unfold Work.settlePeer
  dsimp only
  (repeat' split) <;> simp [*]

@[simp] theorem Work.fixPeer_book (n : Nat) (e : Nat) (w : Work) : (Work.fixPeer n e w).book = w.book := by
  unfold Work.fixPeer
  dsimp only
  split <;> simp

@[simp] theorem Work.correctPeer_book (n : Nat) (w : Work) : (Work.correctPeer n w).book = w.book := by
  unfold Work.correctPeer
  dsimp only
  (repeat' split) <;> simp [*]

@[simp] theorem opPeerCommit_book (wr : Writer) (w : Work) : (opPeerCommit wr w).book = w.book := by
  unfold opPeerCommit
  refine Work.gated_book _ _ _ _ _ (fun y => ?_)
  simp only [Work.clampRates_book]
  refine (foldl_book _ (fun w n => by split <;> simp) _ _).trans ?_
  simp only [Work.setNet_book]
  refine (foldl_book _ (fun w n => by simp) _ _).trans ?_
  refine (foldl_book _ (fun w n => by simp) _ _).trans ?_
  simp only [Work.groupToActive_book, Work.groupToPend_book]
  refine foldl_book _ (fun w n => ?_) _ _
  simp only [Work.pairGone_book, Work.loaderGone_book, Work.plaitGone_book, Work.endSess_book]
  (repeat' split) <;> simp

@[simp] theorem opHealthClear_book (wr : Writer) (v : Nat) (w : Work) : (opHealthClear wr v w).book = w.book := by
  unfold opHealthClear
  simp [*]

@[simp] theorem Work.hokReq_book (wr : Writer) (w : Work) : (Work.hokReq wr w).book = w.book := by
  unfold Work.hokReq
  simp [*]

@[simp] theorem Work.setDict_book (f : DictState → DictState) (w : Work) : (Work.setDict f w).book = w.book := by rfl

@[simp] theorem Work.storeEnd_book (res : Fin 3) (w : Work) : (Work.storeEnd res w).book = w.book := by
  unfold Work.storeEnd
  split <;> simp

@[simp] theorem opStoreErase_book (wr : Writer) (v : Nat) (res : Fin 3) (w : Work) : (opStoreErase wr v res w).book = w.book := by
  unfold opStoreErase
  dsimp only
  (repeat' split) <;> simp_all [apply_ite]

@[simp] theorem Work.fixPend_book (wr : Writer) (n : Nat) (v : Nat) (w : Work) : (Work.fixPend wr n v w).book = w.book := by
  unfold Work.fixPend
  simp

@[simp] theorem Work.dvfsClamp_book (wr : Writer) (w : Work) : (Work.dvfsClamp wr w).book = w.book := by
  unfold Work.dvfsClamp
  simp

@[simp] theorem opDvfsCommit_book (wr : Writer) (w : Work) : (opDvfsCommit wr w).book = w.book := by
  unfold opDvfsCommit
  simp [*]

@[simp] theorem Work.nearAgentMin_book (wr : Writer) (v : Nat) (w : Work) : (Work.nearAgentMin wr v w).book = w.book := by
  unfold Work.nearAgentMin
  simp

@[simp] theorem Work.putS_book (n : Nat) (v : Nat) (w : Work) : (Work.putS n v w).book = w.book := by rfl

@[simp] theorem Work.setScalar_book (wr : Writer) (r : ObjRow) (n : Nat) (v : Nat) (w : Work) : (Work.setScalar wr r n v w).book = w.book := by
  unfold Work.setScalar
  (repeat' split) <;> simp [*]

@[simp] theorem Work.stageBegin_book (w : Work) : (Work.stageBegin w).book = w.book := by
  unfold Work.stageBegin
  dsimp only
  (repeat' split) <;> simp [*]

@[simp] theorem Work.stageWrite_book (wr : Writer) (off : Nat) (d : List Byte) (w : Work) : (Work.stageWrite wr off d w).book = w.book := by
  unfold Work.stageWrite
  (repeat' split) <;> simp [*]

@[simp] theorem Work.hoopStageImage_book (x : Nat) (off : Nat) (v : Nat) (len : Nat) (w : Work) : (Work.hoopStageImage x off v len w).book =
    w.book := by
  unfold Work.hoopStageImage
  simp [*]

@[simp] theorem Work.fixEntry_book (wr : Writer) (n : Nat) (off : Nat) (len : Nat) (held : Nat) (w : Work) : (Work.fixEntry wr n off len held
    w).book = w.book := by
  unfold Work.fixEntry
  dsimp only
  split <;> simp

@[simp] theorem Work.fixHokKeys_book (wr : Writer) (w : Work) : (Work.fixHokKeys wr w).book = w.book := by
  unfold Work.fixHokKeys
  simp [*]

@[simp] theorem Work.fixNotifyDest_book (wr : Writer) (w : Work) : (Work.fixNotifyDest wr w).book = w.book := by
  unfold Work.fixNotifyDest
  simp [*]

@[simp] theorem Work.fixMgmtAddr_book (wr : Writer) (w : Work) : (Work.fixMgmtAddr wr w).book = w.book := by
  unfold Work.fixMgmtAddr
  dsimp only
  split <;> simp

@[simp] theorem Work.descClamped_book (wr : Writer) (num : Nat) (off : Nat) (before : Nat) (after : Nat) (w : Work) : (Work.descClamped wr num
    off before after w).book = w.book := by
  unfold Work.descClamped
  (repeat' split) <;> simp [*]

@[simp] theorem Work.correctDesc_book (wr : Writer) (c : Copy) (num : Nat) (off : Nat) (rules : List (Nat → Nat)) (w : Work) : (Work.correctDesc
    wr c num off rules w).book = w.book := by
  unfold Work.correctDesc
  dsimp only
  simp [apply_ite]

@[simp] theorem Work.segWrite_book (wr : Writer) (x : Nat) (off : Nat) (d : List Byte) (w : Work) : (Work.segWrite wr x off d w).book =
    w.book := by
  unfold Work.segWrite
  simp [*]

@[simp] theorem Work.hoopClamp_book (wr : Writer) (num : Nat) (off : Nat) (r : Nat) (w : Work) : (Work.hoopClamp wr num off r w).2.book =
    w.book := by
  unfold Work.hoopClamp
  dsimp only
  (repeat' split) <;> simp [*]

@[simp] theorem Work.hoopStage_book (wr : Writer) (x : Nat) (off : Nat) (v : Nat) (len : Nat) (w : Work) : (Work.hoopStage wr x off v len
    w).book = w.book := by
  unfold Work.hoopStage
  simp

@[simp] theorem Work.setBlob_book (wr : Writer) (r : ObjRow) (n : Nat) (off : Nat) (d : List Byte) (w : Work) : (Work.setBlob wr r n off d
    w).book = w.book := by
  unfold Work.setBlob
  (repeat' split) <;> simp [*]

@[simp] theorem Work.coded_book (wr : Writer) (n : Nat) (v : Nat) (last : Nat) (f : Nat → Work → Work) (w : Work) (h0 : ∀ y0 y1, (f y0 y1).book
    = y1.book) : (Work.coded wr n v last f w).book = w.book := by
  unfold Work.coded
  split <;> simp [*]

@[simp] theorem opRestoreReq_book (wr : Writer) (x : Fin 16) (mask : Nat) (w : Work) : (opRestoreReq wr x mask w).book = w.book := by
  unfold opRestoreReq
  dsimp only
  simp [apply_ite]

@[simp] theorem opAttestReq_book (wr : Writer) (x : Fin 16) (w : Work) : (opAttestReq wr x w).book = w.book := by
  unfold opAttestReq
  dsimp only
  simp [apply_ite]

@[simp] theorem Work.disable_book (x : Nat) (w : Work) : (Work.disable x w).book = w.book := by
  unfold Work.disable
  simp [*]

@[simp] theorem Work.ctxCtrl_book (wr : Writer) (x : Nat) (v : Nat) (ok : List Nat) (act : Work → Work) (w : Work) (h0 : ∀ y0, (act y0).book =
    y0.book) : (Work.ctxCtrl wr x v ok act w).book = w.book := by
  unfold Work.ctxCtrl
  simp [*]

@[simp] theorem opCtxDisable_book (wr : Writer) (x : Fin 16) (w : Work) : (opCtxDisable wr x w).book = w.book := by
  unfold opCtxDisable
  simp

@[simp] theorem Work.setTimers_book (l : List Timer) (w : Work) : (Work.setTimers l w).book = w.book := by rfl

@[simp] theorem Work.clearEvents_book (x : Nat) (w : Work) : (Work.clearEvents x w).book = w.book := by rfl

@[simp] theorem Work.openCtx_book (x : Nat) (w : Work) : (Work.openCtx x w).book = w.book := by
  unfold Work.openCtx
  simp [*]

@[simp] theorem Work.ctxProgress_book (x : Nat) (w : Work) : (Work.ctxProgress x w).book = w.book := by rfl

@[simp] theorem Work.setClk_book (f : ClockState → ClockState) (w : Work) : (Work.setClk f w).book = w.book := by rfl

@[simp] theorem Work.floorCheck_book (w : Work) : (w.floorCheck).book = w.book := by
  unfold Work.floorCheck
  refine forUpto_book _ (fun d w => ?_) _ _
  dsimp only
  (repeat' split) <;> simp

@[simp] theorem opCtxEnable_book (wr : Writer) (x : Fin 16) (w : Work) : (opCtxEnable wr x w).book = w.book := by
  unfold opCtxEnable
  dsimp only
  simp [apply_ite]

@[simp] theorem opCtxResume_book (wr : Writer) (x : Fin 16) (w : Work) : (opCtxResume wr x w).book = w.book := by
  unfold opCtxResume
  simp

@[simp] theorem Work.ctxCode_book (wr : Writer) (x : Fin 16) (c : Nat) (w : Work) : (Work.ctxCode wr x c w).book = w.book := by
  unfold Work.ctxCode
  split <;> simp

@[simp] theorem Work.correctShared_book (wr : Writer) (c : Copy) (x : Nat) (w : Work) : (Work.correctShared wr c x w).book = w.book := by
  unfold Work.correctShared
  simp

@[simp] theorem Work.segCommit_book (wr : Writer) (x : Nat) (w : Work) : (Work.segCommit wr x w).book = w.book := by
  unfold Work.segCommit
  simp [*]

@[simp] theorem opSegCommit_book (wr : Writer) (x : Fin 16) (w : Work) : (opSegCommit wr x w).book = w.book := by
  unfold opSegCommit
  simp

@[simp] theorem Work.mirAlloc_book (x : Nat) (w : Work) : (Work.mirAlloc x w).book = w.book := by
  unfold Work.mirAlloc
  refine (forUpto_book _ (fun s w => ?_) _ _).trans (Work.setPair_book _ _)
  split
  · rfl
  dsimp only
  split
  · exact Work.setPair_book _ _
  · exact Work.fixObj_book _ _ _

@[simp] theorem Work.mirIdle_book (x : Nat) (w : Work) : (Work.mirIdle x w).book = w.book := by
  unfold Work.mirIdle
  simp [*]

@[simp] theorem Work.mirApply_book (x : Nat) (w : Work) : (Work.mirApply x w).book = w.book := by
  unfold Work.mirApply
  dsimp only
  simp [apply_ite]

@[simp] theorem opMirCommit_book (wr : Writer) (x : Fin 16) (w : Work) : (opMirCommit wr x w).book = w.book := by
  unfold opMirCommit
  dsimp only
  simp [apply_ite]

@[simp] theorem opBindCommit_book (wr : Writer) (x : Fin 16) (w : Work) : (opBindCommit wr x w).book = w.book := by
  unfold opBindCommit
  simp

@[simp] theorem Work.hoopForget_book (wr : Writer) (x : Nat) (v : Nat) (w : Work) : (Work.hoopForget wr x v w).book = w.book := by
  unfold Work.hoopForget
  simp [*]

@[simp] theorem Work.wideApply_book (x : Nat) (w : Work) : (Work.wideApply x w).book = w.book := by
  unfold Work.wideApply
  split <;> simp

@[simp] theorem Work.wideReq_book (wr : Writer) (x : Nat) (w : Work) : (Work.wideReq wr x w).book = w.book := by
  unfold Work.wideReq
  dsimp only
  split <;> simp

@[simp] theorem Work.privWrite_book (wr : Writer) (x : Nat) (v : Nat) (w : Work) : (Work.privWrite wr x v w).book = w.book := by
  unfold Work.privWrite
  dsimp only
  split <;> simp

@[simp] theorem opPrivWrite_book (wr : Writer) (x : Fin 16) (v : Nat) (w : Work) : (opPrivWrite wr x v w).book = w.book := by
  unfold opPrivWrite
  simp

@[simp] theorem opSeqGrow_book (wr : Writer) (x : Fin 16) (v : Nat) (w : Work) : (opSeqGrow wr x v w).book = w.book := by
  unfold opSeqGrow
  refine Work.gated_book _ _ _ _ _ (fun y => ?_)
  dsimp only
  (repeat' split) <;> simp

@[simp] theorem Work.spillStart_book (sp : Spill) (w : Work) : (Work.spillStart sp w).book = w.book := by
  unfold Work.spillStart
  simp

@[simp] theorem Work.spillRefuse_book (x : Nat) (r : Nat) (w : Work) : (Work.spillRefuse x r w).book = w.book := by rfl

@[simp] theorem Work.spillGo_book (x : Nat) (i : Nat) (w : Work) : (Work.spillGo x i w).book = w.book := by
  unfold Work.spillGo
  split <;> simp

@[simp] theorem opSpillReq_book (wr : Writer) (x : Fin 16) (v : Nat) (w : Work) : (opSpillReq wr x v w).book = w.book := by
  unfold opSpillReq
  split <;> simp

@[simp] theorem opFillReq_book (wr : Writer) (x : Fin 16) (v : Nat) (w : Work) : (opFillReq wr x v w).book = w.book := by
  unfold opFillReq
  refine Work.gated_book _ _ _ _ _ (fun y => ?_)
  split
  · simp
  · split <;> simp

@[simp] theorem Work.historyLost_book (x : Nat) (t : Nat) (w : Work) : (Work.historyLost x t w).book = w.book := by
  unfold Work.historyLost
  simp

@[simp] theorem Work.hoopPut_book (x : Nat) (t : Nat) (r : Nat) (w : Work) : (Work.hoopPut x t r w).book = w.book := by rfl

@[simp] theorem Work.hoopImageApply_book (x : Nat) (t : Nat) (w : Work) : (Work.hoopImageApply x t w).book = w.book := by
  unfold Work.hoopImageApply
  dsimp only
  (repeat' split) <;> simp [*]

@[simp] theorem Work.hoopApply_book (x : Nat) (w : Work) : (Work.hoopApply x w).book = w.book := by
  unfold Work.hoopApply
  simp [*]

@[simp] theorem Work.hoopCommit_book (x : Nat) (w : Work) : (Work.hoopCommit x w).book = w.book := by
  unfold Work.hoopCommit
  simp [*]

@[simp] theorem Work.hoopReq_book (wr : Writer) (x : Nat) (w : Work) : (Work.hoopReq wr x w).book = w.book := by
  unfold Work.hoopReq
  split <;> simp

@[simp] theorem opStreamRearm_book (wr : Writer) (x : Fin 16) (s : Fin 8) (w : Work) : (opStreamRearm wr x s w).book = w.book := by
  unfold opStreamRearm
  simp [*]

@[simp] theorem opQCommit_book (wr : Writer) (x : Fin 16) (q : Fin 5) (w : Work) : (opQCommit wr x q w).book = w.book := by
  unfold opQCommit
  simp

@[simp] theorem Work.packApply_book (x : Nat) (w : Work) : (Work.packApply x w).book = w.book := by
  unfold Work.packApply
  simp [*]

@[simp] theorem opPackCommit_book (wr : Writer) (x : Fin 16) (r : Fin 4) (w : Work) : (opPackCommit wr x r w).book = w.book := by
  unfold opPackCommit
  dsimp only
  simp [apply_ite]

@[simp] theorem Work.writeMin_book (wr : Writer) (x : Nat) (t : Nat) (v : Nat) (w : Work) : (Work.writeMin wr x t v w).book = w.book := by
  unfold Work.writeMin
  dsimp only
  split <;> simp

@[simp] theorem Work.writeCap_book (wr : Writer) (x : Nat) (t : Nat) (v : Nat) (w : Work) : (Work.writeCap wr x t v w).book = w.book := by
  unfold Work.writeCap
  simp

@[simp] theorem Work.qCtrl_book (wr : Writer) (x : Nat) (q : Nat) (v : Nat) (ok : List Nat) (act : Work → Work) (w : Work) (h0 : ∀ y0, (act
    y0).book = y0.book) : (Work.qCtrl wr x q v ok act w).book = w.book := by
  unfold Work.qCtrl
  simp [*]

@[simp] theorem Work.flushRest_book (x : Nat) (q : Nat) (w : Work) : (Work.flushRest x q w).book = w.book := by
  unfold Work.flushRest
  simp

@[simp] theorem Work.closePattern_book (pid : Nat) (w : Work) : (Work.closePattern pid w).1.book = w.book := by
  unfold Work.closePattern
  dsimp only
  (repeat' split) <;> simp [*]

@[simp] theorem Work.flushQueue_book (x : Nat) (q : Nat) (w : Work) : (Work.flushQueue x q w).book = w.book := by
  unfold Work.flushQueue
  (repeat' split) <;> simp [*]

@[simp] theorem opQFlush_book (wr : Writer) (x : Fin 16) (q : Fin 5) (w : Work) : (opQFlush wr x q w).book = w.book := by
  unfold opQFlush
  simp

@[simp] theorem opQResume_book (wr : Writer) (x : Fin 16) (q : Fin 5) (w : Work) : (opQResume wr x q w).book = w.book := by
  unfold opQResume
  simp

@[simp] theorem opQStart_book (wr : Writer) (x : Fin 16) (q : Fin 5) (w : Work) : (opQStart wr x q w).book = w.book := by
  unfold opQStart
  simp

@[simp] theorem opQStop_book (wr : Writer) (x : Fin 16) (q : Fin 5) (w : Work) : (opQStop wr x q w).book = w.book := by
  unfold opQStop
  simp

@[simp] theorem Work.qCode_book (wr : Writer) (x : Fin 16) (q : Fin 5) (c : Nat) (w : Work) : (Work.qCode wr x q c w).book = w.book := by
  unfold Work.qCode
  split <;> simp

@[simp] theorem opSeqLeave_book (wr : Writer) (x : Fin 16) (v : Nat) (w : Work) : (opSeqLeave wr x v w).book = w.book := by
  unfold opSeqLeave
  refine Work.gated_book _ _ _ _ _ (fun y => ?_)
  dsimp only
  (repeat' split) <;> simp

@[simp] theorem opAddSwap_book (wr : Writer) (x : Fin 16) (w : Work) : (opAddSwap wr x w).book = w.book := by
  unfold opAddSwap
  simp [*]

@[simp] theorem opCtxCommit_book (wr : Writer) (x : Fin 16) (w : Work) : (opCtxCommit wr x w).book = w.book := by
  unfold opCtxCommit
  simp

@[simp] theorem Work.arrival_book (n : Nat) (psn : Nat) (ce : Bool) (w : Work) : (Work.arrival n psn ce w).book = w.book := by
  unfold Work.arrival
  simp

@[simp] theorem Work.grant_book (k : Nat) (id : Nat) (w : Work) : (Work.grant k id w).book = w.book := by rfl

@[simp] theorem Work.raiseMax_book (n : Nat) (v : Nat) (w : Work) : (Work.raiseMax n v w).book = w.book := by rfl

@[simp] theorem Work.noteWait_book (t : Tile) (w : Work) : (Work.noteWait t w).book = w.book := by
  unfold Work.noteWait
  split <;> simp

@[simp] theorem Work.takeTile_book (t : Tile) (w : Work) : (Work.takeTile t w).book = w.book := by
  unfold Work.takeTile
  simp

@[simp] theorem Work.bringBlocks_book (k : Nat) (bs : List (Nat × Nat × List Byte)) (w : Work) : (Work.bringBlocks k bs w).book = w.book := by
  unfold Work.bringBlocks
  simp

@[simp] theorem Work.putChange_book (d : Nat) (c : Option ClkChange) (w : Work) : (Work.putChange d c w).book = w.book := by rfl

@[simp] theorem Work.beginChange_book (d : Nat) (mhz : Nat) (w : Work) : (Work.beginChange d mhz w).book = w.book := by
  unfold Work.beginChange
  dsimp only
  split <;> simp

@[simp] theorem Work.bindClamps_book (x : Nat) (w : Work) : (Work.bindClamps x w).book = w.book := by
  unfold Work.bindClamps
  simp [*]

@[simp] theorem Work.tapTake_book (code : Nat) (out : Nat) (w : Work) : (Work.tapTake code out w).book = w.book := by rfl

@[simp] theorem Work.boundary_book (code : Nat) (pins : Nat) (load : Nat) (w : Work) : (Work.boundary code pins load w).book = w.book := by rfl

@[simp] theorem Work.bumpUe_book (n : Nat) (w : Work) : (Work.bumpUe n w).book = w.book := by rfl

@[simp] theorem Work.cancelRecord_book (x q started : Nat) (w : Work) : (Work.cancelRecord x q started w).book = w.book := by
  unfold Work.cancelRecord
  extract_lets n moved lost
  have same : moved.book = w.book := Work.put_book _ _ _
  have lostSame : ∀ v : Work, (lost v).book = v.book := fun v => Work.put_book _ _ _
  split
  · exact (lostSame _).trans same
  split
  · next e => exact (book_of_fst_eq e (Work.postRecord_book _ _ _ _ _)).trans same
  · next e => exact ((lostSame _).trans (book_of_fst_eq e (Work.postRecord_book _ _ _ _ _))).trans same

@[simp] theorem Work.carveClamp_book (d : Nat) (w : Work) : (Work.carveClamp d w).book = w.book := by
  unfold Work.carveClamp
  dsimp only
  simp [apply_ite]

@[simp] theorem Work.chunkDelivered_book (m : TxMsg) (w : Work) : (Work.chunkDelivered m w).book = w.book := by
  unfold Work.chunkDelivered
  simp

@[simp] theorem Work.clearRead_book (r : ObjRow) (n : Nat) (off : Nat) (len : Nat) (w : Work) : (Work.clearRead r n off len w).book = w.book := by
  unfold Work.clearRead
  (repeat' split) <;> simp [*]

@[simp] theorem Work.closeSessions_book (x : Nat) (w : Work) : (Work.closeSessions x w).book = w.book := by
  unfold Work.closeSessions
  simp

@[simp] theorem Work.cmdReadFail_book (c : Cmd) (st : Nat) (det : Nat) (w : Work) : (Work.cmdReadFail c st det w).book = w.book := by
  unfold Work.cmdReadFail
  (repeat' split) <;> simp [*]

@[simp] theorem Work.zeroRange_book (lo : Nat) (hi : Nat) (w : Work) : (Work.zeroRange lo hi w).book = w.book := by
  unfold Work.zeroRange
  simp

@[simp] theorem Work.memLost_book (w : Work) : (Work.memLost w).book = w.book := by
  unfold Work.memLost
  simp

@[simp] theorem Work.countConv_book (x : Nat) (c : Conv) (w : Work) : (Work.countConv x c w).book = w.book := by
  unfold Work.countConv
  split <;> simp

@[simp] theorem Work.gather_book (id : Nat) (flags : Nat) (w : Work) : (Work.gather id flags w).book = w.book := by
  unfold Work.gather
  simp

@[simp] theorem Work.collConv_book (j : CollJob) (k : Conv) (w : Work) : (Work.collConv j k w).book = w.book := by
  unfold Work.collConv
  dsimp only
  split <;> simp

@[simp] theorem Work.hoopReport_book (x : Nat) (t : Nat) (k : Conv) (w : Work) : (Work.hoopReport x t k w).book = w.book := by rfl

@[simp] theorem Work.toDst_book (j : CollJob) (c : Cmd) (e : Nat) (lane : Nat) (vals : List Val) (w : Work) : (Work.toDst j c e lane vals
    w).book = w.book := by
  unfold Work.toDst
  dsimp only
  (repeat' split) <;> simp [*]

@[simp] theorem Work.wireToDst_book (j : CollJob) (c : Cmd) (e : Nat) (n : Nat) (bytes : List Nat) (w : Work) : (Work.wireToDst j c e n bytes
    w).book = w.book := by
  unfold Work.wireToDst
  dsimp only
  (repeat' split) <;> simp [*]

@[simp] theorem Work.sendChunk_book (id : Nat) (lv : Nat) (pos : Nat) (round : Nat) (chunk : Nat) (data : List Nat) (src : List (Nat × Nat)) (w : Work)
    : (Work.sendChunk id lv pos round chunk data src w).book = w.book := by
  unfold Work.sendChunk
  (repeat' split) <;> simp [*]

@[simp] theorem Work.innerSend_book (id : Nat) (v1 : Nat) (v2 : Work) : (Work.innerSend id v1 v2).book = v2.book := by
  induction v1 generalizing v2 with
  | zero => rfl
  | succ k ih =>
    unfold Work.innerSend
    dsimp only
    (repeat' split) <;> simp [*]

@[simp] theorem Work.sliceGot_book (id : Nat) (part : Nat) (chunk : Nat) (y : List Nat) (w : Work) : (Work.sliceGot id part chunk y w).book =
    w.book := by
  unfold Work.sliceGot
  simp

@[simp] theorem Work.thrumOut_book (j : CollJob) (e0 : Nat) (vals : List Val) (w : Work) : (Work.thrumOut j e0 vals w).book = w.book := by
  unfold Work.thrumOut
  simp

@[simp] theorem Work.compress_book (j : CollJob) (c : Cmd) (kind : Nat) (e0 : Nat) (vals : List Val) (w : Work) : (Work.compress j c kind e0
    vals w).2.book = w.book := by
  unfold Work.compress
  (repeat' split) <;> simp [*]

@[simp] theorem Work.ownPart_book (j : CollJob) (c : Cmd) (chunk : Nat) (vals : List Val) (w : Work) : (Work.ownPart j c chunk vals
    w).book = w.book := by
  unfold Work.ownPart
  dsimp only
  (repeat' split) <;> simp_all [apply_ite]

@[simp] theorem Work.directOwn_book (id : Nat) (chunk : Nat) (c : Cmd) (w : Work) : (Work.directOwn id chunk c w).book = w.book := by
  unfold Work.directOwn
  dsimp only
  (repeat' split) <;> simp [*]

@[simp] theorem Work.sendSource_book (j : CollJob) (c : Cmd) (chunk : Nat) (e0 : Nat) (lane : Nat) (len : Nat) (round : Nat) (dst : List Nat) (w :
    Work) : (Work.sendSource j c chunk e0 lane len round dst w).book = w.book := by
  unfold Work.sendSource
  split <;> simp

@[simp] theorem Work.collBegin_book (j : CollJob) (c : Cmd) (w : Work) : (Work.collBegin j c w).book = w.book := by
  unfold Work.collBegin
  dsimp only
  (repeat' split) <;> simp [*]

@[simp] theorem Work.postFrom_book (id : Nat) (lv : Nat) (pos : Nat) (v3 : Nat) (v4 : Work) : (Work.postFrom id lv pos v3 v4).book = v4.book := by
  induction v3 generalizing v4 with
  | zero => rfl
  | succ k ih =>
    unfold Work.postFrom
    dsimp only
    (repeat' split) <;> simp [*]

@[simp] theorem Work.postAll_book (id : Nat) (w : Work) : (Work.postAll id w).book = w.book := by
  unfold Work.postAll
  split <;> simp

@[simp] theorem Work.startColl_book (c : Cmd) (w : Work) : (Work.startColl c w).book = w.book := by
  unfold Work.startColl
  dsimp only
  (repeat' split) <;> simp [*]

@[simp] theorem Work.collRow_book (id : Nat) (op : Nat) (w : Work) : (Work.collRow id op w).book = w.book := by
  unfold Work.collRow
  (repeat' split) <;> simp [*]

@[simp] theorem Work.merged_book (j : CollJob) (c : Cmd) (n : Nat) (wt : Nat) (w : Work) : (Work.merged j c n wt w).book = w.book := by
  unfold Work.merged
  split <;> simp

@[simp] theorem Work.directAdd_book (id : Nat) (pos : Nat) (chunk : Nat) (c : Cmd) (v : List Val) (w : Work) : (Work.directAdd id pos chunk c
    v w).book = w.book := by
  unfold Work.directAdd
  dsimp only
  split <;> simp

@[simp] theorem Work.doChunk_book (id : Nat) (l : Landing) (c : Cmd) (w : Work) : (Work.doChunk id l c w).book = w.book := by
  unfold Work.doChunk
  dsimp only
  (repeat' split) <;> simp [*]

@[simp] theorem Work.freeSlot_book (id : Nat) (l : Landing) (w : Work) : (Work.freeSlot id l w).book = w.book := by
  unfold Work.freeSlot
  simp

@[simp] theorem Work.mergeIn_book (id : Nat) (c : Cmd) (v2 : Nat) (v3 : Nat) (v4 : Work) : (Work.mergeIn id c v2 v3 v4).book = v4.book := by
  induction v2 generalizing v3 v4 with
  | zero => rfl
  | succ k ih =>
    unfold Work.mergeIn
    (repeat' split) <;> simp [*]

@[simp] theorem Work.collSweep_book (w : Work) : (Work.collSweep w).book = w.book := by
  unfold Work.collSweep
  simp

@[simp] theorem Work.reportEnd_book (x : Nat) (q : Nat) (pid : Nat) (idx : Nat) (raw : Nat) (d : Done) (w : Work) : (Work.reportEnd x q pid idx
    raw d w).book = w.book := by
  unfold Work.reportEnd
  dsimp only
  (repeat' split) <;> simp [*]

@[simp] theorem Work.putHdr_book (a : Nat) (h : Nat) (w : Work) : (Work.putHdr a h w).book = w.book := by rfl

@[simp] theorem Work.unbox_book (id : Nat) (w : Work) : (Work.unbox id w).book = w.book := by rfl

@[simp] theorem Work.mirRefuse_book (w : Work) : (Work.mirRefuse w).book = w.book := by rfl

/-- The entry laid for a copy's header. -/
@[simp] theorem Work.heldAlloc_book {i job rank ctx id len : Nat} {w w' : Work} (e : w.heldAlloc i job rank ctx id len = some w') :
    w'.book = w.book := by
  unfold Work.heldAlloc at e
  dsimp only at e
  split at e
  · cases e
  split at e
  · cases e
  · rw [← Option.some.inj e, Work.putHdr_book, Work.putHdr_book, Work.putHeld_book]

@[simp] theorem Work.copyBegins_book (m : InMsg) (h : Nat) (w : Work) : (Work.copyBegins m h w).book = w.book := by
  unfold Work.copyBegins
  extract_lets id start unboxed
  split
  next job rank ctx len _ =>
  extract_lets full fresh
  have startSame : ∀ i (v : Work), (start i v).book = v.book := fun i v => (Work.setPair_book _ _).trans (Work.putHdr_book _ _ _)
  have fullSame : ∀ v : Work, (full v).book = v.book := fun v => (Work.event_book _ _ _ _ _).trans (Work.mirRefuse_book _)
  have freshSame : ∀ i (v : Work), (fresh i v).book = v.book := by
    intro i v
    unfold fresh
    split
    · next e => exact (startSame _ _).trans (Work.heldAlloc_book e)
    · exact fullSame v
  have unboxedSame : unboxed.book = w.book := Work.unbox_book _ _
  split
  · extract_lets e
    split
    · split
      · rfl
      · exact (startSame _ _).trans unboxedSame
    split
    · rfl
    · exact (freshSame _ _).trans ((Work.putHeld_book _ _ _).trans unboxedSame)
  · split
    · split
      · exact (freshSame _ _).trans unboxedSame
      · exact (fullSame _).trans unboxedSame
    · exact (fullSame _).trans unboxedSame

@[simp] theorem Work.copyEnds_book (m : InMsg) (h : Nat) (w : Work) : (Work.copyEnds m h w).book = w.book := by
  unfold Work.copyEnds
  dsimp only
  (repeat' split) <;> simp [*]

@[simp] theorem Work.writePieces_book (x : Nat) (ps : List (Nat × List Nat)) (w : Work) : (Work.writePieces x ps w).book = w.book := by
  unfold Work.writePieces
  dsimp only
  split <;> simp

@[simp] theorem Work.copyRun_book (j : CopyJob) (a : CopyAddrs) (w : Work) : (Work.copyRun j a w).2.2.book = w.book := by
  unfold Work.copyRun
  (repeat' split) <;> simp [*]

@[simp] theorem Work.setCouch_book (l : List Couch) (w : Work) : (Work.setCouch l w).book = w.book := by rfl

@[simp] theorem Work.couchLine_book (x : Nat) (ctl : Nat) (a : Nat) (d : List Byte) (w : Work) : (Work.couchLine x ctl a d w).book = w.book := by
  unfold Work.couchLine
  dsimp only
  (repeat' split) <;> simp [*]

@[simp] theorem Work.couchLost_book (ctl : Nat) (w : Work) : (Work.couchLost ctl w).book = w.book := by
  unfold Work.couchLost
  dsimp only
  split <;> simp

@[simp] theorem Work.couchWrite_book (x v0 : Nat) (v1 : List Byte) (v2 : Nat) (w : Work) :
    (Work.couchWrite x v0 v1 v2 w).book = w.book := by
  induction v2 generalizing v0 v1 w with
  | zero => rfl
  | succ k ih =>
    unfold Work.couchWrite
    dsimp only
    split
    · rfl
    · rw [ih]
      split <;> simp

@[simp] theorem Work.countRun_book (k : Nat) (t : Tile) (r : TileRun) (s : Stalls) (own : Bool) (np : Nat) (pc : Nat) (nc : Nat) (w : Work) :
    (Work.countRun k t r s own np pc nc w).book = w.book := by
  unfold Work.countRun
  dsimp only
  (repeat' split) <;> simp [*]

@[simp] theorem Work.setErrs_book (a : Nat) (e : List (Nat × Nat)) (w : Work) : (Work.setErrs a e w).book = w.book := by rfl

@[simp] theorem Work.eraseLane_book (p : ExtPlace) (l : Nat) (w : Work) : (Work.eraseLane p l w).book = w.book := by
  unfold Work.eraseLane
  split <;> simp

@[simp] theorem Work.laneThreshold_book (p : ExtPlace) (l : Nat) (w : Work) : (Work.laneThreshold p l w).book = w.book := by
  unfold Work.laneThreshold
  dsimp only
  (repeat' split) <;> simp [*]

@[simp] theorem Work.laneSymbol_book (p : ExtPlace) (l : Nat) (w : Work) : (Work.laneSymbol p l w).book = w.book := by
  unfold Work.laneSymbol
  simp [*]

@[simp] theorem Work.decodeSector_book (p : ExtPlace) (a : Nat) (flips : List (Nat × Nat)) (w : Work) : (Work.decodeSector p a flips w).2.book
    = w.book := by
  unfold Work.decodeSector
  dsimp only
  (repeat' split) <;> simp [*]

@[simp] theorem Work.mirrorFinal_book (x : Nat) (s : Nat) (w : Work) : (Work.mirrorFinal x s w).book = w.book := by
  unfold Work.mirrorFinal
  (repeat' split) <;> simp [*]

@[simp] theorem Work.pairDelivered_book (m : TxMsg) (w : Work) : (Work.pairDelivered m w).book = w.book := by
  unfold Work.pairDelivered
  (repeat' split) <;> simp [*]

@[simp] theorem Work.delivered_book (m : TxMsg) (w : Work) : (Work.delivered m w).book = w.book := by
  unfold Work.delivered
  (repeat' split) <;> simp [*]

@[simp] theorem Work.deliverAll_book (n : Nat) (w : Work) : (Work.deliverAll n w).book = w.book := by
  unfold Work.deliverAll
  simp

@[simp] theorem Work.doorbell_book (fn : Nat) (x : Nat) (act : Work → Work) (w : Work) (h0 : ∀ y0, (act y0).book = y0.book) : (Work.doorbell
    fn x act w).book = w.book := by
  unfold Work.doorbell
  (repeat' split) <;> simp [*]

@[simp] theorem Work.doorbellBad_book (fn : Nat) (x : Nat) (off : Nat) (w : Work) : (Work.doorbellBad fn x off w).book = w.book := by
  unfold Work.doorbellBad
  simp

@[simp] theorem Work.drawIncarnation_book (w : Work) : (Work.drawIncarnation w).book = w.book := by
  unfold Work.drawIncarnation
  dsimp only
  split <;> simp

@[simp] theorem Work.endChange_book (d : Nat) (w : Work) : (Work.endChange d w).book = w.book := by
  unfold Work.endChange
  dsimp only
  split <;> simp

@[simp] theorem Work.endCmd_book (id : Nat) (d : Done) (w : Work) : (Work.endCmd id d w).book = w.book := by
  unfold Work.endCmd
  simp [*]

@[simp] theorem Work.fetchFail_book (x : Nat) (q : Nat) (st : Nat) (det : Nat) (w : Work) : (Work.fetchFail x q st det w).book = w.book := by
  unfold Work.fetchFail
  (repeat' split) <;> simp [*]

@[simp] theorem Work.enterOff_book (x : Nat) (w : Work) : (Work.enterOff x w).book = w.book := by
  unfold Work.enterOff
  simp [*]

@[simp] theorem Work.phase_book (n : Nat) (w : Work) : (Work.phase n w).book = w.book := by
  unfold Work.phase
  simp

@[simp] theorem Work.escalated_book (r : Reset) (into : Nat) (skip : Nat) (w : Work) : (Work.escalated r into skip w).book = w.book := by
  unfold Work.escalated
  simp

@[simp] theorem Work.fillBlock_book (x : Nat) (q : Nat) (w : Work) : (Work.fillBlock x q w).book = w.book := by
  unfold Work.fillBlock
  (repeat' split) <;> simp [*]

@[simp] theorem Work.fillBack_book (x : Nat) (v1 : Nat) (v2 : Work) : (Work.fillBack x v1 v2).book = v2.book := by
  induction v1 generalizing v2 with
  | zero => rfl
  | succ k ih =>
    unfold Work.fillBack
    (repeat' split) <;> simp [*]

@[simp] theorem Work.fixMember_book (k : Nat) (v : Nat) (w : Work) : (Work.fixMember k v w).book = w.book := by
  unfold Work.fixMember
  simp

@[simp] theorem Work.fixGroup_book (g : Nat) (w : Work) : (Work.fixGroup g w).book = w.book := by
  unfold Work.fixGroup
  dsimp only
  (repeat' split) <;> simp_all [apply_ite]

@[simp] theorem Work.fixRange_book (base : Nat) (len : Nat) (w : Work) : (Work.fixRange base len w).book = w.book := by
  unfold Work.fixRange
  split <;> simp

@[simp] theorem Work.freqSync_book (w : Work) : (Work.freqSync w).book = w.book := by rfl

@[simp] theorem Work.gatherOut_book (c : Cmd) (j : PicotJob) (o : Nat) (rows : List (List Nat)) (w : Work) : (Work.gatherOut c j o rows
    w).book = w.book := by
  unfold Work.gatherOut
  dsimp only
  (repeat' split) <;> simp [*]

@[simp] theorem Work.gatherStep_book (c : Cmd) (w : Work) : (w.gatherStep c).book = w.book := by
  unfold Work.gatherStep
  dsimp only
  split
  · rfl
  have outputs : ∀ (w' : Work), w'.book = w.book → (match w'.picotJob? c.id with
      | some j => if j.left.isEmpty then (match j.fail with | some (st, d) => w'.endPicot c.id st d | none => w'.endPicot c.id 0 0)
        else w'
      | none => w').book = w.book := by
    intro w' same
    (repeat' split) <;> simp [same]
  refine outputs _ (foldl_book _ (fun w o => ?_) _ _)
  (repeat' split) <;> simp

@[simp] theorem Work.growTimeout_book (x : Nat) (w : Work) : (Work.growTimeout x w).book = w.book := by
  unfold Work.growTimeout
  (repeat' split) <;> simp [*]

@[simp] theorem Work.hokAnswer_book (f : HokRx) (m : List Nat) (w : Work) : (Work.hokAnswer f m w).book = w.book := by
  unfold Work.hokAnswer
  simp

@[simp] theorem Work.hokError_book (f : HokRx) (code : Nat) (w : Work) : (Work.hokError f code w).book = w.book := by
  unfold Work.hokError
  split <;> simp

@[simp] theorem Work.hokAuthFail_book (f : HokRx) (why : Nat) (w : Work) : (Work.hokAuthFail f why w).book = w.book := by
  unfold Work.hokAuthFail
  dsimp only
  split <;> simp

@[simp] theorem Work.hokIn_book (f : HokRx) (act : HokSession → Work → Work) (w : Work) (h0 : ∀ y0 y1, (act y0 y1).book = y1.book) :
    (Work.hokIn f act w).book = w.book := by
  unfold Work.hokIn
  dsimp only
  (repeat' split) <;> simp [*]

@[simp] theorem Work.objRd_book (wr : Writer) (n : Nat) (off : Nat) (len : Nat) (active : Bool) (w : Work) : (Work.objRd wr n off len active
    w).2.book = w.book := by
  unfold Work.objRd
  dsimp only
  (repeat' split) <;> simp [*]

@[simp] theorem Work.hokOpen_book (f : HokRx) (key : Nat) (s : Nat) (w : Work) : (Work.hokOpen f key s w).book = w.book := by
  unfold Work.hokOpen
  simp [*]

@[simp] theorem Work.putHok_book (s : HokSession) (w : Work) : (Work.putHok s w).book = w.book := by rfl

@[simp] theorem Work.hokTake_book (f : HokRx) (type : Nat) (act : Work → Work) (w : Work) (h0 : ∀ y0, (act y0).book = y0.book) :
    (Work.hokTake f type act w).book = w.book := by
  unfold Work.hokTake
  dsimp only
  (repeat' split) <;> simp [*]

@[simp] theorem Work.hoopBack_book (d : Nat) (bad : List (Nat × Nat)) (w : Work) : (Work.hoopBack d bad w).book = w.book := by
  unfold Work.hoopBack
  simp

@[simp] theorem Work.monitor_book (x : Nat) (t : Nat) (r : Nat) (w : Work) : (Work.monitor x t r w).2.book = w.book := by
  unfold Work.monitor
  dsimp only
  (repeat' split) <;> simp [*]

@[simp] theorem Work.hoopUpdate_book (x t : Nat) (w : Work) : (Work.hoopUpdate x t w).book = w.book := by
  unfold Work.hoopUpdate
  extract_lets r probed h r1 r2 r3 stepped noted cleared
  have notedSame : noted.book = w.book := by
    unfold noted
    split
    · exact (Work.event_book _ _ _ _ _).trans (Work.bump_book _ _ _)
    · rfl
  split
  · rfl
  split
  next r' w' e =>
  refine (Work.hoopPut_book _ _ _ _).trans (book_of_snd_eq e ?_)
  split
  · rfl
  split
  next e => exact (book_of_snd_eq e (Work.monitor_book _ _ _ _)).trans notedSame

@[simp] theorem Work.hoopForgetSlot_book (x : Nat) (t : Nat) (w : Work) : (Work.hoopForgetSlot x t w).book = w.book := by
  unfold Work.hoopForgetSlot
  dsimp only
  (repeat' split) <;> simp [*]

@[simp] theorem Work.hoopForgets_book (x : Nat) (w : Work) : (Work.hoopForgets x w).book = w.book := by
  unfold Work.hoopForgets
  simp [*]

@[simp] theorem Work.hoopBoundary_book (x : Nat) (w : Work) : (Work.hoopBoundary x w).book = w.book := by
  unfold Work.hoopBoundary
  simp

@[simp] theorem Work.hostConfig_book (cfg : HostCfg) (w : Work) : (Work.hostConfig cfg w).book = w.book := by rfl

@[simp] theorem Work.void_book (w : Work) : (Work.void w).book = w.book := by rfl

@[simp] theorem Work.pass_book (cores : List Nat) (w : Work) : (Work.pass cores w).book = w.book := by
  unfold Work.pass
  simp

@[simp] theorem Work.onchipWord_book (x : Nat) (a : Nat) (res : ReadRes) (w : Work) : (Work.onchipWord x a res w).book = w.book := by
  unfold Work.onchipWord
  split <;> simp

@[simp] theorem Work.readEvents_book (x : Nat) (a : Nat) (res : ReadRes) (w : Work) : (Work.readEvents x a res w).book = w.book := by
  unfold Work.readEvents
  (repeat' split) <;> simp [*]

@[simp] theorem Work.landFill_book (f : Fill) (i : Nat) (k : Nat) (res : ReadRes) (w : Work) : (Work.landFill f i k res w).book = w.book := by
  unfold Work.landFill
  dsimp only
  (repeat' split) <;> simp [*]

@[simp] theorem Work.landShard_book (i : Nat) (d : List Byte) (w : Work) : (Work.landShard i d w).book = w.book := by
  unfold Work.landShard
  (repeat' split) <;> simp [*]

@[simp] theorem Work.setErased_book (p : ExtPlace) (ls : List Nat) (w : Work) : (Work.setErased p ls w).book = w.book := by
  unfold Work.setErased
  split <;> simp

@[simp] theorem Work.laneTest_book (p : ExtPlace) (failed : List Nat) (w : Work) : (Work.laneTest p failed w).book = w.book := by
  unfold Work.laneTest
  dsimp only
  (repeat' split) <;> simp [*]

@[simp] theorem Work.lastReset_book (r : Reset) (w : Work) : (Work.lastReset r w).book = w.book := by
  unfold Work.lastReset
  simp

@[simp] theorem Work.linkDown_book (p : Nat) (w : Work) : (Work.linkDown p w).book = w.book := by
  unfold Work.linkDown
  split <;> simp

@[simp] theorem Work.mapMsg_book (n : Nat) (num : Nat) (f : TxMsg → TxMsg) (w : Work) : (Work.mapMsg n num f w).book = w.book := by rfl

@[simp] theorem Work.servo_book (off : Int) (w : Work) : (Work.servo off w).book = w.book := by
  unfold Work.servo
  simp [*]

@[simp] theorem Work.measured_book (t2 : Nat) (t1 : Nat) (w : Work) : (Work.measured t2 t1 w).book = w.book := by
  unfold Work.measured
  simp

@[simp] theorem Work.mirrorSend_book (x : Nat) (w : Work) : (Work.mirrorSend x w).book = w.book := by
  unfold Work.mirrorSend
  dsimp only
  (repeat' split) <;> simp_all [apply_ite]

@[simp] theorem Work.snapShard_book (x : Nat) (step : Nat) (s : Nat) (w : Work) : (Work.snapShard x step s w).2.book = w.book := by
  unfold Work.snapShard
  dsimp only
  (repeat' split) <;> simp [*]

@[simp] theorem Work.mirrorSnap_book (x : Nat) (step : Nat) (w : Work) : (Work.mirrorSnap x step w).book = w.book := by
  unfold Work.mirrorSnap
  dsimp only
  simp [apply_ite]

@[simp] theorem Work.mismatch_book (key : Nat) (rank : Nat) (w : Work) : (Work.mismatch key rank w).book = w.book := by
  unfold Work.mismatch
  dsimp only
  split <;> simp

@[simp] theorem Work.missed_book (x : Nat) (q : Nat) (d : Nat) (w : Work) : (Work.missed x q d w).book = w.book := by
  unfold Work.missed
  dsimp only
  (repeat' split) <;> simp_all [apply_ite]

@[simp] theorem Work.nextIncarnation_book (w : Work) : (Work.nextIncarnation w).book = w.book := by
  unfold Work.nextIncarnation
  dsimp only
  (repeat' split) <;> simp [*]

@[simp] theorem Work.noteDispatch_book (k : Nat) (t : Tile) (w : Work) : (Work.noteDispatch k t w).book = w.book := by
  unfold Work.noteDispatch
  dsimp only
  (repeat' split) <;> simp [*]

@[simp] theorem Work.notifyLostEvent_book (i : Nat) (w : Work) : (Work.notifyLostEvent i w).book = w.book := by
  unfold Work.notifyLostEvent
  simp

@[simp] theorem Work.notify_book (kind : Nat) (body : List Nat) (w : Work) : (w.notify kind body).book = w.book := by
  unfold Work.notify
  split
  · next e => exact (by simp : _ = _).trans (book_of_snd_eq e (by simp))
  · next e => exact book_of_snd_eq e (by simp)

@[simp] theorem Work.reply_book (p : Nat) (addr : Nat) (type : Nat) (reason : Nat) (h : Nat) (w : Work) : (Work.reply p addr type reason h w).book
    = w.book := by
  unfold Work.reply
  dsimp only
  (repeat' split) <;> simp [*]

@[simp] theorem Work.openRefuse_book (f : Rx) (why : Nat) (w : Work) : (Work.openRefuse f why w).book = w.book := by
  unfold Work.openRefuse
  simp

@[simp] theorem Work.sendOpenAck_book (s : Sess) (w : Work) : (Work.sendOpenAck s w).book = w.book := by
  unfold Work.sendOpenAck
  simp

@[simp] theorem Work.openTake_book (f : Rx) (n : Nat) (w : Work) : (Work.openTake f n w).book = w.book := by
  unfold Work.openTake
  split <;> simp

@[simp] theorem Work.portsBack_book (ps : List Nat) (w : Work) : (Work.portsBack ps w).book = w.book := by
  unfold Work.portsBack
  simp [*]

@[simp] theorem Work.putReg_book (r : Reg) (w : Work) : (Work.putReg r w).book = w.book := by rfl

@[simp] theorem Work.putWindow_book (v : Window) (w : Work) : (Work.putWindow v w).book = w.book := by rfl

@[simp] theorem Work.rateAck_book (n : Nat) (ce : Nat) (rx : Nat) (w : Work) : (Work.rateAck n ce rx w).book = w.book := by
  unfold Work.rateAck
  split <;> simp

@[simp] theorem Work.rateStart_book (n : Nat) (w : Work) : (Work.rateStart n w).book = w.book := by
  unfold Work.rateStart
  simp

@[simp] theorem Work.refreshLost_book (p : Nat) (w : Work) : (Work.refreshLost p w).book = w.book := by
  unfold Work.refreshLost
  simp

@[simp] theorem Work.regPass_book (r : Reg) (n : Nat) (w : Work) : (Work.regPass r n w).book = w.book := by
  unfold Work.regPass
  dsimp only
  split <;> simp

@[simp] theorem Work.zeroDie_book (d : Nat) (w : Work) : (Work.zeroDie d w).book = w.book := by
  unfold Work.zeroDie
  simp

@[simp] theorem Work.responderOpen_book (n : Nat) (w : Work) : (Work.responderOpen n w).book = w.book := by
  unfold Work.responderOpen
  (repeat' split) <;> simp [*]

@[simp] theorem Work.restResult_book (x : Nat) (s : Nat) (src : Nat) (divergent : Nat) (hdr : Nat) (w : Work) : (Work.restResult x s src divergent
    hdr w).book = w.book := by rfl

@[simp] theorem Work.restCkpt_book (x s div : Nat) (w : Work) : (w.restCkpt x s div).book = w.book := by
  unfold Work.restCkpt
  dsimp only
  split
  · simp
  split
  · simp
  split
  · split
    · next e => exact (by simp : _ = _).trans (book_of_snd_eq e (by simp))
    · next e => exact (by simp : _ = _).trans (book_of_snd_eq e (by simp))
  · simp

@[simp] theorem Work.restChoose_book (x : Nat) (t : RestShard) (w : Work) : (w.restChoose x t).book = w.book := by
  unfold Work.restChoose
  dsimp only
  split
  · simp
  split
  · rfl
  split
  · simp
  split
  · simp
  split
  · next e => exact (by simp : _ = _).trans (book_of_snd_eq e (by simp))
  · next e => exact (by simp : _ = _).trans (book_of_snd_eq e (by simp))

@[simp] theorem Work.retarget_book (x : Nat) (i : Nat) (base : Nat) (len : Nat) (w : Work) : (Work.retarget x i base len w).book = w.book := by
  unfold Work.retarget
  simp

@[simp] theorem Work.rmwRead_book (e : Couch) (cw : Nat) (k : Nat) (bad : List Nat) (w : Work) : (Work.rmwRead e cw k bad w).2.book = w.book := by
  unfold Work.rmwRead
  dsimp only
  (repeat' split) <;> simp [*]

@[simp] theorem Work.retire_book (e : Couch) (bad : List Nat) (w : Work) : (w.retire e bad).book = w.book := by
  unfold Work.retire
  refine (forUpto_book _ (fun k w => ?_) _ _).trans (by simp)
  dsimp only
  split
  · split
    · simp only [Work.log1_book, Work.bumpUe_book]
      split <;> simp
    · simp
  split
  · rfl
  · simp

@[simp] theorem Work.rnrHold_book (n : Nat) (echo : Nat) (w : Work) : (Work.rnrHold n echo w).book = w.book := by
  unfold Work.rnrHold
  dsimp only
  (repeat' split) <;> simp [*]

@[simp] theorem Work.rowDone_book (c : Cmd) (j : PicotJob) (r : PRow) (w : Work) : (Work.rowDone c j r w).book = w.book := by
  unfold Work.rowDone
  dsimp only
  (repeat' split) <;> simp [*]

@[simp] theorem Work.runImage_book (b : Nat) (w : Work) : (Work.runImage b w).book = w.book := by rfl

@[simp] theorem Work.runTime_book (k : Nat) (t : Tile) (samp : Bool) (w : Work) : (Work.runTime k t samp w).book = w.book := by
  unfold Work.runTime
  simp [*]

@[simp] theorem Work.violation_book (n : Nat) (row : Nat) (w : Work) : (Work.violation n row w).book = w.book := by
  unfold Work.violation
  dsimp only
  (repeat' split) <;> simp [*]

@[simp] theorem Work.rxAck_book (f : Rx) (n : Nat) (w : Work) : (Work.rxAck f n w).book = w.book := by
  unfold Work.rxAck
  split <;> simp

@[simp] theorem Work.rxCounted_book (f : Rx) (w : Work) : (Work.rxCounted f w).book = w.book := by
  unfold Work.rxCounted
  split <;> simp

@[simp] theorem Work.rxOpen_book (f : Rx) (w : Work) : (Work.rxOpen f w).book = w.book := by
  unfold Work.rxOpen
  dsimp only
  (repeat' split) <;> simp [*]

@[simp] theorem Work.sendProbe_book (n : Nat) (w : Work) : (Work.sendProbe n w).book = w.book := by
  unfold Work.sendProbe
  split <;> simp

@[simp] theorem Work.rxOpenAck_book (f : Rx) (n : Nat) (w : Work) : (Work.rxOpenAck f n w).book = w.book := by
  unfold Work.rxOpenAck
  dsimp only
  (repeat' split) <;> simp [*]

@[simp] theorem Work.rxPath_book (t : Nat) (f : Rx) (act : Nat → Work → Work) (w : Work) (h0 : ∀ y0 y1, (act y0 y1).book = y1.book) :
    (Work.rxPath t f act w).book = w.book := by
  unfold Work.rxPath
  dsimp only
  (repeat' split) <;> simp [*]

@[simp] theorem Work.sampleCore_book (k : Nat) (bad : List Nat) (w : Work) : (Work.sampleCore k bad w).2.book = w.book := by rfl

@[simp] theorem Work.saveUe_book (k : Nat) (w : Work) : (Work.saveUe k w).book = w.book := by
  unfold Work.saveUe
  simp

@[simp] theorem Work.sdcStep_book (x : Nat) (step : Nat) (k : Nat) (w : Work) : (Work.sdcStep x step k w).book = w.book := by
  unfold Work.sdcStep
  simp

@[simp] theorem Work.sendData_book (s : Sess) (x : Next) (p path : Nat) (bad : TxFault) (w : Work) :
    (Work.sendData s x p path bad w).book = w.book := by
  unfold Work.sendData
  extract_lets e lctx lc again
  split
  next k m? sent s' e' =>
  have same : sent.book = w.book := by
    refine book_of_mid_eq e' ?_
    split
    · exact Work.bump_book _ _ _
    · split
      next num numbered s'' e'' =>
      refine (Work.mapMsg_book _ _ _ _).trans ?_
      have h := congrArg (fun t => t.2.1.book) e''
      refine h.symm.trans ?_
      dsimp only
      split
      · rfl
      · exact Work.setNet_book _ _
  split
  · exact same
  · extract_lets payload flags ext gap pkts s'' put counted framed
    exact (Work.metroSync_book _).trans ((Work.frame_book _ _ _ _ _ _ _ _ _ _ _).trans
      ((Work.bump_book _ _ _).trans ((Work.putSess_book _ _).trans same)))

@[simp] theorem Work.sendNone_book (n : Nat) (id : Nat) (reason : Nat) (w : Work) : (Work.sendNone n id reason w).book = w.book := by rfl

@[simp] theorem Work.sendSlot_book (n : Nat) (id : Nat) (k : Nat) (a : Nat) (w : Work) : (Work.sendSlot n id k a w).book = w.book := by
  unfold Work.sendSlot
  simp

@[simp] theorem Work.sensed_book (r : Sensors) (w : Work) : (Work.sensed r w).book = w.book := by
  unfold Work.sensed
  simp

@[simp] theorem Work.setCap_book (d : Nat) (c : Option Nat) (w : Work) : (Work.setCap d c w).book = w.book := by rfl

@[simp] theorem Work.setTarget_book (d : Nat) (mhz : Nat) (w : Work) : (Work.setTarget d mhz w).book = w.book := by
  unfold Work.setTarget
  dsimp only
  (repeat' split) <;> simp [*]

@[simp] theorem Work.stamp_book (w : Work) : (Work.stamp w).2.book = w.book := by rfl

@[simp] theorem Work.stepOne_book (r : Sensors) (d : Nat) (w : Work) : (Work.stepOne r d w).book = w.book := by
  unfold Work.stepOne
  dsimp only
  (repeat' split) <;> simp [*]

@[simp] theorem Work.stepSync_book (w : Work) : (Work.stepSync w).book = w.book := by
  unfold Work.stepSync
  dsimp only
  (repeat' split) <;> simp [*]

@[simp] theorem Work.storeSave_book (n : Nat) (w : Work) : (Work.storeSave n w).book = w.book := by
  unfold Work.storeSave
  (repeat' split) <;> simp [*]

@[simp] theorem Work.streamDone_book (x : Nat) (s : Nat) (d : Nat) (k : Nat) (t : Stream) (w : Work) : (Work.streamDone x s d k t w).book =
    w.book := by
  unfold Work.streamDone
  dsimp only
  (repeat' split) <;> simp [*]

@[simp] theorem Work.switchClock_book (c : ClkChange) (w : Work) : (Work.switchClock c w).book = w.book := by
  unfold Work.switchClock
  dsimp only
  split <;> simp

@[simp] theorem Work.tapBypass_book (w : Work) : (Work.tapBypass w).book = w.book := by rfl

@[simp] theorem Work.tap_book (code : Nat) (test : Bool) (act : Work → Work) (w : Work) (h0 : ∀ y0, (act y0).book = y0.book) : (Work.tap
    code test act w).book = w.book := by
  unfold Work.tap
  dsimp only
  (repeat' split) <;> simp [*]

@[simp] theorem Work.tick_book (w : Work) : (Work.tick w).book = w.book := by rfl

@[simp] theorem Work.wideEntry_book (t : Tile) (e : List Nat) (w : Work) : (Work.wideEntry t e w).book = w.book := by
  unfold Work.wideEntry
  dsimp only
  (repeat' split) <;> simp [*]

@[simp] theorem Work.tileComplete_book (s : OutStore) (w : Work) : (Work.tileComplete s w).book = w.book := by
  unfold Work.tileComplete
  dsimp only
  (repeat' split) <;> simp [*]

@[simp] theorem Work.timeSample_book (i : Nat) (w : Work) : (Work.timeSample i w).book = w.book := by rfl

@[simp] theorem Work.trainRates_book (w : Work) : (Work.trainRates w).book = w.book := by rfl

@[simp] theorem Work.trainDone_book (h : Nat) (slow : List Nat) (dead : List Nat) (lanes : List (Nat × Nat × Nat)) (w : Work) : (Work.trainDone h
    slow dead lanes w).book = w.book := by
  unfold Work.trainDone
  simp [*]

@[simp] theorem Work.tripLast_book (cause : Nat) (die : Nat) (w : Work) : (Work.tripLast cause die w).book = w.book := by
  unfold Work.tripLast
  simp

@[simp] theorem Work.unresolved_book (x : Nat) (step : Nat) (k : Nat) (cores : List Nat) (w : Work) : (Work.unresolved x step k cores w).book =
    w.book := by
  unfold Work.unresolved
  simp

@[simp] theorem Work.updateRow_book (c : Cmd) (j : PicotJob) (r : PRow) (w : Work) : (Work.updateRow c j r w).book = w.book := by
  unfold Work.updateRow
  dsimp only
  (repeat' split) <;> simp [*]

@[simp] theorem Work.verifyBoot_book (bad : List Nat) (w : Work) : (Work.verifyBoot bad w).2.book = w.book := by
  unfold Work.verifyBoot
  dsimp only
  (repeat' split) <;> simp [*]

@[simp] theorem Work.wakeStreams_book (x : Nat) (w : Work) : (w.wakeStreams x).book = w.book := by
  unfold Work.wakeStreams
  refine forUpto_book _ (fun s w => ?_) _ _
  (repeat' split) <;> simp

@[simp] theorem Work.winStart_book (fn : Fin 16) (object : Nat) (off : Nat) (len : Nat) (active : Bool) (put : List Byte) (act : Work → (Nat ×
    Option (List Nat)) × Work) (w : Work) (h0 : ∀ y0, (act y0).2.book = y0.book) : (Work.winStart fn object off len active put act w).book
    = w.book := by
  unfold Work.winStart
  dsimp only
  (repeat' split) <;> simp [*]

@[simp] theorem Work.yieldSlice_book (x : Nat) (w : Work) : (Work.yieldSlice x w).book = w.book := by
  unfold Work.yieldSlice
  dsimp only
  (repeat' split) <;> simp [*]

@[simp] theorem opAdmitPauseTick_book (x : Fin 16) (q : Fin 5) (w : Work) : (opAdmitPauseTick x q w).book = w.book := by
  unfold opAdmitPauseTick
  (repeat' split) <;> simp [*]

@[simp] theorem opAllGather_book (id : Nat) (w : Work) : (opAllGather id w).book = w.book := by
  unfold opAllGather
  simp

@[simp] theorem opAllReduce_book (id : Nat) (w : Work) : (opAllReduce id w).book = w.book := by
  unfold opAllReduce
  simp

@[simp] theorem opAllReduceC4_book (id : Nat) (w : Work) : (opAllReduceC4 id w).book = w.book := by
  unfold opAllReduceC4
  simp

@[simp] theorem opAttestDone_book (x : Fin 16) (w : Work) : (opAttestDone x w).book = w.book := by
  unfold opAttestDone
  (repeat' split) <;> simp [*]

@[simp] theorem opBindCommitApply_book (x : Fin 16) (w : Work) : (opBindCommitApply x w).book = w.book := by
  unfold opBindCommitApply
  dsimp only
  split <;> simp

@[simp] theorem opBobbinSectorLand_book (id : Nat) (i : Nat) (k : Nat) (res : ReadRes) (w : Work) : (opBobbinSectorLand id i k res w).book =
    w.book := by
  unfold opBobbinSectorLand
  dsimp only
  (repeat' split) <;> simp [*]

@[simp] theorem opBypass_book (code : Fin 256) (w : Work) : (opBypass code w).book = w.book := by
  unfold opBypass
  split <;> simp

@[simp] theorem opCancel_book (id : Nat) (w : Work) : (opCancel id w).book = w.book := by
  unfold opCancel
  (repeat' split) <;> simp [*]

@[simp] theorem opClamp_book (w : Work) : (opClamp w).book = w.book := by
  unfold opClamp
  simp

@[simp] theorem opColdResetRelease_book (testMode : Bool) (entropyOk : Bool) (fusesOk : Bool) (w : Work) : (opColdResetRelease testMode
    entropyOk fusesOk w).book = w.book := by
  unfold opColdResetRelease
  dsimp only
  (repeat' split) <;> simp [*]

@[simp] theorem opCopy_book (id : Nat) (w : Work) : (opCopy id w).book = w.book := by
  unfold opCopy
  dsimp only
  (repeat' split) <;> simp [*]

@[simp] theorem opCouchDrainTimeout_book (ctl : Fin 22) (parts : List Nat) (w : Work) : (opCouchDrainTimeout ctl parts w).book = w.book := by
  unfold opCouchDrainTimeout
  dsimp only
  (repeat' split) <;> simp [*]

@[simp] theorem opCouchRetire_book (ctl : Fin 22) (line : Nat) (bad : List Nat) (reset : Bool) (w : Work) : (opCouchRetire ctl line bad
    reset w).book = w.book := by
  unfold opCouchRetire
  dsimp only
  (repeat' split) <;> simp [*]

@[simp] theorem opCouchWrite_book (x : Fin 16) (a : Nat) (d : List Byte) (w : Work) : (opCouchWrite x a d w).book = w.book := by
  unfold opCouchWrite
  simp

@[simp] theorem opCtxDisableDone_book (x : Fin 16) (w : Work) : (opCtxDisableDone x w).book = w.book := by
  unfold opCtxDisableDone
  dsimp only
  split <;> simp

@[simp] theorem opDiePowerDone_book (rate : Fin 7) (width : Fin 17) (w : Work) : (opDiePowerDone rate width w).book = w.book := by
  unfold opDiePowerDone
  split <;> simp

@[simp] theorem opDoorbellCqHead_book (fn : Fin 16) (x : Fin 16) (q : Fin 5) (width : Nat) (v : Nat) (w : Work) : (opDoorbellCqHead fn x q
    width v w).book = w.book := by
  unfold opDoorbellCqHead
  dsimp only
  simp [apply_ite]

@[simp] theorem opDoorbellSqTail_book (fn : Fin 16) (x : Fin 16) (q : Fin 5) (width : Nat) (v : Nat) (w : Work) : (opDoorbellSqTail fn x q
    width v w).book = w.book := by
  unfold opDoorbellSqTail
  dsimp only
  simp [apply_ite]

@[simp] theorem opDramTempPoll_book (stackC : List Int) (pkgs : List Int) (w : Work) : (opDramTempPoll stackC pkgs w).book = w.book := by
  unfold opDramTempPoll
  simp

@[simp] theorem opDvfsDecision_book (auto0 auto1 : Nat) (w : Work) : (opDvfsDecision auto0 auto1 w).book = w.book := by
  unfold opDvfsDecision
  split
  · rfl
  refine (Work.floorCheck_book _).trans ((Work.stepSync_book _).trans ((forUpto_book _ (fun d w => ?_) _ _).trans ?_))
  · extract_lets base w1 t cur floor
    have capped : w1.book = w.book := by
      unfold w1
      (repeat' split) <;> simp
    split <;> simp [capped]
  · split <;> simp

@[simp] theorem opEntropyFailed_book (w : Work) : (opEntropyFailed w).book = w.book := by
  unfold opEntropyFailed
  dsimp only
  split <;> simp

@[simp] theorem opEntropyRetest_book (pass : Bool) (w : Work) : (opEntropyRetest pass w).book = w.book := by
  unfold opEntropyRetest
  dsimp only
  (repeat' split) <;> simp [*]

@[simp] theorem opEthFrameBad_book (p : Fin 8) (why : BadFrame) (w : Work) : (opEthFrameBad p why w).book = w.book := by
  unfold opEthFrameBad
  (repeat' split) <;> simp [*]

@[simp] theorem opEvtHost_book (fn : Fin 16) (x : Fin 16) (width : Nat) (v : Nat) (w : Work) : (opEvtHost fn x width v w).book = w.book := by
  unfold opEvtHost
  dsimp only
  simp [apply_ite]

@[simp] theorem opEvtSignal_book (id : Nat) (w : Work) : (opEvtSignal id w).book = w.book := by
  unfold opEvtSignal
  (repeat' split) <;> simp [*]

@[simp] theorem opEvtWait_book (id : Nat) (w : Work) : (opEvtWait id w).book = w.book := by
  unfold opEvtWait
  (repeat' split) <;> simp [*]

@[simp] theorem opExbAckDelayExpire_book (n : Nat) (w : Work) : (opExbAckDelayExpire n w).book = w.book := by
  unfold opExbAckDelayExpire
  (repeat' split) <;> simp [*]

@[simp] theorem opExbAckRx_book (f : Rx) (w : Work) : (opExbAckRx f w).book = w.book := by
  unfold opExbAckRx
  simp

@[simp] theorem opExbCloseRx_book (f : Rx) (w : Work) : (opExbCloseRx f w).book = w.book := by
  unfold opExbCloseRx
  simp

@[simp] theorem opExbDataTx_book (n : Nat) (bad : TxFault) (w : Work) : (opExbDataTx n bad w).book = w.book := by
  unfold opExbDataTx
  dsimp only
  (repeat' split) <;> simp [*]

@[simp] theorem opExbLossTimeout_book (n : Nat) (w : Work) : (opExbLossTimeout n w).book = w.book := by
  unfold opExbLossTimeout
  (repeat' split) <;> simp [*]

@[simp] theorem opExbOpenAckRx_book (f : Rx) (w : Work) : (opExbOpenAckRx f w).book = w.book := by
  unfold opExbOpenAckRx
  simp

@[simp] theorem opExbOpenResend_book (n : Nat) (w : Work) : (opExbOpenResend n w).book = w.book := by
  unfold opExbOpenResend
  dsimp only
  (repeat' split) <;> simp [*]

@[simp] theorem opExbOpenRx_book (f : Rx) (w : Work) : (opExbOpenRx f w).book = w.book := by
  unfold opExbOpenRx
  simp

@[simp] theorem opExbProbeIdleExpire_book (n : Nat) (w : Work) : (opExbProbeIdleExpire n w).book = w.book := by
  unfold opExbProbeIdleExpire
  (repeat' split) <;> simp [*]

@[simp] theorem opExbProbeReplyRx_book (f : Rx) (w : Work) : (opExbProbeReplyRx f w).book = w.book := by
  unfold opExbProbeReplyRx
  simp

@[simp] theorem opExbProbeRx_book (f : Rx) (w : Work) : (opExbProbeRx f w).book = w.book := by
  unfold opExbProbeRx
  refine Work.rxPath_book _ _ _ _ (fun n y => ?_)
  split <;> simp

@[simp] theorem opExbRateIncrease_book (n : Nat) (w : Work) : (opExbRateIncrease n w).book = w.book := by
  unfold opExbRateIncrease
  dsimp only
  (repeat' split) <;> simp [*]

@[simp] theorem opExbRejectRetry_book (n : Nat) (w : Work) : (opExbRejectRetry n w).book = w.book := by
  unfold opExbRejectRetry
  dsimp only
  (repeat' split) <;> simp [*]

@[simp] theorem opExbRejectRx_book (f : Rx) (w : Work) : (opExbRejectRx f w).book = w.book := by
  unfold opExbRejectRx
  simp

@[simp] theorem opExbRnrExpire_book (n : Nat) (msg : Nat) (w : Work) : (opExbRnrExpire n msg w).book = w.book := by
  unfold opExbRnrExpire
  (repeat' split) <;> simp [*]

@[simp] theorem opExbRtoExpire_book (n : Nat) (psn : Nat) (w : Work) : (opExbRtoExpire n psn w).book = w.book := by
  unfold opExbRtoExpire
  (repeat' split) <;> simp [*]

@[simp] theorem opExbStaleRx_book (f : Rx) (w : Work) : (opExbStaleRx f w).book = w.book := by
  unfold opExbStaleRx
  simp

@[simp] theorem opExbStaleSessionRx_book (f : Rx) (w : Work) : (opExbStaleSessionRx f w).book = w.book := by
  unfold opExbStaleSessionRx
  split <;> simp

@[simp] theorem opExtScrub_book (a : Nat) (flips : List (Nat × Nat)) (raced : Bool) (w : Work) : (opExtScrub a flips raced w).book = w.book := by
  unfold opExtScrub
  dsimp only
  (repeat' split) <;> simp [*]

@[simp] theorem opExtest_book (pins : Nat) (load : Nat) (w : Work) : (opExtest pins load w).book = w.book := by
  unfold opExtest
  simp

@[simp] theorem opExtestPulse_book (pins : Nat) (load : Nat) (w : Work) : (opExtestPulse pins load w).book = w.book := by
  unfold opExtestPulse
  simp

@[simp] theorem opExtestTrain_book (pins : Nat) (load : Nat) (w : Work) : (opExtestTrain pins load w).book = w.book := by
  unfold opExtestTrain
  simp

@[simp] theorem opFastThrottle_book (core : Bool) (current : Bool) (w : Work) : (opFastThrottle core current w).book = w.book := by
  unfold opFastThrottle
  (repeat' split) <;> simp [*]

@[simp] theorem opFastThrottleRelease_book (w : Work) : (opFastThrottleRelease w).book = w.book := by
  unfold opFastThrottleRelease
  split <;> simp

@[simp] theorem opFence_book (id : Nat) (w : Work) : (opFence id w).book = w.book := by
  unfold opFence
  (repeat' split) <;> simp [*]

@[simp] theorem opFwDecision_book (num : Nat) (seen : Nat) (breaks : Bool) (w : Work) : (opFwDecision num seen breaks w).book = w.book := by
  unfold opFwDecision
  split <;> simp

@[simp] theorem opFwStage_book (wr : Writer) (off : Nat) (data : List Byte) (w : Work) : (opFwStage wr off data w).book = w.book := by
  unfold opFwStage
  simp

@[simp] theorem opGroupCommitApply_book (w : Work) : (opGroupCommitApply w).book = w.book := by
  unfold opGroupCommitApply
  simp [*]

@[simp] theorem opHealthReport_book (w : Work) : (opHealthReport w).book = w.book := by
  unfold opHealthReport
  simp

@[simp] theorem opHealthScoreTick_book (w : Work) : (opHealthScoreTick w).book = w.book := by
  unfold opHealthScoreTick
  dsimp only
  (repeat' split) <;> simp [*]

@[simp] theorem opHighz_book (w : Work) : (opHighz w).book = w.book := by
  unfold opHighz
  simp

@[simp] theorem opHokCloseRx_book (f : HokRx) (w : Work) : (opHokCloseRx f w).book = w.book := by
  unfold opHokCloseRx
  simp

@[simp] theorem opHokCommit_book (wr : Writer) (w : Work) : (opHokCommit wr w).book = w.book := by
  unfold opHokCommit
  simp

@[simp] theorem opHokHelloRx_book (f : HokRx) (w : Work) : (opHokHelloRx f w).book = w.book := by
  unfold opHokHelloRx
  refine Work.hokTake_book _ _ _ _ (fun y => ?_)
  (repeat' split) <;> simp

@[simp] theorem opHokIdleTimeout_book (s : Fin 4) (w : Work) : (opHokIdleTimeout s w).book = w.book := by
  unfold opHokIdleTimeout
  (repeat' split) <;> simp [*]

@[simp] theorem opHokNotifyAckRx_book (f : HokRx) (w : Work) : (opHokNotifyAckRx f w).book = w.book := by
  unfold opHokNotifyAckRx
  split <;> simp

@[simp] theorem opHostLinkChanged_book (rate : Fin 7) (width : Fin 17) (cfg : HostCfg) (w : Work) : (opHostLinkChanged rate width cfg
    w).book = w.book := by
  unfold opHostLinkChanged
  dsimp only
  (repeat' split) <;> simp [*]

@[simp] theorem opIdcode_book (w : Work) : (opIdcode w).book = w.book := by
  unfold opIdcode
  simp

@[simp] theorem opInputHigh_book (mv : Nat) (w : Work) : (opInputHigh mv w).book = w.book := by
  unfold opInputHigh
  split <;> simp

@[simp] theorem opInputLow_book (mv : Nat) (w : Work) : (opInputLow mv w).book = w.book := by
  unfold opInputLow
  split <;> simp

@[simp] theorem opLinkDegradeClear_book (p : Fin 8) (w : Work) : (opLinkDegradeClear p w).book = w.book := by
  unfold opLinkDegradeClear
  dsimp only
  (repeat' split) <;> simp [*]

@[simp] theorem opLinkDegraded_book (p : Fin 8) (uncorr : Nat) (corr : Nat) (total : Nat) (w : Work) : (opLinkDegraded p uncorr corr total
    w).book = w.book := by
  unfold opLinkDegraded
  dsimp only
  (repeat' split) <;> simp [*]

@[simp] theorem opLinkDown_book (p : Fin 8) (w : Work) : (opLinkDown p w).book = w.book := by
  unfold opLinkDown
  split <;> simp

@[simp] theorem opLinkSignalDetect_book (p : Fin 8) (w : Work) : (opLinkSignalDetect p w).book = w.book := by
  unfold opLinkSignalDetect
  split <;> simp

@[simp] theorem opLinkUp_book (p : Fin 8) (w : Work) : (opLinkUp p w).book = w.book := by
  unfold opLinkUp
  split <;> simp

@[simp] theorem opLoadStart_book (w : Work) : (opLoadStart w).book = w.book := by
  unfold opLoadStart
  simp

/-- A message taken from the inbox leaves the book. -/
@[simp] theorem Work.takeLoader_book {id kind : Nat} {w w' : Work} {m : InMsg} (e : w.takeLoader id kind = some (m, w')) :
    w'.book = w.book := by
  unfold Work.takeLoader at e
  split at e
  · split at e
    · cases e
      rfl
    · cases e
  · cases e

@[simp] theorem opLoaderRefetchRx_book (id : Nat) (w : Work) : (opLoaderRefetchRx id w).book = w.book := by
  unfold opLoaderRefetchRx
  split
  · rfl
  · next m w' e =>
    refine Eq.trans ?_ (Work.takeLoader_book e)
    dsimp only
    (repeat' split) <;> simp

@[simp] theorem opLoaderShardRx_book (id : Nat) (w : Work) : (opLoaderShardRx id w).book = w.book := by
  unfold opLoaderShardRx
  split
  · rfl
  · next m w' e =>
    refine Eq.trans ?_ (Work.takeLoader_book e)
    dsimp only
    (repeat' split) <;> simp

@[simp] theorem opLoaderUnavailRx_book (id : Nat) (w : Work) : (opLoaderUnavailRx id w).book = w.book := by
  unfold opLoaderUnavailRx
  split
  · rfl
  · next m w' e =>
    refine Eq.trans ?_ (Work.takeLoader_book e)
    dsimp only
    (repeat' split) <;> simp

@[simp] theorem opLogDropped_book (w : Work) : (opLogDropped w).book = w.book := by
  unfold opLogDropped
  simp [*]

@[simp] theorem opMemTrainDone_book (slow : List Nat) (dead : List Nat) (lanes : List (Nat × Nat × Nat)) (w : Work) : (opMemTrainDone slow dead
    lanes w).book = w.book := by
  unfold opMemTrainDone
  split <;> simp

@[simp] theorem opMemTrainingDone_book (h : Fin 4) (slow : List Nat) (dead : List Nat) (lanes : List (Nat × Nat × Nat)) (w : Work) :
    (opMemTrainingDone h slow dead lanes w).book = w.book := by
  unfold opMemTrainingDone
  dsimp only
  (repeat' split) <;> simp [*]

@[simp] theorem opMgmtCommit_book (wr : Writer) (w : Work) : (opMgmtCommit wr w).book = w.book := by
  unfold opMgmtCommit
  simp

@[simp] theorem opMgmtFrameRx_book (f : MgmtFrame) (w : Work) : (opMgmtFrameRx f w).book = w.book := by
  unfold opMgmtFrameRx
  dsimp only
  (repeat' split) <;> simp [*]

@[simp] theorem opMgmtLinkDown_book (w : Work) : (opMgmtLinkDown w).book = w.book := by rfl

@[simp] theorem opMgmtLinkUp_book (w : Work) : (opMgmtLinkUp w).book = w.book := by
  unfold opMgmtLinkUp
  split <;> simp

@[simp] theorem opMirDevCommitApply_book (w : Work) : (opMirDevCommitApply w).book = w.book := by
  unfold opMirDevCommitApply
  dsimp only
  (repeat' split) <;> simp [*]

@[simp] theorem opMirrorHashDone_book (x : Fin 16) (s : Fin 16) (w : Work) : (opMirrorHashDone x s w).book = w.book := by
  unfold opMirrorHashDone
  dsimp only
  (repeat' split) <;> simp [*]

@[simp] theorem opMirrorWaitExpire_book (x : Fin 16) (w : Work) : (opMirrorWaitExpire x w).book = w.book := by
  unfold opMirrorWaitExpire
  (repeat' split) <;> simp [*]

@[simp] theorem opNearScrub_book (a : Nat) (res : ReadRes) (w : Work) : (opNearScrub a res w).book = w.book := by
  unfold opNearScrub
  (repeat' split) <;> simp [*]

@[simp] theorem opNop_book (id : Nat) (w : Work) : (opNop id w).book = w.book := by
  unfold opNop
  split <;> simp

@[simp] theorem opNotifyResend_book (i : Fin 4) (seq : Nat) (w : Work) : (opNotifyResend i seq w).book = w.book := by
  unfold opNotifyResend
  (repeat' split) <;> simp [*]

@[simp] theorem opOvhWindow_book (w : Work) : (opOvhWindow w).book = w.book := by
  unfold opOvhWindow
  dsimp only
  (repeat' split) <;> simp [*]

@[simp] theorem opP48vInRange_book (w : Work) : (opP48vInRange w).book = w.book := by rfl

@[simp] theorem opPairingDataRx_book (id : Nat) (w : Work) : (opPairingDataRx id w).book = w.book := by
  unfold opPairingDataRx
  dsimp only
  (repeat' split) <;> simp [*]

@[simp] theorem opPairingHeaderRx_book (id : Nat) (w : Work) : (opPairingHeaderRx id w).book = w.book := by
  unfold opPairingHeaderRx
  dsimp only
  (repeat' split) <;> simp [*]

@[simp] theorem opPairingRestoreDataRx_book (id : Nat) (w : Work) : (opPairingRestoreDataRx id w).book = w.book := by
  unfold opPairingRestoreDataRx
  dsimp only
  (repeat' split) <;> simp [*]

@[simp] theorem opPairingRestoreHdrRx_book (id : Nat) (w : Work) : (opPairingRestoreHdrRx id w).book = w.book := by
  unfold opPairingRestoreHdrRx
  dsimp only
  (repeat' split) <;> simp [*]

@[simp] theorem opPairingRestoreNoneRx_book (id : Nat) (w : Work) : (opPairingRestoreNoneRx id w).book = w.book := by
  unfold opPairingRestoreNoneRx
  dsimp only
  (repeat' split) <;> simp [*]

@[simp] theorem opPairingRestoreReqRx_book (id : Nat) (w : Work) : (opPairingRestoreReqRx id w).book = w.book := by
  unfold opPairingRestoreReqRx
  dsimp only
  (repeat' split) <;> simp

@[simp] theorem opParamGather_book (id : Nat) (w : Work) : (opParamGather id w).book = w.book := by
  unfold opParamGather
  simp

@[simp] theorem opPbCommitApply_book (b : Fin 64) (w : Work) : (opPbCommitApply b w).book = w.book := by
  unfold opPbCommitApply
  simp [*]

@[simp] theorem opPicotLockGrant_book (id : Nat) (p : Nat) (w : Work) : (opPicotLockGrant id p w).book = w.book := by
  unfold opPicotLockGrant
  (repeat' split) <;> simp [*]

@[simp] theorem opPicotRowReturn_book (id : Nat) (p : Nat) (res : ReadRes) (w : Work) : (opPicotRowReturn id p res w).book = w.book := by
  unfold opPicotRowReturn
  (repeat' split) <;> simp

@[simp] theorem opPlaitAbortNoticeRx_book (id : Nat) (w : Work) : (opPlaitAbortNoticeRx id w).book = w.book := by
  unfold opPlaitAbortNoticeRx
  dsimp only
  (repeat' split) <;> simp [*]

@[simp] theorem opPlaitNoStartTimeout_book (id : Nat) (n : Nat) (w : Work) : (opPlaitNoStartTimeout id n w).book = w.book := by
  unfold opPlaitNoStartTimeout
  dsimp only
  (repeat' split) <;> simp [*]

@[simp] theorem opPlaitStallTimeout_book (id : Nat) (n : Nat) (w : Work) : (opPlaitStallTimeout id n w).book = w.book := by
  unfold opPlaitStallTimeout
  (repeat' split) <;> simp [*]

@[simp] theorem opPllLocked_book (d : Fin 2) (w : Work) : (opPllLocked d w).book = w.book := by
  unfold opPllLocked
  split <;> simp

@[simp] theorem opPortsCommitApply_book (d : Fin 2) (w : Work) : (opPortsCommitApply d w).book = w.book := by
  unfold opPortsCommitApply
  simp [*]

@[simp] theorem opPrefetchWaitTimeout_book (id : Nat) (w : Work) : (opPrefetchWaitTimeout id w).book = w.book := by
  unfold opPrefetchWaitTimeout
  (repeat' split) <;> simp [*]

@[simp] theorem opProbationEnd_book (w : Work) : (opProbationEnd w).book = w.book := by
  unfold opProbationEnd
  dsimp only
  (repeat' split) <;> simp [*]

@[simp] theorem opPtpAnnounceRx_book (p : Fin 8) (a : Announce) (w : Work) : (opPtpAnnounceRx p a w).book = w.book := by
  unfold opPtpAnnounceRx
  dsimp only
  (repeat' split) <;> simp

@[simp] theorem opPtpDelayReqTx_book (w : Work) : (opPtpDelayReqTx w).book = w.book := by
  unfold opPtpDelayReqTx
  dsimp only
  (repeat' split) <;> simp [*]

@[simp] theorem opPtpDelayRespRx_book (p : Fin 8) (domain : Nat) (gm : Nat) (seq : Nat) (t4 : Nat) (w : Work) : (opPtpDelayRespRx p domain gm
    seq t4 w).book = w.book := by
  unfold opPtpDelayRespRx
  dsimp only
  (repeat' split) <;> simp [*]

@[simp] theorem opPtpFollowUpRx_book (p : Fin 8) (domain : Nat) (gm : Nat) (seq : Nat) (t1 : Nat) (w : Work) : (opPtpFollowUpRx p domain gm seq
    t1 w).book = w.book := by
  unfold opPtpFollowUpRx
  dsimp only
  (repeat' split) <;> simp [*]

@[simp] theorem opPtpHoldover_book (w : Work) : (opPtpHoldover w).book = w.book := by
  unfold opPtpHoldover
  simp

@[simp] theorem opPtpSyncRx_book (p : Fin 8) (domain : Nat) (gm : Nat) (seq : Nat) (twoStep : Bool) (t1 : Nat) (w : Work) : (opPtpSyncRx p
    domain gm seq twoStep t1 w).book = w.book := by
  unfold opPtpSyncRx
  (repeat' split) <;> simp [*]

@[simp] theorem opQCommitApply_book (x : Fin 16) (q : Fin 5) (w : Work) : (opQCommitApply x q w).book = w.book := by
  unfold opQCommitApply
  dsimp only
  split
  · simp only [Dev.book_mk]
    refine Eq.trans (Work.setCmds_map_book _ _ (fun c => ?_)) ?_
    · split <;> rfl
    · simp
  · rfl

@[simp] theorem opRecv_book (id : Nat) (w : Work) : (opRecv id w).book = w.book := by
  unfold opRecv
  simp

@[simp] theorem opReduceScatter_book (id : Nat) (w : Work) : (opReduceScatter id w).book = w.book := by
  unfold opReduceScatter
  simp

@[simp] theorem opRegulatorRequest_book (x : Fin 16) (t : Fin 3) (h : Fin 2) (n : Nat) (tileBound : Bool) (w : Work) : (opRegulatorRequest
    x t h n tileBound w).book = w.book := by
  unfold opRegulatorRequest
  dsimp only
  split <;> simp

@[simp] theorem opRegulatorRetry_book (x : Fin 16) (t : Fin 3) (h : Fin 2) (w : Work) : (opRegulatorRetry x t h w).book = w.book := by
  unfold opRegulatorRetry
  dsimp only
  (repeat' split) <;> simp [*]

@[simp] theorem opRegulatorShareUpdate_book (w : Work) : (opRegulatorShareUpdate w).book = w.book := by
  unfold opRegulatorShareUpdate
  simp [*]

@[simp] theorem opRestoreDone_book (x : Fin 16) (w : Work) : (opRestoreDone x w).book = w.book := by
  unfold opRestoreDone
  dsimp only
  (repeat' split) <;> simp

@[simp] theorem opSamplePreload_book (pins : Nat) (load : Nat) (w : Work) : (opSamplePreload pins load w).book = w.book := by
  unfold opSamplePreload
  simp

@[simp] theorem opSamplerLagDrop_book (id : Nat) (w : Work) : (opSamplerLagDrop id w).book = w.book := by
  unfold opSamplerLagDrop
  (repeat' split) <;> simp [*]

@[simp] theorem opSegCommitApplied_book (x : Fin 16) (w : Work) : (opSegCommitApplied x w).book = w.book := by
  unfold opSegCommitApplied
  simp [*]

@[simp] theorem opSegTableWrite_book (wr : Writer) (x : Fin 16) (off : Nat) (data : List Byte) (w : Work) : (opSegTableWrite wr x off data
    w).book = w.book := by
  unfold opSegTableWrite
  simp

@[simp] theorem opSend_book (id : Nat) (w : Work) : (opSend id w).book = w.book := by
  unfold opSend
  simp

@[simp] theorem opSetpointReached_book (d : Fin 2) (w : Work) : (opSetpointReached d w).book = w.book := by
  unfold opSetpointReached
  dsimp only
  (repeat' split) <;> simp [*]

@[simp] theorem opShardAttemptTimeout_book (i : Nat) (w : Work) : (opShardAttemptTimeout i w).book = w.book := by
  unfold opShardAttemptTimeout
  dsimp only
  (repeat' split) <;> simp [*]

@[simp] theorem opShardHashDone_book (i : Nat) (w : Work) : (opShardHashDone i w).book = w.book := by
  unfold opShardHashDone
  dsimp only
  (repeat' split) <;> simp

@[simp] theorem opShardLanded_book (i : Nat) (w : Work) : (opShardLanded i w).book = w.book := by
  unfold opShardLanded
  (repeat' split) <;> simp [*]

@[simp] theorem opSliceExpire_book (be : Bool) (w : Work) : (opSliceExpire be w).book = w.book := by
  unfold opSliceExpire
  dsimp only
  (repeat' split) <;> simp [*]

@[simp] theorem opSpillCopyDone_book (x : Fin 16) (w : Work) : (opSpillCopyDone x w).book = w.book := by
  unfold opSpillCopyDone
  dsimp only
  (repeat' split) <;> simp [*]

@[simp] theorem opSpillHoldTimeout_book (x : Fin 16) (w : Work) : (opSpillHoldTimeout x w).book = w.book := by
  unfold opSpillHoldTimeout
  split <;> simp

@[simp] theorem opStepMarkTimeout_book (x : Fin 16) (w : Work) : (opStepMarkTimeout x w).book = w.book := by
  unfold opStepMarkTimeout
  (repeat' split) <;> simp [*]

@[simp] theorem opStoreWrite_book (num : Nat) (res : Fin 3) (w : Work) : (opStoreWrite num res w).book = w.book := by
  unfold opStoreWrite
  dsimp only
  (repeat' split) <;> simp [*]

@[simp] theorem opStreamDeadlineMiss_book (x : Fin 16) (s : Fin 8) (w : Work) : (opStreamDeadlineMiss x s w).book = w.book := by
  unfold opStreamDeadlineMiss
  dsimp only
  (repeat' split) <;> simp [*]

@[simp] theorem opStreamXferDone_book (x : Fin 16) (s : Fin 8) (w : Work) : (opStreamXferDone x s w).book = w.book := by
  unfold opStreamXferDone
  dsimp only
  (repeat' split) <;> simp

@[simp] theorem opSwapExchangeDone_book (bad : List Nat) (w : Work) : (opSwapExchangeDone bad w).book = w.book := by
  unfold opSwapExchangeDone
  dsimp only
  (repeat' split) <;> simp [*]

@[simp] theorem opTapReset_book (power : Bool) (w : Work) : (opTapReset power w).book = w.book := by
  unfold opTapReset
  dsimp only
  (repeat' split) <;> simp [*]

@[simp] theorem opThrottleDecision_book (r : Sensors) (w : Work) : (opThrottleDecision r w).book = w.book := by
  unfold opThrottleDecision
  split <;> simp

@[simp] theorem opTileLaunch_book (id : Nat) (w : Work) : (opTileLaunch id w).book = w.book := by
  unfold opTileLaunch
  split <;> simp

@[simp] theorem opTileStoreDone_book (id : Nat) (w : Work) : (opTileStoreDone id w).book = w.book := by
  unfold opTileStoreDone
  split <;> simp

@[simp] theorem opTimeSample_book (bad : List Nat) (w : Work) : (opTimeSample bad w).book = w.book := by
  unfold opTimeSample
  simp [*]

@[simp] theorem opTimerArm_book (id : Nat) (w : Work) : (opTimerArm id w).book = w.book := by
  unfold opTimerArm
  dsimp only
  (repeat' split) <;> simp [*]

@[simp] theorem opTimerFire_book (x : Fin 16) (i : Fin 8) (w : Work) : (opTimerFire x i w).book = w.book := by
  unfold opTimerFire
  split <;> simp

@[simp] theorem opUsercode_book (w : Work) : (opUsercode w).book = w.book := by
  unfold opUsercode
  simp

@[simp] theorem opWinOpDone_book (fn : Fin 16) (w : Work) : (opWinOpDone fn w).book = w.book := by
  unfold opWinOpDone
  dsimp only
  split <;> simp

@[simp] theorem opWinRead_book (fn : Fin 16) (object : Nat) (off : Nat) (len : Nat) (active : Bool) (w : Work) : (opWinRead fn object off len
    active w).book = w.book := by
  unfold opWinRead
  simp

@[simp] theorem opWriteImm_book (id : Nat) (w : Work) : (opWriteImm id w).book = w.book := by
  unfold opWriteImm
  (repeat' split) <;> simp

@[simp] theorem opXqRetryResend_book (inst : Nat) (w : Work) : (opXqRetryResend inst w).book = w.book := by
  unfold opXqRetryResend
  dsimp only
  split <;> simp

@[simp] theorem opYield_book (id : Nat) (w : Work) : (opYield id w).book = w.book := by
  unfold opYield
  split <;> simp

end Sys2Proof.Machine

namespace Sys2Proof.Machine

/-! ### Commands that put cores, or take commands or identities -/

/-- The book-keeping that State.Sound asks of a state, of a book. -/
def BookSound (b : List Nat × List Nat × Nat) : Prop :=
  b.1 = List.range 32 ∧ b.2.1.Nodup ∧ ∀ i ∈ b.2.1, i < b.2.2

/-- The same book is as sound. -/
theorem BookSound.of_eq {b b' : List Nat × List Nat × Nat} (sound : BookSound b) (same : b' = b) : BookSound b' := same ▸ sound

@[simp] theorem foldl_keeps {α : Type} {f : Work → α → Work} (h : ∀ w a, BookSound w.book → BookSound (f w a).book) (l : List α) {w : Work}
    (hw : BookSound w.book) : BookSound (l.foldl f w).book :=
  List.foldlRecOn l f (motive := fun w => BookSound w.book) hw (fun w kept a _ => h w a kept)

@[simp] theorem foldl_snd_keeps {α β : Type} {f : β × Work → α → β × Work} (h : ∀ p a, BookSound p.2.book → BookSound (f p a).2.book)
    (l : List α) {p : β × Work} (hp : BookSound p.2.book) : BookSound (l.foldl f p).2.book :=
  List.foldlRecOn l f (motive := fun p => BookSound p.2.book) hp (fun p kept a _ => h p a kept)

@[simp] theorem forUpto_keeps {f : Nat → Work → Work} (h : ∀ i w, BookSound w.book → BookSound (f i w).book) (n : Nat) {w : Work}
    (hw : BookSound w.book) : BookSound (forUpto f n w).book := by
  induction n with
  | zero => exact hw
  | succ n ih => exact h n _ ih

/-- An identity drawn is given out. -/
@[simp] theorem Work.newId_keeps {w : Work} (h : BookSound w.book) : BookSound w.newId.2.book := by
  obtain ⟨cores, ids, below⟩ := h
  exact ⟨cores, ids, fun i hi => Nat.lt_succ_of_lt (below i hi)⟩

theorem range_set_self (n k : Nat) : (List.range n).set k k = List.range n := by
  refine List.ext_getElem (by simp) (fun i h1 h2 => ?_)
  rw [List.getElem_set]
  split
  · next e => simp [← e]
  · rfl

/-- A core is put under its own number, wherever it came from. -/
@[simp] theorem Work.putCore_keeps (c : Core) {w : Work} (h : BookSound w.book) : BookSound (w.putCore c).book := by
  obtain ⟨cores, ids⟩ := h
  have cores : w.sched.cores.map (fun c => c.k) = List.range 32 := cores
  refine ⟨?_, ids⟩
  show (w.sched.cores.set c.k c).map (fun c => c.k) = List.range 32
  rw [List.map_set, cores, range_set_self]

/-- Commands that leave leave the book sound. -/
@[simp] theorem Work.setCmds_filter_keeps (p : Cmd → Bool) {w : Work} (h : BookSound w.book) :
    BookSound (w.setCmds (w.q.cmds.filter p)).book := by
  obtain ⟨cores, ids, below⟩ := h
  have sub : ((w.q.cmds.filter p).map (fun c => c.id)).Sublist (w.q.cmds.map (fun c => c.id)) :=
    List.Sublist.map _ List.filter_sublist
  exact ⟨cores, ids.sublist sub, fun i hi => below i (sub.subset hi)⟩

/-- A device at cold reset holds no command, and its cores at rest. -/
@[simp] theorem Work.coldState_keeps (w : Work) : BookSound w.coldState.book := by
  refine ⟨?_, List.nodup_nil, fun i hi => by cases hi⟩
  show (List.range 32 |>.map Core.reset).map (fun c => c.k) = List.range 32
  rw [List.map_map]
  exact List.map_id _

@[simp] theorem Work.spillMove_keeps (k : Nat) (w : Work) (sound : BookSound w.book) : BookSound (Work.spillMove k w).book := by
  unfold Work.spillMove
  dsimp only
  (repeat' split) <;> simp [sound]

@[simp] theorem Work.chainSave_keeps (k : Nat) (w : Work) (sound : BookSound w.book) : BookSound (Work.chainSave k w).book := by
  unfold Work.chainSave
  dsimp only
  (repeat' split) <;> simp [sound]

@[simp] theorem Work.fenceCore_keeps (k : Nat) (w : Work) (sound : BookSound w.book) : BookSound (Work.fenceCore k w).book := by
  unfold Work.fenceCore
  have moved := Work.spillMove_keeps k w sound
  simp only [Work.event_book, Work.coreNow_book]
  refine Work.putCore_keeps _ ?_
  split
  · exact Work.spillMove_keeps k _ (Work.chainSave_keeps k _ moved)
  · exact moved

@[simp] theorem Work.endSection_keeps (id : Nat) (w : Work) (sound : BookSound w.book) : BookSound (Work.endSection id w).book := by
  unfold Work.endSection
  dsimp only
  (repeat' split) <;> simp [sound]

@[simp] theorem Work.sectionCut_keeps (s : Section) (w : Work) (sound : BookSound w.book) : BookSound (Work.sectionCut s w).book := by
  unfold Work.sectionCut
  split <;> simp [sound]

@[simp] theorem Work.engineFinish_keeps (e : Nat) (w : Work) (sound : BookSound w.book) : BookSound (Work.engineFinish e w).book := by
  unfold Work.engineFinish
  exact foldl_keeps (fun w s hw => Work.sectionCut_keeps s w hw) _ sound

@[simp] theorem Work.pruneSamples_keeps (w : Work) (sound : BookSound w.book) : BookSound (Work.pruneSamples w).book := by
  unfold Work.pruneSamples
  exact foldl_keeps (fun w s hw => Work.endSection_keeps _ w hw) _ sound

@[simp] theorem Work.coreFinish_keeps (k : Nat) (ends : List (Nat × Nat × Nat)) (w : Work) (sound : BookSound w.book) :
    BookSound (Work.coreFinish k ends w).book := by
  unfold Work.coreFinish
  refine foldl_keeps (fun w p hw => hw.of_eq ?_) _ ?_
  · dsimp only
    split
    · split
      · rfl
      · simp only [Work.batchRelease_book, Work.collEnd_book, Work.mapColl_book]
        (repeat' split) <;> simp
    · simp
    · simp
  · dsimp only
    have cleared := sound.of_eq (Work.clearTags_book (fun b _ => b / 65536 == k) w)
    split
    · simp only [Work.chainLost_book, Work.put_book]
      exact Work.putCore_keeps _ cleared
    · exact cleared

@[simp] theorem Work.absorb_keeps (big : Nat) (r : Reset) (w : Work) (sound : BookSound w.book) : BookSound (Work.absorb big r w).book := by
  unfold Work.absorb
  (repeat' split) <;> simp [sound]

@[simp] theorem Work.placeData_keeps (n : Nat) (m : RxMsg) (off : Nat) (d : List Byte) (w : Work) (sound : BookSound w.book) : BookSound
    (Work.placeData n m off d w).book := by
  unfold Work.placeData
  dsimp only
  (repeat' split) <;> simp [sound]

@[simp] theorem Work.acceptData_keeps (n : Nat) (a : Nat) (m : RxMsg) (off : Nat) (d : List Byte) (bad : TxFault) (w : Work) (sound :
    BookSound w.book) : BookSound (Work.acceptData n a m off d bad w).book := by
  unfold Work.acceptData
  split <;> simp [sound]

@[simp] theorem Work.admitPattern_keeps (x : Nat) (q : Nat) (i : Nat) (d : Nat) (w : Work) (sound : BookSound w.book) : BookSound
    (Work.admitPattern x q i d w).book := by
  unfold Work.admitPattern
  (repeat' split) <;> simp [sound]

@[simp] theorem Work.gated_keeps (wr : Writer) (r : Reach) (num : Nat) (act : Work → Work) (w : Work) (h0 : ∀ y0, BookSound y0.book →
    BookSound (act y0).book) (sound : BookSound w.book) : BookSound (Work.gated wr r num act w).book := by
  unfold Work.gated
  (repeat' split) <;> simp [sound, h0]

@[simp] theorem Work.fencesNow_keeps (w : Work) (sound : BookSound w.book) : BookSound (Work.fencesNow w).book := by
  unfold Work.fencesNow
  refine forUpto_keeps (fun k w hw => ?_) _ sound
  dsimp only
  split
  · exact Work.fenceCore_keeps k _ (hw.of_eq (Work.unfenceCore_book k w))
  · exact hw.of_eq (Work.unfenceCore_book k w)

@[simp] theorem opFenceSw_keeps (wr : Writer) (v : Nat) (w : Work) (sound : BookSound w.book) : BookSound (opFenceSw wr v w).book := by
  unfold opFenceSw
  dsimp only
  (repeat' split) <;> simp_all

@[simp] theorem Work.sampleLost_keeps (k : Nat) (w : Work) (sound : BookSound w.book) : BookSound (Work.sampleLost k w).book := by
  unfold Work.sampleLost
  dsimp only
  (repeat' split) <;> simp_all

@[simp] theorem Work.coreDetach_keeps (k : Nat) (w : Work) (sound : BookSound w.book) : BookSound (Work.coreDetach k w).2.book := by
  unfold Work.coreDetach
  dsimp only
  (repeat' split) <;> simp [sound]

@[simp] theorem Work.confirm_keeps (k : Nat) (bin : Nat) (w : Work) (sound : BookSound w.book) : BookSound (Work.confirm k bin w).book := by
  unfold Work.confirm
  simp [sound]

@[simp] theorem Work.unreproducedIn_keeps (k : Nat) (bin : Nat) (cores : List Nat) (w : Work) (sound : BookSound w.book) : BookSound
    (Work.unreproducedIn k bin cores w).book := by
  unfold Work.unreproducedIn
  dsimp only
  (repeat' split) <;> simp [sound]

@[simp] theorem Work.warmQueues_keeps (w : Work) (sound : BookSound w.book) : BookSound (Work.warmQueues w).book := by
  unfold Work.warmQueues
  dsimp only
  rw [forUpto_book _ (fun x w => ?_)]
  · exact ⟨sound.1, List.nodup_nil, fun i hi => by cases hi⟩
  · simp only [Work.attestDrop_book, Work.put_book, Work.ite_book, ite_self]
    exact forUpto_book _ (fun q w => by simp) _ _

@[simp] theorem Work.coresStop_keeps (cores : List Nat) (w : Work) (sound : BookSound w.book) :
    BookSound (Work.coresStop cores w).book := by
  unfold Work.coresStop
  refine foldl_keeps (fun w k hw => ?_) _ ?_
  · simp only [Work.put_book, Work.coreNow_book]
    exact Work.putCore_keeps _ hw
  · simp only [Work.setRuns_book]
    refine foldl_keeps (fun w s hw => Work.endSection_keeps _ w hw) _ ?_
    exact foldl_keeps (fun w s hw => Work.sampleLost_keeps _ w hw) _ sound

@[simp] theorem Work.warmUnits_keeps (w : Work) (sound : BookSound w.book) : BookSound (Work.warmUnits w).book := by
  have idle : ∀ x (w : Work), (((w.idleStreams x).restoreAbort x).spillAbort x).book = w.book := fun x w =>
    (Work.spillAbort_book _ _).trans ((Work.restoreAbort_book _ _).trans (Work.idleStreams_book _ _))
  have stored : ∀ (s : OutStore) (w : Work),
      (s.writes.foldl (fun (w : Work) (p : Nat × List Nat) => w.engWrite s.tile.ctx p.1 (p.2.map (BitVec.ofNat 8))) w).book = w.book :=
    fun s w => foldl_book _ (fun w p => Work.engWrite_book _ _ _ w) _ w
  unfold Work.warmUnits
  simp only [Work.lifeReset_book, Work.put_book]
  refine (Work.coresStop_keeps _ _ (BookSound.of_eq ?_ (forUpto_book _ (fun x w => idle x w) _ _))).of_eq
    (Work.setSched_book _ _ (by dsimp only))
  simp only [Work.setColls_book, Work.setLocks_book, Work.setJobs_book]
  refine BookSound.of_eq ?_ (foldl_book _ (fun w j => Work.tornCheck_book j w) _ _)
  exact sound.of_eq (foldl_book _ (fun w s => stored s w) _ w)

@[simp] theorem Work.warmStop_keeps (w : Work) (sound : BookSound w.book) : BookSound (Work.warmStop w).book := by
  unfold Work.warmStop
  simp [sound]

@[simp] theorem Work.claimSection_keeps (kind : Nat) (ref : Nat) (ctx : Nat) (die : Nat) (cls : Nat) (bound : Nat) (w : Work) (sound : BookSound
    w.book) : BookSound (Work.claimSection kind ref ctx die cls bound w).2.book := by
  unfold Work.claimSection
  simp [sound]

@[simp] theorem Work.claimSamples_keeps (cores : List Nat) (w : Work) (sound : BookSound w.book) :
    BookSound (Work.claimSamples cores w).book := by
  unfold Work.claimSamples
  refine foldl_keeps (fun w k hw => ?_) _ sound
  split <;> simp [hw]

@[simp] theorem Work.warmBegin_keeps (w : Work) (sound : BookSound w.book) : BookSound (Work.warmBegin w).book := by
  unfold Work.warmBegin
  simp [sound]

@[simp] theorem Work.dropCmd_keeps (c : Cmd) (w : Work) (sound : BookSound w.book) : BookSound (Work.dropCmd c w).book := by
  unfold Work.dropCmd
  simp [sound]

/-- A core of a context that stops: its spill, its tile and its chain are gone where they are the context's. -/
@[simp] theorem Work.ctxStop_core_keeps (x k : Nat) {w : Work} (hw : BookSound w.book) :
    BookSound (
      let c := w.core k
      let w := match c.spill with
        | some sp => if sp.chain.ctx = x then (w.putCore { c with spill := none }).put (Obj.coreSpill k) 0xFF else w
        | none => w
      let c := w.core k
      match c.tile, c.chain with
      | some t, _ =>
        if t.ctx = x ∧ w.coreSt k = 1 then (w.putCore { c with tile := none, chain := none, again := none }).coreNow k 0 0xFF else w
      | none, some h => if h.ctx = x then w.putCore { c with chain := none, again := none } else w
      | none, none => w).book := by
  extract_lets c w' c'
  have spilled : BookSound w'.book := by
    unfold w'
    split
    · split
      · exact (Work.putCore_keeps _ hw).of_eq (Work.put_book _ _ _)
      · exact hw
    · exact hw
  split
  · split
    · exact (Work.putCore_keeps _ spilled).of_eq (Work.coreNow_book _ _ _ _)
    · exact spilled
  · split
    · exact Work.putCore_keeps _ spilled
    · exact spilled
  · exact spilled

@[simp] theorem Work.ctxStop_keeps (x : Nat) (w : Work) (sound : BookSound w.book) : BookSound (Work.ctxStop x w).book := by
  unfold Work.ctxStop
  simp only [Work.rotation_book, Work.setPair_book, Dev.book_mk, Dev.book_eta]
  refine forUpto_keeps (fun b w hw => ?_) _ ?_
  · split
    · exact hw.of_eq (Work.cancelBuffer_book _ _ _)
    · exact hw
  simp only [Work.idleStreams_book]
  refine forUpto_keeps (fun k w hw => Work.ctxStop_core_keeps x k hw) _ ?_
  simp only [Work.setRuns_book, Work.setLaunches_book]
  rw [foldl_book _ (fun w p => Work.dropPattern_book p w)]
  refine foldl_keeps (fun w c hw => Work.dropCmd_keeps c w hw) _ ?_
  rw [foldl_book _ (fun w f => Work.ditchFill_book f w)]
  simp only [Work.setColls_book]
  rw [foldl_book _ (fun w j => Work.collStop_book _ _ _ w), foldl_book _ (fun w j => Work.picotStop_book _ _ _ w)]
  exact sound

@[simp] theorem Work.ctxBegin_keeps (x : Nat) (w : Work) (sound : BookSound w.book) : BookSound (Work.ctxBegin x w).book := by
  unfold Work.ctxBegin
  simp [sound]

@[simp] theorem Work.dieBegin_keeps (d : Nat) (ctxs : List Nat) (dev : Bool) (esc : Nat) (w : Work) (sound : BookSound w.book) :
    BookSound (Work.dieBegin d ctxs dev esc w).book := by
  unfold Work.dieBegin
  refine Work.claimSamples_keeps _ _ (BookSound.of_eq ?_ (Work.lifeReset_book _))
  refine foldl_keeps (fun w p hw => ?_) _ (Work.coresStop_keeps _ _ sound)
  split
  · have stopped := Work.ctxStop_keeps p.1 w hw
    simp only [Dev.book_mk, Dev.book_eta]
    exact stopped
  · exact Work.ctxBegin_keeps _ _ (hw.of_eq (Work.pushReset_book _ _))

@[simp] theorem Work.engineStop_keeps (e : Nat) (culprit : Option Nat) (w : Work) (sound : BookSound w.book) : BookSound (Work.engineStop e
    culprit w).book := by
  unfold Work.engineStop
  dsimp only
  (repeat' split) <;> simp_all

@[simp] theorem Work.ioBegin_keeps (w : Work) (sound : BookSound w.book) : BookSound (Work.ioBegin w).book := by
  unfold Work.ioBegin
  simp only [Work.lifeReset_book]
  rw [foldl_book _ (fun w p => Work.linkOff_book _ w), foldl_book _ (fun w s => Work.sessLostQuiet_book _ w)]
  exact foldl_keeps (fun w e hw => Work.engineFinish_keeps _ _ (Work.engineStop_keeps _ _ _ hw)) _ sound

/-- Resets contained in one that starts are absorbed, and it is under way. -/
@[simp] theorem Work.resetIn_keeps (dom : Nat) (inside : List Reset) (r : Reset) {w : Work} (sound : BookSound w.book) :
    BookSound ((inside.foldl (fun (w : Work) (q : Reset) => w.absorb dom q) w).pushReset r).book := by
  rw [Work.pushReset_book]
  exact foldl_keeps (fun w q hw => Work.absorb_keeps _ _ _ hw) _ sound

@[simp] theorem Work.resetStart_keeps (dom target cause esc : Nat) (dev : Bool) (culprit : Option Nat) (w : Work)
    (sound : BookSound w.book) : BookSound (Work.resetStart dom target cause esc dev culprit w).book := by
  unfold Work.resetStart
  extract_lets ctxs cores dies
  split
  next sw w' e =>
  extract_lets r inside absorbed pushed bin begun
  have started : BookSound w'.book := by
    refine sound.of_eq (book_of_snd_eq e ?_)
    split
    · rfl
    split
    next sw w e => exact book_of_snd_eq e (Work.newSwatch_book _ _ _ _ _ _ _)
  refine BookSound.of_eq ?_ (Work.swatchStep_book _ _ _)
  unfold begun
  split
  · exact Work.engineStop_keeps _ _ _ (Work.resetIn_keeps _ _ _ started)
  · refine Work.claimSamples_keeps _ _ (Work.unreproducedIn_keeps _ _ _ _ ?_)
    exact (Work.coreDetach_keeps _ _ (Work.resetIn_keeps _ _ _ started)).of_eq (Work.mapReset_book _ _ _ _)
  · exact Work.claimSamples_keeps _ _ (Work.ctxBegin_keeps _ _ (Work.resetIn_keeps _ _ _ started))
  · split
    · exact Work.dieBegin_keeps _ _ _ _ _ (Work.resetIn_keeps _ _ _ started)
    · exact Work.ioBegin_keeps _ (Work.resetIn_keeps _ _ _ started)
  · exact Work.warmBegin_keeps _ (Work.resetIn_keeps _ _ _ started)

@[simp] theorem Work.resetAsk_keeps (dom : Nat) (target : Nat) (cause : Nat) (esc : Nat) (dev : Bool) (culprit : Option Nat) (w : Work) (sound :
    BookSound w.book) : BookSound (Work.resetAsk dom target cause esc dev culprit w).book := by
  unfold Work.resetAsk
  (repeat' split) <;> simp [sound]

@[simp] theorem Work.resetReq_keeps (wr : Writer) (r : Reach) (num v dom limit : Nat) (w : Work) (sound : BookSound w.book) :
    BookSound (Work.resetReq wr r num v dom limit w).book := by
  unfold Work.resetReq
  refine Work.gated_keeps _ _ _ _ _ (fun y hy => ?_) sound
  split
  · exact Work.resetAsk_keeps _ _ _ _ _ _ _ hy
  · simp [hy]

@[simp] theorem opEngineReset_keeps (wr : Writer) (v : Nat) (w : Work) (sound : BookSound w.book) : BookSound (opEngineReset wr v w).book
    := by
  unfold opEngineReset
  simp [sound]

@[simp] theorem opFenceFwClear_keeps (wr : Writer) (v : Nat) (w : Work) (sound : BookSound w.book) : BookSound (opFenceFwClear wr v
    w).book := by
  unfold opFenceFwClear
  dsimp only
  (repeat' split) <;> simp_all

@[simp] theorem opDieReset_keeps (wr : Writer) (v : Nat) (w : Work) (sound : BookSound w.book) : BookSound (opDieReset wr v w).book := by
  unfold opDieReset
  simp [sound]

@[simp] theorem opDeviceReset_keeps (wr : Writer) (w : Work) (sound : BookSound w.book) : BookSound (opDeviceReset wr w).book := by
  unfold opDeviceReset
  exact Work.gated_keeps _ _ _ _ _ (fun y hy => Work.resetAsk_keeps _ _ _ _ _ _ _ hy) sound

@[simp] theorem Work.one_keeps (wr : Writer) (n : Nat) (v : Nat) (f : Work → Work) (w : Work) (h0 : ∀ y0, BookSound y0.book → BookSound (f
    y0).book) (sound : BookSound w.book) : BookSound (Work.one wr n v f w).book := by
  unfold Work.one
  split <;> simp [sound, h0]

@[simp] theorem opCoreReset_keeps (wr : Writer) (v : Nat) (w : Work) (sound : BookSound w.book) : BookSound (opCoreReset wr v w).book := by
  unfold opCoreReset
  simp [sound]

@[simp] theorem Work.coded_keeps (wr : Writer) (n : Nat) (v : Nat) (last : Nat) (f : Nat → Work → Work) (w : Work) (h0 : ∀ y0 y1, BookSound
    y1.book → BookSound (f y0 y1).book) (sound : BookSound w.book) : BookSound (Work.coded wr n v last f w).book := by
  unfold Work.coded
  split <;> simp [sound, h0]

@[simp] theorem opCtxReset_keeps (wr : Writer) (x : Fin 16) (w : Work) (sound : BookSound w.book) :
    BookSound (opCtxReset wr x w).book := by
  unfold opCtxReset
  exact Work.gated_keeps _ _ _ _ _ (fun y hy => Work.resetAsk_keeps _ _ _ _ _ _ _ hy) sound

@[simp] theorem opSeqJoin_keeps (wr : Writer) (x : Fin 16) (v : Nat) (w : Work) (sound : BookSound w.book) :
    BookSound (opSeqJoin wr x v w).book := by
  unfold opSeqJoin
  refine Work.gated_keeps _ _ _ _ _ (fun y hy => ?_) sound
  dsimp only
  split
  · simp [hy]
  · refine BookSound.of_eq (Work.newId_keeps ?_) (Work.putSeq_book _ _ _ _)
    split
    · simp [hy]
    · exact hy

@[simp] theorem Work.ctxCtrl_keeps (wr : Writer) (x v : Nat) (ok : List Nat) (act : Work → Work) (w : Work)
    (h0 : ∀ y0, BookSound y0.book → BookSound (act y0).book) (sound : BookSound w.book) :
    BookSound (Work.ctxCtrl wr x v ok act w).book := by
  unfold Work.ctxCtrl
  refine Work.gated_keeps _ _ _ _ _ (fun y hy => ?_) sound
  split
  · exact h0 y hy
  · simp [hy]

/-- What a write of an object does, if it is a command, keeps the book sound. -/
def ActionKeeps (o : Option (Work → Work)) : Prop := ∀ f, o = some f → ∀ w : Work, BookSound w.book → BookSound (f w).book

theorem ActionKeeps.some {f : Work → Work} (h : ∀ w : Work, BookSound w.book → BookSound (f w).book) : ActionKeeps (some f) :=
  fun _ e => Option.some.inj e ▸ h

theorem ActionKeeps.none : ActionKeeps none := fun _ e => by cases e

theorem ActionKeeps.ite {c : Prop} [Decidable c] {a b : Option (Work → Work)} (ha : ActionKeeps a) (hb : ActionKeeps b) :
    ActionKeeps (if c then a else b) := by
  split
  · exact ha
  · exact hb

/-- A commit, whose value 1 alone acts. -/
theorem ActionKeeps.one {wr : Writer} {n v : Nat} {f : Work → Work} (h : ∀ w : Work, BookSound w.book → BookSound (f w).book) :
    ActionKeeps (Option.some (Work.one wr n v f)) :=
  .some (fun w hw => Work.one_keeps _ _ _ _ _ h hw)

/-- An operation that changes no core's number and no identity. -/
@[simp] theorem keeps_of_book {f : Work → Work} (h : ∀ w : Work, (f w).book = w.book) (w : Work) (sound : BookSound w.book) :
    BookSound (f w).book := sound.of_eq (h w)

@[simp] theorem Work.devIndexed_keeps (wr : Writer) (n v : Nat) : ActionKeeps (Work.devIndexed wr n v) := by
  unfold Work.devIndexed
  split
  · exact .one (keeps_of_book (opSlotCommit_book _ _))
  split
  · exact .one (keeps_of_book (opSlotFlush_book _ _))
  split
  · exact .one (keeps_of_book (opPbCommit_book _ _))
  · exact .none

@[simp] theorem Work.devAction_keeps (wr : Writer) (n v : Nat) : ActionKeeps (Work.devAction wr n v) := by
  unfold Work.devAction
  refine .ite (.some (opFenceSw_keeps _ _)) ?_
  refine .ite (.some (keeps_of_book (Work.nearAgentMin_book _ _))) ?_
  refine .ite (.one (keeps_of_book (opSpillPoolCommit_book _))) ?_
  refine .ite (.one (keeps_of_book (opPortsCommit_book _ _))) ?_
  refine .ite (.one (keeps_of_book (opPortsCommit_book _ _))) ?_
  refine .ite (.one (keeps_of_book (opPeerCommit_book _))) ?_
  refine .ite (.one (keeps_of_book (opGroupCommit_book _))) ?_
  refine .ite (.some (keeps_of_book (opActivate_book _ _))) ?_
  refine .ite (.one (keeps_of_book (opSwap_book _))) ?_
  refine .ite (.one (keeps_of_book (opLoadCommit_book _))) ?_
  refine .ite (.one (keeps_of_book (opArenaCommit_book _))) ?_
  refine .ite (.some (keeps_of_book (opHealthClear_book _ _))) ?_
  refine .ite (.some (opFenceFwClear_keeps _ _)) ?_
  refine .ite (.one (keeps_of_book (opMirDevCommit_book _))) ?_
  refine .ite (.some (keeps_of_book (opMirFree_book _ _))) ?_
  refine .ite (.some (opEngineReset_keeps _ _)) ?_
  refine .ite (.some (opCoreReset_keeps _ _)) ?_
  refine .ite (.some (opDieReset_keeps _ _)) ?_
  refine .ite (.one (opDeviceReset_keeps _)) ?_
  refine .ite (.one (keeps_of_book (opDvfsCommit_book _))) ?_
  refine .ite (.some (keeps_of_book (opStoreErase_book _ _ _))) ?_
  refine .ite (.one (keeps_of_book (Work.mgmtReq_book _))) ?_
  refine .ite (.one (keeps_of_book (Work.hokReq_book _))) ?_
  refine .ite (.one (keeps_of_book (opNotifyCommit_book _))) ?_
  refine .ite (.some (keeps_of_book (opLogReadSeqWrite_book _ _))) ?_
  refine .ite (.one (keeps_of_book (opLogClear_book _))) ?_
  refine .ite (.one (keeps_of_book (opFwStageCommit_book _))) ?_
  exact .ite (.one (keeps_of_book (opFwSvnCommit_book _))) (Work.devIndexed_keeps _ _ _)

@[simp] theorem Work.ctxIndexed_keeps (wr : Writer) (x : Fin 16) (n v : Nat) : ActionKeeps (Work.ctxIndexed wr x n v) := by
  unfold Work.ctxIndexed
  dsimp only
  split
  · exact .one (keeps_of_book (opQCommit_book _ _ _))
  split
  · exact .some (fun w hw => Work.coded_keeps _ _ _ _ _ _ (fun c y hy => hy.of_eq (Work.qCode_book _ _ _ c y)) hw)
  split
  · exact .one (keeps_of_book (opStreamRearm_book _ _ _))
  split
  · exact .one (keeps_of_book (opPackCommit_book _ _ _))
  split
  · exact .some (keeps_of_book (Work.writeMin_book _ _ _ _))
  split
  · exact .some (keeps_of_book (Work.writeCap_book _ _ _ _))
  · exact .none

@[simp] theorem Work.ctxAction_keeps (wr : Writer) (x : Fin 16) (n v : Nat) : ActionKeeps (Work.ctxAction wr x n v) := by
  unfold Work.ctxAction
  dsimp only
  refine .ite (.some (fun w hw => Work.coded_keeps _ _ _ _ _ _ (fun c y hy => hy.of_eq (Work.ctxCode_book _ _ c y)) hw)) ?_
  refine .ite (.one (keeps_of_book (opCtxCommit_book _ _))) ?_
  refine .ite (.some (keeps_of_book (opPrivWrite_book _ _ _))) ?_
  refine .ite (.one (keeps_of_book (opSegCommit_book _ _))) ?_
  refine .ite (.some (keeps_of_book (opSpillReq_book _ _ _))) ?_
  refine .ite (.some (keeps_of_book (opFillReq_book _ _ _))) ?_
  refine .ite (.one (keeps_of_book (opBindCommit_book _ _))) ?_
  refine .ite (.one (keeps_of_book (opAddSwap_book _ _))) ?_
  refine .ite (.some (opSeqJoin_keeps _ _ _)) ?_
  refine .ite (.some (keeps_of_book (opSeqLeave_book _ _ _))) ?_
  refine .ite (.some (keeps_of_book (opSeqGrow_book _ _ _))) ?_
  refine .ite (.one (keeps_of_book (opMirCommit_book _ _))) ?_
  refine .ite (.some (keeps_of_book (opRestoreReq_book _ _ _))) ?_
  refine .ite (.one (opCtxReset_keeps _ _)) ?_
  refine .ite (.one (keeps_of_book (opAttestReq_book _ _))) ?_
  refine .ite (.one (keeps_of_book (Work.hoopReq_book _ _))) ?_
  refine .ite (.some (keeps_of_book (Work.hoopForget_book _ _ _))) ?_
  exact .ite (.one (keeps_of_book (Work.wideReq_book _ _))) (Work.ctxIndexed_keeps _ _ _ _)

@[simp] theorem Work.applyWrite_keeps (wr : Writer) (r : ObjRow) (n off : Nat) (d : List Byte) (w : Work) (sound : BookSound w.book) :
    BookSound (Work.applyWrite wr r n off d w).book := by
  have acts : ActionKeeps (match objCtx n with
      | some x => Work.ctxAction wr x n (leNat d)
      | none => Work.devAction wr n (leNat d)) := by
    split
    · exact Work.ctxAction_keeps _ _ _ _
    · exact Work.devAction_keeps _ _ _
  unfold Work.applyWrite
  dsimp only
  split
  · exact sound.of_eq (Work.setBlob_book _ _ _ _ _ w)
  split
  · next f e => exact acts f e w sound
  · exact sound.of_eq (Work.setScalar_book _ _ _ _ w)

@[simp] theorem Work.beginTile_keeps (k : Nat) (t : Tile) (level : Nat) (chain : Chain) (w : Work) (sound : BookSound w.book) : BookSound
    (Work.beginTile k t level chain w).book := by
  unfold Work.beginTile
  simp [sound]

@[simp] theorem Work.newChain_keeps (k : Nat) (t : Tile) (samp : Option Nat) (w : Work) (sound : BookSound w.book) : BookSound
    (Work.newChain k t samp w).2.book := by
  unfold Work.newChain
  simp [sound]

@[simp] theorem Work.goOn_keeps (k : Nat) (w : Work) (sound : BookSound w.book) : BookSound (Work.goOn k w).book := by
  unfold Work.goOn
  dsimp only
  (repeat' split) <;> simp [sound]

@[simp] theorem Work.chainRestore_keeps (k : Nat) (w : Work) (sound : BookSound w.book) : BookSound (Work.chainRestore k w).book := by
  unfold Work.chainRestore
  dsimp only
  (repeat' split) <;> simp [sound]

@[simp] theorem Work.assign_keeps (k : Nat) (c : Claim) (save : Bool) (w : Work) (sound : BookSound w.book) :
    BookSound (Work.assign k c save w).book := by
  have saved : BookSound (if save then w.chainSave k else w).book := by
    split
    · exact Work.chainSave_keeps k w sound
    · exact sound
  have dropped : ∀ v : Work, BookSound v.book →
      BookSound (if save then v else v.putCore { v.core k with chain := none, again := none }).book := by
    intro v hv
    split
    · exact hv
    · exact Work.putCore_keeps _ hv
  unfold Work.assign
  cases c with
  | cont => exact Work.goOn_keeps k _ saved
  | restore => exact Work.chainRestore_keeps k _ (dropped _ saved)
  | swatch id => exact saved.of_eq (Work.grant_book k id _)
  | sect id => exact (dropped _ saved).of_eq (Work.grant_book k id _)
  | tile t =>
    refine Work.beginTile_keeps k t 0 _ _ ?_
    exact (Work.newChain_keeps k t none _ (dropped _ saved)).of_eq (Work.takeTile_book t _)
  | samp id =>
    dsimp only
    split
    · split
      · refine Work.beginTile_keeps k _ 0 _ _ ?_
        exact (Work.newChain_keeps k _ (some id) _ (dropped _ saved)).of_eq (Work.setRuns_book _ _)
      · exact dropped _ saved
    · exact dropped _ saved

@[simp] theorem Work.chainEnd_keeps (k : Nat) (h : Chain) (w : Work) (sound : BookSound w.book) :
    BookSound (Work.chainEnd k h w).book := by
  have put := Work.putCore_keeps { w.core k with chain := some h } sound
  unfold Work.chainEnd
  dsimp only
  split
  · exact put
  have free := Work.putCore_keeps { (w.putCore { w.core k with chain := some h }).core k with chain := none, again := none } put
  split
  · exact free.of_eq (Work.setRuns_book _ _)
  split
  · split
    · exact (Work.newId_keeps free).of_eq (Work.setRuns_book _ _)
    · exact free
  · exact free

@[simp] theorem Work.collSection_keeps (j : CollJob) (c : Cmd) (w : Work) (sound : BookSound w.book) : BookSound (Work.collSection j c
    w).book := by
  unfold Work.collSection
  split <;> simp [sound]

@[simp] theorem Work.collSectionEnd_keeps (id : Nat) (bound : Nat) (freq : Nat) (w : Work) (sound : BookSound w.book) : BookSound
    (Work.collSectionEnd id bound freq w).book := by
  unfold Work.collSectionEnd
  dsimp only
  (repeat' split) <;> simp [sound]

@[simp] theorem Work.complete_keeps (c : Cmd) (d : Done) (w : Work) (sound : BookSound w.book) : BookSound (Work.complete c d w).book := by
  unfold Work.complete
  simp [sound]

@[simp] theorem Work.confirmedIn_keeps (k : Nat) (bin : Nat) (cores : List Nat) (w : Work) (sound : BookSound w.book) : BookSound
    (Work.confirmedIn k bin cores w).book := by
  unfold Work.confirmedIn
  simp [sound]

@[simp] theorem Work.coreBack_keeps (k : Nat) (w : Work) (sound : BookSound w.book) : BookSound (Work.coreBack k w).book := by
  unfold Work.coreBack
  dsimp only
  (repeat' split) <;> simp [sound]

@[simp] theorem Work.coreFree_keeps (k : Nat) (w : Work) (sound : BookSound w.book) : BookSound (Work.coreFree k w).book := by
  unfold Work.coreFree
  simp [sound]

@[simp] theorem Work.corePick_keeps (k : Nat) (w : Work) (sound : BookSound w.book) : BookSound (Work.corePick k w).book := by
  unfold Work.corePick
  (repeat' split) <;> simp [sound]

@[simp] theorem Work.cancelRecords_book (x : Nat) (queues : List (Nat × Nat)) (w : Work) :
    (queues.foldl (fun (w : Work) (p : Nat × Nat) => w.cancelRecord x p.1 p.2) w).book = w.book := by
  induction queues generalizing w with
  | nil => rfl
  | cons p t ih => rw [List.foldl_cons, ih, Work.cancelRecord_book]

@[simp] theorem Work.ctxFinish_keeps (x : Nat) (queues : List (Nat × Nat)) (w : Work) (sound : BookSound w.book) :
    BookSound (Work.ctxFinish x queues w).book := by
  unfold Work.ctxFinish
  extract_lets dropped freed cleared idle used stopped told ended
  have droppedKept : BookSound dropped.book := foldl_keeps (fun w c hw => Work.dropCmd_keeps c w hw) _ sound
  have freedSame : freed.book = dropped.book := (Work.setJobs_book _ _).trans (Work.setColls_book _ _)
  have clearedSame : cleared.book = freed.book := Work.clearTags_book _ _
  have idleSame : idle.book = cleared.book := (Work.idleStreams_book _ _).trans (Work.setTimers_book _ _)
  have usedSame : used.book = idle.book := foldl_book _ (fun w t => Work.hoopPut_book _ _ _ w) _ _
  have stoppedSame : stopped.book = used.book := forUpto_book _ (fun q w => Work.put_book _ _ w) _ _
  have toldSame : told.book = stopped.book := Work.cancelRecords_book _ _ _
  have endedSame : ended.book = told.book :=
    (Work.ctxProgress_book _ _).trans ((Work.put_book _ _ _).trans (Work.put_book _ _ _))
  rw [Work.rotation_book, endedSame, toldSame, stoppedSame, usedSame, idleSame, clearedSame, freedSame]
  exact droppedKept

@[simp] theorem Work.tileLoadFail_keeps (k : Nat) (t : Tile) (samp : Option Nat) (st : Nat) (d : Nat) (w : Work) (sound : BookSound w.book) :
    BookSound (Work.tileLoadFail k t samp st d w).book := by
  unfold Work.tileLoadFail
  split <;> simp [sound]

@[simp] theorem Work.endReader_keeps (r : Agent) (st : Nat) (det : Nat) (w : Work) (sound : BookSound w.book) : BookSound (Work.endReader r
    st det w).book := by
  unfold Work.endReader
  (repeat' split) <;> simp [sound]

@[simp] theorem Work.railsOff_keeps (w : Work) (sound : BookSound w.book) : BookSound (Work.railsOff w).book := by
  unfold Work.railsOff
  split <;> simp [sound]

@[simp] theorem Work.enterRecovery_keeps (w : Work) (sound : BookSound w.book) : BookSound (Work.enterRecovery w).book := by
  unfold Work.enterRecovery
  simp [sound]

@[simp] theorem Work.escalateDie_keeps (r : Reset) (d : Nat) (w : Work) (sound : BookSound w.book) : BookSound (Work.escalateDie r d
    w).book := by
  unfold Work.escalateDie
  simp [sound]

@[simp] theorem Work.fire_keeps (dom : Nat) (target : Nat) (cause : Nat) (culprit : Option Nat) (w : Work) (sound : BookSound w.book) :
    BookSound (Work.fire dom target cause culprit w).book := by
  unfold Work.fire
  simp [sound]

@[simp] theorem Work.flrContext_keeps (c : Nat) (w : Work) (sound : BookSound w.book) : BookSound (Work.flrContext c w).book := by
  unfold Work.flrContext
  simp [sound]

@[simp] theorem Work.flrAll_keeps (w : Work) (sound : BookSound w.book) : BookSound (Work.flrAll w).book := by
  unfold Work.flrAll
  split
  · exact forUpto_keeps (fun c w hw => Work.flrContext_keeps c w hw) _ sound
  · exact sound

@[simp] theorem Work.hokIn_keeps (f : HokRx) (act : HokSession → Work → Work) (w : Work) (h0 : ∀ y0 y1, BookSound y1.book → BookSound
    (act y0 y1).book) (sound : BookSound w.book) : BookSound (Work.hokIn f act w).book := by
  unfold Work.hokIn
  dsimp only
  (repeat' split) <;> simp [sound, h0]

@[simp] theorem Work.objWr_keeps (wr : Writer) (n : Nat) (off : Nat) (d : List Byte) (w : Work) (sound : BookSound w.book) : BookSound
    (Work.objWr wr n off d w).2.book := by
  unfold Work.objWr
  dsimp only
  (repeat' split) <;> simp [sound]

@[simp] theorem Work.objWrRd_keeps (wr : Writer) (n : Nat) (off : Nat) (d : List Byte) (w : Work) (sound : BookSound w.book) : BookSound
    (Work.objWrRd wr n off d w).2.book := by
  unfold Work.objWrRd
  dsimp only
  (repeat' split) <;> simp [sound]

@[simp] theorem Work.hokOp_keeps (s : Fin 4) (o : HokOp) (w : Work) (sound : BookSound w.book) : BookSound (Work.hokOp s o w).2.book := by
  unfold Work.hokOp
  (repeat' split) <;> simp [sound]

@[simp] theorem Work.hokRun_keeps (s : Fin 4) (os : List HokOp) (w : Work) (sound : BookSound w.book) : BookSound (Work.hokRun s os
    w).2.book := by
  unfold Work.hokRun
  dsimp only
  (repeat' split) <;> simp_all

@[simp] theorem Work.hokRequest_keeps (f : HokRx) (q : HokSession) (w : Work) (sound : BookSound w.book) : BookSound (Work.hokRequest f
    q w).book := by
  unfold Work.hokRequest
  dsimp only
  (repeat' split) <;> simp [sound]

@[simp] theorem Work.hokTake_keeps (f : HokRx) (type : Nat) (act : Work → Work) (w : Work) (h0 : ∀ y0, BookSound y0.book → BookSound (act
    y0).book) (sound : BookSound w.book) : BookSound (Work.hokTake f type act w).book := by
  unfold Work.hokTake
  dsimp only
  (repeat' split) <;> simp [sound, h0]

@[simp] theorem Work.katVerdict_keeps (k : Nat) (v : Nat) (bin : Nat) (w : Work) (sound : BookSound w.book) : BookSound (Work.katVerdict k v
    bin w).book := by
  unfold Work.katVerdict
  split <;> simp [sound]

@[simp] theorem Work.spareBlocks_keeps (k : Nat) (off : Nat) (len : Nat) (w : Work) (sound : BookSound w.book) : BookSound (Work.spareBlocks k
    off len w).book := by
  unfold Work.spareBlocks
  dsimp only
  (repeat' split) <;> simp [sound]

@[simp] theorem Work.windowWrite_keeps (k : Nat) (x : Nat) (id : Nat) (off : Nat) (d : List Nat) (w : Work) (sound : BookSound w.book) : BookSound
    (Work.windowWrite k x id off d w).book := by
  unfold Work.windowWrite
  split <;> simp [sound]

@[simp] theorem Work.loadSpan_keeps (k : Nat) (t : Tile) (chain : Nat) (a : Nat) (s : Nat) (w : Work) (sound : BookSound w.book) : BookSound
    (Work.loadSpan k t chain a s w).book := by
  unfold Work.loadSpan
  dsimp only
  (repeat' split) <;> simp [sound]

@[simp] theorem Work.resetEffect_keeps (r : Reset) (bad : List (Nat × Nat)) (w : Work) (sound : BookSound w.book) : BookSound
    (Work.resetEffect r bad w).book := by
  unfold Work.resetEffect
  dsimp only
  (repeat' split) <;> simp_all

@[simp] theorem Work.runNext_keeps (r : SampRun) (kind : Nat) (notCores : List Nat) (onCore : Option Nat) (w : Work) (sound : BookSound
    w.book) : BookSound (Work.runNext r kind notCores onCore w).book := by
  unfold Work.runNext
  simp [sound]

@[simp] theorem Work.rxData_keeps (f : Rx) (n : Nat) (w : Work) (sound : BookSound w.book) : BookSound (Work.rxData f n w).book := by
  delta Work.rxData
  -- Unwrapping a PSN stays opaque: the kernel would count its numerals down.
  obtain ⟨unwrap, e⟩ : ∃ unwrap, unwrap = Sess.unwrap := ⟨_, rfl⟩
  rw [← e]
  split
  · exact sound
  next s _ =>
  extract_lets x
  split
  extract_lets arrived
  have kept : BookSound arrived.book := sound.of_eq (Work.arrival_book _ _ _ _)
  have again : BookSound ((arrived.bump (Obj.dupPkts x) 1).ackNow n false f.reply).book :=
    kept.of_eq ((Work.ackNow_book _ _ _ _).trans (Work.bump_book _ _ _))
  have dropped : BookSound (arrived.bump (Obj.rangeDrop x) 1).book := kept.of_eq (Work.bump_book _ _ _)
  have broken : ∀ row, BookSound (arrived.violation n row).book := fun row => kept.of_eq (Work.violation_book _ _ _)
  split
  · exact again
  next a _ =>
  have accepted : ∀ (m : RxMsg) (off : Nat) (v : Work), BookSound v.book → BookSound (v.acceptData n a m off f.data f.reply).book :=
    fun m off v hv => Work.acceptData_keeps _ _ _ _ _ _ v hv
  split
  · exact again
  split
  · exact (kept.of_eq (Work.ackNow_book _ _ _ _)).of_eq (Work.violation_book _ _ _)
  split
  · exact broken 8
  extract_lets limit
  split
  · split
    · exact broken 8
    split
    · exact dropped
    · exact accepted _ _ _ kept
  split
  · split
    · exact broken 8
    split
    · exact dropped
    · exact accepted _ _ _ (kept.of_eq (Work.setNet_book _ _))
  split
  · split
    · exact dropped
    · exact accepted _ _ _ kept
  · exact kept.of_eq ((Work.mismatch_book _ _ _).trans ((Work.ackNow_book _ _ _ _).trans (Work.bump_book _ _ _)))

@[simp] theorem Work.rxPath_keeps (t : Nat) (f : Rx) (act : Nat → Work → Work) (w : Work) (h0 : ∀ y0 y1, BookSound y1.book → BookSound (act
    y0 y1).book) (sound : BookSound w.book) : BookSound (Work.rxPath t f act w).book := by
  unfold Work.rxPath
  dsimp only
  (repeat' split) <;> simp [sound, h0]

@[simp] theorem Work.sampleEnd_keeps (s : Section) (k : Nat) (bad : List Nat) (w : Work) (sound : BookSound w.book) : BookSound
    (Work.sampleEnd s k bad w).book := by
  unfold Work.sampleEnd
  simp [sound]

@[simp] theorem Work.sampleLate_keeps (s : Section) (k : Nat) (w : Work) (sound : BookSound w.book) : BookSound (Work.sampleLate s k
    w).book := by
  unfold Work.sampleLate
  simp [sound]

@[simp] theorem Work.sectionPick_keeps (k : Nat) (w : Work) (sound : BookSound w.book) : BookSound (Work.sectionPick k w).book := by
  unfold Work.sectionPick
  (repeat' split) <;> simp [sound]

@[simp] theorem Work.selfTest_keeps (k : Nat) (v : Nat) (bin : Nat) (w : Work) (sound : BookSound w.book) : BookSound (Work.selfTest k v bin
    w).book := by
  unfold Work.selfTest
  split <;> simp [sound]

/-- A sequence that joins, waits or is refused draws an identity at most. -/
@[simp] theorem Work.joinOne_keeps (acc : Bool × Work) (s : SeqSt) (sound : BookSound acc.2.book) :
    BookSound (Work.joinOne acc s).2.book := by
  have drawn := Work.newId_keeps sound
  unfold Work.joinOne
  dsimp only
  split
  · simp [drawn]
  split
  · exact sound
  · simp [drawn]

@[simp] theorem Work.seqBoundary_keeps (x : Nat) (w : Work) (sound : BookSound w.book) : BookSound (Work.seqBoundary x w).book := by
  have joined : ∀ (l : List SeqSt) (p : Bool × Work), BookSound p.2.book → BookSound (l.foldl Work.joinOne p).2.book :=
    fun l p hp => foldl_snd_keeps (fun p s hp => Work.joinOne_keeps p s hp) l hp
  unfold Work.seqBoundary
  dsimp only
  rw [Work.ite_book, Work.fillBack_book, ite_self]
  refine joined _ _ ?_
  simp only [Work.arenaApply_book]
  rw [foldl_book _ (fun w s => by simp)]
  exact sound

@[simp] theorem Work.spillLost_keeps (k : Nat) (w : Work) (sound : BookSound w.book) : BookSound (Work.spillLost k w).book := by
  unfold Work.spillLost
  split <;> simp [sound]

/-- A command that starts under a fresh identity. -/
@[simp] theorem Work.setCmds_append_keeps {c : Cmd} {w : Work} (sound : BookSound w.book) (fresh : c.id ∉ w.book.2.1)
    (given : c.id < w.book.2.2) : BookSound (w.setCmds (w.q.cmds ++ [c])).book := by
  obtain ⟨cores, ids, below⟩ := sound
  have split : ((w.q.cmds ++ [c]).map (fun c => c.id)) = w.book.2.1 ++ [c.id] :=
    List.map_append
  refine ⟨cores, ?_, ?_⟩
  · show ((w.q.cmds ++ [c]).map (fun c => c.id)).Nodup
    rw [split]
    refine List.nodup_append.mpr ⟨ids, List.pairwise_singleton _ _, fun i hi b hb same => fresh ?_⟩
    rw [← List.mem_singleton.mp hb, ← same]
    exact hi
  · show ∀ i ∈ (w.q.cmds ++ [c]).map (fun c => c.id), i < w.nextId
    rw [split]
    intro i hi
    obtain hi | hi := List.mem_append.mp hi
    · exact below i hi
    · exact List.mem_singleton.mp hi ▸ given

/-- The identity drawn is that of no command, and it is given out. -/
theorem Work.newId_fresh {i : Nat} {w w' : Work} (e : w.newId = (i, w')) (sound : BookSound w.book) :
    i ∉ w'.book.2.1 ∧ i < w'.book.2.2 := by
  cases e
  exact ⟨fun held => absurd (sound.2.2 _ held) (Nat.lt_irrefl _), Nat.lt_succ_self _⟩

@[simp] theorem Work.startCmd_keeps (p : Pattern) (early : Option (Nat × Nat)) (w : Work) (sound : BookSound w.book) :
    BookSound (Work.startCmd p early w).book := by
  unfold Work.startCmd
  split
  next x q _ =>
  extract_lets q0 cleared packed own
  have kept : BookSound packed.book := by
    have same : packed.book = cleared.book := by
      unfold packed
      split
      · exact Work.packApply_book _ _
      · rfl
    exact sound.of_eq same
  split
  next i drawn e =>
  obtain ⟨fresh, given⟩ := Work.newId_fresh e kept
  have drawnKept : BookSound drawn.book := by
    have := Work.newId_keeps kept
    rw [e] at this
    exact this
  extract_lets slot add held
  split
  extract_lets c fail c' begun
  have same : held.book = drawn.book := by
    unfold held
    rw [Work.ctxProgress_book, Work.holdAdd_book, Work.holdSlot_book]
  have named : c'.id = i := by
    unfold c'
    clear_value fail
    cases fail with
    | none => rfl
    | some _ => rfl
  rw [Work.fetchNext_book, Work.mapPat_book]
  refine Work.setCmds_append_keeps (drawnKept.of_eq same) ?_ ?_
  · rw [same, named]
    exact fresh
  · rw [same, named]
    exact given

@[simp] theorem Work.startFill_keeps (j : PfJob) (cmd : Option Nat) (stream : Option Nat) (w : Work) (sound : BookSound w.book) : BookSound
    (Work.startFill j cmd stream w).book := by
  unfold Work.startFill
  split <;> simp [sound]

@[simp] theorem Work.startPicot_keeps (c : Cmd) (w : Work) (sound : BookSound w.book) : BookSound (Work.startPicot c w).book := by
  unfold Work.startPicot
  dsimp only
  (repeat' split) <;> simp [sound]

@[simp] theorem Work.stepBoundary_keeps (x : Nat) (step : Nat) (w : Work) (sound : BookSound w.book) : BookSound (Work.stepBoundary x step
    w).book := by
  unfold Work.stepBoundary
  simp [sound]

@[simp] theorem Work.warmPre_keeps (cause : Nat) (esc : Nat) (dev : Bool) (culprit : Option Nat) (w : Work) (sound : BookSound w.book) :
    BookSound (Work.warmPre cause esc dev culprit w).book := by
  unfold Work.warmPre
  dsimp only
  (repeat' split) <;> simp_all

@[simp] theorem Work.winStart_keeps (fn : Fin 16) (object : Nat) (off : Nat) (len : Nat) (active : Bool) (put : List Byte) (act : Work → (Nat ×
    Option (List Nat)) × Work) (w : Work) (h0 : ∀ y0, BookSound y0.book → BookSound (act y0).2.book) (sound : BookSound w.book) :
    BookSound (Work.winStart fn object off len active put act w).book := by
  unfold Work.winStart
  dsimp only
  (repeat' split) <;> simp [sound, h0]

@[simp] theorem opColdRstAssert_keeps (w : Work) (sound : BookSound w.book) : BookSound (opColdRstAssert w).book := by
  unfold opColdRstAssert
  simp [sound]

@[simp] theorem opCommandComplete_keeps (id : Nat) (w : Work) (sound : BookSound w.book) : BookSound (opCommandComplete id w).book := by
  unfold opCommandComplete
  dsimp only
  (repeat' split) <;> simp [sound]

@[simp] theorem opCommandStart_keeps (x : Fin 16) (q : Fin 5) (w : Work) (sound : BookSound w.book) : BookSound (opCommandStart x q
    w).book := by
  unfold opCommandStart
  dsimp only
  (repeat' split) <;> simp [sound]

@[simp] theorem opCoreAssign_keeps (k : Fin 32) (saveBad : Bool) (restBad : Bool) (w : Work) (sound : BookSound w.book) : BookSound
    (opCoreAssign k saveBad restBad w).book := by
  unfold opCoreAssign
  dsimp only
  (repeat' split) <;> simp [sound]

@[simp] theorem opCoreWdtFire_keeps (k : Fin 32) (w : Work) (sound : BookSound w.book) : BookSound (opCoreWdtFire k w).book := by
  unfold opCoreWdtFire
  dsimp only
  (repeat' split) <;> simp [sound]

@[simp] theorem opCtxWdtFire_keeps (x : Fin 16) (w : Work) (sound : BookSound w.book) : BookSound (opCtxWdtFire x w).book := by
  unfold opCtxWdtFire
  dsimp only
  (repeat' split) <;> simp [sound]

@[simp] theorem opDeviceReady_keeps (res : List (Fin 32 × Nat × Nat)) (cfg : HostCfg) (w : Work) (sound : BookSound w.book) :
    BookSound (opDeviceReady res cfg w).book := by
  unfold opDeviceReady
  split
  · exact sound
  · simp only [Work.phase_book, Work.event_book, Work.hostConfig_book, Work.ctxProgress_book, Work.put_book, Work.setHealth_book]
    refine foldl_keeps (fun w r hw => ?_) _ (Work.fencesNow_keeps _ (by simp [sound]))
    split
    · exact hw
    · exact Work.selfTest_keeps _ _ _ _ hw

@[simp] theorem opEngineWdtFire_keeps (e : Fin 13) (id : Nat) (w : Work) (sound : BookSound w.book) : BookSound (opEngineWdtFire e id
    w).book := by
  unfold opEngineWdtFire
  (repeat' split) <;> simp [sound]

@[simp] theorem opExbDataRx_keeps (f : Rx) (w : Work) (sound : BookSound w.book) : BookSound (opExbDataRx f w).book := by
  unfold opExbDataRx
  exact Work.rxPath_keeps _ _ _ _ (fun n y hy => Work.rxData_keeps f n y hy) sound

@[simp] theorem opExtReadReturn_keeps (r : Agent) (a : Nat) (flips : List (Nat × Nat)) (w : Work) (sound : BookSound w.book) : BookSound
    (opExtReadReturn r a flips w).book := by
  unfold opExtReadReturn
  dsimp only
  (repeat' split) <;> simp [sound]

@[simp] theorem opFlrPf_keeps (w : Work) (sound : BookSound w.book) : BookSound (opFlrPf w).book := by
  unfold opFlrPf
  split <;> simp [sound]

@[simp] theorem opFlrVf_keeps (c : Fin 16) (w : Work) (sound : BookSound w.book) : BookSound (opFlrVf c w).book := by
  unfold opFlrVf
  dsimp only
  (repeat' split) <;> simp [sound]

@[simp] theorem opFwStageVerifyDone_keeps (bad : Bool) (w : Work) (sound : BookSound w.book) : BookSound (opFwStageVerifyDone bad
    w).book := by
  unfold opFwStageVerifyDone
  dsimp only
  (repeat' split) <;> simp [sound]

@[simp] theorem opFwVerifyDone_keeps (bad : List Nat) (w : Work) (sound : BookSound w.book) : BookSound (opFwVerifyDone bad w).book := by
  have verified : ∀ {b : Bool} {w' : Work}, w.verifyBoot bad = (b, w') → BookSound w'.book :=
    fun e => sound.of_eq (book_of_snd_eq e (Work.verifyBoot_book bad w))
  unfold opFwVerifyDone
  split
  · exact sound
  split
  · split
    · next e => simp [verified e]
    · next e => exact Work.enterRecovery_keeps _ (verified e)
  split
  · split
    · split
      · next e =>
        dsimp only
        simp only [Work.mapReset_book, Work.nextIncarnation_book]
        split <;> simp [verified e]
      · next e => exact Work.enterRecovery_keeps _ (verified e)
    · exact sound
  · exact sound

@[simp] theorem opFwWdtFire_keeps (w : Work) (sound : BookSound w.book) : BookSound (opFwWdtFire w).book := by
  unfold opFwWdtFire
  split <;> simp [sound]

@[simp] theorem opGather_keeps (id : Nat) (w : Work) (sound : BookSound w.book) : BookSound (opGather id w).book := by
  unfold opGather
  (repeat' split) <;> simp [sound]

@[simp] theorem opHokRequestRx_keeps (f : HokRx) (w : Work) (sound : BookSound w.book) : BookSound (opHokRequestRx f w).book := by
  unfold opHokRequestRx
  refine Work.hokTake_keeps _ _ _ _ (fun y hy => Work.hokIn_keeps _ _ _ (fun q z hz => ?_) hy) sound
  dsimp only
  split
  · exact Work.hokRequest_keeps f q z hz
  split
  · simp [hz]
  · simp [hz]

@[simp] theorem opHostCplRx_keeps (r : Agent) (a : Nat) (cpl : HostCpl) (w : Work) (sound : BookSound w.book) : BookSound (opHostCplRx r a
    cpl w).book := by
  unfold opHostCplRx
  (repeat' split) <;> simp [sound]

@[simp] theorem opHostCplTimeout_keeps (r : Agent) (a : Nat) (w : Work) (sound : BookSound w.book) : BookSound (opHostCplTimeout r a
    w).book := by
  unfold opHostCplTimeout
  split <;> simp [sound]

@[simp] theorem opKatPeriod_keeps (ns : Nat) (res : List (Fin 32 × Nat × Nat)) (w : Work) (sound : BookSound w.book) :
    BookSound (opKatPeriod ns res w).book := by
  unfold opKatPeriod
  split
  · exact sound
  · refine foldl_keeps (fun w r hw => ?_) _ (sound.of_eq (Work.setHealth_book _ _))
    split
    · exact Work.katVerdict_keeps _ _ _ _ hw
    · exact hw

@[simp] theorem opMemWdtFire_keeps (ctl : Fin 22) (w : Work) (sound : BookSound w.book) : BookSound (opMemWdtFire ctl w).book := by
  unfold opMemWdtFire
  dsimp only
  (repeat' split) <;> simp [sound]

@[simp] theorem opObjectWrite_keeps (wr : Writer) (num : Nat) (off : Nat) (data : List Byte) (w : Work) (sound : BookSound w.book) :
    BookSound (opObjectWrite wr num off data w).book := by
  unfold opObjectWrite
  (repeat' split) <;> simp [sound]

@[simp] theorem opP12vSbLoss_keeps (w : Work) (sound : BookSound w.book) : BookSound (opP12vSbLoss w).book := by
  unfold opP12vSbLoss
  simp [sound]

@[simp] theorem opP48vTrip_keeps (high : Bool) (w : Work) (sound : BookSound w.book) : BookSound (opP48vTrip high w).book := by
  unfold opP48vTrip
  dsimp only
  (repeat' split) <;> simp [sound]

@[simp] theorem opPatternAdmit_keeps (x : Fin 16) (q : Fin 5) (w : Work) (sound : BookSound w.book) : BookSound (opPatternAdmit x q
    w).book := by
  unfold opPatternAdmit
  dsimp only
  (repeat' split) <;> simp [sound]

@[simp] theorem opPciePerst_keeps (w : Work) (sound : BookSound w.book) : BookSound (opPciePerst w).book := by
  unfold opPciePerst
  split <;> simp [sound]

@[simp] theorem opPlaitChunkLand_keeps (id : Nat) (slot : Nat) (w : Work) (sound : BookSound w.book) : BookSound (opPlaitChunkLand id slot
    w).book := by
  unfold opPlaitChunkLand
  (repeat' split) <;> simp [sound]

@[simp] theorem opPrefetch_keeps (id : Nat) (w : Work) (sound : BookSound w.book) : BookSound (opPrefetch id w).book := by
  unfold opPrefetch
  (repeat' split) <;> simp [sound]

@[simp] theorem opResetDone_keeps (dom : Nat) (target : Nat) (bad : List (Nat × Nat)) (flushed : Nat) (w : Work) (sound : BookSound w.book) :
    BookSound (opResetDone dom target bad flushed w).book := by
  unfold opResetDone
  (repeat' split) <;> simp [sound]

@[simp] theorem opResetLimitExpire_keeps (dom : Nat) (target : Nat) (w : Work) (sound : BookSound w.book) : BookSound (opResetLimitExpire
    dom target w).book := by
  unfold opResetLimitExpire
  dsimp only
  (repeat' split) <;> simp_all

@[simp] theorem opSamplerRunDone_keeps (id : Nat) (w : Work) (sound : BookSound w.book) : BookSound (opSamplerRunDone id w).book := by
  unfold opSamplerRunDone
  (repeat' split) <;> simp [sound]

@[simp] theorem opScatterAdd_keeps (id : Nat) (w : Work) (sound : BookSound w.book) : BookSound (opScatterAdd id w).book := by
  unfold opScatterAdd
  (repeat' split) <;> simp [sound]

@[simp] theorem opSectionEnd_keeps (id : Nat) (bad : List Nat) (w : Work) (sound : BookSound w.book) : BookSound (opSectionEnd id bad
    w).book := by
  unfold opSectionEnd
  (repeat' split) <;> simp [sound]

@[simp] theorem opSectionGrant_keeps (k : Fin 32) (w : Work) (sound : BookSound w.book) : BookSound (opSectionGrant k w).book := by
  unfold opSectionGrant
  dsimp only
  (repeat' split) <;> simp [sound]

@[simp] theorem opSectionOverrun_keeps (id : Nat) (w : Work) (sound : BookSound w.book) : BookSound (opSectionOverrun id w).book := by
  unfold opSectionOverrun
  dsimp only
  (repeat' split) <;> simp [sound]

@[simp] theorem opStepMark_keeps (id : Nat) (w : Work) (sound : BookSound w.book) : BookSound (opStepMark id w).book := by
  unfold opStepMark
  dsimp only
  (repeat' split) <;> simp [sound]

@[simp] theorem opStreamTrigger_keeps (x : Fin 16) (s : Fin 8) (w : Work) (sound : BookSound w.book) : BookSound (opStreamTrigger x s
    w).book := by
  unfold opStreamTrigger
  dsimp only
  (repeat' split) <;> simp [sound]

@[simp] theorem opSwatchSampleTimeout_keeps (k : Fin 32) (w : Work) (sound : BookSound w.book) : BookSound (opSwatchSampleTimeout k
    w).book := by
  unfold opSwatchSampleTimeout
  (repeat' split) <;> simp [sound]

@[simp] theorem opThermtrip_keeps (dram : Bool) (die : Fin 4) (w : Work) (sound : BookSound w.book) : BookSound (opThermtrip dram die
    w).book := by
  unfold opThermtrip
  split <;> simp [sound]

@[simp] theorem opTileEnd_keeps (k : Fin 32) (st : Stalls) (flips : List (Nat × Nat)) (w : Work) (sound : BookSound w.book) :
    BookSound (opTileEnd k st flips w).book := by
  unfold opTileEnd
  extract_lets k c freed
  split
  · next t h _ _ =>
    split
    · exact sound
    extract_lets st' r own np counted reported src ovf slots ps live src' dig h1 gathered again c2 stored imgs probe probed merged
      recomped h2 done src'' unchained failed pieces ended status
    have reportedKept : BookSound reported.book := by
      refine sound.of_eq (show reported.book = w.book from ?_)
      have same : counted.book = w.book := by
        unfold counted
        rw [Work.runTime_book, Work.countRun_book]
        rfl
      unfold reported
      split
      · exact (foldl_book _ (fun w p => Work.hoopReport_book _ _ _ w) _ _).trans same
      · exact same
    have storedKept : BookSound stored.book := foldl_keeps (fun w p hw => Work.windowWrite_keeps _ _ _ _ _ w hw) _ reportedKept
    have recompedKept : BookSound recomped.book := by
      refine storedKept.of_eq ?_
      have same : probed.book = stored.book := by
        unfold probed
        rw [Work.ite_book, Work.bump_book, ite_self]
      have same' : merged.book = stored.book := by
        unfold merged
        split
        · refine Eq.trans (Work.mapCmd_book _ _ _ ?_) same
          intro m
          rfl
        · exact same
      unfold recomped
      rw [Work.ite_book, Work.bump_book, Work.bump_book, ite_self, same']
    have doneKept : BookSound done.book := Work.coreFree_keeps k _ recompedKept
    have endedKept : BookSound ended.book := Work.chainEnd_keeps k h2 _ doneKept
    split
    · exact sound
    split
    · rw [Work.rotation_book]
      exact Work.coreFree_keeps _ _ ((Work.putCore_keeps _ reportedKept).of_eq (Work.dropRun_book _ _))
    split
    · rw [Work.rotation_book]
      refine Work.putCore_keeps _ (Work.coreFree_keeps _ _ (reportedKept.of_eq ?_))
      unfold gathered
      rw [Work.ite_book, Work.gather_book, ite_self]
    · split
      · rw [Work.rotation_book]
        have unchainedKept : BookSound unchained.book := Work.putCore_keeps _ doneKept
        refine unchainedKept.of_eq ?_
        unfold failed
        split
        · exact Work.setRuns_book _ _
        · rw [Work.tileGone_book, Work.launchFault_book]
      split
      · rw [Work.rotation_book]
        exact endedKept
      split
      next i drawn e =>
      have drawnKept : BookSound drawn.book := by
        have := Work.newId_keeps endedKept
        rw [e] at this
        exact this
      dsimp only
      split
      · rw [Work.rotation_book, Work.tileComplete_book]
        exact drawnKept
      · rw [Work.rotation_book]
        exact drawnKept.of_eq (Work.setSched_book _ _ rfl)
  · exact sound

@[simp] theorem opTileOverrun_keeps (k : Fin 32) (st : Stalls) (w : Work) (sound : BookSound w.book) : BookSound (opTileOverrun k st
    w).book := by
  unfold opTileOverrun
  dsimp only
  (repeat' split) <;> simp_all

@[simp] theorem opTileStart_keeps (k : Fin 32) (bad : Option (Nat × ReadRes)) (w : Work) (sound : BookSound w.book) :
    BookSound (opTileStart k bad w).book := by
  have read : ∀ t : Tile, BookSound (match bad with | some (a, r) => w.readEvents t.ctx a r | none => w).book := by
    intro t
    split
    · exact sound.of_eq (Work.readEvents_book _ _ _ _)
    · exact sound
  unfold opTileStart
  dsimp only
  split
  · next t h _ _ =>
    split
    · exact sound
    split
    · exact Work.tileLoadFail_keeps _ _ _ _ _ _ (read t)
    split
    · simp only [Work.coreNow_book]
      exact Work.putCore_keeps _ (read t)
    have placed : ∀ (c : Core) (v : Work), BookSound v.book → BookSound ((v.putCore c).coreNow k 2 t.ctx).book := by
      intro c v hv
      simp only [Work.coreNow_book]
      exact Work.putCore_keeps c hv
    have loaded := Work.loadSpan_keeps k t h.id t.in1 1 _ (Work.loadSpan_keeps k t h.id t.in0 0 _ (read t))
    split
    · exact placed _ _ loaded
    · exact (placed _ _ loaded).of_eq (Work.noteDispatch_book _ _ _)
  · exact sound

@[simp] theorem opWaitTimeout_keeps (x : Fin 16) (q : Fin 5) (w : Work) (sound : BookSound w.book) : BookSound (opWaitTimeout x q
    w).book := by
  unfold opWaitTimeout
  dsimp only
  (repeat' split) <;> simp [sound]

@[simp] theorem opWinWrite_keeps (fn : Fin 16) (object : Nat) (off : Nat) (data : List Byte) (w : Work) (sound : BookSound w.book) :
    BookSound (opWinWrite fn object off data w).book := by
  unfold opWinWrite
  dsimp only
  (repeat' split) <;> simp_all

@[simp] theorem opWinWriteRead_keeps (fn : Fin 16) (object : Nat) (off : Nat) (data : List Byte) (w : Work) (sound : BookSound w.book) :
    BookSound (opWinWriteRead fn object off data w).book := by
  unfold opWinWriteRead
  dsimp only
  (repeat' split) <;> simp_all

/-- Every command keeps the book sound. -/
theorem work_keeps (i : Instr) {w : Work} (sound : BookSound w.book) : BookSound (work i w).book := by
  cases i with
  | doorbellSqTail => exact sound.of_eq (opDoorbellSqTail_book _ _ _ _ _ w)
  | doorbellCqHead => exact sound.of_eq (opDoorbellCqHead_book _ _ _ _ _ w)
  | evtHost => exact sound.of_eq (opEvtHost_book _ _ _ _ w)
  | patternAdmit => exact opPatternAdmit_keeps _ _ w sound
  | commandStart => exact opCommandStart_keeps _ _ w sound
  | commandComplete => exact opCommandComplete_keeps _ w sound
  | nop => exact sound.of_eq (opNop_book _ w)
  | evtSignal => exact sound.of_eq (opEvtSignal_book _ w)
  | evtWait => exact sound.of_eq (opEvtWait_book _ w)
  | fence => exact sound.of_eq (opFence_book _ w)
  | timerArm => exact sound.of_eq (opTimerArm_book _ w)
  | writeImm => exact sound.of_eq (opWriteImm_book _ w)
  | yield => exact sound.of_eq (opYield_book _ w)
  | stepMark => exact opStepMark_keeps _ w sound
  | tileLaunch => exact sound.of_eq (opTileLaunch_book _ w)
  | copy => exact sound.of_eq (opCopy_book _ w)
  | prefetch => exact opPrefetch_keeps _ w sound
  | cancel => exact sound.of_eq (opCancel_book _ w)
  | gather => exact opGather_keeps _ w sound
  | scatterAdd => exact opScatterAdd_keeps _ w sound
  | allGather => exact sound.of_eq (opAllGather_book _ w)
  | reduceScatter => exact sound.of_eq (opReduceScatter_book _ w)
  | allReduce => exact sound.of_eq (opAllReduce_book _ w)
  | paramGather => exact sound.of_eq (opParamGather_book _ w)
  | send => exact sound.of_eq (opSend_book _ w)
  | recv => exact sound.of_eq (opRecv_book _ w)
  | allReduceC4 => exact sound.of_eq (opAllReduceC4_book _ w)
  | waitTimeout => exact opWaitTimeout_keeps _ _ w sound
  | stepMarkTimeout => exact sound.of_eq (opStepMarkTimeout_book _ w)
  | timerFire => exact sound.of_eq (opTimerFire_book _ _ w)
  | ctxEnable => exact sound.of_eq (opCtxEnable_book _ _ w)
  | ctxDisable => exact sound.of_eq (opCtxDisable_book _ _ w)
  | ctxDisableDone => exact sound.of_eq (opCtxDisableDone_book _ w)
  | ctxResume => exact sound.of_eq (opCtxResume_book _ _ w)
  | qStart => exact sound.of_eq (opQStart_book _ _ _ w)
  | qStop => exact sound.of_eq (opQStop_book _ _ _ w)
  | qResume => exact sound.of_eq (opQResume_book _ _ _ w)
  | qFlush => exact sound.of_eq (opQFlush_book _ _ _ w)
  | qCommit => exact sound.of_eq (opQCommit_book _ _ _ w)
  | qCommitApply => exact sound.of_eq (opQCommitApply_book _ _ w)
  | ctxCommit => exact sound.of_eq (opCtxCommit_book _ _ w)
  | privWrite => exact sound.of_eq (opPrivWrite_book _ _ _ w)
  | segTableWrite => exact sound.of_eq (opSegTableWrite_book _ _ _ _ w)
  | segCommit => exact sound.of_eq (opSegCommit_book _ _ w)
  | segCommitApplied => exact sound.of_eq (opSegCommitApplied_book _ w)
  | coreAssign => exact opCoreAssign_keeps _ _ _ w sound
  | tileStart => exact opTileStart_keeps _ _ w sound
  | tileEnd => exact opTileEnd_keeps _ _ _ w sound
  | tileOverrun => exact opTileOverrun_keeps _ _ w sound
  | tileStoreDone => exact sound.of_eq (opTileStoreDone_book _ w)
  | sliceExpire => exact sound.of_eq (opSliceExpire_book _ w)
  | sectionGrant => exact opSectionGrant_keeps _ w sound
  | sectionEnd => exact opSectionEnd_keeps _ _ w sound
  | sectionOverrun => exact opSectionOverrun_keeps _ w sound
  | fenceSw => exact opFenceSw_keeps _ _ w sound
  | bobbinSectorLand => exact sound.of_eq (opBobbinSectorLand_book _ _ _ _ w)
  | prefetchWaitTimeout => exact sound.of_eq (opPrefetchWaitTimeout_book _ w)
  | pbCommit => exact sound.of_eq (opPbCommit_book _ _ w)
  | pbCommitApply => exact sound.of_eq (opPbCommitApply_book _ w)
  | streamRearm => exact sound.of_eq (opStreamRearm_book _ _ _ w)
  | streamTrigger => exact opStreamTrigger_keeps _ _ w sound
  | streamXferDone => exact sound.of_eq (opStreamXferDone_book _ _ w)
  | streamDeadlineMiss => exact sound.of_eq (opStreamDeadlineMiss_book _ _ w)
  | packCommit => exact sound.of_eq (opPackCommit_book _ _ _ w)
  | nearScrub => exact sound.of_eq (opNearScrub_book _ _ w)
  | extReadReturn => exact opExtReadReturn_keeps _ _ _ w sound
  | extScrub => exact sound.of_eq (opExtScrub_book _ _ _ w)
  | couchWrite => exact sound.of_eq (opCouchWrite_book _ _ _ w)
  | couchRetire => exact sound.of_eq (opCouchRetire_book _ _ _ _ w)
  | regulatorRequest => exact sound.of_eq (opRegulatorRequest_book _ _ _ _ _ w)
  | regulatorRetry => exact sound.of_eq (opRegulatorRetry_book _ _ _ w)
  | regulatorShareUpdate => exact sound.of_eq (opRegulatorShareUpdate_book w)
  | spillPoolCommit => exact sound.of_eq (opSpillPoolCommit_book _ w)
  | spillReq => exact sound.of_eq (opSpillReq_book _ _ _ w)
  | spillHoldTimeout => exact sound.of_eq (opSpillHoldTimeout_book _ w)
  | spillCopyDone => exact sound.of_eq (opSpillCopyDone_book _ w)
  | fillReq => exact sound.of_eq (opFillReq_book _ _ _ w)
  | dramTempPoll => exact sound.of_eq (opDramTempPoll_book _ _ w)
  | couchDrainTimeout => exact sound.of_eq (opCouchDrainTimeout_book _ _ w)
  | memTrainingDone => exact sound.of_eq (opMemTrainingDone_book _ _ _ _ w)
  | picotLockGrant => exact sound.of_eq (opPicotLockGrant_book _ _ w)
  | portsCommit => exact sound.of_eq (opPortsCommit_book _ _ w)
  | portsCommitApply => exact sound.of_eq (opPortsCommitApply_book _ w)
  | linkSignalDetect => exact sound.of_eq (opLinkSignalDetect_book _ w)
  | linkUp => exact sound.of_eq (opLinkUp_book _ w)
  | linkDown => exact sound.of_eq (opLinkDown_book _ w)
  | linkDegraded => exact sound.of_eq (opLinkDegraded_book _ _ _ _ w)
  | linkDegradeClear => exact sound.of_eq (opLinkDegradeClear_book _ w)
  | ethFrameBad => exact sound.of_eq (opEthFrameBad_book _ _ w)
  | exbDataRx => exact opExbDataRx_keeps _ w sound
  | exbAckRx => exact sound.of_eq (opExbAckRx_book _ w)
  | exbOpenRx => exact sound.of_eq (opExbOpenRx_book _ w)
  | exbOpenAckRx => exact sound.of_eq (opExbOpenAckRx_book _ w)
  | exbRejectRx => exact sound.of_eq (opExbRejectRx_book _ w)
  | exbProbeRx => exact sound.of_eq (opExbProbeRx_book _ w)
  | exbProbeReplyRx => exact sound.of_eq (opExbProbeReplyRx_book _ w)
  | exbStaleRx => exact sound.of_eq (opExbStaleRx_book _ w)
  | exbCloseRx => exact sound.of_eq (opExbCloseRx_book _ w)
  | exbStaleSessionRx => exact sound.of_eq (opExbStaleSessionRx_book _ w)
  | exbDataTx => exact sound.of_eq (opExbDataTx_book _ _ w)
  | exbAckDelayExpire => exact sound.of_eq (opExbAckDelayExpire_book _ w)
  | exbRtoExpire => exact sound.of_eq (opExbRtoExpire_book _ _ w)
  | exbProbeIdleExpire => exact sound.of_eq (opExbProbeIdleExpire_book _ w)
  | exbLossTimeout => exact sound.of_eq (opExbLossTimeout_book _ w)
  | exbOpenResend => exact sound.of_eq (opExbOpenResend_book _ w)
  | exbRejectRetry => exact sound.of_eq (opExbRejectRetry_book _ w)
  | exbRnrExpire => exact sound.of_eq (opExbRnrExpire_book _ _ w)
  | exbRateIncrease => exact sound.of_eq (opExbRateIncrease_book _ w)
  | peerCommit => exact sound.of_eq (opPeerCommit_book _ w)
  | ptpAnnounceRx => exact sound.of_eq (opPtpAnnounceRx_book _ _ w)
  | ptpSyncRx => exact sound.of_eq (opPtpSyncRx_book _ _ _ _ _ _ w)
  | ptpFollowUpRx => exact sound.of_eq (opPtpFollowUpRx_book _ _ _ _ _ w)
  | ptpDelayReqTx => exact sound.of_eq (opPtpDelayReqTx_book w)
  | ptpDelayRespRx => exact sound.of_eq (opPtpDelayRespRx_book _ _ _ _ _ w)
  | ptpHoldover => exact sound.of_eq (opPtpHoldover_book w)
  | plaitChunkLand => exact opPlaitChunkLand_keeps _ _ w sound
  | plaitStallTimeout => exact sound.of_eq (opPlaitStallTimeout_book _ _ w)
  | plaitNoStartTimeout => exact sound.of_eq (opPlaitNoStartTimeout_book _ _ w)
  | plaitAbortNoticeRx => exact sound.of_eq (opPlaitAbortNoticeRx_book _ w)
  | groupCommit => exact sound.of_eq (opGroupCommit_book _ w)
  | groupCommitApply => exact sound.of_eq (opGroupCommitApply_book w)
  | loadCommit => exact sound.of_eq (opLoadCommit_book _ w)
  | loadStart => exact sound.of_eq (opLoadStart_book w)
  | shardLanded => exact sound.of_eq (opShardLanded_book _ w)
  | shardHashDone => exact sound.of_eq (opShardHashDone_book _ w)
  | shardAttemptTimeout => exact sound.of_eq (opShardAttemptTimeout_book _ w)
  | loaderShardRx => exact sound.of_eq (opLoaderShardRx_book _ w)
  | loaderRefetchRx => exact sound.of_eq (opLoaderRefetchRx_book _ w)
  | loaderUnavailRx => exact sound.of_eq (opLoaderUnavailRx_book _ w)
  | activate => exact sound.of_eq (opActivate_book _ _ w)
  | admitPauseTick => exact sound.of_eq (opAdmitPauseTick_book _ _ w)
  | swap => exact sound.of_eq (opSwap_book _ w)
  | swapExchangeDone => exact sound.of_eq (opSwapExchangeDone_book _ w)
  | slotCommit => exact sound.of_eq (opSlotCommit_book _ _ w)
  | slotFlush => exact sound.of_eq (opSlotFlush_book _ _ w)
  | bindCommit => exact sound.of_eq (opBindCommit_book _ _ w)
  | bindCommitApply => exact sound.of_eq (opBindCommitApply_book _ w)
  | addSwap => exact sound.of_eq (opAddSwap_book _ _ w)
  | arenaCommit => exact sound.of_eq (opArenaCommit_book _ w)
  | seqJoin => exact opSeqJoin_keeps _ _ _ w sound
  | seqLeave => exact sound.of_eq (opSeqLeave_book _ _ _ w)
  | seqGrow => exact sound.of_eq (opSeqGrow_book _ _ _ w)
  | mirCommit => exact sound.of_eq (opMirCommit_book _ _ w)
  | mirDevCommit => exact sound.of_eq (opMirDevCommit_book _ w)
  | mirDevCommitApply => exact sound.of_eq (opMirDevCommitApply_book w)
  | mirrorWaitExpire => exact sound.of_eq (opMirrorWaitExpire_book _ w)
  | mirrorHashDone => exact sound.of_eq (opMirrorHashDone_book _ _ w)
  | pairingHeaderRx => exact sound.of_eq (opPairingHeaderRx_book _ w)
  | pairingDataRx id => exact sound.of_eq (opPairingDataRx_book id w)
  | pairingRestoreReqRx => exact sound.of_eq (opPairingRestoreReqRx_book _ w)
  | pairingRestoreDataRx => exact sound.of_eq (opPairingRestoreDataRx_book _ w)
  | pairingRestoreHdrRx => exact sound.of_eq (opPairingRestoreHdrRx_book _ w)
  | pairingRestoreNoneRx => exact sound.of_eq (opPairingRestoreNoneRx_book _ w)
  | restoreReq => exact sound.of_eq (opRestoreReq_book _ _ _ w)
  | restoreDone => exact sound.of_eq (opRestoreDone_book _ w)
  | samplerRunDone => exact opSamplerRunDone_keeps _ w sound
  | samplerLagDrop => exact sound.of_eq (opSamplerLagDrop_book _ w)
  | katPeriod => exact opKatPeriod_keeps _ _ w sound
  | healthScoreTick => exact sound.of_eq (opHealthScoreTick_book w)
  | probationEnd => exact sound.of_eq (opProbationEnd_book w)
  | healthReport => exact sound.of_eq (opHealthReport_book w)
  | healthClear => exact sound.of_eq (opHealthClear_book _ _ w)
  | fenceFwClear => exact opFenceFwClear_keeps _ _ w sound
  | mirFree => exact sound.of_eq (opMirFree_book _ _ w)
  | ovhWindow => exact sound.of_eq (opOvhWindow_book w)
  | engineWdtFire => exact opEngineWdtFire_keeps _ _ w sound
  | coreWdtFire => exact opCoreWdtFire_keeps _ w sound
  | ctxWdtFire => exact opCtxWdtFire_keeps _ w sound
  | memWdtFire => exact opMemWdtFire_keeps _ w sound
  | fwWdtFire => exact opFwWdtFire_keeps w sound
  | engineReset => exact opEngineReset_keeps _ _ w sound
  | coreReset => exact opCoreReset_keeps _ _ w sound
  | ctxReset => exact opCtxReset_keeps _ _ w sound
  | dieReset => exact opDieReset_keeps _ _ w sound
  | deviceReset => exact opDeviceReset_keeps _ w sound
  | resetLimitExpire => exact opResetLimitExpire_keeps _ _ w sound
  | swatchSampleTimeout => exact opSwatchSampleTimeout_keeps _ w sound
  | resetDone => exact opResetDone_keeps _ _ _ _ w sound
  | xqRetryResend => exact sound.of_eq (opXqRetryResend_book _ w)
  | timeSample => exact sound.of_eq (opTimeSample_book _ w)
  | dvfsDecision => exact sound.of_eq (opDvfsDecision_book _ _ w)
  | pllLocked => exact sound.of_eq (opPllLocked_book _ w)
  | setpointReached => exact sound.of_eq (opSetpointReached_book _ w)
  | dvfsCommit => exact sound.of_eq (opDvfsCommit_book _ w)
  | fwDecision => exact sound.of_eq (opFwDecision_book _ _ _ w)
  | winRead => exact sound.of_eq (opWinRead_book _ _ _ _ _ w)
  | winWrite => exact opWinWrite_keeps _ _ _ _ w sound
  | winWriteRead => exact opWinWriteRead_keeps _ _ _ _ w sound
  | winOpDone => exact sound.of_eq (opWinOpDone_book _ w)
  | objectWrite => exact opObjectWrite_keeps _ _ _ _ w sound
  | hokHelloRx => exact sound.of_eq (opHokHelloRx_book _ w)
  | hokRequestRx => exact opHokRequestRx_keeps _ w sound
  | hokNotifyAckRx => exact sound.of_eq (opHokNotifyAckRx_book _ w)
  | hokCloseRx => exact sound.of_eq (opHokCloseRx_book _ w)
  | hokIdleTimeout => exact sound.of_eq (opHokIdleTimeout_book _ w)
  | notifyResend => exact sound.of_eq (opNotifyResend_book _ _ w)
  | mgmtFrameRx => exact sound.of_eq (opMgmtFrameRx_book _ w)
  | hokCommit => exact sound.of_eq (opHokCommit_book _ w)
  | mgmtCommit => exact sound.of_eq (opMgmtCommit_book _ w)
  | notifyCommit => exact sound.of_eq (opNotifyCommit_book _ w)
  | storeWrite => exact sound.of_eq (opStoreWrite_book _ _ w)
  | storeErase => exact sound.of_eq (opStoreErase_book _ _ _ w)
  | logClear => exact sound.of_eq (opLogClear_book _ w)
  | logReadSeqWrite => exact sound.of_eq (opLogReadSeqWrite_book _ _ w)
  | logDropped => exact sound.of_eq (opLogDropped_book w)
  | hostCplRx => exact opHostCplRx_keeps _ _ _ w sound
  | hostCplTimeout => exact opHostCplTimeout_keeps _ _ w sound
  | flrVf => exact opFlrVf_keeps _ w sound
  | flrPf => exact opFlrPf_keeps w sound
  | pciePerst => exact opPciePerst_keeps w sound
  | hostLinkChanged => exact sound.of_eq (opHostLinkChanged_book _ _ _ w)
  | coldResetRelease => exact sound.of_eq (opColdResetRelease_book _ _ _ w)
  | fwVerifyDone => exact opFwVerifyDone_keeps _ w sound
  | diePowerDone => exact sound.of_eq (opDiePowerDone_book _ _ w)
  | memTrainDone => exact sound.of_eq (opMemTrainDone_book _ _ _ w)
  | deviceReady => exact opDeviceReady_keeps _ _ w sound
  | fwStage => exact sound.of_eq (opFwStage_book _ _ _ w)
  | fwStageCommit => exact sound.of_eq (opFwStageCommit_book _ w)
  | fwStageVerifyDone => exact opFwStageVerifyDone_keeps _ w sound
  | fwSvnCommit => exact sound.of_eq (opFwSvnCommit_book _ w)
  | attestReq => exact sound.of_eq (opAttestReq_book _ _ w)
  | attestDone => exact sound.of_eq (opAttestDone_book _ w)
  | entropyFailed => exact sound.of_eq (opEntropyFailed_book w)
  | entropyRetest => exact sound.of_eq (opEntropyRetest_book _ w)
  | coldRstAssert => exact opColdRstAssert_keeps w sound
  | inputLow => exact sound.of_eq (opInputLow_book _ w)
  | inputHigh => exact sound.of_eq (opInputHigh_book _ w)
  | p48vTrip => exact opP48vTrip_keeps _ w sound
  | p12vSbLoss => exact opP12vSbLoss_keeps w sound
  | throttleDecision => exact sound.of_eq (opThrottleDecision_book _ w)
  | fastThrottle => exact sound.of_eq (opFastThrottle_book _ _ w)
  | fastThrottleRelease => exact sound.of_eq (opFastThrottleRelease_book w)
  | thermtrip => exact opThermtrip_keeps _ _ w sound
  | tapReset => exact sound.of_eq (opTapReset_book _ w)
  | extest => exact sound.of_eq (opExtest_book _ _ w)
  | samplePreload => exact sound.of_eq (opSamplePreload_book _ _ w)
  | clamp => exact sound.of_eq (opClamp_book w)
  | idcode => exact sound.of_eq (opIdcode_book w)
  | highz => exact sound.of_eq (opHighz_book w)
  | usercode => exact sound.of_eq (opUsercode_book w)
  | extestPulse => exact sound.of_eq (opExtestPulse_book _ _ w)
  | extestTrain => exact sound.of_eq (opExtestTrain_book _ _ w)
  | bypass => exact sound.of_eq (opBypass_book _ w)
  | picotRowReturn => exact sound.of_eq (opPicotRowReturn_book _ _ _ w)
  | mgmtLinkUp => exact sound.of_eq (opMgmtLinkUp_book w)
  | mgmtLinkDown => exact sound.of_eq (opMgmtLinkDown_book w)
  | p48vInRange => exact sound.of_eq (opP48vInRange_book w)

/-! ### The book of a state -/

theorem Dev.core_getElem {w : Dev} {k : Nat} (h : k < w.sched.cores.length) : w.core k = w.sched.cores[k] := by
  unfold Dev.core
  rw [List.getD_eq_getElem?_getD, List.getElem?_eq_getElem h]
  rfl

/-- The cores of a sound book are 32, each under its own number. -/
theorem State.sound_iff (s : State) : s.Sound ↔ BookSound s.book := by
  have numbered : (s.sched.cores.length = 32 ∧ ∀ k, k < 32 → (s.core k).k = k) ↔ s.sched.cores.map (fun c => c.k) = List.range 32 := by
    constructor
    · intro h
      obtain ⟨len, own⟩ := h
      refine List.ext_getElem (by simpa using len) (fun i h1 h2 => ?_)
      have h := own i (by simpa using h2)
      rw [Dev.core_getElem (by simpa using h1)] at h
      simpa using h
    · intro e
      have len : s.sched.cores.length = 32 := by simpa using congrArg List.length e
      refine ⟨len, fun k hk => ?_⟩
      have h := List.getElem_of_eq e (i := k) (by simpa [len] using hk)
      rw [Dev.core_getElem (by omega)]
      simpa using h
  unfold State.Sound BookSound
  rw [← and_assoc, numbered]
  refine and_congr Iff.rfl (and_congr Iff.rfl ?_)
  show (∀ c ∈ s.q.cmds, c.id < s.nextId) ↔ ∀ i ∈ s.q.cmds.map (fun c => c.id), i < s.nextId
  exact (List.forall_mem_map (P := fun i => i < s.nextId)).symm

/-- What a command found of the memory's errors is no part of the book. -/
theorem Dev.heal_book (w : Dev) (out : List MemWrite) : (w.heal out).book = w.book := by
  unfold Dev.heal
  split
  · rfl
  · rfl

/-- A command that keeps books sound keeps the state's. -/
theorem State.after_sound {s : State} {f : Work → Work} (kept : ∀ w : Work, BookSound w.book → BookSound (f w).book) (sound : s.Sound) :
    (s.after f).Sound := by
  rw [State.sound_iff] at sound ⊢
  show BookSound ((f s.work).toDev.heal (f s.work).out).book
  rw [Dev.heal_book]
  exact kept s.work sound

/-- Settles O5: of the device, a command may change the book only by cores put under their own numbers, by commands that leave, and by
commands that start under an identity drawn for them. -/
theorem stepKeepsTheBookkeeping : Obligations.StepKeepsTheBookkeeping := by
  unfold Obligations.StepKeepsTheBookkeeping
  intro s t sound h
  rcases step_cases h with rfl | rfl | ⟨i, rest, rfl, _⟩
  · exact sound
  · exact State.after_sound (fun w hw => hw.of_eq (Work.tick_book w)) sound
  · exact State.after_sound (s := { s with pending := rest }) (fun w hw => work_keeps i hw) sound

end Sys2Proof.Machine

namespace Sys2Proof.Machine

/-! ### Commands that write no memory -/

/-- The state that work leaves when it writes no memory. -/
def State.leave (s : State) (w : Work) : State := { toDev := w.toDev, mem := s.mem, pending := s.pending }

@[simp] theorem State.leave_toDev (s : State) (w : Work) : (s.leave w).toDev = w.toDev := rfl

theorem State.sameMem_leave (s : State) (w : Work) : s.SameMem (s.leave w) := fun _ => rfl

/-- A command whose work writes no memory answers the device that the work leaves. -/
theorem exec_quiet {i : Instr} {s : State} (h : (Machine.work i s.work).out = s.work.out) :
    exec i s = .next (s.leave (Machine.work i s.work)) := by
  rw [exec_work]
  exact s.run_quiet _ h

/-- The same where the work is known. -/
theorem exec_leave {i : Instr} {s : State} {w : Work} (e : Machine.work i s.work = w) (h : w.out = s.work.out) :
    exec i s = .next (s.leave w) := by
  rw [exec_quiet (by rw [e, h]), e]

/-! ### The state after a command that may write memory -/

/-- A command whose writes are mapped answers the state after its work. -/
theorem exec_sound {i : Instr} {s : State} (h : (Machine.work i s.work).Sound) : exec i s = .next (s.after (Machine.work i)) := by
  rw [exec_work]
  exact s.run_sound _ h

@[simp] theorem Dev.heal_time (w : Dev) (out : List MemWrite) : (w.heal out).time = w.time := by
  unfold Dev.heal
  split <;> rfl
@[simp] theorem Dev.heal_obj (w : Dev) (out : List MemWrite) : (w.heal out).obj = w.obj := by
  unfold Dev.heal
  split <;> rfl
@[simp] theorem Dev.heal_objS (w : Dev) (out : List MemWrite) : (w.heal out).objS = w.objS := by
  unfold Dev.heal
  split <;> rfl
@[simp] theorem Dev.heal_objP (w : Dev) (out : List MemWrite) : (w.heal out).objP = w.objP := by
  unfold Dev.heal
  split <;> rfl
@[simp] theorem Dev.heal_blob (w : Dev) (out : List MemWrite) : (w.heal out).blob = w.blob := by
  unfold Dev.heal
  split <;> rfl
@[simp] theorem Dev.heal_blobS (w : Dev) (out : List MemWrite) : (w.heal out).blobS = w.blobS := by
  unfold Dev.heal
  split <;> rfl
@[simp] theorem Dev.heal_blobP (w : Dev) (out : List MemWrite) : (w.heal out).blobP = w.blobP := by
  unfold Dev.heal
  split <;> rfl
@[simp] theorem Dev.heal_log (w : Dev) (out : List MemWrite) : (w.heal out).log = w.log := by
  unfold Dev.heal
  split <;> rfl
@[simp] theorem Dev.heal_sent (w : Dev) (out : List MemWrite) : (w.heal out).sent = w.sent := by
  unfold Dev.heal
  split <;> rfl
@[simp] theorem Dev.heal_nextId (w : Dev) (out : List MemWrite) : (w.heal out).nextId = w.nextId := by
  unfold Dev.heal
  split <;> rfl
@[simp] theorem Dev.heal_free (w : Dev) (out : List MemWrite) : (w.heal out).free = w.free := by
  unfold Dev.heal
  split <;> rfl
@[simp] theorem Dev.heal_pcie (w : Dev) (out : List MemWrite) : (w.heal out).pcie = w.pcie := by
  unfold Dev.heal
  split <;> rfl
@[simp] theorem Dev.heal_q (w : Dev) (out : List MemWrite) : (w.heal out).q = w.q := by
  unfold Dev.heal
  split <;> rfl
@[simp] theorem Dev.heal_bob (w : Dev) (out : List MemWrite) : (w.heal out).bob = w.bob := by
  unfold Dev.heal
  split <;> rfl
@[simp] theorem Dev.heal_hoop (w : Dev) (out : List MemWrite) : (w.heal out).hoop = w.hoop := by
  unfold Dev.heal
  split <;> rfl
@[simp] theorem Dev.heal_sched (w : Dev) (out : List MemWrite) : (w.heal out).sched = w.sched := by
  unfold Dev.heal
  split <;> rfl
@[simp] theorem Dev.heal_picot (w : Dev) (out : List MemWrite) : (w.heal out).picot = w.picot := by
  unfold Dev.heal
  split <;> rfl
@[simp] theorem Dev.heal_net (w : Dev) (out : List MemWrite) : (w.heal out).net = w.net := by
  unfold Dev.heal
  split <;> rfl
@[simp] theorem Dev.heal_plait (w : Dev) (out : List MemWrite) : (w.heal out).plait = w.plait := by
  unfold Dev.heal
  split <;> rfl
@[simp] theorem Dev.heal_dict (w : Dev) (out : List MemWrite) : (w.heal out).dict = w.dict := by
  unfold Dev.heal
  split <;> rfl
@[simp] theorem Dev.heal_arena (w : Dev) (out : List MemWrite) : (w.heal out).arena = w.arena := by
  unfold Dev.heal
  split <;> rfl
@[simp] theorem Dev.heal_life (w : Dev) (out : List MemWrite) : (w.heal out).life = w.life := by
  unfold Dev.heal
  split <;> rfl
@[simp] theorem Dev.heal_pair (w : Dev) (out : List MemWrite) : (w.heal out).pair = w.pair := by
  unfold Dev.heal
  split <;> rfl
@[simp] theorem Dev.heal_health (w : Dev) (out : List MemWrite) : (w.heal out).health = w.health := by
  unfold Dev.heal
  split <;> rfl
@[simp] theorem Dev.heal_rst (w : Dev) (out : List MemWrite) : (w.heal out).rst = w.rst := by
  unfold Dev.heal
  split <;> rfl
@[simp] theorem Dev.heal_boot (w : Dev) (out : List MemWrite) : (w.heal out).boot = w.boot := by
  unfold Dev.heal
  split <;> rfl
@[simp] theorem Dev.heal_clk (w : Dev) (out : List MemWrite) : (w.heal out).clk = w.clk := by
  unfold Dev.heal
  split <;> rfl

@[simp] theorem State.after_time (s : State) (f : Work → Work) : (s.after f).time = (f s.work).time := Dev.heal_time _ _
@[simp] theorem State.after_obj (s : State) (f : Work → Work) : (s.after f).obj = (f s.work).obj := Dev.heal_obj _ _
@[simp] theorem State.after_objS (s : State) (f : Work → Work) : (s.after f).objS = (f s.work).objS := Dev.heal_objS _ _
@[simp] theorem State.after_objP (s : State) (f : Work → Work) : (s.after f).objP = (f s.work).objP := Dev.heal_objP _ _
@[simp] theorem State.after_blob (s : State) (f : Work → Work) : (s.after f).blob = (f s.work).blob := Dev.heal_blob _ _
@[simp] theorem State.after_blobS (s : State) (f : Work → Work) : (s.after f).blobS = (f s.work).blobS := Dev.heal_blobS _ _
@[simp] theorem State.after_blobP (s : State) (f : Work → Work) : (s.after f).blobP = (f s.work).blobP := Dev.heal_blobP _ _
@[simp] theorem State.after_log (s : State) (f : Work → Work) : (s.after f).log = (f s.work).log := Dev.heal_log _ _
@[simp] theorem State.after_sent (s : State) (f : Work → Work) : (s.after f).sent = (f s.work).sent := Dev.heal_sent _ _
@[simp] theorem State.after_nextId (s : State) (f : Work → Work) : (s.after f).nextId = (f s.work).nextId := Dev.heal_nextId _ _
@[simp] theorem State.after_free (s : State) (f : Work → Work) : (s.after f).free = (f s.work).free := Dev.heal_free _ _
@[simp] theorem State.after_pcie (s : State) (f : Work → Work) : (s.after f).pcie = (f s.work).pcie := Dev.heal_pcie _ _
@[simp] theorem State.after_q (s : State) (f : Work → Work) : (s.after f).q = (f s.work).q := Dev.heal_q _ _
@[simp] theorem State.after_bob (s : State) (f : Work → Work) : (s.after f).bob = (f s.work).bob := Dev.heal_bob _ _
@[simp] theorem State.after_hoop (s : State) (f : Work → Work) : (s.after f).hoop = (f s.work).hoop := Dev.heal_hoop _ _
@[simp] theorem State.after_sched (s : State) (f : Work → Work) : (s.after f).sched = (f s.work).sched := Dev.heal_sched _ _
@[simp] theorem State.after_picot (s : State) (f : Work → Work) : (s.after f).picot = (f s.work).picot := Dev.heal_picot _ _
@[simp] theorem State.after_net (s : State) (f : Work → Work) : (s.after f).net = (f s.work).net := Dev.heal_net _ _
@[simp] theorem State.after_plait (s : State) (f : Work → Work) : (s.after f).plait = (f s.work).plait := Dev.heal_plait _ _
@[simp] theorem State.after_dict (s : State) (f : Work → Work) : (s.after f).dict = (f s.work).dict := Dev.heal_dict _ _
@[simp] theorem State.after_arena (s : State) (f : Work → Work) : (s.after f).arena = (f s.work).arena := Dev.heal_arena _ _
@[simp] theorem State.after_life (s : State) (f : Work → Work) : (s.after f).life = (f s.work).life := Dev.heal_life _ _
@[simp] theorem State.after_pair (s : State) (f : Work → Work) : (s.after f).pair = (f s.work).pair := Dev.heal_pair _ _
@[simp] theorem State.after_health (s : State) (f : Work → Work) : (s.after f).health = (f s.work).health := Dev.heal_health _ _
@[simp] theorem State.after_rst (s : State) (f : Work → Work) : (s.after f).rst = (f s.work).rst := Dev.heal_rst _ _
@[simp] theorem State.after_boot (s : State) (f : Work → Work) : (s.after f).boot = (f s.work).boot := Dev.heal_boot _ _
@[simp] theorem State.after_clk (s : State) (f : Work → Work) : (s.after f).clk = (f s.work).clk := Dev.heal_clk _ _

/-! ### What the log unit changes -/

/-- What a record handed to the log unit may change (R514 to R516): the unit's own state and objects, and what is on the wire; the count
of notifications lost does not fall below a value it can hold. -/
structure Work.Logs (w w' : Work) : Prop where
  rest : ∃ o l m, w' = { w with obj := o, log := l, sent := m }
  get : ∀ n, n ∉ logObjs → w'.get n = w.get n
  lost : ∀ k, k ≤ maxU 64 → k ≤ w.get Obj.notifyLost → k ≤ w'.get Obj.notifyLost

theorem Work.Logs.refl (w : Work) : w.Logs w := ⟨⟨_, _, _, rfl⟩, fun _ _ => rfl, fun _ _ h => h⟩

theorem Work.Logs.trans {a b c : Work} (h : a.Logs b) (h' : b.Logs c) : a.Logs c := by
  refine ⟨?_, fun n hn => (h'.get n hn).trans (h.get n hn), fun k hk hl => h'.lost k hk (h.lost k hk hl)⟩
  obtain ⟨o, l, m, rfl⟩ := h.rest
  obtain ⟨o', l', m', rfl⟩ := h'.rest
  exact ⟨o', l', m', rfl⟩

/-- A new state of the log unit. -/
theorem Work.logs_setLog (w : Work) (l : LogState) : w.Logs { w with log := l } :=
  ⟨⟨_, _, _, rfl⟩, fun _ _ => rfl, fun _ _ h => h⟩

theorem Work.logs_send (w : Work) (m : OutMsg) : w.Logs (w.send m) :=
  ⟨⟨_, _, _, rfl⟩, fun _ _ => rfl, fun _ _ h => h⟩

/-- An object of the log unit other than the count of notifications lost. -/
theorem Work.logs_put {n : Nat} (w : Work) (v : Nat) (h : n ∈ logObjs) (other : Obj.notifyLost ≠ n) : w.Logs (w.put n v) := by
  refine ⟨⟨_, _, _, rfl⟩, fun j hj => ?_, fun k _ hl => ?_⟩
  · exact Work.put_get_other v w (by rintro rfl; exact hj h)
  · rwa [Work.put_get_other v w other]

/-- A counter of the log unit rises. -/
theorem Work.logs_bump {n : Nat} (w : Work) (k : Nat) (h : n ∈ logObjs) : w.Logs (w.bump n k) := by
  refine ⟨⟨_, _, _, rfl⟩, fun j hj => ?_, fun i hi hl => ?_⟩
  · rw [Work.bump_get, if_neg (by rintro rfl; exact hj h)]
  · rw [Work.bump_get]
    split
    · next e => exact Nat.le_min.mpr ⟨by rw [← e]; omega, hi⟩
    · exact hl

theorem Work.logs_mgmtSend (w : Work) (m : OutMsg) : w.Logs (w.mgmtSend m) := by
  unfold Work.mgmtSend
  split
  · exact (w.logs_bump 1 (by decide)).trans (Work.logs_send _ _)
  · exact .refl w

theorem Work.logs_notifyTx (w : Work) (i seq kind : Nat) (body : List Nat) : w.Logs (w.notifyTx i seq kind body) := by
  unfold Work.notifyTx
  exact w.logs_mgmtSend _

theorem Work.logs_notifyOne (w : Work) (i kind : Nat) (body : List Nat) : w.Logs (w.notifyOne i kind body).2 := by
  unfold Work.notifyOne
  split
  split
  · exact .refl w
  extract_lets sec ses cur cnt sgn room seq rate lg
  split
  · exact (w.logs_setLog _).trans (Work.logs_notifyTx _ _ _ _ _)
  · exact w.logs_bump 1 (by decide)

theorem Work.logs_notifyAll (w : Work) (kind : Nat) (body : List Nat) : w.Logs (w.notifyAll kind body).2 := by
  have each : ∀ n (p : Option Nat × Work), w.Logs p.2 → w.Logs (forUpto (fun i p =>
      match p.2.notifyOne i kind body with | (true, w) => (some i, w) | (false, w) => (p.1, w)) n p).2 := by
    intro n
    induction n with
    | zero => exact fun _ h => h
    | succ n ih =>
      intro p h
      have before := ih p h
      unfold forUpto
      have one := Work.logs_notifyOne (forUpto (fun i p =>
        match p.2.notifyOne i kind body with | (true, w) => (some i, w) | (false, w) => (p.1, w)) n p).2 n kind body
      split
      · next e => rw [e] at one; exact before.trans one
      · next e => rw [e] at one; exact before.trans one
  exact each 4 (none, w) (.refl w)

theorem Work.logs_of_notifyAll {kind : Nat} {body : List Nat} {o : Option Nat} {w w' : Work} (e : w.notifyAll kind body = (o, w')) :
    w.Logs w' := by
  have h := w.logs_notifyAll kind body
  rw [e] at h
  exact h

theorem Work.logs_logRec (w : Work) (code ctx source detail extra : Nat) : w.Logs (w.logRec code ctx source detail extra).2 :=
  ((w.logs_setLog _).trans (Work.logs_put _ _ (by decide) (by decide))).trans (Work.logs_put _ _ (by decide) (by decide))

theorem Work.logs_logUnit (n code ctx source detail extra : Nat) (w : Work) : w.Logs (w.logUnit n code ctx source detail extra) := by
  induction n generalizing code ctx source detail extra w with
  | zero => exact .refl w
  | succ n ih =>
    unfold Work.logUnit
    split
    · dsimp only
      have written := (w.logs_setLog { w.log with fill := 4096 - w.logRoom + 1, fillAt := w.time / 250 }).trans
        (Work.logs_logRec _ code ctx source detail extra)
      split
      · split
        · next e =>
          have told := written.trans (Work.logs_of_notifyAll e)
          split
          · exact (told.trans (Work.logs_setLog _ _)).trans (ih _ _ _ _ _ _)
          · exact told
        · next e => exact written.trans (Work.logs_of_notifyAll e)
      · exact written
    · exact (w.logs_setLog _).trans (Work.logs_bump _ 1 (by decide))

theorem Work.logs_log1 (w : Work) (code ctx source detail extra : Nat) : w.Logs (w.log1 code ctx source detail extra) :=
  Work.logs_logUnit 3 code ctx source detail extra w

theorem Work.logs_event (w : Work) (code ctx source detail : Nat) : w.Logs (w.event code ctx source detail) :=
  w.logs_log1 code ctx source detail 0

theorem Work.logs_rateMark (w : Work) (key : Nat) : w.Logs (w.rateMark key) := w.logs_setLog _

theorem Work.logs_eventLimited (w : Work) (key gap code ctx source detail : Nat) :
    w.Logs (w.eventLimited key gap code ctx source detail) := by
  unfold Work.eventLimited
  split
  · exact (w.logs_rateMark key).trans (Work.logs_event _ _ _ _ _)
  · exact .refl w

/-! ### Rules for records: one per field -/

theorem Work.Logs.time {w w' : Work} (h : w.Logs w') : w'.time = w.time := by
  obtain ⟨_, _, _, rfl⟩ := h.rest
  rfl
theorem Work.Logs.objS {w w' : Work} (h : w.Logs w') : w'.objS = w.objS := by
  obtain ⟨_, _, _, rfl⟩ := h.rest
  rfl
theorem Work.Logs.objP {w w' : Work} (h : w.Logs w') : w'.objP = w.objP := by
  obtain ⟨_, _, _, rfl⟩ := h.rest
  rfl
theorem Work.Logs.blob {w w' : Work} (h : w.Logs w') : w'.blob = w.blob := by
  obtain ⟨_, _, _, rfl⟩ := h.rest
  rfl
theorem Work.Logs.blobS {w w' : Work} (h : w.Logs w') : w'.blobS = w.blobS := by
  obtain ⟨_, _, _, rfl⟩ := h.rest
  rfl
theorem Work.Logs.blobP {w w' : Work} (h : w.Logs w') : w'.blobP = w.blobP := by
  obtain ⟨_, _, _, rfl⟩ := h.rest
  rfl
theorem Work.Logs.nextId {w w' : Work} (h : w.Logs w') : w'.nextId = w.nextId := by
  obtain ⟨_, _, _, rfl⟩ := h.rest
  rfl
theorem Work.Logs.free {w w' : Work} (h : w.Logs w') : w'.free = w.free := by
  obtain ⟨_, _, _, rfl⟩ := h.rest
  rfl
theorem Work.Logs.pcie {w w' : Work} (h : w.Logs w') : w'.pcie = w.pcie := by
  obtain ⟨_, _, _, rfl⟩ := h.rest
  rfl
theorem Work.Logs.q {w w' : Work} (h : w.Logs w') : w'.q = w.q := by
  obtain ⟨_, _, _, rfl⟩ := h.rest
  rfl
theorem Work.Logs.bob {w w' : Work} (h : w.Logs w') : w'.bob = w.bob := by
  obtain ⟨_, _, _, rfl⟩ := h.rest
  rfl
theorem Work.Logs.hoop {w w' : Work} (h : w.Logs w') : w'.hoop = w.hoop := by
  obtain ⟨_, _, _, rfl⟩ := h.rest
  rfl
theorem Work.Logs.ext {w w' : Work} (h : w.Logs w') : w'.ext = w.ext := by
  obtain ⟨_, _, _, rfl⟩ := h.rest
  rfl
theorem Work.Logs.sched {w w' : Work} (h : w.Logs w') : w'.sched = w.sched := by
  obtain ⟨_, _, _, rfl⟩ := h.rest
  rfl
theorem Work.Logs.picot {w w' : Work} (h : w.Logs w') : w'.picot = w.picot := by
  obtain ⟨_, _, _, rfl⟩ := h.rest
  rfl
theorem Work.Logs.net {w w' : Work} (h : w.Logs w') : w'.net = w.net := by
  obtain ⟨_, _, _, rfl⟩ := h.rest
  rfl
theorem Work.Logs.plait {w w' : Work} (h : w.Logs w') : w'.plait = w.plait := by
  obtain ⟨_, _, _, rfl⟩ := h.rest
  rfl
theorem Work.Logs.dict {w w' : Work} (h : w.Logs w') : w'.dict = w.dict := by
  obtain ⟨_, _, _, rfl⟩ := h.rest
  rfl
theorem Work.Logs.arena {w w' : Work} (h : w.Logs w') : w'.arena = w.arena := by
  obtain ⟨_, _, _, rfl⟩ := h.rest
  rfl
theorem Work.Logs.life {w w' : Work} (h : w.Logs w') : w'.life = w.life := by
  obtain ⟨_, _, _, rfl⟩ := h.rest
  rfl
theorem Work.Logs.pair {w w' : Work} (h : w.Logs w') : w'.pair = w.pair := by
  obtain ⟨_, _, _, rfl⟩ := h.rest
  rfl
theorem Work.Logs.health {w w' : Work} (h : w.Logs w') : w'.health = w.health := by
  obtain ⟨_, _, _, rfl⟩ := h.rest
  rfl
theorem Work.Logs.rst {w w' : Work} (h : w.Logs w') : w'.rst = w.rst := by
  obtain ⟨_, _, _, rfl⟩ := h.rest
  rfl
theorem Work.Logs.boot {w w' : Work} (h : w.Logs w') : w'.boot = w.boot := by
  obtain ⟨_, _, _, rfl⟩ := h.rest
  rfl
theorem Work.Logs.clk {w w' : Work} (h : w.Logs w') : w'.clk = w.clk := by
  obtain ⟨_, _, _, rfl⟩ := h.rest
  rfl
theorem Work.Logs.mem {w w' : Work} (h : w.Logs w') : w'.mem = w.mem := by
  obtain ⟨_, _, _, rfl⟩ := h.rest
  rfl
theorem Work.Logs.out {w w' : Work} (h : w.Logs w') : w'.out = w.out := by
  obtain ⟨_, _, _, rfl⟩ := h.rest
  rfl

@[simp] theorem Work.log1_time (code ctx source detail extra : Nat) (w : Work) : (w.log1 code ctx source detail extra).time = w.time :=
  (w.logs_log1 _ _ _ _ _).time
@[simp] theorem Work.log1_objS (code ctx source detail extra : Nat) (w : Work) : (w.log1 code ctx source detail extra).objS = w.objS :=
  (w.logs_log1 _ _ _ _ _).objS
@[simp] theorem Work.log1_objP (code ctx source detail extra : Nat) (w : Work) : (w.log1 code ctx source detail extra).objP = w.objP :=
  (w.logs_log1 _ _ _ _ _).objP
@[simp] theorem Work.log1_blob (code ctx source detail extra : Nat) (w : Work) : (w.log1 code ctx source detail extra).blob = w.blob :=
  (w.logs_log1 _ _ _ _ _).blob
@[simp] theorem Work.log1_blobS (code ctx source detail extra : Nat) (w : Work) : (w.log1 code ctx source detail extra).blobS = w.blobS :=
  (w.logs_log1 _ _ _ _ _).blobS
@[simp] theorem Work.log1_blobP (code ctx source detail extra : Nat) (w : Work) : (w.log1 code ctx source detail extra).blobP = w.blobP :=
  (w.logs_log1 _ _ _ _ _).blobP
@[simp] theorem Work.log1_nextId (code ctx source detail extra : Nat) (w : Work) : (w.log1 code ctx source detail extra).nextId = w.nextId :=
  (w.logs_log1 _ _ _ _ _).nextId
@[simp] theorem Work.log1_free (code ctx source detail extra : Nat) (w : Work) : (w.log1 code ctx source detail extra).free = w.free :=
  (w.logs_log1 _ _ _ _ _).free
@[simp] theorem Work.log1_pcie (code ctx source detail extra : Nat) (w : Work) : (w.log1 code ctx source detail extra).pcie = w.pcie :=
  (w.logs_log1 _ _ _ _ _).pcie
@[simp] theorem Work.log1_q (code ctx source detail extra : Nat) (w : Work) : (w.log1 code ctx source detail extra).q = w.q :=
  (w.logs_log1 _ _ _ _ _).q
@[simp] theorem Work.log1_bob (code ctx source detail extra : Nat) (w : Work) : (w.log1 code ctx source detail extra).bob = w.bob :=
  (w.logs_log1 _ _ _ _ _).bob
@[simp] theorem Work.log1_hoop (code ctx source detail extra : Nat) (w : Work) : (w.log1 code ctx source detail extra).hoop = w.hoop :=
  (w.logs_log1 _ _ _ _ _).hoop
@[simp] theorem Work.log1_ext (code ctx source detail extra : Nat) (w : Work) : (w.log1 code ctx source detail extra).ext = w.ext :=
  (w.logs_log1 _ _ _ _ _).ext
@[simp] theorem Work.log1_sched (code ctx source detail extra : Nat) (w : Work) : (w.log1 code ctx source detail extra).sched = w.sched :=
  (w.logs_log1 _ _ _ _ _).sched
@[simp] theorem Work.log1_picot (code ctx source detail extra : Nat) (w : Work) : (w.log1 code ctx source detail extra).picot = w.picot :=
  (w.logs_log1 _ _ _ _ _).picot
@[simp] theorem Work.log1_net (code ctx source detail extra : Nat) (w : Work) : (w.log1 code ctx source detail extra).net = w.net :=
  (w.logs_log1 _ _ _ _ _).net
@[simp] theorem Work.log1_plait (code ctx source detail extra : Nat) (w : Work) : (w.log1 code ctx source detail extra).plait = w.plait :=
  (w.logs_log1 _ _ _ _ _).plait
@[simp] theorem Work.log1_dict (code ctx source detail extra : Nat) (w : Work) : (w.log1 code ctx source detail extra).dict = w.dict :=
  (w.logs_log1 _ _ _ _ _).dict
@[simp] theorem Work.log1_arena (code ctx source detail extra : Nat) (w : Work) : (w.log1 code ctx source detail extra).arena = w.arena :=
  (w.logs_log1 _ _ _ _ _).arena
@[simp] theorem Work.log1_life (code ctx source detail extra : Nat) (w : Work) : (w.log1 code ctx source detail extra).life = w.life :=
  (w.logs_log1 _ _ _ _ _).life
@[simp] theorem Work.log1_pair (code ctx source detail extra : Nat) (w : Work) : (w.log1 code ctx source detail extra).pair = w.pair :=
  (w.logs_log1 _ _ _ _ _).pair
@[simp] theorem Work.log1_health (code ctx source detail extra : Nat) (w : Work) : (w.log1 code ctx source detail extra).health = w.health :=
  (w.logs_log1 _ _ _ _ _).health
@[simp] theorem Work.log1_rst (code ctx source detail extra : Nat) (w : Work) : (w.log1 code ctx source detail extra).rst = w.rst :=
  (w.logs_log1 _ _ _ _ _).rst
@[simp] theorem Work.log1_boot (code ctx source detail extra : Nat) (w : Work) : (w.log1 code ctx source detail extra).boot = w.boot :=
  (w.logs_log1 _ _ _ _ _).boot
@[simp] theorem Work.log1_clk (code ctx source detail extra : Nat) (w : Work) : (w.log1 code ctx source detail extra).clk = w.clk :=
  (w.logs_log1 _ _ _ _ _).clk
@[simp] theorem Work.log1_mem (code ctx source detail extra : Nat) (w : Work) : (w.log1 code ctx source detail extra).mem = w.mem :=
  (w.logs_log1 _ _ _ _ _).mem

theorem Work.log1_get (code ctx source detail extra : Nat) (w : Work) {n : Nat} (h : n ∉ logObjs) :
    (w.log1 code ctx source detail extra).get n = w.get n := (w.logs_log1 _ _ _ _ _).get n h

@[simp] theorem Work.event_time (code ctx source detail : Nat) (w : Work) : (w.event code ctx source detail).time = w.time :=
  (w.logs_event _ _ _ _).time
@[simp] theorem Work.event_objS (code ctx source detail : Nat) (w : Work) : (w.event code ctx source detail).objS = w.objS :=
  (w.logs_event _ _ _ _).objS
@[simp] theorem Work.event_objP (code ctx source detail : Nat) (w : Work) : (w.event code ctx source detail).objP = w.objP :=
  (w.logs_event _ _ _ _).objP
@[simp] theorem Work.event_blob (code ctx source detail : Nat) (w : Work) : (w.event code ctx source detail).blob = w.blob :=
  (w.logs_event _ _ _ _).blob
@[simp] theorem Work.event_blobS (code ctx source detail : Nat) (w : Work) : (w.event code ctx source detail).blobS = w.blobS :=
  (w.logs_event _ _ _ _).blobS
@[simp] theorem Work.event_blobP (code ctx source detail : Nat) (w : Work) : (w.event code ctx source detail).blobP = w.blobP :=
  (w.logs_event _ _ _ _).blobP
@[simp] theorem Work.event_nextId (code ctx source detail : Nat) (w : Work) : (w.event code ctx source detail).nextId = w.nextId :=
  (w.logs_event _ _ _ _).nextId
@[simp] theorem Work.event_free (code ctx source detail : Nat) (w : Work) : (w.event code ctx source detail).free = w.free :=
  (w.logs_event _ _ _ _).free
@[simp] theorem Work.event_pcie (code ctx source detail : Nat) (w : Work) : (w.event code ctx source detail).pcie = w.pcie :=
  (w.logs_event _ _ _ _).pcie
@[simp] theorem Work.event_q (code ctx source detail : Nat) (w : Work) : (w.event code ctx source detail).q = w.q :=
  (w.logs_event _ _ _ _).q
@[simp] theorem Work.event_bob (code ctx source detail : Nat) (w : Work) : (w.event code ctx source detail).bob = w.bob :=
  (w.logs_event _ _ _ _).bob
@[simp] theorem Work.event_hoop (code ctx source detail : Nat) (w : Work) : (w.event code ctx source detail).hoop = w.hoop :=
  (w.logs_event _ _ _ _).hoop
@[simp] theorem Work.event_ext (code ctx source detail : Nat) (w : Work) : (w.event code ctx source detail).ext = w.ext :=
  (w.logs_event _ _ _ _).ext
@[simp] theorem Work.event_sched (code ctx source detail : Nat) (w : Work) : (w.event code ctx source detail).sched = w.sched :=
  (w.logs_event _ _ _ _).sched
@[simp] theorem Work.event_picot (code ctx source detail : Nat) (w : Work) : (w.event code ctx source detail).picot = w.picot :=
  (w.logs_event _ _ _ _).picot
@[simp] theorem Work.event_net (code ctx source detail : Nat) (w : Work) : (w.event code ctx source detail).net = w.net :=
  (w.logs_event _ _ _ _).net
@[simp] theorem Work.event_plait (code ctx source detail : Nat) (w : Work) : (w.event code ctx source detail).plait = w.plait :=
  (w.logs_event _ _ _ _).plait
@[simp] theorem Work.event_dict (code ctx source detail : Nat) (w : Work) : (w.event code ctx source detail).dict = w.dict :=
  (w.logs_event _ _ _ _).dict
@[simp] theorem Work.event_arena (code ctx source detail : Nat) (w : Work) : (w.event code ctx source detail).arena = w.arena :=
  (w.logs_event _ _ _ _).arena
@[simp] theorem Work.event_life (code ctx source detail : Nat) (w : Work) : (w.event code ctx source detail).life = w.life :=
  (w.logs_event _ _ _ _).life
@[simp] theorem Work.event_pair (code ctx source detail : Nat) (w : Work) : (w.event code ctx source detail).pair = w.pair :=
  (w.logs_event _ _ _ _).pair
@[simp] theorem Work.event_health (code ctx source detail : Nat) (w : Work) : (w.event code ctx source detail).health = w.health :=
  (w.logs_event _ _ _ _).health
@[simp] theorem Work.event_rst (code ctx source detail : Nat) (w : Work) : (w.event code ctx source detail).rst = w.rst :=
  (w.logs_event _ _ _ _).rst
@[simp] theorem Work.event_boot (code ctx source detail : Nat) (w : Work) : (w.event code ctx source detail).boot = w.boot :=
  (w.logs_event _ _ _ _).boot
@[simp] theorem Work.event_clk (code ctx source detail : Nat) (w : Work) : (w.event code ctx source detail).clk = w.clk :=
  (w.logs_event _ _ _ _).clk
@[simp] theorem Work.event_mem (code ctx source detail : Nat) (w : Work) : (w.event code ctx source detail).mem = w.mem :=
  (w.logs_event _ _ _ _).mem

theorem Work.event_get (code ctx source detail : Nat) (w : Work) {n : Nat} (h : n ∉ logObjs) :
    (w.event code ctx source detail).get n = w.get n := (w.logs_event _ _ _ _).get n h

@[simp] theorem Work.eventLimited_time (key gap code ctx source detail : Nat) (w : Work) : (w.eventLimited key gap code ctx source detail).time = w.time :=
  (w.logs_eventLimited _ _ _ _ _ _).time
@[simp] theorem Work.eventLimited_objS (key gap code ctx source detail : Nat) (w : Work) : (w.eventLimited key gap code ctx source detail).objS = w.objS :=
  (w.logs_eventLimited _ _ _ _ _ _).objS
@[simp] theorem Work.eventLimited_objP (key gap code ctx source detail : Nat) (w : Work) : (w.eventLimited key gap code ctx source detail).objP = w.objP :=
  (w.logs_eventLimited _ _ _ _ _ _).objP
@[simp] theorem Work.eventLimited_blob (key gap code ctx source detail : Nat) (w : Work) : (w.eventLimited key gap code ctx source detail).blob = w.blob :=
  (w.logs_eventLimited _ _ _ _ _ _).blob
@[simp] theorem Work.eventLimited_blobS (key gap code ctx source detail : Nat) (w : Work) : (w.eventLimited key gap code ctx source detail).blobS = w.blobS :=
  (w.logs_eventLimited _ _ _ _ _ _).blobS
@[simp] theorem Work.eventLimited_blobP (key gap code ctx source detail : Nat) (w : Work) : (w.eventLimited key gap code ctx source detail).blobP = w.blobP :=
  (w.logs_eventLimited _ _ _ _ _ _).blobP
@[simp] theorem Work.eventLimited_nextId (key gap code ctx source detail : Nat) (w : Work) : (w.eventLimited key gap code ctx source detail).nextId = w.nextId :=
  (w.logs_eventLimited _ _ _ _ _ _).nextId
@[simp] theorem Work.eventLimited_free (key gap code ctx source detail : Nat) (w : Work) : (w.eventLimited key gap code ctx source detail).free = w.free :=
  (w.logs_eventLimited _ _ _ _ _ _).free
@[simp] theorem Work.eventLimited_pcie (key gap code ctx source detail : Nat) (w : Work) : (w.eventLimited key gap code ctx source detail).pcie = w.pcie :=
  (w.logs_eventLimited _ _ _ _ _ _).pcie
@[simp] theorem Work.eventLimited_q (key gap code ctx source detail : Nat) (w : Work) : (w.eventLimited key gap code ctx source detail).q = w.q :=
  (w.logs_eventLimited _ _ _ _ _ _).q
@[simp] theorem Work.eventLimited_bob (key gap code ctx source detail : Nat) (w : Work) : (w.eventLimited key gap code ctx source detail).bob = w.bob :=
  (w.logs_eventLimited _ _ _ _ _ _).bob
@[simp] theorem Work.eventLimited_hoop (key gap code ctx source detail : Nat) (w : Work) : (w.eventLimited key gap code ctx source detail).hoop = w.hoop :=
  (w.logs_eventLimited _ _ _ _ _ _).hoop
@[simp] theorem Work.eventLimited_ext (key gap code ctx source detail : Nat) (w : Work) : (w.eventLimited key gap code ctx source detail).ext = w.ext :=
  (w.logs_eventLimited _ _ _ _ _ _).ext
@[simp] theorem Work.eventLimited_sched (key gap code ctx source detail : Nat) (w : Work) : (w.eventLimited key gap code ctx source detail).sched = w.sched :=
  (w.logs_eventLimited _ _ _ _ _ _).sched
@[simp] theorem Work.eventLimited_picot (key gap code ctx source detail : Nat) (w : Work) : (w.eventLimited key gap code ctx source detail).picot = w.picot :=
  (w.logs_eventLimited _ _ _ _ _ _).picot
@[simp] theorem Work.eventLimited_net (key gap code ctx source detail : Nat) (w : Work) : (w.eventLimited key gap code ctx source detail).net = w.net :=
  (w.logs_eventLimited _ _ _ _ _ _).net
@[simp] theorem Work.eventLimited_plait (key gap code ctx source detail : Nat) (w : Work) : (w.eventLimited key gap code ctx source detail).plait = w.plait :=
  (w.logs_eventLimited _ _ _ _ _ _).plait
@[simp] theorem Work.eventLimited_dict (key gap code ctx source detail : Nat) (w : Work) : (w.eventLimited key gap code ctx source detail).dict = w.dict :=
  (w.logs_eventLimited _ _ _ _ _ _).dict
@[simp] theorem Work.eventLimited_arena (key gap code ctx source detail : Nat) (w : Work) : (w.eventLimited key gap code ctx source detail).arena = w.arena :=
  (w.logs_eventLimited _ _ _ _ _ _).arena
@[simp] theorem Work.eventLimited_life (key gap code ctx source detail : Nat) (w : Work) : (w.eventLimited key gap code ctx source detail).life = w.life :=
  (w.logs_eventLimited _ _ _ _ _ _).life
@[simp] theorem Work.eventLimited_pair (key gap code ctx source detail : Nat) (w : Work) : (w.eventLimited key gap code ctx source detail).pair = w.pair :=
  (w.logs_eventLimited _ _ _ _ _ _).pair
@[simp] theorem Work.eventLimited_health (key gap code ctx source detail : Nat) (w : Work) : (w.eventLimited key gap code ctx source detail).health = w.health :=
  (w.logs_eventLimited _ _ _ _ _ _).health
@[simp] theorem Work.eventLimited_rst (key gap code ctx source detail : Nat) (w : Work) : (w.eventLimited key gap code ctx source detail).rst = w.rst :=
  (w.logs_eventLimited _ _ _ _ _ _).rst
@[simp] theorem Work.eventLimited_boot (key gap code ctx source detail : Nat) (w : Work) : (w.eventLimited key gap code ctx source detail).boot = w.boot :=
  (w.logs_eventLimited _ _ _ _ _ _).boot
@[simp] theorem Work.eventLimited_clk (key gap code ctx source detail : Nat) (w : Work) : (w.eventLimited key gap code ctx source detail).clk = w.clk :=
  (w.logs_eventLimited _ _ _ _ _ _).clk
@[simp] theorem Work.eventLimited_mem (key gap code ctx source detail : Nat) (w : Work) : (w.eventLimited key gap code ctx source detail).mem = w.mem :=
  (w.logs_eventLimited _ _ _ _ _ _).mem

theorem Work.eventLimited_get (key gap code ctx source detail : Nat) (w : Work) {n : Nat} (h : n ∉ logObjs) :
    (w.eventLimited key gap code ctx source detail).get n = w.get n := (w.logs_eventLimited _ _ _ _ _ _).get n h

/-- A counter that is raised once. -/
theorem Work.bump_get_same (n k : Nat) (w : Work) : (w.bump n k).get n = min (w.get n + k) (maxU 64) := Work.put_get_same _ _ _

theorem Work.bump_get_other {n m : Nat} (k : Nat) (w : Work) (h : m ≠ n) : (w.bump n k).get m = w.get m := Work.put_get_other _ _ h

/-! ### What a denied or clamped write changes -/

theorem Work.deny_get (wr : Writer) (num : Nat) (w : Work) {n : Nat} (h : n ∉ Obj.accessDeniedCount :: logObjs) :
    (w.deny wr num).get n = w.get n := by
  rw [List.mem_cons, not_or] at h
  exact (Work.event_get _ _ _ _ _ h.2).trans (by rw [Work.bump_get, if_neg h.1])

theorem Work.deny_get_count (wr : Writer) (num : Nat) (w : Work) :
    (w.deny wr num).get Obj.accessDeniedCount = min (w.get Obj.accessDeniedCount + 1) (maxU 64) :=
  (Work.event_get _ _ _ _ _ (by decide)).trans (by rw [Work.bump_get, if_pos rfl])

@[simp] theorem Work.blobPut_get (c : Copy) (n off v len : Nat) (w : Work) (j : Nat) : (w.blobPut c n off v len).get j = w.get j := by
  cases c <;> rfl

/-- What a clamp may change (R496): its count, the bytes of CLAMP_LAST, and what the log unit may. -/
structure Work.Clamps (w w' : Work) : Prop where
  rest : ∃ o l m b, w' = { w with obj := o, log := l, sent := m, blob := b }
  get : ∀ n, n ∉ Obj.clampCount :: logObjs → w'.get n = w.get n
  blobs : ∀ n off, off < 2 ^ 32 → n ≠ Obj.clampLast →
    Store.get blobDefault w'.blob (blobKey n off) = Store.get blobDefault w.blob (blobKey n off)

theorem Work.Clamps.refl (w : Work) : w.Clamps w := ⟨⟨_, _, _, _, rfl⟩, fun _ _ => rfl, fun _ _ _ _ => rfl⟩

theorem Work.Clamps.trans {a b c : Work} (h : a.Clamps b) (h' : b.Clamps c) : a.Clamps c := by
  refine ⟨?_, fun n hn => (h'.get n hn).trans (h.get n hn), fun n off ho hn => (h'.blobs n off ho hn).trans (h.blobs n off ho hn)⟩
  obtain ⟨o, l, m, b, rfl⟩ := h.rest
  obtain ⟨o', l', m', b', rfl⟩ := h'.rest
  exact ⟨o', l', m', b', rfl⟩

theorem Work.Logs.clamps {w w' : Work} (h : w.Logs w') : w.Clamps w' := by
  refine ⟨?_, fun n hn => h.get n (fun hl => hn (List.mem_cons_of_mem _ hl)), fun n off _ _ => by rw [h.blob]⟩
  obtain ⟨o, l, m, rfl⟩ := h.rest
  exact ⟨o, l, m, _, rfl⟩

theorem Work.clamps_clampLast (v len : Nat) (small : len ≤ 2 ^ 32) (w : Work) :
    w.Clamps (w.blobPut .active Obj.clampLast 0 v len) := by
  refine ⟨⟨_, _, _, _, rfl⟩, fun _ _ => rfl, fun n off ho hn => ?_⟩
  show Store.get blobDefault (blobWrite w.blob Obj.clampLast 0 v len) (blobKey n off) = _
  rw [blobWrite_get Obj.clampLast n off ho len w.blob 0 v (by omega), if_neg (fun e => hn e.1)]

/-- A clamp is counted and noted, and what is left is the log unit's. -/
theorem Work.clamped_logs (wr : Writer) (num written held off : Nat) (w : Work) :
    ∃ last, ((w.bump Obj.clampCount 1).blobPut .active Obj.clampLast 0 last 40).Logs (w.clamped wr num written held off) := by
  unfold Work.clamped
  extract_lets w1 last w2 key
  refine ⟨last, ?_⟩
  split
  · split
    exact (Work.logs_rateMark _ _).trans (Work.logs_log1 _ _ _ _ _ _)
  · exact .refl _

theorem Work.clamps_clamped (wr : Writer) (num written held off : Nat) (w : Work) : w.Clamps (w.clamped wr num written held off) := by
  have counted : w.Clamps (w.bump Obj.clampCount 1) := by
    refine ⟨⟨_, _, _, _, rfl⟩, fun n hn => ?_, fun _ _ _ _ => rfl⟩
    rw [Work.bump_get, if_neg (by rintro rfl; exact hn List.mem_cons_self)]
  obtain ⟨last, told⟩ := w.clamped_logs wr num written held off
  exact (counted.trans (Work.clamps_clampLast last 40 (by decide) _)).trans told.clamps

theorem Work.clamped_get_count (wr : Writer) (num written held off : Nat) (w : Work) :
    (w.clamped wr num written held off).get Obj.clampCount = min (w.get Obj.clampCount + 1) (maxU 64) := by
  obtain ⟨last, told⟩ := w.clamped_logs wr num written held off
  rw [told.get _ (by decide), Work.blobPut_get]
  exact w.bump_get_same _ _

theorem Work.clamps_noAction (wr : Writer) (num written : Nat) (w : Work) : w.Clamps (w.noAction wr num written) :=
  w.clamps_clamped wr num written _ 0

theorem Work.clamps_clampTo (wr : Writer) (num written held : Nat) (w : Work) : w.Clamps (w.clampTo wr num written held) := by
  unfold Work.clampTo
  split
  · exact .refl w
  · exact w.clamps_clamped wr num written held 0

theorem Work.Clamps.time {w w' : Work} (h : w.Clamps w') : w'.time = w.time := by
  obtain ⟨_, _, _, _, rfl⟩ := h.rest
  rfl
theorem Work.Clamps.objS {w w' : Work} (h : w.Clamps w') : w'.objS = w.objS := by
  obtain ⟨_, _, _, _, rfl⟩ := h.rest
  rfl
theorem Work.Clamps.objP {w w' : Work} (h : w.Clamps w') : w'.objP = w.objP := by
  obtain ⟨_, _, _, _, rfl⟩ := h.rest
  rfl
theorem Work.Clamps.blobS {w w' : Work} (h : w.Clamps w') : w'.blobS = w.blobS := by
  obtain ⟨_, _, _, _, rfl⟩ := h.rest
  rfl
theorem Work.Clamps.blobP {w w' : Work} (h : w.Clamps w') : w'.blobP = w.blobP := by
  obtain ⟨_, _, _, _, rfl⟩ := h.rest
  rfl
theorem Work.Clamps.nextId {w w' : Work} (h : w.Clamps w') : w'.nextId = w.nextId := by
  obtain ⟨_, _, _, _, rfl⟩ := h.rest
  rfl
theorem Work.Clamps.free {w w' : Work} (h : w.Clamps w') : w'.free = w.free := by
  obtain ⟨_, _, _, _, rfl⟩ := h.rest
  rfl
theorem Work.Clamps.pcie {w w' : Work} (h : w.Clamps w') : w'.pcie = w.pcie := by
  obtain ⟨_, _, _, _, rfl⟩ := h.rest
  rfl
theorem Work.Clamps.q {w w' : Work} (h : w.Clamps w') : w'.q = w.q := by
  obtain ⟨_, _, _, _, rfl⟩ := h.rest
  rfl
theorem Work.Clamps.bob {w w' : Work} (h : w.Clamps w') : w'.bob = w.bob := by
  obtain ⟨_, _, _, _, rfl⟩ := h.rest
  rfl
theorem Work.Clamps.hoop {w w' : Work} (h : w.Clamps w') : w'.hoop = w.hoop := by
  obtain ⟨_, _, _, _, rfl⟩ := h.rest
  rfl
theorem Work.Clamps.ext {w w' : Work} (h : w.Clamps w') : w'.ext = w.ext := by
  obtain ⟨_, _, _, _, rfl⟩ := h.rest
  rfl
theorem Work.Clamps.sched {w w' : Work} (h : w.Clamps w') : w'.sched = w.sched := by
  obtain ⟨_, _, _, _, rfl⟩ := h.rest
  rfl
theorem Work.Clamps.picot {w w' : Work} (h : w.Clamps w') : w'.picot = w.picot := by
  obtain ⟨_, _, _, _, rfl⟩ := h.rest
  rfl
theorem Work.Clamps.net {w w' : Work} (h : w.Clamps w') : w'.net = w.net := by
  obtain ⟨_, _, _, _, rfl⟩ := h.rest
  rfl
theorem Work.Clamps.plait {w w' : Work} (h : w.Clamps w') : w'.plait = w.plait := by
  obtain ⟨_, _, _, _, rfl⟩ := h.rest
  rfl
theorem Work.Clamps.dict {w w' : Work} (h : w.Clamps w') : w'.dict = w.dict := by
  obtain ⟨_, _, _, _, rfl⟩ := h.rest
  rfl
theorem Work.Clamps.arena {w w' : Work} (h : w.Clamps w') : w'.arena = w.arena := by
  obtain ⟨_, _, _, _, rfl⟩ := h.rest
  rfl
theorem Work.Clamps.life {w w' : Work} (h : w.Clamps w') : w'.life = w.life := by
  obtain ⟨_, _, _, _, rfl⟩ := h.rest
  rfl
theorem Work.Clamps.pair {w w' : Work} (h : w.Clamps w') : w'.pair = w.pair := by
  obtain ⟨_, _, _, _, rfl⟩ := h.rest
  rfl
theorem Work.Clamps.health {w w' : Work} (h : w.Clamps w') : w'.health = w.health := by
  obtain ⟨_, _, _, _, rfl⟩ := h.rest
  rfl
theorem Work.Clamps.rst {w w' : Work} (h : w.Clamps w') : w'.rst = w.rst := by
  obtain ⟨_, _, _, _, rfl⟩ := h.rest
  rfl
theorem Work.Clamps.boot {w w' : Work} (h : w.Clamps w') : w'.boot = w.boot := by
  obtain ⟨_, _, _, _, rfl⟩ := h.rest
  rfl
theorem Work.Clamps.clk {w w' : Work} (h : w.Clamps w') : w'.clk = w.clk := by
  obtain ⟨_, _, _, _, rfl⟩ := h.rest
  rfl
theorem Work.Clamps.mem {w w' : Work} (h : w.Clamps w') : w'.mem = w.mem := by
  obtain ⟨_, _, _, _, rfl⟩ := h.rest
  rfl
theorem Work.Clamps.out {w w' : Work} (h : w.Clamps w') : w'.out = w.out := by
  obtain ⟨_, _, _, _, rfl⟩ := h.rest
  rfl

@[simp] theorem Work.clamped_time (wr : Writer) (num written held off : Nat) (w : Work) : (w.clamped wr num written held off).time = w.time :=
  (Work.clamps_clamped _ _ _ _ _ w).time
@[simp] theorem Work.clamped_objS (wr : Writer) (num written held off : Nat) (w : Work) : (w.clamped wr num written held off).objS = w.objS :=
  (Work.clamps_clamped _ _ _ _ _ w).objS
@[simp] theorem Work.clamped_objP (wr : Writer) (num written held off : Nat) (w : Work) : (w.clamped wr num written held off).objP = w.objP :=
  (Work.clamps_clamped _ _ _ _ _ w).objP
@[simp] theorem Work.clamped_blobS (wr : Writer) (num written held off : Nat) (w : Work) : (w.clamped wr num written held off).blobS = w.blobS :=
  (Work.clamps_clamped _ _ _ _ _ w).blobS
@[simp] theorem Work.clamped_blobP (wr : Writer) (num written held off : Nat) (w : Work) : (w.clamped wr num written held off).blobP = w.blobP :=
  (Work.clamps_clamped _ _ _ _ _ w).blobP
@[simp] theorem Work.clamped_nextId (wr : Writer) (num written held off : Nat) (w : Work) : (w.clamped wr num written held off).nextId = w.nextId :=
  (Work.clamps_clamped _ _ _ _ _ w).nextId
@[simp] theorem Work.clamped_free (wr : Writer) (num written held off : Nat) (w : Work) : (w.clamped wr num written held off).free = w.free :=
  (Work.clamps_clamped _ _ _ _ _ w).free
@[simp] theorem Work.clamped_pcie (wr : Writer) (num written held off : Nat) (w : Work) : (w.clamped wr num written held off).pcie = w.pcie :=
  (Work.clamps_clamped _ _ _ _ _ w).pcie
@[simp] theorem Work.clamped_q (wr : Writer) (num written held off : Nat) (w : Work) : (w.clamped wr num written held off).q = w.q :=
  (Work.clamps_clamped _ _ _ _ _ w).q
@[simp] theorem Work.clamped_bob (wr : Writer) (num written held off : Nat) (w : Work) : (w.clamped wr num written held off).bob = w.bob :=
  (Work.clamps_clamped _ _ _ _ _ w).bob
@[simp] theorem Work.clamped_hoop (wr : Writer) (num written held off : Nat) (w : Work) : (w.clamped wr num written held off).hoop = w.hoop :=
  (Work.clamps_clamped _ _ _ _ _ w).hoop
@[simp] theorem Work.clamped_ext (wr : Writer) (num written held off : Nat) (w : Work) : (w.clamped wr num written held off).ext = w.ext :=
  (Work.clamps_clamped _ _ _ _ _ w).ext
@[simp] theorem Work.clamped_sched (wr : Writer) (num written held off : Nat) (w : Work) : (w.clamped wr num written held off).sched = w.sched :=
  (Work.clamps_clamped _ _ _ _ _ w).sched
@[simp] theorem Work.clamped_picot (wr : Writer) (num written held off : Nat) (w : Work) : (w.clamped wr num written held off).picot = w.picot :=
  (Work.clamps_clamped _ _ _ _ _ w).picot
@[simp] theorem Work.clamped_net (wr : Writer) (num written held off : Nat) (w : Work) : (w.clamped wr num written held off).net = w.net :=
  (Work.clamps_clamped _ _ _ _ _ w).net
@[simp] theorem Work.clamped_plait (wr : Writer) (num written held off : Nat) (w : Work) : (w.clamped wr num written held off).plait = w.plait :=
  (Work.clamps_clamped _ _ _ _ _ w).plait
@[simp] theorem Work.clamped_dict (wr : Writer) (num written held off : Nat) (w : Work) : (w.clamped wr num written held off).dict = w.dict :=
  (Work.clamps_clamped _ _ _ _ _ w).dict
@[simp] theorem Work.clamped_arena (wr : Writer) (num written held off : Nat) (w : Work) : (w.clamped wr num written held off).arena = w.arena :=
  (Work.clamps_clamped _ _ _ _ _ w).arena
@[simp] theorem Work.clamped_life (wr : Writer) (num written held off : Nat) (w : Work) : (w.clamped wr num written held off).life = w.life :=
  (Work.clamps_clamped _ _ _ _ _ w).life
@[simp] theorem Work.clamped_pair (wr : Writer) (num written held off : Nat) (w : Work) : (w.clamped wr num written held off).pair = w.pair :=
  (Work.clamps_clamped _ _ _ _ _ w).pair
@[simp] theorem Work.clamped_health (wr : Writer) (num written held off : Nat) (w : Work) : (w.clamped wr num written held off).health = w.health :=
  (Work.clamps_clamped _ _ _ _ _ w).health
@[simp] theorem Work.clamped_rst (wr : Writer) (num written held off : Nat) (w : Work) : (w.clamped wr num written held off).rst = w.rst :=
  (Work.clamps_clamped _ _ _ _ _ w).rst
@[simp] theorem Work.clamped_boot (wr : Writer) (num written held off : Nat) (w : Work) : (w.clamped wr num written held off).boot = w.boot :=
  (Work.clamps_clamped _ _ _ _ _ w).boot
@[simp] theorem Work.clamped_clk (wr : Writer) (num written held off : Nat) (w : Work) : (w.clamped wr num written held off).clk = w.clk :=
  (Work.clamps_clamped _ _ _ _ _ w).clk
@[simp] theorem Work.clamped_mem (wr : Writer) (num written held off : Nat) (w : Work) : (w.clamped wr num written held off).mem = w.mem :=
  (Work.clamps_clamped _ _ _ _ _ w).mem

theorem Work.clamped_get (wr : Writer) (num written held off : Nat) (w : Work) {n : Nat} (h : n ∉ Obj.clampCount :: logObjs) :
    (w.clamped wr num written held off).get n = w.get n := (Work.clamps_clamped _ _ _ _ _ w).get n h

@[simp] theorem Work.noAction_time (wr : Writer) (num written : Nat) (w : Work) : (w.noAction wr num written).time = w.time :=
  (Work.clamps_noAction _ _ _ w).time
@[simp] theorem Work.noAction_objS (wr : Writer) (num written : Nat) (w : Work) : (w.noAction wr num written).objS = w.objS :=
  (Work.clamps_noAction _ _ _ w).objS
@[simp] theorem Work.noAction_objP (wr : Writer) (num written : Nat) (w : Work) : (w.noAction wr num written).objP = w.objP :=
  (Work.clamps_noAction _ _ _ w).objP
@[simp] theorem Work.noAction_blobS (wr : Writer) (num written : Nat) (w : Work) : (w.noAction wr num written).blobS = w.blobS :=
  (Work.clamps_noAction _ _ _ w).blobS
@[simp] theorem Work.noAction_blobP (wr : Writer) (num written : Nat) (w : Work) : (w.noAction wr num written).blobP = w.blobP :=
  (Work.clamps_noAction _ _ _ w).blobP
@[simp] theorem Work.noAction_nextId (wr : Writer) (num written : Nat) (w : Work) : (w.noAction wr num written).nextId = w.nextId :=
  (Work.clamps_noAction _ _ _ w).nextId
@[simp] theorem Work.noAction_free (wr : Writer) (num written : Nat) (w : Work) : (w.noAction wr num written).free = w.free :=
  (Work.clamps_noAction _ _ _ w).free
@[simp] theorem Work.noAction_pcie (wr : Writer) (num written : Nat) (w : Work) : (w.noAction wr num written).pcie = w.pcie :=
  (Work.clamps_noAction _ _ _ w).pcie
@[simp] theorem Work.noAction_q (wr : Writer) (num written : Nat) (w : Work) : (w.noAction wr num written).q = w.q :=
  (Work.clamps_noAction _ _ _ w).q
@[simp] theorem Work.noAction_bob (wr : Writer) (num written : Nat) (w : Work) : (w.noAction wr num written).bob = w.bob :=
  (Work.clamps_noAction _ _ _ w).bob
@[simp] theorem Work.noAction_hoop (wr : Writer) (num written : Nat) (w : Work) : (w.noAction wr num written).hoop = w.hoop :=
  (Work.clamps_noAction _ _ _ w).hoop
@[simp] theorem Work.noAction_ext (wr : Writer) (num written : Nat) (w : Work) : (w.noAction wr num written).ext = w.ext :=
  (Work.clamps_noAction _ _ _ w).ext
@[simp] theorem Work.noAction_sched (wr : Writer) (num written : Nat) (w : Work) : (w.noAction wr num written).sched = w.sched :=
  (Work.clamps_noAction _ _ _ w).sched
@[simp] theorem Work.noAction_picot (wr : Writer) (num written : Nat) (w : Work) : (w.noAction wr num written).picot = w.picot :=
  (Work.clamps_noAction _ _ _ w).picot
@[simp] theorem Work.noAction_net (wr : Writer) (num written : Nat) (w : Work) : (w.noAction wr num written).net = w.net :=
  (Work.clamps_noAction _ _ _ w).net
@[simp] theorem Work.noAction_plait (wr : Writer) (num written : Nat) (w : Work) : (w.noAction wr num written).plait = w.plait :=
  (Work.clamps_noAction _ _ _ w).plait
@[simp] theorem Work.noAction_dict (wr : Writer) (num written : Nat) (w : Work) : (w.noAction wr num written).dict = w.dict :=
  (Work.clamps_noAction _ _ _ w).dict
@[simp] theorem Work.noAction_arena (wr : Writer) (num written : Nat) (w : Work) : (w.noAction wr num written).arena = w.arena :=
  (Work.clamps_noAction _ _ _ w).arena
@[simp] theorem Work.noAction_life (wr : Writer) (num written : Nat) (w : Work) : (w.noAction wr num written).life = w.life :=
  (Work.clamps_noAction _ _ _ w).life
@[simp] theorem Work.noAction_pair (wr : Writer) (num written : Nat) (w : Work) : (w.noAction wr num written).pair = w.pair :=
  (Work.clamps_noAction _ _ _ w).pair
@[simp] theorem Work.noAction_health (wr : Writer) (num written : Nat) (w : Work) : (w.noAction wr num written).health = w.health :=
  (Work.clamps_noAction _ _ _ w).health
@[simp] theorem Work.noAction_rst (wr : Writer) (num written : Nat) (w : Work) : (w.noAction wr num written).rst = w.rst :=
  (Work.clamps_noAction _ _ _ w).rst
@[simp] theorem Work.noAction_boot (wr : Writer) (num written : Nat) (w : Work) : (w.noAction wr num written).boot = w.boot :=
  (Work.clamps_noAction _ _ _ w).boot
@[simp] theorem Work.noAction_clk (wr : Writer) (num written : Nat) (w : Work) : (w.noAction wr num written).clk = w.clk :=
  (Work.clamps_noAction _ _ _ w).clk
@[simp] theorem Work.noAction_mem (wr : Writer) (num written : Nat) (w : Work) : (w.noAction wr num written).mem = w.mem :=
  (Work.clamps_noAction _ _ _ w).mem

theorem Work.noAction_get (wr : Writer) (num written : Nat) (w : Work) {n : Nat} (h : n ∉ Obj.clampCount :: logObjs) :
    (w.noAction wr num written).get n = w.get n := (Work.clamps_noAction _ _ _ w).get n h

@[simp] theorem Work.clampTo_time (wr : Writer) (num written held : Nat) (w : Work) : (w.clampTo wr num written held).time = w.time :=
  (Work.clamps_clampTo _ _ _ _ w).time
@[simp] theorem Work.clampTo_objS (wr : Writer) (num written held : Nat) (w : Work) : (w.clampTo wr num written held).objS = w.objS :=
  (Work.clamps_clampTo _ _ _ _ w).objS
@[simp] theorem Work.clampTo_objP (wr : Writer) (num written held : Nat) (w : Work) : (w.clampTo wr num written held).objP = w.objP :=
  (Work.clamps_clampTo _ _ _ _ w).objP
@[simp] theorem Work.clampTo_blobS (wr : Writer) (num written held : Nat) (w : Work) : (w.clampTo wr num written held).blobS = w.blobS :=
  (Work.clamps_clampTo _ _ _ _ w).blobS
@[simp] theorem Work.clampTo_blobP (wr : Writer) (num written held : Nat) (w : Work) : (w.clampTo wr num written held).blobP = w.blobP :=
  (Work.clamps_clampTo _ _ _ _ w).blobP
@[simp] theorem Work.clampTo_nextId (wr : Writer) (num written held : Nat) (w : Work) : (w.clampTo wr num written held).nextId = w.nextId :=
  (Work.clamps_clampTo _ _ _ _ w).nextId
@[simp] theorem Work.clampTo_free (wr : Writer) (num written held : Nat) (w : Work) : (w.clampTo wr num written held).free = w.free :=
  (Work.clamps_clampTo _ _ _ _ w).free
@[simp] theorem Work.clampTo_pcie (wr : Writer) (num written held : Nat) (w : Work) : (w.clampTo wr num written held).pcie = w.pcie :=
  (Work.clamps_clampTo _ _ _ _ w).pcie
@[simp] theorem Work.clampTo_q (wr : Writer) (num written held : Nat) (w : Work) : (w.clampTo wr num written held).q = w.q :=
  (Work.clamps_clampTo _ _ _ _ w).q
@[simp] theorem Work.clampTo_bob (wr : Writer) (num written held : Nat) (w : Work) : (w.clampTo wr num written held).bob = w.bob :=
  (Work.clamps_clampTo _ _ _ _ w).bob
@[simp] theorem Work.clampTo_hoop (wr : Writer) (num written held : Nat) (w : Work) : (w.clampTo wr num written held).hoop = w.hoop :=
  (Work.clamps_clampTo _ _ _ _ w).hoop
@[simp] theorem Work.clampTo_ext (wr : Writer) (num written held : Nat) (w : Work) : (w.clampTo wr num written held).ext = w.ext :=
  (Work.clamps_clampTo _ _ _ _ w).ext
@[simp] theorem Work.clampTo_sched (wr : Writer) (num written held : Nat) (w : Work) : (w.clampTo wr num written held).sched = w.sched :=
  (Work.clamps_clampTo _ _ _ _ w).sched
@[simp] theorem Work.clampTo_picot (wr : Writer) (num written held : Nat) (w : Work) : (w.clampTo wr num written held).picot = w.picot :=
  (Work.clamps_clampTo _ _ _ _ w).picot
@[simp] theorem Work.clampTo_net (wr : Writer) (num written held : Nat) (w : Work) : (w.clampTo wr num written held).net = w.net :=
  (Work.clamps_clampTo _ _ _ _ w).net
@[simp] theorem Work.clampTo_plait (wr : Writer) (num written held : Nat) (w : Work) : (w.clampTo wr num written held).plait = w.plait :=
  (Work.clamps_clampTo _ _ _ _ w).plait
@[simp] theorem Work.clampTo_dict (wr : Writer) (num written held : Nat) (w : Work) : (w.clampTo wr num written held).dict = w.dict :=
  (Work.clamps_clampTo _ _ _ _ w).dict
@[simp] theorem Work.clampTo_arena (wr : Writer) (num written held : Nat) (w : Work) : (w.clampTo wr num written held).arena = w.arena :=
  (Work.clamps_clampTo _ _ _ _ w).arena
@[simp] theorem Work.clampTo_life (wr : Writer) (num written held : Nat) (w : Work) : (w.clampTo wr num written held).life = w.life :=
  (Work.clamps_clampTo _ _ _ _ w).life
@[simp] theorem Work.clampTo_pair (wr : Writer) (num written held : Nat) (w : Work) : (w.clampTo wr num written held).pair = w.pair :=
  (Work.clamps_clampTo _ _ _ _ w).pair
@[simp] theorem Work.clampTo_health (wr : Writer) (num written held : Nat) (w : Work) : (w.clampTo wr num written held).health = w.health :=
  (Work.clamps_clampTo _ _ _ _ w).health
@[simp] theorem Work.clampTo_rst (wr : Writer) (num written held : Nat) (w : Work) : (w.clampTo wr num written held).rst = w.rst :=
  (Work.clamps_clampTo _ _ _ _ w).rst
@[simp] theorem Work.clampTo_boot (wr : Writer) (num written held : Nat) (w : Work) : (w.clampTo wr num written held).boot = w.boot :=
  (Work.clamps_clampTo _ _ _ _ w).boot
@[simp] theorem Work.clampTo_clk (wr : Writer) (num written held : Nat) (w : Work) : (w.clampTo wr num written held).clk = w.clk :=
  (Work.clamps_clampTo _ _ _ _ w).clk
@[simp] theorem Work.clampTo_mem (wr : Writer) (num written held : Nat) (w : Work) : (w.clampTo wr num written held).mem = w.mem :=
  (Work.clamps_clampTo _ _ _ _ w).mem

theorem Work.clampTo_get (wr : Writer) (num written held : Nat) (w : Work) {n : Nat} (h : n ∉ Obj.clampCount :: logObjs) :
    (w.clampTo wr num written held).get n = w.get n := (Work.clamps_clampTo _ _ _ _ w).get n h

/-- No object of the log unit is one of another area than 1 and F. -/
theorem not_mem_logObjs {n : Nat} (h : n < 0x100000 ∨ 0x200000 ≤ n) (h' : n < 0xF00000) : n ∉ logObjs := by
  intro hm
  simp only [logObjs, Obj.logNextSeq, Obj.logOldestSeq, Obj.logDropped, Obj.notifyLost, Obj.mgmtTxFrames, List.mem_cons,
    List.not_mem_nil, or_false] at hm
  omega

/-! ### Folds that leave a part alone -/

theorem foldl_frame {α β : Type} (g : Work → β) {f : Work → α → Work} (h : ∀ w a, g (f w a) = g w) (l : List α) (w : Work) :
    g (l.foldl f w) = g w :=
  List.foldlRecOn l f (motive := fun w' => g w' = g w) rfl (fun w' same a _ => (h w' a).trans same)

theorem forUpto_frame {β : Type} (g : Work → β) {f : Nat → Work → Work} (h : ∀ i w, g (f i w) = g w) (n : Nat) (w : Work) :
    g (forUpto f n w) = g w := by
  induction n with
  | zero => rfl
  | succ n ih => exact (h n _).trans ih

/-! ### Commit groups (R497) -/

theorem Work.setBlobs_get (c : Copy) (m : List (Nat × Nat)) (w : Work) (j : Nat) : (w.setBlobs c m).get j = w.get j := by
  cases c <;> rfl

theorem Work.setBlobs_getS (c : Copy) (m : List (Nat × Nat)) (w : Work) (j : Nat) : (w.setBlobs c m).getS j = w.getS j := by
  cases c <;> rfl

theorem Work.setBlobs_getP (c : Copy) (m : List (Nat × Nat)) (w : Work) (j : Nat) : (w.setBlobs c m).getP j = w.getP j := by
  cases c <;> rfl

/-- What a group that becomes pending changes: the pending copies. -/
theorem Work.groupToPend_rest (sc bl : List Nat) (w : Work) : ∃ o b, w.groupToPend sc bl = { w with objP := o, blobP := b } := by
  have scalars : ∃ o, sc.foldl (fun w n => w.stageToPend n) w = { w with objP := o } :=
    List.foldlRecOn sc _ (motive := fun w' : Work => ∃ o, w' = { w with objP := o }) ⟨_, rfl⟩ (by
      rintro _ ⟨o, rfl⟩ n _
      exact ⟨_, rfl⟩)
  have blobs : ∀ w : Work, ∃ b, bl.foldl (fun w n => w.blobCopy .staged .pending n) w = { w with blobP := b } := fun w =>
    List.foldlRecOn bl _ (motive := fun w' : Work => ∃ b, w' = { w with blobP := b }) ⟨_, rfl⟩ (by
      rintro _ ⟨b, rfl⟩ n _
      exact ⟨_, rfl⟩)
  obtain ⟨o, e⟩ := scalars
  obtain ⟨b, e'⟩ := blobs { w with objP := o }
  exact ⟨o, b, by rw [Work.groupToPend, e, e']⟩

/-- What a group that comes into force changes: the copies in force. -/
theorem Work.groupToActive_rest (sc bl : List Nat) (w : Work) : ∃ o b, w.groupToActive sc bl = { w with obj := o, blob := b } := by
  have scalars : ∃ o, sc.foldl (fun w n => w.pendToActive n) w = { w with obj := o } :=
    List.foldlRecOn sc _ (motive := fun w' : Work => ∃ o, w' = { w with obj := o }) ⟨_, rfl⟩ (by
      rintro _ ⟨o, rfl⟩ n _
      exact ⟨_, rfl⟩)
  have blobs : ∀ w : Work, ∃ b, bl.foldl (fun w n => w.blobCopy .pending .active n) w = { w with blob := b } := fun w =>
    List.foldlRecOn bl _ (motive := fun w' : Work => ∃ b, w' = { w with blob := b }) ⟨_, rfl⟩ (by
      rintro _ ⟨b, rfl⟩ n _
      exact ⟨_, rfl⟩)
  obtain ⟨o, e⟩ := scalars
  obtain ⟨b, e'⟩ := blobs { w with obj := o }
  exact ⟨o, b, by rw [Work.groupToActive, e, e']⟩

@[simp] theorem Work.groupToPend_get (sc bl : List Nat) (w : Work) (n : Nat) : (w.groupToPend sc bl).get n = w.get n := by
  obtain ⟨_, _, e⟩ := w.groupToPend_rest sc bl
  rw [e]
  rfl

@[simp] theorem Work.groupToPend_getS (sc bl : List Nat) (w : Work) (n : Nat) : (w.groupToPend sc bl).getS n = w.getS n := by
  obtain ⟨_, _, e⟩ := w.groupToPend_rest sc bl
  rw [e]
  rfl

@[simp] theorem Work.groupToActive_getP (sc bl : List Nat) (w : Work) (n : Nat) : (w.groupToActive sc bl).getP n = w.getP n := by
  obtain ⟨_, _, e⟩ := w.groupToActive_rest sc bl
  rw [e]
  rfl

@[simp] theorem Work.groupToActive_getS (sc bl : List Nat) (w : Work) (n : Nat) : (w.groupToActive sc bl).getS n = w.getS n := by
  obtain ⟨_, _, e⟩ := w.groupToActive_rest sc bl
  rw [e]
  rfl

/-- The scalars of a group that becomes pending take their staged values. -/
theorem Work.groupToPend_getP (sc bl : List Nat) (w : Work) (n : Nat) :
    (w.groupToPend sc bl).getP n = if n ∈ sc then w.getS n else w.getP n := by
  have blobs : ∀ w : Work, (bl.foldl (fun w n => w.blobCopy .staged .pending n) w).getP n = w.getP n :=
    foldl_frame (fun w => w.getP n) (fun w a => (w.setBlobs_getP _ _ n : (w.blobCopy .staged .pending a).getP n = w.getP n)) bl
  have scalars : ∀ w : Work, (sc.foldl (fun w n => w.stageToPend n) w).getP n = if n ∈ sc then w.getS n else w.getP n := by
    induction sc with
    | nil => intro w; rfl
    | cons m sc ih =>
      intro w
      rw [List.foldl_cons, ih]
      unfold Work.stageToPend
      rw [Work.putP_getP]
      by_cases e : n = m
      · subst e
        simp only [List.mem_cons, true_or, if_true]
        split <;> rfl
      · simp [e]
        rfl
  exact (blobs _).trans (scalars w)

/-- The scalars of a group that comes into force take their pending values. -/
theorem Work.groupToActive_get (sc bl : List Nat) (w : Work) (n : Nat) :
    (w.groupToActive sc bl).get n = if n ∈ sc then w.getP n else w.get n := by
  have blobs : ∀ w : Work, (bl.foldl (fun w n => w.blobCopy .pending .active n) w).get n = w.get n :=
    foldl_frame (fun w => w.get n) (fun w a => (w.setBlobs_get _ _ n : (w.blobCopy .pending .active a).get n = w.get n)) bl
  have scalars : ∀ w : Work, (sc.foldl (fun w n => w.pendToActive n) w).get n = if n ∈ sc then w.getP n else w.get n := by
    induction sc with
    | nil => intro w; rfl
    | cons m sc ih =>
      intro w
      rw [List.foldl_cons, ih]
      unfold Work.pendToActive
      rw [Work.put_get]
      by_cases e : n = m
      · subst e
        simp only [List.mem_cons, true_or, if_true]
        split <;> rfl
      · simp [e]
        rfl
  exact (blobs _).trans (scalars w)

/-- A commit that is not under way is taken. -/
theorem Work.commitReq_taken (wr : Writer) {num : Nat} (sc bl : List Nat) {w : Work} (h : w.get num ≠ 1) :
    w.commitReq wr num sc bl = (w.groupToPend sc bl).put num 1 := if_neg h

/-- One that is under way is a clamp. -/
theorem Work.commitReq_again (wr : Writer) {num : Nat} (sc bl : List Nat) {w : Work} (h : w.get num = 1) :
    w.commitReq wr num sc bl = w.noAction wr num 1 := if_pos h

end Sys2Proof.Machine

namespace Sys2Proof.Machine

/-! ### The test access port -/

/-- An instruction of Table 19.9 that may act. -/
theorem Work.tap_acts {code : Nat} {test : Bool} {act : Work → Work} {w : Work} (lost : w.boot.vsbLost = false)
    (may : (test && !w.boot.testMode) = false) : w.tap code test act = act w := by
  unfold Work.tap
  rw [lost, may]
  rfl

/-- One that drives pins outside test mode leaves BYPASS in force and is counted. -/
theorem Work.tap_denied {code : Nat} {act : Work → Work} {w : Work} (lost : w.boot.vsbLost = false) (off : w.boot.testMode = false) :
    ((w.tapBypass).bump Obj.tapDeniedCount 1).Logs (w.tap code true act) := by
  unfold Work.tap
  rw [if_neg (by rw [lost]; decide), if_pos (by rw [off]; decide)]
  dsimp only
  split
  · exact Work.logs_eventLimited _ _ _ _ _ _ _
  · exact .refl _

@[simp] theorem Work.tapTake_get (code out : Nat) (w : Work) (n : Nat) :
    (w.tapTake code out).get n = if n = Obj.tapInstr then code else w.get n := Work.put_get _ _ _ _

@[simp] theorem Work.boundary_get (code pins load : Nat) (w : Work) (n : Nat) :
    (w.boundary code pins load).get n = if n = Obj.tapInstr then code else w.get n := Work.put_get _ _ _ _

theorem Work.tapBypass_get (w : Work) (n : Nat) : w.tapBypass.get n = if n = Obj.tapInstr then 0xFF else w.get n :=
  Work.tapTake_get _ _ _ _

/-- An instruction that may act shifts out what it selects and is in force; nothing else changes. -/
theorem State.tap_acts {s : State} {i : Instr} {code : Nat} {test : Bool} {act : Work → Work}
    (hi : ∀ w, Machine.work i w = w.tap code test act) (lost : s.boot.vsbLost = false) (may : (test && !s.boot.testMode) = false)
    (out : (act s.work).out = s.work.out) (get : ∀ n, (act s.work).get n = if n = Obj.tapInstr then code else s.get n) :
    ∃ t, exec i s = .next t ∧ s.SameMem t ∧ t.get Obj.tapInstr = code ∧ s.KeepsBut t [Obj.tapInstr] ∧
      t.toDev = (act s.work).toDev := by
  refine ⟨_, exec_leave ((hi s.work).trans (Work.tap_acts lost may)) out, s.sameMem_leave _, ?_, fun n hn => ?_, rfl⟩
  · exact (get _).trans (if_pos rfl)
  · exact (get _).trans (if_neg (by simpa using hn))

/-- An instruction that drives pins outside test mode is refused and counted. -/
theorem State.tap_denied {s : State} {i : Instr} {code : Nat} {act : Work → Work} (hi : ∀ w, Machine.work i w = w.tap code true act)
    (lost : s.boot.vsbLost = false) (off : s.boot.testMode = false) :
    ∃ t, exec i s = .next t ∧ s.SameMem t ∧ t.get Obj.tapInstr = 0xFF ∧
      t.get Obj.tapDeniedCount = min (s.get Obj.tapDeniedCount + 1) (maxU 64) ∧ t.boot.bsr = s.boot.bsr := by
  have h : ((s.work.tapBypass).bump Obj.tapDeniedCount 1).Logs (Machine.work i s.work) := by
    rw [hi]
    exact Work.tap_denied lost off
  refine ⟨_, exec_quiet (h.out.trans rfl), s.sameMem_leave _, ?_, ?_, ?_⟩
  · refine (h.get _ (by decide)).trans ?_
    rw [Work.bump_get_other _ _ (by decide), Work.tapBypass_get, if_pos rfl]
  · refine (h.get _ (by decide)).trans ?_
    rw [Work.bump_get_same, Work.tapBypass_get, if_neg (by decide)]
    rfl
  · show (Machine.work i s.work).boot.bsr = _
    rw [h.boot]
    rfl

/-- Settles O59: an instruction of Table 19.9 acts or is refused, by whether it drives pins outside test mode. -/
theorem testAccess : Obligations.TestAccess := by
  unfold Obligations.TestAccess
  intro s lost
  refine ⟨?_, ?_, fun pins load => ?_, fun pins load i code hi => ?_, fun code unlisted => ?_⟩
  · have e : Machine.work (.tapReset false) s.work = s.work.put Obj.tapInstr 4 := by
      show (if s.boot.vsbLost then s.work else s.work.put Obj.tapInstr 4) = _
      rw [lost]
      rfl
    refine ⟨_, exec_leave e rfl, s.sameMem_leave _, Work.put_get_same _ _ _, fun n hn => ?_⟩
    exact Work.put_get_other _ _ (by simpa using hn)
  · intro i code out hi
    simp only [List.mem_cons, Prod.mk.injEq, List.not_mem_nil, or_false] at hi
    obtain ⟨rfl, rfl, rfl⟩ | ⟨rfl, rfl, rfl⟩ := hi
    · obtain ⟨t, he, hm, hc, hk, ht⟩ := State.tap_acts (i := .idcode) (fun _ => rfl) lost rfl rfl (fun n => Work.tapTake_get _ _ _ n)
      exact ⟨t, he, hm, hc, hk, by rw [ht]; rfl⟩
    · obtain ⟨t, he, hm, hc, hk, ht⟩ := State.tap_acts (i := .usercode) (fun _ => rfl) lost rfl rfl (fun n => Work.tapTake_get _ _ _ n)
      exact ⟨t, he, hm, hc, hk, by rw [ht]; rfl⟩
  · obtain ⟨t, he, hm, hc, hk, ht⟩ :=
      State.tap_acts (i := .samplePreload pins load) (fun _ => rfl) lost rfl rfl (fun n => Work.boundary_get _ _ _ _ n)
    exact ⟨t, he, hm, hc, hk, by rw [ht]; rfl, by rw [ht]; rfl⟩
  · have drives : ∃ act : Work → Work, (∀ w, Machine.work i w = w.tap code true act) ∧ (act s.work).out = s.work.out ∧
        ∀ n, (act s.work).get n = if n = Obj.tapInstr then code else s.get n := by
      simp only [List.mem_cons, Prod.mk.injEq, List.not_mem_nil, or_false] at hi
      obtain ⟨rfl, rfl⟩ | ⟨rfl, rfl⟩ | ⟨rfl, rfl⟩ | ⟨rfl, rfl⟩ | ⟨rfl, rfl⟩ := hi
      · exact ⟨_, fun _ => rfl, rfl, fun n => Work.boundary_get _ pins load _ n⟩
      · exact ⟨_, fun _ => rfl, rfl, fun n => Work.tapTake_get _ _ _ n⟩
      · exact ⟨_, fun _ => rfl, rfl, fun n => Work.tapTake_get _ _ _ n⟩
      · exact ⟨_, fun _ => rfl, rfl, fun n => Work.boundary_get _ pins load _ n⟩
      · exact ⟨_, fun _ => rfl, rfl, fun n => Work.boundary_get _ pins load _ n⟩
    obtain ⟨act, work, out, get⟩ := drives
    refine ⟨fun on => ?_, fun off => State.tap_denied work lost off⟩
    obtain ⟨t, he, hm, hc, hk, _⟩ := State.tap_acts work lost (by rw [on]; rfl) out get
    exact ⟨t, he, hm, hc, hk⟩
  · obtain ⟨t, he, hm, hc, hk, _⟩ := State.tap_acts (i := .bypass code) (code := 0xFF) (test := false) (act := Work.tapBypass)
      (fun w => by show opBypass code w = _; unfold opBypass; rw [unlisted]; rfl) lost rfl rfl (fun n => Work.tapTake_get _ _ _ n)
    exact ⟨t, he, hm, hc, hk⟩

/-! ### Object windows -/

/-- A function's window, once replaced. -/
theorem Work.putWindow_window {v : Window} {fn : Nat} (h : v.fn = fn) (w : Work) : (w.putWindow v).window fn = v := by
  show ((v :: w.dict.windows.filter (fun u => u.fn != v.fn)).find? (fun u => u.fn == fn)).getD _ = v
  rw [List.find?_cons_of_pos (by simpa using h)]
  rfl

/-- A window is that of its function. -/
theorem Dev.window_fn (w : Dev) (fn : Nat) : (w.window fn).fn = fn := by
  unfold Dev.window
  cases h : w.dict.windows.find? (fun v => v.fn == fn) with
  | none => rfl
  | some v => simpa using List.find?_some h

/-- A read that clears what it reads takes no time. -/
theorem Work.clearRead_time (r : ObjRow) (n off len : Nat) (w : Work) : (w.clearRead r n off len).time = w.time := by
  unfold Work.clearRead
  (repeat' split) <;> rfl

theorem Work.objRd_time (wr : Writer) (n off len : Nat) (active : Bool) (w : Work) : (w.objRd wr n off len active).2.time = w.time := by
  unfold Work.objRd
  dsimp only
  split
  · rfl
  split
  · rfl
  split
  · rfl
  split
  · exact Work.clearRead_time _ _ _ _ _
  · exact Work.clearRead_time _ _ _ _ _

/-- An operation on a window that is free sets it busy, with the status of the operation. -/
theorem Work.winStart_taken {fn : Fin 16} {object off len : Nat} {active : Bool} {put : List Byte}
    {act : Work → (Nat × Option (List Nat)) × Work} {w : Work} (up : w.windowUp fn = true) (idle : (w.window fn).busy = false)
    (short : len ≤ 4096) :
    ∃ v, w.winStart fn object off len active put act = ((act w).2.afterAnswer).putWindow v ∧ v.fn = fn ∧ v.busy = true ∧
      v.start = (act w).2.time ∧ v.object = object % 2 ^ 24 ∧ v.next = (act w).1.1 := by
  unfold Work.winStart
  extract_lets v
  have free : ¬ v.busy = true := by
    rw [show v.busy = false from idle]
    decide
  rw [if_neg (by rw [up]; decide), if_neg free, if_neg (by omega)]
  obtain ⟨⟨st, out⟩, w'⟩ := act w
  exact ⟨_, rfl, w.window_fn fn, rfl, rfl, rfl, rfl⟩

/-- An operation on a window that is busy changes nothing. -/
theorem Work.winStart_busy {fn : Fin 16} {object off len : Nat} {active : Bool} {put : List Byte}
    {act : Work → (Nat × Option (List Nat)) × Work} {w : Work} (up : w.windowUp fn = true) (busy : (w.window fn).busy = true) :
    w.winStart fn object off len active put act = w := by
  unfold Work.winStart
  extract_lets v
  rw [if_neg (by rw [up]; decide), if_pos (show v.busy = true from busy)]

/-- What a write through a window leaves in it. -/
theorem State.window_taken {s : State} {i : Instr} {fn : Fin 16} {object off len : Nat} {active : Bool} {put : List Byte}
    {act : Work → (Nat × Option (List Nat)) × Work} (hi : Machine.work i s.work = s.work.winStart fn object off len active put act)
    (up : s.windowUp fn = true) (idle : (s.window fn).busy = false) (short : len ≤ 4096) (sound : (Machine.work i s.work).Sound) :
    ∃ t, exec i s = .next t ∧ (t.window fn).busy = true ∧ (t.window fn).next = (act s.work).1.1 := by
  obtain ⟨v, e, hfn, hbusy, _, _, hnext⟩ :=
    Work.winStart_taken (object := object) (off := off) (active := active) (put := put) (act := act) (w := s.work) up idle short
  have window : (s.after (Machine.work i)).window fn = v := by
    unfold Dev.window
    rw [State.after_dict, hi, e]
    exact Work.putWindow_window hfn _
  exact ⟨_, exec_sound sound, by rw [window, hbusy], by rw [window, hnext]⟩

/-- Settles O51: an operation runs on a free window, is ignored on a busy one, and ends once. -/
theorem windowsOperate : Obligations.WindowsOperate := by
  unfold Obligations.WindowsOperate
  refine ⟨fun fn n off len act s up idle short => ?_, fun fn n off data s up idle short => ⟨fun sound => ?_, fun sound => ?_⟩,
    fun fn n off len act data s up busy i hi => ?_, fun fn s up busy due => ?_⟩
  · obtain ⟨v, e, hfn, hbusy, hstart, hobject, hnext⟩ :=
      Work.winStart_taken (object := n) (off := off) (active := act) (put := [])
        (act := fun w => let ((st, l), w) := w.objRd (.fn fn) (n % 2 ^ 24) off len act
                         ((st, if st = 0 ∨ st = 0x121 then some l else none), w)) (w := s.work) up idle short
    have window : (s.leave (((s.work.objRd (.fn fn) (n % 2 ^ 24) off len act).2.afterAnswer).putWindow v)).window fn = v :=
      Work.putWindow_window hfn _
    refine ⟨_, exec_leave e ?_, s.sameMem_leave _, ?_, ?_, ?_, ?_⟩
    · simp
    · rw [window, hbusy]
    · rw [window, hstart]
      exact Work.objRd_time _ _ _ _ _ _
    · rw [window, hobject]
    · rw [window, hnext]
  · exact State.window_taken (i := .winWrite fn n off data) (object := n) (off := off) (active := false) (put := data.take 4096)
      (act := fun w => let (st, w) := w.objWr (.fn fn) (n % 2 ^ 24) off data
                       ((st, none), w)) rfl up idle short sound
  · exact State.window_taken (i := .winWriteRead fn n off data) (object := n) (off := off) (active := false) (put := data.take 4096)
      (act := fun w => let ((st, l), w) := w.objWrRd (.fn fn) (n % 2 ^ 24) off data
                       ((st, if st = 0 then some l else none), w)) rfl up idle short sound
  · have e : Machine.work i s.work = s.work := by
      simp only [List.mem_cons, List.not_mem_nil, or_false] at hi
      obtain rfl | rfl | rfl := hi
      · show opWinRead fn n off len act s.work = s.work
        unfold opWinRead
        exact Work.winStart_busy up busy
      · show opWinWrite fn n off data s.work = s.work
        unfold opWinWrite
        exact Work.winStart_busy up busy
      · show opWinWriteRead fn n off data s.work = s.work
        unfold opWinWriteRead
        exact Work.winStart_busy up busy
    exact ⟨_, exec_leave e rfl, s.sameMem_leave _, fun _ _ => rfl, rfl⟩
  · have e : Machine.work (.winOpDone fn) s.work = s.work.putWindow { s.window fn with
        busy := false, done := ((s.window fn).done + 1) % 2 ^ 32, status := (s.window fn).next } := if_pos ⟨busy, up, due⟩
    have window : (s.leave (Machine.work (.winOpDone fn) s.work)).window fn = { s.window fn with
        busy := false, done := ((s.window fn).done + 1) % 2 ^ 32, status := (s.window fn).next } := by
      rw [e]
      refine Work.putWindow_window ?_ _
      exact s.window_fn fn
    refine ⟨_, exec_quiet (opWinOpDone_out _ _), s.sameMem_leave _, fun _ _ => ?_, ?_, ?_, ?_⟩
    · rw [e]
      rfl
    · rw [window]
    · rw [window]
    · rw [window]

end Sys2Proof.Machine

namespace Sys2Proof.Machine

/-! ### The management port -/

/-- A frame on the wire counts at most. -/
theorem Work.mgmtSend_get (m : OutMsg) (w : Work) {n : Nat} (h : n ≠ Obj.mgmtTxFrames) : (w.mgmtSend m).get n = w.get n := by
  unfold Work.mgmtSend
  split
  · exact Work.bump_get_other _ _ h
  · rfl

theorem Work.mgmtSend_log (m : OutMsg) (w : Work) : (w.mgmtSend m).log = w.log := by
  unfold Work.mgmtSend
  split <;> rfl

/-- A session that closes leaves the other sessions, the pending copies and every object that is not the log unit's. -/
theorem Work.hokClosed_sessions (s : HokSession) (reason : Nat) (w : Work) :
    (w.hokClosed s reason).dict.sessions = w.dict.sessions.filter (fun q => q.s != s.s) := by
  unfold Work.hokClosed
  rw [Work.log1_dict]

theorem Work.hokClosed_get (s : HokSession) (reason : Nat) (w : Work) {n : Nat} (h : n ∉ logObjs) :
    (w.hokClosed s reason).get n = w.get n := Work.log1_get _ _ _ _ _ _ h

theorem Work.hokClosed_getP (s : HokSession) (reason : Nat) (w : Work) (n : Nat) : (w.hokClosed s reason).getP n = w.getP n := by
  unfold Work.hokClosed Dev.getP
  rw [Work.log1_objP]

/-- Once every session has closed none is open. -/
theorem Work.hokClosed_all (reason : Nat) (w : Work) :
    (w.dict.sessions.foldl (fun (w : Work) (s : HokSession) => w.hokClosed s reason) w).dict.sessions = [] := by
  have left : ∀ (l : List HokSession) (w : Work), (∀ q ∈ w.dict.sessions, q ∈ l) →
      (l.foldl (fun (w : Work) (s : HokSession) => w.hokClosed s reason) w).dict.sessions = [] := by
    intro l
    induction l with
    | nil => exact fun w h => List.eq_nil_iff_forall_not_mem.mpr (fun q hq => by cases h q hq)
    | cons s l ih =>
      intro w h
      refine ih _ (fun q hq => ?_)
      rw [Work.hokClosed_sessions, List.mem_filter] at hq
      obtain ⟨hq, other⟩ := hq
      rcases List.mem_cons.mp (h q hq) with rfl | hl
      · simp at other
      · exact hl
  exact left _ w (fun _ h => h)

theorem Work.hokClosed_all_get (reason : Nat) (l : List HokSession) (w : Work) {n : Nat} (h : n ∉ logObjs) :
    (l.foldl (fun (w : Work) (s : HokSession) => w.hokClosed s reason) w).get n = w.get n :=
  foldl_frame (fun w => w.get n) (fun w s => w.hokClosed_get s reason h) l w

/-- A datagram of the type that is waited for reaches its action. -/
theorem Work.hokTake_acts {f : HokRx} {type : Nat} {act : Work → Work} {w : Work} (live : w.mgmtLive = true)
    (short : f.bytes.length ≤ 9120) (long : 16 ≤ f.bytes.length) (ver : hokVer (hokHdrOf f) = 1)
    (len : hokLen (hokHdrOf f) = f.bytes.length - 16) (typ : hokType (hokHdrOf f) = type) :
    w.hokTake f type act = act (w.bump Obj.mgmtRxFrames 1) := by
  unfold Work.hokTake
  dsimp only
  rw [if_neg (by rw [live]; decide), if_neg (by omega), if_neg (by omega), if_neg (by rw [ver]; decide),
    if_neg (not_or.mpr ⟨not_not_intro len, not_not_intro typ⟩)]

/-- A BLOB's numbers depend on its copy only. -/
theorem Dev.blobNat_congr {w w' : Dev} {c : Copy} (h : w'.blobs c = w.blobs c) (n off k : Nat) : w'.blobNat c n off k = w.blobNat c n off k := by
  induction k generalizing off with
  | zero => rfl
  | succ k ih =>
    unfold Dev.blobNat
    rw [h, ih]

theorem Dev.notifyDest_congr {w w' : Dev} (h : w'.blob = w.blob) (i : Nat) : w'.notifyDest i = w.notifyDest i := by
  unfold Dev.notifyDest
  rw [Dev.blobNat_congr (c := .active) h]

theorem opHokNotifyAckRx_acks {f : HokRx} {w : Work} (live : w.mgmtLive = true) (short : f.bytes.length ≤ 9120)
    (long : 16 ≤ f.bytes.length) (ver : hokVer (hokHdrOf f) = 1) (len : hokLen (hokHdrOf f) = f.bytes.length - 16)
    (typ : hokType (hokHdrOf f) = 6) (sid : hokSid (hokHdrOf f) = 0) :
    opHokNotifyAckRx f w = (w.bump Obj.mgmtRxFrames 1).acked f.src (hokSeq (hokHdrOf f)) := by
  unfold opHokNotifyAckRx
  rw [Work.hokTake_acts live short long ver len typ, if_pos sid]

/-- An acknowledgement of a signed notification ends the wait for it. -/
theorem hokNotifyAckRx_signed {f : HokRx} {s : State} (live : s.mgmtLive = true) (short : f.bytes.length ≤ 9120)
    (long : 16 ≤ f.bytes.length) (ver : hokVer (hokHdrOf f) = 1) (len : hokLen (hokHdrOf f) = f.bytes.length - 16)
    (typ : hokType (hokHdrOf f) = 6) (sid : hokSid (hokHdrOf f) = 0) :
    ∃ t, exec (.hokNotifyAckRx f) s = .next t ∧ s.SameMem t ∧ s.KeepsBut t [Obj.mgmtRxFrames] ∧
      ∀ n ∈ t.log.notifs, n.seq = hokSeq (hokHdrOf f) → (s.notifyDest n.dest).1 ≠ f.src := by
  have e := opHokNotifyAckRx_acks (f := f) (w := s.work) live short long ver len typ sid
  refine ⟨_, exec_leave (i := .hokNotifyAckRx f) e rfl, s.sameMem_leave _, fun n hn => ?_, fun n hn seq src => ?_⟩
  · exact Work.bump_get_other _ _ (by simpa using hn)
  · obtain ⟨_, kept⟩ := List.mem_filter.mp hn
    have same : (s.work.bump Obj.mgmtRxFrames 1).notifyDest n.dest = s.notifyDest n.dest := Dev.notifyDest_congr rfl _
    rw [same] at kept
    simp [seq, src] at kept

/-- A notification that no acknowledgement answers in time is sent again. -/
theorem opNotifyResend_again {k : Fin 4} {seq : Nat} {n : Notif} {w : Work}
    (found : w.log.notifs.find? (fun n => n.dest == k.val && n.seq == seq) = some n) (due : 100000000 ≤ w.since n.sentAt)
    (few : n.resends < 3) :
    ∃ m, opNotifyResend k seq w = Work.mgmtSend m { w with log := { w.log with
      notifs := w.log.notifs.filter (fun m => !(m.dest == k.val && m.seq == seq)) ++
        [{ n with sentAt := w.time, resends := n.resends + 1 }] } } := by
  unfold opNotifyResend
  rw [found]
  dsimp only
  rw [if_neg (Nat.not_lt.mpr due), if_pos few]
  exact ⟨_, rfl⟩

/-- After three more it counts as lost. -/
theorem opNotifyResend_lost {k : Fin 4} {seq : Nat} {n : Notif} {w : Work}
    (found : w.log.notifs.find? (fun n => n.dest == k.val && n.seq == seq) = some n) (due : 100000000 ≤ w.since n.sentAt)
    (many : 3 ≤ n.resends) :
    opNotifyResend k seq w = (Work.bump Obj.notifyLost 1 { w with log := { w.log with
      notifs := w.log.notifs.filter (fun m => !(m.dest == k.val && m.seq == seq)) } }).notifyLostEvent k := by
  unfold opNotifyResend
  rw [found]
  dsimp only
  rw [if_neg (Nat.not_lt.mpr due), if_neg (Nat.not_lt.mpr many)]

/-- A frame for nobody is dropped and counted. -/
theorem mgmtFrameRx_other {s : State} (live : s.mgmtLive = true) :
    ∃ t, exec (.mgmtFrameRx .other) s = .next t ∧ s.SameMem t ∧ s.KeepsBut t [Obj.mgmtRxFrames, Obj.mgmtRxDrop] ∧
      t.get Obj.mgmtRxDrop = min (s.get Obj.mgmtRxDrop + 1) (maxU 64) := by
  have e : Machine.work (.mgmtFrameRx .other) s.work = (s.work.bump Obj.mgmtRxFrames 1).bump Obj.mgmtRxDrop 1 := by
    show opMgmtFrameRx .other s.work = _
    unfold opMgmtFrameRx
    rw [if_neg (show ¬ (!s.work.mgmtLive) = true from by rw [show s.work.mgmtLive = true from live]; decide)]
  refine ⟨_, exec_leave e rfl, s.sameMem_leave _, fun n hn => ?_, ?_⟩
  · simp only [List.mem_cons, List.not_mem_nil, or_false, not_or] at hn
    exact (Work.bump_get_other _ _ hn.2).trans (Work.bump_get_other _ _ hn.1)
  · rw [State.leave_toDev, Work.bump_get_same, Work.bump_get_other _ _ (by decide)]
    rfl

/-- HOK_COMMIT as it is taken: the keys in force, the port pending. -/
theorem Work.hokReq_taken {wr : Writer} {w : Work} (serves : w.serves wr Obj.hokCommit = true) (reaches : w.reaches wr .host = true)
    (free : w.get Obj.hokCommit ≠ 1) :
    w.hokReq wr = (((w.groupToPend [Obj.hokPort] [Obj.hokKeys]).put Obj.hokCommit 1).groupToActive [] [Obj.hokKeys]).persist Obj.hokKeys := by
  unfold Work.hokReq
  rw [Work.gated_takes _ _ _ _ _ serves reaches, if_neg free, Work.commitReq_taken _ _ _ free]

theorem Work.persist_get (n : Nat) (w : Work) (j : Nat) : (w.persist n).get j = w.get j := rfl

/-- The pending port comes into force; every session closes where it changes. -/
theorem Work.hokApply_due {w : Work} (due : w.get Obj.hokCommit = 1) :
    w.hokApply.get Obj.hokCommit = 0 ∧ w.hokApply.get Obj.hokPort = w.getP Obj.hokPort ∧
      (w.getP Obj.hokPort ≠ w.get Obj.hokPort → w.hokApply.dict.sessions = []) := by
  unfold Work.hokApply
  rw [if_pos due]
  extract_lets closed was moved
  have closedPort : closed.get Obj.hokPort = w.get Obj.hokPort ∧ closed.getP Obj.hokPort = w.getP Obj.hokPort := by
    constructor
    · refine foldl_frame (fun w => w.get Obj.hokPort) (fun w q => ?_) _ w
      split
      · rfl
      · exact (Work.hokClosed_get _ _ _ (by decide)).trans (Work.mgmtSend_get _ _ (by decide))
    · refine foldl_frame (fun w => w.getP Obj.hokPort) (fun w q => ?_) _ w
      split
      · rfl
      · refine (Work.hokClosed_getP _ _ _ _).trans ?_
        unfold Work.sendClose Work.mgmtSend
        split <;> rfl
  have movedCommit : moved.get Obj.hokCommit = 0 := (Work.persist_get _ _ _).trans (Work.put_get_same _ _ _)
  have movedPort : moved.get Obj.hokPort = w.getP Obj.hokPort := by
    refine (Work.persist_get _ _ _).trans ((Work.put_get_other _ _ (by decide)).trans ?_)
    rw [Work.groupToActive_get, if_pos List.mem_cons_self]
    exact closedPort.2
  split
  · next same =>
    refine ⟨movedCommit, movedPort, fun change => absurd ?_ change⟩
    rw [← movedPort, same]
    exact closedPort.1
  · exact ⟨(Work.hokClosed_all_get _ _ _ (by decide)).trans movedCommit, (Work.hokClosed_all_get _ _ _ (by decide)).trans movedPort,
      fun _ => Work.hokClosed_all _ _⟩

/-- The pending group comes into force, and every session closes. -/
theorem Work.mgmtApply_due {w : Work} (due : w.get Obj.mgmtCommit = 1) :
    w.mgmtApply.get Obj.mgmtCommit = 0 ∧ w.mgmtApply.dict.sessions = [] ∧ ∀ n ∈ mgmtScalars, w.mgmtApply.get n = w.getP n := by
  unfold Work.mgmtApply
  rw [if_pos due]
  extract_lets moved kept
  have keptGet : ∀ n, kept.get n = moved.get n := fun n => foldl_frame (fun w => w.get n) (fun w k => w.persist_get k n) _ _
  refine ⟨?_, Work.hokClosed_all _ _, fun n hn => ?_⟩
  · refine (Work.hokClosed_all_get _ _ _ (by decide)).trans ?_
    rw [keptGet]
    exact Work.put_get_same _ _ _
  · have plain : n ∉ logObjs ∧ n ≠ Obj.mgmtCommit := by
      revert n
      decide
    refine (Work.hokClosed_all_get _ _ _ plain.1).trans ?_
    rw [keptGet]
    refine (Work.put_get_other _ _ plain.2).trans ?_
    rw [Work.groupToActive_get, if_pos hn]

/-- Settles O53: what the management port does with what reaches it, and its commits. -/
theorem managementPort : Obligations.ManagementPort := by
  unfold Obligations.ManagementPort
  refine ⟨fun f s live short long ver len typ sid => hokNotifyAckRx_signed live short long ver len typ sid,
    fun k seq n s found due => ⟨fun few => ?_, fun many => ?_⟩, fun s live => mgmtFrameRx_other live,
    fun wr s => ⟨fun takes free => ?_, fun takes free => ?_, fun takes => ?_⟩, fun s => ⟨fun up => ?_, ?_⟩⟩
  · have named : (n.dest == k.val && n.seq == seq) = true := by simpa using List.find?_some found
    obtain ⟨m, e⟩ := opNotifyResend_again (w := s.work) found due few
    refine ⟨_, exec_quiet (opNotifyResend_out _ _ _), s.sameMem_leave _, fun j hj => ?_, ?_⟩
    · exact (congrArg (fun w : Work => w.get j) e).trans (Work.mgmtSend_get _ _ (by simpa using hj))
    · refine (congrArg (fun w : Work => w.log.notifs.any _) e).trans ?_
      dsimp only
      rw [Work.mgmtSend_log, List.any_append, Bool.or_eq_true]
      refine .inr ?_
      simp only [List.any_cons, List.any_nil, Bool.or_false, named, beq_self_eq_true, Bool.true_and]
      exact beq_self_eq_true _
  · have e := opNotifyResend_lost (w := s.work) found due many
    have told : s.work.Logs (opNotifyResend k seq s.work) := by
      rw [e]
      exact ((Work.logs_setLog _ _).trans (Work.logs_bump _ _ (by decide))).trans (Work.logs_eventLimited _ _ _ _ _ _ _)
    refine ⟨_, exec_quiet (opNotifyResend_out _ _ _), s.sameMem_leave _, fun j hj => told.get j hj, ?_⟩
    refine Nat.le_trans ?_ (Nat.le_of_eq (congrArg (fun w : Work => w.get Obj.notifyLost) e).symm)
    refine (Work.logs_eventLimited _ _ _ _ _ _ _).lost _ (Nat.min_le_right _ _) ?_
    rw [Work.bump_get_same]
    exact Nat.le_refl _
  · obtain ⟨serves, reaches⟩ := takes
    have taken := Work.hokReq_taken (w := s.work) serves reaches free
    have due : (s.work.hokReq wr).get Obj.hokCommit = 1 := by
      rw [taken]
      refine (Work.groupToActive_get _ _ _ _).trans ?_
      rw [if_neg (List.not_mem_nil), Work.put_get_same]
    have pending : (s.work.hokReq wr).getP Obj.hokPort = s.getS Obj.hokPort := by
      rw [taken]
      refine (Work.groupToActive_getP _ _ _ _).trans ?_
      refine (Work.groupToPend_getP _ _ _ _).trans ?_
      rw [if_pos List.mem_cons_self]
      rfl
    have was : (s.work.hokReq wr).get Obj.hokPort = s.get Obj.hokPort := by
      rw [taken]
      refine (Work.groupToActive_get _ _ _ _).trans ?_
      rw [if_neg (List.not_mem_nil), Work.put_get_other _ _ (by decide), Work.groupToPend_get]
      rfl
    obtain ⟨done, port, closed⟩ := Work.hokApply_due due
    rw [pending] at port closed
    rw [was] at closed
    exact ⟨_, exec_quiet (opHokCommit_out _ _), s.sameMem_leave _, done, port, fun change => closed (fun same => change (port.trans same))⟩
  · obtain ⟨serves, reaches⟩ := takes
    have taken : s.work.mgmtReq wr = (s.work.groupToPend mgmtScalars mgmtBlobs).put Obj.mgmtCommit 1 :=
      (Work.gated_takes _ _ _ _ _ serves reaches).trans (Work.commitReq_taken _ _ _ free)
    have due : (s.work.mgmtReq wr).get Obj.mgmtCommit = 1 := by rw [taken, Work.put_get_same]
    obtain ⟨done, closed, moved⟩ := Work.mgmtApply_due due
    refine ⟨_, exec_quiet (opMgmtCommit_out _ _), s.sameMem_leave _, done, closed, fun n hn => (moved n hn).trans ?_⟩
    rw [taken]
    refine (Work.groupToPend_getP _ _ _ _).trans ?_
    rw [if_pos hn]
    rfl
  · obtain ⟨serves, reaches⟩ := takes
    have e : Machine.work (.notifyCommit wr) s.work =
        ((s.work.groupToPend [] [Obj.notifyDest]).groupToActive [] [Obj.notifyDest]).persist Obj.notifyDest := by
      show opNotifyCommit wr s.work = _
      unfold opNotifyCommit
      exact Work.gated_takes _ _ _ _ _ serves reaches
    refine ⟨_, exec_leave e rfl, s.sameMem_leave _, fun n _ => ?_, List.mem_append_right _ List.mem_cons_self⟩
    refine (Work.groupToActive_get _ _ _ _).trans ?_
    rw [if_neg (List.not_mem_nil), Work.groupToPend_get]
    rfl
  · have e : Machine.work .mgmtLinkUp s.work = s.work.put Obj.mgmtLink 1 := if_pos up
    exact ⟨_, exec_leave e rfl, s.sameMem_leave _, Work.put_get_same _ _ _, fun n hn => Work.put_get_other _ _ (by simpa using hn)⟩
  · exact ⟨_, exec_leave (w := s.work.put Obj.mgmtLink 0) rfl rfl, s.sameMem_leave _, Work.put_get_same _ _ _,
      fun n hn => Work.put_get_other _ _ (by simpa using hn)⟩


/-! ### Doorbells -/

/-- A doorbell to the writer's own page is looked at while the device is READY. -/
theorem Work.doorbell_served {fn x : Nat} (act : Work → Work) {w : Work} (own : fn = 0 ∨ fn = x) (ready : w.ready = true) :
    w.doorbell fn x act = act w := by
  unfold Work.doorbell
  rw [if_neg (by omega), if_pos ready]

/-- Nothing is paid to a queue that no record is owed to. -/
theorem Work.payOwed_none {x q : Nat} (k : Nat) {w : Work} (none_ : w.q.owed.find? (fun o => o.ctx == x && o.q == q) = none) :
    w.payOwed x q k = w := by
  cases k with
  | zero => rfl
  | succ k =>
    unfold Work.payOwed
    rw [none_]

/-- Settles O9: a doorbell that passes the checks writes its own register. -/
theorem doorbellsTakeEffect : Obligations.DoorbellsTakeEffect := by
  unfold Obligations.DoorbellsTakeEffect
  have own : ∀ {fn x : Fin 16}, fn = 0 ∨ fn = x → fn.val = 0 ∨ fn.val = x.val :=
    fun h => h.imp (congrArg Fin.val) (congrArg Fin.val)
  refine ⟨fun fn x q v s page ready here committed tail head => ?_, fun fn x q v s page ready here committed head owed => ?_⟩
  · have e : Machine.work (.doorbellSqTail fn x q 32 v) s.work = s.work.put (Obj.sqTail x q) (v % 2 ^ 32) := by
      show opDoorbellSqTail fn x q 32 v s.work = _
      unfold opDoorbellSqTail
      exact (Work.doorbell_served _ (own page) ready).trans (if_pos ⟨rfl, here, committed, tail, head⟩)
    exact ⟨_, exec_leave e rfl, Work.put_get_same _ _ _, fun n hn => Work.put_get_other _ _ (by simpa using hn), s.sameMem_leave _, rfl⟩
  · have e : Machine.work (.doorbellCqHead fn x q 32 v) s.work = s.work.put (Obj.cqHead x q) (v % 2 ^ 32) := by
      show opDoorbellCqHead fn x q 32 v s.work = _
      unfold opDoorbellCqHead
      refine (Work.doorbell_served _ (own page) ready).trans ((if_pos ⟨rfl, here, committed, head⟩).trans ?_)
      exact Work.payOwed_none _ owed
    exact ⟨_, exec_leave e rfl, Work.put_get_same _ _ _, fun n hn => Work.put_get_other _ _ (by simpa using hn), s.sameMem_leave _, rfl⟩

/-! ### Tension regulators -/

/-- Regulator r stands at its key. -/
def Dev.HasReg (w : Dev) (r : Reg) : Prop := w.ext.regs.find? (fun q => q.ctx == r.ctx && q.t == r.t && q.h == r.h) = some r

theorem Dev.HasReg.reg {w : Dev} {r : Reg} (h : w.HasReg r) {x t k : Nat} (kx : r.ctx = x) (kt : r.t = t) (kh : r.h = k) :
    w.reg x t k = r := by
  subst kx kt kh
  unfold Dev.reg
  rw [h]

theorem Work.hasReg_putReg (r : Reg) (w : Work) : (w.putReg r).HasReg r := by
  unfold Dev.HasReg Work.putReg
  simp

/-- The regulator found is the one asked for. -/
theorem Dev.reg_key (w : Dev) (x t h : Nat) : (w.reg x t h).ctx = x ∧ (w.reg x t h).t = t ∧ (w.reg x t h).h = h := by
  unfold Dev.reg
  split
  · next r found => simpa [and_assoc] using List.find?_some found
  · exact ⟨rfl, rfl, rfl⟩

/-- A regulator that has seen no request holds none and counts none. -/
theorem Dev.reg_req_of_none {w : Dev} {x t h : Nat} (fresh : w.ext.regs.find? (fun r => r.ctx == x && r.t == t && r.h == h) = none) :
    (w.reg x t h).req = 0 := by
  unfold Dev.reg
  rw [fresh]

/-- A request that passes counts its bytes and no other object. -/
theorem Work.regPass_get {r : Reg} {x t : Nat} (kx : r.ctx = x) (kt : r.t = t) (n : Nat) (w : Work) {m : Nat}
    (h : m ∉ [Obj.tierBytes x t, Obj.guarBytes x t]) : (w.regPass r n).get m = w.get m := by
  subst kx kt
  simp only [List.mem_cons, List.not_mem_nil, or_false, not_or] at h
  unfold Work.regPass
  extract_lets guar r' w'
  have tier : w'.get m = w.get m := Work.bump_get_other _ _ h.1
  split
  · exact (Work.bump_get_other _ _ h.2).trans tier
  · exact tier

theorem Obj.tierBytes_ne_guarBytes (x t : Nat) : Obj.tierBytes x t ≠ Obj.guarBytes x t := by
  unfold Obj.tierBytes Obj.guarBytes
  omega

theorem Work.regPass_tierBytes {r : Reg} {x t : Nat} (kx : r.ctx = x) (kt : r.t = t) (n : Nat) (w : Work) :
    (w.regPass r n).get (Obj.tierBytes x t) = min (w.get (Obj.tierBytes x t) + n) (maxU 64) := by
  subst kx kt
  unfold Work.regPass
  extract_lets guar r' w'
  have tier : w'.get (Obj.tierBytes r.ctx r.t) = min (w.get (Obj.tierBytes r.ctx r.t) + n) (maxU 64) := Work.bump_get_same _ _ _
  split
  · exact (Work.bump_get_other _ _ (Obj.tierBytes_ne_guarBytes _ _)).trans tier
  · exact tier

/-- The requests held stay as they were handed over. -/
theorem Work.regPass_held {r : Reg} {x t k : Nat} (kx : r.ctx = x) (kt : r.t = t) (kh : r.h = k) (n : Nat) (w : Work) :
    ((w.regPass r n).reg x t k).held = r.held := by
  unfold Work.regPass
  extract_lets guar r' w'
  have has : w'.HasReg r' := Work.hasReg_putReg r' w
  have held : (w'.reg x t k).held = r.held := by rw [has.reg kx kt kh]
  split
  · have guarded : (w'.bump (Obj.guarBytes r'.ctx r'.t) n).HasReg r' := has
    rw [guarded.reg kx kt kh]
  · exact held

/-- Once the shares are taken anew no request is counted. -/
theorem opRegulatorShareUpdate_req {w : Work} (due : 10000 ≤ w.since w.ext.shareAt) :
    ∀ r ∈ (opRegulatorShareUpdate w).ext.regs, r.req = 0 := by
  unfold opRegulatorShareUpdate
  rw [if_pos due]
  extract_lets at1 upd more
  intro r hr
  rcases List.mem_append.mp hr with hr | hr
  · obtain ⟨q, _, rfl⟩ := List.mem_map.mp hr
    rfl
  · obtain ⟨q, _, hq⟩ := List.mem_filterMap.mp hr
    split at hq
    · cases hq
    · next alone =>
      cases hq
      refine Dev.reg_req_of_none (List.find?_eq_none.mpr (fun p hp same => alone ?_))
      simp only [Bool.and_eq_true, beq_iff_eq] at same
      refine List.any_eq_true.mpr ⟨p, hp, ?_⟩
      simp only [Bool.and_eq_true, beq_iff_eq, bne_iff_ne, same.1.1, same.1.2, same.2, true_and]
      omega

/-- Settles O23: a request counts or is held, a held one leaves in its turn, and the shares are taken anew every 10 µs. -/
theorem regulatorsMeter : Obligations.RegulatorsMeter := by
  unfold Obligations.RegulatorsMeter
  refine ⟨fun x k h n tb s => ⟨fun passes => ?_, fun holds => ?_⟩, fun x k h n since rest s held passes => ?_, fun s due => ?_⟩
  · obtain ⟨kx, kt, kh⟩ := Dev.reg_key s.toDev x.val k.val h.val
    have e : Machine.work (.regulatorRequest x k h n tb) s.work = s.work.regPass
        { s.refill (s.reg x k h) with req := (s.refill (s.reg x k h)).req + ceilDiv n 32 * 32 } (ceilDiv n 32 * 32) :=
      if_neg (ne_true_of_eq_false passes)
    refine ⟨_, exec_leave e (by rw [← e]; exact opRegulatorRequest_out _ _ _ _ _ _), s.sameMem_leave _, ?_, fun m hm => ?_⟩
    · exact Work.regPass_tierBytes (r := { s.refill (s.reg x k h) with req := _ }) kx kt _ _
    · exact Work.regPass_get (r := { s.refill (s.reg x k h) with req := _ }) kx kt _ _ hm
  · obtain ⟨kx, kt, kh⟩ := Dev.reg_key s.toDev x.val k.val h.val
    obtain ⟨r, rx, rt, rh, held, e⟩ : ∃ r : Reg, r.ctx = x ∧ r.t = k ∧ r.h = h ∧
        r.held = (s.reg x k h).held ++ [(ceilDiv n 32 * 32, s.time)] ∧
        Machine.work (.regulatorRequest x k h n tb) s.work = s.work.putReg r :=
      ⟨{ s.refill (s.reg x k h) with
          req := (s.refill (s.reg x k h)).req + ceilDiv n 32 * 32
          held := (s.reg x k h).held ++ [(ceilDiv n 32 * 32, s.time)] }, kx, kt, kh, rfl, if_pos holds⟩
    refine ⟨_, exec_leave e rfl, s.sameMem_leave _, fun _ _ => rfl, ?_⟩
    rw [State.leave_toDev, (Work.hasReg_putReg _ _).reg rx rt rh, held]
  · obtain ⟨kx, kt, kh⟩ := Dev.reg_key s.toDev x.val k.val h.val
    have e : Machine.work (.regulatorRetry x k h) s.work = (s.work.bump (Obj.heldNs x k) (s.since since)).regPass
        { s.refill (s.reg x k h) with held := rest } n := by
      show opRegulatorRetry x k h s.work = _
      unfold opRegulatorRetry
      extract_lets r
      have hr : r.held = (n, since) :: rest := held
      rw [hr]
      exact if_neg (ne_true_of_eq_false passes)
    refine ⟨_, exec_leave e (by rw [← e]; exact opRegulatorRetry_out _ _ _ _), s.sameMem_leave _, ?_, ?_⟩
    · exact Work.regPass_held (r := { s.refill (s.reg x k h) with held := rest }) kx kt kh _ _
    · refine (Work.regPass_get (r := { s.refill (s.reg x k h) with held := rest }) kx kt _ _ ?_).trans (Work.bump_get_same _ _ _)
      simp only [List.mem_cons, List.not_mem_nil, or_false, not_or]
      unfold Obj.heldNs Obj.tierBytes Obj.guarBytes
      omega
  · refine ⟨_, exec_quiet (opRegulatorShareUpdate_out _), s.sameMem_leave _, fun m hm => ?_, ?_, opRegulatorShareUpdate_req due⟩
    · refine congrArg (fun w : Work => w.get m) (if_pos due)
    · refine congrArg (fun w : Work => w.ext.shareAt) (if_pos due)


/-! ### What a loop leaves in one object -/

/-- A loop whose steps that concern object n all leave v there, and of which one does, leaves v. -/
theorem foldl_get_hit {α : Type} {f : Work → α → Work} {n v : Nat} (concerns : α → Prop) {l : List α}
    (hit : ∀ w, ∀ b ∈ l, concerns b → (f w b).get n = v) (miss : ∀ w b, ¬ concerns b → (f w b).get n = w.get n)
    (some_ : ∃ b ∈ l, concerns b) (w : Work) : (l.foldl f w).get n = v := by
  have after : ∀ (l' : List α) (w : Work), (∀ b ∈ l', b ∈ l) → (w.get n = v ∨ ∃ b ∈ l', concerns b) → (l'.foldl f w).get n = v := by
    intro l'
    induction l' with
    | nil =>
      rintro w - (h | ⟨b, hb, -⟩)
      · exact h
      · cases hb
    | cons b l' ih =>
      intro w sub h
      refine ih _ (fun c hc => sub c (List.mem_cons_of_mem _ hc)) ?_
      by_cases hb : concerns b
      · exact .inl (hit w b (sub b List.mem_cons_self) hb)
      · rcases h with h | ⟨c, hc, pc⟩
        · exact .inl ((miss w b hb).trans h)
        · rcases List.mem_cons.mp hc with rfl | hc
          · exact absurd pc hb
          · exact .inr ⟨c, hc, pc⟩
  exact after l w (fun _ hb => hb) (.inr some_)

/-! ### Temperatures -/

/-- A poll leaves the k-th reading in the k-th of the objects it writes. -/
theorem foldl_put_zipIdx_get {key : Nat → Nat} (inj : ∀ i j, key i = key j → i = j) (val : Int → Nat) (l : List Int) {k : Nat}
    (h : k < l.length) (w : Work) :
    (l.zipIdx.foldl (fun (w : Work) p => w.put (key p.2) (val p.1)) w).get (key k) = val (l.getD k 0) := by
  refine foldl_get_hit (fun p => p.2 = k) (fun w p hp e => ?_) (fun w p e => ?_) ⟨(l[k], k), ?_, rfl⟩ w
  · obtain ⟨x, i⟩ := p
    subst e
    obtain ⟨_, at_, e⟩ := List.mem_zipIdx hp
    simp only [Work.put_get_same]
    rw [List.getD_eq_getElem?_getD, List.getElem?_eq_getElem h, Option.getD_some]
    simp [e]
  · exact Work.put_get_other _ _ (fun same => e (inj _ _ same).symm)
  · simp [List.mem_zipIdx_iff_getElem?, h]

theorem stackTemp_inj (i j : Nat) (h : Obj.stackTemp i = Obj.stackTemp j) : i = j := by
  unfold Obj.stackTemp at h
  omega

theorem pkgTemp_inj (i j : Nat) (h : Obj.pkgTemp i = Obj.pkgTemp j) : i = j := by
  unfold Obj.pkgTemp at h
  omega

/-! ### Training -/

theorem Work.setErased_get (p : ExtPlace) (ls : List Nat) (w : Work) (n : Nat) : (w.setErased p ls).get n = w.get n := by
  unfold Work.setErased
  split
  · exact Work.blobPut_get _ _ _ _ _ _ _
  · exact Work.blobPut_get _ _ _ _ _ _ _

theorem Work.laneTest_get (p : ExtPlace) (failed : List Nat) (w : Work) {n : Nat} (h : n ∉ logObjs) : (w.laneTest p failed).get n = w.get n := by
  unfold Work.laneTest
  extract_lets bad used m spared
  split
  · rfl
  · split
    · refine (foldl_frame (fun w => w.get n) (fun w l => Work.event_get _ _ _ _ w h) _ _).trans ?_
      exact (Work.setErased_get _ _ _ _).trans (Work.blobPut_get _ _ _ _ _ _ _)
    · exact Work.setErased_get _ _ _ _

/-- One part as training found it. -/
def trainedState (slow dead : List Nat) (p : Nat) : Nat := if dead.contains p then 4 else if slow.contains p then 3 else 2

theorem Work.trainRates_get (w : Work) {n : Nat} (fast : n ≠ Obj.fastRateMbps) (slow : n ≠ Obj.slowRateMts) : w.trainRates.get n = w.get n :=
  (Work.put_get_other _ _ slow).trans (Work.put_get_other _ _ fast)

/-- A part's state is none of the objects that training sets for a half, and none of the log unit's. -/
theorem partState_other (p : Nat) (h : p < 20) : partState p ∉ logObjs ∧ partState p ≠ Obj.halfOnline ∧
    partState p ≠ Obj.fastRateMbps ∧ partState p ≠ Obj.slowRateMts := by
  revert p
  decide

theorem partState_inj : ∀ p, p < 20 → ∀ q, partState p = partState q → p = q := by
  intro p hp q
  unfold partState Obj.stackState Obj.pkgState
  split <;> split <;> omega

theorem mem_halfParts {h p : Nat} (hh : h < 4) (hp : p ∈ halfParts h) : p < 20 := by
  unfold halfParts upto at hp
  split at hp
  · obtain ⟨i, hi, rfl⟩ := List.mem_map.mp hp
    have := List.mem_range.mp hi
    omega
  · obtain ⟨i, hi, rfl⟩ := List.mem_map.mp hp
    have := List.mem_range.mp hi
    omega

/-- Training leaves each part of its half as it found it. -/
theorem Work.trainDone_get {h : Nat} (slow dead : List Nat) (lanes : List (Nat × Nat × Nat)) (w : Work) (hh : h < 4) {p : Nat}
    (hp : p ∈ halfParts h) : (w.trainDone h slow dead lanes).get (partState p) = trainedState slow dead p := by
  obtain ⟨log, half, fast, slow_⟩ := partState_other p (mem_halfParts hh hp)
  unfold Work.trainDone
  extract_lets ps trained off old online told
  have parts : trained.get (partState p) = trainedState slow dead p := by
    refine foldl_get_hit (fun q => q = p) (fun w q _ same => ?_) (fun w q other => ?_) ⟨p, hp, rfl⟩ w
    · subst same
      extract_lets st put pl told
      refine (forUpto_frame (fun w => w.get (partState q)) (fun c w => Work.laneTest_get _ _ _ log) _ _).trans ?_
      unfold told
      split
      · exact Work.put_get_same _ _ _
      · exact (Work.event_get _ _ _ _ _ log).trans (Work.put_get_same _ _ _)
    · extract_lets st put pl told
      refine (forUpto_frame (fun w => w.get (partState p)) (fun c w => Work.laneTest_get _ _ _ log) _ _).trans ?_
      unfold told
      have put_get : put.get (partState p) = w.get (partState p) :=
        Work.put_get_other _ _ (fun same => other (partState_inj p (mem_halfParts hh hp) q same).symm)
      split
      · exact put_get
      · exact (Work.event_get _ _ _ _ _ log).trans put_get
  refine (Work.trainRates_get _ fast slow_).trans ?_
  unfold told
  have kept : online.get (partState p) = trainedState slow dead p := (Work.put_get_other _ _ half).trans parts
  split
  · exact (Work.event_get _ _ _ _ _ log).trans kept
  · exact kept

theorem Work.mapReset_get (dom target : Nat) (f : Reset → Reset) (w : Work) (n : Nat) : (w.mapReset dom target f).get n = w.get n := rfl

theorem opMemTrainingDone_get {h : Fin 4} (slow dead : List Nat) (lanes : List (Nat × Nat × Nat)) {r : Reset} {w : Work}
    (early : w.memReset h 1 = none) (late : w.memReset h 2 = some r) (training : w.halfTraining h = true) {p : Nat}
    (hp : p ∈ halfParts h) : (opMemTrainingDone h slow dead lanes w).get (partState p) = trainedState slow dead p := by
  unfold opMemTrainingDone
  dsimp only
  rw [early, late]
  dsimp only
  rw [if_neg (by rw [training]; decide)]
  have ended : ∀ c : Bool, (if c = true then (w.trainDone h slow dead lanes).mapReset r.dom r.target (fun r => { r with phase := 3 })
      else w.trainDone h slow dead lanes).get (partState p) = trainedState slow dead p := by
    intro c
    have done := Work.trainDone_get slow dead lanes w h.isLt hp
    split
    · exact (Work.mapReset_get _ _ _ _ _).trans done
    · exact done
  exact ended _

/-! ### A couching buffer that could not drain -/

theorem Dev.heal_couch (w : Dev) (out : List MemWrite) : (w.heal out).ext.couch = w.ext.couch := by
  unfold Dev.heal
  split <;> rfl

/-- The entries of a lost buffer are gone. -/
theorem Work.couchLost_couch (ctl : Nat) (w : Work) : ∀ e ∈ (w.couchLost ctl).ext.couch, e.ctl ≠ ctl := by
  unfold Work.couchLost
  extract_lets es emptied written told
  split
  · next none_ =>
    intro e he same
    have : e ∈ es := List.mem_filter.mpr ⟨he, by simpa using same⟩
    rw [List.isEmpty_iff.mp none_] at this
    cases this
  · have kept : told.ext.couch = w.ext.couch.filter (fun e => e.ctl != ctl) := by
      rw [show told.ext = written.ext from Work.event_ext _ _ _ _ _]
      exact foldl_frame (fun w => w.ext.couch) (fun w e => congrArg ExtState.couch (Work.write_ext _ _ w)) es emptied
    intro e he
    rw [show ((es.take 64).foldl _ told).ext = told.ext from
      foldl_frame (fun w => w.ext) (fun w e => Work.log1_ext _ _ _ _ _ _) _ _, kept] at he
    simpa using (List.mem_filter.mp he).2

theorem Work.refreshLost_ext (p : Nat) (w : Work) : (w.refreshLost p).ext = w.ext := by
  unfold Work.refreshLost
  refine (foldl_frame (fun w => w.ext) (fun w c => ?_) _ _).trans (Work.event_ext _ _ _ _ _)
  exact Work.write_ext _ _ _

theorem opCouchDrainTimeout_couch {ctl : Fin 22} (parts : List Nat) {r : Reset} {w : Work} (run : w.memReset (ctlDie ctl.val) 1 = some r)
    (due : 100000 ≤ w.since r.memAt) : ∀ e ∈ (opCouchDrainTimeout ctl parts w).ext.couch, e.ctl ≠ ctl := by
  unfold opCouchDrainTimeout
  dsimp only
  rw [run]
  dsimp only
  rw [if_neg (Nat.not_lt.mpr due), foldl_frame (fun w => w.ext) (fun w p => Work.refreshLost_ext p w)]
  exact Work.couchLost_couch _ _

/-- Settles O25: what a poll, a half's training and a drain cut short leave. -/
theorem memoryPartsReport : Obligations.MemoryPartsReport := by
  unfold Obligations.MemoryPartsReport
  refine ⟨fun stackC pkgs s ns np => ?_, fun h slow dead lanes r s early late training => ?_, fun ctl parts r s run due sound => ?_⟩
  · refine ⟨_, exec_quiet (opDramTempPoll_out _ _ _), s.sameMem_leave _, fun k hk => ?_, fun k hk => ?_⟩
    · refine (foldl_frame (fun w => w.get (Obj.stackTemp k)) (fun w p => Work.put_get_other _ _ ?_) _ _).trans ?_
      · unfold Obj.stackTemp Obj.pkgTemp
        omega
      · rw [List.take_of_length_le (Nat.le_of_eq ns)]
        exact foldl_put_zipIdx_get (key := Obj.stackTemp) stackTemp_inj _ _ (by omega) _
    · rw [State.leave_toDev]
      show (opDramTempPoll stackC pkgs s.work).get _ = _
      unfold opDramTempPoll
      rw [List.take_of_length_le (Nat.le_of_eq np)]
      exact foldl_put_zipIdx_get (key := Obj.pkgTemp) pkgTemp_inj _ _ (by omega) _
  · exact ⟨_, exec_quiet (opMemTrainingDone_out _ _ _ _ _), s.sameMem_leave _, fun p hp =>
      opMemTrainingDone_get slow dead lanes (w := s.work) early late training hp⟩
  · refine ⟨_, exec_sound sound, ?_⟩
    rw [show (s.after (Machine.work (.couchDrainTimeout ctl parts))).ext.couch = (opCouchDrainTimeout ctl parts s.work).ext.couch from Dev.heal_couch _ _]
    exact opCouchDrainTimeout_couch parts run due


/-! ### The clocks under throttling and DVFS -/

/-- A frequency change begins inside the clock unit: no object changes, and neither does the divider. -/
theorem Work.beginChange_get (d mhz : Nat) (w : Work) (n : Nat) : (w.beginChange d mhz).get n = w.get n := by
  unfold Work.beginChange
  dsimp only
  split <;> rfl

theorem Work.setTarget_get (d mhz : Nat) (w : Work) (n : Nat) : (w.setTarget d mhz).get n = w.get n := by
  unfold Work.setTarget
  extract_lets now
  split
  · rfl
  · split
    · rfl
    · exact Work.beginChange_get _ _ _ _

theorem Work.stepOne_get (r : Sensors) (d : Nat) (w : Work) (n : Nat) : (w.stepOne r d).get n = w.get n := by
  unfold Work.stepOne
  extract_lets h c t
  split
  · exact Work.setTarget_get _ _ _ _
  · split
    · split
      · extract_lets t at_ capped
        split
        · rfl
        · split
          · exact Work.setTarget_get _ _ _ _
          · rfl
      · rfl
    · rfl

/-- What the synchronisation of the core clocks writes. -/
theorem Work.freqSync_get (w : Work) {n : Nat} (h : ∀ d, d < 2 → n ≠ Obj.freqNowMhz d) : w.freqSync.get n = w.get n :=
  (Work.put_get_other _ _ (h 1 (by decide))).trans (Work.put_get_other _ _ (h 0 (by decide)))

theorem Work.freqSync_clk (w : Work) : w.freqSync.clk = w.clk := rfl

/-- The step in force: 2 while the clocks are divided, 1 under a cap. -/
def Dev.stepNow (w : Dev) : Nat := if w.clk.div then 2 else if w.clk.cap.isEmpty then 0 else 1

/-- What the accounting of throttling may change: objects of `l`, and nothing of the clocks' divider. -/
structure Work.Throttles (l : List Nat) (w w' : Work) : Prop where
  div : w'.clk.div = w.clk.div
  divAt : w'.clk.divAt = w.clk.divAt
  get : ∀ n, n ∉ l → w'.get n = w.get n

theorem Work.Throttles.refl (l : List Nat) (w : Work) : w.Throttles l w := ⟨rfl, rfl, fun _ _ => rfl⟩

theorem Work.Throttles.trans {l : List Nat} {a b c : Work} (h : a.Throttles l b) (h' : b.Throttles l c) : a.Throttles l c :=
  ⟨h'.div.trans h.div, h'.divAt.trans h.divAt, fun n hn => (h'.get n hn).trans (h.get n hn)⟩

theorem Work.throttles_put {l : List Nat} {n : Nat} (v : Nat) (w : Work) (h : n ∈ l) : w.Throttles l (w.put n v) :=
  ⟨rfl, rfl, fun _ hm => Work.put_get_other _ _ (fun e => hm (e ▸ h))⟩

theorem Work.throttles_setClk {l : List Nat} (f : ClockState → ClockState) (w : Work) (div : (f w.clk).div = w.clk.div)
    (divAt : (f w.clk).divAt = w.clk.divAt) : w.Throttles l (w.setClk f) := ⟨div, divAt, fun _ _ => rfl⟩

theorem Work.throttles_event {l : List Nat} (code ctx source detail : Nat) (w : Work) (h : ∀ n ∈ logObjs, n ∈ l) :
    w.Throttles l (w.event code ctx source detail) :=
  ⟨by rw [Work.event_clk], by rw [Work.event_clk], fun n hn => Work.event_get _ _ _ _ _ (fun m => hn (h n m))⟩

/-- The objects of the throttle steps. -/
def throttleObjs : List Nat := Obj.throttleStep :: Obj.throttleCause :: Obj.throttleNs :: logObjs

theorem Work.stepSync_throttles (w : Work) : w.Throttles throttleObjs w.stepSync := by
  have logs : ∀ n ∈ logObjs, n ∈ throttleObjs := fun n h => List.mem_cons_of_mem _ (List.mem_cons_of_mem _ (List.mem_cons_of_mem _ h))
  unfold Work.stepSync
  extract_lets old new counted stepped begun told cleared
  have hcounted : w.Throttles throttleObjs counted := by
    unfold counted
    split
    · exact .refl _ _
    · exact (Work.throttles_put (n := Obj.throttleNs) _ w (by decide)).trans (Work.throttles_setClk _ _ rfl rfl)
  have hbegun : w.Throttles throttleObjs begun := by
    refine (hcounted.trans (Work.throttles_put (n := Obj.throttleStep) new _ (by decide))).trans ?_
    unfold begun
    split
    · exact Work.throttles_setClk _ _ rfl rfl
    · exact .refl _ _
  have htold : w.Throttles throttleObjs told := by
    unfold told
    split
    · exact hbegun.trans (Work.throttles_event _ _ _ _ _ logs)
    · exact hcounted.trans (Work.throttles_put (n := Obj.throttleStep) new _ (by decide))
  have hcleared := htold.trans (Work.throttles_put (n := Obj.throttleCause) 0 told (by decide))
  split
  · exact htold
  · split
    · exact (hcleared.trans (Work.throttles_setClk _ _ rfl rfl)).trans (Work.throttles_event _ _ _ _ _ logs)
    · exact hcleared

theorem Work.stepSync_step (w : Work) : w.stepSync.get Obj.throttleStep = w.stepNow := by
  have free : Obj.throttleStep ∉ logObjs := by decide
  unfold Work.stepSync
  extract_lets old new counted stepped begun told cleared
  have hstepped : stepped.get Obj.throttleStep = new := Work.put_get_same _ _ _
  have htold : told.get Obj.throttleStep = new := by
    unfold told
    split
    · refine (Work.event_get _ _ _ _ _ free).trans ?_
      unfold begun
      split <;> exact hstepped
    · exact hstepped
  have hcleared : cleared.get Obj.throttleStep = new := (Work.put_get_other _ _ (by decide)).trans htold
  split
  · exact htold
  · split
    · exact (Work.event_get _ _ _ _ _ free).trans hcleared
    · exact hcleared

/-- The objects that the floor check counts in. -/
def floorObjs : List Nat := Obj.belowFloorNs 0 :: Obj.belowFloorNs 1 :: logObjs

theorem Work.floorCheck_throttles (w : Work) : w.Throttles floorObjs w.floorCheck := by
  have logs : ∀ n ∈ logObjs, n ∈ floorObjs := fun n h => List.mem_cons_of_mem _ (List.mem_cons_of_mem _ h)
  have one : ∀ (d : Nat) (w : Work), Obj.belowFloorNs d ∈ floorObjs →
      w.Throttles floorObjs (
        let was := w.clk.breach.find? (fun p => p.1 == d)
        let w := match was with | some p => w.bump (Obj.belowFloorNs d) (w.since p.2) | none => w
        let rest := w.clk.breach.filter (fun p => p.1 != d)
        if w.belowFloor d then
          let w := w.setClk (fun k => { k with breach := (d, w.time) :: rest })
          if was.isNone then w.event 0x0B03 31 0 (w.get (Obj.freqNowMhz d) * 2 ^ 16 + d) else w
        else w.setClk (fun k => { k with breach := rest })) := by
    intro d w hd
    extract_lets was counted rest noted
    have hcounted : w.Throttles floorObjs counted := by
      unfold counted
      clear_value was
      split
      · exact Work.throttles_put _ _ hd
      · exact .refl _ _
    have hnoted := hcounted.trans (Work.throttles_setClk (fun k => { k with breach := (d, counted.time) :: rest }) counted rfl rfl)
    split
    · split
      · exact hnoted.trans (Work.throttles_event _ _ _ _ _ logs)
      · exact hnoted
    · exact hcounted.trans (Work.throttles_setClk _ _ rfl rfl)
  exact (one 0 w (by decide)).trans (one 1 _ (by decide))

/-- Both at once, for an object that neither writes. -/
theorem Work.throttled_get (w : Work) {n : Nat} (step : n ∉ throttleObjs) (floor : n ∉ floorObjs) : w.stepSync.floorCheck.get n = w.get n :=
  (w.stepSync.floorCheck_throttles.get n floor).trans (w.stepSync_throttles.get n step)

theorem Work.throttled_div (w : Work) : w.stepSync.floorCheck.clk.div = w.clk.div :=
  w.stepSync.floorCheck_throttles.div.trans w.stepSync_throttles.div

theorem Work.throttled_divAt (w : Work) : w.stepSync.floorCheck.clk.divAt = w.clk.divAt :=
  w.stepSync.floorCheck_throttles.divAt.trans w.stepSync_throttles.divAt

theorem Work.throttled_step (w : Work) : w.stepSync.floorCheck.get Obj.throttleStep = w.stepNow :=
  (w.stepSync.floorCheck_throttles.get _ (by decide)).trans w.stepSync_step

/-! ### Sensors -/

/-- The readings that a decision takes. -/
theorem Work.sensed_get (r : Sensors) (w : Work) : (w.sensed r).get Obj.powerNowW = min r.power (maxU 16) ∧
    (w.sensed r).get Obj.vinMv = min r.vin (maxU 32) ∧ (w.sensed r).get (Obj.tjMaxC 2) = toSigned 32 r.io0 := by
  unfold Work.sensed
  extract_lets temps tj die power supply
  have kept : ∀ n, n ∉ [Obj.iinMa, Obj.vsbMv, Obj.energyJ, Obj.nearRefresh] →
      (supply.put Obj.nearRefresh (b2n (decide (95 < sensorDie r 0) || decide (95 < sensorDie r 1)))).get n = 
        ((die.put Obj.powerNowW (min r.power (maxU 16))).put Obj.vinMv (min r.vin (maxU 32))).get n := by
    intro n hn
    simp only [List.mem_cons, List.not_mem_nil, or_false, not_or] at hn
    obtain ⟨iin, vsb, energy, near⟩ := hn
    exact (Work.put_get_other _ _ near).trans ((Work.put_get_other _ _ energy).trans ((Work.put_get_other _ _ vsb).trans
      (Work.put_get_other _ _ iin)))
  refine ⟨?_, ?_, ?_⟩
  · exact (kept _ (by decide)).trans ((Work.put_get_other _ _ (by decide)).trans (Work.put_get_same _ _ _))
  · exact (kept _ (by decide)).trans (Work.put_get_same _ _ _)
  · refine (kept _ (by decide)).trans ((Work.put_get_other _ _ (by decide)).trans ((Work.put_get_other _ _ (by decide)).trans ?_))
    exact (Work.put_get_other _ _ (by decide)).trans (Work.put_get_same _ _ _)

theorem opThrottleDecision_get {r : Sensors} {w : Work} (ready : w.ready = true) {n : Nat}
    (h : n ∉ Obj.throttleCause :: throttleObjs ++ floorObjs) : (opThrottleDecision r w).get n = (w.sensed r).get n := by
  simp only [List.cons_append, List.mem_cons, List.mem_append, not_or] at h
  unfold opThrottleDecision
  rw [if_neg (by rw [ready]; decide)]
  extract_lets seen hots cools old cause marked
  exact (Work.throttled_get _ h.2.1 h.2.2).trans ((Work.stepOne_get _ _ _ _).trans ((Work.stepOne_get _ _ _ _).trans
    (Work.put_get_other _ _ h.1)))

/-! ### Supplies -/

theorem Work.zeroRange_rst (lo hi : Nat) (w : Work) : (w.zeroRange lo hi).rst = w.rst :=
  foldl_frame (fun w => w.rst) (fun w _ => Work.write_rst _ _ w) _ w

theorem Work.memLost_rst (w : Work) : w.memLost.rst = w.rst := Work.zeroRange_rst _ _ _

/-- Without its rails the device holds no log records and no reset. -/
theorem Work.railsOff_lost {w : Work} (on : w.boot.rails = true) :
    w.railsOff.boot.rails = false ∧ w.railsOff.log.recs = [] ∧ w.railsOff.rst.runs = [] := by
  unfold Work.railsOff
  rw [if_neg (by rw [on]; decide)]
  extract_lets warm lost silent
  have runs : lost.rst.runs = [] := by
    unfold lost
    rw [Work.memLost_rst]
    rfl
  clear_value lost
  exact ⟨rfl, rfl, runs⟩

/-- A supply near its limit is told and counted in one object. -/
theorem supplyTold {i : Instr} {s : State} {n code detail : Nat}
    (e : Machine.work i s.work = ((s.work.setBoot (fun b => { b with vinOut := true })).bump n 1).event code 31 0 detail) (h : n ∉ logObjs) :
    ∃ t, exec i s = .next t ∧ s.SameMem t ∧ t.boot.vinOut = true ∧ t.get n = min (s.get n + 1) (maxU 64) ∧ s.KeepsBut t (n :: logObjs) := by
  refine ⟨_, exec_leave e (Work.event_out _ _ _ _ _), s.sameMem_leave _, ?_, ?_, fun m hm => ?_⟩
  · rw [State.leave_toDev, Work.event_boot]
    rfl
  · exact (Work.event_get _ _ _ _ _ h).trans (Work.bump_get_same _ _ _)
  · simp only [List.mem_cons, not_or] at hm
    exact (Work.event_get _ _ _ _ _ hm.2).trans (Work.bump_get_other _ _ hm.1)

theorem Dev.powered_iff (w : Dev) : w.powered = true ↔ w.boot.held = false ∧ w.boot.vsbLost = false := by
  unfold Dev.powered
  simp

theorem Work.blobPut_boot (c : Copy) (n off v len : Nat) (w : Work) : (w.blobPut c n off v len).boot = w.boot := by
  unfold Work.blobPut
  generalize blobWrite (w.blobs c) n off v len = m
  cases c <;> rfl

theorem Work.tripLast_boot (cause die : Nat) (w : Work) : (w.tripLast cause die).boot = w.boot := by
  unfold Work.tripLast
  rw [Work.blobPut_boot]

theorem opP48vTrip_lost {high : Bool} {w : Work} (power : w.powered = true) (on : w.boot.rails = true) :
    (opP48vTrip high w).boot.tripped = true ∧ (opP48vTrip high w).boot.rails = false ∧ (opP48vTrip high w).log.recs = [] ∧
      (opP48vTrip high w).rst.runs = [] := by
  unfold opP48vTrip
  extract_lets out
  rw [if_neg (not_or.mpr ⟨by rw [show out.powered = true from power]; decide, by rw [show out.boot.rails = true from on]; decide⟩)]
  obtain ⟨rails, recs, runs⟩ := Work.railsOff_lost (w := out.tripLast (if high then 4 else 3) 0) (by rw [Work.tripLast_boot]; exact on)
  generalize (out.tripLast (if high then 4 else 3) 0).railsOff = off at rails recs runs ⊢
  exact ⟨rfl, rails, recs, runs⟩

theorem opThermtrip_lost {dram : Bool} {die : Fin 4} {w : Work} (power : w.powered = true) (on : w.boot.rails = true) :
    (opThermtrip dram die w).boot.thermtrip = true ∧ (opThermtrip dram die w).boot.rails = false ∧
      (opThermtrip dram die w).log.recs = [] ∧ (opThermtrip dram die w).rst.runs = [] := by
  unfold opThermtrip
  rw [if_neg (not_or.mpr ⟨by rw [power]; decide, by rw [on]; decide⟩)]
  obtain ⟨rails, recs, runs⟩ := Work.railsOff_lost (w := w.tripLast (if dram then 2 else 1) die.val) (by rw [Work.tripLast_boot]; exact on)
  generalize (w.tripLast (if dram then 2 else 1) die.val).railsOff = off at rails recs runs ⊢
  exact ⟨rfl, rails, recs, runs⟩

/-! ### The fast throttle -/

theorem opFastThrottle_divides {c i : Bool} {w : Work} (ready : w.ready = true) (asked : (c || i) = true) :
    (opFastThrottle c i w).clk.div = true ∧ (opFastThrottle c i w).clk.divAt = w.time ∧ (opFastThrottle c i w).get Obj.throttleStep = 2 ∧
      (opFastThrottle c i w).get Obj.fastThrottleCount =
        if w.clk.div then w.get Obj.fastThrottleCount else min (w.get Obj.fastThrottleCount + 1) (maxU 64) := by
  unfold opFastThrottle
  rw [if_neg (by rw [ready, asked]; decide)]
  extract_lets counted divided old caused
  have time : counted.time = w.time := by
    unfold counted
    split <;> rfl
  have count : counted.get Obj.fastThrottleCount =
      if w.clk.div then w.get Obj.fastThrottleCount else min (w.get Obj.fastThrottleCount + 1) (maxU 64) := by
    unfold counted
    split
    · rfl
    · exact Work.bump_get_same _ _ _
  have div : caused.clk.div = true := rfl
  have divAt : caused.clk.divAt = counted.time := rfl
  refine ⟨(Work.throttled_div _).trans div, (Work.throttled_divAt _).trans (divAt.trans time), (Work.throttled_step _).trans ?_, ?_⟩
  · unfold Dev.stepNow
    rw [if_pos div]
  · refine (Work.throttled_get _ (by decide) (by decide)).trans (((Work.put_get_other _ _ (by decide)).trans ?_).trans count)
    exact Work.freqSync_get _ (by decide)

theorem opFastThrottleRelease_releases {w : Work} (div : w.clk.div = true) (due : 1000000 ≤ w.since w.clk.divAt) :
    (opFastThrottleRelease w).clk.div = false := by
  unfold opFastThrottleRelease
  rw [if_neg (not_or.mpr ⟨by rw [div]; decide, Nat.not_lt.mpr due⟩)]
  extract_lets undivided
  exact (Work.throttled_div _).trans (show undivided.clk.div = false from rfl)

theorem opFastThrottleRelease_early {w : Work} (early : w.since w.clk.divAt < 1000000) : opFastThrottleRelease w = w := by
  unfold opFastThrottleRelease
  rw [if_pos (.inr early)]

/-- Settles O58: supplies near their limits, trips, decisions and the fast throttle. -/
theorem powerIsGuarded : Obligations.PowerIsGuarded := by
  unfold Obligations.PowerIsGuarded
  refine ⟨fun mv s power => ⟨fun low high => ?_, fun low high => ?_, fun hi on sound => ?_, fun dram die on sound => ?_⟩,
    fun s => ⟨⟨_, exec_leave rfl rfl, s.sameMem_leave _, fun _ _ => rfl, rfl⟩, fun sound => ?_⟩, fun r s ready => ?_,
    fun c i s ready asked => ?_, fun s div => ⟨fun due => ?_, fun early => ?_⟩⟩
  · refine supplyTold (n := Obj.inputLowCount) (code := 0x0B06) (detail := mv) (if_neg ?_) (by decide)
    rintro (off | below | above)
    · exact absurd (power.symm.trans off) (by decide)
    · omega
    · omega
  · refine supplyTold (n := Obj.inputHighCount) (code := 0x0B07) (detail := mv) (if_neg ?_) (by decide)
    rintro (off | below | above)
    · exact absurd (power.symm.trans off) (by decide)
    · omega
    · omega
  · obtain ⟨tripped, rails, recs, runs⟩ := opP48vTrip_lost (w := s.work) (high := hi) power on
    refine ⟨_, exec_sound sound, ?_⟩
    rw [State.after_boot, State.after_log, State.after_rst]
    exact ⟨tripped, rails, recs, runs⟩
  · obtain ⟨tripped, rails, recs, runs⟩ := opThermtrip_lost (w := s.work) (dram := dram) (die := die) power on
    refine ⟨_, exec_sound sound, ?_⟩
    rw [State.after_boot, State.after_log, State.after_rst]
    exact ⟨tripped, rails, recs, runs⟩
  · refine ⟨_, exec_sound sound, ?_⟩
    rw [State.after_boot, State.after_q]
    exact ⟨rfl, rfl, rfl, rfl⟩
  · obtain ⟨power, vin, tj⟩ := Work.sensed_get r s.work
    refine ⟨_, exec_quiet (opThrottleDecision_out _ _), s.sameMem_leave _, ?_, ?_, ?_⟩
    · exact (opThrottleDecision_get (w := s.work) ready (by decide)).trans power
    · exact (opThrottleDecision_get (w := s.work) ready (by decide)).trans vin
    · exact (opThrottleDecision_get (w := s.work) ready (by decide)).trans tj
  · exact ⟨_, exec_quiet (opFastThrottle_out _ _ _), s.sameMem_leave _, opFastThrottle_divides (w := s.work) ready asked⟩
  · exact ⟨_, exec_quiet (opFastThrottleRelease_out _), s.sameMem_leave _, opFastThrottleRelease_releases (w := s.work) div due⟩
  · exact ⟨_, exec_leave (opFastThrottleRelease_early early) rfl, s.sameMem_leave _, fun _ _ => rfl⟩


/-! ### Samples of device time -/

/-- Sample i was taken at device time t. -/
def Dev.hasSample (w : Dev) (i t : Nat) : Bool := w.clk.samples.any (fun p => p.1 == i && p.2.1 == t)

theorem Work.timeSample_same (i : Nat) (w : Work) : (w.timeSample i).hasSample i w.time = true := by
  unfold Work.timeSample Dev.hasSample Work.setClk
  simp

theorem Work.timeSample_other {i j : Nat} (t : Nat) (w : Work) (other : i ≠ j) (h : w.hasSample i t = true) : (w.timeSample j).hasSample i t = true := by
  unfold Dev.hasSample at h
  obtain ⟨p, hp, same⟩ := List.any_eq_true.mp h
  unfold Work.timeSample Dev.hasSample Work.setClk
  refine List.any_eq_true.mpr ⟨p, List.mem_cons_of_mem _ (List.mem_filter.mpr ⟨hp, ?_⟩), same⟩
  simp only [Bool.and_eq_true, beq_iff_eq] at same
  rw [bne_iff_ne, same.1]
  exact other

/-- Sampling touches the samples only. -/
theorem forUpto_timeSample (n : Nat) (w : Work) : ∃ f, forUpto (fun i w => w.timeSample i) n w = w.setClk f := by
  induction n with
  | zero => exact ⟨id, rfl⟩
  | succ n ih =>
    obtain ⟨f, e⟩ := ih
    unfold forUpto
    rw [e]
    exact ⟨fun _ => ((w.setClk f).timeSample n).clk, rfl⟩

theorem forUpto_timeSample_sampled (n : Nat) (w : Work) : ∀ k, k < n → (forUpto (fun i w => w.timeSample i) n w).hasSample k w.time = true := by
  induction n with
  | zero => exact fun k hk => absurd hk (Nat.not_lt_zero k)
  | succ n ih =>
    intro k hk
    unfold forUpto
    by_cases last : k = n
    · subst last
      obtain ⟨f, e⟩ := forUpto_timeSample k w
      rw [e]
      exact Work.timeSample_same k _
    · exact Work.timeSample_other _ _ last (ih k (by omega))

/-! ### Frequency changes -/

theorem Work.endChange_get (d : Nat) (w : Work) (n : Nat) : (w.endChange d).get n = w.get n := by
  unfold Work.endChange
  extract_lets ended
  split
  · exact Work.beginChange_get _ _ _ _
  · rfl

theorem Work.putChange_some (c : ClkChange) (d : Nat) (h : c.die = d) (w : Work) : (w.putChange d (some c)).change? d = some c := by
  unfold Work.putChange Dev.change? Work.setClk
  simp [h]

theorem Dev.change?_die {w : Dev} {d : Nat} {c : ClkChange} (h : w.change? d = some c) : c.die = d := by
  simpa using List.find?_some h

theorem freqChanges_other (d : Nat) (h : d < 2) : Obj.freqChanges d ∉ logObjs ∧ ∀ e, e < 2 → Obj.freqChanges d ≠ Obj.freqNowMhz e := by
  revert d
  decide

/-- A switch of the clock counts as one change. -/
theorem Work.switchClock_freqChanges {c : ClkChange} {d : Nat} (die : c.die = d) (h : d < 2) (w : Work) :
    (w.switchClock c).get (Obj.freqChanges d) = min (w.get (Obj.freqChanges d) + 1) (maxU 64) := by
  subst die
  obtain ⟨log, now⟩ := freqChanges_other c.die h
  unfold Work.switchClock
  extract_lets switched told
  have counted : told.get (Obj.freqChanges c.die) = min (w.get (Obj.freqChanges c.die) + 1) (maxU 64) := by
    refine (Work.event_get _ _ _ _ _ log).trans ((Work.bump_get_same _ _ _).trans ?_)
    rw [Work.freqSync_get _ now]
    rfl
  split
  · exact (Work.endChange_get _ _ _).trans counted
  · exact counted

/-! ### Commits of the DVFS group -/

/-- A correction of a pending value touches no object in force but CLAMP_COUNT and the log's. -/
theorem Work.fixPend_get (wr : Writer) (n v : Nat) (w : Work) {m : Nat} (h : m ∉ Obj.clampCount :: logObjs) :
    (w.fixPend wr n v).get m = w.get m := (Work.clampTo_get wr n (w.getP n) v w h : _)

theorem Work.dvfsClamp_get (wr : Writer) (w : Work) {m : Nat} (h : m ∉ Obj.clampCount :: logObjs) : (w.dvfsClamp wr).get m = w.get m := by
  unfold Work.dvfsClamp
  extract_lets step floor
  have one : ∀ n w, (step n w).get m = w.get m := fun n w => Work.fixPend_get wr _ _ w h
  refine (forUpto_frame (fun w => w.get m) (fun d w => ?_) 2 floor).trans (one _ _)
  refine (Work.fixPend_get wr _ _ _ h).trans ((Work.fixPend_get wr _ _ _ h).trans ?_)
  rw [one, one, one]

/-- DVFS_COMMIT as it is taken. -/
theorem opDvfsCommit_taken {wr : Writer} {w : Work} (serves : w.serves wr Obj.dvfsCommit = true) (reaches : w.reaches wr .host = true)
    (free : w.get Obj.dvfsCommit ≠ 1) :
    opDvfsCommit wr w = ((w.groupToPend dvfsGroup []).put Obj.dvfsCommit 1).dvfsClamp wr := by
  unfold opDvfsCommit
  rw [Work.gated_takes _ _ _ _ _ serves reaches, if_neg free, Work.commitReq_taken _ _ _ free]

theorem opDvfsCommit_again {wr : Writer} {w : Work} (serves : w.serves wr Obj.dvfsCommit = true) (reaches : w.reaches wr .host = true)
    (busy : w.get Obj.dvfsCommit = 1) : opDvfsCommit wr w = w.noAction wr Obj.dvfsCommit 1 := by
  unfold opDvfsCommit
  rw [Work.gated_takes _ _ _ _ _ serves reaches, if_pos busy]

/-- A decision puts the pending group in force. -/
theorem opDvfsDecision_commits {a b : Nat} {w : Work} (ready : w.ready = true) (due : w.get Obj.dvfsCommit = 1) {n : Nat}
    (step : n ∉ throttleObjs) (floor : n ∉ floorObjs) :
    (opDvfsDecision a b w).get n = ((w.groupToActive dvfsGroup []).put Obj.dvfsCommit 0).get n := by
  unfold opDvfsDecision
  rw [if_neg (by rw [ready]; decide), if_pos due]
  extract_lets moved decided
  refine (Work.throttled_get _ step floor).trans (forUpto_frame (fun w => w.get n) (fun d w => ?_) 2 moved)
  extract_lets base capped target cur low
  have hcapped : capped.get n = w.get n := by
    unfold capped
    split
    · split <;> rfl
    · rfl
  split
  · exact (Work.setTarget_get _ _ _ _).trans hcapped
  · exact hcapped

theorem opDvfsDecision_out (a b : Nat) (w : Work) : (opDvfsDecision a b w).out = w.out := by
  unfold opDvfsDecision
  split
  · rfl
  · extract_lets moved decided
    have hmoved : moved.out = w.out := by
      unfold moved
      split
      · exact Work.groupToActive_out _ _ _
      · rfl
    rw [Work.floorCheck_out, Work.stepSync_out]
    refine (forUpto_frame (fun w => w.out) (fun d w => ?_) 2 moved).trans hmoved
    extract_lets base capped target cur low
    have hcapped : capped.out = w.out := by
      unfold capped
      split
      · split <;> rfl
      · rfl
    split
    · exact (Work.setTarget_out _ _ _).trans hcapped
    · exact hcapped

/-! ### Steps of a frequency change -/

theorem opPllLocked_waits {d : Fin 2} {c : ClkChange} {w : Work} (change : w.change? d = some c) (unlocked : c.locked = false)
    (late : 5000 ≤ w.since c.start) (up : c.up = true) (early : c.reached = false) :
    opPllLocked d w = w.putChange d (some { c with locked := true }) := by
  unfold opPllLocked
  rw [change]
  dsimp only
  rw [if_neg (not_or.mpr ⟨ne_true_of_eq_false unlocked, Nat.not_lt.mpr late⟩), if_pos ⟨up, early⟩]

theorem opPllLocked_switches {d : Fin 2} {c : ClkChange} {w : Work} (change : w.change? d = some c) (unlocked : c.locked = false)
    (late : 5000 ≤ w.since c.start) (down : c.up = false) : opPllLocked d w = w.switchClock { c with locked := true } := by
  unfold opPllLocked
  rw [change]
  dsimp only
  rw [if_neg (not_or.mpr ⟨ne_true_of_eq_false unlocked, Nat.not_lt.mpr late⟩),
    if_neg (fun h => absurd (h.1.symm.trans down) (by decide))]

theorem opSetpointReached_get {d : Fin 2} {c : ClkChange} {w : Work} {v t : Nat} (change : w.change? d = some c)
    (now : w.get (Obj.vcoreMv d) = v) (time : w.since c.start = t)
    (late : 100 * ((setpointMv c.mhz - v) + (v - setpointMv c.mhz)) ≤ t)
    (which : (c.up = true ∧ c.reached = false ∧ c.locked = false) ∨ (c.up = false ∧ c.switched = true)) :
    (opSetpointReached d w).get (Obj.vcoreMv d) = setpointMv c.mhz := by
  unfold opSetpointReached
  rw [change]
  dsimp only
  rw [now, time, if_neg (Nat.not_lt.mpr late)]
  rcases which with ⟨up, early, unlocked⟩ | ⟨down, switched⟩
  · rw [if_pos up, if_neg (ne_true_of_eq_false early), if_neg (ne_true_of_eq_false unlocked)]
    exact Work.put_get_same _ _ _
  · rw [if_neg (ne_true_of_eq_false down), if_pos switched]
    exact (Work.endChange_get _ _ _).trans (Work.put_get_same _ _ _)

/-- Settles O48: resends, samples, decisions, and a frequency change on its way. -/
theorem clocksChange : Obligations.ClocksChange := by
  unfold Obligations.ClocksChange
  refine ⟨fun inst s awake typ few => ?_, fun s awake => ?_, fun a b s ready due => ?_, fun d c s change unlocked late => ⟨fun up early => ?_,
    fun down => ?_⟩, fun d c s change late which => ?_, fun wr s takes => ?_⟩
  · have e : Machine.work (.xqRetryResend inst) s.work = s.work.bump Obj.xqRetryCount 1 := if_pos ⟨awake, .inl ⟨typ, few⟩⟩
    exact ⟨_, exec_leave e rfl, s.sameMem_leave _, fun n hn => Work.bump_get_other _ _ (by simpa using hn), Work.bump_get_same _ _ _⟩
  · obtain ⟨f, clk⟩ := forUpto_timeSample 9 s.work
    have e : Machine.work (.timeSample []) s.work = forUpto (fun i w => w.timeSample i) 9 s.work := if_neg (ne_true_of_eq_false awake)
    refine ⟨_, exec_leave e (by rw [clk]; rfl), s.sameMem_leave _, fun n _ => ?_, forUpto_timeSample_sampled 9 s.work⟩
    rw [clk]
    rfl
  · have moved := fun {n : Nat} => opDvfsDecision_commits (a := a) (b := b) (w := s.work) (n := n) ready due
    have active : ∀ n ∈ dvfsGroup, n ≠ Obj.dvfsCommit →
        ((s.work.groupToActive dvfsGroup []).put Obj.dvfsCommit 0).get n = s.getP n := fun n hn other => by
      rw [Work.put_get_other _ _ other, Work.groupToActive_get, if_pos hn]
      rfl
    refine ⟨_, exec_quiet (opDvfsDecision_out _ _ _), s.sameMem_leave _, ?_, ?_, ?_⟩
    · exact (moved (by decide) (by decide)).trans (Work.put_get_same _ _ _)
    · exact (moved (by decide) (by decide)).trans (active _ (by decide) (by decide))
    · exact (moved (by decide) (by decide)).trans (active _ (by decide) (by decide))
  · have e := opPllLocked_waits (w := s.work) change unlocked late up early
    have stands := Work.putChange_some { c with locked := true } d (Dev.change?_die change :) s.work
    refine ⟨_, exec_leave (i := .pllLocked d) e rfl, s.sameMem_leave _, fun _ _ => rfl, ?_⟩
    rw [State.leave_toDev, stands]
    rfl
  · have die : c.die = d := Dev.change?_die change
    have e := opPllLocked_switches (w := s.work) change unlocked late down
    have count := Work.switchClock_freqChanges (c := { c with locked := true }) die d.isLt s.work
    exact ⟨_, exec_leave (i := .pllLocked d) e (by rw [← e]; exact opPllLocked_out _ _), s.sameMem_leave _, count⟩
  · have reached := opSetpointReached_get (w := s.work) change rfl rfl late which
    exact ⟨_, exec_quiet (opSetpointReached_out _ _), s.sameMem_leave _, reached⟩
  · obtain ⟨serves, reaches⟩ := takes
    refine ⟨fun free => ?_, fun busy => ?_⟩
    · have e := opDvfsCommit_taken (w := s.work) serves reaches free
      refine ⟨_, exec_leave (i := .dvfsCommit wr) e (by rw [← e]; exact opDvfsCommit_out _ _), s.sameMem_leave _, ?_, fun n hn => ?_⟩
      · exact (Work.dvfsClamp_get _ _ (by decide)).trans (Work.put_get_same _ _ _)
      · obtain ⟨other, clamps⟩ := not_or.mp (mt List.mem_cons.mpr hn)
        refine (Work.dvfsClamp_get _ _ clamps).trans ((Work.put_get_other _ _ other).trans ?_)
        rw [Work.groupToPend_get]
        rfl
    · have e := opDvfsCommit_again (w := s.work) serves reaches busy
      exact ⟨_, exec_leave (i := .dvfsCommit wr) e (Work.noAction_out _ _ _ _), s.sameMem_leave _, fun n hn => Work.noAction_get _ _ _ _ hn⟩

end Sys2Proof.Machine

namespace Sys2Proof.Machine

/-! ### What leaves the sessions as they are -/


@[simp] theorem Work.ite_sess (c : Prop) [Decidable c] (a b : Work) :
    (if c then a else b).net.sess = if c then a.net.sess else b.net.sess := by
  split <;> rfl

@[simp] theorem foldl_sess {α : Type} (f : Work → α → Work) (h : ∀ w a, (f w a).net.sess = w.net.sess) (l : List α) (w : Work) :
    (l.foldl f w).net.sess = w.net.sess :=
  List.foldlRecOn l f (motive := fun w' => w'.net.sess = w.net.sess) rfl (fun w' same a _ => (h w' a).trans same)

@[simp] theorem foldl_snd_sess {α β : Type} (f : β × Work → α → β × Work) (h : ∀ p a, (f p a).2.net.sess = p.2.net.sess) (l : List α)
    (p : β × Work) : (l.foldl f p).2.net.sess = p.2.net.sess :=
  List.foldlRecOn l f (motive := fun p' => p'.2.net.sess = p.2.net.sess) rfl (fun p' same a _ => (h p' a).trans same)

@[simp] theorem foldl_fst_sess {α β : Type} (f : Work × β → α → Work × β) (h : ∀ p a, (f p a).1.net.sess = p.1.net.sess) (l : List α)
    (p : Work × β) : (l.foldl f p).1.net.sess = p.1.net.sess :=
  List.foldlRecOn l f (motive := fun p' => p'.1.net.sess = p.1.net.sess) rfl (fun p' same a _ => (h p' a).trans same)

@[simp] theorem forUpto_sess (f : Nat → Work → Work) (h : ∀ i w, (f i w).net.sess = w.net.sess) (n : Nat) (w : Work) :
    (forUpto f n w).net.sess = w.net.sess := by
  induction n with
  | zero => rfl
  | succ n ih => exact (h n _).trans ih

theorem iter_sess (f : Work → Work) (h : ∀ w, (f w).net.sess = w.net.sess) (n : Nat) (w : Work) : (iter f n w).net.sess = w.net.sess := by
  induction n generalizing w with
  | zero => rfl
  | succ n ih => exact (ih _).trans (h w)

theorem sess_of_snd_eq {α : Type} {p : α × Work} {a : α} {w' w : Work} (e : p = (a, w')) (h : p.2.net.sess = w.net.sess) :
    w'.net.sess = w.net.sess := by
  rw [e] at h
  exact h

theorem sess_of_fst_eq {α : Type} {p : Work × α} {a : α} {w' w : Work} (e : p = (w', a)) (h : p.1.net.sess = w.net.sess) :
    w'.net.sess = w.net.sess := by
  rw [e] at h
  exact h


@[simp] theorem Work.setSched_sess (f : SchedState → SchedState) (w : Work) : (w.setSched f).net.sess = w.net.sess := by rfl

@[simp] theorem Work.mapCmd_sess (id : Nat) (f : Cmd → Cmd) (w : Work) : (w.mapCmd id f).net.sess = w.net.sess := by rfl

@[simp] theorem Work.finishCmd_sess (id : Nat) (status : Nat) (detail : Nat) (w : Work) : (Work.finishCmd id status detail w).net.sess = w.net.sess := by
  unfold Work.finishCmd
  simp [*]

@[simp] theorem Work.put_sess (n : Nat) (v : Nat) (w : Work) : (Work.put n v w).net.sess = w.net.sess := by rfl

@[simp] theorem Work.bump_sess (n : Nat) (k : Nat) (w : Work) : (Work.bump n k w).net.sess = w.net.sess := by rfl

@[simp] theorem Work.send_sess (m : OutMsg) (w : Work) : (Work.send m w).net.sess = w.net.sess := by rfl

@[simp] theorem Work.mgmtSend_sess (m : OutMsg) (w : Work) : (Work.mgmtSend m w).net.sess = w.net.sess := by
  unfold Work.mgmtSend
  split <;> simp

@[simp] theorem Work.notifyTx_sess (i : Nat) (seq : Nat) (kind : Nat) (body : List Nat) (w : Work) : (Work.notifyTx i seq kind body w).net.sess =
    w.net.sess := by
  unfold Work.notifyTx
  simp

@[simp] theorem Work.notifyOne_sess (i kind : Nat) (body : List Nat) (w : Work) : (w.notifyOne i kind body).2.net.sess = w.net.sess := by
  rw [(Work.logs_notifyOne w i kind body).net]

@[simp] theorem Work.notifyAll_sess (kind : Nat) (body : List Nat) (w : Work) : (w.notifyAll kind body).2.net.sess = w.net.sess := by
  rw [(Work.logs_notifyAll w kind body).net]

@[simp] theorem Work.rateMark_sess (key : Nat) (w : Work) : (Work.rateMark key w).net.sess = w.net.sess := by rfl

@[simp] theorem Work.logRec_sess (code ctx source detail extra : Nat) (w : Work) : (w.logRec code ctx source detail extra).2.net.sess = w.net.sess := by
  rw [(Work.logs_logRec w code ctx source detail extra).net]

@[simp] theorem Work.logUnit_sess (n code ctx source detail extra : Nat) (w : Work) : (w.logUnit n code ctx source detail extra).net.sess = w.net.sess := by
  rw [(Work.logs_logUnit n code ctx source detail extra w).net]

@[simp] theorem Work.log1_sess (code : Nat) (ctx : Nat) (source : Nat) (detail : Nat) (extra : Nat) (w : Work) : (Work.log1 code ctx source detail
    extra w).net.sess = w.net.sess := by
  unfold Work.log1
  simp

@[simp] theorem Work.event_sess (code : Nat) (ctx : Nat) (source : Nat) (detail : Nat) (w : Work) : (Work.event code ctx source detail w).net.sess =
    w.net.sess := by
  unfold Work.event
  simp

@[simp] theorem Work.becomeOwner_sess (cls c : Nat) (w : Work) : (w.becomeOwner cls c).net.sess = w.net.sess := by rfl

@[simp] theorem Work.offerSlice_sess (cls p v2 : Nat) (v3 : Work) : (Work.offerSlice cls p v2 v3).net.sess = v3.net.sess := by
  induction v2 generalizing p v3 with
  | zero => exact Work.put_sess _ _ _
  | succ k ih =>
    unfold Work.offerSlice
    split
    · exact Work.put_sess _ _ _
    · split
      · exact (ih _ _).trans (Work.put_sess _ _ _)
      · exact Work.becomeOwner_sess _ _ _

@[simp] theorem Work.handover_sess (cls : Nat) (p : Nat) (w : Work) : (Work.handover cls p w).net.sess = w.net.sess := by
  unfold Work.handover
  simp

@[simp] theorem Work.rotateClass_sess (cls : Nat) (w : Work) : (Work.rotateClass cls w).net.sess = w.net.sess := by
  unfold Work.rotateClass
  dsimp only
  (repeat' split) <;> simp [*]

@[simp] theorem Work.rotation_sess (w : Work) : (Work.rotation w).net.sess = w.net.sess := by
  unfold Work.rotation
  simp

@[simp] theorem Work.setSections_sess (l : List Section) (w : Work) : (Work.setSections l w).net.sess = w.net.sess := by rfl

@[simp] theorem Work.setColls_sess (l : List CollJob) (w : Work) : (Work.setColls l w).net.sess = w.net.sess := by rfl

@[simp] theorem Work.collEnd_sess (id : Nat) (w : Work) : (Work.collEnd id w).net.sess = w.net.sess := by
  unfold Work.collEnd
  (repeat' split) <;> simp [*]

@[simp] theorem Work.mapColl_sess (id : Nat) (f : CollJob → CollJob) (w : Work) : (Work.mapColl id f w).net.sess = w.net.sess := by rfl

@[simp] theorem Work.withdraw_sess (user : Nat) (ref : Nat) (w : Work) : (Work.withdraw user ref w).net.sess = w.net.sess := by rfl

@[simp] theorem Work.collStop_sess (id : Nat) (st : Nat) (det : Nat) (w : Work) : (Work.collStop id st det w).net.sess = w.net.sess := by
  unfold Work.collStop
  dsimp only
  (repeat' split) <;> simp [*]

@[simp] theorem Work.exchanged_sess (id : Nat) (n : Nat) (lv : Nat) (w : Work) : (Work.exchanged id n lv w).net.sess = w.net.sess := by
  unfold Work.exchanged
  split <;> simp

@[simp] theorem Work.chunkLanded_sess (p : Posted) (w : Work) : (Work.chunkLanded p w).net.sess = w.net.sess := by
  unfold Work.chunkLanded
  (repeat' split) <;> simp [*]

@[simp] theorem Work.tagBlocks_sess (n : Nat) (lo : Nat) (hi : Nat) (tag : Nat) (w : Work) : (Work.tagBlocks n lo hi tag w).net.sess = w.net.sess := by rfl

@[simp] theorem Work.write_sess (a : Nat) (d : List Byte) (w : Work) : (Work.write a d w).net.sess = w.net.sess := by
  unfold Work.write
  split <;> simp

@[simp] theorem Work.engWrite_sess (x : Nat) (a : Nat) (d : List Byte) (w : Work) : (Work.engWrite x a d w).net.sess = w.net.sess := by
  unfold Work.engWrite
  (repeat' split) <;> simp [*]

@[simp] theorem Work.setBlobs_sess (c : Copy) (m : List (Nat × Nat)) (w : Work) : (Work.setBlobs c m w).net.sess = w.net.sess := by
  unfold Work.setBlobs
  (repeat' split) <;> simp [*]

@[simp] theorem Work.blobPut_sess (c : Copy) (n : Nat) (off : Nat) (v : Nat) (len : Nat) (w : Work) : (Work.blobPut c n off v len w).net.sess =
    w.net.sess := by
  unfold Work.blobPut
  simp

@[simp] theorem Work.eventLimited_sess (key : Nat) (gap : Nat) (code : Nat) (ctx : Nat) (source : Nat) (detail : Nat) (w : Work) :
    (Work.eventLimited key gap code ctx source detail w).net.sess = w.net.sess := by
  unfold Work.eventLimited
  split <;> simp

@[simp] theorem Work.xqParity_sess (inst : Nat) (w : Work) : (Work.xqParity inst w).net.sess = w.net.sess := by
  unfold Work.xqParity
  simp

@[simp] theorem Work.frame_sess (p : Nat) (addr : Nat) (rport : Nat) (sid : Nat) (path : Nat) (hdr : Nat) (ext : Nat) (extLen : Nat) (payload : List
    Byte) (bad : TxFault) (w : Work) : (Work.frame p addr rport sid path hdr ext extLen payload bad w).net.sess = w.net.sess := by
  unfold Work.frame
  (repeat' split) <;> simp [*]

@[simp] theorem Work.clamped_sess (wr : Writer) (num : Nat) (written : Nat) (held : Nat) (off : Nat) (w : Work) : (Work.clamped wr num written
    held off w).net.sess = w.net.sess := by
  unfold Work.clamped
  dsimp only
  split <;> simp

@[simp] theorem Work.clampTo_sess (wr : Writer) (num : Nat) (written : Nat) (held : Nat) (w : Work) : (Work.clampTo wr num written held
    w).net.sess = w.net.sess := by
  unfold Work.clampTo
  split <;> simp

@[simp] theorem Work.pendToActive_sess (n : Nat) (w : Work) : (Work.pendToActive n w).net.sess = w.net.sess := by rfl

@[simp] theorem Work.blobCopy_sess (src : Copy) (dst : Copy) (n : Nat) (w : Work) : (Work.blobCopy src dst n w).net.sess = w.net.sess := by
  unfold Work.blobCopy
  simp

@[simp] theorem Work.groupToActive_sess (scalars : List Nat) (blobs : List Nat) (w : Work) : (Work.groupToActive scalars blobs w).net.sess =
    w.net.sess := by
  unfold Work.groupToActive
  simp

@[simp] theorem Work.slotApply_sess (s : Nat) (w : Work) : (Work.slotApply s w).net.sess = w.net.sess := by
  unfold Work.slotApply
  dsimp only
  simp [apply_ite]

@[simp] theorem Work.activateSlot_sess (s : Nat) (w : Work) : (Work.activateSlot s w).net.sess = w.net.sess := by
  unfold Work.activateSlot
  (repeat' split) <;> simp [*]

@[simp] theorem Work.setPats_sess (l : List Pattern) (w : Work) : (Work.setPats l w).net.sess = w.net.sess := by rfl

@[simp] theorem Work.freeDraw_sess (w : Work) : (Work.freeDraw w).2.net.sess = w.net.sess := by rfl

@[simp] theorem Work.setPair_sess (f : PairState → PairState) (w : Work) : (Work.setPair f w).net.sess = w.net.sess := by rfl

@[simp] theorem Work.metroSync_sess (w : Work) : (Work.metroSync w).net.sess = w.net.sess := by rfl

@[simp] theorem Work.countOpen_sess (w : Work) : (Work.countOpen w).net.sess = w.net.sess := by rfl

@[simp] theorem Work.putPeerSt_sess (n : Nat) (st : Nat) (why : Nat) (w : Work) : (Work.putPeerSt n st why w).net.sess = w.net.sess := by rfl

@[simp] theorem Work.freeBytes_sess (n : Nat) (w : Work) : (Work.freeBytes n w).2.net.sess = w.net.sess := by rfl

@[simp] theorem Work.resumeAdmit_sess (w : Work) : (Work.resumeAdmit w).net.sess = w.net.sess := by
  unfold Work.resumeAdmit
  split <;> simp

@[simp] theorem Work.setStreams_sess (l : List Stream) (w : Work) : (Work.setStreams l w).net.sess = w.net.sess := by rfl

@[simp] theorem Work.mapLoad_sess (f : LoadJob → LoadJob) (w : Work) : (Work.mapLoad f w).net.sess = w.net.sess := by rfl

@[simp] theorem Work.setHashes_sess (l : List HashJob) (w : Work) : (Work.setHashes l w).net.sess = w.net.sess := by rfl

@[simp] theorem Work.loadOver_sess (st : Nat) (w : Work) : (Work.loadOver st w).net.sess = w.net.sess := by
  unfold Work.loadOver
  dsimp only
  (repeat' split) <;> simp [*]

@[simp] theorem Work.queueMsg_sess (m : TxMsg) (w : Work) : (Work.queueMsg m w).net.sess = w.net.sess := by rfl

@[simp] theorem Work.tellSucc_sess (j : LoadJob) (w : Work) : (Work.tellSucc j w).net.sess = w.net.sess := by
  unfold Work.tellSucc
  simp [*]

@[simp] theorem Work.loadFail_sess (det : Nat) (w : Work) : (Work.loadFail det w).net.sess = w.net.sess := by
  unfold Work.loadFail
  (repeat' split) <;> simp [*]

@[simp] theorem Work.setFills_sess (l : List Fill) (w : Work) : (Work.setFills l w).net.sess = w.net.sess := by rfl

@[simp] theorem Work.mapFill_sess (id : Nat) (f : Fill → Fill) (w : Work) : (Work.mapFill id f w).net.sess = w.net.sess := by rfl

@[simp] theorem Work.freeHeld_sess (b : Nat) (n : Nat) (w : Work) : (Work.freeHeld b n w).net.sess = w.net.sess := by rfl

@[simp] theorem Work.issueFill_sess (id : Nat) (v1 : Nat) (v2 : Work) : (Work.issueFill id v1 v2).net.sess = v2.net.sess := by
  induction v1 generalizing v2 with
  | zero => rfl
  | succ k ih =>
    unfold Work.issueFill
    (repeat' split) <;> simp [*]

@[simp] theorem Work.issueBuffer_sess (b : Nat) (w : Work) : (Work.issueBuffer b w).net.sess = w.net.sess := by
  unfold Work.issueBuffer
  simp [*]

@[simp] theorem Work.passFill_sess (id : Nat) (w : Work) : (Work.passFill id w).net.sess = w.net.sess := by
  unfold Work.passFill
  dsimp only
  (repeat' split) <;> simp [*]

@[simp] theorem Work.passFills_sess (x : Nat) (w : Work) : (Work.passFills x w).net.sess = w.net.sess := by
  unfold Work.passFills
  simp [*]

@[simp] theorem Work.evtPut_sess (x n v : Nat) (w : Work) : (w.evtPut x n v).net.sess = w.net.sess := by
  unfold Work.evtPut
  simp

@[simp] theorem Work.evtAdd_sess (x : Nat) (n : Nat) (k : Nat) (w : Work) : (Work.evtAdd x n k w).net.sess = w.net.sess := by
  unfold Work.evtAdd
  simp

@[simp] theorem Work.mapRestore_sess (x : Nat) (f : Restore → Restore) (w : Work) : (Work.mapRestore x f w).net.sess = w.net.sess := by rfl

@[simp] theorem Work.mapRest_sess (x : Nat) (s : Nat) (f : RestShard → RestShard) (w : Work) : (Work.mapRest x s f w).net.sess = w.net.sess := by rfl

@[simp] theorem Work.restoreAsk_sess (x : Nat) (v1 : Nat) (v2 : Work) : (Work.restoreAsk x v1 v2).net.sess = v2.net.sess := by
  induction v1 generalizing v2 with
  | zero => rfl
  | succ k ih =>
    unfold Work.restoreAsk
    (repeat' split) <;> simp [*]

@[simp] theorem Work.mapMirror_sess (x : Nat) (f : Mirror → Mirror) (w : Work) : (Work.mapMirror x f w).net.sess = w.net.sess := by rfl

@[simp] theorem Work.mapMir_sess (x : Nat) (s : Nat) (f : MirShard → MirShard) (w : Work) : (Work.mapMir x s f w).net.sess = w.net.sess := by rfl

@[simp] theorem Work.mirrorAbandon_sess (x : Nat) (s : Nat) (w : Work) : (Work.mirrorAbandon x s w).net.sess = w.net.sess := by
  unfold Work.mirrorAbandon
  (repeat' split) <;> simp [*]

@[simp] theorem Work.mirrorTell_sess (x : Nat) (w : Work) : (Work.mirrorTell x w).net.sess = w.net.sess := by
  unfold Work.mirrorTell
  (repeat' split) <;> simp [*]

@[simp] theorem Work.pairGone_sess (n : Nat) (w : Work) : (Work.pairGone n w).net.sess = w.net.sess := by
  unfold Work.pairGone
  dsimp only
  (repeat' split) <;> simp [*]

@[simp] theorem Work.undefine_sess (j : CollJob) (w : Work) : (Work.undefine j w).net.sess = w.net.sess := by
  unfold Work.undefine
  dsimp only
  simp [apply_ite]

@[simp] theorem Work.breakGroup_sess (g : Nat) (cause : Nat) (rank : Nat) (orig : Nat) (skip : List Nat) (w : Work) : (Work.breakGroup g cause
    rank orig skip w).net.sess = w.net.sess := by
  unfold Work.breakGroup
  dsimp only
  (repeat' split) <;> simp_all [apply_ite]

@[simp] theorem Work.plaitGone_sess (n : Nat) (cause : Nat) (w : Work) : (Work.plaitGone n cause w).net.sess = w.net.sess := by
  unfold Work.plaitGone
  dsimp only
  simp [apply_ite]

@[simp] theorem Work.forward_sess (v0 : Nat) (v1 : Work) : (Work.forward v0 v1).net.sess = v1.net.sess := by
  induction v0 generalizing v1 with
  | zero => rfl
  | succ k ih =>
    unfold Work.forward
    (repeat' split) <;> simp [*]

@[simp] theorem Work.putShard_sess (s : Shard) (w : Work) : (Work.putShard s w).net.sess = w.net.sess := by rfl

@[simp] theorem Work.hashAdd_sess (kind : Nat) (ref : Nat) (w : Work) : (Work.hashAdd kind ref w).net.sess = w.net.sess := by rfl

@[simp] theorem Work.hashReady_sess (i : Nat) (w : Work) : (Work.hashReady i w).net.sess = w.net.sess := by
  unfold Work.hashReady
  split <;> simp

@[simp] theorem Work.nextAttempt_sess (i : Nat) (st : Nat) (w : Work) : (Work.nextAttempt i st w).net.sess = w.net.sess := by
  unfold Work.nextAttempt
  (repeat' split) <;> simp [*]

@[simp] theorem Work.issueShard_sess (i : Nat) (w : Work) : (Work.issueShard i w).net.sess = w.net.sess := by
  unfold Work.issueShard
  dsimp only
  (repeat' split) <;> simp [*]

@[simp] theorem Work.zeroGaps_sess (j : LoadJob) (w : Work) : (w.zeroGaps j).net.sess = w.net.sess := by
  unfold Work.zeroGaps
  refine forUpto_sess _ (fun p w => ?_) _ _
  refine foldl_sess _ (fun w g => ?_) _ _
  dsimp only
  split <;> simp

@[simp] theorem Work.loadDone_sess (j : LoadJob) (w : Work) : (Work.loadDone j w).net.sess = w.net.sess := by
  unfold Work.loadDone
  dsimp only
  (repeat' split) <;> simp [*]

@[simp] theorem Work.loadStep_sess (w : Work) : (w.loadStep).net.sess = w.net.sess := by
  unfold Work.loadStep
  dsimp only
  split
  · rfl
  split
  · rfl
  · next j _ _ =>
    have shards : ((iter (fun w : Work => forUpto (fun i w => w.issueShard i) j.shards.length w) 4 w).forward
        j.shards.length).net.sess = w.net.sess := by
      rw [Work.forward_sess]
      exact iter_sess _ (fun w => by simp) _ _
    split
    · split
      · rw [Work.loadDone_sess]
        exact shards
      · exact shards
    · exact shards

@[simp] theorem Work.hashDrop_sess (kind : Nat) (ref : Nat) (w : Work) : (Work.hashDrop kind ref w).net.sess = w.net.sess := by rfl

@[simp] theorem Work.shardMissing_sess (i : Nat) (w : Work) : (Work.shardMissing i w).net.sess = w.net.sess := by
  unfold Work.shardMissing
  (repeat' split) <;> simp [*]

@[simp] theorem Work.loaderGone_sess (n : Nat) (w : Work) : (Work.loaderGone n w).net.sess = w.net.sess := by
  unfold Work.loaderGone
  (repeat' split) <;> simp [*]

@[simp] theorem Work.openBody_sess (n : Nat) (port : Nat) (nonceI : Nat) (nonceR : Nat) (hdr : Nat) (w : Work) : (Work.openBody n port nonceI
    nonceR hdr w).2.net.sess = w.net.sess := by rfl

@[simp] theorem Work.entropyDraw_sess (w : Work) : (Work.entropyDraw w).2.net.sess = w.net.sess := by rfl

@[simp] theorem Work.nextSid_sess (n : Nat) (w : Work) : (Work.nextSid n w).2.net.sess = w.net.sess := by rfl

@[simp] theorem Work.chunkDelivered_sess (m : TxMsg) (w : Work) : (Work.chunkDelivered m w).net.sess = w.net.sess := by
  unfold Work.chunkDelivered
  simp

@[simp] theorem Work.collSweep_sess (w : Work) : (Work.collSweep w).net.sess = w.net.sess := by
  unfold Work.collSweep
  simp

@[simp] theorem Work.mirrorFinal_sess (x : Nat) (s : Nat) (w : Work) : (Work.mirrorFinal x s w).net.sess = w.net.sess := by
  unfold Work.mirrorFinal
  (repeat' split) <;> simp [*]

@[simp] theorem Work.pairDelivered_sess (m : TxMsg) (w : Work) : (Work.pairDelivered m w).net.sess = w.net.sess := by
  unfold Work.pairDelivered
  (repeat' split) <;> simp [*]

@[simp] theorem Work.delivered_sess (m : TxMsg) (w : Work) : (Work.delivered m w).net.sess = w.net.sess := by
  unfold Work.delivered
  (repeat' split) <;> simp [*]

@[simp] theorem Work.reply_sess (p : Nat) (addr : Nat) (type : Nat) (reason : Nat) (h : Nat) (w : Work) : (Work.reply p addr type reason h w).net.sess
    = w.net.sess := by
  unfold Work.reply
  dsimp only
  (repeat' split) <;> simp [*]

@[simp] theorem Work.rxCounted_sess (f : Rx) (w : Work) : (Work.rxCounted f w).net.sess = w.net.sess := by
  unfold Work.rxCounted
  split <;> simp


/-! ### The session of an entry -/

theorem Dev.sess?_congr {w w' : Work} (h : w'.net.sess = w.net.sess) (n : Nat) : w'.sess? n = w.sess? n := by
  unfold Dev.sess?
  rw [h]

theorem Dev.sess?_n {w : Work} {n : Nat} {p : Sess} (h : w.sess? n = some p) : p.n = n := by simpa using List.find?_some h

/-- Of a list of sessions in which entry s.n stands, the one put in its place is found. -/
theorem find?_replaced (s : Sess) (l : List Sess) {p : Sess} (h : l.find? (fun q => q.n == s.n) = some p) :
    (l.map (fun r => if r.n = s.n then s else r)).find? (fun q => q.n == s.n) = some s := by
  induction l with
  | nil => cases h
  | cons r rs ih =>
    by_cases hr : r.n = s.n
    · simp [hr]
    · simp only [List.find?_cons, beq_eq_false_iff_ne.mpr hr] at h
      simp only [List.map_cons, if_neg hr, List.find?_cons, beq_eq_false_iff_ne.mpr hr]
      exact ih h

theorem Work.putSess_sess? {s p : Sess} {n : Nat} {w : Work} (h : w.sess? n = some p) (key : s.n = n) : (w.putSess s).sess? n = some s := by
  subst key
  exact find?_replaced s _ h

theorem Work.mapSess_eq {n : Nat} {f : Sess → Sess} {p : Sess} {w : Work} (h : w.sess? n = some p) : w.mapSess n f = w.putSess (f p) := by
  unfold Work.mapSess
  rw [h]

theorem Work.mapSess_sess? {n : Nat} {f : Sess → Sess} {p : Sess} {w : Work} (h : w.sess? n = some p) (key : (f p).n = n) :
    (w.mapSess n f).sess? n = some (f p) := by
  rw [Work.mapSess_eq h]
  exact Work.putSess_sess? h key

theorem Work.addSess_sess? (s : Sess) (w : Work) : (w.addSess s).sess? s.n = some s := by
  show (w.net.sess.filter (fun r => r.n != s.n) ++ [s]).find? (fun q => q.n == s.n) = some s
  rw [List.find?_append, List.find?_eq_none.mpr, Option.none_or]
  · simp
  · intro r hr
    simpa using (List.mem_filter.mp hr).2

theorem Work.endSess_sess? (n st why : Nat) (w : Work) : (w.endSess n st why).sess? n = none := by
  unfold Work.endSess
  extract_lets ended
  have gone : ended.sess? n = none := List.find?_eq_none.mpr (fun r hr => by simpa using (List.mem_filter.mp hr).2)
  refine (Dev.sess?_congr ?_ n).trans gone
  rw [Work.metroSync_sess, Work.blobPut_sess, Work.putPeerSt_sess]

/-- A session that has gone is there no more, whatever its end means to its users. -/
theorem Work.sessGone_sess? (n st why : Nat) (w : Work) : (w.sessGone n st why).sess? n = none := by
  have ended : (w.sessOver n st why).sess? n = none := by
    unfold Work.sessOver
    exact Work.endSess_sess? _ _ _ _
  unfold Work.sessGone
  refine (Dev.sess?_congr ?_ n).trans ended
  rw [Work.pairGone_sess, Work.loaderGone_sess, Work.plaitGone_sess]

/-! ### What the peer table and its states depend on -/

theorem Dev.peer_congr {w w' : Dev} (h : w'.blob = w.blob) (n : Nat) : w'.peer n = w.peer n := Dev.blobNat_congr (c := .active) h _ _ _

theorem Dev.lctx_congr {w w' : Dev} (h : w'.blob = w.blob) (n : Nat) : w'.lctx n = w.lctx n := congrArg pLctx (Dev.peer_congr h n)

theorem Dev.peerSt_congr {w w' : Dev} (h : w'.blob = w.blob) (n : Nat) : w'.peerSt n = w.peerSt n :=
  congrArg (fun b => bits b 0 3) (Dev.blobNat_congr (c := .active) h Obj.peerState n 1)

theorem pLctx_lt (e : Nat) : pLctx e < 16 := by
  unfold pLctx bits
  omega

/-! ### Frames -/

/-- The objects that a frame on port p may count in. -/
def frameObjs (p : Nat) : List Nat := Obj.txFrames p :: Obj.txUnderrun p :: Obj.xqParityCount :: logObjs

theorem Work.xqParity_get (inst : Nat) (w : Work) {n : Nat} (h : n ∉ Obj.xqParityCount :: logObjs) : (w.xqParity inst).get n = w.get n := by
  obtain ⟨count, log⟩ := not_or.mp (mt List.mem_cons.mpr h)
  unfold Work.xqParity
  exact (Work.eventLimited_get _ _ _ _ _ _ _ log).trans ((Work.blobPut_get _ _ _ _ _ _ _).trans (Work.bump_get_other _ _ count))

theorem Work.frame_get {p : Nat} (addr rport sid path hdr ext extLen : Nat) (payload : List Byte) (bad : TxFault) (w : Work) {n : Nat}
    (h : n ∉ frameObjs p) : (w.frame p addr rport sid path hdr ext extLen payload bad).get n = w.get n := by
  obtain ⟨tx, h⟩ := not_or.mp (mt List.mem_cons.mpr h)
  obtain ⟨under, h⟩ := not_or.mp (mt List.mem_cons.mpr h)
  unfold Work.frame
  split
  · rfl
  · extract_lets counted faulty
    have hcounted : counted.get n = w.get n := Work.bump_get_other _ _ tx
    have hfaulty : faulty.get n = w.get n := by
      unfold faulty
      split
      · exact hcounted
      · exact (Work.bump_get_other _ _ under).trans hcounted
      · exact (Work.bump_get_other _ _ under).trans ((Work.xqParity_get _ _ h).trans hcounted)
    exact hfaulty

/-- A frame that leaves whole counts as one on its port. -/
theorem Work.frame_txFrames {p : Nat} (addr rport sid path hdr ext extLen : Nat) (payload : List Byte) (w : Work) (up : w.portUp p = true) :
    (w.frame p addr rport sid path hdr ext extLen payload .none).get (Obj.txFrames p) = min (w.get (Obj.txFrames p) + 1) (maxU 64) := by
  unfold Work.frame
  rw [if_neg (by rw [up]; decide)]
  exact Work.bump_get_same _ _ _

theorem Work.frame_blob {p : Nat} (addr rport sid path hdr ext extLen : Nat) (payload : List Byte) (w : Work) :
    (w.frame p addr rport sid path hdr ext extLen payload .none).blob = w.blob := by
  unfold Work.frame
  split <;> rfl

theorem Work.reply_get {p : Nat} (addr type reason h : Nat) (w : Work) {n : Nat} (other : n ∉ Obj.replySuppressed :: frameObjs p) :
    (w.reply p addr type reason h).get n = w.get n := by
  obtain ⟨suppressed, other⟩ := not_or.mp (mt List.mem_cons.mpr other)
  unfold Work.reply
  extract_lets sec sent recent noted
  split
  · exact Work.bump_get_other _ _ suppressed
  · exact Work.frame_get _ _ _ _ _ _ _ _ _ _ other

/-! ### A frame that is received -/

/-- The objects that a received frame counts in. -/
def rxObjs (f : Rx) : List Nat := [Obj.rxFrames f.port, Obj.fecSymCorr f.port, Obj.rxCe f.port]

theorem Work.rxCounted_rest (f : Rx) (w : Work) : ∃ o, w.rxCounted f = { w with obj := o } := by
  unfold Work.rxCounted
  extract_lets counted
  split
  · exact ⟨_, rfl⟩
  · exact ⟨_, rfl⟩

theorem Work.rxCounted_blob (f : Rx) (w : Work) : (w.rxCounted f).blob = w.blob := by
  obtain ⟨o, e⟩ := w.rxCounted_rest f
  rw [e]

theorem Work.rxCounted_time (f : Rx) (w : Work) : (w.rxCounted f).time = w.time := by
  obtain ⟨o, e⟩ := w.rxCounted_rest f
  rw [e]

theorem Work.rxCounted_net (f : Rx) (w : Work) : (w.rxCounted f).net = w.net := by
  obtain ⟨o, e⟩ := w.rxCounted_rest f
  rw [e]

theorem Work.rxCounted_get (f : Rx) (w : Work) {n : Nat} (h : n ∉ rxObjs f) : (w.rxCounted f).get n = w.get n := by
  simp only [rxObjs, List.mem_cons, List.not_mem_nil, or_false, not_or] at h
  obtain ⟨frames, fec, ce⟩ := h
  unfold Work.rxCounted
  extract_lets counted
  have hcounted : counted.get n = w.get n := (Work.bump_get_other _ _ fec).trans (Work.bump_get_other _ _ frames)
  split
  · exact (Work.bump_get_other _ _ ce).trans hcounted
  · exact hcounted

end Sys2Proof.Machine

namespace Sys2Proof.Machine

/-! ### What leaves the network open or shut as it is -/

@[simp] theorem Work.ite_shut (c : Prop) [Decidable c] (a b : Work) :
    (if c then a else b).net.shut = if c then a.net.shut else b.net.shut := by
  split <;> rfl

@[simp] theorem foldl_shut {α : Type} (f : Work → α → Work) (h : ∀ w a, (f w a).net.shut = w.net.shut) (l : List α) (w : Work) :
    (l.foldl f w).net.shut = w.net.shut :=
  List.foldlRecOn l f (motive := fun w' => w'.net.shut = w.net.shut) rfl (fun w' same a _ => (h w' a).trans same)

@[simp] theorem forUpto_shut (f : Nat → Work → Work) (h : ∀ i w, (f i w).net.shut = w.net.shut) (n : Nat) (w : Work) :
    (forUpto f n w).net.shut = w.net.shut := by
  induction n with
  | zero => rfl
  | succ n ih => exact (h n _).trans ih


@[simp] theorem Work.put_shut (n : Nat) (v : Nat) (w : Work) : (Work.put n v w).net.shut = w.net.shut := by rfl

@[simp] theorem Work.bump_shut (n : Nat) (k : Nat) (w : Work) : (Work.bump n k w).net.shut = w.net.shut := by rfl

@[simp] theorem Work.send_shut (m : OutMsg) (w : Work) : (Work.send m w).net.shut = w.net.shut := by rfl

@[simp] theorem Work.mgmtSend_shut (m : OutMsg) (w : Work) : (Work.mgmtSend m w).net.shut = w.net.shut := by
  unfold Work.mgmtSend
  split <;> simp

@[simp] theorem Work.notifyTx_shut (i : Nat) (seq : Nat) (kind : Nat) (body : List Nat) (w : Work) : (Work.notifyTx i seq kind body w).net.shut =
    w.net.shut := by
  unfold Work.notifyTx
  simp

@[simp] theorem Work.notifyOne_shut (i kind : Nat) (body : List Nat) (w : Work) : (w.notifyOne i kind body).2.net.shut = w.net.shut := by
  rw [(Work.logs_notifyOne w i kind body).net]

@[simp] theorem Work.notifyAll_shut (kind : Nat) (body : List Nat) (w : Work) : (w.notifyAll kind body).2.net.shut = w.net.shut := by
  rw [(Work.logs_notifyAll w kind body).net]

@[simp] theorem Work.rateMark_shut (key : Nat) (w : Work) : (Work.rateMark key w).net.shut = w.net.shut := by rfl

@[simp] theorem Work.logRec_shut (code ctx source detail extra : Nat) (w : Work) : (w.logRec code ctx source detail extra).2.net.shut = w.net.shut := by
  rw [(Work.logs_logRec w code ctx source detail extra).net]

@[simp] theorem Work.logUnit_shut (n code ctx source detail extra : Nat) (w : Work) : (w.logUnit n code ctx source detail extra).net.shut = w.net.shut := by
  rw [(Work.logs_logUnit n code ctx source detail extra w).net]

@[simp] theorem Work.log1_shut (code : Nat) (ctx : Nat) (source : Nat) (detail : Nat) (extra : Nat) (w : Work) : (Work.log1 code ctx source detail
    extra w).net.shut = w.net.shut := by
  unfold Work.log1
  simp

@[simp] theorem Work.event_shut (code : Nat) (ctx : Nat) (source : Nat) (detail : Nat) (w : Work) : (Work.event code ctx source detail w).net.shut =
    w.net.shut := by
  unfold Work.event
  simp

@[simp] theorem Work.setBlobs_shut (c : Copy) (m : List (Nat × Nat)) (w : Work) : (Work.setBlobs c m w).net.shut = w.net.shut := by
  unfold Work.setBlobs
  (repeat' split) <;> simp [*]

@[simp] theorem Work.blobPut_shut (c : Copy) (n : Nat) (off : Nat) (v : Nat) (len : Nat) (w : Work) : (Work.blobPut c n off v len w).net.shut =
    w.net.shut := by
  unfold Work.blobPut
  simp

@[simp] theorem Work.putSess_shut (s : Sess) (w : Work) : (Work.putSess s w).net.shut = w.net.shut := by rfl

@[simp] theorem Work.mapSess_shut (n : Nat) (f : Sess → Sess) (w : Work) : (Work.mapSess n f w).net.shut = w.net.shut := by
  unfold Work.mapSess
  split <;> simp

@[simp] theorem Work.eventLimited_shut (key : Nat) (gap : Nat) (code : Nat) (ctx : Nat) (source : Nat) (detail : Nat) (w : Work) :
    (Work.eventLimited key gap code ctx source detail w).net.shut = w.net.shut := by
  unfold Work.eventLimited
  split <;> simp

@[simp] theorem Work.xqParity_shut (inst : Nat) (w : Work) : (Work.xqParity inst w).net.shut = w.net.shut := by
  unfold Work.xqParity
  simp

@[simp] theorem Work.frame_shut (p : Nat) (addr : Nat) (rport : Nat) (sid : Nat) (path : Nat) (hdr : Nat) (ext : Nat) (extLen : Nat) (payload : List
    Byte) (bad : TxFault) (w : Work) : (Work.frame p addr rport sid path hdr ext extLen payload bad w).net.shut = w.net.shut := by
  unfold Work.frame
  (repeat' split) <;> simp [*]

@[simp] theorem Work.addSess_shut (s : Sess) (w : Work) : (Work.addSess s w).net.shut = w.net.shut := by rfl

@[simp] theorem Work.countOpen_shut (w : Work) : (Work.countOpen w).net.shut = w.net.shut := by rfl

@[simp] theorem Work.putPeerSt_shut (n : Nat) (st : Nat) (why : Nat) (w : Work) : (Work.putPeerSt n st why w).net.shut = w.net.shut := by rfl

@[simp] theorem Work.clampRates_shut (w : Work) : (Work.clampRates w).net.shut = w.net.shut := by
  unfold Work.clampRates
  simp

@[simp] theorem Work.openBody_shut (n : Nat) (port : Nat) (nonceI : Nat) (nonceR : Nat) (hdr : Nat) (w : Work) : (Work.openBody n port nonceI
    nonceR hdr w).2.net.shut = w.net.shut := by rfl

@[simp] theorem Work.entropyDraw_shut (w : Work) : (Work.entropyDraw w).2.net.shut = w.net.shut := by rfl

@[simp] theorem Work.sendOpen_shut (s : Sess) (w : Work) : (Work.sendOpen s w).net.shut = w.net.shut := by
  unfold Work.sendOpen
  simp

@[simp] theorem Work.nextSid_shut (n : Nat) (w : Work) : (Work.nextSid n w).2.net.shut = w.net.shut := by rfl

@[simp] theorem Work.tryOpen_shut (n : Nat) (w : Work) : (Work.tryOpen n w).net.shut = w.net.shut := by
  unfold Work.tryOpen
  dsimp only
  (repeat' split) <;> simp [*]

/-! ### Precision time -/

/-- A commit of the peer table lets entries open again. -/
theorem opPeerCommit_shut {wr : Writer} {w : Work} (serves : w.serves wr Obj.peerCommit = true) (reaches : w.reaches wr .priv = true) :
    (opPeerCommit wr w).net.shut = false := by
  unfold opPeerCommit
  rw [Work.gated_takes _ _ _ _ _ serves reaches]
  extract_lets before names next leave left corrected settled opened
  rw [Work.clampRates_shut]
  refine (foldl_shut _ (fun w n => ?_) _ _).trans (show opened.net.shut = false from rfl)
  split
  · exact Work.tryOpen_shut _ _
  · rfl

/-- Entering a state leaves the servo's own records. -/
theorem Work.ptpEnter_net (st : Nat) (w : Work) : (w.ptpEnter st).net = w.net := by
  unfold Work.ptpEnter
  extract_lets old src entered
  split
  · rfl
  · split
    · exact Work.event_net _ _ _ _ _
    · split
      · exact Work.event_net _ _ _ _ _
      · rfl

theorem Work.ptpEnter_state (st : Nat) (w : Work) : (w.ptpEnter st).get Obj.ptpState = st := by
  have free : Obj.ptpState ∉ logObjs := by decide
  unfold Work.ptpEnter
  extract_lets old src entered
  have hentered : entered.get Obj.ptpState = st := Work.put_get_same _ _ _
  split
  · assumption
  · split
    · exact (Work.event_get _ _ _ _ _ free).trans hentered
    · split
      · exact (Work.event_get _ _ _ _ _ free).trans hentered
      · exact hentered

/-- The records of the exchange: when a Sync came last, the one that waits, and the difference measured last. -/
def Dev.exchange (w : Dev) : Nat × Option (Nat × Nat) × Int := (w.net.ptp.syncAt, w.net.ptp.two, w.net.ptp.d21)

theorem Work.ptpEnter_exchange (st : Nat) (w : Work) : (w.ptpEnter st).exchange = w.exchange := by
  unfold Dev.exchange
  rw [Work.ptpEnter_net]

/-- The servo leaves them. -/
theorem Work.servo_exchange (off : Int) (w : Work) : (w.servo off).exchange = w.exchange := by
  unfold Work.servo Work.freeDraw
  extract_lets held offset
  dsimp -zeta only
  extract_lets freq slew step later good stepped
  have hstepped : stepped.exchange = w.exchange := by
    unfold stepped
    split
    · have net : ∀ code ctx source detail, ((later.event code ctx source detail).bump Obj.ptpSteps 1).net = later.net :=
        fun _ _ _ _ => Work.event_net _ _ _ _ _
      unfold Dev.exchange Work.setPtp Work.setNet
      dsimp only
      rw [net]
      rfl
    · rfl
  split
  · exact (Work.ptpEnter_exchange _ _).trans hstepped
  · split
    · exact (Work.ptpEnter_exchange _ _).trans hstepped
    · exact hstepped

theorem Work.measured_exchange (t2 t1 : Nat) (w : Work) :
    (w.measured t2 t1).exchange = (w.net.ptp.syncAt, none, (t2 : Int) - t1) := Work.servo_exchange _ _

theorem Work.measured_syncAt (t2 t1 : Nat) (w : Work) : (w.measured t2 t1).net.ptp.syncAt = w.net.ptp.syncAt :=
  congrArg Prod.fst (w.measured_exchange t2 t1)

theorem Work.measured_two (t2 t1 : Nat) (w : Work) : (w.measured t2 t1).net.ptp.two = none :=
  congrArg (fun e => e.2.1) (w.measured_exchange t2 t1)

theorem Work.measured_d21 (t2 t1 : Nat) (w : Work) : (w.measured t2 t1).net.ptp.d21 = (t2 : Int) - t1 :=
  congrArg (fun e => e.2.2) (w.measured_exchange t2 t1)

theorem opPtpAnnounceRx_takes {p : Fin 8} {a : Announce} {w : Work} (on : w.ptpOn p a.domain = true) (alone : w.net.ptp.gm = none) :
    (opPtpAnnounceRx p a w).net.ptp.gm = some a ∧ (opPtpAnnounceRx p a w).net.ptp.syncAt = w.time ∧
      (opPtpAnnounceRx p a w).get Obj.ptpState = 1 := by
  unfold opPtpAnnounceRx
  rw [if_neg (by rw [on]; decide)]
  extract_lets counted take same followed named
  have htake : take = true := by
    unfold take
    rw [show counted.net.ptp.gm = none from alone]
  have hsame : same = false := by
    unfold same
    rw [show counted.net.ptp.gm = none from alone]
  rw [if_neg (by rw [htake]; decide), if_neg (by rw [hsame]; decide)]
  refine ⟨?_, ?_, Work.ptpEnter_state _ _⟩
  · rw [Work.ptpEnter_net]
    rfl
  · rw [Work.ptpEnter_net]
    rfl

theorem opPtpSyncRx_two {p : Fin 8} {d gm seq t1 : Nat} {w : Work} (on : w.ptpOn p d = true) (from_ : w.fromGm gm = true) :
    (opPtpSyncRx p d gm seq true t1 w).net.ptp.syncAt = w.time ∧
      (opPtpSyncRx p d gm seq true t1 w).net.ptp.two.any (fun q => q.1 == seq) = true := by
  unfold opPtpSyncRx
  rw [if_neg (by rw [on, from_]; decide)]
  exact ⟨rfl, beq_self_eq_true _⟩

theorem opPtpSyncRx_one {p : Fin 8} {d gm seq t1 : Nat} {w : Work} (on : w.ptpOn p d = true) (from_ : w.fromGm gm = true) :
    (opPtpSyncRx p d gm seq false t1 w).net.ptp.syncAt = w.time ∧ (opPtpSyncRx p d gm seq false t1 w).net.ptp.two = none := by
  unfold opPtpSyncRx Work.stamp Work.freeDraw
  rw [if_neg (by rw [on, from_]; decide)]
  extract_lets counted
  dsimp -zeta only
  extract_lets stamped
  exact ⟨Work.measured_syncAt _ _ _, Work.measured_two _ _ _⟩

theorem opPtpFollowUpRx_measures {p : Fin 8} {d gm seq t1 t2 : Nat} {w : Work} (on : w.ptpOn p d = true) (from_ : w.fromGm gm = true)
    (waits : w.net.ptp.two = some (seq, t2)) : (opPtpFollowUpRx p d gm seq t1 w).net.ptp.two = none ∧
      (opPtpFollowUpRx p d gm seq t1 w).net.ptp.d21 = (t2 : Int) - t1 := by
  have e : opPtpFollowUpRx p d gm seq t1 w = (w.bump (Obj.rxFrames p) 1).measured t2 t1 := by
    unfold opPtpFollowUpRx
    rw [if_neg (by rw [on, from_]; decide)]
    extract_lets counted
    rw [show counted.net.ptp.two = some (seq, t2) from waits]
    exact if_pos rfl
  rw [e]
  exact ⟨Work.measured_two _ _ _, Work.measured_d21 _ _ _⟩

theorem opPtpDelayRespRx_delay {p : Fin 8} {d gm seq t4 t3 : Nat} {w : Work} (on : w.ptpOn p d = true) (from_ : w.fromGm gm = true)
    (waits : w.net.ptp.req = some (seq, t3)) : (opPtpDelayRespRx p d gm seq t4 w).net.ptp.req = none ∧
      (opPtpDelayRespRx p d gm seq t4 w).net.ptp.delay = (w.net.ptp.d21 + ((t4 : Int) - t3)) / 2 := by
  have e : opPtpDelayRespRx p d gm seq t4 w = (w.bump (Obj.rxFrames p) 1).setPtp (fun t =>
      { t with delay := (t.d21 + ((t4 : Int) - t3)) / 2, req := none }) := by
    unfold opPtpDelayRespRx
    rw [if_neg (by rw [on, from_]; decide)]
    extract_lets counted
    rw [show counted.net.ptp.req = some (seq, t3) from waits]
    exact if_pos rfl
  rw [e]
  exact ⟨rfl, rfl⟩

theorem opPtpDelayReqTx_asks {a : Announce} {w : Work} (gm : w.net.ptp.gm = some a) (on : w.ptpOn (w.get Obj.ptpPort) a.domain = true)
    (first : w.net.ptp.reqAt = none) : (opPtpDelayReqTx w).net.ptp.reqSeq = (w.net.ptp.reqSeq + 1) % 65536 ∧
      (opPtpDelayReqTx w).net.ptp.reqAt = some w.time ∧ (opPtpDelayReqTx w).net.ptp.req.any (fun q => q.1 == w.net.ptp.reqSeq) = true := by
  unfold opPtpDelayReqTx Work.stamp Work.freeDraw
  rw [gm, first]
  dsimp only
  rw [if_neg (by rw [on]; decide)]
  exact ⟨rfl, rfl, beq_self_eq_true _⟩

/-- Settles O37: the peer table opens again, and the grandmaster's exchanges. -/
theorem peersAndTime : Obligations.PeersAndTime := by
  unfold Obligations.PeersAndTime
  refine ⟨fun wr s takes sound => ?_, fun p a s on alone => ?_, fun p d gm seq t1 s on from_ => ⟨?_, ?_, fun t2 waits => ?_, fun t3 waits => ?_⟩,
    fun a s gm on first => ?_, fun s follows silent => ?_⟩
  · obtain ⟨serves, reaches⟩ := takes
    refine ⟨_, exec_sound sound, ?_⟩
    rw [State.after_net]
    exact opPeerCommit_shut serves reaches
  · exact ⟨_, exec_quiet (opPtpAnnounceRx_out _ _ _), s.sameMem_leave _, opPtpAnnounceRx_takes (w := s.work) on alone⟩
  · exact ⟨_, exec_quiet (opPtpSyncRx_out _ _ _ _ _ _ _), s.sameMem_leave _, opPtpSyncRx_two (w := s.work) on from_⟩
  · exact ⟨_, exec_quiet (opPtpSyncRx_out _ _ _ _ _ _ _), s.sameMem_leave _, opPtpSyncRx_one (w := s.work) on from_⟩
  · exact ⟨_, exec_quiet (opPtpFollowUpRx_out _ _ _ _ _ _), s.sameMem_leave _, opPtpFollowUpRx_measures (w := s.work) on from_ waits⟩
  · exact ⟨_, exec_quiet (opPtpDelayRespRx_out _ _ _ _ _ _), s.sameMem_leave _, opPtpDelayRespRx_delay (w := s.work) on from_ waits⟩
  · exact ⟨_, exec_quiet (opPtpDelayReqTx_out _), s.sameMem_leave _, opPtpDelayReqTx_asks (w := s.work) gm on first⟩
  · have e : Machine.work .ptpHoldover s.work = (s.work.setPtp (fun t => { t with slew := 0, good := 0 })).ptpEnter 3 :=
      if_pos ⟨follows, silent⟩
    exact ⟨_, exec_leave e (Work.ptpEnter_out _ _), s.sameMem_leave _, Work.ptpEnter_state _ _⟩


/-! ### What a received frame's counting leaves as it is -/

/-- An object whose place in its page is not one of the three counters of a received frame. -/
theorem not_mem_rxObjs_page (f : Rx) {n : Nat} (h : n % 0x1000 ≠ 0x12 ∧ n % 0x1000 ≠ 0x15 ∧ n % 0x1000 ≠ 0x17) : n ∉ rxObjs f := by
  simp only [rxObjs, List.mem_cons, List.not_mem_nil, or_false, not_or, Obj.rxFrames, Obj.fecSymCorr, Obj.rxCe]
  omega

/-- What the checks of a packet read is as it was: the tables, the network's state, and the objects that no received frame counts in. -/
structure Dev.Counted (w w' : Dev) : Prop where
  blob : w'.blob = w.blob
  net : w'.net = w.net
  get : ∀ n, n % 0x1000 ≠ 0x12 ∧ n % 0x1000 ≠ 0x15 ∧ n % 0x1000 ≠ 0x17 → w'.get n = w.get n

theorem Work.counted_rxCounted (f : Rx) (w : Work) : w.toDev.Counted (w.rxCounted f).toDev :=
  ⟨w.rxCounted_blob f, w.rxCounted_net f, fun _ h => w.rxCounted_get f (not_mem_rxObjs_page f h)⟩

theorem State.counted_work (s : State) : s.toDev.Counted s.work.toDev := ⟨rfl, rfl, fun _ _ => rfl⟩

section
variable {w w' : Dev} (h : w.Counted w')
include h

theorem Dev.Counted.peer (n : Nat) : w'.peer n = w.peer n := Dev.peer_congr h.blob n

theorem Dev.Counted.lctx (n : Nat) : w'.lctx n = w.lctx n := Dev.lctx_congr h.blob n

theorem Dev.Counted.peerSt (n : Nat) : w'.peerSt n = w.peerSt n := Dev.peerSt_congr h.blob n

theorem Dev.Counted.sess? (n : Nat) : w'.sess? n = w.sess? n := by
  unfold Dev.sess?
  rw [h.net]

theorem Dev.Counted.ownRank (x : Nat) : w'.get (Obj.ownRank x) = w.get (Obj.ownRank x) := h.get _ (by unfold Obj.ownRank; omega)

theorem Dev.Counted.portUp (p : Nat) : w'.portUp p = w.portUp p := by
  unfold Dev.portUp
  rw [h.get _ (by unfold Obj.linkState; omega)]

theorem Dev.Counted.sendPorts (n : Nat) : w'.sendPorts n = w.sendPorts n := by
  unfold Dev.sendPorts
  simp only [h.peer, h.portUp]

theorem Dev.Counted.homePick (n : Nat) : w'.homePick n = w.homePick n := by
  unfold Dev.homePick
  rw [h.sendPorts, h.lctx, h.ownRank]

theorem Dev.Counted.entryFor (b : Nat) : w'.entryFor b = w.entryFor b := by
  unfold Dev.entryFor Dev.entriesOf
  simp only [h.peer, h.blob, h.ownRank]

theorem Dev.Counted.openRefusal (f : Rx) : w'.openRefusal f = w.openRefusal f := by
  have ctx : ∀ x, w'.get (Obj.ctxState x) = w.get (Obj.ctxState x) := fun x => h.get _ (by unfold Obj.ctxState; omega)
  have cls : ∀ p, w'.portCls p = w.portCls p := fun p => h.get _ (by unfold Obj.portClass; omega)
  have mtu : ∀ p, w'.get (Obj.mtu p) = w.get (Obj.mtu p) := fun p => h.get _ (by unfold Obj.mtu; omega)
  unfold Dev.openRefusal
  simp only [h.entryFor, h.net, h.peer, h.peerSt, h.homePick, ctx, cls, mtu]

theorem Dev.Counted.sessBySid (sid : Nat) : w'.sessBySid sid = w.sessBySid sid := by
  unfold Dev.sessBySid
  simp only [h.net, h.peerSt]

theorem Dev.Counted.staleWhy (f : Rx) : w'.staleWhy f = w.staleWhy f := by
  have cgen : ∀ x, w'.get (Obj.cgen x) = w.get (Obj.cgen x) := fun x => h.get _ (by unfold Obj.cgen; omega)
  have inc : w'.get Obj.incarnation = w.get Obj.incarnation := h.get _ (by decide)
  unfold Dev.staleWhy
  simp only [h.sessBySid, h.lctx, cgen, inc]

end

/-! ### The path of a packet (R339) -/

/-- A packet that fits its type is good. -/
theorem rxGood {f : Rx} {w : Dev} (ver : hVer f.hdr = 1) (low : 1 ≤ hType f.hdr) (high : hType f.hdr ≤ 9) (fits : w.rxFits f = true) :
    (hVer f.hdr == 1 && decide (1 ≤ hType f.hdr) && decide (hType f.hdr ≤ 9) && w.rxFits f) = true := by
  simp [ver, low, high, fits]

/-- An OPEN that fits reaches its action. -/
theorem Work.rxPath_open {f : Rx} (act : Nat → Work → Work) {w : Work} (up : w.portUp f.port = true) (ver : hVer f.hdr = 1)
    (typ : hType f.hdr = 3) (fits : w.rxFits f = true) : w.rxPath 3 f act = act 0 (w.rxCounted f) := by
  unfold Work.rxPath
  extract_lets good counted
  have hgood : good = true := rxGood ver (by omega) (by omega) fits
  rw [if_neg (by rw [up]; decide), if_neg (by rw [hgood]; decide), if_neg (not_not_intro typ), if_pos rfl]

/-- A packet of another version is malformed. -/
theorem Work.rxPath_malformed {f : Rx} (t : Nat) (act : Nat → Work → Work) {w : Work} (up : w.portUp f.port = true)
    (ver : hVer f.hdr ≠ 1) : w.rxPath t f act = (w.rxCounted f).bump Obj.rxMalformed 1 := by
  unfold Work.rxPath
  extract_lets good counted
  have hgood : good = false := by
    unfold good
    rw [beq_eq_false_iff_ne.mpr ver]
    rfl
  rw [if_neg (by rw [up]; decide), if_pos (by rw [hgood]; decide)]

/-- A packet of no current session is stale. -/
theorem Work.rxPath_stale {f : Rx} {why : Nat} (act : Nat → Work → Work) {w : Work} (up : w.portUp f.port = true) (ver : hVer f.hdr = 1)
    (low : 1 ≤ hType f.hdr) (high : hType f.hdr ≤ 9) (other : hType f.hdr ≠ 3) (fits : w.rxFits f = true)
    (stale : w.staleWhy f = some why) :
    w.rxPath (hType f.hdr) f act = ((w.rxCounted f).bump Obj.rxStale 1).reply f.port.val f.src 8 why f.hdr := by
  unfold Work.rxPath
  extract_lets good counted
  have hgood : good = true := rxGood ver low high fits
  have hstale : counted.staleWhy f = some why := ((w.counted_rxCounted f).staleWhy f).trans stale
  rw [if_neg (by rw [up]; decide), if_neg (by rw [hgood]; decide), if_neg (not_not_intro rfl), if_neg other, hstale]

/-- A packet reaches session p, as State.hears says it for a state. -/
def Work.hears (w : Work) (f : Rx) (ty : Nat) (p : Sess) : Prop :=
  w.portUp f.port = true ∧ hVer f.hdr = 1 ∧ hType f.hdr = ty ∧ w.rxFits f = true ∧ w.staleWhy f = none ∧
  w.sessBySid (hDstSid f.hdr) = some p ∧ w.sess? p.n = some p ∧ f.src = pAddr (w.peer p.n) ∧
  ((w.peerSt p.n = 2 ∧ p.opener = true) ∨ (hSrcInc f.hdr = p.peerInc ∧ hSrcCgen f.hdr = p.peerCgen))

theorem State.hears.work {s : State} {f : Rx} {ty : Nat} {p : Sess} (h : s.hears f ty p) : s.work.hears f ty p := by
  obtain ⟨up, ver, typ, fits, fresh, bySid, sess, addr, bound⟩ := h
  rw [← s.counted_work.staleWhy] at fresh
  rw [← s.counted_work.sessBySid] at bySid
  rw [← s.counted_work.peer] at addr
  rw [← s.counted_work.peerSt] at bound
  exact ⟨up, ver, typ, fits, fresh, bySid, sess, addr, bound⟩

/-- The device once a frame of session p is counted and the session has noted when it was heard. -/
def Work.heard (f : Rx) (p : Sess) (w : Work) : Work := (w.rxCounted f).putSess { p with lastRx := w.time }

theorem Work.heard_sess? {f : Rx} {ty : Nat} {p : Sess} {w : Work} (h : w.hears f ty p) :
    (w.heard f p).sess? p.n = some { p with lastRx := w.time } := by
  obtain ⟨_, _, _, _, _, _, sess, _, _⟩ := h
  exact Work.putSess_sess? (p := p) (((w.counted_rxCounted f).sess? p.n).trans sess) rfl

/-- What session p hears does what its type does. -/
theorem Work.rxPath_hears {f : Rx} {ty : Nat} {p : Sess} (act : Nat → Work → Work) {w : Work} (h : w.hears f ty p) (low : 1 ≤ ty)
    (high : ty ≤ 9) (other : ty ≠ 3) :
    w.rxPath ty f act = act p.n (if ty = 5 ∨ ty = 8 ∨ ty = 9 then w.heard f p else (w.heard f p).responderOpen p.n) := by
  obtain ⟨up, ver, typ, fits, fresh, bySid, sess, addr, bound⟩ := h
  unfold Work.rxPath
  extract_lets good counted
  have hgood : good = true := rxGood ver (by omega) (by omega) fits
  have hfresh : counted.staleWhy f = none := ((w.counted_rxCounted f).staleWhy f).trans fresh
  have hsid : counted.sessBySid (hDstSid f.hdr) = some p := ((w.counted_rxCounted f).sessBySid _).trans bySid
  rw [if_neg (by rw [up]; decide), if_neg (by rw [hgood]; decide), if_neg (not_not_intro typ), if_neg other, hfresh, hsid]
  dsimp -zeta only
  extract_lets opening bound' noted
  have hbound : bound' = true := by
    unfold bound' opening
    rw [show counted.peerSt p.n = w.peerSt p.n from (w.counted_rxCounted f).peerSt p.n]
    rcases bound with ⟨st, opener⟩ | ⟨inc, cgen⟩
    · simp [st, opener]
    · simp [inc, cgen]
  have hnoted : noted = w.heard f p := by
    unfold noted Work.heard
    rw [Work.mapSess_eq (((w.counted_rxCounted f).sess? p.n).trans sess), show counted.time = w.time from w.rxCounted_time f]
  rw [if_neg (not_or.mpr ⟨not_not_intro (addr.trans (congrArg pAddr ((w.counted_rxCounted f).peer p.n).symm)), by rw [hbound]; decide⟩), hnoted]

/-! ### Peer states -/

theorem Work.countOpen_peerSt (w : Work) (n : Nat) : w.countOpen.peerSt n = w.peerSt n := Dev.peerSt_congr (w := w.toDev) rfl n

/-- The state an entry enters reads back. -/
theorem Work.putPeerSt_peerSt {n st : Nat} (why : Nat) (w : Work) (entry : n < 8192) (code : st < 8) : (w.putPeerSt n st why).peerSt n = st := by
  unfold Work.putPeerSt
  rw [Work.countOpen_peerSt]
  unfold Dev.peerSt bits
  rw [Work.blobPut_blobNat _ _ _ _ _ _ (by omega)]
  simp only [Nat.shiftRight_zero]
  omega

/-- A round trip written to PEER_RTT leaves every peer state. -/
theorem Work.putRtt_peerSt {m : Nat} (v : Nat) (w : Work) (entry : m < 8192) (n : Nat) (entry' : n < 8192) :
    (w.blobPut .active Obj.peerRtt (4 * m) v 4).peerSt n = w.peerSt n := by
  unfold Dev.peerSt
  rw [Work.blobPut_blobNat_other w (by omega) (by omega) (.inl (by decide))]

theorem Work.putSess_peerSt {s : Sess} (w : Work) (entry : s.n < 8192) {n : Nat} (entry' : n < 8192) : (w.putSess s).peerSt n = w.peerSt n :=
  (Work.putRtt_peerSt _ _ entry n entry').trans (Dev.peerSt_congr (w := w.toDev) rfl n)

theorem Work.mapSess_peerSt {m : Nat} {f : Sess → Sess} (w : Work) (key : ∀ s, (f s).n = s.n) (entry : m < 8192) {n : Nat}
    (entry' : n < 8192) : (w.mapSess m f).peerSt n = w.peerSt n := by
  unfold Work.mapSess
  split
  · next s found => exact Work.putSess_peerSt w (Nat.lt_of_le_of_lt (Nat.le_of_eq ((key s).trans (Dev.sess?_n found))) entry) entry'
  · rfl

@[simp] theorem Work.sendCtl_sess (s : Sess) (type flags ext extLen : Nat) (bad : TxFault) (w : Work) :
    (w.sendCtl s type flags ext extLen bad).net.sess = w.net.sess := Work.frame_sess _ _ _ _ _ _ _ _ _ _ _

@[simp] theorem Work.sendOpen_sess (s : Sess) (w : Work) : (w.sendOpen s).net.sess = w.net.sess := Work.frame_sess _ _ _ _ _ _ _ _ _ _ _

theorem Work.sendCtl_blob (s : Sess) (type flags ext extLen : Nat) (w : Work) : (w.sendCtl s type flags ext extLen .none).blob = w.blob :=
  Work.frame_blob _ _ _ _ _ _ _ _ _

/-! ### OPEN and OPEN_ACK (R337) -/

/-- A refusal counts, and leaves the sessions. -/
theorem Work.openRefuse_handshakeFail (f : Rx) (why : Nat) (w : Work) :
    (w.openRefuse f why).get Obj.handshakeFail = min (w.get Obj.handshakeFail + 1) (maxU 64) := by
  unfold Work.openRefuse
  refine (Work.reply_get _ _ _ _ _ ?_).trans (Work.bump_get_same _ _ _)
  have port := f.port.isLt
  simp only [frameObjs, logObjs, List.mem_cons, List.not_mem_nil, or_false, not_or, Obj.handshakeFail, Obj.replySuppressed, Obj.txFrames,
    Obj.txUnderrun, Obj.xqParityCount, Obj.logNextSeq, Obj.logOldestSeq, Obj.logDropped, Obj.notifyLost, Obj.mgmtTxFrames]
  omega

theorem Work.openRefuse_sess? (f : Rx) (why : Nat) (w : Work) (n : Nat) : (w.openRefuse f why).sess? n = w.sess? n := by
  unfold Work.openRefuse
  exact Dev.sess?_congr (Work.reply_sess _ _ _ _ _ _) n

/-- An OPEN that is taken makes a session OPENING that this side did not open. -/
theorem Work.openTake_opens {f : Rx} {n home : Nat} {w : Work} (entry : n < 8192) (pick : w.homePick n = some home) :
    (w.openTake f n).peerSt n = 2 ∧
      ((w.openTake f n).sess? n).any (fun q => !q.opener && q.peerSid == hSrcSid f.hdr && q.peerInc == hSrcInc f.hdr) = true := by
  have taken : ∃ (s : Sess) (w' : Work), s.n = n ∧ s.opener = false ∧ s.peerSid = hSrcSid f.hdr ∧ s.peerInc = hSrcInc f.hdr ∧
      w.openTake f n = ((w'.addSess s).putPeerSt n 2 (w'.peerWhy n)).sendOpenAck s := by
    unfold Work.openTake
    rw [pick]
    exact ⟨_, _, rfl, rfl, rfl, rfl, rfl⟩
  obtain ⟨s, w', key, mine, sid, inc, e⟩ := taken
  rw [e]
  constructor
  · unfold Work.sendOpenAck
    rw [Dev.peerSt_congr (Work.sendCtl_blob _ _ _ _ _ _)]
    exact Work.putPeerSt_peerSt _ _ entry (by decide)
  · have stands : (((w'.addSess s).putPeerSt n 2 (w'.peerWhy n)).sendOpenAck s).sess? n = some s := by
      rw [← key]
      refine (Dev.sess?_congr (Work.sendCtl_sess _ _ _ _ _ _ _) _).trans ((Dev.sess?_congr (Work.putPeerSt_sess _ _ _ _) _).trans ?_)
      exact Work.addSess_sess? _ _
    rw [stands]
    simp [mine, sid, inc]

/-- What an OPEN for an entry without a session does. -/
theorem Work.rxOpen_entry {f : Rx} {n : Nat} {w : Work} (entropy : w.get Obj.entropyState ≠ 1) (named : w.entryFor f.ext = some n)
    (none_ : w.sess? n = none) :
    w.rxOpen f = match w.openRefusal f with | some why => w.openRefuse f why | none => w.openTake f n := by
  unfold Work.rxOpen
  rw [if_neg entropy, named]
  dsimp only
  rw [none_] <;> rfl

/-- An OPEN that is not refused has a home port to be answered on. -/
theorem Dev.openRefusal_none {f : Rx} {n : Nat} {w : Dev} (named : w.entryFor f.ext = some n) (taken : w.openRefusal f = none) :
    ∃ home, w.homePick n = some home := by
  unfold Dev.openRefusal at taken
  dsimp only at taken
  rw [named] at taken
  dsimp only at taken
  cases pick : w.homePick n with
  | some home => exact ⟨home, rfl⟩
  | none =>
    rw [pick] at taken
    split at taken
    · cases taken
    · split at taken
      · cases taken
      · split at taken
        · cases taken
        · split at taken <;> cases taken

theorem Work.sendProbe_peerSt {n : Nat} (w : Work) (entry : n < 8192) : (w.sendProbe n).peerSt n = w.peerSt n := by
  unfold Work.sendProbe
  split
  · rfl
  · next s found =>
    extract_lets first
    have key : s.n = n := Dev.sess?_n found
    exact (Dev.peerSt_congr (Work.sendCtl_blob _ _ _ _ _ _) n).trans (Work.putSess_peerSt _ (Nat.lt_of_le_of_lt (Nat.le_of_eq key) entry) entry)

theorem Work.rateStart_peerSt {n : Nat} (w : Work) (entry : n < 8192) : (w.rateStart n).peerSt n = w.peerSt n := by
  unfold Work.rateStart
  refine Work.mapSess_peerSt w (fun s => ?_) entry entry
  rfl

/-- An OPEN_ACK opens the session or counts as a failed handshake. -/
theorem Work.rxOpenAck_opens {f : Rx} {n : Nat} {s : Sess} {w : Work} (entry : n < 8192) (sess : w.sess? n = some s) (st : w.peerSt n = 2)
    (opener : s.opener = true) : (w.rxOpenAck f n).peerSt n = 3 ∨
      (w.rxOpenAck f n).get Obj.handshakeFail = min (w.get Obj.handshakeFail + 1) (maxU 64) := by
  unfold Work.rxOpenAck
  rw [sess]
  dsimp -zeta only
  rw [if_neg (not_or.mpr ⟨not_not_intro st, by rw [opener]; decide⟩)]
  extract_lets b e x ok named opened
  split
  · exact .inr (Work.bump_get_same _ _ _)
  · refine .inl ?_
    have hopened : opened.peerSt n = 3 := by
      unfold opened
      rw [Work.rateStart_peerSt _ entry]
      exact Work.putPeerSt_peerSt _ _ entry (by decide)
    clear_value opened
    split
    · split
      · exact (Work.sendProbe_peerSt _ entry).trans hopened
      · exact hopened
    · exact hopened

/-- An entry that may open and has a port sends its OPEN. -/
theorem Work.tryOpen_opens {n home : Nat} {w : Work} (may : (w.net.shut || !pValid (w.peer n) || w.get (Obj.ctxState (pLctx (w.peer n))) != 1 ||
    decide (pRank (w.peer n) ≤ w.get (Obj.ownRank (pLctx (w.peer n))))) = false) (pick : w.homePick n = some home) :
    ∃ (s : Sess) (w' : Work), s.n = n ∧ s.opener = true ∧ w.tryOpen n = ((w'.addSess s).putPeerSt n 2 (w'.peerWhy n)).sendOpen s := by
  unfold Work.tryOpen
  dsimp -zeta only
  extract_lets e x
  rw [if_neg (ne_true_of_eq_false may), pick]
  exact ⟨_, _, rfl, rfl, rfl⟩

/-- The session of an entry that has just opened. -/
theorem Work.opened_sess? (s : Sess) (st why : Nat) (w : Work) : (((w.addSess s).putPeerSt s.n st why).sendOpen s).sess? s.n = some s :=
  (Dev.sess?_congr (Work.sendOpen_sess _ _) _).trans ((Dev.sess?_congr (Work.putPeerSt_sess _ _ _ _) _).trans (Work.addSess_sess? _ _))

/-- An entry without a session has none after it tried to open, but one that this side opens. -/
theorem Work.tryOpen_sess? {n : Nat} {w : Work} (none_ : w.sess? n = none) : ∀ q, (w.tryOpen n).sess? n = some q → q.opener = true := by
  intro q h
  cases may : (w.net.shut || !pValid (w.peer n) || w.get (Obj.ctxState (pLctx (w.peer n))) != 1 ||
    decide (pRank (w.peer n) ≤ w.get (Obj.ownRank (pLctx (w.peer n))))) with
  | true =>
    unfold Work.tryOpen at h
    dsimp -zeta only at h
    rw [if_pos may, none_] at h
    cases h
  | false =>
    cases pick : w.homePick n with
    | none =>
      have kept : (w.tryOpen n).net.sess = w.net.sess := by
        unfold Work.tryOpen
        dsimp -zeta only
        extract_lets e x
        rw [if_neg (ne_true_of_eq_false may), pick]
        exact (Work.event_sess _ _ _ _ _).trans (Work.putPeerSt_sess _ _ _ _)
      rw [Dev.sess?_congr kept, none_] at h
      cases h
    | some home =>
      obtain ⟨s, w', key, opener, e⟩ := Work.tryOpen_opens may pick
      subst key
      rw [e, Work.opened_sess?] at h
      cases h
      exact opener

/-! ### What the packets of a handshake do -/

section
variable {f : Rx} {w : Work}

theorem opExbOpenRx_heard (up : w.portUp f.port = true) (ver : hVer f.hdr = 1) (typ : hType f.hdr = 3) (fits : w.rxFits f = true) :
    opExbOpenRx f w = (w.rxCounted f).rxOpen f := Work.rxPath_open _ up ver typ fits

theorem opExbOpenAckRx_heard {p : Sess} (h : w.hears f 4 p) :
    opExbOpenAckRx f w = ((w.heard f p).responderOpen p.n).rxOpenAck f p.n :=
  Work.rxPath_hears (fun n w => w.rxOpenAck f n) h (by decide) (by decide) (by decide)

theorem opExbRejectRx_heard {p : Sess} (h : w.hears f 5 p) :
    opExbRejectRx f w = (w.heard f p).sessGone p.n 5 (bits f.ext 24 8) :=
  Work.rxPath_hears (fun n w => w.sessGone n 5 (bits f.ext 24 8)) h (by decide) (by decide) (by decide)

theorem opExbStaleRx_heard {p : Sess} (h : w.hears f 8 p) : opExbStaleRx f w = (w.heard f p).sessGone p.n 4 2 :=
  Work.rxPath_hears (fun n w => w.sessGone n 4 2) h (by decide) (by decide) (by decide)

theorem opExbCloseRx_heard {p : Sess} (h : w.hears f 9 p) : opExbCloseRx f w = ((w.heard f p).sessGone p.n 1 5).tryOpen p.n :=
  Work.rxPath_hears (fun n w => (w.sessGone n 1 5).tryOpen n) h (by decide) (by decide) (by decide)

/-- A session of this side's opening is not opened by what it hears. -/
theorem Work.responderOpen_opener {n : Nat} {s : Sess} (sess : w.sess? n = some s) (opener : s.opener = true) : w.responderOpen n = w := by
  unfold Work.responderOpen
  rw [sess]
  exact if_neg (fun h => absurd (h.2.symm.trans opener) (by decide))

theorem Work.heard_peerSt {p : Sess} (entry : p.n < 8192) : (w.heard f p).peerSt p.n = w.peerSt p.n :=
  (Work.putSess_peerSt (s := { p with lastRx := w.time }) (w.rxCounted f) entry entry).trans ((w.counted_rxCounted f).peerSt p.n)

theorem Work.heard_get (p : Sess) {n : Nat} (h : n ∉ rxObjs f) : (w.heard f p).get n = w.get n := 
  (Work.blobPut_get _ _ _ _ _ _ _).trans (w.rxCounted_get f h)

end

theorem State.after_sess? (s : State) (g : Work → Work) (n : Nat) : (s.after g).sess? n = (g s.work).sess? n := by
  unfold Dev.sess?
  rw [State.after_net]

/-- Settles O35: OPEN, OPEN_ACK, and the packets that end a session. -/
theorem sessionsBeginAndEnd : Obligations.SessionsBeginAndEnd := by
  unfold Obligations.SessionsBeginAndEnd
  refine ⟨fun f n s up ver typ fits entropy named entry none_ => ?_, fun f p s hears entry st opener => ?_, fun f p s =>
    ⟨fun hears sound => ?_, fun hears sound => ?_, fun hears sound => ?_⟩⟩
  · have e := opExbOpenRx_heard (w := s.work) up ver typ fits
    have named' : (s.work.rxCounted f).entryFor f.ext = some n :=
      ((s.work.counted_rxCounted f).entryFor _).trans ((s.counted_work.entryFor _).trans named)
    have refusal : (s.work.rxCounted f).openRefusal f = s.openRefusal f :=
      ((s.work.counted_rxCounted f).openRefusal f).trans (s.counted_work.openRefusal f)
    have noSess : (s.work.rxCounted f).sess? n = none := ((s.work.counted_rxCounted f).sess? n).trans none_
    have takes : (s.work.rxCounted f).rxOpen f = _ :=
      Work.rxOpen_entry (fun e => entropy ((s.work.rxCounted_get f (not_mem_rxObjs_page f (by decide))).symm.trans e)) named' noSess
    rw [refusal] at takes
    cases r : s.openRefusal f with
    | none =>
      rw [r] at takes
      obtain ⟨home, pick⟩ := Dev.openRefusal_none named' (refusal.trans r)
      refine ⟨_, exec_leave (i := .exbOpenRx f) (e.trans takes) ?_, s.sameMem_leave _, Work.openTake_opens entry pick⟩
      exact (Work.openTake_out _ _ _).trans (Work.rxCounted_out _ _)
    | some why =>
      rw [r] at takes
      refine ⟨_, exec_leave (i := .exbOpenRx f) (e.trans takes) ?_, s.sameMem_leave _, ?_, ?_⟩
      · exact (Work.openRefuse_out _ _ _).trans (Work.rxCounted_out _ _)
      · exact (Work.openRefuse_sess? _ _ _ _).trans noSess
      · refine (Work.openRefuse_handshakeFail _ _ _).trans ?_
        rw [s.work.rxCounted_get f (not_mem_rxObjs_page f (by decide))]
        rfl
  · have h := hears.work
    have sess := Work.heard_sess? h
    have e : opExbOpenAckRx f s.work = (s.work.heard f p).rxOpenAck f p.n :=
      (opExbOpenAckRx_heard h).trans (by rw [Work.responderOpen_opener sess opener])
    have out : ((s.work.heard f p).rxOpenAck f p.n).out = s.work.out := by
      rw [Work.rxOpenAck_out]
      exact Work.rxCounted_out _ _
    have opens := Work.rxOpenAck_opens (f := f) entry sess ((Work.heard_peerSt entry).trans ((s.counted_work.peerSt p.n).trans st)) opener
    rw [Work.heard_get p (not_mem_rxObjs_page f (by decide))] at opens
    exact ⟨_, exec_leave (i := .exbOpenAckRx f) e out, s.sameMem_leave _, opens⟩
  · refine ⟨_, exec_sound sound, ?_⟩
    rw [State.after_sess?]
    refine (congrArg (fun w : Work => w.sess? p.n) (opExbRejectRx_heard hears.work)).trans ?_
    exact Work.sessGone_sess? _ _ _ _
  · refine ⟨_, exec_sound sound, ?_⟩
    rw [State.after_sess?]
    refine (congrArg (fun w : Work => w.sess? p.n) (opExbStaleRx_heard hears.work)).trans ?_
    exact Work.sessGone_sess? _ _ _ _
  · refine ⟨_, exec_sound sound, fun q => ?_⟩
    rw [State.after_sess?]
    intro h
    have e := congrArg (fun w : Work => w.sess? p.n) (opExbCloseRx_heard hears.work)
    exact Work.tryOpen_sess? (Work.sessGone_sess? _ _ _ _) q (e.symm.trans h)


/-! ### A device that has only sent more -/

/-- Two devices alike in the tables, the network's state, the time and every object. -/
structure Dev.Alike (w w' : Dev) : Prop where
  blob : w'.blob = w.blob
  net : w'.net = w.net
  time : w'.time = w.time
  get : ∀ n, w'.get n = w.get n

theorem State.alike_work (s : State) : s.toDev.Alike s.work.toDev := ⟨rfl, rfl, rfl, fun _ => rfl⟩

section
variable {w w' : Dev} (h : w.Alike w')
include h

theorem Dev.Alike.counted : w.Counted w' := ⟨h.blob, h.net, fun n _ => h.get n⟩

theorem Dev.Alike.portCls (p : Nat) : w'.portCls p = w.portCls p := h.get _

theorem Dev.Alike.since (t : Nat) : w'.since t = w.since t := by
  unfold Dev.since
  rw [h.time]

theorem Dev.Alike.ctxClass (x : Nat) : w'.ctxClass x = w.ctxClass x := h.get _

theorem Dev.Alike.rtoNs (s : Sess) : w'.rtoNs s = w.rtoNs s := by
  unfold Dev.rtoNs
  rw [h.portCls, h.get]

theorem Dev.Alike.msgOfPkt (n num : Nat) : w'.msgOfPkt n num = w.msgOfPkt n num := by
  unfold Dev.msgOfPkt
  rw [h.net]

theorem Dev.Alike.nextPkt (s : Sess) : w'.nextPkt s = w.nextPkt s := by
  have bytes : ∀ p, w'.metroBytes p = w.metroBytes p := fun p => by
    unfold Dev.metroBytes
    rw [h.net]
  unfold Dev.nextPkt Dev.metroRoom Dev.metroBuf
  simp only [h.net, h.get, h.portCls, bytes]

theorem Dev.Alike.nextPlace (s : Sess) (x : Next) : w'.nextPlace s x = w.nextPlace s x := by
  unfold Dev.nextPlace
  simp only [h.counted.sendPorts, h.get]

theorem Dev.Alike.sendable (s : Sess) : w'.sendable s = w.sendable s := by
  unfold Dev.sendable
  simp only [h.counted.peerSt, h.time, h.nextPkt, h.nextPlace]

theorem Dev.Alike.turnOf (p : Nat) : w'.turnOf p = w.turnOf p := by
  unfold Dev.turnOf Dev.ctxOrder
  simp only [h.net, h.sendable, h.ctxClass, h.counted.lctx, h.get]

end

/-! ### Timers of a session -/

section
variable {n : Nat} {p : Sess} {w : Work}

theorem Work.ackNow_sess? (rnr : Bool) (bad : TxFault) (sess : w.sess? n = some p) :
    (w.ackNow n rnr bad).sess? n = some { p with rxCount := 0, ceCount := 0, ackDue := none } := by
  have key : p.n = n := Dev.sess?_n sess
  unfold Work.ackNow
  rw [sess]
  exact Work.putSess_sess? (p := p) ((Dev.sess?_congr (Work.sendCtl_sess _ _ _ _ _ _ _) n).trans sess) key

theorem Work.sendProbe_sess? (sess : w.sess? n = some p) (first : p.probe = none) :
    ∃ q, (w.sendProbe n).sess? n = some q ∧ q.probe = some (w.time, w.time) := by
  have key : p.n = n := Dev.sess?_n sess
  unfold Work.sendProbe
  rw [sess]
  dsimp only
  rw [first]
  exact ⟨_, (Dev.sess?_congr (Work.sendCtl_sess _ _ _ _ _ _ _) n).trans (Work.putSess_sess? sess key), rfl⟩

/-! ### DATA that leaves -/

/-- What the last part of a sending does on the session. -/
theorem Work.sent_sess? (s : Sess) (key : s.n = n) (o k port addr rport sid path hdr ext extLen : Nat) (payload : List Byte) (bad : TxFault)
    (sess : w.sess? n = some p) :
    ((((w.putSess s).bump o k).frame port addr rport sid path hdr ext extLen payload bad).metroSync).sess? n = some s :=
  (Dev.sess?_congr (Work.metroSync_sess _) n).trans ((Dev.sess?_congr (Work.frame_sess _ _ _ _ _ _ _ _ _ _ _) n).trans
    (Work.putSess_sess? sess key))

/-- A message that stands under a number is still found once its cut has moved. -/
theorem Work.mapMsg_isSome {num : Nat} {f : TxMsg → TxMsg} (keeps : ∀ m, (f m).n = m.n ∧ (f m).num = m.num)
    (known : ∃ m ∈ w.net.msgs, m.n = n ∧ m.num = some num) : ((w.mapMsg n num f).msgOfPkt n num).isSome = true := by
  obtain ⟨m, hm, mn, mnum⟩ := known
  unfold Work.mapMsg Dev.msgOfPkt
  refine List.find?_isSome.mpr ⟨f m, List.mem_map.mpr ⟨m, hm, if_pos ⟨mn, mnum⟩⟩, ?_⟩
  simp [(keeps m).1, (keeps m).2, mn, mnum]

theorem mem_setAt_findIdx {l : List TxMsg} {m m' : TxMsg} (h : m ∈ l) :
    m' ∈ (match l.findIdx? (fun q => q == m) with | some i => setAt l i m' | none => l) := by
  cases found : l.findIdx? (fun q => q == m) with
  | none =>
    have := List.findIdx?_eq_none_iff.mp found m h
    simp at this
  | some i =>
    obtain ⟨lt, _, _⟩ := List.findIdx?_eq_some_iff_getElem.mp found
    exact List.mem_set lt m'

theorem Work.sendData_again (k : TxPkt) (port path : Nat) (bad : TxFault) (sess : w.sess? n = some p) (known : (w.msgOfPkt n k.msg).isSome = true) :
    ∃ q, (w.sendData p (.again k) port path bad).sess? n = some q ∧ q.psn = p.psn ∧ ∀ u ∈ q.pkts, u.psn ≠ k.psn ∨ u.lost = false := by
  have key : p.n = n := Dev.sess?_n sess
  unfold Work.sendData
  extract_lets e lctx lc again
  split
  next k' m? w' s' made =>
  cases made
  split
  · next none_ =>
    rw [← key, none_] at known
    cases known
  · extract_lets payload flags ext gap pkts s' put counted framed
    have key' : (s'.mark w.time).n = n := key
    have psn : (s'.mark w.time).psn = p.psn := rfl
    have cleared : ∀ u ∈ (s'.mark w.time).pkts, u.psn ≠ k.psn ∨ u.lost = false := by
      intro u hu
      obtain ⟨v, _, rfl⟩ := List.mem_map.mp hu
      split
      · exact .inr rfl
      · next other => exact .inl other
    clear_value payload flags ext s'
    exact ⟨_, Work.sent_sess? _ key' _ _ _ _ _ _ _ _ _ _ _ _ sess, psn, cleared⟩

theorem Work.sendData_fresh (m : TxMsg) (len port path : Nat) (bad : TxFault) (sess : w.sess? n = some p) (known : m ∈ w.net.msgs)
    (mine : m.n = n) : ∃ q, (w.sendData p (.fresh m len) port path bad).sess? n = some q ∧ q.psn = p.psn + 1 := by
  have key : p.n = n := Dev.sess?_n sess
  unfold Work.sendData
  extract_lets e lctx lc again
  split
  next k' m? w' s' made =>
  obtain ⟨num, w1, s1, key1, psn1, sess1, found, hm, hw, hs⟩ : ∃ (num : Nat) (w1 : Work) (s1 : Sess), s1.n = n ∧ s1.psn = p.psn ∧
      w1.net.sess = w.net.sess ∧ (∃ m' ∈ w1.net.msgs, m'.n = n ∧ m'.num = some num) ∧
      m? = (w1.mapMsg s1.n num (fun (q : TxMsg) => { q with cut := q.cut + len })).msgOfPkt s1.n num ∧
      w' = w1.mapMsg s1.n num (fun (q : TxMsg) => { q with cut := q.cut + len }) ∧ s' = { s1 with psn := s1.psn + 1 } := by
    cases hnum : m.num with
    | some i =>
      simp only [hnum] at made
      cases made
      exact ⟨i, w, p, key, rfl, rfl, ⟨m, known, mine, hnum⟩, rfl, rfl, rfl⟩
    | none =>
      simp only [hnum] at made
      cases made
      refine ⟨p.msg, _, { p with msg := p.msg + 1 }, key, rfl, ?_, ?_, rfl, rfl, rfl⟩
      · rfl
      · exact ⟨{ m with num := some p.msg }, mem_setAt_findIdx known, mine, rfl⟩
  clear made
  subst hm hw hs
  split
  · next none_ =>
    have isSome := Work.mapMsg_isSome (w := w1) (n := n) (f := fun (q : TxMsg) => { q with cut := q.cut + len }) (fun _ => ⟨rfl, rfl⟩) found
    rw [← key1, none_] at isSome
    cases isSome
  · extract_lets payload flags ext gap pkts s'
    have key' : (s'.mark w1.time).n = n := key1
    have psn : (s'.mark w1.time).psn = p.psn + 1 := congrArg (· + 1) psn1
    clear_value payload flags ext s'
    have sess' : (w1.mapMsg s1.n num (fun (q : TxMsg) => { q with cut := q.cut + len })).sess? n = some p :=
      (Dev.sess?_congr (w := w) sess1 n).trans sess
    exact ⟨_, Work.sent_sess? _ key' _ _ _ _ _ _ _ _ _ _ _ _ sess', psn⟩

/-! ### The timers of a session -/

/-- The turn on a port has come to entry n. -/
def Work.turned (port n : Nat) (w : Work) : Work :=
  w.setNet (fun t => { t with
    turn := (if w.net.turn.contains (port, n) then t.turn.filter (fun q => q.1 != port) else t.turn) ++ [(port, n)] })

theorem Work.sendData_out (s : Sess) (x : Next) (port path : Nat) (bad : TxFault) (w : Work) : (w.sendData s x port path bad).out = w.out := by
  unfold Work.sendData
  extract_lets e lctx lc again
  split
  next k' m? w' s' made =>
  have hw : w'.out = w.out := by
    cases x with
    | again k =>
      cases made
      rfl
    | fresh m len =>
      cases hnum : m.num with
      | some i =>
        simp only [hnum] at made
        cases made
        rfl
      | none =>
        simp only [hnum] at made
        cases made
        rfl
  split
  · exact hw
  · extract_lets payload flags ext gap pkts s' put counted framed
    exact (Work.metroSync_out _).trans ((Work.frame_out _ _ _ _ _ _ _ _ _ _ _).trans hw)

theorem Work.countedSweep (c : Bool) (len : Nat) (w : Work) :
    (if c then w.bump Obj.mirBytesSent len else w).collSweep.net.sess = w.net.sess ∧
      (if c then w.bump Obj.mirBytesSent len else w).collSweep.out = w.out := by
  rw [Work.collSweep_sess, Work.collSweep_out]
  split <;> exact ⟨rfl, rfl⟩

theorem opExbDataTx_sends {x : Next} {port path : Nat} (bad : TxFault) (sess : w.sess? n = some p)
    (may : w.sendable p = some (x, port, path)) (turn : w.turnOf port = some n) :
    (opExbDataTx n bad w).net.sess = ((w.turned port n).sendData p x port path bad).net.sess ∧ (opExbDataTx n bad w).out = w.out := by
  have out : ((w.turned port n).sendData p x port path bad).out = w.out := Work.sendData_out _ _ _ _ _ _
  unfold opExbDataTx
  rw [sess]
  dsimp -zeta only
  rw [may]
  dsimp -zeta only
  rw [if_neg (not_not_intro turn)]
  cases x with
  | again k => exact ⟨(Work.countedSweep _ _ _).1, (Work.countedSweep _ _ _).2.trans out⟩
  | fresh m len => exact ⟨(Work.countedSweep _ _ _).1, (Work.countedSweep _ _ _).2.trans out⟩

theorem opExbRnrExpire_ends {msg t0 e : Nat} {m : TxMsg} (found : w.msgOfPkt n msg = some m) (hold : m.hold = some (t0, e)) (due : t0 ≤ w.time) :
    ∃ f, opExbRnrExpire n msg w = (w.mapMsg n msg (fun (m : TxMsg) => { m with hold := none })).mapSess n f := by
  unfold opExbRnrExpire
  rw [found]
  dsimp only
  rw [hold]
  dsimp only
  rw [if_pos due]
  exact ⟨_, rfl⟩

theorem opExbRateIncrease_starts (sess : w.sess? n = some p) (st : w.peerSt n = 3) {t : Nat} (inc : w.get (Obj.incUs (w.portCls p.home)) = t)
    (due : t * 1000 ≤ w.since p.incAt) :
    ∃ q : Sess, q.n = n ∧ q.incAt = w.time ∧ q.incDec = false ∧ q.incCe = false ∧ opExbRateIncrease n w = w.putSess q := by
  have key : p.n = n := Dev.sess?_n sess
  unfold opExbRateIncrease
  rw [sess]
  dsimp only
  rw [inc, if_neg (not_or.mpr ⟨not_not_intro st, Nat.not_lt.mpr due⟩)]
  refine ⟨_, ?_, ?_, ?_, ?_, rfl⟩
  · dsimp only
    split <;> exact key
  all_goals rfl

theorem opExbRtoExpire_loses {psn : Nat} {k : TxPkt} (sess : w.sess? n = some p) (st : w.peerSt n = 3)
    (found : p.pkts.find? (fun k => k.psn == psn && !k.sacked && !k.lost && !k.heldBack) = some k) (due : w.rtoNs p ≤ w.since k.last) :
    opExbRtoExpire n psn w = w.putSess { p with
      k := p.k + 1, pkts := p.pkts.map (fun (q : TxPkt) => if q.psn = psn then { q with lost := true } else q) } := by
  unfold opExbRtoExpire
  rw [sess]
  dsimp only
  rw [found]
  exact if_pos ⟨st, due⟩

theorem opExbProbeIdleExpire_probes (sess : w.sess? n = some p) (st : w.peerSt n = 3) (first : p.probe = none) {t : Nat}
    (idle : w.get (Obj.probeIdleUs (w.portCls p.home)) = t) (due : t * 1000 ≤ w.since p.lastRx) :
    opExbProbeIdleExpire n w = w.sendProbe n := by
  unfold opExbProbeIdleExpire
  rw [sess]
  dsimp only
  rw [if_neg (not_not_intro st), first]
  dsimp only
  rw [idle, if_pos due]

theorem opExbLossTimeout_ends {t0 t : Nat} (sess : w.sess? n = some p) (st : w.peerSt n = 3) (since : p.outSince = some t0)
    (out : p.outstanding = true) (loss : w.get (Obj.lossUs (w.portCls p.home)) = t) (due : t * 1000 ≤ w.since (max p.lastProg t0)) :
    opExbLossTimeout n w = w.sessGone n 4 1 := by
  unfold opExbLossTimeout
  rw [sess]
  dsimp only
  rw [since]
  dsimp only
  rw [loss, if_pos ⟨st, out, due⟩]

theorem opExbOpenResend_sends {l r : Nat} (sess : w.sess? n = some p) (st : w.peerSt n = 2) (opener : p.opener = true)
    (loss : w.get (Obj.lossUs (w.portCls p.home)) = l) (early : w.since p.openAt < l * 1000) (rto : w.get (Obj.rtoUs (w.portCls p.home)) = r)
    (due : r * 1000 ≤ w.since p.openLast) : opExbOpenResend n w = (w.putSess { p with openLast := w.time }).sendOpen p := by
  unfold opExbOpenResend
  rw [sess]
  dsimp only
  rw [loss, if_pos early, rto, if_pos ⟨st, opener, due⟩]

theorem opExbAckDelayExpire_acks {t0 : Nat} (sess : w.sess? n = some p) (since : p.ackDue = some t0)
    (due : w.get (Obj.ackDelayNs (w.portCls p.home)) ≤ w.since t0) : opExbAckDelayExpire n w = w.ackNow n false .none := by
  unfold opExbAckDelayExpire
  rw [sess]
  dsimp only
  rw [since]
  exact if_pos due

theorem opExbRejectRetry_opens {t0 : Nat} (rejected : w.net.rejectedAt.find? (fun q => q.1 == n) = some (n, t0)) (st : w.peerSt n = 5)
    (why : w.peerWhy n = 10 ∨ w.peerWhy n = 11 ∨ w.peerWhy n = 13) {r : Nat} (retry : w.get Obj.openRetryMs = r)
    (due : r * 1000000 ≤ w.since t0) : opExbRejectRetry n w = w.tryOpen n := by
  unfold opExbRejectRetry
  dsimp only
  rw [rejected]
  dsimp only
  rw [retry, if_pos ⟨st, why, due⟩]

end

/-- A message whose hold ended holds no more. -/
theorem Work.mapMsg_found {n num : Nat} {f : TxMsg → TxMsg} {m : TxMsg} {w : Work} (keeps : ∀ m, (f m).n = m.n ∧ (f m).num = m.num)
    (found : w.msgOfPkt n num = some m) : (w.mapMsg n num f).msgOfPkt n num = some (f m) := by
  show (w.net.msgs.map (fun m => if m.n = n ∧ m.num = some num then f m else m)).find? (fun m => m.n == n && m.num == some num) = _
  have h : w.net.msgs.find? (fun m => m.n == n && m.num == some num) = some m := found
  generalize w.net.msgs = l at h ⊢
  induction l with
  | nil => cases h
  | cons r rs ih =>
    by_cases hr : r.n = n ∧ r.num = some num
    · rw [List.find?_cons_of_pos (by simp [hr])] at h
      cases h
      rw [List.map_cons, if_pos hr, List.find?_cons_of_pos (by simp [(keeps m).1, (keeps m).2, hr])]
    · rw [List.find?_cons_of_neg (by simpa using hr)] at h
      rw [List.map_cons, if_neg hr, List.find?_cons_of_neg (by simpa using hr)]
      exact ih h

theorem any_of_eq_some {α : Type} {o : Option α} {q : α} {f : α → Bool} (h : o = some q) (hf : f q = true) : o.any f = true := by
  rw [h]
  exact hf

/-- Settles O36: what a session sends, and its timers. -/
theorem sessionsSend : Obligations.SessionsSend := by
  unfold Obligations.SessionsSend
  refine ⟨fun n port path bad p s sess turn => ⟨fun m len may known mine => ?_, fun k may known => ?_⟩, fun n t0 p s sess since due => ?_,
    fun n msg t0 e m s found hold due => ?_, fun n p s sess st due => ?_, fun n psn p k s sess st found due => ?_,
    fun n p s sess st first idle => ?_, fun n t0 p s sess st since out due sound => ?_, fun n p s sess st opener early due => ?_,
    fun n t0 home s entry rejected st why due open_ valid ctx rank pick => ?_⟩
  · have turn' := (s.alike_work.turnOf port).trans turn
    have may' := (s.alike_work.sendable p).trans may
    obtain ⟨sent, out⟩ := opExbDataTx_sends (w := s.work) bad sess may' turn'
    obtain ⟨q, hq, psn⟩ := Work.sendData_fresh (w := s.work.turned port n) m len port path bad sess known mine
    refine ⟨_, exec_quiet (i := .exbDataTx n bad) out, s.sameMem_leave _, ?_⟩
    exact any_of_eq_some ((Dev.sess?_congr sent n).trans hq) (beq_iff_eq.mpr psn)
  · have turn' := (s.alike_work.turnOf port).trans turn
    have may' := (s.alike_work.sendable p).trans may
    obtain ⟨sent, out⟩ := opExbDataTx_sends (w := s.work) bad sess may' turn'
    obtain ⟨q, hq, psn, cleared⟩ := Work.sendData_again (w := s.work.turned port n) k port path bad sess known
    refine ⟨_, exec_quiet (i := .exbDataTx n bad) out, s.sameMem_leave _, ?_⟩
    refine any_of_eq_some ((Dev.sess?_congr sent n).trans hq) ?_
    rw [Bool.and_eq_true]
    refine ⟨beq_iff_eq.mpr psn, List.all_eq_true.mpr (fun u hu => ?_)⟩
    rcases cleared u hu with other | kept
    · simp [other]
    · simp [kept]
  · have e := opExbAckDelayExpire_acks (w := s.work) sess since due
    refine ⟨_, exec_leave (i := .exbAckDelayExpire n) e (Work.ackNow_out _ _ _ _), s.sameMem_leave _, ?_⟩
    exact any_of_eq_some (Work.ackNow_sess? false .none sess) rfl
  · obtain ⟨f, e⟩ := opExbRnrExpire_ends (w := s.work) found hold due
    have kept : ∀ j, ((s.work.mapMsg n msg (fun (m : TxMsg) => { m with hold := none })).mapSess n f).get j = s.get j := fun j => by
      unfold Work.mapSess
      split
      · exact Work.blobPut_get _ _ _ _ _ _ _
      · rfl
    have msgs : ((s.work.mapMsg n msg (fun (m : TxMsg) => { m with hold := none })).mapSess n f).msgOfPkt n msg =
        some { m with hold := none } := by
      refine Eq.trans ?_ (Work.mapMsg_found (w := s.work) (f := fun (m : TxMsg) => { m with hold := none }) (fun _ => ⟨rfl, rfl⟩) found)
      unfold Work.mapSess
      split <;> rfl
    refine ⟨_, exec_leave (i := .exbRnrExpire n msg) e (Work.mapSess_out _ _ _), s.sameMem_leave _, fun j _ => kept j, ?_⟩
    exact any_of_eq_some msgs rfl
  · have st' := (s.alike_work.counted.peerSt n).trans st
    obtain ⟨q, key, at_, dec, ce, e⟩ := opExbRateIncrease_starts (w := s.work) sess st' rfl due
    refine ⟨_, exec_leave (i := .exbRateIncrease n) e rfl, s.sameMem_leave _, fun j _ => Work.blobPut_get _ _ _ _ _ _ _, ?_⟩
    refine any_of_eq_some (Work.putSess_sess? sess key) ?_
    rw [at_, dec, ce]
    simp only [Bool.not_false, Bool.and_true]
    exact beq_self_eq_true _
  · have st' := (s.alike_work.counted.peerSt n).trans st
    have key : p.n = n := Dev.sess?_n (w := s.work) sess
    have e := opExbRtoExpire_loses (w := s.work) sess st' found (Nat.le_trans (Nat.le_of_eq (s.alike_work.rtoNs p)) due)
    refine ⟨_, exec_leave (i := .exbRtoExpire n psn) e rfl, s.sameMem_leave _, fun j _ => Work.blobPut_get _ _ _ _ _ _ _, ?_⟩
    refine any_of_eq_some (Work.putSess_sess? sess key) ?_
    rw [Bool.and_eq_true]
    refine ⟨beq_self_eq_true _, List.all_eq_true.mpr (fun u hu => ?_)⟩
    obtain ⟨v, _, rfl⟩ := List.mem_map.mp hu
    split
    · simp
    · next other => simp [other]
  · have st' := (s.alike_work.counted.peerSt n).trans st
    have e := opExbProbeIdleExpire_probes (w := s.work) sess st' first rfl idle
    obtain ⟨q, hq, probe⟩ := Work.sendProbe_sess? (w := s.work) sess first
    refine ⟨_, exec_leave (i := .exbProbeIdleExpire n) e (Work.sendProbe_out _ _), s.sameMem_leave _, ?_⟩
    exact any_of_eq_some hq (beq_iff_eq.mpr probe)
  · have st' := (s.alike_work.counted.peerSt n).trans st
    refine ⟨_, exec_sound sound, ?_⟩
    rw [State.after_sess?]
    refine (congrArg (fun w : Work => w.sess? n) (opExbLossTimeout_ends (w := s.work) sess st' since out rfl due)).trans ?_
    exact Work.sessGone_sess? _ _ _ _
  · have st' := (s.alike_work.counted.peerSt n).trans st
    have key : p.n = n := Dev.sess?_n (w := s.work) sess
    have e := opExbOpenResend_sends (w := s.work) sess st' opener rfl early rfl due
    refine ⟨_, exec_leave (i := .exbOpenResend n) e (Work.sendOpen_out _ _), s.sameMem_leave _, ?_⟩
    exact any_of_eq_some ((Dev.sess?_congr (Work.sendOpen_sess _ _) n).trans (Work.putSess_sess? sess key)) (beq_self_eq_true _)
  · have h := s.alike_work.counted
    have st' := (h.peerSt n).trans st
    have why' : s.work.peerWhy n = 10 ∨ s.work.peerWhy n = 11 ∨ s.work.peerWhy n = 13 := why
    have e := opExbRejectRetry_opens (w := s.work) rejected st' why' rfl due
    have may : (s.work.net.shut || !pValid (s.work.peer n) || s.work.get (Obj.ctxState (pLctx (s.work.peer n))) != 1 ||
        decide (pRank (s.work.peer n) ≤ s.work.get (Obj.ownRank (pLctx (s.work.peer n))))) = false := by
      rw [h.peer, show s.work.net.shut = false from open_, valid]
      have active : s.work.get (Obj.ctxState (pLctx (s.peer n))) = 1 := ctx
      have lower : s.work.get (Obj.ownRank (pLctx (s.peer n))) < pRank (s.peer n) := rank
      simp [active, lower]
    obtain ⟨q, w', key, opener, opens⟩ := Work.tryOpen_opens may ((h.homePick n).trans pick)
    subst key
    refine ⟨_, exec_leave (i := .exbRejectRetry _) (e.trans opens) ?_, s.sameMem_leave _, ?_, ?_⟩
    · rw [← opens]
      exact Work.tryOpen_out _ _
    · refine (Dev.peerSt_congr (Work.frame_blob _ _ _ _ _ _ _ _ _) _).trans ?_
      exact Work.putPeerSt_peerSt _ _ entry (by decide)
    · exact any_of_eq_some (Work.opened_sess? _ _ _ _) opener


/-! ### One write to memory -/

theorem Work.engWrite_out (x a : Nat) (d : List Byte) (w : Work) : (w.engWrite x a d).out = (w.write a d).out := by
  unfold Work.engWrite
  extract_lets written
  split
  · split <;> rfl
  · rfl

/-- A mapped write leaves the work sound. -/
theorem Work.write_sound {a : Nat} {d : List Byte} {w : Work} (h : w.Sound) (m : mapped a d.length = true) : (w.write a d).Sound := by
  unfold Work.write
  split
  · exact h
  · intro x hx
    rcases List.mem_cons.mp hx with rfl | hx
    · exact m
    · exact h x hx

theorem State.work_sound (s : State) : s.work.Sound := fun _ h => by cases h

/-- After a command that made one write the bytes read back, and every other byte is as before. -/
theorem State.after_byte {s : State} {f : Work → Work} {a : Nat} {d : List Byte} (h : (f s.work).out = (s.work.write a d).out) (b : Nat) :
    (s.after f).byte b = if a ≤ b ∧ b < a + d.length then d.getD (b - a) 0#8 else s.byte b := by
  unfold State.byte
  rw [State.after_mem, h]
  unfold Work.write
  cases d with
  | nil =>
    have none : ¬ (a ≤ b ∧ b < a + ([] : List Byte).length) := fun h => absurd h.2 (by show ¬ b < a + 0; omega)
    rw [if_neg none]
    rfl
  | cons x xs => exact Memory.get_write (x :: xs) s.mem a b

/-! ### The first valid packet of a session (R337) -/

section
variable {n : Nat} {p : Sess} {w : Work}

/-- What the responder's entry into OPEN leaves of a session: all that a later packet reads of it. -/
structure Sess.Same (p q : Sess) : Prop where
  n : q.n = p.n
  home : q.home = p.home
  psn : q.psn = p.psn
  pkts : q.pkts = p.pkts
  cum : q.cum = p.cum
  ranges : q.ranges = p.ranges
  rx : q.rx = p.rx
  lastRx : q.lastRx = p.lastRx

theorem Work.rateStart_sess? (sess : w.sess? n = some p) : ∃ q, (w.rateStart n).sess? n = some q ∧ p.Same q := by
  have key : p.n = n := Dev.sess?_n sess
  unfold Work.rateStart
  exact ⟨_, Work.mapSess_sess? sess key, ⟨rfl, rfl, rfl, rfl, rfl, rfl, rfl, rfl⟩⟩

theorem Sess.sample_same (p : Sess) (ns t : Nat) : p.Same { p.sample ns with lastProg := t } := by
  unfold Sess.sample
  split <;> exact ⟨rfl, rfl, rfl, rfl, rfl, rfl, rfl, rfl⟩

theorem Sess.Same.trans {p q r : Sess} (h : p.Same q) (h' : q.Same r) : p.Same r :=
  ⟨h'.n.trans h.n, h'.home.trans h.home, h'.psn.trans h.psn, h'.pkts.trans h.pkts, h'.cum.trans h.cum, h'.ranges.trans h.ranges,
    h'.rx.trans h.rx, h'.lastRx.trans h.lastRx⟩

theorem Work.responderOpen_sess? (sess : w.sess? n = some p) : ∃ q, (w.responderOpen n).sess? n = some q ∧ p.Same q := by
  have key : p.n = n := Dev.sess?_n sess
  unfold Work.responderOpen
  rw [sess]
  dsimp only
  split
  · have same := p.sample_same (w.since p.openLast) w.time
    have stands : (w.putSess { p.sample (w.since p.openLast) with lastProg := w.time }).sess? n =
        some { p.sample (w.since p.openLast) with lastProg := w.time } := Work.putSess_sess? sess (same.n.trans key)
    refine (Work.rateStart_sess? ?_).imp (fun q h => ⟨h.1, same.trans h.2⟩)
    exact (Dev.sess?_congr (Work.putPeerSt_sess _ _ _ _) n).trans stands
  · exact ⟨p, sess, ⟨rfl, rfl, rfl, rfl, rfl, rfl, rfl, rfl⟩⟩

theorem Work.mapSess_get (m : Nat) (f : Sess → Sess) (w : Work) (j : Nat) : (w.mapSess m f).get j = w.get j := by
  unfold Work.mapSess
  split
  · exact Work.blobPut_get _ _ _ _ _ _ _
  · rfl

theorem Work.putPeerSt_get (m st why : Nat) (w : Work) {j : Nat} (h : j ≠ Obj.sessionsOpen) : (w.putPeerSt m st why).get j = w.get j :=
  (Work.put_get_other _ _ h).trans (Work.blobPut_get _ _ _ _ _ _ _)

theorem Work.responderOpen_get (w : Work) {j : Nat} (h : j ≠ Obj.sessionsOpen) : (w.responderOpen n).get j = w.get j := by
  unfold Work.responderOpen
  split
  · split
    · exact (Work.mapSess_get _ _ _ _).trans ((Work.putPeerSt_get _ _ _ _ h).trans (Work.blobPut_get _ _ _ _ _ _ _))
    · rfl
  · rfl

theorem Work.mapSess_posted (m : Nat) (f : Sess → Sess) (w : Work) : (w.mapSess m f).net.posted = w.net.posted := by
  unfold Work.mapSess
  split <;> rfl

theorem Work.responderOpen_posted (w : Work) : (w.responderOpen n).net.posted = w.net.posted := by
  unfold Work.responderOpen
  split
  · split
    · exact Work.mapSess_posted _ _ _
    · rfl
  · rfl

end

/-! ### The local context of an entry, whatever its number -/

theorem blobWrite_get_other (len : Nat) (m : List (Nat × Nat)) (n off v : Nat) {k : Nat} (h : k < blobKey n off ∨ blobKey n off + len ≤ k) :
    Store.get blobDefault (blobWrite m n off v len) k = Store.get blobDefault m k := by
  induction len generalizing m off v with
  | zero => rfl
  | succ len ih =>
    unfold blobWrite
    rw [ih _ _ _ (by unfold blobKey at *; omega), Store.get_set_other _ _ (by unfold blobKey at *; omega)]

theorem Dev.blobNat_succ (w : Dev) (c : Copy) (n off k : Nat) :
    w.blobNat c n off (k + 1) = Store.get blobDefault (w.blobs c) (blobKey n off) + 256 * w.blobNat c n (off + 1) k := rfl

theorem pLctx_add (b r : Nat) : pLctx (b + 256 * r) = b / 16 % 16 := by
  unfold pLctx bits
  rw [Nat.shiftRight_eq_div_pow]
  omega

theorem Dev.pLctx_blobNat (w : Dev) (c : Copy) (n off : Nat) {len : Nat} (some : 1 ≤ len) :
    pLctx (w.blobNat c n off len) = Store.get blobDefault (w.blobs c) (blobKey n off) / 16 % 16 := by
  cases len with
  | zero => omega
  | succ len => exact pLctx_add _ _

/-- LCTX lies in the first byte of an entry. -/
theorem Dev.lctx_eq (w : Dev) (n : Nat) : w.lctx n = Store.get blobDefault w.blob (blobKey Obj.peerTable (64 * n)) / 16 % 16 := by
  unfold Dev.lctx Dev.peer
  exact w.pLctx_blobNat .active Obj.peerTable (64 * n) (by decide)

/-- A write that leaves that byte leaves the context. -/
theorem Work.blobPut_lctx {n off v len m : Nat} (w : Work) (h : blobKey Obj.peerTable (64 * m) < blobKey n off ∨
    blobKey n off + len ≤ blobKey Obj.peerTable (64 * m)) : (w.blobPut .active n off v len).lctx m = w.lctx m := by
  refine (Dev.lctx_eq _ m).trans (Eq.trans ?_ (Dev.lctx_eq _ m).symm)
  exact congrArg (fun b => b / 16 % 16) (blobWrite_get_other len w.blob _ _ _ h)

theorem Work.putRtt_lctx (n v : Nat) (w : Work) : (w.blobPut .active Obj.peerRtt (4 * n) v 4).lctx n = w.lctx n :=
  w.blobPut_lctx (by unfold blobKey Obj.peerTable Obj.peerRtt; omega)

theorem Work.countOpen_lctx (w : Work) (n : Nat) : w.countOpen.lctx n = w.lctx n :=
  Dev.lctx_congr (w := w.toDev) (w' := w.countOpen.toDev) rfl n

theorem Work.putPeerSt_lctx (n st why : Nat) (w : Work) : (w.putPeerSt n st why).lctx n = w.lctx n :=
  (Work.countOpen_lctx _ n).trans (w.blobPut_lctx (by unfold blobKey Obj.peerTable Obj.peerState; omega))

theorem Work.setNet_lctx (f : NetState → NetState) (w : Work) (n : Nat) : (w.setNet f).lctx n = w.lctx n :=
  Dev.lctx_congr (w := w.toDev) (w' := (w.setNet f).toDev) rfl n

theorem Work.putSess_lctx {s : Sess} {n : Nat} (key : s.n = n) (w : Work) : (w.putSess s).lctx n = w.lctx n := by
  subst key
  exact (Work.putRtt_lctx _ _ _).trans (Work.setNet_lctx _ w s.n)

theorem Work.mapSess_lctx (n : Nat) {f : Sess → Sess} (keeps : ∀ p : Sess, (f p).n = p.n) (w : Work) :
    (w.mapSess n f).lctx n = w.lctx n := by
  unfold Work.mapSess
  split
  · next p sess => exact Work.putSess_lctx ((keeps p).trans (Dev.sess?_n sess)) w
  · rfl


theorem Work.rateStart_lctx (n : Nat) (w : Work) : (w.rateStart n).lctx n = w.lctx n := by
  unfold Work.rateStart
  refine Work.mapSess_lctx n ?_ w
  exact fun _ => rfl

theorem Work.responderOpen_cases (n : Nat) (w : Work) : w.responderOpen n = w ∨
    ∃ p : Sess, p.n = n ∧ w.responderOpen n = ((w.putSess p).putPeerSt n 3 (w.peerWhy n)).rateStart n := by
  unfold Work.responderOpen
  split
  · next p sess =>
    split
    · exact .inr ⟨_, (p.sample_same (w.since p.openLast) w.time).n.trans (Dev.sess?_n sess), rfl⟩
    · exact .inl rfl
  · exact .inl rfl

theorem Work.responderOpen_lctx (n : Nat) (w : Work) : (w.responderOpen n).lctx n = w.lctx n := by
  obtain e | ⟨p, key, e⟩ := w.responderOpen_cases n
  · rw [e]
  · rw [e, Work.rateStart_lctx, Work.putPeerSt_lctx, Work.putSess_lctx key]

theorem Work.arrival_lctx (n psn : Nat) (ce : Bool) (w : Work) : (w.arrival n psn ce).lctx n = w.lctx n := by
  unfold Work.arrival
  refine Work.mapSess_lctx n ?_ w
  exact fun _ => rfl

/-! ### A packet that a session hears (R337) -/

/-- The session and what stands around it as the packet's own rule meets them. -/
def Work.met (f : Rx) (p : Sess) (w : Work) : Work := (w.heard f p).responderOpen p.n

section
variable {f : Rx} {ty : Nat} {p : Sess} {w : Work}

theorem Work.met_sess? (h : w.hears f ty p) :
    ∃ q, (w.met f p).sess? p.n = some q ∧ Sess.Same { p with lastRx := w.time } q := Work.responderOpen_sess? (Work.heard_sess? h)

theorem Work.met_get (p : Sess) {j : Nat} (h : j ∉ rxObjs f) (h' : j ≠ Obj.sessionsOpen) : (w.met f p).get j = w.get j :=
  (Work.responderOpen_get _ h').trans (Work.heard_get p h)

theorem Work.met_lctx (p : Sess) : (w.met f p).lctx p.n = w.lctx p.n :=
  (Work.responderOpen_lctx p.n _).trans ((Work.putSess_lctx rfl (w.rxCounted f)).trans ((w.counted_rxCounted f).lctx p.n))

theorem Work.met_posted (p : Sess) : (w.met f p).net.posted = w.net.posted :=
  (Work.responderOpen_posted _).trans (congrArg NetState.posted (w.rxCounted_net f) : (w.rxCounted f).net.posted = _)

theorem opExbProbeRx_hears (h : w.hears f 6 p) {q : Sess} (sess : (w.met f p).sess? p.n = some q) :
    opExbProbeRx f w = (w.met f p).sendCtl q 7 0 (f.ext % 2 ^ 64 * 2 ^ 64 + (w.met f p).time % 2 ^ 64) 16 f.reply := by
  refine (Work.rxPath_hears _ h (by decide) (by decide) (by decide)).trans ?_
  rw [if_neg (by decide), show ((w.heard f p).responderOpen p.n).sess? p.n = some q from sess]
  rfl

theorem opExbProbeReplyRx_hears (h : w.hears f 7 p) :
    ∃ q : Sess, q.lastRx = w.time ∧ q.probe = none ∧ q.n = p.n ∧ opExbProbeReplyRx f w = (w.met f p).putSess q := by
  obtain ⟨q, sess, same⟩ := Work.met_sess? h
  have marked : ∀ (r : Sess) (ns t : Nat), ((r.sample ns).progress t |>.mark t).lastRx = r.lastRx ∧
      ((r.sample ns).progress t |>.mark t).probe = r.probe ∧ ((r.sample ns).progress t |>.mark t).n = r.n := by
    intro r ns t
    unfold Sess.sample
    split <;> exact ⟨rfl, rfl, rfl⟩
  obtain ⟨rx, probe, key⟩ := marked { q with probe := none } ((w.met f p).since (bits f.ext 64 64)) (w.met f p).time
  refine ⟨_, rx.trans same.lastRx, probe, key.trans same.n, ?_⟩
  refine (Work.rxPath_hears _ h (by decide) (by decide) (by decide)).trans ?_
  exact Work.mapSess_eq sess

end


/-! ### Acknowledgements that arrive (R342) -/

@[simp] theorem Work.deliverAll_sess (n : Nat) (w : Work) : (w.deliverAll n).net.sess = w.net.sess := by
  unfold Work.deliverAll
  exact foldl_sess _ (fun w m => w.delivered_sess m) _ _

theorem Sess.Same.una {p q : Sess} (h : p.Same q) : q.una = p.una := by
  unfold Sess.una
  rw [h.pkts, h.psn]

theorem Sess.Same.ackPsn {p q : Sess} (h : p.Same q) (psn : Nat) : q.ackPsn psn = p.ackPsn psn := by
  unfold Sess.ackPsn
  rw [h.una]

theorem Sess.Same.ackRangesOf {p q : Sess} (h : p.Same q) (ext : Nat) : q.ackRangesOf ext = p.ackRangesOf ext := by
  unfold Sess.ackRangesOf
  simp only [h.ackPsn]

/-- Every packet that entry n still holds has a PSN from c on. -/
def Dev.HoldsFrom (w : Dev) (n c : Nat) : Prop := ∀ q, w.sess? n = some q → ∀ k ∈ q.pkts, c ≤ k.psn

section
variable {n c : Nat} {w : Work}

theorem Work.holdsFrom_congr {w w' : Work} (h : w'.net.sess = w.net.sess) (holds : w.HoldsFrom n c) : w'.HoldsFrom n c :=
  fun q sess => holds q ((Dev.sess?_congr h n).symm.trans sess)

theorem Work.putSess_holdsFrom {p s : Sess} (sess : w.sess? n = some p) (key : s.n = n) (from_ : ∀ k ∈ s.pkts, c ≤ k.psn) :
    (w.putSess s).HoldsFrom n c := by
  intro q found
  rw [Work.putSess_sess? sess key] at found
  cases found
  exact from_

theorem Work.mapSess_holdsFrom {f : Sess → Sess} (keeps : ∀ p : Sess, (f p).n = p.n ∧ ∀ k ∈ (f p).pkts, ∃ k' ∈ p.pkts, k'.psn = k.psn)
    (holds : w.HoldsFrom n c) : (w.mapSess n f).HoldsFrom n c := by
  cases sess : w.sess? n with
  | none =>
    have e : w.mapSess n f = w := by
      unfold Work.mapSess
      rw [sess]
    rw [e]
    exact holds
  | some p =>
    obtain ⟨key, psns⟩ := keeps p
    rw [Work.mapSess_eq sess]
    refine Work.putSess_holdsFrom sess (key.trans (Dev.sess?_n sess)) (fun k hk => ?_)
    obtain ⟨k', hk', e⟩ := psns k hk
    exact Nat.le_trans (holds p sess k' hk') (Nat.le_of_eq e)

theorem Work.rateAck_holdsFrom (ce rx : Nat) (holds : w.HoldsFrom n c) : (w.rateAck n ce rx).HoldsFrom n c := by
  unfold Work.rateAck
  split
  · exact holds
  · refine Work.mapSess_holdsFrom (fun p => ?_) holds
    dsimp only
    split <;> exact ⟨rfl, fun k hk => ⟨k, hk, rfl⟩⟩

theorem Work.rnrHold_holdsFrom (echo : Nat) (holds : w.HoldsFrom n c) : (w.rnrHold n echo).HoldsFrom n c := by
  unfold Work.rnrHold
  split
  · exact holds
  · dsimp only
    split
    · exact holds
    · refine Work.mapSess_holdsFrom (fun p => ⟨rfl, fun k hk => ?_⟩) (Work.holdsFrom_congr rfl holds)
      obtain ⟨k', hk', e⟩ := List.mem_map.mp hk
      refine ⟨k', hk', ?_⟩
      rw [← e]
      split <;> rfl

theorem Work.ackTail_holdsFrom (f : Rx) (holds : w.HoldsFrom n c) :
    (((if bitOf f.hdr 180 then w.rnrHold n (bits f.ext 320 32) else w).metroSync.deliverAll n).collSweep).HoldsFrom n c := by
  refine Work.holdsFrom_congr (w := if bitOf f.hdr 180 then w.rnrHold n (bits f.ext 320 32) else w) ?_ ?_
  · rw [Work.collSweep_sess, Work.deliverAll_sess, Work.metroSync_sess]
  · split
    · exact Work.rnrHold_holdsFrom _ holds
    · exact holds

theorem Sess.sample_n (p : Sess) (ns : Nat) : (p.sample ns).n = p.n := (p.sample_same ns 0).n

theorem Sess.mark_n (p : Sess) (t : Nat) : (p.mark t).n = p.n := rfl

theorem Sess.mark_pkts (p : Sess) (t : Nat) : (p.mark t).pkts = p.pkts := rfl

/-- An ACK takes what its cumulative part acknowledges from the packets held. -/
theorem Work.rxAck_holdsFrom {f : Rx} {p : Sess} (sess : w.sess? n = some p) (ack : p.ackPsn (bits f.ext 352 32) = c) (sent : c ≤ p.psn)
    (none_ : p.ackRangesOf f.ext = []) : (w.rxAck f n).HoldsFrom n c := by
  have key : p.n = n := Dev.sess?_n sess
  unfold Work.rxAck
  rw [sess]
  dsimp -zeta only
  extract_lets cum rs hit fresh covered reorder sampled pkts acked moved acked' w1 w2 w3
  have hcum : cum = c := ack
  have hrs : rs = [] := none_
  clear_value cum rs
  subst hcum hrs
  rw [if_neg (fun h => h.elim (fun h => absurd h (Nat.not_lt.mpr sent)) (fun h => by cases h))]
  have n1 : sampled.n = n := by
    unfold sampled
    generalize List.find? _ p.pkts = echoed
    cases echoed with
    | some k => exact (Sess.sample_n _ _).trans key
    | none => exact key
  clear_value sampled
  have n2 : acked'.n = n := by
    unfold acked'
    split <;> exact n1
  have pk : acked'.pkts = pkts := by
    unfold acked'
    split <;> rfl
  clear_value acked'
  have from_ : ∀ k ∈ pkts, cum ≤ k.psn := by
    clear_value covered
    intro k hk
    obtain ⟨k', hk', e⟩ := List.mem_map.mp hk
    have low : cum ≤ k'.psn := by
      have := (List.mem_filter.mp hk').2
      simpa using this
    have same : k.psn = k'.psn := by
      rw [← e]
      split
      · rfl
      · split
        · split <;> rfl
        · rfl
    omega
  have h1 : w1.HoldsFrom n cum := by
    refine Work.putSess_holdsFrom sess ((acked'.mark_n w.time).trans n2) ?_
    rw [Sess.mark_pkts, pk]
    exact from_
  have h2 : w2.HoldsFrom n cum := Work.holdsFrom_congr (w := w1) (foldl_sess _ (by intro _ _; rfl) fresh w1) h1
  exact Work.ackTail_holdsFrom f (Work.rateAck_holdsFrom _ _ h2)

end


/-! ### DATA (R341) -/

theorem dupPkts_not_frame {p x : Nat} (ctx : x < 16) : Obj.dupPkts x ∉ frameObjs p := by
  have log : Obj.dupPkts x ∉ logObjs := not_mem_logObjs (.inr (by unfold Obj.dupPkts; omega)) (by unfold Obj.dupPkts; omega)
  simp only [frameObjs, List.mem_cons, not_or]
  refine ⟨?_, ?_, ?_, log⟩
  · unfold Obj.dupPkts Obj.txFrames
    omega
  · unfold Obj.dupPkts Obj.txUnderrun
    omega
  · unfold Obj.dupPkts Obj.xqParityCount
    omega

theorem Work.ackNow_get {n j : Nat} {p : Sess} {w : Work} (rnr : Bool) (bad : TxFault) (sess : w.sess? n = some p) (h : j ∉ frameObjs p.home) :
    (w.ackNow n rnr bad).get j = w.get j := by
  unfold Work.ackNow
  rw [sess]
  exact (Work.blobPut_get _ _ _ _ _ _ _).trans (Work.frame_get _ _ _ _ _ _ _ _ _ _ h)

section
variable {f : Rx} {n : Nat} {p : Sess} {w : Work}

theorem Work.arrival_sess? (psn : Nat) (ce : Bool) (sess : w.sess? n = some p) :
    ∃ q, (w.arrival n psn ce).sess? n = some q := by
  have key : p.n = n := Dev.sess?_n sess
  unfold Work.arrival
  exact ⟨_, Work.mapSess_sess? sess key⟩

/- In the two lemmas below `unwrap` is held abstract, so that the kernel does not evaluate its arithmetic on the packet's bits. -/

/-- A packet that was received before only counts and is acknowledged. -/
theorem Work.rxData_known (sess : w.sess? n = some p) (known : p.unwrap (bits f.ext 160 32) = none) :
    w.rxData f n = ((w.arrival n (bits f.ext 160 32) f.ce).bump (Obj.dupPkts (w.lctx n)) 1).ackNow n false f.reply := by
  unfold Work.rxData
  obtain ⟨unwrap, e⟩ : ∃ u, u = Sess.unwrap := ⟨_, rfl⟩
  rw [← e] at known ⊢
  rw [sess]
  dsimp only
  rw [known]

theorem Work.rxData_known_dupPkts (sess : w.sess? n = some p) (known : p.unwrap (bits f.ext 160 32) = none) :
    (w.rxData f n).get (Obj.dupPkts (w.lctx n)) = min (w.get (Obj.dupPkts (w.lctx n)) + 1) (maxU 64) := by
  obtain ⟨q, sess'⟩ := Work.arrival_sess? (bits f.ext 160 32) f.ce sess
  have ctx : w.lctx n < 16 := pLctx_lt _
  rw [Work.rxData_known sess known, Work.ackNow_get (p := q) (w := (w.arrival n (bits f.ext 160 32) f.ce).bump (Obj.dupPkts (w.lctx n)) 1) _ _ sess' (dupPkts_not_frame ctx), Work.bump_get_same]
  exact congrArg (fun v => min (v + 1) (maxU 64)) (Work.mapSess_get _ _ _ _)

theorem Work.placeData_out {m : RxMsg} {r : Posted} (into : m.into = some r) (off : Nat) (d : List Byte) :
    (w.placeData n m off d).out = (w.write (r.addr + off) d).out := by
  unfold Work.placeData
  rw [into]
  extract_lets m' w' whole w''
  have out : w''.out = (w.write (r.addr + off) d).out := (Work.mapSess_out _ _ _).trans (Work.engWrite_out _ _ _ _)
  split
  · exact out
  · exact (Work.chunkLanded_out _ _).trans out

theorem Work.write_out_congr {w w' : Work} (h : w'.out = w.out) (a : Nat) (d : List Byte) : (w'.write a d).out = (w.write a d).out := by
  unfold Work.write
  split
  · exact h
  · exact congrArg (List.cons _) h

/-- A new packet of a message whose receive is posted lands at its offset there. -/
theorem Work.acceptData_out {a : Nat} {m : RxMsg} {r : Posted} (into : m.into = some r) (off : Nat) (d : List Byte) (bad : TxFault)
    (sess : w.sess? n = some p) : (w.acceptData n a m off d bad).out = (w.write (r.addr + off) d).out := by
  unfold Work.acceptData
  rw [sess]
  refine (Work.dataAck_out _ _ _ _).trans ((Work.placeData_out into off d).trans (Work.write_out_congr ?_ _ _))
  rfl

theorem Work.rxData_lands {r : Posted} {a off : Nat} (sess : w.sess? n = some p)
    (new : p.unwrap (bits f.ext 160 32) = some a)
    (miss : p.ranges.any (fun r => decide (r.1 ≤ a) && decide (a ≤ r.2)) = false) (window : a ≤ p.cum + 65535) (hoff : off = bits f.ext 32 32)
    (fits : off + f.data.length ≤ bits f.ext 0 32) (ranges : (rangePut a p.ranges).length ≤ 16)
    (first : p.rx.find? (fun m => m.num == bits f.ext 128 32) = none)
    (posted : w.net.posted.find? (fun r => r.n == n && r.key == bits f.ext 64 64) = some r) (len : r.len = bits f.ext 0 32) :
    (w.rxData f n).out = (w.write (r.addr + off) f.data).out := by
  obtain ⟨q, sess'⟩ := Work.arrival_sess? (bits f.ext 160 32) f.ce sess
  have posted' : (w.arrival n (bits f.ext 160 32) f.ce).net.posted.find? (fun r => r.n == n && r.key == bits f.ext 64 64) = some r :=
    (congrArg (List.find? _) (Work.mapSess_posted _ _ _)).trans posted
  have arrives : (w.arrival n (bits f.ext 160 32) f.ce).out = w.out := Work.mapSess_out _ _ _
  unfold Work.rxData
  obtain ⟨unwrap, e⟩ : ∃ u, u = Sess.unwrap := ⟨_, rfl⟩
  rw [← e] at new ⊢
  rw [sess]
  dsimp only
  generalize w.arrival n (bits f.ext 160 32) f.ce = w' at sess' posted' arrives ⊢
  rw [new]
  dsimp only
  rw [miss, if_neg (by decide), if_neg (by omega), if_neg (by omega), first]
  dsimp only
  rw [posted']
  dsimp only
  rw [if_neg (not_not_intro len), decide_eq_false (by omega), if_neg (by decide), ← hoff]
  refine (Work.acceptData_out (r := r) (p := q) rfl off f.data f.reply ?_).trans (Work.write_out_congr ?_ _ _)
  · exact sess'
  · exact arrives

end

/-- What a session has received is what the packet's rule meets. -/
theorem Sess.Same.unwrap {p q : Sess} (h : p.Same q) (psn : Nat) : q.unwrap psn = p.unwrap psn := by
  unfold Sess.unwrap
  rw [h.cum]

theorem Work.met_out {f : Rx} {p : Sess} {w : Work} : (w.met f p).out = w.out := by
  have counted : (w.heard f p).out = w.out := by
    obtain ⟨o, e⟩ := w.rxCounted_rest f
    show (w.rxCounted f).out = w.out
    rw [e]
  obtain e | ⟨q, _, e⟩ := (w.heard f p).responderOpen_cases p.n
  · exact (congrArg Work.out e).trans counted
  · exact (congrArg Work.out e).trans ((Work.mapSess_out _ _ _).trans counted)

theorem opExbDataRx_hears {f : Rx} {p : Sess} {w : Work} (h : w.hears f 1 p) : opExbDataRx f w = (w.met f p).rxData f p.n :=
  Work.rxPath_hears (fun n w => w.rxData f n) h (by decide) (by decide) (by decide)

theorem opExbAckRx_hears {f : Rx} {p : Sess} {w : Work} (h : w.hears f 2 p) : opExbAckRx f w = (w.met f p).rxAck f p.n :=
  Work.rxPath_hears (fun n w => w.rxAck f n) h (by decide) (by decide) (by decide)


theorem opExbStaleSessionRx_stale {f : Rx} {why : Nat} {w : Work} (up : w.portUp f.port = true) (ver : hVer f.hdr = 1) (low : 1 ≤ hType f.hdr)
    (high : hType f.hdr ≤ 9) (other : hType f.hdr ≠ 3) (fits : w.rxFits f = true) (stale : w.staleWhy f = some why) :
    opExbStaleSessionRx f w = ((w.rxCounted f).bump Obj.rxStale 1).reply f.port.val f.src 8 why f.hdr := by
  unfold opExbStaleSessionRx
  rw [if_pos ⟨by rw [stale]; rfl, other⟩]
  exact Work.rxPath_stale _ up ver low high other fits stale

theorem rxStale_not_reply {p : Nat} : Obj.rxStale ∉ Obj.replySuppressed :: frameObjs p := by
  have log : Obj.rxStale ∉ logObjs := by decide
  simp only [frameObjs, List.mem_cons, not_or]
  refine ⟨by decide, ?_, ?_, by decide, log⟩
  · unfold Obj.rxStale Obj.txFrames
    omega
  · unfold Obj.rxStale Obj.txUnderrun
    omega

/-- Every packet of a session takes the same path in. -/
theorem rxWork_path {f : Rx} {i : Instr} (h : i ∈ [.exbDataRx f, .exbAckRx f, .exbOpenRx f, .exbOpenAckRx f, .exbRejectRx f, .exbProbeRx f,
    .exbProbeReplyRx f, .exbStaleRx f, .exbCloseRx f]) (w : Work) : ∃ t act, Machine.work i w = w.rxPath t f act := by
  simp only [List.mem_cons, List.not_mem_nil, or_false] at h
  rcases h with rfl | rfl | rfl | rfl | rfl | rfl | rfl | rfl | rfl
  · exact ⟨1, _, (by unfold opExbDataRx; rfl : opExbDataRx f w = _)⟩
  · exact ⟨2, _, (by unfold opExbAckRx; rfl : opExbAckRx f w = _)⟩
  · exact ⟨3, _, (by unfold opExbOpenRx; rfl : opExbOpenRx f w = _)⟩
  · exact ⟨4, _, (by unfold opExbOpenAckRx; rfl : opExbOpenAckRx f w = _)⟩
  · exact ⟨5, _, (by unfold opExbRejectRx; rfl : opExbRejectRx f w = _)⟩
  · exact ⟨6, _, (by unfold opExbProbeRx; rfl : opExbProbeRx f w = _)⟩
  · exact ⟨7, _, (by unfold opExbProbeReplyRx; rfl : opExbProbeReplyRx f w = _)⟩
  · exact ⟨8, _, (by unfold opExbStaleRx; rfl : opExbStaleRx f w = _)⟩
  · exact ⟨9, _, (by unfold opExbCloseRx; rfl : opExbCloseRx f w = _)⟩

/-- A packet that is malformed only counts. -/
theorem malformed_counts {f : Rx} {i : Instr} {s : State} (path : ∃ t act, Machine.work i s.work = s.work.rxPath t f act)
    (up : s.portUp f.port = true) (ver : hVer f.hdr ≠ 1) :
    ∃ u, exec i s = .next u ∧ s.SameMem u ∧ u.get Obj.rxMalformed = min (s.get Obj.rxMalformed + 1) (maxU 64) := by
  obtain ⟨t, act, work⟩ := path
  have e := work.trans (Work.rxPath_malformed t act (w := s.work) up ver)
  refine ⟨_, exec_leave e ?_, State.sameMem_leave _ _, ?_⟩
  · exact s.work.rxCounted_out f
  · refine (Work.bump_get_same _ _ _).trans (congrArg (fun v => min (v + 1) (maxU 64)) (s.work.rxCounted_get f ?_))
    exact not_mem_rxObjs_page f (by decide)

theorem Work.met_portUp {f : Rx} (p : Sess) (w : Work) (port : Nat) : (w.met f p).portUp port = w.portUp port := by
  unfold Dev.portUp
  rw [Work.met_get p (not_mem_rxObjs_page f (by unfold Obj.linkState; omega)) (by unfold Obj.linkState Obj.sessionsOpen; omega)]

/-- Settles O34: each packet's rule of R339 to R343 over `rxPath`. -/
theorem packetsArrive : Obligations.PacketsArrive := by
  unfold Obligations.PacketsArrive
  refine ⟨fun f why s up ver low high other fits stale => ?_, fun f i s mem up ver => ?_, fun f p s hears home up whole => ?_,
    fun f p s hears => ?_, fun f p s hears sent none_ sound => ?_, fun f p s hears home known => ?_,
    fun f p r a off s hears new miss window hoff fits ranges first posted len mem => ?_⟩
  · have e := opExbStaleSessionRx_stale (w := s.work) up ver low high other fits ((s.counted_work.staleWhy f).trans stale)
    refine ⟨_, exec_leave (i := .exbStaleSessionRx f) e ?_, s.sameMem_leave _, ?_⟩
    · exact (Work.reply_out _ _ _ _ _ _).trans (s.work.rxCounted_out f)
    · refine (Work.reply_get _ _ _ _ _ rxStale_not_reply).trans ((Work.bump_get_same _ _ _).trans ?_)
      exact congrArg (fun v => min (v + 1) (maxU 64)) (s.work.rxCounted_get f (not_mem_rxObjs_page f (by decide)))
  · exact malformed_counts (rxWork_path mem s.work) up ver
  · obtain ⟨q, sess, same⟩ := Work.met_sess? hears.work
    have e := opExbProbeRx_hears hears.work sess
    rw [whole] at e
    refine ⟨_, exec_leave (i := .exbProbeRx f) e ?_, s.sameMem_leave _, ?_, ?_⟩
    · exact (Work.sendCtl_out _ _ _ _ _ _ _).trans Work.met_out
    · rw [← show q.home = p.home from same.home] at up ⊢
      refine (Work.frame_txFrames _ _ _ _ _ _ _ _ _ ((Work.met_portUp p s.work q.home).trans up)).trans ?_
      refine congrArg (fun v => min (v + 1) (maxU 64)) (Work.met_get p (not_mem_rxObjs_page f ?_) ?_)
      · unfold Obj.txFrames
        omega
      · unfold Obj.txFrames Obj.sessionsOpen
        omega
    · have stands : ((s.work.met f p).sendCtl q 7 0 (f.ext % 2 ^ 64 * 2 ^ 64 + (s.work.met f p).time % 2 ^ 64) 16 .none).sess? p.n = some q :=
        (Dev.sess?_congr (Work.sendCtl_sess _ _ _ _ _ _ _) _).trans sess
      refine (congrArg (Option.any _) stands).trans ?_
      exact beq_iff_eq.mpr same.lastRx
  · obtain ⟨q, sess, same⟩ := Work.met_sess? hears.work
    obtain ⟨r, rx, probe, key, e⟩ := opExbProbeReplyRx_hears hears.work
    refine ⟨_, exec_leave (i := .exbProbeReplyRx f) e Work.met_out, s.sameMem_leave _, ?_⟩
    refine (congrArg (Option.any _) (Work.putSess_sess? sess key)).trans ?_
    simp [rx, probe, State.work]
  · obtain ⟨q, sess, same⟩ := Work.met_sess? hears.work
    refine ⟨_, exec_sound sound, fun r found => ?_⟩
    rw [State.after_sess?] at found
    have ack : q.ackPsn (bits f.ext 352 32) = p.ackPsn (bits f.ext 352 32) := same.ackPsn _
    have holds := Work.rxAck_holdsFrom sess ack (Nat.le_trans sent (Nat.le_of_eq same.psn.symm)) ((same.ackRangesOf _).trans none_)
    exact holds r ((congrArg (fun w : Work => w.sess? p.n) (opExbAckRx_hears hears.work)).symm.trans found)
  · obtain ⟨q, sess, same⟩ := Work.met_sess? hears.work
    have e := opExbDataRx_hears hears.work
    have known' : q.unwrap (bits f.ext 160 32) = none := (same.unwrap _).trans known
    have out : ((s.work.met f p).rxData f p.n).out = s.work.out := by
      rw [Work.rxData_known sess known', Work.ackNow_out]
      exact (Work.mapSess_out _ _ _).trans Work.met_out
    refine ⟨_, exec_leave (i := .exbDataRx f) e out, s.sameMem_leave _, ?_⟩
    have counts := Work.rxData_known_dupPkts sess known'
    have ctx : s.lctx p.n < 16 := pLctx_lt _
    rw [Work.met_lctx, s.counted_work.lctx] at counts
    generalize s.lctx p.n = x at counts ctx ⊢
    rw [Work.met_get p (not_mem_rxObjs_page f (by unfold Obj.dupPkts; omega)) (by unfold Obj.dupPkts Obj.sessionsOpen; omega)] at counts
    exact counts
  · obtain ⟨q, sess, same⟩ := Work.met_sess? hears.work
    have e := opExbDataRx_hears hears.work
    have lands : ((s.work.met f p).rxData f p.n).out = ((s.work.met f p).write (r.addr + off) f.data).out := by
      refine Work.rxData_lands sess ((same.unwrap _).trans new) ?_ ?_ hoff fits ?_ ?_ ?_ len
      · rw [same.ranges]
        exact miss
      · rw [same.cum]
        exact window
      · rw [same.ranges]
        exact ranges
      · rw [same.rx]
        exact first
      · rw [Work.met_posted]
        exact posted
    have out : (opExbDataRx f s.work).out = (s.work.write (r.addr + off) f.data).out :=
      (congrArg Work.out e).trans (lands.trans (Work.write_out_congr Work.met_out _ _))
    have sound : (opExbDataRx f s.work).Sound := by
      intro x hx
      rw [out] at hx
      exact Work.write_sound s.work_sound mem x hx
    refine ⟨_, exec_sound (i := .exbDataRx f) sound, fun k hk => ?_, fun b hb => ?_⟩
    · rw [State.after_byte (f := Machine.work (.exbDataRx f)) out, if_pos ⟨by omega, by omega⟩, Nat.add_sub_cancel_left]
    · rw [State.after_byte (f := Machine.work (.exbDataRx f)) out, if_neg (by omega)]

end Sys2Proof.Machine

namespace Sys2Proof.Machine

/-! ### The end of one command (R86) -/

section
variable {c : Cmd} {w : Work} (mem : c ∈ w.q.cmds) (alone : ∀ e ∈ w.q.cmds, e.id = c.id → e = c)
include mem alone

theorem Dev.cmd?_alone : w.cmd? c.id = some c := by
  have found : (w.q.cmds.find? (fun e => e.id == c.id)).isSome = true := List.find?_isSome.mpr ⟨c, mem, beq_self_eq_true _⟩
  obtain ⟨e, he⟩ := Option.isSome_iff_exists.mp found
  have same : e = c := alone e (List.mem_of_find?_eq_some he) (beq_iff_eq.mp (List.find?_some (p := fun e : Cmd => e.id == c.id) he))
  exact he.trans (congrArg some same)

end

/-- What happens to the command with an identity. -/
theorem Work.mapCmd_cmd? {id : Nat} {f : Cmd → Cmd} {c : Cmd} {w : Work} (keeps : ∀ c, (f c).id = c.id) (found : w.cmd? id = some c) :
    (w.mapCmd id f).cmd? id = some (f c) := by
  have key : c.id = id := beq_iff_eq.mp (List.find?_some (p := fun e : Cmd => e.id == id) found)
  have same : (fun e : Cmd => (if e.id = id then f e else e).id == id) = fun e => e.id == id := by
    funext e
    split
    · rw [keeps]
    · rfl
  unfold Work.mapCmd Work.setCmds Dev.cmd?
  rw [List.find?_map]
  show Option.map _ (w.q.cmds.find? (fun e : Cmd => (if e.id = id then f e else e).id == id)) = _
  rw [same, show w.q.cmds.find? (fun e => e.id == id) = some c from found]
  exact congrArg some (if_pos key)

/-- A command that has not ended ends with the status. -/
theorem Work.finishCmd_endOf {id st d : Nat} {c : Cmd} {w : Work} (found : w.cmd? id = some c) (going : c.done = none) :
    (w.finishCmd id st d).endOf id = some ⟨st, d, c.conv, c.r1, c.r2⟩ := by
  have keeps : ∀ c : Cmd, (if c.done.isNone then { c with done := some ⟨st, d, c.conv, c.r1, c.r2⟩ } else c : Cmd).id = c.id := by
    intro c
    split <;> rfl
  unfold Dev.endOf Work.finishCmd
  rw [Work.mapCmd_cmd? keeps found]
  dsimp only
  rw [going]
  rfl

/-! ### Counters of any number -/

/-- What was written to a BLOB reads back, wherever it lies. -/
theorem Dev.blobNat_blobWrite {w : Dev} {c : Copy} {n len off v : Nat} {m : List (Nat × Nat)} (h : w.blobs c = blobWrite m n off v len) :
    w.blobNat c n off len = v % 256 ^ len := by
  induction len generalizing m off v with
  | zero => exact (Nat.mod_one v).symm
  | succ len ih =>
    have first : Store.get blobDefault (w.blobs c) (blobKey n off) = v % 256 := by
      rw [h, blobWrite]
      exact (blobWrite_get_other _ _ _ _ _ (.inl (by unfold blobKey; omega))).trans (Store.get_set_same _ _ _)
    rw [Dev.blobNat, first, ih h, Nat.pow_succ', Nat.mod_mul]

theorem Work.evtPut_evt (x n v : Nat) (w : Work) : (w.evtPut x n v).evt x n = v % 2 ^ 64 := by
  rw [Dev.evt_of_blob_eq (w.evtPut_blob x n v), Dev.evt, Dev.blobNat_blobWrite rfl]
  omega

/-! ### STEP_MARK and the waits that last too long (R100, R103) -/

section
variable {w : Work}

theorem mem_upto {n i : Nat} : i ∈ upto n ↔ i < n := by
  unfold upto
  exact List.mem_range

theorem any_inflight_eq_false {x : Nat} (none_ : ∀ q, q < 4 → w.inflight x q = 0) : ((upto 4).any fun q => w.inflight x q != 0) = false := by
  rw [List.any_eq_false]
  intro q hq
  rw [none_ q (mem_upto.mp hq)]
  decide

theorem any_inflight_eq_true {x : Nat} (some_ : ∃ q, q < 4 ∧ w.inflight x q ≠ 0) : ((upto 4).any fun q => w.inflight x q != 0) = true := by
  obtain ⟨q, hq, busy⟩ := some_
  exact List.any_eq_true.mpr ⟨q, mem_upto.mpr hq, bne_iff_ne.mpr busy⟩

theorem Work.finishCmd_get (id st d : Nat) (w : Work) (n : Nat) : (w.finishCmd id st d).get n = w.get n := rfl

theorem Work.stepBoundary_stepNum (x step : Nat) (w : Work) : (w.stepBoundary x step).get (Obj.stepNum x) = step := by
  unfold Work.stepBoundary
  exact Work.put_get_same _ _ _

theorem opStepMark_counts {id : Nat} {c : Cmd} (control : w.control id 0x07 = some c) (alone : ∀ q, q < 4 → w.inflight c.ctx q = 0)
    (none_ : (w.mirApply c.ctx).mirrors c.ctx = false) : opStepMark id w =
      (w.stepBoundary c.ctx (if kSet c.raw then kValue c.raw else (w.get (Obj.stepNum c.ctx) + 1) % 2 ^ 64)).finishCmd id 0 0 := by
  unfold opStepMark
  rw [control]
  dsimp only
  rw [any_inflight_eq_false alone, if_neg (by decide), none_, if_neg (fun h => absurd h.1 (by decide))]

theorem opWaitTimeout_ends {x : Fin 16} {c : Cmd} {own : Nat}
    (first : w.q.cmds.find? (fun c => c.ctx == x.val && c.q == 4 && true && c.done.isNone
      && (cOpcode c.raw == 0x02 || cOpcode c.raw == 0x03)) = some c)
    (op : cOpcode c.raw = 0x02) (waits : c.released = false)
    (tmo : (if kTimeout c.raw = 0 then w.get (Obj.waitTmo x) * 1000 else kTimeout c.raw * 1000) = own) (due : own < w.since c.since) :
    opWaitTimeout x 4 w = w.finishCmd c.id 0x0215 (kEvt c.raw) := by
  unfold opWaitTimeout
  dsimp only
  rw [show w.q.cmds.find? (fun c => c.ctx == x.val && c.q == (4 : Fin 5).val && (4 : Fin 5).val == 4 && c.done.isNone
    && (cOpcode c.raw == 0x02 || cOpcode c.raw == 0x03)) = some c from first]
  dsimp only
  rw [if_pos op, tmo, if_pos ⟨waits, due⟩]

theorem opStepMarkTimeout_ends {x : Fin 16} {c : Cmd} {own : Nat}
    (first : w.q.cmds.find? (fun c => c.ctx == x.val && c.q == 4 && cOpcode c.raw == 0x07 && c.done.isNone && !c.begun) = some c)
    (others : ∃ q, q < 4 ∧ w.inflight x q ≠ 0) (tmo : w.get (Obj.waitTmo x) * 1000 = own) (due : own ≤ w.since c.start) :
    opStepMarkTimeout x w = w.finishCmd c.id 0x0215 0xFFFFFFFF := by
  unfold opStepMarkTimeout
  rw [first]
  dsimp only
  rw [tmo, if_pos ⟨any_inflight_eq_true others, due⟩]

theorem opTimerFire_counts {x : Fin 16} {n : Fin 8} {u : Timer} (first : w.q.timers.find? (fun u => u.ctx == x.val && u.i == n.val) = some u)
    (due : u.due ≤ w.time) : opTimerFire x n w = (w.setTimers (if u.period = 0 then w.q.timers.erase u
      else w.q.timers.map (fun (v : Timer) => if v = u then { v with due := v.due + v.period } else v))).evtAdd x.val u.evt 1 := by
  unfold opTimerFire
  rw [first]
  exact if_neg (Nat.not_lt.mpr due)

end

/-- Settles O16: the equation of each operation, then what its last write leaves. -/
theorem stepMarksAndTimers : Obligations.StepMarksAndTimers := by
  unfold Obligations.StepMarksAndTimers
  refine ⟨fun id c s control _ alone none_ sound => ?_, fun x c s first op waits alone due => ?_, fun x c s first alone others due => ?_,
    fun x n u s first due => ?_⟩
  · have e := opStepMark_counts (w := s.work) control alone none_
    refine ⟨_, exec_sound sound, ?_⟩
    rw [State.after_get]
    have stands : (opStepMark id s.work).get (Obj.stepNum c.ctx) = _ :=
      (congrArg (fun w : Work => w.get (Obj.stepNum c.ctx)) e).trans ((Work.finishCmd_get _ _ _ _ _).trans (Work.stepBoundary_stepNum c.ctx _ s.work))
    exact stands
  · have e := opWaitTimeout_ends (w := s.work) first op waits rfl due
    have mem := List.mem_of_find?_eq_some first
    have going : c.done = none := by
      have := List.find?_some (p := fun c : Cmd => c.ctx == x.val && c.q == 4 && true && c.done.isNone &&
        (cOpcode c.raw == 0x02 || cOpcode c.raw == 0x03)) first
      simp only [Bool.and_eq_true, Option.isNone_iff_eq_none] at this
      exact this.1.2
    exact ⟨_, exec_leave (i := .waitTimeout x 4) e rfl, Work.finishCmd_endOf (Dev.cmd?_alone mem alone) going, fun _ _ => rfl, s.sameMem_leave _⟩
  · have e := opStepMarkTimeout_ends (w := s.work) first others rfl due
    have mem := List.mem_of_find?_eq_some first
    have going : c.done = none := by
      have := List.find?_some (p := fun c : Cmd => c.ctx == x.val && c.q == 4 && cOpcode c.raw == 0x07 && c.done.isNone && !c.begun) first
      simp only [Bool.and_eq_true, Option.isNone_iff_eq_none] at this
      exact this.1.2
    exact ⟨_, exec_leave (i := .stepMarkTimeout x) e rfl, Work.finishCmd_endOf (Dev.cmd?_alone mem alone) going, fun _ _ => rfl, s.sameMem_leave _⟩
  · have e := opTimerFire_counts (w := s.work) first due
    refine ⟨_, exec_leave (i := .timerFire x n) e (Work.evtAdd_out _ _ _ _), Work.evtPut_evt _ _ _ _ |>.trans ?_, s.sameMem_leave _, fun once => ?_⟩
    · refine congrArg (fun v => (v + 1) % 2 ^ 64 % 2 ^ 64) (Dev.evt_of_blob_eq (w := s.toDev) ?_ _ _) |>.trans (Nat.mod_mod _ _)
      rfl
    · refine (congrArg QueueState.timers (congrArg Prod.snd (Work.passFills_eventState x.val _))).trans ?_
      exact if_pos once


/-! ### A write of one scalar (R496, R569) -/

theorem Work.persistIf_get (b : Bool) (n : Nat) (w : Work) (j : Nat) : (if b then w.persist n else w).get j = w.get j := by
  cases b <;> rfl

theorem Work.persistIf_out (b : Bool) (n : Nat) (w : Work) : (if b then w.persist n else w).out = w.out := by
  cases b <;> rfl

/-- A value put in force, before the rules at a write. -/
def Work.stored (wr : Writer) (r : ObjRow) (n v : Nat) (w : Work) : Work :=
  let stands := (w.clampTo wr n v (w.heldValue r n v)).put n (w.heldValue r n v)
  if r.pers then stands.persist n else stands

theorem Work.stored_get (wr : Writer) (r : ObjRow) (n v : Nat) (w : Work) : (w.stored wr r n v).get n = w.heldValue r n v :=
  (Work.persistIf_get _ _ _ _).trans (Work.put_get_same _ _ _)

theorem Work.stored_get_other {wr : Writer} {r : ObjRow} {n v j : Nat} {w : Work} (other : j ≠ n) (h : j ∉ Obj.clampCount :: logObjs) :
    (w.stored wr r n v).get j = w.get j :=
  (Work.persistIf_get _ _ _ _).trans ((Work.put_get_other _ _ other).trans (Work.clampTo_get _ _ _ _ w h))

section
variable {wr : Writer} {r : ObjRow} {n off v : Nat} {d : List Byte} {w : Work}

/-- What a write that passed the checks of R569 gives a scalar whose write is no command. -/
theorem Work.applyWrite_scalar (typ : r.typ ≠ 8) (ctx : ∀ x, objCtx n = some x → Work.ctxAction wr x n (leNat d) = none)
    (dev : objCtx n = none → Work.devAction wr n (leNat d) = none) : w.applyWrite wr r n off d = w.setScalar wr r n (leNat d) := by
  unfold Work.applyWrite
  rw [if_neg typ]
  dsimp only
  cases c : objCtx n with
  | some x =>
    dsimp only
    rw [ctx x c]
  | none =>
    dsimp only
    rw [dev c]

theorem Work.setScalar_plain (keep : r.keep = 0) (free : ∀ x : Fin 16, objCtx n = some x → w.addHeld x.val n = false) :
    w.setScalar wr r n v = if r.acc = 2 then (w.clampTo wr n v (w.heldValue r n v)).putS n (w.heldValue r n v)
      else (w.stored wr r n v).afterWrite wr n := by
  unfold Work.setScalar
  dsimp only
  rw [if_pos keep]
  cases c : objCtx n with
  | some x => exact if_neg (fun h => Bool.noConfusion ((free x c).symm.trans h))
  | none => exact if_neg (fun h => Bool.noConfusion h)

/-- The objects that the rules at a write may change besides the one that was written (R355, R447). -/
def afterObjs : List Nat := Obj.shadowMaxPermil :: Obj.ptpState :: Obj.clampCount :: logObjs

theorem Work.ptpOff_get (w : Work) {j : Nat} (h : j ∉ Obj.ptpState :: logObjs) : w.ptpOff.get j = w.get j := by
  obtain ⟨state, log⟩ := not_or.mp (mt List.mem_cons.mpr h)
  unfold Work.ptpOff Work.ptpEnter
  extract_lets old src entered
  have hentered : entered.get j = w.get j := Work.put_get_other _ _ state
  split
  · rfl
  · split
    · exact (Work.event_get _ _ _ _ _ log).trans hentered
    · split
      · exact (Work.event_get _ _ _ _ _ log).trans hentered
      · exact hentered

theorem Work.afterWrite_get (w : Work) {j : Nat} (h : j ∉ afterObjs) : (w.afterWrite wr n).get j = w.get j := by
  obtain ⟨shadow, h⟩ := not_or.mp (mt List.mem_cons.mpr h)
  obtain ⟨state, h⟩ := not_or.mp (mt List.mem_cons.mpr h)
  have log : j ∉ logObjs := fun m => h (List.mem_cons_of_mem _ m)
  unfold Work.afterWrite
  split
  · dsimp only
    split
    · exact (Work.put_get_other _ _ shadow).trans (Work.clampTo_get _ _ _ _ _ h)
    · rfl
  · split
    · exact Work.ptpOff_get w (fun m => (List.mem_cons.mp m).elim state log)
    · rfl

/-- The rules at a write leave the value that was written. -/
theorem Work.afterWrite_get_self (w : Work) : (w.afterWrite wr n).get n = w.get n := by
  unfold Work.afterWrite
  split
  · next e =>
    subst e
    dsimp only
    split
    · exact (Work.put_get_other _ _ (by decide)).trans (Work.clampTo_get _ _ _ _ _ (by decide))
    · rfl
  · split
    · next e =>
      rw [e.1]
      exact Work.ptpOff_get w (by decide)
    · rfl

theorem Work.afterAnswer_idle (mgmt : w.get Obj.mgmtCommit ≠ 1) (hok : w.get Obj.hokCommit ≠ 1) : w.afterAnswer = w := by
  unfold Work.afterAnswer Work.mgmtApply
  rw [if_neg mgmt]
  unfold Work.hokApply
  exact if_neg hok

/-- The object engine's answer to a write that it serves. -/
theorem opObjectWrite_answers (serves : w.serves wr n = true) {w' : Work} (e : (w.objWr wr n off d).2 = w') (mgmt : w'.get Obj.mgmtCommit ≠ 1)
    (hok : w'.get Obj.hokCommit ≠ 1) : opObjectWrite wr n off d w = w' := by
  unfold opObjectWrite
  rw [if_pos serves, e]
  exact Work.afterAnswer_idle mgmt hok

theorem Work.objWr_denied (served : w.rowServed n = some r) (denied : w.reaches wr (objReach n) = false) :
    (w.objWr wr n off d).2 = w.deny wr n := by
  unfold Work.objWr
  rw [served]
  dsimp only
  rw [if_pos denied]

theorem Work.objWr_sized (served : w.rowServed n = some r) (reaches : w.reaches wr (objReach n) = true) (rw_ : ¬ (r.acc = 0 ∨ r.acc = 4)) :
    (w.objWr wr n off d).2 = if r.sizeCheck off d.length ≠ 0 then w else w.applyWrite wr r n off d := by
  unfold Work.objWr
  rw [served]
  dsimp only
  rw [if_neg (by rw [reaches]; decide), if_neg rw_]
  split <;> rfl

theorem ObjRow.sizeCheck_whole {len : Nat} (typ : r.typ ≠ 8) (size : len = r.size) (start : off = 0) : r.sizeCheck off len = 0 := by
  unfold ObjRow.sizeCheck
  rw [if_neg typ, if_neg (not_not_intro size), if_neg (not_not_intro start)]

end

theorem Work.devAction_mgmtCommit (wr : Writer) (v : Nat) :
    Work.devAction wr Obj.mgmtCommit v = some (Work.one wr Obj.mgmtCommit v (Work.mgmtReq wr)) := rfl

theorem Work.devAction_hokCommit (wr : Writer) (v : Nat) :
    Work.devAction wr Obj.hokCommit v = some (Work.one wr Obj.hokCommit v (Work.hokReq wr)) := rfl

/-- A write that makes a commit of area 1 pending is a command. -/
theorem plain_not_commit {wr : Writer} {n v : Nat} (dev : objCtx n = none → Work.devAction wr n v = none) :
    n ≠ Obj.mgmtCommit ∧ n ≠ Obj.hokCommit := by
  constructor
  · rintro rfl
    cases (dev (by decide)).symm.trans (Work.devAction_mgmtCommit wr v)
  · rintro rfl
    cases (dev (by decide)).symm.trans (Work.devAction_hokCommit wr v)

/-- What the last clause's match says, taken apart. -/
theorem plain_iff {wr : Writer} {n v : Nat} {w : Dev} (plain : match objCtx n with
       | some x => (Work.ctxAction wr x n v).isNone = true ∧ w.addHeld x.val n = false
       | none => (Work.devAction wr n v).isNone = true) :
    (∀ x : Fin 16, objCtx n = some x → Work.ctxAction wr x n v = none ∧ w.addHeld x.val n = false) ∧
      (objCtx n = none → Work.devAction wr n v = none) := by
  constructor
  · intro x c
    rw [c] at plain
    exact ⟨Option.isNone_iff_eq_none.mp plain.1, plain.2⟩
  · intro c
    rw [c] at plain
    exact Option.isNone_iff_eq_none.mp plain

/-- The answer leaves both commits of area 1 alone where the write did. -/
theorem opObjectWrite_quiet {wr : Writer} {n off : Nat} {d : List Byte} {s : State} {w : Work} (serves : s.serves wr n = true)
    (e : (s.work.objWr wr n off d).2 = w) (keeps : w.get Obj.mgmtCommit = s.get Obj.mgmtCommit ∧ w.get Obj.hokCommit = s.get Obj.hokCommit)
    (mgmt : s.get Obj.mgmtCommit ≠ 1) (hok : s.get Obj.hokCommit ≠ 1) (out : w.out = s.work.out) :
    exec (.objectWrite wr n off d) s = .next (s.leave w) :=
  exec_leave (i := .objectWrite wr n off d)
    (opObjectWrite_answers (w := s.work) serves e (fun e => mgmt (keeps.1.symm.trans e)) (fun e => hok (keeps.2.symm.trans e))) out

/-- Settles O49: the checks of R569 in their order, then the value of a scalar. -/
theorem objectWrites : Obligations.ObjectWrites := by
  unfold Obligations.ObjectWrites
  intro wr n off data r s serves served mgmt hok
  refine ⟨fun denied => ?_, fun reaches ro => ?_, fun reaches a0 a4 size => ?_, fun reaches a0 a4 typ size start keep plain => ?_⟩
  · refine ⟨_, opObjectWrite_quiet serves (Work.objWr_denied (w := s.work) served denied) ⟨?_, ?_⟩ mgmt hok (Work.deny_out _ _ _),
      s.sameMem_leave _, fun j hj => Work.deny_get _ _ _ hj, Work.deny_get_count _ _ _⟩
    · exact Work.deny_get _ _ _ (by decide)
    · exact Work.deny_get _ _ _ (by decide)
  · refine ⟨_, opObjectWrite_quiet serves (congrArg Prod.snd (Work.objWr_of_readOnly (w := s.work) served reaches ro off data)) ⟨?_, ?_⟩ mgmt hok rfl,
      s.sameMem_leave _, fun j hj => ?_, Work.bump_get_same _ _ _⟩
    · exact Work.bump_get_other _ _ (by decide)
    · exact Work.bump_get_other _ _ (by decide)
    · exact Work.bump_get_other _ _ (fun e => hj (List.mem_singleton.mpr e))
  · have e := (Work.objWr_sized (w := s.work) (off := off) (d := data) served reaches (not_or.mpr ⟨a0, a4⟩)).trans (if_pos size)
    exact ⟨_, opObjectWrite_quiet serves e ⟨rfl, rfl⟩ mgmt hok rfl, s.sameMem_leave _, fun _ _ => rfl⟩
  · obtain ⟨ctx, dev⟩ := plain_iff plain
    obtain ⟨notMgmt, notHok⟩ := plain_not_commit dev
    have whole : ¬ r.sizeCheck off data.length ≠ 0 := not_not_intro (ObjRow.sizeCheck_whole typ size start)
    have e : (s.work.objWr wr n off data).2 = _ :=
      ((Work.objWr_sized (w := s.work) served reaches (not_or.mpr ⟨a0, a4⟩)).trans (if_neg whole)).trans
        ((Work.applyWrite_scalar typ (fun x c => (ctx x c).1) dev).trans (Work.setScalar_plain keep (fun x c => (ctx x c).2)))
    by_cases staged : r.acc = 2
    · rw [if_pos staged] at e
      refine ⟨_, opObjectWrite_quiet serves e ⟨?_, ?_⟩ mgmt hok (Work.clampTo_out _ _ _ _ _), s.sameMem_leave _, fun _ => ⟨?_, fun j hj => ?_⟩,
        fun other => absurd staged other⟩
      · exact Work.clampTo_get _ _ _ _ s.work (by decide)
      · exact Work.clampTo_get _ _ _ _ s.work (by decide)
      · exact (Work.putS_getS _ _ _ _).trans (if_pos rfl)
      · exact Work.clampTo_get _ _ _ _ s.work hj
    · rw [if_neg staged] at e
      have out : ((s.work.stored wr r n (leNat data)).afterWrite wr n).out = s.work.out :=
        (Work.afterWrite_out _ _ _).trans ((Work.persistIf_out _ _ _).trans (Work.clampTo_out _ _ _ _ _))
      refine ⟨_, opObjectWrite_quiet serves e ⟨?_, ?_⟩ mgmt hok out, s.sameMem_leave _, fun other => absurd other staged, fun _ => ?_⟩
      · exact (Work.afterWrite_get _ (by decide)).trans (Work.stored_get_other notMgmt.symm (by decide))
      · exact (Work.afterWrite_get _ (by decide)).trans (Work.stored_get_other notHok.symm (by decide))
      · exact (Work.afterWrite_get_self _).trans (Work.stored_get _ _ _ _ _)


/-! ### Rotation of the slices (R130, R131) -/

/-- What a rotation may change: whose slices they are, since when, and the debts. -/
structure Work.Turned (w w' : Work) : Prop where
  rest : ∃ o a b c d, w' = { w with obj := o, sched := { w.sched with sinceLc := a, lenLc := b, sinceBe := c, lenBe := d } }
  get : ∀ n, n ≠ Obj.lcOwner → n ≠ Obj.beOwner → (∀ x, n ≠ Obj.debtNs x) → w'.get n = w.get n

section
variable {w w' w'' : Work}

theorem Work.Turned.refl (w : Work) : w.Turned w := ⟨⟨_, _, _, _, _, rfl⟩, fun _ _ _ _ => rfl⟩

theorem Work.Turned.trans (h : w.Turned w') (h' : w'.Turned w'') : w.Turned w'' := by
  refine ⟨?_, fun n lc be debt => (h'.get n lc be debt).trans (h.get n lc be debt)⟩
  obtain ⟨o, a, b, c, d, rfl⟩ := h.rest
  obtain ⟨o', a', b', c', d', rfl⟩ := h'.rest
  exact ⟨o', a', b', c', d', rfl⟩

theorem Work.turned_owner (cls v : Nat) (w : Work) : w.Turned (w.put (ownerObj cls) v) := by
  refine ⟨⟨_, _, _, _, _, rfl⟩, fun n lc be _ => Work.put_get_other _ _ ?_⟩
  unfold ownerObj
  split
  · exact lc
  · exact be

theorem Work.turned_debt (c v : Nat) (w : Work) : w.Turned (w.put (Obj.debtNs c) v) :=
  ⟨⟨_, _, _, _, _, rfl⟩, fun _ _ _ debt => Work.put_get_other _ _ (debt c)⟩

theorem Work.turned_becomeOwner (cls c : Nat) (w : Work) : w.Turned (w.becomeOwner cls c) := by
  unfold Work.becomeOwner
  extract_lets debt len owned
  refine ((w.turned_owner cls c).trans (Work.turned_debt c 0 _)).trans ?_
  unfold Work.setSched
  split
  · exact ⟨⟨_, _, _, _, _, rfl⟩, fun _ _ _ _ => rfl⟩
  · exact ⟨⟨_, _, _, _, _, rfl⟩, fun _ _ _ _ => rfl⟩

theorem Work.turned_offerSlice (cls p k : Nat) (w : Work) : w.Turned (w.offerSlice cls p k) := by
  induction k generalizing p w with
  | zero => exact w.turned_owner cls _
  | succ k ih =>
    unfold Work.offerSlice
    split
    · exact w.turned_owner cls _
    · split
      · exact (w.turned_debt _ _).trans (ih _ _)
      · exact w.turned_becomeOwner cls _

theorem Work.turned_rotateClass (cls : Nat) (w : Work) : w.Turned (w.rotateClass cls) := by
  unfold Work.rotateClass Work.handover
  extract_lets o
  split
  · split
    · exact w.turned_offerSlice cls _ _
    · exact .refl w
  · split
    · exact .refl w
    · exact w.turned_offerSlice cls _ _

theorem Work.turned_rotation (w : Work) : w.Turned w.rotation := (w.turned_rotateClass 0).trans (Work.turned_rotateClass 1 _)

theorem Work.Turned.runs (h : w.Turned w') : w'.sched.runs = w.sched.runs := by
  obtain ⟨o, a, b, c, d, rfl⟩ := h.rest
  rfl

theorem Work.Turned.health (h : w.Turned w') : w'.health = w.health := by
  obtain ⟨o, a, b, c, d, rfl⟩ := h.rest
  rfl

end

/-! ### The comparator (R437) -/

section
variable {id a : Nat} {o : Digest} {r : SampRun} {l : Tile} {w : Work}
  (ended : w.sched.runs.find? (fun r => r.id == id && r.ended) = some r) (tile : r.tiles.head? = some l) (first : r.before = [(a, o)])

/-- The runs but the one that has ended. -/
def Work.dropEnded (id : Nat) (w : Work) : Work := w.setRuns (w.sched.runs.filter (fun q => q.id != id))

theorem Work.dropEnded_runs (id : Nat) (w : Work) : ∀ q ∈ (w.dropEnded id).sched.runs, q.id ≠ id :=
  fun _ hq => bne_iff_ne.mp (List.mem_filter.mp hq).2

include ended tile first

theorem opSamplerRunDone_void (differ : o.inp ≠ r.dig.inp) : opSamplerRunDone id w = (w.dropEnded id).void := by
  unfold opSamplerRunDone
  rw [ended]
  dsimp only
  rw [tile, first]
  exact if_pos differ

theorem opSamplerRunDone_pass (inp : o.inp = r.dig.inp) (outp : o.outp = r.dig.outp) :
    opSamplerRunDone id w = (w.dropEnded id).pass [a, r.core] := by
  unfold opSamplerRunDone
  rw [ended]
  dsimp only
  rw [tile, first]
  exact (if_neg (not_not_intro inp)).trans (if_pos outp)

theorem opSamplerRunDone_referee (inp : o.inp = r.dig.inp) (outp : o.outp ≠ r.dig.outp) :
    ∃ w' : Work, opSamplerRunDone id w = w'.runNext r 2 [a, r.core] none := by
  refine ⟨(w.dropEnded id).event 0x0908 l.ctx (samplerSource r.core) (l.tid % 2 ^ 16 * 2 ^ 16 + a), ?_⟩
  unfold opSamplerRunDone
  rw [ended]
  dsimp only
  rw [tile, first]
  exact (if_neg (not_not_intro inp)).trans (if_neg outp)

end

/-- The counts of a comparison leave every other object and the runs. -/
theorem foldl_bump_coreSamples (l : List Nat) (w : Work) :
    (l.foldl (fun (w : Work) (k : Nat) => w.bump (Obj.coreSamples k) 1) w).sched = w.sched ∧
      ∀ n, (∀ k ∈ l, n ≠ Obj.coreSamples k) → (l.foldl (fun (w : Work) (k : Nat) => w.bump (Obj.coreSamples k) 1) w).get n = w.get n := by
  induction l generalizing w with
  | nil => exact ⟨rfl, fun _ _ => rfl⟩
  | cons k l ih =>
    obtain ⟨sched, get⟩ := ih (w.bump (Obj.coreSamples k) 1)
    refine ⟨sched, fun n other => (get n (fun j hj => other j (List.mem_cons_of_mem _ hj))).trans ?_⟩
    exact Work.bump_get_other _ _ (other k List.mem_cons_self)

theorem Work.pass_runs (cores : List Nat) (w : Work) : (w.pass cores).sched.runs = w.sched.runs :=
  congrArg SchedState.runs (foldl_bump_coreSamples cores (w.bump Obj.passes 1)).1

theorem Work.pass_passes {cores : List Nat} (low : ∀ k ∈ cores, k < 32) (w : Work) :
    (w.pass cores).get Obj.passes = min (w.get Obj.passes + 1) (maxU 64) :=
  ((foldl_bump_coreSamples cores (w.bump Obj.passes 1)).2 _ (fun k hk => by
    have := low k hk
    unfold Obj.passes Obj.coreSamples
    omega)).trans (Work.bump_get_same _ _ _)

theorem Work.runNext_waits (r : SampRun) (kind : Nat) (not : List Nat) (on : Option Nat) (w : Work) :
    ∃ q ∈ (w.runNext r kind not on).sched.runs, q.kind = kind ∧ q.started = false ∧ q.before = r.before ++ [(r.core, r.dig)] := by
  unfold Work.runNext Work.newId
  dsimp only
  rw [(Work.turned_rotation _).runs]
  exact ⟨_, List.mem_append_right _ (List.mem_singleton.mpr rfl), rfl, rfl, rfl⟩

theorem opSamplerLagDrop_drops {id t : Nat} {r : SampRun} {w : Work} (waits : w.sched.runs.find? (fun r => r.id == id && !r.started) = some r)
    (lag : w.get Obj.shadowLagMs = t) (late : t * 1000000 ≤ w.since r.due) :
    opSamplerLagDrop id w = ((w.dropEnded id).bump Obj.dropped 1).rotation := by
  unfold opSamplerLagDrop
  rw [waits]
  dsimp only
  rw [lag]
  exact if_neg (Nat.not_lt.mpr late)

/-! ### The time of the last known answers (R438) -/

@[simp] theorem Work.ite_katAt (c : Prop) [Decidable c] (a b : Work) :
    (if c then a else b).health.katAt = if c then a.health.katAt else b.health.katAt := by
  split <;> rfl

@[simp] theorem foldl_katAt {α : Type} (f : Work → α → Work) (h : ∀ w a, (f w a).health.katAt = w.health.katAt) (l : List α) (w : Work) :
    (l.foldl f w).health.katAt = w.health.katAt :=
  List.foldlRecOn l f (motive := fun w' => w'.health.katAt = w.health.katAt) rfl (fun w' same a _ => (h w' a).trans same)

@[simp] theorem foldl_snd_katAt {α β : Type} (f : β × Work → α → β × Work) (h : ∀ p a, (f p a).2.health.katAt = p.2.health.katAt) (l : List α)
    (p : β × Work) : (l.foldl f p).2.health.katAt = p.2.health.katAt :=
  List.foldlRecOn l f (motive := fun p' => p'.2.health.katAt = p.2.health.katAt) rfl (fun p' same a _ => (h p' a).trans same)

@[simp] theorem foldl_fst_katAt {α β : Type} (f : Work × β → α → Work × β) (h : ∀ p a, (f p a).1.health.katAt = p.1.health.katAt) (l : List α)
    (p : Work × β) : (l.foldl f p).1.health.katAt = p.1.health.katAt :=
  List.foldlRecOn l f (motive := fun p' => p'.1.health.katAt = p.1.health.katAt) rfl (fun p' same a _ => (h p' a).trans same)

@[simp] theorem forUpto_katAt (f : Nat → Work → Work) (h : ∀ i w, (f i w).health.katAt = w.health.katAt) (n : Nat) (w : Work) :
    (forUpto f n w).health.katAt = w.health.katAt := by
  induction n with
  | zero => rfl
  | succ n ih => exact (h n _).trans ih

theorem iter_katAt (f : Work → Work) (h : ∀ w, (f w).health.katAt = w.health.katAt) (n : Nat) (w : Work) : (iter f n w).health.katAt = w.health.katAt := by
  induction n generalizing w with
  | zero => rfl
  | succ n ih => exact (ih _).trans (h w)

theorem katAt_of_snd_eq {α : Type} {p : α × Work} {a : α} {w' w : Work} (e : p = (a, w')) (h : p.2.health.katAt = w.health.katAt) :
    w'.health.katAt = w.health.katAt := by
  rw [e] at h
  exact h

theorem katAt_of_fst_eq {α : Type} {p : Work × α} {a : α} {w' w : Work} (e : p = (w', a)) (h : p.1.health.katAt = w.health.katAt) :
    w'.health.katAt = w.health.katAt := by
  rw [e] at h
  exact h

@[simp] theorem Work.setSched_katAt (f : SchedState → SchedState) (w : Work) : (w.setSched f).health.katAt = w.health.katAt := by rfl

@[simp] theorem Work.mapCmd_katAt (id : Nat) (f : Cmd → Cmd) (w : Work) : (w.mapCmd id f).health.katAt = w.health.katAt := by rfl

@[simp] theorem Work.finishCmd_katAt (id : Nat) (status : Nat) (detail : Nat) (w : Work) : (Work.finishCmd id status detail w).health.katAt = w.health.katAt := by
  unfold Work.finishCmd
  simp [*]

@[simp] theorem Work.put_katAt (n : Nat) (v : Nat) (w : Work) : (Work.put n v w).health.katAt = w.health.katAt := by rfl

@[simp] theorem Work.bump_katAt (n : Nat) (k : Nat) (w : Work) : (Work.bump n k w).health.katAt = w.health.katAt := by rfl

@[simp] theorem Work.setLaunches_katAt (l : List Launch) (w : Work) : (Work.setLaunches l w).health.katAt = w.health.katAt := by rfl

@[simp] theorem Work.launchStep_katAt (cmd : Nat) (w : Work) : (Work.launchStep cmd w).health.katAt = w.health.katAt := by
  unfold Work.launchStep
  (repeat' split) <;> simp [*]

@[simp] theorem Work.mapLaunch_katAt (cmd : Nat) (f : Launch → Launch) (w : Work) : (Work.mapLaunch cmd f w).health.katAt = w.health.katAt := by rfl

@[simp] theorem Work.launchFault_katAt (cmd : Nat) (idx : Nat) (st : Nat) (detail : Nat) (w : Work) : (Work.launchFault cmd idx st detail w).health.katAt
    = w.health.katAt := by rfl

@[simp] theorem Work.setRuns_katAt (l : List SampRun) (w : Work) : (Work.setRuns l w).health.katAt = w.health.katAt := by rfl

@[simp] theorem Work.dropRun_katAt (samp : Option Nat) (w : Work) : (Work.dropRun samp w).health.katAt = w.health.katAt := by
  unfold Work.dropRun
  split <;> simp

@[simp] theorem Work.tileGone_katAt (cmd : Nat) (w : Work) : (Work.tileGone cmd w).health.katAt = w.health.katAt := by
  unfold Work.tileGone
  simp

@[simp] theorem Work.chainLost_katAt (sp : SpillChain) (w : Work) : (Work.chainLost sp w).health.katAt = w.health.katAt := by
  unfold Work.chainLost
  (repeat' split) <;> simp [*]

@[simp] theorem Work.send_katAt (m : OutMsg) (w : Work) : (Work.send m w).health.katAt = w.health.katAt := by rfl

@[simp] theorem Work.mgmtSend_katAt (m : OutMsg) (w : Work) : (Work.mgmtSend m w).health.katAt = w.health.katAt := by
  unfold Work.mgmtSend
  split <;> simp

@[simp] theorem Work.notifyTx_katAt (i : Nat) (seq : Nat) (kind : Nat) (body : List Nat) (w : Work) : (Work.notifyTx i seq kind body w).health.katAt =
    w.health.katAt := by
  unfold Work.notifyTx
  simp

@[simp] theorem Work.notifyOne_katAt (i kind : Nat) (body : List Nat) (w : Work) : (w.notifyOne i kind body).2.health.katAt = w.health.katAt := by
  rw [(Work.logs_notifyOne w i kind body).health]

@[simp] theorem Work.notifyAll_katAt (kind : Nat) (body : List Nat) (w : Work) : (w.notifyAll kind body).2.health.katAt = w.health.katAt := by
  rw [(Work.logs_notifyAll w kind body).health]

@[simp] theorem Work.rateMark_katAt (key : Nat) (w : Work) : (Work.rateMark key w).health.katAt = w.health.katAt := by rfl

@[simp] theorem Work.logRec_katAt (code ctx source detail extra : Nat) (w : Work) : (w.logRec code ctx source detail extra).2.health.katAt = w.health.katAt := by
  rw [(Work.logs_logRec w code ctx source detail extra).health]

@[simp] theorem Work.logUnit_katAt (n code ctx source detail extra : Nat) (w : Work) : (w.logUnit n code ctx source detail extra).health.katAt = w.health.katAt := by
  rw [(Work.logs_logUnit n code ctx source detail extra w).health]

@[simp] theorem Work.log1_katAt (code : Nat) (ctx : Nat) (source : Nat) (detail : Nat) (extra : Nat) (w : Work) : (Work.log1 code ctx source detail
    extra w).health.katAt = w.health.katAt := by
  unfold Work.log1
  simp

@[simp] theorem Work.event_katAt (code : Nat) (ctx : Nat) (source : Nat) (detail : Nat) (w : Work) : (Work.event code ctx source detail w).health.katAt =
    w.health.katAt := by
  unfold Work.event
  simp

@[simp] theorem Work.coreNow_katAt (k : Nat) (st : Nat) (x : Nat) (w : Work) : (Work.coreNow k st x w).health.katAt = w.health.katAt := by rfl

@[simp] theorem Work.unfenceCore_katAt (k : Nat) (w : Work) : (Work.unfenceCore k w).health.katAt = w.health.katAt := by
  unfold Work.unfenceCore
  split <;> simp

@[simp] theorem Work.rotation_katAt (w : Work) : (Work.rotation w).health.katAt = w.health.katAt :=
  congrArg HealthState.katAt w.turned_rotation.health

@[simp] theorem Work.persist_katAt (n : Nat) (w : Work) : (Work.persist n w).health.katAt = w.health.katAt := by rfl

theorem Work.setHealth_katAt {f : HealthState → HealthState} (keeps : ∀ h, (f h).katAt = h.katAt) (w : Work) :
    (w.setHealth f).health.katAt = w.health.katAt := keeps w.health

@[simp] theorem Work.comparison_katAt (v : Nat) (cores : List Nat) (w : Work) : (Work.comparison v cores w).health.katAt = w.health.katAt := by
  unfold Work.comparison
  exact foldl_katAt (fun (w : Work) k => w.bump (Obj.coreSamples k) 1) (fun _ _ => rfl) cores w

@[simp] theorem Work.healthTo_katAt (st : Nat) (reason : Nat) (w : Work) : (Work.healthTo st reason w).health.katAt = w.health.katAt := by
  unfold Work.healthTo
  extract_lets entered kept told due
  have h : due.health.katAt = w.health.katAt := Work.event_katAt _ _ _ _ kept
  split
  · rw [Work.put_katAt, Work.setHealth_katAt, h]
    exact fun _ => rfl
  · rw [Work.setHealth_katAt, h]
    exact fun _ => rfl

@[simp] theorem Work.tooFew_katAt (w : Work) : (Work.tooFew w).health.katAt = w.health.katAt := by
  unfold Work.tooFew
  split <;> simp

@[simp] theorem Work.suspectCheck_katAt (reason : Nat) (w : Work) : (Work.suspectCheck reason w).health.katAt = w.health.katAt := by
  unfold Work.suspectCheck
  split <;> simp

@[simp] theorem Work.void_katAt (w : Work) : (Work.void w).health.katAt = w.health.katAt := by rfl

@[simp] theorem Work.pass_katAt (cores : List Nat) (w : Work) : (Work.pass cores w).health.katAt = w.health.katAt := by
  unfold Work.pass
  simp

@[simp] theorem Work.putCore_katAt (c : Core) (w : Work) : (w.putCore c).health.katAt = w.health.katAt := by rfl

@[simp] theorem Work.spillMove_katAt (k : Nat) (w : Work) : (w.spillMove k).health.katAt = w.health.katAt := by
  unfold Work.spillMove
  dsimp only
  split
  · rfl
  · split
    · rfl
    · exact Work.chainLost_katAt _ _

@[simp] theorem Work.chainSave_katAt (k : Nat) (w : Work) : (w.chainSave k).health.katAt = w.health.katAt := by
  unfold Work.chainSave
  dsimp only
  split <;> rfl

@[simp] theorem Work.fenceCore_katAt (k : Nat) (w : Work) : (w.fenceCore k).health.katAt = w.health.katAt := by
  unfold Work.fenceCore
  simp

@[simp] theorem Work.fencesNow_katAt (w : Work) : w.fencesNow.health.katAt = w.health.katAt := by
  unfold Work.fencesNow
  refine forUpto_katAt _ (fun k w => ?_) _ _
  dsimp only
  split <;> simp

@[simp] theorem Work.confirm_katAt (k bin : Nat) (w : Work) : (w.confirm k bin).health.katAt = w.health.katAt := by
  unfold Work.confirm
  extract_lets st old known fenced told turned entered
  have h : turned.health.katAt = w.health.katAt := by
    unfold turned told
    rw [Work.rotation_katAt, Work.fencesNow_katAt, Work.event_katAt]
    rfl
  have h' : entered.health.katAt = w.health.katAt := by
    unfold entered
    split
    · exact (Work.healthTo_katAt _ _ _).trans h
    · split
      · exact (Work.healthTo_katAt _ _ _).trans h
      · exact h
  exact (Work.tooFew_katAt _).trans h'

theorem Work.confirmedIn_katAt (k bin : Nat) (cores : List Nat) (w : Work) : (w.confirmedIn k bin cores).health.katAt = w.health.katAt := by
  unfold Work.confirmedIn
  simp

theorem Work.unreproducedIn_katAt (k bin : Nat) (cores : List Nat) (w : Work) :
    (w.unreproducedIn k bin cores).health.katAt = w.health.katAt := by
  unfold Work.unreproducedIn
  extract_lets counted kept confirmed
  have h : kept.health.katAt = w.health.katAt := by
    unfold kept counted
    rw [Work.setHealth_katAt, Work.persist_katAt, Work.comparison_katAt, Work.bump_katAt]
    exact fun _ => rfl
  have h' : confirmed.health.katAt = w.health.katAt := by
    unfold confirmed
    split
    · exact (Work.confirm_katAt _ _ _).trans h
    · exact h
  exact (Work.suspectCheck_katAt _ _).trans h'

theorem Work.katVerdict_katAt (k v bin : Nat) (w : Work) : (w.katVerdict k v bin).health.katAt = w.health.katAt := by
  unfold Work.katVerdict
  split
  · exact Work.pass_katAt _ _
  · exact Work.void_katAt _
  · exact Work.confirmedIn_katAt _ _ _ _
  · exact Work.unreproducedIn_katAt _ _ _ _

theorem opKatPeriod_katAt {ns : Nat} {res : List (Fin 32 × Nat × Nat)} {w : Work} (ready : w.ready = true)
    (due : w.katPeriod ≤ w.since w.health.katAt) : (opKatPeriod ns res w).health.katAt = w.time := by
  unfold opKatPeriod
  rw [if_neg (not_or.mpr ⟨by rw [ready]; decide, Nat.not_lt.mpr due⟩)]
  extract_lets cores begun
  refine foldl_katAt _ (fun w r => ?_) res begun
  split
  · exact Work.katVerdict_katAt _ _ _ _
  · rfl

/-- Settles O44: the comparator's three branches, then what the known answers leave of the health record. -/
theorem samplerCompares : Obligations.SamplerCompares := by
  unfold Obligations.SamplerCompares
  refine ⟨fun id a o r l s ended tile first low low' => ⟨fun differ => ?_, fun inp outp => ?_, fun inp outp => ?_⟩, fun id r s waits late => ?_,
    fun ns res s ready due => ?_⟩
  · have e := opSamplerRunDone_void (w := s.work) ended tile first differ
    refine ⟨_, exec_leave (i := .samplerRunDone id) e rfl, s.sameMem_leave _, fun n hn => ?_, Work.bump_get_same _ _ _, s.work.dropEnded_runs id⟩
    exact Work.bump_get_other _ _ (fun e => hn (List.mem_singleton.mpr e))
  · have e := opSamplerRunDone_pass (w := s.work) ended tile first inp outp
    refine ⟨_, exec_leave (i := .samplerRunDone id) e ?_, s.sameMem_leave _, Work.pass_passes ?_ _, ?_⟩
    · exact (congrArg Work.out e).symm.trans (opSamplerRunDone_out id s.work)
    · simp [low, low']
    · intro q hq
      rw [State.leave_toDev, Work.pass_runs] at hq
      exact s.work.dropEnded_runs id q hq
  · obtain ⟨w', e⟩ := opSamplerRunDone_referee (w := s.work) ended tile first inp outp
    refine ⟨_, exec_leave (i := .samplerRunDone id) e ?_, s.sameMem_leave _, ?_⟩
    · exact (congrArg Work.out e).symm.trans (opSamplerRunDone_out id s.work)
    · obtain ⟨q, hq, kind, waits, before⟩ := w'.runNext_waits r 2 [a, r.core] none
      rw [first] at before
      exact List.any_eq_true.mpr ⟨q, hq, by simp [kind, waits, before]⟩
  · have e := opSamplerLagDrop_drops (w := s.work) waits rfl late
    refine ⟨_, exec_leave (i := .samplerLagDrop id) e ?_, s.sameMem_leave _, ?_, ?_⟩
    · exact (congrArg Work.out e).symm.trans (opSamplerLagDrop_out id s.work)
    · refine ((Work.turned_rotation _).get _ (by decide) (by decide) (fun x => ?_)).trans (Work.bump_get_same _ _ _)
      unfold Obj.dropped Obj.debtNs
      omega
    · intro q hq
      rw [State.leave_toDev, (Work.turned_rotation _).runs] at hq
      exact s.work.dropEnded_runs id q hq
  · exact ⟨_, exec_quiet (i := .katPeriod ns res) (opKatPeriod_out ns res s.work), s.sameMem_leave _, opKatPeriod_katAt (w := s.work) ready due⟩


/-! ### Corrections of values in force -/

/-- What corrections of the listed objects may change, the clamps they count and log included. -/
structure Work.Fixes (l : List Nat) (w w' : Work) : Prop where
  rest : ∃ o lg m b, w' = { w with obj := o, log := lg, sent := m, blob := b }
  get : ∀ n, n ∉ l → n ∉ Obj.clampCount :: logObjs → w'.get n = w.get n

section
variable {l : List Nat} {w w' w'' : Work}

theorem Work.Fixes.refl (l : List Nat) (w : Work) : w.Fixes l w := ⟨⟨_, _, _, _, rfl⟩, fun _ _ _ => rfl⟩

theorem Work.Fixes.trans (h : w.Fixes l w') (h' : w'.Fixes l w'') : w.Fixes l w'' := by
  refine ⟨?_, fun n hn hc => (h'.get n hn hc).trans (h.get n hn hc)⟩
  obtain ⟨o, lg, m, b, rfl⟩ := h.rest
  obtain ⟨o', lg', m', b', rfl⟩ := h'.rest
  exact ⟨o', lg', m', b', rfl⟩

theorem Work.fixes_put {n : Nat} (h : n ∈ l) (v : Nat) (w : Work) : w.Fixes l (w.put n v) :=
  ⟨⟨_, _, _, _, rfl⟩, fun _ hm _ => Work.put_get_other _ _ (fun e => hm (e ▸ h))⟩

theorem Work.Clamps.fixes (h : w.Clamps w') : w.Fixes l w' := ⟨h.rest, fun n _ hc => h.get n hc⟩

theorem Work.fixes_fixObj {n : Nat} (h : n ∈ l) (v : Nat) (w : Work) : w.Fixes l (w.fixObj n v) :=
  (w.clamps_clampTo .fw n (w.get n) v).fixes.trans (Work.fixes_put h v _)

theorem Work.fixObj_get (n v : Nat) (w : Work) : (w.fixObj n v).get n = v := Work.put_get_same _ _ _

theorem Work.Fixes.arena (h : w.Fixes l w') : w'.arena = w.arena := by
  obtain ⟨o, lg, m, b, rfl⟩ := h.rest
  rfl

theorem Work.Fixes.out (h : w.Fixes l w') : w'.out = w.out := by
  obtain ⟨o, lg, m, b, rfl⟩ := h.rest
  rfl

end

theorem groupToPend_arena (sc bl : List Nat) (w : Work) : (w.groupToPend sc bl).arena = w.arena := by
  obtain ⟨_, _, e⟩ := w.groupToPend_rest sc bl
  rw [e]

/-! ### Bindings (R405, R407) -/

/-- The segment objects of a binding. -/
def bindSegObjs (x : Nat) : List Nat := (upto 4).map (Obj.modelSegP x) ++ [Obj.addSeg x, Obj.arenaSeg x, Obj.ovfSeg x]

theorem not_mem_bindSegObjs {x n : Nat} (h : n % 0x1000 = 0 ∨ 8 ≤ n % 0x1000) : n ∉ bindSegObjs x := by
  intro hn
  simp only [bindSegObjs, upto, List.mem_append, List.mem_map, List.mem_range, List.mem_cons, List.not_mem_nil, or_false] at hn
  obtain ⟨p, hp, rfl⟩ | rfl | rfl | rfl := hn
  · unfold Obj.modelSegP at h
    omega
  · unfold Obj.addSeg at h
    omega
  · unfold Obj.arenaSeg at h
    omega
  · unfold Obj.ovfSeg at h
    omega

theorem Work.fixes_bindSegs (x : Nat) (w : Work) :
    w.Fixes (bindSegObjs x) ((bindSegObjs x).foldl (fun w n => if 63 < w.get n then w.fixObj n 0xFF else w) w) := by
  have each : ∀ l : List Nat, (∀ n ∈ l, n ∈ bindSegObjs x) → ∀ w : Work,
      w.Fixes (bindSegObjs x) (l.foldl (fun w n => if 63 < w.get n then w.fixObj n 0xFF else w) w) := by
    intro l
    induction l with
    | nil => exact fun _ w => .refl _ w
    | cons n l ih =>
      intro sub w
      have first : w.Fixes (bindSegObjs x) (if 63 < w.get n then w.fixObj n 0xFF else w) := by
        split
        · exact Work.fixes_fixObj (sub n List.mem_cons_self) _ w
        · exact .refl _ w
      exact first.trans (ih (fun m hm => sub m (List.mem_cons_of_mem _ hm)) _)
  exact each _ (fun _ h => h) w

/-- The objects that a context's number spells are not the log unit's. -/
theorem not_mem_clampObjs {n : Nat} (h : 0x200000 ≤ n) (h' : n < 0xF00000) : n ∉ Obj.clampCount :: logObjs := by
  rw [List.mem_cons, not_or]
  exact ⟨by unfold Obj.clampCount; omega, not_mem_logObjs (.inr h) h'⟩

/-- The clamps of a binding leave its table and growth event, and take MODEL_BIND from a context that is not privileged. -/
theorem Work.bindClamps_get {x : Nat} (ctx : x < 16) (w : Work) : (w.bindClamps x).get (Obj.btBase x) = w.get (Obj.btBase x) ∧
    (w.bindClamps x).get (Obj.growEvt x) = w.get (Obj.growEvt x) ∧
    (w.bindClamps x).get (Obj.modelBind x) = if w.isPriv x then w.get (Obj.modelBind x) else 0 := by
  unfold Work.bindClamps
  extract_lets fix segs fixed model
  have h1 : w.Fixes (bindSegObjs x) fixed := w.fixes_bindSegs x
  have keeps : ∀ n, n ∉ bindSegObjs x → 0x200000 ≤ n → n < 0xF00000 → fixed.get n = w.get n :=
    fun n hn low high => h1.get n hn (not_mem_clampObjs low high)
  have priv : fixed.isPriv x = w.isPriv x := by
    unfold Dev.isPriv
    rw [keeps (Obj.priv x) (not_mem_bindSegObjs (by unfold Obj.priv; omega)) (by unfold Obj.priv; omega) (by unfold Obj.priv; omega)]
  have modelGet : ∀ n, n ≠ Obj.modelBind x → n ∉ Obj.clampCount :: logObjs → model.get n = fixed.get n := by
    intro n other low
    unfold model
    split
    · rfl
    · exact (Work.fixes_fixObj (l := [Obj.modelBind x]) List.mem_cons_self 0 fixed).get n (by simpa using other) low
  have modelBind : model.get (Obj.modelBind x) = if w.isPriv x then w.get (Obj.modelBind x) else 0 := by
    unfold model
    rw [priv]
    split
    · exact keeps _ (not_mem_bindSegObjs (by unfold Obj.modelBind; omega)) (by unfold Obj.modelBind; omega) (by unfold Obj.modelBind; omega)
    · exact Work.fixObj_get _ _ _
  have last : ∀ n, n ≠ Obj.addSeg x → n ∉ Obj.clampCount :: logObjs →
      (if model.isPriv x && model.get (Obj.modelBind x) == 1 then model else fix (Obj.addSeg x) 0xFF model).get n = model.get n := by
    intro n other low
    split
    · rfl
    · exact (Work.fixes_fixObj (l := [Obj.addSeg x]) List.mem_cons_self 0xFF model).get n (by simpa using other) low
  have table : Obj.btBase x ∉ Obj.clampCount :: logObjs := not_mem_clampObjs (by unfold Obj.btBase; omega) (by unfold Obj.btBase; omega)
  have grow : Obj.growEvt x ∉ Obj.clampCount :: logObjs := not_mem_clampObjs (by unfold Obj.growEvt; omega) (by unfold Obj.growEvt; omega)
  have bind : Obj.modelBind x ∉ Obj.clampCount :: logObjs := not_mem_clampObjs (by unfold Obj.modelBind; omega) (by unfold Obj.modelBind; omega)
  refine ⟨?_, ?_, ?_⟩
  · rw [last _ (by unfold Obj.btBase Obj.addSeg; omega) table, modelGet _ (by unfold Obj.btBase Obj.modelBind; omega) table]
    exact keeps _ (not_mem_bindSegObjs (by unfold Obj.btBase; omega)) (by unfold Obj.btBase; omega) (by unfold Obj.btBase; omega)
  · rw [last _ (by unfold Obj.growEvt Obj.addSeg; omega) grow, modelGet _ (by unfold Obj.growEvt Obj.modelBind; omega) grow]
    exact keeps _ (not_mem_bindSegObjs (by unfold Obj.growEvt; omega)) (by unfold Obj.growEvt; omega) (by unfold Obj.growEvt; omega)
  · rw [last _ (by unfold Obj.modelBind Obj.addSeg; omega) bind]
    exact modelBind

theorem mem_bindGroup_apart {x n : Nat} (h : n ∈ bindGroup x) : n ≠ Obj.bindCommit x ∧ n ≠ Obj.priv x := by
  simp only [bindGroup, upto, List.mem_append, List.mem_map, List.mem_range, List.mem_cons, List.not_mem_nil, or_false] at h
  unfold Obj.bindCommit Obj.priv
  rcases h with (rfl | ⟨p, hp, rfl⟩) | rfl | rfl | rfl | rfl | rfl
  · unfold Obj.modelBind
    omega
  · unfold Obj.modelSegP
    omega
  · unfold Obj.addSeg
    omega
  · unfold Obj.arenaSeg
    omega
  · unfold Obj.ovfSeg
    omega
  · unfold Obj.btBase
    omega
  · unfold Obj.growEvt
    omega

section
variable {x : Fin 16} {w : Work}

theorem opBindCommitApply_applies (pending : w.get (Obj.bindCommit x) = 1) (free : w.get (Obj.ctxState x) = 0 ∨ w.holdsBinding x = false) :
    opBindCommitApply x w = ((w.groupToActive (bindGroup x) []).bindClamps x).put (Obj.bindCommit x) 0 := by
  unfold opBindCommitApply
  exact if_pos ⟨pending, free⟩

theorem groupToActive_bindGroup {n : Nat} (h : n ∈ bindGroup x) : (w.groupToActive (bindGroup x) []).get n = w.getP n :=
  (Work.groupToActive_get _ _ _ _).trans (if_pos h)

theorem groupToActive_isPriv : (w.groupToActive (bindGroup x) []).isPriv x = w.isPriv x := by
  unfold Dev.isPriv
  rw [Work.groupToActive_get, if_neg (fun h => (mem_bindGroup_apart h).2 rfl)]

theorem opBindCommitApply_values (pending : w.get (Obj.bindCommit x) = 1) (free : w.get (Obj.ctxState x) = 0 ∨ w.holdsBinding x = false) :
    (opBindCommitApply x w).get (Obj.bindCommit x) = 0 ∧ (opBindCommitApply x w).get (Obj.btBase x) = w.getP (Obj.btBase x) ∧
      (opBindCommitApply x w).get (Obj.growEvt x) = w.getP (Obj.growEvt x) ∧
      (opBindCommitApply x w).get (Obj.modelBind x) = if w.isPriv x then w.getP (Obj.modelBind x) else 0 := by
  have table : Obj.btBase x ∈ bindGroup x := by simp [bindGroup]
  have grow : Obj.growEvt x ∈ bindGroup x := by simp [bindGroup]
  have bind : Obj.modelBind x ∈ bindGroup x := by simp [bindGroup]
  obtain ⟨h1, h2, h3⟩ := Work.bindClamps_get x.isLt (w.groupToActive (bindGroup x) [])
  rw [groupToActive_bindGroup table] at h1
  rw [groupToActive_bindGroup grow] at h2
  rw [groupToActive_bindGroup bind, groupToActive_isPriv] at h3
  rw [opBindCommitApply_applies pending free]
  refine ⟨Work.put_get_same _ _ _, ?_, ?_, ?_⟩
  · exact (Work.put_get_other _ _ (mem_bindGroup_apart table).1).trans h1
  · exact (Work.put_get_other _ _ (mem_bindGroup_apart grow).1).trans h2
  · exact (Work.put_get_other _ _ (mem_bindGroup_apart bind).1).trans h3

end

/-! ### The arena's place (R416) -/

/-- A pending place comes into force while no block is allocated. -/
theorem Work.arenaApply_applies {w : Work} (pending : w.get Obj.arenaCommit = 1) (empty : w.arena.blocks = []) :
    w.arenaApply.get Obj.arenaCommit = 0 ∧ w.arenaApply.get Obj.arenaFree = w.arenaApply.get Obj.arenaLen / 65536 ∧
      w.arenaApply.get Obj.arenaBase = w.getP Obj.arenaBase / 65536 * 65536 := by
  unfold Work.arenaApply
  rw [if_neg (not_or.mpr ⟨not_not_intro pending, by rw [empty]; decide⟩)]
  extract_lets w1 fix w2 w3 b ok inside w4
  have base2 : w2.get Obj.arenaBase = w.getP Obj.arenaBase / 65536 * 65536 := by
    refine (Work.fixObj_get _ _ _).trans ?_
    rw [show w1.get Obj.arenaBase = w.getP Obj.arenaBase from (Work.groupToActive_get _ _ _ _).trans (if_pos (by decide))]
  have base3 : w3.get Obj.arenaBase = w2.get Obj.arenaBase :=
    (Work.fixes_fixObj (l := [Obj.arenaLen]) List.mem_cons_self _ w2).get _ (by decide) (by decide)
  have base4 : w4.get Obj.arenaBase = w3.get Obj.arenaBase := by
    unfold w4
    split
    · rfl
    · exact (Work.fixes_fixObj (l := [Obj.arenaLen]) List.mem_cons_self 0 w3).get _ (by decide) (by decide)
  clear_value w4
  refine ⟨?_, ?_, ?_⟩
  · exact (Work.put_get_other _ _ (by decide)).trans (Work.put_get_same _ _ _)
  · refine (Work.put_get_same _ _ _).trans (congrArg (· / 65536) ?_)
    exact ((Work.put_get_other _ _ (by decide)).trans (Work.put_get_other _ _ (by decide))).symm
  · exact ((Work.put_get_other _ _ (by decide)).trans (Work.put_get_other _ _ (by decide))).trans (base4.trans (base3.trans base2))

theorem Work.arenaApply_waits {w : Work} (full : w.arena.blocks ≠ []) : w.arenaApply = w := by
  unfold Work.arenaApply
  refine if_pos (.inr ?_)
  cases h : w.arena.blocks with
  | nil => exact absurd h full
  | cons _ _ => rfl

theorem Work.arenaApply_rest (w : Work) : ∃ o lg m b, w.arenaApply = { w with obj := o, log := lg, sent := m, blob := b } := by
  unfold Work.arenaApply
  split
  · exact ⟨_, _, _, _, rfl⟩
  · extract_lets w1 fix w2 w3 b ok inside w4
    have h3 : w1.Fixes [Obj.arenaBase, Obj.arenaLen] w3 :=
      (Work.fixes_fixObj (by decide) _ w1).trans (Work.fixes_fixObj (by decide) _ w2)
    have h4 : w1.Fixes [Obj.arenaBase, Obj.arenaLen] w4 := by
      refine h3.trans ?_
      unfold w4
      split
      · exact .refl _ w3
      · exact Work.fixes_fixObj (by decide) 0 w3
    obtain ⟨o, bl, e1⟩ := w.groupToActive_rest [Obj.arenaBase, Obj.arenaLen] []
    obtain ⟨o', lg, m, bl', e4⟩ := h4.rest
    rw [e4, show w1 = _ from e1]
    exact ⟨_, _, _, _, rfl⟩

theorem Work.arenaApply_arena (w : Work) : w.arenaApply.arena = w.arena := by
  obtain ⟨_, _, _, _, e⟩ := w.arenaApply_rest
  rw [e]

theorem Work.arenaApply_out (w : Work) : w.arenaApply.out = w.out := by
  obtain ⟨_, _, _, _, e⟩ := w.arenaApply_rest
  rw [e]

/-! ### What leaves the arena's records alone -/

@[simp] theorem Work.ite_arena (c : Prop) [Decidable c] (a b : Work) :
    (if c then a else b).arena = if c then a.arena else b.arena := by
  split <;> rfl

@[simp] theorem foldl_arena {α : Type} (f : Work → α → Work) (h : ∀ w a, (f w a).arena = w.arena) (l : List α) (w : Work) :
    (l.foldl f w).arena = w.arena :=
  List.foldlRecOn l f (motive := fun w' => w'.arena = w.arena) rfl (fun w' same a _ => (h w' a).trans same)

@[simp] theorem Work.setBlobs_arena (c : Copy) (m : List (Nat × Nat)) (w : Work) : (Work.setBlobs c m w).arena = w.arena := by
  unfold Work.setBlobs
  (repeat' split) <;> simp [*]

@[simp] theorem Work.blobPut_arena (c : Copy) (n : Nat) (off : Nat) (v : Nat) (len : Nat) (w : Work) : (Work.blobPut c n off v len w).arena =
    w.arena := by
  unfold Work.blobPut
  simp

@[simp] theorem Work.writeNat_arena (a : Nat) (v : Nat) (n : Nat) (w : Work) : (Work.writeNat a v n w).arena = w.arena := by
  unfold Work.writeNat
  simp

@[simp] theorem Work.mapFill_arena (id : Nat) (f : Fill → Fill) (w : Work) : (Work.mapFill id f w).arena = w.arena := by rfl

@[simp] theorem Work.freeHeld_arena (b : Nat) (n : Nat) (w : Work) : (Work.freeHeld b n w).arena = w.arena := by rfl

@[simp] theorem Work.issueFill_arena (id : Nat) (v1 : Nat) (v2 : Work) : (Work.issueFill id v1 v2).arena = v2.arena := by
  induction v1 generalizing v2 with
  | zero => rfl
  | succ k ih =>
    unfold Work.issueFill
    (repeat' split) <;> simp [*]

@[simp] theorem Work.issueBuffer_arena (b : Nat) (w : Work) : (Work.issueBuffer b w).arena = w.arena := by
  unfold Work.issueBuffer
  simp [*]

@[simp] theorem Work.passFill_arena (id : Nat) (w : Work) : (Work.passFill id w).arena = w.arena := by
  unfold Work.passFill
  dsimp only
  (repeat' split) <;> simp [*]

@[simp] theorem Work.passFills_arena (x : Nat) (w : Work) : (Work.passFills x w).arena = w.arena := by
  unfold Work.passFills
  simp [*]

@[simp] theorem Work.evtPut_arena (x n v : Nat) (w : Work) : (w.evtPut x n v).arena = w.arena := by
  unfold Work.evtPut
  simp

@[simp] theorem Work.evtAdd_arena (x : Nat) (n : Nat) (k : Nat) (w : Work) : (Work.evtAdd x n k w).arena = w.arena := by
  unfold Work.evtAdd
  simp

/-! ### Sequences (R417 to R419) -/

section
variable {x q : Nat} {t u : SeqSt} {w : Work}

theorem Dev.seq?_key {w : Dev} (found : w.seq? x q = some u) : u.ctx = x ∧ u.q = q := by
  have h := List.find?_some (p := fun s : SeqSt => s.ctx == x && s.q == q) found
  simpa using h

theorem Dev.seq?_congr {w w' : Dev} (h : w'.arena.seqs = w.arena.seqs) (x q : Nat) : w'.seq? x q = w.seq? x q := by
  unfold Dev.seq?
  rw [h]

/-- What a slot holds after it was set. -/
theorem Work.putSeq_seq? (ctx : t.ctx = x) (slot : t.q = q) : (w.putSeq x q (some t)).seq? x q = some t := by
  have mine : (t.ctx == x && t.q == q) = true := by simp [ctx, slot]
  show (if w.arena.seqs.any (fun s => s.ctx == x && s.q == q) then w.arena.seqs.map (fun s => if s.ctx = x ∧ s.q = q then t else s)
    else w.arena.seqs ++ [t]).find? (fun s => s.ctx == x && s.q == q) = some t
  cases taken : w.arena.seqs.any (fun s => s.ctx == x && s.q == q) with
  | true =>
    rw [if_pos rfl, List.find?_map]
    have same : ((fun s : SeqSt => s.ctx == x && s.q == q) ∘ fun s => if s.ctx = x ∧ s.q = q then t else s) = fun s => s.ctx == x && s.q == q := by
      funext s
      by_cases key : s.ctx = x ∧ s.q = q
      · simp [key, mine]
      · simp [key]
    rw [same]
    obtain ⟨s, hs, key⟩ := List.any_eq_true.mp taken
    obtain ⟨r, hr⟩ := Option.isSome_iff_exists.mp (List.find?_isSome (p := fun s : SeqSt => s.ctx == x && s.q == q) |>.mpr ⟨s, hs, key⟩)
    have rkey := List.find?_some hr
    simp only [Bool.and_eq_true, beq_iff_eq] at rkey
    rw [hr]
    exact congrArg some (if_pos rkey)
  | false =>
    rw [if_neg (by decide), List.find?_append, List.find?_eq_none.mpr (fun s hs h => Bool.false_ne_true (taken.symm.trans (List.any_eq_true.mpr ⟨s, hs, h⟩)))]
    simp [mine]

theorem Work.putSeq_grows (v : Option SeqSt) : (w.putSeq x q v).arena.grows = w.arena.grows := rfl

theorem opSeqJoin_joins {wr : Writer} {x : Fin 16} {v : Nat} (takes : w.serves wr (Obj.seqJoin x) = true) (reaches : w.reaches wr (.own x) = true)
    (free : w.seq? x (bits v 0 10) = none) (few : bits v 16 13 ≤ 4096) :
    ∃ (t : SeqSt) (w' : Work), t.ctx = x ∧ t.q = bits v 0 10 ∧ t.st = 1 ∧ t.want = max 1 (bits v 16 13) ∧ t.held = 0 ∧
      opSeqJoin wr x v w = w'.putSeq x (bits v 0 10) (some t) := by
  unfold opSeqJoin
  rw [Work.gated_takes _ _ _ _ _ takes reaches]
  dsimp only
  rw [free, if_neg (not_or.mpr ⟨by decide, Nat.not_lt.mpr few⟩)]
  exact ⟨_, _, rfl, rfl, rfl, rfl, rfl, rfl⟩

theorem opSeqLeave_leaves {wr : Writer} {x : Fin 16} {v : Nat} (takes : w.serves wr (Obj.seqLeave x) = true)
    (reaches : w.reaches wr (.own x) = true) (found : w.seq? x (bits v 0 10) = some u) (low : 1 ≤ u.st) (high : u.st ≤ 3) :
    opSeqLeave wr x v w = w.putSeq x (bits v 0 10) (some { u with st := 4 }) := by
  unfold opSeqLeave
  rw [Work.gated_takes _ _ _ _ _ takes reaches]
  dsimp only
  rw [found]
  exact if_pos (by omega)

theorem opSeqLeave_none {wr : Writer} {x : Fin 16} {v : Nat} (takes : w.serves wr (Obj.seqLeave x) = true)
    (reaches : w.reaches wr (.own x) = true) (none_ : w.seq? x (bits v 0 10) = none) :
    opSeqLeave wr x v w = w.noAction wr (Obj.seqLeave x) v := by
  unfold opSeqLeave
  rw [Work.gated_takes _ _ _ _ _ takes reaches]
  dsimp only
  rw [none_]

theorem opSeqGrow_none {wr : Writer} {x : Fin 16} {v : Nat} (takes : w.serves wr (Obj.seqGrow x) = true)
    (reaches : w.reaches wr (.own x) = true) (none_ : w.seq? x (bits v 0 10) = none) :
    opSeqGrow wr x v w = w.noAction wr (Obj.seqGrow x) v := by
  unfold opSeqGrow
  rw [Work.gated_takes _ _ _ _ _ takes reaches]
  dsimp only
  rw [none_]

/-- A growth that the free blocks cover is done at once. -/
def Work.grown (x q n : Nat) (w : Work) : Work :=
  ((w.setArena (fun a => { a with grows := [⟨x, q, n, [], none⟩] })).takeBlocks x q n).growEnd ⟨x, q, n, [], none⟩

theorem Work.blockEntry_arena (x q n v : Nat) (w : Work) : (w.blockEntry x q n v).arena = w.arena := by
  unfold Work.blockEntry
  split
  · exact Work.writeNat_arena _ _ _ _
  · rfl

theorem Work.takeBlocks_arena {n : Nat} (found : w.seq? x q = some u) (covered : n ≤ w.freeBlocks.length) :
    (w.takeBlocks x q n).arena.grows = w.arena.grows ∧ (w.takeBlocks x q n).seq? x q = some { u with held := u.held + n } := by
  obtain ⟨ctx, slot⟩ := Dev.seq?_key found
  unfold Work.takeBlocks
  rw [found]
  dsimp -zeta only
  extract_lets bs w1 w2
  have len : bs.length = n := List.length_take_of_le covered
  have h2 : w2.arena = w1.arena := foldl_arena _ (fun w p => Work.blockEntry_arena _ _ _ _ w) _ w1
  rw [len]
  exact ⟨(Work.putSeq_grows _).trans (congrArg ArenaState.grows h2 : w2.arena.grows = w1.arena.grows), Work.putSeq_seq? ctx slot⟩

theorem Work.growEnd_arena (g : Grow) : (w.growEnd g).arena = (w.setGrow none).arena :=
  (Work.arenaApply_arena _).trans (Work.evtAdd_arena _ _ _ _)

/-- The sequence grows by the blocks asked for and nothing waits any more. -/
theorem Work.grown_arena {n : Nat} (found : w.seq? x q = some u) (covered : n ≤ w.freeBlocks.length) :
    (w.grown x q n).arena.grows = [] ∧ (w.grown x q n).seq? x q = some { u with held := u.held + n } := by
  obtain ⟨grows, stands⟩ := Work.takeBlocks_arena (w := w.setArena (fun a => { a with grows := [⟨x, q, n, [], none⟩] })) found covered
  unfold Work.grown
  have arena := ((w.setArena (fun a => { a with grows := [⟨x, q, n, [], none⟩] })).takeBlocks x q n).growEnd_arena ⟨x, q, n, [], none⟩
  refine ⟨?_, ?_⟩
  · rw [arena]
    show (match ArenaState.grows _, (none : Option Grow) with | _ :: r, some g => g :: r | _ :: r, none => r | [], _ => []) = []
    rw [grows]
    rfl
  · rw [Dev.seq?_congr (congrArg ArenaState.seqs arena)]
    exact stands

theorem Work.growGo_none {k : Nat} (none_ : w.arena.grows = []) : w.growGo k = w := by
  cases k with
  | zero => rfl
  | succ k =>
    unfold Work.growGo
    rw [none_]

theorem Work.growGo_covered {k n : Nat} (grows : w.arena.grows = [⟨x, q, n, [], none⟩]) (found : w.seq? x q = some u) (joined : u.st = 3)
    (covered : n ≤ w.freeBlocks.length) :
    w.growGo (k + 1) = Work.growGo k ((w.takeBlocks x q n).growEnd ⟨x, q, n, [], none⟩) := by
  rw [Work.growGo, grows]
  dsimp only
  rw [found]
  dsimp only
  rw [if_neg (not_not_intro joined), if_pos covered]

/-- A growth that waits alone and that the free blocks cover is done. -/
theorem Work.growStep_covered {n : Nat} (grows : w.arena.grows = [⟨x, q, n, [], none⟩]) (found : w.seq? x q = some u) (joined : u.st = 3)
    (covered : n ≤ w.freeBlocks.length) : w.growStep = (w.takeBlocks x q n).growEnd ⟨x, q, n, [], none⟩ := by
  obtain ⟨k, fuel⟩ : ∃ k, (w.arena.blocks.length + w.arena.seqs.length + 4) * (w.arena.grows.length + 1) = k + 1 :=
    Nat.exists_eq_succ_of_ne_zero (Nat.mul_ne_zero (by omega) (by omega))
  have done_ : ((w.takeBlocks x q n).growEnd ⟨x, q, n, [], none⟩).arena.grows = [] := by
    rw [Work.growEnd_arena]
    exact congrArg (fun l : List Grow => match l, (none : Option Grow) with | _ :: r, some g => g :: r | _ :: r, none => r | [], _ => [])
      ((Work.takeBlocks_arena found covered).1.trans grows)
  unfold Work.growStep
  rw [if_neg (by rw [grows]; exact Bool.false_ne_true), fuel, Work.growGo_covered grows found joined covered, Work.growGo_none done_]

theorem opSeqGrow_grows {wr : Writer} {x : Fin 16} {v : Nat} (takes : w.serves wr (Obj.seqGrow x) = true)
    (reaches : w.reaches wr (.own x) = true) (found : w.seq? x (bits v 0 10) = some u) (joined : u.st = 3) (none_ : w.arena.grows = [])
    (room : u.held + bits v 16 13 ≤ 4096) (covered : bits v 16 13 ≤ w.freeBlocks.length) :
    opSeqGrow wr x v w = w.grown x (bits v 0 10) (bits v 16 13) := by
  unfold opSeqGrow
  rw [Work.gated_takes _ _ _ _ _ takes reaches]
  generalize bits v 0 10 = q at found ⊢
  generalize bits v 16 13 = n at room covered ⊢
  have begun : (w.setArena (fun a => { a with grows := a.grows ++ [⟨x.val, q, n, [], none⟩] })) =
      w.setArena (fun a => { a with grows := [⟨x.val, q, n, [], none⟩] }) := by
    unfold Work.setArena
    dsimp only
    rw [none_]
    rfl
  dsimp only
  rw [found]
  dsimp only
  rw [none_, begun]
  refine (if_neg (not_or.mpr ⟨not_not_intro joined, Nat.not_lt.mpr room⟩)).trans ?_
  exact Work.growStep_covered (w := w.setArena (fun a => { a with grows := [⟨x.val, q, n, [], none⟩] })) rfl found joined covered

end

/-- Settles O40: what each commit puts in force, then the slots of the arena's sequences. -/
theorem bindingsAndSequences : Obligations.BindingsAndSequences := by
  unfold Obligations.BindingsAndSequences
  refine ⟨fun wr x s takes idle => ?_, fun x s pending free => ?_, fun wr x s takes => ?_, fun wr s takes idle => ⟨fun empty => ?_, fun full => ?_⟩,
    fun wr x v s takes free few => ?_, fun wr x v q s found => ⟨fun takes low high => ?_, fun takes joined none_ room covered sound => ?_⟩,
    fun wr x v s leaves grows none_ i hi => ?_⟩
  · have e : opBindCommit wr x s.work = (s.work.groupToPend (bindGroup x) []).put (Obj.bindCommit x) 1 :=
      (Work.gated_takes _ _ _ _ _ takes.1 takes.2).trans (Work.commitReq_taken _ _ _ idle)
    refine ⟨_, exec_leave (i := .bindCommit wr x) e (Work.groupToPend_out _ _ _), s.sameMem_leave _, Work.put_get_same _ _ _, fun n hn => ?_, fun n hn => ?_⟩
    · exact (Work.put_get_other _ _ (fun e => hn (List.mem_singleton.mpr e))).trans (Work.groupToPend_get _ _ _ _)
    · exact (Work.groupToPend_getP _ _ _ _).trans (if_pos hn)
  · obtain ⟨h1, h2, h3, h4⟩ := opBindCommitApply_values (w := s.work) pending free
    exact ⟨_, exec_quiet (i := .bindCommitApply x) (opBindCommitApply_out x s.work), s.sameMem_leave _, h1, h2, h3, h4⟩
  · have e : opAddSwap wr x s.work = _ := Work.gated_takes _ _ _ _ _ takes.1 takes.2
    cases waits : s.life.addSwap.contains x.val with
    | true =>
      have e' : opAddSwap wr x s.work = s.work := e.trans (if_pos waits)
      exact ⟨_, exec_leave (i := .addSwap wr x) e' rfl, s.sameMem_leave _, fun _ _ => rfl, List.contains_iff_mem.mp waits⟩
    | false =>
      have e' : opAddSwap wr x s.work = { s.work with life := { s.life with addSwap := s.life.addSwap ++ [x.val] } } :=
        e.trans (if_neg (fun h => Bool.false_ne_true (waits.symm.trans h)))
      exact ⟨_, exec_leave (i := .addSwap wr x) e' rfl, s.sameMem_leave _, fun _ _ => rfl, List.mem_append_right _ (List.mem_singleton.mpr rfl)⟩
  · have e : opArenaCommit wr s.work = ((s.work.groupToPend [Obj.arenaBase, Obj.arenaLen] []).put Obj.arenaCommit 1).arenaApply :=
      (Work.gated_takes _ _ _ _ _ takes.1 takes.2).trans (congrArg Work.arenaApply (Work.commitReq_taken _ _ _ idle))
    have out : (((s.work.groupToPend [Obj.arenaBase, Obj.arenaLen] []).put Obj.arenaCommit 1).arenaApply).out = s.work.out :=
      (Work.arenaApply_out _).trans (Work.groupToPend_out _ _ _)
    have blocks : ((s.work.groupToPend [Obj.arenaBase, Obj.arenaLen] []).put Obj.arenaCommit 1).arena.blocks = [] :=
      (congrArg ArenaState.blocks (groupToPend_arena _ _ _)).trans empty
    obtain ⟨commit, free, base⟩ := Work.arenaApply_applies (Work.put_get_same _ _ _) blocks
    refine ⟨_, exec_leave (i := .arenaCommit wr) e out, s.sameMem_leave _, commit, free, base.trans ?_⟩
    exact congrArg (fun v => v / 65536 * 65536) ((Work.groupToPend_getP _ _ _ _).trans (if_pos (by decide)))
  · have blocks : ((s.work.groupToPend [Obj.arenaBase, Obj.arenaLen] []).put Obj.arenaCommit 1).arena.blocks ≠ [] := by
      rw [show ((s.work.groupToPend [Obj.arenaBase, Obj.arenaLen] []).put Obj.arenaCommit 1).arena = s.arena from groupToPend_arena _ _ _]
      exact full
    have e : opArenaCommit wr s.work = (s.work.groupToPend [Obj.arenaBase, Obj.arenaLen] []).put Obj.arenaCommit 1 :=
      (Work.gated_takes _ _ _ _ _ takes.1 takes.2).trans
        ((congrArg Work.arenaApply (Work.commitReq_taken _ _ _ idle)).trans (Work.arenaApply_waits blocks))
    refine ⟨_, exec_leave (i := .arenaCommit wr) e (Work.groupToPend_out _ _ _), s.sameMem_leave _, Work.put_get_same _ _ _, fun n hn => ?_⟩
    exact (Work.put_get_other _ _ (fun e => hn (List.mem_singleton.mpr e))).trans (Work.groupToPend_get _ _ _ _)
  · obtain ⟨t, w', ctx, slot, st, want, held, e⟩ := opSeqJoin_joins (w := s.work) takes.1 takes.2 free few
    have out := (congrArg Work.out e).symm.trans (opSeqJoin_out wr x v s.work)
    refine ⟨_, exec_leave (i := .seqJoin wr x v) e out, s.sameMem_leave _, ?_⟩
    refine (congrArg (Option.any _) (Work.putSeq_seq? ctx slot)).trans ?_
    simp [st, want, held]
  · obtain ⟨ctx, slot⟩ := Dev.seq?_key found
    have e := opSeqLeave_leaves (w := s.work) takes.1 takes.2 found low high
    refine ⟨_, exec_leave (i := .seqLeave wr x v) e rfl, s.sameMem_leave _, ?_⟩
    exact (congrArg (Option.any _) (Work.putSeq_seq? (t := { q with st := 4 }) ctx slot)).trans rfl
  · have e := opSeqGrow_grows (w := s.work) takes.1 takes.2 found joined none_ room covered
    obtain ⟨grows, stands⟩ := Work.grown_arena (w := s.work) found covered
    refine ⟨_, exec_sound (i := .seqGrow wr x v) sound, ?_, ?_⟩
    · rw [State.after_arena]
      exact (congrArg (fun w : Work => w.arena.grows) e).trans grows
    · have same : (s.after (Machine.work (.seqGrow wr x v))).seq? x (bits v 0 10) = (opSeqGrow wr x v s.work).seq? x (bits v 0 10) :=
        Dev.seq?_congr (congrArg ArenaState.seqs (State.after_arena _ _)) _ _
      rw [same, e, stands]
      simp
  · simp only [List.mem_cons, List.not_mem_nil, or_false] at hi
    rcases hi with rfl | rfl
    · have e := opSeqLeave_none (w := s.work) leaves.1 leaves.2 none_
      exact ⟨_, exec_leave e (Work.noAction_out _ _ _ _), s.sameMem_leave _, fun n hn => Work.noAction_get _ _ _ _ hn,
        Work.clamped_get_count _ _ _ _ _ _⟩
    · have e := opSeqGrow_none (w := s.work) grows.1 grows.2 none_
      exact ⟨_, exec_leave e (Work.noAction_out _ _ _ _), s.sameMem_leave _, fun n hn => Work.noAction_get _ _ _ _ hn,
        Work.clamped_get_count _ _ _ _ _ _⟩


/-! ### What a restore's record holds (R430) -/

/-- The device as it stands before its network and its restores are read. -/
theorem Dev.shardRange_net (w : Dev) (n : NetState) (x s : Nat) : ({ w with net := n } : Dev).shardRange x s = w.shardRange x s := rfl

theorem Dev.restOf_net (w : Dev) (t : NetState) (n id : Nat) : ({ w with net := t } : Dev).restOf n id = w.restOf n id := by
  have ctx : ({ w with net := t } : Dev).lctx n = w.lctx n := Dev.lctx_congr (w := w) (w' := { w with net := t }) rfl n
  unfold Dev.restOf
  rw [ctx]
  rfl

/-- Shard s of context x's restore has its answer, with c copies. -/
def Dev.Answered (w : Dev) (x s c : Nat) : Prop :=
  ∃ r, w.restore? x = some r ∧ ∃ v ∈ r.shards, v.s = s ∧ v.answered = true ∧ v.copies.length = c

section
variable {x s c : Nat} {r : Restore} {w : Work}

theorem Dev.restore?_ctx {w : Dev} (found : w.restore? x = some r) : r.ctx = x :=
  beq_iff_eq.mp (List.find?_some (p := fun r : Restore => r.ctx == x) found)

/-- What happens to the restore of a context. -/
theorem Work.mapRestore_restore? {f : Restore → Restore} (keeps : ∀ r, (f r).ctx = r.ctx) (found : w.restore? x = some r) :
    (w.mapRestore x f).restore? x = some (f r) := by
  have same : ((fun r : Restore => r.ctx == x) ∘ fun r => if r.ctx = x then f r else r) = fun r => r.ctx == x := by
    funext r
    by_cases key : r.ctx = x
    · simp [key, keeps]
    · simp [key]
  show (w.pair.restores.map (fun r => if r.ctx = x then f r else r)).find? (fun r => r.ctx == x) = some (f r)
  rw [List.find?_map, same, show w.pair.restores.find? (fun r => r.ctx == x) = some r from found]
  exact congrArg some (if_pos (Dev.restore?_ctx found))

theorem Work.mapRest_restore? {f : RestShard → RestShard} (found : w.restore? x = some r) :
    (w.mapRest x s f).restore? x = some { r with shards := r.shards.map (fun t => if t.s = s then f t else t) } :=
  Work.mapRestore_restore? (fun _ => rfl) found

/-- A shard's answer stands while others are asked. -/
theorem Work.mapRest_answered {m : Nat} {f : RestShard → RestShard}
    (keeps : ∀ t, (f t).s = t.s ∧ (t.answered = true → (f t).answered = true) ∧ (f t).copies = t.copies) (h : w.Answered x s c) :
    (w.mapRest x m f).Answered x s c := by
  obtain ⟨r, found, v, hv, key, answered, copies⟩ := h
  refine ⟨_, Work.mapRest_restore? found, _, List.mem_map.mpr ⟨v, hv, rfl⟩, ?_⟩
  split
  · obtain ⟨h1, h2, h3⟩ := keeps v
    exact ⟨h1.trans key, h2 answered, h3 ▸ copies⟩
  · exact ⟨key, answered, copies⟩

/-- Asking for the shards that are left changes no object and takes no answer back. -/
theorem Work.restoreAsk_keeps (x k : Nat) (w : Work) : (∀ n, (w.restoreAsk x k).get n = w.get n) ∧
    (∀ s c, w.Answered x s c → (w.restoreAsk x k).Answered x s c) ∧
    ((w.restore? x).isSome = true → ((w.restoreAsk x k).restore? x).isSome = true) := by
  induction k generalizing w with
  | zero => exact ⟨fun _ => rfl, fun _ _ h => h, fun h => h⟩
  | succ k ih =>
    unfold Work.restoreAsk
    split
    · exact ⟨fun _ => rfl, fun _ _ h => h, fun h => h⟩
    · next r found =>
      split
      · exact ⟨fun _ => rfl, fun _ _ h => h, fun h => h⟩
      · split
        · exact ⟨fun _ => rfl, fun _ _ h => h, fun h => h⟩
        · next t _ =>
          dsimp only
          split
          · refine ⟨fun _ => rfl, fun s c h => ?_, fun _ => Option.isSome_iff_exists.mpr ⟨_, Work.mapRest_restore? found⟩⟩
            exact Work.mapRest_answered (f := fun t => { t with asked := true }) (fun t => ⟨rfl, fun h => h, rfl⟩) h
          · obtain ⟨get, answered, some_⟩ := ih (w.mapRest x t.s (fun t => { t with asked := true, answered := true }))
            refine ⟨get, fun s c h => answered s c (Work.mapRest_answered (fun t => ⟨rfl, fun _ => rfl, rfl⟩) h), fun _ => some_ ?_⟩
            exact Option.isSome_iff_exists.mpr ⟨_, Work.mapRest_restore? found⟩

theorem Work.restoreStep_keeps (x : Nat) (w : Work) : (∀ n, n ≠ Obj.restoreState x → (w.restoreStep x).get n = w.get n) ∧
    ((w.restoreStep x).get (Obj.restoreState x) = w.get (Obj.restoreState x) ∨ (w.restoreStep x).get (Obj.restoreState x) = 2) ∧
    ((w.restore? x).isSome = true → ((w.restoreStep x).restore? x).isSome = true) := by
  unfold Work.restoreStep
  split
  · next r found =>
    split
    · exact ⟨fun _ _ => rfl, .inl rfl, fun h => h⟩
    · obtain ⟨get, _, some_⟩ := ((w.mapRestore x (fun r => { r with ready := true })).put (Obj.restoreState x) 2).restoreAsk_keeps x 17
      refine ⟨fun n other => (get n).trans (Work.put_get_other _ _ other), .inr ((get _).trans (Work.put_get_same _ _ _)), fun _ => some_ ?_⟩
      have ready : (w.mapRestore x (fun r => { r with ready := true })).restore? x = some { r with ready := true } :=
        Work.mapRestore_restore? (fun _ => rfl) found
      exact Option.isSome_iff_exists.mpr ⟨_, ready⟩
  · exact ⟨fun _ _ => rfl, .inl rfl, fun h => h⟩

end

/-! ### The requester (R430 to R432) -/

section
variable {wr : Writer} {x : Fin 16} {mask : Nat} {w : Work}

theorem opRestoreReq_refused (serves : w.serves wr (Obj.restoreReq x) = true) (reaches : w.reaches wr (.own x) = true)
    (runs : (w.restore? x).isSome = true ∨ w.get (Obj.mirCommit x) = 1) : opRestoreReq wr x mask w = w.put (Obj.restoreState x) 4 := by
  unfold opRestoreReq
  rw [Work.gated_takes _ _ _ _ _ serves reaches]
  exact if_pos (by simpa using runs)

theorem opRestoreReq_holds (serves : w.serves wr (Obj.restoreReq x) = true) (reaches : w.reaches wr (.own x) = true)
    (idle : w.restore? x = none) (commit : w.get (Obj.mirCommit x) ≠ 1) :
    ((opRestoreReq wr x mask w).restore? x).isSome = true ∧
      ((opRestoreReq wr x mask w).get (Obj.restoreState x) = 1 ∨ (opRestoreReq wr x mask w).get (Obj.restoreState x) = 2) := by
  unfold opRestoreReq
  rw [Work.gated_takes _ _ _ _ _ serves reaches, idle, if_neg (by simpa using commit)]
  extract_lets l r
  obtain ⟨_, state, some_⟩ := ((w.setPair (fun p => { p with restores := p.restores ++ [r] })).put (Obj.restoreState x) 1).restoreStep_keeps x
  rw [Work.put_get_same] at state
  refine ⟨some_ (List.find?_isSome.mpr ⟨r, List.mem_append_right _ (List.mem_singleton.mpr rfl), beq_self_eq_true x.val⟩), state⟩

end

section
variable {id x : Nat} {m : InMsg} {u : RestShard} {w : Work}

theorem Work.unbox_restOf (n i : Nat) : (w.unbox id).restOf n i = w.restOf n i := Dev.restOf_net w.toDev _ n i

theorem Work.unbox_shardRange (n i : Nat) : (w.unbox id).shardRange n i = w.shardRange n i := Dev.shardRange_net w.toDev _ n i

theorem opPairingRestoreDataRx_lands {a off : Nat} (msg : w.pairMsg id 4 = some m) (rest : w.restOf m.n (bits m.key 0 32) = some (x, u))
    (first : u.copies = []) (range : w.shardRange x u.s = .ok a) (hoff : bits m.key 32 8 * 2 ^ 30 = off)
    (fits : off + m.data.length ≤ w.get (Obj.mirLen x u.s)) :
    opPairingRestoreDataRx id w = (w.unbox id).engWrite x (a + off) m.data := by
  unfold opPairingRestoreDataRx
  rw [msg]
  dsimp only
  rw [Work.unbox_restOf, rest]
  dsimp only
  rw [first, if_pos (show ([] : List RestCopy).isEmpty = true from rfl), Work.unbox_shardRange, range, hoff]
  exact if_pos fits

/-- The shard that an answer concerns is one of its restore's. -/
theorem Dev.restOf_mem {w : Dev} {n i : Nat} (rest : w.restOf n i = some (x, u)) : ∃ r, w.restore? x = some r ∧ u ∈ r.shards := by
  unfold Dev.restOf at rest
  dsimp only at rest
  split at rest
  · next r found =>
    obtain ⟨t, ht, e⟩ := Option.map_eq_some_iff.mp rest
    cases e
    exact ⟨r, found, List.mem_of_find?_eq_some ht⟩
  · cases rest

theorem Work.mapRest_answers {f : RestShard → RestShard} (rest : ∃ r, w.restore? x = some r ∧ u ∈ r.shards) (key : (f u).s = u.s)
    (answers : (f u).answered = true) : (w.mapRest x u.s f).Answered x u.s (f u).copies.length := by
  obtain ⟨r, found, hu⟩ := rest
  refine ⟨_, Work.mapRest_restore? found, _, List.mem_map.mpr ⟨u, hu, rfl⟩, ?_⟩
  rw [if_pos rfl]
  exact ⟨key, answers, rfl⟩

/-- An answer that the record takes stands when the shards that are left have been asked for. -/
theorem Work.mapRest_asked {f : RestShard → RestShard} (rest : w.restOf m.n (bits m.key 0 32) = some (x, u)) (key : (f u).s = u.s)
    (answers : (f u).answered = true) : (∀ n, (((w.unbox id).mapRest x u.s f).restoreAsk x 17).get n = w.get n) ∧
      (((w.unbox id).mapRest x u.s f).restoreAsk x 17).Answered x u.s (f u).copies.length := by
  obtain ⟨get, answered, _⟩ := ((w.unbox id).mapRest x u.s f).restoreAsk_keeps x 17
  exact ⟨get, answered _ _ (Work.mapRest_answers (w := w.unbox id) (Dev.restOf_mem (w := w.toDev) rest) key answers)⟩

theorem opPairingRestoreHdrRx_answers (msg : w.pairMsg id 3 = some m) (rest : w.restOf m.n (bits m.key 0 32) = some (x, u)) :
    (∀ n, (opPairingRestoreHdrRx id w).get n = w.get n) ∧ (opPairingRestoreHdrRx id w).Answered x u.s (u.copies.length + 1) := by
  have takes : ∃ copy, opPairingRestoreHdrRx id w =
      ((w.unbox id).mapRest x u.s (fun t => { t with answered := true, copies := t.copies ++ [copy], parts := [] })).restoreAsk x 17 := by
    unfold opPairingRestoreHdrRx
    rw [msg]
    dsimp only
    rw [Work.unbox_restOf, rest]
    exact ⟨_, rfl⟩
  obtain ⟨copy, e⟩ := takes
  have stands := Work.mapRest_asked (id := id) (f := fun t => { t with answered := true, copies := t.copies ++ [copy], parts := [] }) rest rfl rfl
  rw [List.length_append] at stands
  rw [e]
  exact stands

theorem opPairingRestoreNoneRx_answers (msg : w.pairMsg id 5 = some m) (rest : w.restOf m.n (bits m.key 0 32) = some (x, u)) :
    (∀ n, (opPairingRestoreNoneRx id w).get n = w.get n) ∧ (opPairingRestoreNoneRx id w).Answered x u.s u.copies.length := by
  unfold opPairingRestoreNoneRx
  rw [msg]
  dsimp only
  rw [Work.unbox_restOf, rest]
  exact Work.mapRest_asked (f := fun t => { t with answered := true }) rest rfl rfl

/-- A shard's answer as the statement reads it. -/
theorem Dev.Answered.any {w : Dev} {s c : Nat} (h : w.Answered x s c) :
    (w.restore? x).any (fun r => r.shards.any (fun v => v.s == s && v.answered && v.copies.length == c)) = true := by
  obtain ⟨r, found, v, hv, key, answered, copies⟩ := h
  rw [found]
  exact List.any_eq_true.mpr ⟨v, hv, by simp [key, answered, copies]⟩

theorem Dev.Answered.any_answered {w : Dev} {s c : Nat} (h : w.Answered x s c) :
    (w.restore? x).any (fun r => r.shards.any (fun v => v.s == s && v.answered)) = true := by
  obtain ⟨r, found, v, hv, key, answered, copies⟩ := h
  rw [found]
  exact List.any_eq_true.mpr ⟨v, hv, by simp [key, answered]⟩

theorem opRestoreDone_ends {x : Fin 16} {r : Restore} (found : w.restore? x = some r) (ready : r.ready = true)
    (all : r.shards.any (fun u => !u.answered || !u.parts.isEmpty) = false)
    (none_ : w.net.inbox.any (fun m => m.key / 2 ^ 48 == 0xFFE0 && w.lctx m.n == x.val && decide (3 ≤ bits m.key 44 4)) = false) :
    (opRestoreDone x w).restore? x = none ∧ (opRestoreDone x w).get (Obj.restoreState x) = 3 := by
  unfold opRestoreDone
  dsimp only
  rw [found]
  dsimp only
  rw [none_, all, ready, if_neg (by decide)]
  refine ⟨List.find?_eq_none.mpr (fun q hq => ?_), Work.put_get_same _ _ _⟩
  have other : q.ctx ≠ x := bne_iff_ne.mp (List.mem_filter.mp hq).2
  exact fun h => other (beq_iff_eq.mp h)

end

theorem restOf_work (s : State) (n i : Nat) : s.work.restOf n i = s.restOf n i := by
  unfold Dev.restOf
  rw [s.counted_work.lctx]
  rfl

/-- Settles O43: the rules of the requester, each from what its answer leaves of the restore's record. -/
theorem restoresRun : Obligations.RestoresRun := by
  unfold Obligations.RestoresRun
  refine ⟨fun wr x mask s takes => ⟨fun runs => ?_, fun idle commit => ?_⟩, fun id a off x m u s msg rest first range hoff fits mem => ?_,
    fun id x m u s rest => ⟨fun msg => ?_, fun msg => ?_⟩, fun x r s found ready all none_ sound => ?_⟩
  · have e := opRestoreReq_refused (w := s.work) (mask := mask) takes.1 takes.2 runs
    refine ⟨_, exec_leave (i := .restoreReq wr x mask) e rfl, s.sameMem_leave _, Work.put_get_same _ _ _, fun n hn => ?_⟩
    exact Work.put_get_other _ _ (fun e => hn (List.mem_singleton.mpr e))
  · obtain ⟨some_, state⟩ := opRestoreReq_holds (w := s.work) (mask := mask) takes.1 takes.2 idle commit
    exact ⟨_, exec_quiet (i := .restoreReq wr x mask) (opRestoreReq_out wr x mask s.work), s.sameMem_leave _, some_, state⟩
  · have rest' : s.work.restOf m.n (bits m.key 0 32) = some (x, u) := (restOf_work s _ _).trans rest
    have e := opPairingRestoreDataRx_lands (w := s.work) msg rest' first range hoff.symm fits
    have out : (opPairingRestoreDataRx id s.work).out = (s.work.write (a + off) m.data).out :=
      (congrArg Work.out e).trans ((Work.engWrite_out _ _ _ _).trans (Work.write_out_congr (w := s.work) (w' := s.work.unbox id) rfl _ _))
    have sound : (opPairingRestoreDataRx id s.work).Sound := by
      intro y hy
      rw [out] at hy
      exact Work.write_sound s.work_sound mem y hy
    refine ⟨_, exec_sound (i := .pairingRestoreDataRx id) sound, fun k hk => ?_, fun b hb => ?_⟩
    · rw [State.after_byte (f := Machine.work (.pairingRestoreDataRx id)) out, if_pos ⟨by omega, by omega⟩, Nat.add_sub_cancel_left]
    · rw [State.after_byte (f := Machine.work (.pairingRestoreDataRx id)) out, if_neg (by omega)]
  · have rest' : s.work.restOf m.n (bits m.key 0 32) = some (x, u) := (restOf_work s _ _).trans rest
    obtain ⟨get, answered⟩ := opPairingRestoreHdrRx_answers (w := s.work) msg rest'
    exact ⟨_, exec_quiet (i := .pairingRestoreHdrRx id) (opPairingRestoreHdrRx_out id s.work), s.sameMem_leave _, fun n _ => get n, answered.any⟩
  · have rest' : s.work.restOf m.n (bits m.key 0 32) = some (x, u) := (restOf_work s _ _).trans rest
    obtain ⟨get, answered⟩ := opPairingRestoreNoneRx_answers (w := s.work) msg rest'
    exact ⟨_, exec_quiet (i := .pairingRestoreNoneRx id) (opPairingRestoreNoneRx_out id s.work), s.sameMem_leave _, fun n _ => get n,
      answered.any_answered⟩
  · have none' : s.work.net.inbox.any (fun m => m.key / 2 ^ 48 == 0xFFE0 && s.work.lctx m.n == x.val && decide (3 ≤ bits m.key 44 4)) = false := by
      simp only [s.counted_work.lctx]
      exact none_
    obtain ⟨gone, state⟩ := opRestoreDone_ends (w := s.work) found ready all none'
    refine ⟨_, exec_sound (i := .restoreDone x) sound, ?_, (State.after_get _ _ _).trans state⟩
    unfold Dev.restore?
    rw [State.after_pair]
    exact gone

end Sys2Proof.Machine

namespace Sys2Proof.Machine

/-! ### What leaves the objects below the prefetch buffers alone

The objects of areas 2 to 5 whose numbers are below those of the prefetch buffers: of queues, cores, memory and streams. Growth of
sequences, bindings, counters, fills and the log unit change none of them. -/

/-- The values of those objects. -/
def Dev.low (w : Dev) : Nat → Nat := fun n => if 0x200000 ≤ n ∧ n < 0x540000 then w.get n else 0

/-- An object outside them. -/
def High (n : Nat) : Prop := n < 0x200000 ∨ 0x540000 ≤ n

theorem Dev.get_of_low {w w' : Dev} (h : w'.low = w.low) {n : Nat} (from_ : 0x200000 ≤ n) (below : n < 0x540000) : w'.get n = w.get n := by
  have e := congrFun h n
  unfold Dev.low at e
  rwa [if_pos ⟨from_, below⟩, if_pos ⟨from_, below⟩] at e

theorem Dev.low_of_get {w w' : Dev} (h : ∀ n, ¬ High n → w'.get n = w.get n) : w'.low = w.low := by
  funext n
  unfold Dev.low
  split
  · exact h n (by unfold High; omega)
  · rfl

@[simp] theorem Work.put_low {n : Nat} (h : High n) (v : Nat) (w : Work) : (w.put n v).low = w.low :=
  Dev.low_of_get (fun _ hm => Work.put_get_other _ _ (fun e => hm (e ▸ h)))

@[simp] theorem Work.bump_low {n : Nat} (h : High n) (k : Nat) (w : Work) : (w.bump n k).low = w.low := Work.put_low h _ w

@[simp] theorem high_arenaBase : High Obj.arenaBase := by
  unfold High Obj.arenaBase
  omega

@[simp] theorem high_arenaCommit : High Obj.arenaCommit := by
  unfold High Obj.arenaCommit
  omega

@[simp] theorem high_arenaFree : High Obj.arenaFree := by
  unfold High Obj.arenaFree
  omega

@[simp] theorem high_arenaLen : High Obj.arenaLen := by
  unfold High Obj.arenaLen
  omega

@[simp] theorem high_bindCount (s : Nat) : High (Obj.bindCount s) := by
  unfold High Obj.bindCount
  omega

@[simp] theorem high_blocksSpilled (s : Nat) : High (Obj.blocksSpilled s) := by
  unfold High Obj.blocksSpilled
  omega

@[simp] theorem high_addHoldA (s : Nat) : High (Obj.addHoldA s) := by
  unfold High Obj.addHoldA
  omega

@[simp] theorem high_addHoldB (s : Nat) : High (Obj.addHoldB s) := by
  unfold High Obj.addHoldB
  omega

@[simp] theorem high_partBaseP (s : Nat) (p : Nat) : High (Obj.partBaseP s p) := by
  unfold High Obj.partBaseP
  omega

@[simp] theorem high_partLenP (s : Nat) (p : Nat) : High (Obj.partLenP s p) := by
  unfold High Obj.partLenP
  omega

@[simp] theorem high_pbCreditsFree (s : Nat) : High (Obj.pbCreditsFree s) := by
  unfold High Obj.pbCreditsFree
  omega

@[simp] theorem high_pbFill (s : Nat) : High (Obj.pbFill s) := by
  unfold High Obj.pbFill
  omega

@[simp] theorem high_pbWaitNs (s : Nat) : High (Obj.pbWaitNs s) := by
  unfold High Obj.pbWaitNs
  omega

@[simp] theorem high_restoreState (s : Nat) : High (Obj.restoreState s) := by
  unfold High Obj.restoreState
  omega

@[simp] theorem high_seqEvictedCount (s : Nat) : High (Obj.seqEvictedCount s) := by
  unfold High Obj.seqEvictedCount
  omega

@[simp] theorem high_slotCommit (s : Nat) : High (Obj.slotCommit s) := by
  unfold High Obj.slotCommit
  omega

@[simp] theorem high_slotState (s : Nat) : High (Obj.slotState s) := by
  unfold High Obj.slotState
  omega

theorem high_of_log {n : Nat} (h : n ∈ Obj.clampCount :: logObjs) : High n := by
  simp only [Obj.clampCount, logObjs, Obj.logNextSeq, Obj.logOldestSeq, Obj.logDropped, Obj.notifyLost, Obj.mgmtTxFrames, List.mem_cons,
    List.not_mem_nil, or_false] at h
  unfold High
  omega

theorem Work.Clamps.low {w w' : Work} (h : w.Clamps w') : w'.low = w.low := Dev.low_of_get (fun n hn => h.get n (fun m => hn (high_of_log m)))

@[simp] theorem Work.event_low (code ctx source detail : Nat) (w : Work) : (w.event code ctx source detail).low = w.low :=
  Dev.low_of_get (fun _ hn => Work.event_get _ _ _ _ _ (fun m => hn (high_of_log (List.mem_cons_of_mem _ m))))

@[simp] theorem Work.clampTo_low (wr : Writer) (num written held : Nat) (w : Work) : (w.clampTo wr num written held).low = w.low :=
  (Work.clamps_clampTo _ _ _ _ w).low

/-- A group of objects outside them comes into force. -/
theorem Work.groupToActive_low {sc : List Nat} (h : ∀ n ∈ sc, High n) (bl : List Nat) (w : Work) : (w.groupToActive sc bl).low = w.low :=
  Dev.low_of_get (fun n hn => (Work.groupToActive_get sc bl w n).trans (if_neg (fun m => hn (h n m))))

@[simp] theorem Work.fixObj_low {n : Nat} (h : High n) (v : Nat) (w : Work) : (w.fixObj n v).low = w.low :=
  (Work.put_low h v _).trans (Work.clampTo_low _ _ _ _ w)

@[simp] theorem Work.ite_low (c : Prop) [Decidable c] (a b : Work) :
    (if c then a else b).low = if c then a.low else b.low := by
  split <;> rfl

@[simp] theorem foldl_low {α : Type} (f : Work → α → Work) (h : ∀ w a, (f w a).low = w.low) (l : List α) (w : Work) :
    (l.foldl f w).low = w.low :=
  List.foldlRecOn l f (motive := fun w' => w'.low = w.low) rfl (fun w' same a _ => (h w' a).trans same)

@[simp] theorem foldl_snd_low {α β : Type} (f : β × Work → α → β × Work) (h : ∀ p a, (f p a).2.low = p.2.low) (l : List α)
    (p : β × Work) : (l.foldl f p).2.low = p.2.low :=
  List.foldlRecOn l f (motive := fun p' => p'.2.low = p.2.low) rfl (fun p' same a _ => (h p' a).trans same)

@[simp] theorem foldl_fst_low {α β : Type} (f : Work × β → α → Work × β) (h : ∀ p a, (f p a).1.low = p.1.low) (l : List α)
    (p : Work × β) : (l.foldl f p).1.low = p.1.low :=
  List.foldlRecOn l f (motive := fun p' => p'.1.low = p.1.low) rfl (fun p' same a _ => (h p' a).trans same)

@[simp] theorem forUpto_low (f : Nat → Work → Work) (h : ∀ i w, (f i w).low = w.low) (n : Nat) (w : Work) :
    (forUpto f n w).low = w.low := by
  induction n with
  | zero => rfl
  | succ n ih => exact (h n _).trans ih

theorem iter_low (f : Work → Work) (h : ∀ w, (f w).low = w.low) (n : Nat) (w : Work) : (iter f n w).low = w.low := by
  induction n generalizing w with
  | zero => rfl
  | succ n ih => exact (ih _).trans (h w)

@[simp] theorem Work.setNet_low (f : NetState → NetState) (w : Work) : (w.setNet f).low = w.low := by rfl

@[simp] theorem Work.write_low (a : Nat) (d : List Byte) (w : Work) : (Work.write a d w).low = w.low := by
  unfold Work.write
  split <;> simp

@[simp] theorem Work.setBlobs_low (c : Copy) (m : List (Nat × Nat)) (w : Work) : (w.setBlobs c m).low = w.low := by
  cases c <;> rfl

@[simp] theorem Work.blobPut_low (c : Copy) (n : Nat) (off : Nat) (v : Nat) (len : Nat) (w : Work) : (Work.blobPut c n off v len w).low =
    w.low := by
  unfold Work.blobPut
  simp

@[simp] theorem Work.blobCopy_low (src : Copy) (dst : Copy) (n : Nat) (w : Work) : (Work.blobCopy src dst n w).low = w.low := by
  unfold Work.blobCopy
  simp

theorem high_slotGroup (s : Nat) : ∀ n ∈ slotGroup s, High n := by
  intro n hn
  obtain ⟨p, _, hp⟩ := List.mem_flatMap.mp hn
  simp only [List.mem_cons, List.not_mem_nil, or_false] at hp
  rcases hp with rfl | rfl
  · exact high_partBaseP s p
  · exact high_partLenP s p

@[simp] theorem Work.slotApply_low (s : Nat) (w : Work) : (w.slotApply s).low = w.low := by
  unfold Work.slotApply
  extract_lets st w1 fix w2 w3 w4
  have h1 : w1.low = w.low := Work.groupToActive_low (high_slotGroup s) [] w
  have h2 : w2.low = w1.low := forUpto_frame (fun w : Work => w.low) (fun p w =>
    (Work.fixObj_low (high_partLenP s p) _ _).trans (Work.fixObj_low (high_partBaseP s p) _ w)) 4 w1
  have h3 : w3.low = w2.low := forUpto_frame (fun w : Work => w.low) (fun p w => by
    split
    · exact Work.fixObj_low (high_partLenP s p) 0 w
    · rfl) 4 w2
  have h4 : w4.low = w3.low := forUpto_frame (fun w : Work => w.low) (fun p w => by
    dsimp only
    split
    · exact Work.fixObj_low (high_partLenP s p) 0 w
    · rfl) 4 w3
  split
  · rfl
  · exact (Work.put_low (high_slotCommit s) 0 w4).trans (h4.trans (h3.trans (h2.trans h1)))

@[simp] theorem high_addHold (x a : Nat) : High (addHold x a) := by
  unfold addHold
  split
  · exact high_addHoldA x
  · exact high_addHoldB x

@[simp] theorem Work.holdAdd_low (x : Nat) (a : Option Nat) (w : Work) : (Work.holdAdd x a w).low = w.low := by
  unfold Work.holdAdd
  split <;> simp

@[simp] theorem Work.setPats_low (l : List Pattern) (w : Work) : (Work.setPats l w).low = w.low := by rfl

@[simp] theorem Work.holdSlot_low (s : Option Nat) (w : Work) : (Work.holdSlot s w).low = w.low := by
  unfold Work.holdSlot
  split <;> simp

@[simp] theorem Work.writeNat_low (a : Nat) (v : Nat) (n : Nat) (w : Work) : (Work.writeNat a v n w).low = w.low := by
  unfold Work.writeNat
  simp

@[simp] theorem Work.arenaApply_low (w : Work) : w.arenaApply.low = w.low := by
  unfold Work.arenaApply
  split
  · rfl
  · extract_lets w1 fix w2 w3 b ok inside w4
    have h1 : w1.low = w.low := Work.groupToActive_low (by simp) [] w
    have h2 : w2.low = w1.low := Work.fixObj_low high_arenaBase _ w1
    have h3 : w3.low = w2.low := Work.fixObj_low high_arenaLen _ w2
    have h4 : w4.low = w3.low := by
      unfold w4
      split
      · rfl
      · exact Work.fixObj_low high_arenaLen 0 w3
    exact (Work.put_low high_arenaFree _ _).trans ((Work.put_low high_arenaCommit 0 w4).trans (h4.trans (h3.trans (h2.trans h1))))

@[simp] theorem Work.setArena_low (f : ArenaState → ArenaState) (w : Work) : (Work.setArena f w).low = w.low := by rfl

@[simp] theorem Work.setPair_low (f : PairState → PairState) (w : Work) : (Work.setPair f w).low = w.low := by rfl

@[simp] theorem Work.slotQuiet_low (s : Nat) (w : Work) : (Work.slotQuiet s w).low = w.low := by
  unfold Work.slotQuiet
  dsimp only
  (repeat' split) <;> simp [*]

@[simp] theorem Work.setStreams_low (l : List Stream) (w : Work) : (Work.setStreams l w).low = w.low := by rfl

@[simp] theorem Work.queueMsg_low (m : TxMsg) (w : Work) : (Work.queueMsg m w).low = w.low := by rfl

@[simp] theorem Work.putStream_low (t : Stream) (w : Work) : (Work.putStream t w).low = w.low := by rfl

@[simp] theorem Work.seqSync_low (x q : Nat) (w : Work) : (w.seqSync x q).low = w.low := by
  unfold Work.seqSync
  simp

@[simp] theorem Work.putSeq_low (x q : Nat) (v : Option SeqSt) (w : Work) : (w.putSeq x q v).low = w.low := by
  unfold Work.putSeq
  simp

@[simp] theorem Work.blockEntry_low (x : Nat) (q : Nat) (n : Nat) (v : Nat) (w : Work) : (Work.blockEntry x q n v w).low = w.low := by
  unfold Work.blockEntry
  split <;> simp

@[simp] theorem Work.takeBlocks_low (x : Nat) (q : Nat) (k : Nat) (w : Work) : (Work.takeBlocks x q k w).low = w.low := by
  unfold Work.takeBlocks
  split <;> simp

@[simp] theorem Work.freeSeq_low (x : Nat) (q : Nat) (w : Work) : (Work.freeSeq x q w).low = w.low := by
  unfold Work.freeSeq
  split <;> simp

@[simp] theorem Work.setFills_low (l : List Fill) (w : Work) : (Work.setFills l w).low = w.low := by rfl

@[simp] theorem Work.mapFill_low (id : Nat) (f : Fill → Fill) (w : Work) : (Work.mapFill id f w).low = w.low := by rfl

@[simp] theorem Work.freeHeld_low (b n : Nat) (w : Work) : (w.freeHeld b n).low = w.low := by
  unfold Work.freeHeld
  exact Work.put_low (high_pbCreditsFree b) _ _

@[simp] theorem Work.issueFill_low (id : Nat) (v1 : Nat) (v2 : Work) : (Work.issueFill id v1 v2).low = v2.low := by
  induction v1 generalizing v2 with
  | zero => rfl
  | succ k ih =>
    unfold Work.issueFill
    (repeat' split) <;> simp [*]

@[simp] theorem Work.issueBuffer_low (b : Nat) (w : Work) : (Work.issueBuffer b w).low = w.low := by
  unfold Work.issueBuffer
  simp [*]

@[simp] theorem Work.passFill_low (id : Nat) (w : Work) : (Work.passFill id w).low = w.low := by
  unfold Work.passFill
  dsimp only
  (repeat' split) <;> simp [*]

@[simp] theorem Work.passFills_low (x : Nat) (w : Work) : (Work.passFills x w).low = w.low := by
  unfold Work.passFills
  simp [*]

@[simp] theorem Work.evtPut_low (x n v : Nat) (w : Work) : (w.evtPut x n v).low = w.low := by
  unfold Work.evtPut
  exact (Work.passFills_low _ _).trans (Work.blobPut_low _ _ _ _ _ _)

@[simp] theorem Work.evtAdd_low (x : Nat) (n : Nat) (k : Nat) (w : Work) : (Work.evtAdd x n k w).low = w.low := by
  unfold Work.evtAdd
  simp

@[simp] theorem Work.setGrow_low (g : Option Grow) (w : Work) : (Work.setGrow g w).low = w.low := by rfl

@[simp] theorem Work.growEnd_low (g : Grow) (w : Work) : (Work.growEnd g w).low = w.low := by
  unfold Work.growEnd
  simp

@[simp] theorem Work.spillBlock_low (x : Nat) (q : Nat) (w : Work) : (Work.spillBlock x q w).low = w.low := by
  unfold Work.spillBlock
  dsimp only
  (repeat' split) <;> simp [*]

@[simp] theorem Work.spillMany_low (g : Grow) (x : Nat) (v2 : Nat) (v3 : Nat) (v4 : Work) : (Work.spillMany g x v2 v3 v4).2.low = v4.low := by
  induction v2 generalizing v3 v4 with
  | zero => rfl
  | succ k ih =>
    unfold Work.spillMany
    (repeat' split) <;> simp [*]

@[simp] theorem Work.growGo_low (v0 : Nat) (v1 : Work) : (Work.growGo v0 v1).low = v1.low := by
  induction v0 generalizing v1 with
  | zero => rfl
  | succ k ih =>
    unfold Work.growGo
    dsimp only
    (repeat' split) <;> simp [*]

@[simp] theorem Work.growStep_low (w : Work) : (Work.growStep w).low = w.low := by
  unfold Work.growStep
  split <;> simp

@[simp] theorem Work.mapRestore_low (x : Nat) (f : Restore → Restore) (w : Work) : (Work.mapRestore x f w).low = w.low := by rfl

@[simp] theorem Work.mapRest_low (x : Nat) (s : Nat) (f : RestShard → RestShard) (w : Work) : (Work.mapRest x s f w).low = w.low := by rfl

@[simp] theorem Work.restoreAsk_low (x : Nat) (v1 : Nat) (v2 : Work) : (Work.restoreAsk x v1 v2).low = v2.low := by
  induction v1 generalizing v2 with
  | zero => rfl
  | succ k ih =>
    unfold Work.restoreAsk
    (repeat' split) <;> simp [*]

@[simp] theorem Work.restoreStep_low (x : Nat) (w : Work) : (Work.restoreStep x w).low = w.low := by
  unfold Work.restoreStep
  (repeat' split) <;> simp [*]

@[simp] theorem Work.dropSlot_low (s : Option Nat) (w : Work) : (Work.dropSlot s w).low = w.low := by
  unfold Work.dropSlot
  dsimp only
  (repeat' split) <;> simp [*]

@[simp] theorem Work.dropAdd_low (x : Nat) (a : Option Nat) (w : Work) : (Work.dropAdd x a w).low = w.low := by
  unfold Work.dropAdd
  split <;> simp

@[simp] theorem Work.dropFill_low (id : Nat) (w : Work) : (Work.dropFill id w).low = w.low := by rfl


/-! ### A BLOB copied whole -/

section
variable {α : Type} [DecidableEq α] {d : Nat → α}

/-- All entries that a store holds under a key agree with what the key reads. -/
def Store.Single (d : Nat → α) (m : List (Nat × α)) (k : Nat) : Prop := ∀ p ∈ m, p.1 = k → p.2 = Store.get d m k

theorem Store.single_set_same (m : List (Nat × α)) (k : Nat) (v : α) : Store.Single d (Store.set d m k v) k := by
  intro p hp hk
  rw [Store.get_set_same]
  unfold Store.set at hp
  split at hp
  · exact absurd hk (Store.mem_erase k m p hp)
  · rcases Store.mem_insert k v _ p hp with rfl | hp
    · rfl
    · exact absurd hk (Store.mem_erase k m p hp)

theorem Store.single_set_other {m : List (Nat × α)} {j k : Nat} (v : α) (h : j ≠ k) (single : Store.Single d m j) :
    Store.Single d (Store.set d m k v) j := by
  intro p hp hj
  rw [Store.get_set_other m v h]
  unfold Store.set at hp
  split at hp
  · exact single p (List.mem_filter.mp hp).1 hj
  · rcases Store.mem_insert k v _ p hp with rfl | hp
    · exact absurd hj.symm h
    · exact single p (List.mem_filter.mp hp).1 hj

omit [DecidableEq α] in
/-- A key without an entry reads its default. -/
theorem Store.get_of_absent {m : List (Nat × α)} {k : Nat} (h : ∀ p ∈ m, p.1 ≠ k) : Store.get d m k = d k := by
  induction m with
  | nil => rfl
  | cons p r ih =>
    exact (if_neg (h p List.mem_cons_self)).trans (ih (fun q hq => h q (List.mem_cons_of_mem _ hq)))

/-- Entries written one after the other leave a key its value, where all that name the key agree and one names it or it had the value. -/
theorem Store.get_foldl_set {l keep : List (Nat × α)} {k : Nat} {v : α} (agree : ∀ p ∈ l, p.1 = k → p.2 = v)
    (named : (∃ p ∈ l, p.1 = k) ∨ Store.get d keep k = v) :
    Store.get d (l.foldl (fun m p => Store.set d m p.1 p.2) keep) k = v := by
  induction l generalizing keep with
  | nil => exact named.resolve_left (fun ⟨_, hp, _⟩ => nomatch hp)
  | cons p r ih =>
    refine ih (fun q hq => agree q (List.mem_cons_of_mem _ hq)) ?_
    by_cases hk : p.1 = k
    · exact .inr (by rw [← agree p List.mem_cons_self hk, ← hk]; exact Store.get_set_same _ _ _)
    · rcases named with ⟨q, hq, e⟩ | held
      · rcases List.mem_cons.mp hq with rfl | hq
        · exact absurd e hk
        · exact .inl ⟨q, hq, e⟩
      · exact .inr ((Store.get_set_other _ _ (Ne.symm hk)).trans held)
end

/-- A number written to a BLOB leaves single entries under its bytes' keys. -/
theorem blobWrite_single {m : List (Nat × Nat)} {n off v len k : Nat}
    (h : (blobKey n off ≤ k ∧ k < blobKey n off + len) ∨ Store.Single blobDefault m k) :
    Store.Single blobDefault (blobWrite m n off v len) k := by
  induction len generalizing m off v with
  | zero => exact h.resolve_left (by omega)
  | succ len ih =>
    have next : blobKey n (off + 1) = blobKey n off + 1 := by
      unfold blobKey
      omega
    rw [blobWrite]
    refine ih ?_
    by_cases first : k = blobKey n off
    · exact .inr (first ▸ Store.single_set_same _ _ _)
    · rcases h with h | single
      · exact .inl (by omega)
      · exact .inr (Store.single_set_other _ first single)

theorem Work.blobPut_blobs (c : Copy) (n off v len : Nat) (w : Work) : (w.blobPut c n off v len).blobs c = blobWrite (w.blobs c) n off v len := by
  cases c <;> rfl

theorem Dev.blobs_put (c : Copy) (n v : Nat) (w : Work) : (w.put n v).blobs c = w.blobs c := by
  cases c <;> rfl

theorem Work.setBlobs_blobs (c : Copy) (m : List (Nat × Nat)) (w : Work) : (w.setBlobs c m).blobs c = m := by
  cases c <;> rfl

/-- A BLOB copied whole reads as its source. -/
theorem Work.blobCopy_blobNat {src dst : Copy} {n off len : Nat} {w : Work} (fits : off + len ≤ 2 ^ 32)
    (single : ∀ o, off ≤ o → o < off + len → Store.Single blobDefault (w.blobs src) (blobKey n o)) :
    (w.blobCopy src dst n).blobNat dst n off len = w.blobNat src n off len := by
  induction len generalizing off with
  | zero => rfl
  | succ len ih =>
    have object : blobKey n off / 0x100000000 = n := by
      unfold blobKey
      omega
    have first : Store.get blobDefault ((w.blobCopy src dst n).blobs dst) (blobKey n off) = Store.get blobDefault (w.blobs src) (blobKey n off) := by
      unfold Work.blobCopy
      rw [Work.setBlobs_blobs]
      refine Store.get_foldl_set (fun p hp e => single off (Nat.le_refl _) (by omega) p (List.mem_filter.mp hp).1 e) ?_
      by_cases named : ∃ p ∈ w.blobs src, p.1 = blobKey n off
      · obtain ⟨p, hp, e⟩ := named
        exact .inl ⟨p, List.mem_filter.mpr ⟨hp, by rw [e, object]; exact beq_self_eq_true n⟩, e⟩
      · have absent : ∀ p ∈ w.blobs src, p.1 ≠ blobKey n off := fun p hp e => named ⟨p, hp, e⟩
        refine .inr ((Store.get_of_absent fun p hp e => ?_).trans (Store.get_of_absent absent).symm)
        have other := (List.mem_filter.mp hp).2
        rw [e, object] at other
        simp at other
    rw [Dev.blobNat_succ, Dev.blobNat_succ, first, ih (by omega) (fun o h1 h2 => single o (by omega) (by omega))]

/-! ### Rearming a stream (R250, R251) -/

theorem Dev.streamDesc_congr {w w' : Dev} (h : w'.blob = w.blob) (x s : Nat) : w'.streamDesc x s = w.streamDesc x s :=
  Dev.blobNat_congr (c := .active) h _ _ _

theorem Work.put_streamDesc (m v x s : Nat) (w : Work) : (w.put m v).streamDesc x s = w.streamDesc x s :=
  Dev.streamDesc_congr (w := w.toDev) (w' := (w.put m v).toDev) rfl x s

theorem Work.takeover_null {x s : Nat} {w : Work} (null : sKind ((w.blobCopy .pending .active (Obj.streamActive x s)).streamDesc x s) = 0) :
    w.takeover x s = ((((w.blobCopy .pending .active (Obj.streamActive x s)).put (Obj.streamXfer x s) 0).put (Obj.streamPending x s) 0).put
      (Obj.streamState x s) 0).putStream ⟨x, s, none, false, none⟩ := by
  have same : (((w.blobCopy .pending .active (Obj.streamActive x s)).put (Obj.streamXfer x s) 0).put (Obj.streamPending x s) 0).streamDesc x s =
      (w.blobCopy .pending .active (Obj.streamActive x s)).streamDesc x s := (Work.put_streamDesc _ _ _ _ _).trans (Work.put_streamDesc _ _ _ _ _)
  unfold Work.takeover
  dsimp only
  rw [if_pos ((congrArg sKind same).trans null)]

/-- The first byte of a number gives its kind. -/
theorem sKind_mod (d k : Nat) : sKind (d % 256 ^ (k + 1)) = sKind d := by
  unfold sKind bits
  rw [Nat.shiftRight_zero, Nat.shiftRight_zero, Nat.mod_mod_of_dvd]
  exact Nat.dvd_trans (by decide : 2 ^ 2 ∣ 256) ⟨256 ^ k, (Nat.pow_succ ..).trans (Nat.mul_comm ..)⟩

/-- The work of STREAM_REARM before a takeover. -/
def Work.rearmed (x n : Nat) (w : Work) : Work :=
  ((if w.get (Obj.streamPending x n) = 1 then w.bump (Obj.rearmCollapsed x) 1 else w).blobPut .pending (Obj.streamActive x n) 0
    ((if w.get (Obj.streamPending x n) = 1 then w.bump (Obj.rearmCollapsed x) 1 else w).blobNat .active (Obj.streamShadow x n) 0 64) 64).put
    (Obj.streamPending x n) 1

theorem opStreamRearm_rearms {wr : Writer} {x : Fin 16} {n : Fin 8} {w : Work} (serves : w.serves wr (Obj.streamRearm x n) = true)
    (reaches : w.reaches wr (.own x) = true) :
    opStreamRearm wr x n w = if (w.rearmed x n).get (Obj.streamState x n) = 2 then w.rearmed x n else (w.rearmed x n).takeover x n :=
  Work.gated_takes _ _ _ _ _ serves reaches

theorem Work.rearmed_out (x n : Nat) (w : Work) : (w.rearmed x n).out = w.out := by
  unfold Work.rearmed
  split <;> rfl

theorem Work.rearmed_get {x n m : Nat} (w : Work) (h : m ≠ Obj.streamPending x n) :
    (w.rearmed x n).get m = if w.get (Obj.streamPending x n) = 1 then (w.bump (Obj.rearmCollapsed x) 1).get m else w.get m := by
  unfold Work.rearmed
  rw [Work.put_get_other _ _ h]
  split <;> rfl

theorem Work.rearmed_state (x n : Nat) (w : Work) : (w.rearmed x n).get (Obj.streamState x n) = w.get (Obj.streamState x n) := by
  rw [Work.rearmed_get w (by unfold Obj.streamState Obj.streamPending; omega)]
  split
  · exact Work.bump_get_other _ _ (by unfold Obj.streamState Obj.rearmCollapsed; omega)
  · rfl

theorem Work.rearmed_collapsed (x n : Nat) (w : Work) : (w.rearmed x n).get (Obj.rearmCollapsed x) =
    if w.get (Obj.streamPending x n) = 1 then min (w.get (Obj.rearmCollapsed x) + 1) (maxU 64) else w.get (Obj.rearmCollapsed x) := by
  rw [Work.rearmed_get w (by unfold Obj.rearmCollapsed Obj.streamPending; omega)]
  split
  · exact Work.bump_get_same _ _ _
  · rfl

/-- The descriptor that a takeover finds is the shadow's. -/
theorem Work.rearmed_desc {x n : Nat} (w : Work) :
    sKind (((w.rearmed x n).blobCopy .pending .active (Obj.streamActive x n)).streamDesc x n) =
      sKind (w.blobNat .active (Obj.streamShadow x n) 0 64) := by
  obtain ⟨v, shadow⟩ : ∃ v, v = w.blobNat .active (Obj.streamShadow x n) 0 64 := ⟨_, rfl⟩
  have same : (if w.get (Obj.streamPending x n) = 1 then w.bump (Obj.rearmCollapsed x) 1 else w).blobNat .active (Obj.streamShadow x n) 0 64 = v :=
    (Dev.blobNat_congr (c := .active) (by split <;> rfl) _ _ _).trans shadow.symm
  have written : ∃ m, (w.rearmed x n).blobs .pending = blobWrite m (Obj.streamActive x n) 0 v 64 := by
    unfold Work.rearmed
    rw [same]
    exact ⟨_, (Dev.blobs_put _ _ _ _).trans (Work.blobPut_blobs _ _ _ _ _ _)⟩
  obtain ⟨m, written⟩ := written
  have copied := Work.blobCopy_blobNat (src := .pending) (dst := .active) (n := Obj.streamActive x n) (off := 0) (len := 64) (w := w.rearmed x n)
    (by omega) (fun o _ below => by
      rw [written]
      exact blobWrite_single (.inl (by unfold blobKey; omega)))
  rw [Dev.streamDesc, copied, Dev.blobNat_blobWrite written, ← shadow]
  exact sKind_mod v 63

/-! ### Triggers and faults of a stream (R252) -/

theorem Work.raise_get (c v n : Nat) (w : Work) : (w.raise c v).get n = w.get n := by
  unfold Work.raise
  (repeat' split) <;> rfl

/-- A queue that halts leaves the objects of areas 3 to 14. -/
theorem Work.haltQueue_get {x q status detail n : Nat} {w : Work} (small : x < 16) (queue : q < 16) (high : 0x300000 ≤ n) (below : n < 0xF00000) :
    (w.haltQueue x q status detail).get n = w.get n := by
  have unlogged : n ∉ logObjs := not_mem_logObjs (.inr (by omega)) below
  have halted : ∀ w' : Work, (if w'.get (Obj.faultScope x) = 1 ∧ w'.get (Obj.ctxState x) = 1 then
      ((w'.put (Obj.ctxState x) 2).event 0x0205 x 0x200C (status * 2 ^ 16 + q)).raise x 5 else w').get n = w'.get n := by
    intro w'
    split
    · rw [Work.raise_get, Work.event_get _ _ _ _ _ unlogged, Work.put_get_other _ _ (by unfold Obj.ctxState; omega)]
    · rfl
  unfold Work.haltQueue
  dsimp only
  rw [halted, Work.event_get _ _ _ _ _ unlogged, Work.bump_get_other _ _ (by unfold Obj.faultCount; omega),
    Work.put_get_other _ _ (by unfold Obj.faultDetail; omega), Work.put_get_other _ _ (by unfold Obj.faultQueue; omega),
    Work.put_get_other _ _ (by unfold Obj.faultStatus; omega), Work.put_get_other _ _ (by unfold Obj.qState; omega)]

theorem Work.streamFault_state {x s : Nat} (small : x < 16) (low : s < 8) (st det : Nat) (w : Work) :
    (w.streamFault x s st det).get (Obj.streamState x s) = 4 := by
  unfold Work.streamFault Work.faultNoRecord
  have from_ : 0x300000 ≤ Obj.streamState x s := by
    unfold Obj.streamState
    omega
  have below : Obj.streamState x s < 0xF00000 := by
    unfold Obj.streamState
    omega
  dsimp only
  rw [Work.haltQueue_get small (by omega) from_ below, Work.event_get _ _ _ _ _ (not_mem_logObjs (.inr (by omega)) below)]
  exact Work.put_get_same _ _ _

@[simp] theorem Work.startFill_low (j : PfJob) (cmd stream : Option Nat) (w : Work) : (w.startFill j cmd stream).low = w.low := by
  unfold Work.startFill Work.newId
  dsimp only
  split
  · rfl
  · rw [Work.passFill_low, Work.setFills_low]
    exact Work.put_low (high_pbFill _) _ _

theorem Work.putStream_get (t : Stream) (n : Nat) (w : Work) : (w.putStream t).get n = w.get n := rfl

theorem opStreamTrigger_state {x : Fin 16} {n : Fin 8} {r : Stream} {w : Work} (found : w.stream? x n = some r)
    (armed : w.get (Obj.streamState x n) = 1) (due : r.trig.isSome = true) (active : w.get (Obj.ctxState x) = 1)
    (stays : w.spilling x = false) (up : w.instReset (w.streamInst x n (w.streamDesc x n)) = false) :
    (opStreamTrigger x n w).get (Obj.streamState x n) = 2 ∨ (opStreamTrigger x n w).get (Obj.streamState x n) = 4 := by
  unfold opStreamTrigger
  dsimp only
  rw [found]
  dsimp only
  rw [if_pos ⟨armed, due, active, stays, up⟩]
  split
  · exact .inr (Work.streamFault_state x.isLt n.isLt _ _ _)
  · refine .inl ?_
    split
    · refine (Dev.get_of_low (Work.startFill_low _ _ _ _) (by unfold Obj.streamState; omega) (by unfold Obj.streamState; omega)).trans ?_
      rw [Work.putStream_get, Work.put_get_same]
    · rw [Work.putStream_get, Work.put_get_same]

/-! ### The end of a transfer (R252) -/

theorem Work.spillStep_get {x n : Nat} {w : Work} (h : n ≠ Obj.spillState x) (from_ : 0x200000 ≤ n) (below : n < 0x540000) :
    (w.spillStep x).get n = w.get n := by
  unfold Work.spillStep
  split
  · refine (Dev.get_of_low ((Work.restoreStep_low _ _).trans (Work.growStep_low _)) from_ below).trans ?_
    exact Work.put_get_other _ _ h
  · exact Dev.get_of_low ((Work.restoreStep_low _ _).trans (Work.growStep_low _)) from_ below

theorem Work.armStream_get {x s n : Nat} (w : Work) (h : n ≠ Obj.streamState x s) : (w.armStream x s).get n = w.get n :=
  Work.put_get_other _ _ h

/-- A transfer that ends where no descriptor is pending counts. -/
theorem Work.streamNext_xfer {x s d k : Nat} {w : Work} (idle : w.get (Obj.streamPending x s) = 0) :
    (w.streamNext x s d k).get (Obj.streamXfer x s) = (k + 1) % 2 ^ 32 := by
  have apart : Obj.streamPending x s ≠ Obj.streamXfer x s := by
    unfold Obj.streamPending Obj.streamXfer
    omega
  have apart' : Obj.streamXfer x s ≠ Obj.streamState x s := by
    unfold Obj.streamState Obj.streamXfer
    omega
  unfold Work.streamNext
  dsimp only
  rw [if_neg (by rw [Work.put_get_other _ _ apart, idle]; decide)]
  split
  · exact (Work.put_get_other _ _ apart').trans (Work.put_get_same _ _ _)
  · exact (Work.armStream_get _ apart').trans (Work.put_get_same _ _ _)

theorem Work.streamRelease_get {x n : Nat} {cap : StreamCap} {w : Work} (h : n ≠ Obj.spillState x) (from_ : 0x200000 ≤ n) (below : n < 0x540000) :
    (w.streamRelease x cap).get n = w.get n :=
  (Work.spillStep_get h from_ below).trans (Dev.get_of_low ((Work.dropAdd_low _ _ _).trans (Work.dropSlot_low _ _)) from_ below)

theorem Work.streamDone_xfer {x s d k : Nat} {t : Stream} {w : Work} (small : x < 16) (low : s < 8)
    (idle : w.get (Obj.streamPending x s) = 0) : (w.streamDone x s d k t).get (Obj.streamXfer x s) = (k + 1) % 2 ^ 32 := by
  have from_ : 0x200000 ≤ Obj.streamPending x s := by
    unfold Obj.streamPending
    omega
  have below : Obj.streamPending x s < 0x540000 := by
    unfold Obj.streamPending
    omega
  have other : Obj.streamPending x s ≠ Obj.spillState x := by
    unfold Obj.streamPending Obj.spillState
    omega
  have late : ∀ (c : Prop) [Decidable c] (v : Nat) (w' : Work),
      (if c then w'.raiseMax (Obj.streamLateMaxNs x) v else w').get (Obj.streamPending x s) = w'.get (Obj.streamPending x s) := by
    intro c _ v w'
    split
    · exact Work.put_get_other _ _ (by unfold Obj.streamPending Obj.streamLateMaxNs; omega)
    · rfl
  unfold Work.streamDone
  dsimp only
  refine Work.streamNext_xfer ?_
  have added : (w.evtAdd x (sDoneEvt d) 1).get (Obj.streamPending x s) = 0 :=
    (Dev.get_of_low (Work.evtAdd_low _ _ _ _) from_ below).trans idle
  split
  · exact (Work.streamRelease_get other from_ below).trans ((late _ _ _).trans added)
  · exact (late _ _ _).trans added

theorem opStreamXferDone_counts {x : Fin 16} {n : Fin 8} {r : Stream} {p : StreamCap} {f : Fill} {w : Work}
    (found : w.stream? x n = some r) (cap : r.cap = some p) (kind : sKind (w.streamDesc x n) = 2)
    (fill : w.bob.fills.find? (fun f => f.ctx == x.val && f.stream == some n.val) = some f)
    (whole : f.chunks.all (fun c => c.whole f.base) = true) (goes : f.stopped = false) (ok : f.status = 0)
    (idle : w.get (Obj.streamPending x n) = 0) :
    (opStreamXferDone x n w).get (Obj.streamXfer x n) = (w.get (Obj.streamXfer x n) + 1) % 2 ^ 32 := by
  unfold opStreamXferDone
  dsimp only
  rw [found]
  dsimp only
  rw [cap]
  dsimp only
  rw [if_neg (by rw [kind]; decide), fill]
  dsimp only
  rw [if_pos (by rw [whole, goes]; rfl), if_neg (fun h => h ok)]
  refine Work.streamDone_xfer x.isLt n.isLt ?_
  exact (Work.bump_get_other _ _ (by unfold Obj.streamPending Obj.bobbinBytes; omega)).trans idle

/-! ### A missed deadline (R253) -/

theorem opStreamDeadlineMiss_counts {x : Fin 16} {n : Fin 8} {r : Stream} {t0 : Nat} {w : Work} (found : w.stream? x n = some r)
    (trig : r.trig = some t0) (need : sNeed (w.streamDesc x n) ≠ 0) (first : r.missed = false)
    (past : t0 + sNeed (w.streamDesc x n) ≤ w.time) :
    (opStreamDeadlineMiss x n w).get (Obj.streamMissCount x) = min (w.get (Obj.streamMissCount x) + 1) (maxU 64) := by
  have unlogged : Obj.streamMissCount x ∉ logObjs := not_mem_logObjs (.inr (by unfold Obj.streamMissCount; omega)) (by unfold Obj.streamMissCount; omega)
  unfold opStreamDeadlineMiss
  dsimp only
  rw [found]
  dsimp only
  rw [trig]
  dsimp only
  rw [if_pos ⟨need, first, past⟩]
  have counted : ∀ (code ctx source detail : Nat) (t : Stream), (((w.event code ctx source detail).bump (Obj.streamMissCount x) 1).putStream t).get
      (Obj.streamMissCount x) = min (w.get (Obj.streamMissCount x) + 1) (maxU 64) := by
    intro code ctx source detail t
    refine (Work.bump_get_same (Obj.streamMissCount x) 1 (w.event code ctx source detail)).trans ?_
    rw [Work.event_get _ _ _ _ _ unlogged]
  split
  · exact (Work.raise_get _ _ _ _).trans (counted _ _ _ _ _)
  · exact counted _ _ _ _ _

theorem opStreamDeadlineMiss_out (x : Fin 16) (n : Fin 8) (w : Work) : (opStreamDeadlineMiss x n w).out = w.out := by
  unfold opStreamDeadlineMiss
  dsimp only
  (repeat' split) <;> simp [*]

/-! ### Pack regions (R255) -/

/-- One region's turn as the staged regions come into force. -/
def Work.packStep (x r : Nat) (w : Work) : Work :=
  if w.get (Obj.packCommit x r) = 1 then (w.groupToActive (packGroup x r) []).put (Obj.packCommit x r) 0 else w

theorem packApply_packStep (x : Nat) (w : Work) : w.packApply x = forUpto (Work.packStep x) 4 w := rfl

theorem Work.packStep_getP (x r n : Nat) (w : Work) : (w.packStep x r).getP n = w.getP n := by
  unfold Work.packStep
  split
  · exact Work.groupToActive_getP _ _ _ _
  · rfl

theorem Work.packStep_get {x r n : Nat} {w : Work} (h : n ∉ packGroup x r) (h' : n ≠ Obj.packCommit x r) : (w.packStep x r).get n = w.get n := by
  unfold Work.packStep
  split
  · exact (Work.put_get_other _ _ h').trans ((Work.groupToActive_get _ _ _ _).trans (if_neg h))
  · rfl

/-- The objects of a region, its commit among them. -/
theorem packGroup_other {x r r' n : Nat} (h : n ∈ Obj.packCommit x r :: packGroup x r) (apart : r ≠ r') :
    n ∉ packGroup x r' ∧ n ≠ Obj.packCommit x r' := by
  simp only [packGroup, List.mem_cons, List.not_mem_nil, or_false, Obj.packCommit, Obj.packBase, Obj.packLen, Obj.packFmt, Obj.packS] at h ⊢
  omega

theorem Work.packStep_applies {x r : Nat} {w : Work} (pending : w.get (Obj.packCommit x r) = 1) :
    (w.packStep x r).get (Obj.packCommit x r) = 0 ∧ ∀ n ∈ packGroup x r, (w.packStep x r).get n = w.getP n := by
  unfold Work.packStep
  rw [if_pos pending]
  refine ⟨Work.put_get_same _ _ _, fun n hn => ?_⟩
  have apart : n ≠ Obj.packCommit x r := by
    simp only [packGroup, List.mem_cons, List.not_mem_nil, or_false, Obj.packBase, Obj.packLen, Obj.packFmt, Obj.packS] at hn
    unfold Obj.packCommit
    omega
  exact (Work.put_get_other _ _ apart).trans ((Work.groupToActive_get _ _ _ _).trans (if_pos hn))

theorem forUpto_packStep_getP (x n i : Nat) (w : Work) : (forUpto (Work.packStep x) i w).getP n = w.getP n := by
  induction i with
  | zero => rfl
  | succ i ih => exact (Work.packStep_getP _ _ _ _).trans ih

/-- Turns of other regions leave a region's objects. -/
theorem forUpto_packStep_before {x r i n : Nat} (h : n ∈ Obj.packCommit x r :: packGroup x r) (w : Work) (before : i ≤ r) :
    (forUpto (Work.packStep x) i w).get n = w.get n := by
  induction i with
  | zero => rfl
  | succ i ih =>
    obtain ⟨h1, h2⟩ := packGroup_other h (show r ≠ i by omega)
    exact (Work.packStep_get h1 h2).trans (ih (by omega))

theorem forUpto_packStep_applies {x r i : Nat} {w : Work} (pending : w.get (Obj.packCommit x r) = 1) (turn : r < i) :
    (forUpto (Work.packStep x) i w).get (Obj.packCommit x r) = 0 ∧
      ∀ n ∈ packGroup x r, (forUpto (Work.packStep x) i w).get n = w.getP n := by
  induction i with
  | zero => omega
  | succ i ih =>
    rcases Nat.lt_succ_iff_lt_or_eq.mp turn with before | rfl
    · obtain ⟨done, values⟩ := ih before
      have stays : ∀ n ∈ Obj.packCommit x r :: packGroup x r,
          (forUpto (Work.packStep x) (i + 1) w).get n = (forUpto (Work.packStep x) i w).get n := fun n hn =>
        Work.packStep_get (packGroup_other hn (by omega)).1 (packGroup_other hn (by omega)).2
      exact ⟨(stays _ List.mem_cons_self).trans done, fun n hn => (stays n (List.mem_cons_of_mem _ hn)).trans (values n hn)⟩
    · have due : (forUpto (Work.packStep x) r w).get (Obj.packCommit x r) = 1 :=
        (forUpto_packStep_before List.mem_cons_self w (Nat.le_refl r)).trans pending
      obtain ⟨done, values⟩ := Work.packStep_applies due
      exact ⟨done, fun n hn => (values n hn).trans (forUpto_packStep_getP _ _ _ _)⟩

theorem Work.packApply_applies {x r : Nat} {w : Work} (pending : w.get (Obj.packCommit x r) = 1) (low : r < 4) :
    (w.packApply x).get (Obj.packCommit x r) = 0 ∧ ∀ n ∈ packGroup x r, (w.packApply x).get n = w.getP n := by
  rw [packApply_packStep]
  exact forUpto_packStep_applies pending low

theorem groupToPend_bobbinIdle (sc bl : List Nat) (n v x : Nat) (w : Work) : ((w.groupToPend sc bl).put n v).bobbinIdle x = w.bobbinIdle x := by
  obtain ⟨_, _, e⟩ := w.groupToPend_rest sc bl
  rw [e]
  rfl

theorem opPackCommit_commits {wr : Writer} {x : Fin 16} {r : Fin 4} {w : Work} (serves : w.serves wr (Obj.packCommit x r) = true)
    (reaches : w.reaches wr (.own x) = true) :
    opPackCommit wr x r w = if w.bobbinIdle x = true then ((w.groupToPend (packGroup x r) []).put (Obj.packCommit x r) 1).packApply x
      else (w.groupToPend (packGroup x r) []).put (Obj.packCommit x r) 1 := by
  refine (Work.gated_takes _ _ _ _ _ serves reaches).trans ?_
  dsimp only
  rw [groupToPend_bobbinIdle]

theorem State.work_streamDesc (s : State) (x n : Nat) : s.work.streamDesc x n = s.streamDesc x n :=
  Dev.streamDesc_congr (w := s.toDev) (w' := s.work.toDev) rfl x n

theorem State.work_streamInst (s : State) (x n d : Nat) : s.work.instReset (s.work.streamInst x n d) = s.instReset (s.streamInst x n d) := by
  rfl

theorem State.work_blobNat (s : State) (c : Copy) (n off len : Nat) : s.work.blobNat c n off len = s.blobNat c n off len :=
  Dev.blobNat_congr (w := s.toDev) (w' := s.work.toDev) (by cases c <;> rfl) n off len

/-- Settles O20: a rearm by the shadow copied whole, a trigger by its check, a transfer's end by what its release leaves alone, and a pack
region by the turn that each region takes. -/
theorem streamsAndPackRegions : Obligations.StreamsAndPackRegions := by
  unfold Obligations.StreamsAndPackRegions
  refine ⟨fun wr x n s takes => ⟨fun moving => ?_, fun still null => ?_⟩, fun x n r s found armed due active stays up => ?_,
    fun x n r p f s found cap kind fill whole goes ok idle sound => ?_, fun x n r t0 s found trig need first past => ?_,
    fun wr x r s takes => ?_⟩
  · have e := opStreamRearm_rearms (w := s.work) takes.1 takes.2
    rw [if_pos ((Work.rearmed_state _ _ _).trans moving)] at e
    exact ⟨_, exec_leave (i := .streamRearm wr x n) e (Work.rearmed_out _ _ _), Work.put_get_same _ _ _,
      (Work.rearmed_state _ _ _).trans moving, s.sameMem_leave _, Work.rearmed_collapsed _ _ _⟩
  · have e := opStreamRearm_rearms (w := s.work) takes.1 takes.2
    rw [if_neg (fun h => still ((Work.rearmed_state _ _ _).symm.trans h))] at e
    have out := (congrArg Work.out e).symm.trans (opStreamRearm_out wr x n s.work)
    rw [← State.work_blobNat] at null
    rw [Work.takeover_null ((Work.rearmed_desc s.work).trans null)] at e out
    refine ⟨_, exec_leave (i := .streamRearm wr x n) e out, ?_, Work.put_get_same _ _ _, ?_, s.sameMem_leave _⟩
    · refine (Work.put_get_other _ _ ?_).trans (Work.put_get_same _ _ _)
      unfold Obj.streamPending Obj.streamState
      omega
    · refine (Work.put_get_other _ _ ?_).trans ((Work.put_get_other _ _ ?_).trans (Work.put_get_same _ _ _))
      · unfold Obj.streamXfer Obj.streamState
        omega
      · unfold Obj.streamXfer Obj.streamPending
        omega
  · rw [← State.work_streamInst, ← State.work_streamDesc] at up
    exact ⟨_, exec_quiet (i := .streamTrigger x n) (opStreamTrigger_out x n s.work), s.sameMem_leave _,
      opStreamTrigger_state (w := s.work) found armed due active stays up⟩
  · rw [← State.work_streamDesc] at kind
    refine ⟨_, exec_sound (i := .streamXferDone x n) sound, (State.after_get _ _ _).trans ?_⟩
    exact opStreamXferDone_counts (w := s.work) found cap kind fill whole goes ok idle
  · rw [← State.work_streamDesc] at need past
    exact ⟨_, exec_quiet (i := .streamDeadlineMiss x n) (opStreamDeadlineMiss_out x n s.work), s.sameMem_leave _,
      opStreamDeadlineMiss_counts (w := s.work) found trig need first past⟩
  · have e := opPackCommit_commits (w := s.work) takes.1 takes.2
    have pending : ((s.work.groupToPend (packGroup x r) []).put (Obj.packCommit x r) 1).get (Obj.packCommit x r) = 1 := Work.put_get_same _ _ _
    have staged : ∀ n ∈ packGroup x r, ((s.work.groupToPend (packGroup x r) []).put (Obj.packCommit x r) 1).getP n = s.getS n :=
      fun n hn => (Work.groupToPend_getP _ _ _ _).trans (if_pos hn)
    have out := (congrArg Work.out e).symm.trans (opPackCommit_out wr x r s.work)
    cases idle : s.bobbinIdle x with
    | true =>
      have idle' : s.work.bobbinIdle x = true := idle
      rw [if_pos idle'] at e out
      obtain ⟨done, values⟩ := Work.packApply_applies pending r.isLt
      have values' : ∀ n ∈ packGroup x r, (((s.work.groupToPend (packGroup x r) []).put (Obj.packCommit x r) 1).packApply x).get n = s.getS n :=
        fun n hn => (values n hn).trans (staged n hn)
      refine ⟨_, exec_leave (i := .packCommit wr x r) e out, s.sameMem_leave _, fun _ => ?_, fun busy => nomatch busy⟩
      rw [State.leave_toDev]
      exact ⟨done, values'⟩
    | false =>
      have idle' : ¬ s.work.bobbinIdle x = true := fun h => Bool.false_ne_true (idle.symm.trans h)
      rw [if_neg idle'] at e out
      refine ⟨_, exec_leave (i := .packCommit wr x r) e out, s.sameMem_leave _, fun h => absurd h Bool.false_ne_true, fun _ => ?_⟩
      refine ⟨pending, fun n hn => ?_, staged⟩
      exact (Work.put_get_other _ _ (fun e => hn (List.mem_singleton.mpr e))).trans (Work.groupToPend_get _ _ _ _)


/-! ### Sectors read and scrubbed (R274 to R278) -/

/-- An object of area 5 below those of single stacks and packages. -/
def OfTiers (n : Nat) : Prop := 0x500000 ≤ n ∧ n < 0x590000

theorem OfTiers.unlogged {n : Nat} (h : OfTiers n) : n ∉ logObjs :=
  not_mem_logObjs (.inr (by have := h.1; omega)) (by have := h.2; omega)

theorem Work.eraseLane_get (p : ExtPlace) (l n : Nat) (w : Work) : (w.eraseLane p l).get n = w.get n := by
  unfold Work.eraseLane
  split <;> rfl

theorem Work.laneThreshold_get {p : ExtPlace} {l n : Nat} {w : Work} (h : OfTiers n) : (w.laneThreshold p l).get n = w.get n := by
  unfold Work.laneThreshold
  dsimp only
  split
  · rfl
  · split
    · exact Work.event_get _ _ _ _ _ h.unlogged
    · exact (Work.event_get _ _ _ _ _ h.unlogged).trans (Work.eraseLane_get _ _ _ _)

theorem Work.laneSymbol_get {p : ExtPlace} {l n : Nat} {w : Work} (h : OfTiers n) : (w.laneSymbol p l).get n = w.get n := by
  have other : n ≠ if p.tier = 0 then Obj.stackCe p.part else Obj.pkgCe p.part := by
    have below := h.2
    unfold Obj.stackCe Obj.pkgCe
    split <;> omega
  have judged : ∀ (c : Prop) [Decidable c] (w' : Work), (if c then w'.laneThreshold p l else w').get n = w'.get n := by
    intro c _ w'
    split
    · exact Work.laneThreshold_get h
    · rfl
  exact (judged _ _).trans (Work.put_get_other _ _ other)

/-- What the corrected symbols of a sector change of those objects: nothing. -/
theorem foldl_laneSymbol_get {p : ExtPlace} {n : Nat} (h : OfTiers n) (v : List (Nat × Nat)) (w : Work) :
    (v.foldl (fun w s => w.laneSymbol p (p.lane s.1)) w).get n = w.get n :=
  List.foldlRecOn v _ (motive := fun w' : Work => w'.get n = w.get n) rfl (fun _ same _ _ => (Work.laneSymbol_get h).trans same)

/-- The errors that stand in a sector after an access. -/
def Dev.standing (w : Dev) (a : Nat) (flips : List (Nat × Nat)) : List (Nat × Nat) := mergeErrs (w.sectorErrs a) (legalErrs flips)

/-- What the decoder says of them. -/
def Work.verdict (p : ExtPlace) (a : Nat) (flips : List (Nat × Nat)) (w : Work) : RsOut :=
  let w' := w.setErrs a (w.standing a flips)
  if w'.ext.ue.contains a then .bad else rsDecode p (w'.erasedLanes p) (w'.get Obj.eccMode) (w.standing a flips)

theorem Work.decodeSector_verdict (p : ExtPlace) (a : Nat) (flips : List (Nat × Nat)) (w : Work) :
    (w.decodeSector p a flips).1 = w.verdict p a flips := by
  unfold Work.decodeSector
  dsimp only
  split <;> rfl

theorem Work.decodeSector_clean {p : ExtPlace} {a : Nat} {flips : List (Nat × Nat)} {w : Work} (h : w.verdict p a flips = .clean) :
    w.decodeSector p a flips = (.clean, w.setErrs a (w.standing a flips)) := by
  unfold Work.verdict Dev.standing at h
  unfold Work.decodeSector Dev.standing
  dsimp only at h ⊢
  rw [h]

theorem Work.decodeSector_fixed {p : ExtPlace} {a : Nat} {flips v : List (Nat × Nat)} {w : Work} (h : w.verdict p a flips = .fixed v) :
    w.decodeSector p a flips = (.fixed v, v.foldl (fun w s => w.laneSymbol p (p.lane s.1))
      ((w.setErrs a (w.standing a flips)).bump (if p.tier = 0 then Obj.ceFast else Obj.ceSlow) 1)) := by
  unfold Work.verdict Dev.standing at h
  unfold Work.decodeSector Dev.standing
  dsimp only at h ⊢
  rw [h]

theorem Work.decodeSector_bad {p : ExtPlace} {a : Nat} {flips : List (Nat × Nat)} {w : Work} {n : Nat} (h : w.verdict p a flips = .bad)
    (tier : OfTiers n) : (w.decodeSector p a flips).1 = .bad ∧ (w.decodeSector p a flips).2.get n = w.get n := by
  have other : n ≠ if p.tier = 0 then Obj.stackUe p.part else Obj.pkgUe p.part := by
    have below := tier.2
    unfold Obj.stackUe Obj.pkgUe
    split <;> omega
  unfold Work.verdict Dev.standing at h
  unfold Work.decodeSector
  dsimp only at h ⊢
  rw [h]
  exact ⟨rfl, Work.put_get_other _ _ other⟩

theorem Work.verdict_of_ue {p : ExtPlace} {a : Nat} (flips : List (Nat × Nat)) {w : Work} (ue : w.ext.ue.contains a = true) :
    w.verdict p a flips = .bad := if_pos ue

theorem rsDecode_nil (p : ExtPlace) (lanes : List Nat) (mode : Nat) : rsDecode p lanes mode [] = .clean := by
  unfold rsDecode
  dsimp only
  rw [if_pos (by decide)]

/-- A sector without an error reads clean. -/
theorem Work.verdict_clean {p : ExtPlace} {a : Nat} {w : Work} (none_ : w.sectorErrs a = []) (ue : w.ext.ue.contains a = false) :
    w.verdict p a [] = .clean := by
  have standing : w.standing a [] = [] := by
    unfold Dev.standing
    rw [none_]
    rfl
  unfold Work.verdict
  dsimp only
  rw [standing]
  refine (if_neg (fun h => Bool.false_ne_true (ue.symm.trans h))).trans ?_
  exact rsDecode_nil _ _ _

theorem aligned_sector {a : Nat} (h : a % 32 = 0) : a / 32 * 32 = a := Nat.div_mul_cancel (Nat.dvd_of_mod_eq_zero h)

theorem opExtReadReturn_clean {r : Agent} {a : Nat} {p : ExtPlace} {w : Work} (aligned : a % 32 = 0) (place : extPlace a = some p)
    (none_ : w.sectorErrs a = []) (ue : w.ext.ue.contains a = false) :
    opExtReadReturn r a [] w = w.setErrs a (w.standing a []) := by
  unfold opExtReadReturn
  dsimp only
  rw [aligned_sector aligned, place]
  dsimp only
  rw [Work.decodeSector_clean (Work.verdict_clean none_ ue)]

theorem opExtScrub_clean {a : Nat} {p : ExtPlace} {raced : Bool} {w : Work} (aligned : a % 32 = 0) (place : extPlace a = some p)
    (none_ : w.sectorErrs a = []) (ue : w.ext.ue.contains a = false) :
    opExtScrub a [] raced w = w.setErrs a (w.standing a []) := by
  unfold opExtScrub
  dsimp only
  rw [aligned_sector aligned, place]
  dsimp only
  rw [Work.decodeSector_clean (Work.verdict_clean none_ ue)]

/-- An uncorrectable sector read for no agent that ends with it counts, and writes nothing. -/
theorem opExtReadReturn_bad {a : Nat} {p : ExtPlace} {flips : List (Nat × Nat)} {w : Work} (aligned : a % 32 = 0) (place : extPlace a = some p)
    (ue : w.ext.ue.contains a = true) : (opExtReadReturn .other a flips w).out = w.out ∧
      (opExtReadReturn .other a flips w).get Obj.ueExt = min (w.get Obj.ueExt + 1) (maxU 64) := by
  have tier : OfTiers Obj.ueExt := ⟨by decide, by decide⟩
  obtain ⟨bad, same⟩ := Work.decodeSector_bad (p := p) (flips := flips) (Work.verdict_of_ue flips ue) tier
  have out := Work.decodeSector_out p a flips w
  unfold opExtReadReturn
  dsimp only
  rw [aligned_sector aligned, place]
  dsimp only
  rw [bad]
  dsimp only [Work.endReader]
  refine ⟨(Work.log1_out _ _ _ _ _ _).trans out, (Work.log1_get _ _ _ _ _ _ tier.unlogged).trans ?_⟩
  exact (Work.bump_get_same _ _ _).trans (by rw [same])

theorem Work.setErrs_clear (a : Nat) (w : Work) : (w.setErrs a []).sectorErrs a = [] := by
  have gone : (w.setErrs a []).ext.errs.find? (fun e => e.1 == a) = none := List.find?_eq_none.mpr (fun q hq same => by
    have other := (List.mem_filter.mp hq).2
    simp_all)
  unfold Dev.sectorErrs
  rw [gone]

/-- A scrub of a sector whose error the code corrects counts it and clears it. -/
theorem opExtScrub_fixed {a : Nat} {p : ExtPlace} {flips v : List (Nat × Nat)} {w : Work} (aligned : a % 32 = 0) (place : extPlace a = some p)
    (fixed : (w.decodeSector p a flips).1 = .fixed v) :
    (opExtScrub a flips false w).sectorErrs a = [] ∧
      (opExtScrub a flips false w).get (if p.tier = 0 then Obj.ceFast else Obj.ceSlow) =
        min (w.get (if p.tier = 0 then Obj.ceFast else Obj.ceSlow) + 1) (maxU 64) := by
  have tier : OfTiers (if p.tier = 0 then Obj.ceFast else Obj.ceSlow) := by
    split <;> exact ⟨by decide, by decide⟩
  have e := Work.decodeSector_fixed ((Work.decodeSector_verdict p a flips w).symm.trans fixed)
  unfold opExtScrub
  dsimp only
  rw [aligned_sector aligned, place]
  dsimp only
  rw [e]
  dsimp only
  rw [if_neg Bool.false_ne_true]
  constructor
  · exact Work.setErrs_clear a _
  · exact (foldl_laneSymbol_get tier v _).trans (Work.bump_get_same _ _ _)

/-! ### Scrubs of near memory (R238) -/

theorem opNearScrub_word {a : Nat} {res : ReadRes} {w : Work} (from_ : 0x020000000000 ≤ a) (below : a < 0x020800000000)
    (noParity : ∀ i, res ≠ .parity i) : opNearScrub a res w = w.onchipWord 31 a res := by
  unfold opNearScrub
  rw [if_pos ⟨from_, below⟩]
  cases res with
  | parity i => exact absurd rfl (noParity i)
  | _ => rfl

theorem ceCounter_near {a : Nat} (from_ : 0x020000000000 ≤ a) (below : a < 0x020800000000) : ceCounter a = Obj.ceNear := by
  have none_ : scratchOf a = none := by
    unfold scratchOf
    exact if_neg (by omega)
  unfold ceCounter
  rw [none_]
  exact if_neg (by omega)

/-- Settles O21: the decoder's verdict decides what a sector's access changes. -/
theorem sectorsAreCorrected : Obligations.SectorsAreCorrected := by
  unfold Obligations.SectorsAreCorrected
  refine ⟨fun r a p s aligned place none_ ue => ⟨?_, ?_⟩, fun r a p flips s aligned place ue sound => ?_,
    fun a p flips v s aligned place fixed => ?_, fun a s from_ below => ⟨?_, ?_, ?_⟩⟩
  · have e := opExtReadReturn_clean (r := r) (w := s.work) aligned place none_ ue
    exact ⟨_, exec_leave (i := .extReadReturn r a []) e rfl, fun _ _ => rfl, s.sameMem_leave _⟩
  · have e := opExtScrub_clean (raced := false) (w := s.work) aligned place none_ ue
    exact ⟨_, exec_leave (i := .extScrub a [] false) e rfl, fun _ _ => rfl, s.sameMem_leave _⟩
  · by_cases other : r = .other
    · subst other
      obtain ⟨out, counted⟩ := opExtReadReturn_bad (flips := flips) (w := s.work) aligned place ue
      exact ⟨_, exec_quiet (i := .extReadReturn .other a flips) out, fun _ => ⟨counted, s.sameMem_leave _⟩⟩
    · exact ⟨_, exec_sound (i := .extReadReturn r a flips) sound, fun h => absurd h other⟩
  · obtain ⟨clear, counted⟩ := opExtScrub_fixed aligned place fixed
    refine ⟨_, exec_quiet (i := .extScrub a flips false) (opExtScrub_out a flips false s.work), clear, s.sameMem_leave _, fun fast => ?_, fun slow => ?_⟩
    · rwa [if_pos fast] at counted
    · rwa [if_neg slow] at counted
  · have e := opNearScrub_word (res := .ok) (w := s.work) from_ below (fun _ h => nomatch h)
    exact ⟨_, exec_leave (i := .nearScrub a .ok) e rfl, fun _ _ => rfl, s.sameMem_leave _⟩
  · have e : opNearScrub a .corrected s.work = s.work.bump Obj.ceNear 1 :=
      (opNearScrub_word (res := .corrected) from_ below (fun _ h => nomatch h)).trans (congrArg (s.work.bump · 1) (ceCounter_near from_ below))
    exact ⟨_, exec_leave (i := .nearScrub a .corrected) e rfl, fun n hn => Work.bump_get_other _ _ (by simpa using hn), s.sameMem_leave _,
      Work.bump_get_same _ _ _⟩
  · have e := opNearScrub_word (res := .uncorrectable) (w := s.work) from_ below (fun _ h => nomatch h)
    refine ⟨_, exec_leave (i := .nearScrub a .uncorrectable) e (Work.onchipWord_out _ _ _ _), fun n hn => ?_, s.sameMem_leave _, ?_⟩
    · exact (Work.event_get _ _ _ _ _ (fun m => hn (List.mem_cons_of_mem _ m))).trans
        (Work.bump_get_other _ _ (fun e => hn (List.mem_cons.mpr (.inl e))))
    · exact (Work.event_get _ _ _ _ _ (by decide)).trans (Work.bump_get_same _ _ _)


/-! ### What leaves the external memory state alone -/

@[simp] theorem Work.ite_ext (c : Prop) [Decidable c] (a b : Work) :
    (if c then a else b).ext = if c then a.ext else b.ext := by
  split <;> rfl

@[simp] theorem foldl_ext {α : Type} (f : Work → α → Work) (h : ∀ w a, (f w a).ext = w.ext) (l : List α) (w : Work) :
    (l.foldl f w).ext = w.ext :=
  List.foldlRecOn l f (motive := fun w' => w'.ext = w.ext) rfl (fun w' same a _ => (h w' a).trans same)

@[simp] theorem forUpto_ext (f : Nat → Work → Work) (h : ∀ i w, (f i w).ext = w.ext) (n : Nat) (w : Work) :
    (forUpto f n w).ext = w.ext := by
  induction n with
  | zero => rfl
  | succ n ih => exact (h n _).trans ih

@[simp] theorem Work.mgmtSend_ext (m : OutMsg) (w : Work) : (Work.mgmtSend m w).ext = w.ext := by
  unfold Work.mgmtSend
  split <;> simp

@[simp] theorem Work.notifyTx_ext (i : Nat) (seq : Nat) (kind : Nat) (body : List Nat) (w : Work) : (Work.notifyTx i seq kind body w).ext =
    w.ext := by
  unfold Work.notifyTx
  simp

@[simp] theorem Work.notifyOne_ext (i kind : Nat) (body : List Nat) (w : Work) : (w.notifyOne i kind body).2.ext = w.ext := by
  rw [(Work.logs_notifyOne w i kind body).ext]

@[simp] theorem Work.notifyAll_ext (kind : Nat) (body : List Nat) (w : Work) : (w.notifyAll kind body).2.ext = w.ext := by
  rw [(Work.logs_notifyAll w kind body).ext]

@[simp] theorem Work.rateMark_ext (key : Nat) (w : Work) : (Work.rateMark key w).ext = w.ext := by rfl

@[simp] theorem Work.logRec_ext (code ctx source detail extra : Nat) (w : Work) : (w.logRec code ctx source detail extra).2.ext = w.ext := by
  rw [(Work.logs_logRec w code ctx source detail extra).ext]

@[simp] theorem Work.logUnit_ext (n code ctx source detail extra : Nat) (w : Work) : (w.logUnit n code ctx source detail extra).ext = w.ext := by
  rw [(Work.logs_logUnit n code ctx source detail extra w).ext]

@[simp] theorem Work.setBlobs_ext (c : Copy) (m : List (Nat × Nat)) (w : Work) : (Work.setBlobs c m w).ext = w.ext := by
  unfold Work.setBlobs
  (repeat' split) <;> simp [*]

@[simp] theorem Work.blobPut_ext (c : Copy) (n : Nat) (off : Nat) (v : Nat) (len : Nat) (w : Work) : (Work.blobPut c n off v len w).ext =
    w.ext := by
  unfold Work.blobPut
  simp

@[simp] theorem Work.pendToActive_ext (n : Nat) (w : Work) : (Work.pendToActive n w).ext = w.ext := by rfl

@[simp] theorem Work.blobCopy_ext (src : Copy) (dst : Copy) (n : Nat) (w : Work) : (Work.blobCopy src dst n w).ext = w.ext := by
  unfold Work.blobCopy
  simp

@[simp] theorem Work.groupToActive_ext (scalars : List Nat) (blobs : List Nat) (w : Work) : (Work.groupToActive scalars blobs w).ext =
    w.ext := by
  unfold Work.groupToActive
  simp

@[simp] theorem Work.writeNat_ext (a : Nat) (v : Nat) (n : Nat) (w : Work) : (Work.writeNat a v n w).ext = w.ext := by
  unfold Work.writeNat
  simp

@[simp] theorem Work.arenaApply_ext (w : Work) : (Work.arenaApply w).ext = w.ext := by
  unfold Work.arenaApply
  simp [*]

@[simp] theorem Work.queueMsg_ext (m : TxMsg) (w : Work) : (Work.queueMsg m w).ext = w.ext := by rfl

@[simp] theorem Work.seqSync_ext (x : Nat) (q : Nat) (w : Work) : (Work.seqSync x q w).ext = w.ext := by rfl

@[simp] theorem Work.putSeq_ext (x : Nat) (q : Nat) (v : Option SeqSt) (w : Work) : (Work.putSeq x q v w).ext = w.ext := by rfl

@[simp] theorem Work.blockEntry_ext (x : Nat) (q : Nat) (n : Nat) (v : Nat) (w : Work) : (Work.blockEntry x q n v w).ext = w.ext := by
  unfold Work.blockEntry
  split <;> simp

@[simp] theorem Work.takeBlocks_ext (x : Nat) (q : Nat) (k : Nat) (w : Work) : (Work.takeBlocks x q k w).ext = w.ext := by
  unfold Work.takeBlocks
  split <;> simp

@[simp] theorem Work.freeSeq_ext (x : Nat) (q : Nat) (w : Work) : (Work.freeSeq x q w).ext = w.ext := by
  unfold Work.freeSeq
  split <;> simp

@[simp] theorem Work.mapFill_ext (id : Nat) (f : Fill → Fill) (w : Work) : (Work.mapFill id f w).ext = w.ext := by rfl

@[simp] theorem Work.freeHeld_ext (b : Nat) (n : Nat) (w : Work) : (Work.freeHeld b n w).ext = w.ext := by rfl

@[simp] theorem Work.issueFill_ext (id : Nat) (v1 : Nat) (v2 : Work) : (Work.issueFill id v1 v2).ext = v2.ext := by
  induction v1 generalizing v2 with
  | zero => rfl
  | succ k ih =>
    unfold Work.issueFill
    (repeat' split) <;> simp [*]

@[simp] theorem Work.issueBuffer_ext (b : Nat) (w : Work) : (Work.issueBuffer b w).ext = w.ext := by
  unfold Work.issueBuffer
  simp [*]

@[simp] theorem Work.passFill_ext (id : Nat) (w : Work) : (Work.passFill id w).ext = w.ext := by
  unfold Work.passFill
  dsimp only
  (repeat' split) <;> simp [*]

@[simp] theorem Work.passFills_ext (x : Nat) (w : Work) : (Work.passFills x w).ext = w.ext := by
  unfold Work.passFills
  simp [*]

@[simp] theorem Work.evtPut_ext (x n v : Nat) (w : Work) : (w.evtPut x n v).ext = w.ext := by
  unfold Work.evtPut
  simp

@[simp] theorem Work.evtAdd_ext (x : Nat) (n : Nat) (k : Nat) (w : Work) : (Work.evtAdd x n k w).ext = w.ext := by
  unfold Work.evtAdd
  simp

@[simp] theorem Work.setGrow_ext (g : Option Grow) (w : Work) : (Work.setGrow g w).ext = w.ext := by rfl

@[simp] theorem Work.growEnd_ext (g : Grow) (w : Work) : (Work.growEnd g w).ext = w.ext := by
  unfold Work.growEnd
  simp

@[simp] theorem Work.spillBlock_ext (x : Nat) (q : Nat) (w : Work) : (Work.spillBlock x q w).ext = w.ext := by
  unfold Work.spillBlock
  dsimp only
  (repeat' split) <;> simp [*]

@[simp] theorem Work.spillMany_ext (g : Grow) (x : Nat) (v2 : Nat) (v3 : Nat) (v4 : Work) : (Work.spillMany g x v2 v3 v4).2.ext = v4.ext := by
  induction v2 generalizing v3 v4 with
  | zero => rfl
  | succ k ih =>
    unfold Work.spillMany
    (repeat' split) <;> simp [*]

@[simp] theorem Work.growGo_ext (v0 : Nat) (v1 : Work) : (Work.growGo v0 v1).ext = v1.ext := by
  induction v0 generalizing v1 with
  | zero => rfl
  | succ k ih =>
    unfold Work.growGo
    dsimp only
    (repeat' split) <;> simp [*]

@[simp] theorem Work.growStep_ext (w : Work) : (Work.growStep w).ext = w.ext := by
  unfold Work.growStep
  split <;> simp

@[simp] theorem Work.mapRestore_ext (x : Nat) (f : Restore → Restore) (w : Work) : (Work.mapRestore x f w).ext = w.ext := by rfl

@[simp] theorem Work.mapRest_ext (x : Nat) (s : Nat) (f : RestShard → RestShard) (w : Work) : (Work.mapRest x s f w).ext = w.ext := by rfl

@[simp] theorem Work.restoreAsk_ext (x : Nat) (v1 : Nat) (v2 : Work) : (Work.restoreAsk x v1 v2).ext = v2.ext := by
  induction v1 generalizing v2 with
  | zero => rfl
  | succ k ih =>
    unfold Work.restoreAsk
    (repeat' split) <;> simp [*]

@[simp] theorem Work.restoreStep_ext (x : Nat) (w : Work) : (Work.restoreStep x w).ext = w.ext := by
  unfold Work.restoreStep
  (repeat' split) <;> simp [*]

theorem Dev.heal_spills (w : Dev) (out : List MemWrite) : (w.heal out).ext.spills = w.ext.spills := by
  unfold Dev.heal
  split <;> rfl

theorem Dev.heal_pool (w : Dev) (out : List MemWrite) : (w.heal out).ext.pool = w.ext.pool := by
  unfold Dev.heal
  split <;> rfl

theorem State.after_spills (s : State) (f : Work → Work) : (s.after f).ext.spills = (f s.work).ext.spills := Dev.heal_spills _ _

theorem State.after_pool (s : State) (f : Work → Work) : (s.after f).ext.pool = (f s.work).ext.pool := Dev.heal_pool _ _

/-! ### The spill pool (R295) -/

theorem opSpillPoolCommit_fits {wr : Writer} {w : Work} (serves : w.serves wr Obj.spillPoolCommit = true) (reaches : w.reaches wr .priv = true)
    (unused : w.ext.pool = []) (inside : inSlow (w.getS Obj.spillPoolBase) (w.getS Obj.spillPoolLen) = true)
    (below : w.getS Obj.spillPoolBase < 0x01E380000000) :
    opSpillPoolCommit wr w = ((((w.put Obj.spillPoolBase (w.getS Obj.spillPoolBase)).put Obj.spillPoolLen (w.getS Obj.spillPoolLen)).clampTo wr
      Obj.spillPoolBase (w.getS Obj.spillPoolBase) (w.getS Obj.spillPoolBase)).clampTo wr Obj.spillPoolLen (w.getS Obj.spillPoolLen)
      (w.getS Obj.spillPoolLen)).setPool [] := by
  obtain ⟨slow, fits⟩ := (Bool.and_eq_true_iff.mp inside).imp of_decide_eq_true of_decide_eq_true
  have start : inSlow (w.getS Obj.spillPoolBase) 0 = true :=
    Bool.and_eq_true_iff.mpr ⟨decide_eq_true slow, decide_eq_true (by omega)⟩
  have room : min (w.getS Obj.spillPoolLen) (0x01E380000000 - w.getS Obj.spillPoolBase) = w.getS Obj.spillPoolLen := Nat.min_eq_left (by omega)
  have placed : (if inSlow (w.getS Obj.spillPoolBase) 0 = true ∧ w.getS Obj.spillPoolBase < 0x01E380000000
      then (w.getS Obj.spillPoolBase, min (w.getS Obj.spillPoolLen) (0x01E380000000 - w.getS Obj.spillPoolBase))
      else (w.getS Obj.spillPoolBase, 0)) = (w.getS Obj.spillPoolBase, w.getS Obj.spillPoolLen) := by
    rw [if_pos ⟨start, below⟩, room]
  refine (Work.gated_takes _ _ _ _ _ serves reaches).trans ?_
  dsimp only
  rw [placed]
  dsimp only
  rw [unused]
  simp only [List.isEmpty_nil, if_true]
  rw [Work.clampTo_ext, Work.clampTo_ext, Work.put_ext, Work.put_ext, unused]

theorem spillPool_unclamped {n : Nat} (h : n = Obj.spillPoolBase ∨ n = Obj.spillPoolLen) : n ∉ Obj.clampCount :: logObjs :=
  h.elim (fun e => e ▸ not_mem_clampObjs (by decide) (by decide)) (fun e => e ▸ not_mem_clampObjs (by decide) (by decide))

theorem opSpillPoolCommit_values {wr : Writer} {w : Work} (serves : w.serves wr Obj.spillPoolCommit = true) (reaches : w.reaches wr .priv = true)
    (unused : w.ext.pool = []) (inside : inSlow (w.getS Obj.spillPoolBase) (w.getS Obj.spillPoolLen) = true)
    (below : w.getS Obj.spillPoolBase < 0x01E380000000) :
    (opSpillPoolCommit wr w).get Obj.spillPoolBase = w.getS Obj.spillPoolBase ∧
      (opSpillPoolCommit wr w).get Obj.spillPoolLen = w.getS Obj.spillPoolLen ∧
      (opSpillPoolCommit wr w).get Obj.spillPoolFree = w.getS Obj.spillPoolLen := by
  rw [opSpillPoolCommit_fits serves reaches unused inside below]
  have clamped : ∀ (n : Nat), n = Obj.spillPoolBase ∨ n = Obj.spillPoolLen → ∀ (a b c d : Nat) (w' : Work),
      ((w'.clampTo wr Obj.spillPoolBase a b).clampTo wr Obj.spillPoolLen c d).get n = w'.get n := fun n h a b c d w' =>
    (Work.clampTo_get _ _ _ _ _ (spillPool_unclamped h)).trans (Work.clampTo_get _ _ _ _ _ (spillPool_unclamped h))
  unfold Work.setPool
  refine ⟨(Work.put_get_other _ _ (by decide)).trans ((clamped _ (.inl rfl) _ _ _ _ _).trans ?_),
    (Work.put_get_other _ _ (by decide)).trans ((clamped _ (.inr rfl) _ _ _ _ _).trans (Work.put_get_same _ _ _)), (Work.put_get_same _ _ _).trans ?_⟩
  · exact (Work.put_get_other _ _ (by decide)).trans (Work.put_get_same _ _ _)
  · exact (clamped _ (.inr rfl) _ _ _ _ _).trans (Work.put_get_same _ _ _)

/-! ### Requests (R296, R298) -/

theorem Work.spillStep_spills (x : Nat) (w : Work) : (w.spillStep x).ext.spills = w.ext.spills ∨
    (w.spillStep x).ext.spills = w.ext.spills.map (fun (s : Spill) => if s.ctx = x then { s with copying := true } else s) := by
  unfold Work.spillStep
  split
  · refine .inr ?_
    rw [Work.restoreStep_ext, Work.growStep_ext]
    rfl
  · refine .inl ?_
    rw [Work.restoreStep_ext, Work.growStep_ext]

theorem Work.spillStep_pool (x : Nat) (w : Work) : (w.spillStep x).ext.pool = w.ext.pool := by
  unfold Work.spillStep
  split
  · rw [Work.restoreStep_ext, Work.growStep_ext]
    rfl
  · rw [Work.restoreStep_ext, Work.growStep_ext]

/-- A spill or fill that starts is in progress. -/
theorem Work.spillStart_spills (sp : Spill) (w : Work) :
    ∃ q ∈ (w.spillStart sp).ext.spills, q.ctx = sp.ctx ∧ q.seg = sp.seg ∧ q.fill = sp.fill := by
  have held : sp ∈ ((w.setSpills (w.ext.spills ++ [sp])).put (Obj.spillState sp.ctx) 1).ext.spills :=
    List.mem_append_right _ (List.mem_singleton.mpr rfl)
  unfold Work.spillStart
  rcases Work.spillStep_spills sp.ctx ((w.setSpills (w.ext.spills ++ [sp])).put (Obj.spillState sp.ctx) 1) with e | e
  · exact ⟨sp, e ▸ held, rfl, rfl, rfl⟩
  · refine ⟨_, e ▸ List.mem_map_of_mem held, ?_⟩
    rw [if_pos rfl]
    exact ⟨rfl, rfl, rfl⟩

theorem Work.spillStart_pool (sp : Spill) (w : Work) : (w.spillStart sp).ext.pool = w.ext.pool := Work.spillStep_pool _ _

theorem opSpillReq_go {wr : Writer} {x : Fin 16} {v : Nat} {w : Work} (serves : w.serves wr (Obj.spillReq x) = true)
    (reaches : w.reaches wr (.privCtx x) = true) (low : v < 64) : opSpillReq wr x v w = w.spillGo x v :=
  (Work.gated_takes _ _ _ _ _ serves reaches).trans (if_neg (by omega))

theorem Work.spillGo_refused {x v r : Nat} {w : Work} (h : w.spillRefusal x v = some r) : w.spillGo x v = w.spillRefuse x r := by
  unfold Work.spillGo
  rw [h]

theorem Work.spillGo_met {x v : Nat} {w : Work} (h : w.spillRefusal x v = none) :
    (w.spillGo x v).ext.spills.any (fun p => p.ctx == x && p.seg == v && !p.fill) = true ∧
      (w.spillGo x v).ext.pool.any (fun p => p.ctx == x && p.seg == v) = true := by
  unfold Work.spillGo
  rw [h]
  dsimp only
  constructor
  · obtain ⟨q, hq, ctx, seg, fill⟩ := Work.spillStart_spills ⟨x, v, false, _, _, _, false, w.time⟩ _
    refine List.any_eq_true.mpr ⟨q, hq, ?_⟩
    rw [ctx, seg, fill]
    simp
  · rw [Work.spillStart_pool]
    refine List.any_eq_true.mpr ⟨_, List.mem_append_right _ (List.mem_singleton.mpr rfl), ?_⟩
    simp

theorem opFillReq_go {wr : Writer} {x : Fin 16} {v : Nat} {w : Work} (serves : w.serves wr (Obj.fillReq x) = true)
    (reaches : w.reaches wr (.privCtx x) = true) (low : v < 64) :
    (∀ r, w.fillRefusal x v = some r → opFillReq wr x v w = w.spillRefuse x r) ∧
      (w.fillRefusal x v = none → ∃ q ∈ (opFillReq wr x v w).ext.spills, q.ctx = x ∧ q.seg = v ∧ q.fill = true) := by
  have e : opFillReq wr x v w = _ := (Work.gated_takes _ _ _ _ _ serves reaches).trans (if_neg (by omega))
  refine ⟨fun r refused => ?_, fun met => ?_⟩
  · rw [e, refused]
  · rw [e, met]
    exact Work.spillStart_spills ⟨x, v, true, _, _, _, false, w.time⟩ _

theorem Work.spillRefuse_get (x r : Nat) (w : Work) : (w.spillRefuse x r).get (Obj.spillState x) = 4 ∧ (w.spillRefuse x r).get (Obj.spillResult x) = r ∧
    ∀ n, n ∉ [Obj.spillState x, Obj.spillResult x] → (w.spillRefuse x r).get n = w.get n := by
  refine ⟨(Work.put_get_other _ _ ?_).trans (Work.put_get_same _ _ _), Work.put_get_same _ _ _, fun n hn => ?_⟩
  · unfold Obj.spillState Obj.spillResult
    omega
  · obtain ⟨h1, h2⟩ := not_or.mp (fun h => hn (List.mem_cons.mpr (h.imp_right (List.mem_singleton.mpr ·))))
    exact (Work.put_get_other _ _ h2).trans (Work.put_get_other _ _ h1)

/-! ### Copies and holds (R297) -/

theorem Work.read_length (w : Work) (a n : Nat) : (w.read a n).length = n := by
  unfold Work.read upto
  rw [List.length_map, List.length_range]

theorem Work.read_getD (w : Work) (a : Nat) {n k : Nat} (h : k < n) : (w.read a n).getD k 0#8 = w.byte (a + k) := by
  unfold Work.read upto
  rw [List.getD_eq_getElem?_getD, List.getElem?_map, List.getElem?_range h]
  rfl

theorem opSpillCopyDone_out {x : Fin 16} {p : Spill} {w : Work} (found : w.ext.spills.find? (fun q => q.ctx == x.val && q.copying) = some p) :
    (opSpillCopyDone x w).out = (w.write p.dst (w.read p.src p.len)).out := by
  unfold opSpillCopyDone
  dsimp only
  rw [found]
  dsimp only
  split <;> simp

theorem opSpillCopyDone_done {x : Fin 16} {p : Spill} {w : Work} (found : w.ext.spills.find? (fun q => q.ctx == x.val && q.copying) = some p) :
    (opSpillCopyDone x w).get (Obj.spillState x) = 3 ∧ (opSpillCopyDone x w).get (Obj.spillResult x) = 0 ∧
      ∀ q ∈ (opSpillCopyDone x w).ext.spills, q.ctx ≠ x := by
  have kept : ∀ (code ctx source detail : Nat) (w' : Work), (w'.event code ctx source detail).ext.spills = w'.ext.spills :=
    fun code ctx source detail w' => congrArg ExtState.spills (Work.event_ext code ctx source detail w')
  have dropped : ∀ (w' : Work), ∀ q ∈ (w'.spillDrop x).ext.spills, q.ctx ≠ x := fun w' q hq => by
    simpa using (List.mem_filter.mp hq).2
  unfold opSpillCopyDone
  dsimp only
  rw [found]
  dsimp only
  refine ⟨(Work.put_get_other _ _ ?_).trans (Work.put_get_same _ _ _), Work.put_get_same _ _ _, ?_⟩
  · unfold Obj.spillState Obj.spillResult
    omega
  · split
    · exact fun q hq => dropped _ q ((kept _ _ _ _ _) ▸ hq)
    · exact fun q hq => dropped _ q ((kept _ _ _ _ _) ▸ hq)

theorem Work.spillUndo_ends (sp : Spill) (result : Nat) (w : Work) : (w.spillUndo sp result).get (Obj.spillState sp.ctx) = 3 ∧
    (w.spillUndo sp result).get (Obj.spillResult sp.ctx) = result ∧ (∀ q ∈ (w.spillUndo sp result).ext.spills, q.ctx ≠ sp.ctx) ∧
    (w.spillUndo sp result).out = w.out := by
  have dropped : ∀ q ∈ (w.spillDrop sp.ctx).ext.spills, q.ctx ≠ sp.ctx := fun q hq => by
    simpa using (List.mem_filter.mp hq).2
  unfold Work.spillUndo
  refine ⟨(Work.put_get_other _ _ ?_).trans (Work.put_get_same _ _ _), Work.put_get_same _ _ _, ?_, ?_⟩
  · unfold Obj.spillState Obj.spillResult
    omega
  · dsimp only
    split <;> exact dropped
  · dsimp only
    split <;> rfl

theorem opSpillHoldTimeout_ends {x : Fin 16} {p : Spill} {w : Work} (found : w.ext.spills.find? (fun q => q.ctx == x.val && !q.copying) = some p)
    (past : w.get (Obj.waitTmo x) * 1000 < w.since p.start) : opSpillHoldTimeout x w = w.spillUndo p 6 := by
  unfold opSpillHoldTimeout
  rw [found]
  exact if_pos past

/-! ### What a command finds is what the state holds -/

theorem State.work_segTable (s : State) (c : Copy) (x : Nat) : s.work.segTable c x = s.segTable c x := by
  have same : s.work.blobs c = s.blobs c := by
    cases c <;> rfl
  unfold Dev.segTable
  simp only [State.work_blobNat, same]

theorem State.work_otherMaps (s : State) (x a len : Nat) : s.work.otherMaps x a len = s.otherMaps x a len := by
  unfold Dev.otherMaps
  simp only [State.work_segTable]

theorem State.work_fillPlace (s : State) (a len : Nat) : s.work.fillPlace a len = s.fillPlace a len := by
  unfold Dev.fillPlace
  simp only [State.work_segTable]
  rfl

theorem State.work_poolFit (s : State) (len a k : Nat) : s.work.poolFit len a k = s.poolFit len a k := by
  induction k generalizing a with
  | zero => rfl
  | succ k ih =>
    unfold Dev.poolFit
    simp only [ih]
    rfl

theorem State.work_poolPlace (s : State) (len : Nat) : s.work.poolPlace len = s.poolPlace len := State.work_poolFit s _ _ _

theorem State.work_spillRefusal (s : State) (x v : Nat) : s.work.spillRefusal x v = s.spillRefusal x v := by
  unfold Dev.spillRefusal
  simp only [State.work_blobNat, State.work_otherMaps, State.work_poolPlace]
  rfl

theorem State.work_fillRefusal (s : State) (x v : Nat) : s.work.fillRefusal x v = s.fillRefusal x v := by
  unfold Dev.fillRefusal
  simp only [State.work_blobNat, State.work_otherMaps, State.work_fillPlace]
  rfl

/-- Settles O24: the pool as written, refusals by their reason, and a copy by the one write it makes. -/
theorem segmentsSpill : Obligations.SegmentsSpill := by
  unfold Obligations.SegmentsSpill
  refine ⟨fun wr s takes unused inside below => ?_, fun wr x v s takes low => ⟨fun r refused => ?_, fun met sound => ?_⟩,
    fun wr x v s takes low => ⟨fun r refused => ?_, fun met sound => ?_⟩, fun x p s found fits => ?_, fun x p s found past => ?_⟩
  · have e := opSpillPoolCommit_fits (w := s.work) takes.1 takes.2 unused inside below
    obtain ⟨base, len, free⟩ := opSpillPoolCommit_values (w := s.work) takes.1 takes.2 unused inside below
    have out : (opSpillPoolCommit wr s.work).out = s.work.out := by
      rw [e]
      exact (Work.clampTo_out _ _ _ _ _).trans (Work.clampTo_out _ _ _ _ _)
    exact ⟨_, exec_quiet (i := .spillPoolCommit wr) out, s.sameMem_leave _, base, len, free⟩
  · have refused' : s.work.spillRefusal x v = some r := (s.work_spillRefusal x v).trans refused
    have e := (opSpillReq_go (w := s.work) takes.1 takes.2 low).trans (Work.spillGo_refused refused')
    obtain ⟨state, result, rest⟩ := Work.spillRefuse_get x r s.work
    exact ⟨_, exec_leave (i := .spillReq wr x v) e rfl, state, result, s.sameMem_leave _, rest⟩
  · have met' : s.work.spillRefusal x v = none := (s.work_spillRefusal x v).trans met
    have e := opSpillReq_go (w := s.work) takes.1 takes.2 low
    obtain ⟨begun, pool⟩ := Work.spillGo_met met'
    refine ⟨_, exec_sound (i := .spillReq wr x v) sound, ?_, ?_⟩
    · rw [State.after_spills, show Machine.work (.spillReq wr x v) s.work = _ from e]
      exact begun
    · rw [State.after_pool, show Machine.work (.spillReq wr x v) s.work = _ from e]
      exact pool
  · have refused' : s.work.fillRefusal x v = some r := (s.work_fillRefusal x v).trans refused
    have e := (opFillReq_go (w := s.work) takes.1 takes.2 low).1 r refused'
    obtain ⟨state, result, rest⟩ := Work.spillRefuse_get x r s.work
    exact ⟨_, exec_leave (i := .fillReq wr x v) e rfl, state, result, s.sameMem_leave _, rest⟩
  · have met' : s.work.fillRefusal x v = none := (s.work_fillRefusal x v).trans met
    obtain ⟨q, hq, ctx, seg, fill⟩ := (opFillReq_go (w := s.work) takes.1 takes.2 low).2 met'
    refine ⟨_, exec_sound (i := .fillReq wr x v) sound, ?_⟩
    rw [State.after_spills]
    refine List.any_eq_true.mpr ⟨q, hq, ?_⟩
    rw [ctx, seg, fill]
    simp
  · have out := opSpillCopyDone_out (w := s.work) found
    obtain ⟨state, result, gone⟩ := opSpillCopyDone_done (w := s.work) found
    have length : (s.work.read p.src p.len).length = p.len := Work.read_length _ _ _
    have sound : (opSpillCopyDone x s.work).Sound := by
      unfold Work.Sound
      rw [out]
      exact Work.write_sound s.work_sound (by rw [length]; exact fits)
    have byte := State.after_byte (s := s) (f := opSpillCopyDone x) out
    rw [length] at byte
    refine ⟨_, exec_sound (i := .spillCopyDone x) sound, (State.after_get _ _ _).trans state, (State.after_get _ _ _).trans result, fun k hk => ?_,
      fun b hb => (byte b).trans (if_neg (by omega)), fun q hq => gone q ((State.after_spills s (opSpillCopyDone x)) ▸ hq)⟩
    refine (byte _).trans ((if_pos ⟨Nat.le_add_right _ _, by omega⟩).trans ?_)
    rw [Nat.add_sub_cancel_left, Work.read_getD _ _ hk]
    rfl
  · have e := opSpillHoldTimeout_ends (w := s.work) found past
    have ctx : p.ctx = x := by
      have h := List.find?_some (p := fun q : Spill => q.ctx == x.val && !q.copying) found
      exact beq_iff_eq.mp (Bool.and_eq_true_iff.mp h).1
    obtain ⟨state, result, gone, out⟩ := Work.spillUndo_ends p 6 s.work
    rw [ctx] at state result gone
    exact ⟨_, exec_leave (i := .spillHoldTimeout x) e out, state, result, s.sameMem_leave _, gone⟩


/-! ### Couching buffers (R279 to R283) -/

theorem Work.engWrite_get (x a : Nat) (d : List Byte) (w : Work) (n : Nat) : (w.engWrite x a d).get n = w.get n := by
  unfold Work.engWrite
  dsimp only
  split
  · split
    · exact Work.write_get _ _ _ _
    · exact Work.write_get _ _ _ _
  · exact Work.write_get _ _ _ _

theorem Work.engWrite_ext (x a : Nat) (d : List Byte) (w : Work) : (w.engWrite x a d).ext = w.ext := by
  unfold Work.engWrite
  dsimp only
  split
  · split
    · exact Work.write_ext _ _ _
    · exact Work.write_ext _ _ _
  · exact Work.write_ext _ _ _

/-- What a write within one line hands to the controller of its memory, or to the memory itself. -/
def Work.lineWrite (x a : Nat) (d : List Byte) (w : Work) : Work :=
  match controllerOf a with
  | some ctl => w.couchLine x ctl a d
  | none => w.engWrite x a d

theorem opCouchWrite_line {x : Fin 16} {a : Nat} {d : List Byte} {w : Work} (some_ : 0 < d.length) (within : d.length ≤ 128 - a % 128) :
    opCouchWrite x a d w = w.lineWrite x a d := by
  have whole : min d.length (128 - a % 128) = d.length := Nat.min_eq_left within
  have full : d.isEmpty = false := by
    cases d with
    | nil => exact absurd some_ (Nat.lt_irrefl 0)
    | cons _ _ => rfl
  unfold opCouchWrite
  rw [Work.couchWrite, full, if_neg Bool.false_ne_true, whole]
  dsimp only
  rw [List.take_length, List.drop_length]
  show Work.couchWrite x _ [] (d.length / 128 + 1) (w.lineWrite x a d) = w.lineWrite x a d
  rw [Work.couchWrite]
  exact if_pos rfl

theorem opCouchWrite_nil (x : Fin 16) (a : Nat) (w : Work) : opCouchWrite x a [] w = w := by
  unfold opCouchWrite
  rw [Work.couchWrite]
  exact if_pos rfl

theorem Work.couchLine_full {x ctl a : Nat} {d : List Byte} {w : Work} (closed : w.couch? ctl (a / 128) = none)
    (part : a % 128 % codewordBytes ctl ≠ 0) (full : couchSize ctl ≤ (w.ext.couch.filter (fun e => e.ctl == ctl)).length) :
    w.couchLine x ctl a d = w := by
  unfold Work.couchLine
  dsimp only
  rw [closed]
  dsimp only
  rw [if_neg (fun h => part h.1), if_pos full]

/-- A partial write that finds room opens an entry of its line and is made. -/
theorem Work.couchLine_opens {x ctl a : Nat} {d : List Byte} {w : Work} (closed : w.couch? ctl (a / 128) = none)
    (part : a % 128 % codewordBytes ctl ≠ 0) (room : (w.ext.couch.filter (fun e => e.ctl == ctl)).length < couchSize ctl) :
    ((w.couchLine x ctl a d).couch? ctl (a / 128)).isSome = true ∧ (w.couchLine x ctl a d).out = (w.write a d).out := by
  have opened : ∀ e : Couch, e.ctl = ctl → e.line = a / 128 →
      ((w.ext.couch ++ [e]).find? (fun e => e.ctl == ctl && e.line == a / 128)).isSome = true := fun e hc hl =>
    List.find?_isSome.mpr ⟨e, List.mem_append_right _ (List.mem_singleton.mpr rfl), by rw [hc, hl]; simp⟩
  unfold Work.couchLine
  dsimp only
  rw [closed]
  dsimp only
  rw [if_neg (fun h => part h.1), if_neg (by omega)]
  constructor
  · unfold Dev.couch?
    rw [Work.engWrite_ext]
    split
    · exact opened _ rfl rfl
    · exact opened _ rfl rfl
  · refine (Work.engWrite_out _ _ _ _).trans (Work.write_out_congr ?_ _ _)
    split <;> rfl

theorem State.after_couch (s : State) (f : Work → Work) : (s.after f).ext.couch = (f s.work).ext.couch := Dev.heal_couch _ _

theorem Dev.couch?_congr {w w' : Dev} (h : w'.ext.couch = w.ext.couch) (ctl line : Nat) : w'.couch? ctl line = w.couch? ctl line := by
  unfold Dev.couch?
  rw [h]

/-- A command that makes one mapped write reads back, and leaves every other byte. -/
theorem exec_write {i : Instr} {s : State} {a : Nat} {d : List Byte} (out : (Machine.work i s.work).out = (s.work.write a d).out)
    (fits : mapped a d.length = true) : exec i s = .next (s.after (Machine.work i)) ∧
      (∀ k, k < d.length → (s.after (Machine.work i)).byte (a + k) = d.getD k 0#8) ∧
      ∀ b, b < a ∨ a + d.length ≤ b → (s.after (Machine.work i)).byte b = s.byte b := by
  have sound : (Machine.work i s.work).Sound := by
    unfold Work.Sound
    rw [out]
    exact Work.write_sound s.work_sound fits
  refine ⟨exec_sound sound, fun k hk => ?_, fun b hb => (State.after_byte out b).trans (if_neg (by omega))⟩
  rw [State.after_byte out, if_pos ⟨Nat.le_add_right _ _, by omega⟩, Nat.add_sub_cancel_left]

/-! ### Retirement (R281) -/

/-- Every codeword of a whole entry is whole. -/
theorem whole_codeword {ctl k : Nat} (h : k < 128 / codewordBytes ctl) :
    bits (2 ^ 128 - 1) (k * codewordBytes ctl) (codewordBytes ctl) = 2 ^ codewordBytes ctl - 1 := by
  have near : ∀ k, k < 16 → bits (2 ^ 128 - 1) (k * 8) 8 = 2 ^ 8 - 1 := by decide
  have tiers : ∀ k, k < 4 → bits (2 ^ 128 - 1) (k * 32) 32 = 2 ^ 32 - 1 := by decide
  unfold codewordBytes at h ⊢
  split at h
  · rw [if_pos ‹_›]
    exact near k h
  · rw [if_neg ‹_›]
    exact tiers k h

/-- One codeword's turn as an entry retires. -/
def Work.retireWord (e : Couch) (bad : List Nat) (k : Nat) (w : Work) : Work :=
  let cw := codewordBytes e.ctl
  if e.partly cw k then
    let (ue, w) := w.rmwRead e cw k bad
    if ue then
      let a := e.line * 128 + k * cw
      let w := w.write a ((e.old.drop (k * cw)).take cw)
      let x := match e.owners.find? (fun p => p.1 == k) with | some p => p.2 | none => e.last
      let (loc, src, w) := match extPlace a with
        | some p => (p.location, p.source, w)
        | none => let (v, w) := w.freeDraw; (v % 2 ^ 32, onchipSource a, w)
      (w.bumpUe Obj.deferredUeCount).log1 0x0505 x src loc (a % 2 ^ 64)
    else w
  else if bits e.valid (k * cw) cw = 0 then w
  else
    let a := e.line * 128 + k * cw
    let w := w.setErrs a []
    { w with ext := { w.ext with ue := w.ext.ue.filter (fun b => b != a) } }

theorem Work.retire_words (e : Couch) (bad : List Nat) (w : Work) : w.retire e bad =
    forUpto (Work.retireWord e bad) (128 / codewordBytes e.ctl) (w.setCouch (w.ext.couch.filter (fun g => !(g.ctl == e.ctl && g.line == e.line)))) := rfl

/-- A codeword of a whole entry retires without a read and without a write. -/
theorem Work.retireWord_whole {e : Couch} {bad : List Nat} {k : Nat} {w : Work} (whole : e.valid = 2 ^ 128 - 1) (low : k < 128 / codewordBytes e.ctl) :
    (w.retireWord e bad k).out = w.out ∧ (w.retireWord e bad k).ext.couch = w.ext.couch ∧ ∀ n, (w.retireWord e bad k).get n = w.get n := by
  have m : bits e.valid (k * codewordBytes e.ctl) (codewordBytes e.ctl) = 2 ^ codewordBytes e.ctl - 1 := by
    rw [whole]
    exact whole_codeword low
  have all : e.partly (codewordBytes e.ctl) k = false := by
    unfold Couch.partly
    rw [m]
    simp
  have turn : w.retireWord e bad k = w ∨ w.retireWord e bad k = { w.setErrs (e.line * 128 + k * codewordBytes e.ctl) [] with
      ext := { (w.setErrs (e.line * 128 + k * codewordBytes e.ctl) []).ext with
        ue := (w.setErrs (e.line * 128 + k * codewordBytes e.ctl) []).ext.ue.filter (fun b => b != e.line * 128 + k * codewordBytes e.ctl) } } := by
    unfold Work.retireWord
    dsimp only
    rw [if_neg (by rw [all]; exact Bool.false_ne_true)]
    split
    · exact .inl rfl
    · exact .inr rfl
  rcases turn with e | e
  · rw [e]
    exact ⟨rfl, rfl, fun _ => rfl⟩
  · rw [e]
    exact ⟨rfl, rfl, fun _ => rfl⟩

theorem forUpto_retireWord_whole {e : Couch} {bad : List Nat} {i : Nat} {w : Work} (whole : e.valid = 2 ^ 128 - 1)
    (low : i ≤ 128 / codewordBytes e.ctl) : (forUpto (Work.retireWord e bad) i w).out = w.out ∧
      (forUpto (Work.retireWord e bad) i w).ext.couch = w.ext.couch ∧ ∀ n, (forUpto (Work.retireWord e bad) i w).get n = w.get n := by
  induction i with
  | zero => exact ⟨rfl, rfl, fun _ => rfl⟩
  | succ i ih =>
    obtain ⟨out, couch, get⟩ := ih (by omega)
    obtain ⟨out', couch', get'⟩ := Work.retireWord_whole (bad := bad) (w := forUpto (Work.retireWord e bad) i w) whole low
    exact ⟨out'.trans out, couch'.trans couch, fun n => (get' n).trans (get n)⟩

theorem opCouchRetire_whole {ctl : Fin 22} {line : Nat} {bad : List Nat} {rst : Bool} {e : Couch} {w : Work} (found : w.couch? ctl line = some e)
    (whole : e.valid = 2 ^ 128 - 1) : (opCouchRetire ctl line bad rst w).out = w.out ∧ (opCouchRetire ctl line bad rst w).couch? ctl line = none ∧
      ∀ n, (opCouchRetire ctl line bad rst w).get n = w.get n := by
  have key : e.ctl = ctl ∧ e.line = line := by
    have h := List.find?_some (p := fun e : Couch => e.ctl == ctl.val && e.line == line) found
    simpa using h
  obtain ⟨out, couch, get⟩ := forUpto_retireWord_whole (bad := bad) (i := 128 / codewordBytes e.ctl)
    (w := w.setCouch (w.ext.couch.filter (fun g => !(g.ctl == e.ctl && g.line == e.line)))) whole (Nat.le_refl _)
  rw [← Work.retire_words] at out couch get
  have gone : ∀ w' : Dev, w'.ext.couch = (w.retire e bad).ext.couch → w'.couch? ctl line = none := by
    intro w' h
    unfold Dev.couch?
    rw [h, couch]
    refine List.find?_eq_none.mpr (fun g hg same => ?_)
    have other := (List.mem_filter.mp hg).2
    rw [key.1, key.2, same] at other
    exact Bool.false_ne_true other
  unfold opCouchRetire
  dsimp only
  rw [found]
  dsimp only
  rw [if_pos (.inl whole)]
  split
  · exact ⟨out, gone _ rfl, get⟩
  · exact ⟨out, gone _ rfl, get⟩

theorem opCouchRetire_stays {ctl : Fin 22} {line : Nat} {bad : List Nat} {e : Couch} {w : Work} (found : w.couch? ctl line = some e)
    (part : e.valid ≠ 2 ^ 128 - 1) (young : w.since e.time < e.hold) (still : w.ext.draining.contains ctl.val = false) :
    opCouchRetire ctl line bad false w = w := by
  unfold opCouchRetire
  dsimp only
  rw [found]
  dsimp only
  rw [if_neg]
  rintro (h | h | h | h)
  · exact part h
  · omega
  · rw [still] at h
    exact Bool.false_ne_true h
  · exact Bool.false_ne_true h

/-- Settles O22: a write within a line by the one write it makes, and a retirement codeword by codeword. -/
theorem couchingBuffers : Obligations.CouchingBuffers := by
  unfold Obligations.CouchingBuffers
  refine ⟨fun x a ctl d s some_ within fits ctl_ closed part room => ?_, fun x a ctl d s within ctl_ closed part full => ?_,
    fun x a d s some_ within fits ctl_ => ?_, fun ctl line bad rst e s found whole => ?_, fun ctl line bad e s found part young still => ?_⟩
  · have e : opCouchWrite x a d s.work = s.work.couchLine x ctl a d := by
      rw [opCouchWrite_line some_ within, Work.lineWrite, ctl_]
    obtain ⟨opened, out⟩ := Work.couchLine_opens (x := x) (d := d) (w := s.work) closed part room
    obtain ⟨next, read, rest⟩ := exec_write (i := .couchWrite x a d) (s := s) ((congrArg Work.out e).trans out) fits
    refine ⟨_, next, ?_, read, rest⟩
    rw [Dev.couch?_congr (State.after_couch _ _)]
    exact (congrArg (fun w : Work => (w.couch? ctl (a / 128)).isSome) e).trans opened
  · have e : opCouchWrite x a d s.work = s.work := by
      cases d with
      | nil => exact opCouchWrite_nil x a s.work
      | cons b r =>
        rw [opCouchWrite_line (d := b :: r) (Nat.succ_pos r.length) within, Work.lineWrite, ctl_]
        exact Work.couchLine_full closed part full
    exact ⟨_, exec_leave (i := .couchWrite x a d) e rfl, rfl, s.sameMem_leave _, fun _ _ => rfl⟩
  · have e : opCouchWrite x a d s.work = s.work.engWrite x a d := by
      rw [opCouchWrite_line some_ within, Work.lineWrite, ctl_]
    obtain ⟨next, read, rest⟩ := exec_write (i := .couchWrite x a d) (s := s) ((congrArg Work.out e).trans (Work.engWrite_out _ _ _ _)) fits
    refine ⟨_, next, ?_, fun n _ => ?_, read, rest⟩
    · exact (State.after_couch _ _).trans ((congrArg (fun w : Work => w.ext.couch) e).trans (congrArg ExtState.couch (Work.engWrite_ext _ _ _ _)))
    · exact (State.after_get _ _ _).trans ((congrArg (fun w : Work => w.get n) e).trans (Work.engWrite_get _ _ _ _ _))
  · obtain ⟨out, gone, get⟩ := opCouchRetire_whole (bad := bad) (rst := rst) (w := s.work) found whole
    exact ⟨_, exec_quiet (i := .couchRetire ctl line bad rst) out, gone, s.sameMem_leave _, fun n _ => get n⟩
  · have e := opCouchRetire_stays (bad := bad) (w := s.work) found part young still
    exact ⟨_, exec_leave (i := .couchRetire ctl line bad false) e rfl, rfl, s.sameMem_leave _, fun _ _ => rfl⟩


/-! ### What leaves the queues alone -/

@[simp] theorem Work.ite_q (c : Prop) [Decidable c] (a b : Work) :
    (if c then a else b).q = if c then a.q else b.q := by
  split <;> rfl

@[simp] theorem foldl_q {α : Type} (f : Work → α → Work) (h : ∀ w a, (f w a).q = w.q) (l : List α) (w : Work) :
    (l.foldl f w).q = w.q :=
  List.foldlRecOn l f (motive := fun w' => w'.q = w.q) rfl (fun w' same a _ => (h w' a).trans same)

@[simp] theorem Work.tagBlocks_q (n : Nat) (lo : Nat) (hi : Nat) (tag : Nat) (w : Work) : (Work.tagBlocks n lo hi tag w).q = w.q := by rfl

@[simp] theorem Work.engWrite_q (x : Nat) (a : Nat) (d : List Byte) (w : Work) : (Work.engWrite x a d w).q = w.q := by
  unfold Work.engWrite
  (repeat' split) <;> simp [*]

@[simp] theorem Work.setBlobs_q (c : Copy) (m : List (Nat × Nat)) (w : Work) : (Work.setBlobs c m w).q = w.q := by
  unfold Work.setBlobs
  (repeat' split) <;> simp [*]

@[simp] theorem Work.blobPut_q (c : Copy) (n : Nat) (off : Nat) (v : Nat) (len : Nat) (w : Work) : (Work.blobPut c n off v len w).q =
    w.q := by
  unfold Work.blobPut
  simp

@[simp] theorem Work.hoopPut_q (x : Nat) (t : Nat) (r : Nat) (w : Work) : (Work.hoopPut x t r w).q = w.q := by rfl

@[simp] theorem Work.countConv_q (x : Nat) (c : Conv) (w : Work) : (Work.countConv x c w).q = w.q := by
  unfold Work.countConv
  split <;> simp

@[simp] theorem Work.hoopReport_q (x : Nat) (t : Nat) (k : Conv) (w : Work) : (Work.hoopReport x t k w).q = w.q := by rfl

@[simp] theorem Work.writePieces_q (x : Nat) (ps : List (Nat × List Nat)) (w : Work) : (Work.writePieces x ps w).q = w.q := by
  unfold Work.writePieces
  dsimp only
  split <;> simp

@[simp] theorem Work.copyRun_q (j : CopyJob) (a : CopyAddrs) (w : Work) : (Work.copyRun j a w).2.2.q = w.q := by
  unfold Work.copyRun
  (repeat' split) <;> simp [*]

/-! ### COPY (R95) -/

theorem State.work_rowAddrs (s : State) (j : CopyJob) (start stride size : Nat) (k : Access) (n : Nat) :
    s.work.rowAddrs j start stride size k n = s.rowAddrs j start stride size k n := by
  induction n with
  | zero => rfl
  | succ n ih =>
    unfold Dev.rowAddrs
    rw [ih]
    rfl

theorem State.work_copyAddrs (s : State) (j : CopyJob) : s.work.copyAddrs j = s.copyAddrs j := by
  unfold Dev.copyAddrs
  rw [State.work_rowAddrs, State.work_rowAddrs]
  rfl

theorem Dev.running_cmd? {w : Dev} {id op : Nat} {c : Cmd} (h : w.running id op = some c) : w.cmd? id = some c ∧ c.done = none := by
  unfold Dev.running at h
  split at h
  · next c' found =>
    split at h
    · next ok => exact Option.some.inj h ▸ ⟨found, ok.2⟩
    · exact nomatch h
  · exact nomatch h

theorem opCopy_error {id st d : Nat} {c : Cmd} {w : Work} (running : w.running id 0x20 = some c)
    (fault : w.copyAddrs (w.copyJob c) = .error (st, d)) : opCopy id w = w.finishCmd id st d := by
  unfold opCopy
  rw [running]
  dsimp only
  rw [fault]

theorem opCopy_runs {id : Nat} {c : Cmd} {a : CopyAddrs} {w : Work} (running : w.running id 0x20 = some c)
    (ok : w.copyAddrs (w.copyJob c) = .ok a) :
    opCopy id w = ((w.copyRun (w.copyJob c) a).2.2.gather id (w.copyRun (w.copyJob c) a).1.flags).finishCmd id (w.copyRun (w.copyJob c) a).2.1 0 := by
  unfold opCopy
  rw [running]
  dsimp only
  rw [ok]

/-- A copy ends with OK or POISON (R63). -/
theorem Work.copyRun_status (j : CopyJob) (a : CopyAddrs) (w : Work) : (w.copyRun j a).2.1 = 0 ∨ (w.copyRun j a).2.1 = 0x0411 := by
  have either : ∀ (c : Prop) [Decidable c], (if c then 0x0411 else 0) = 0 ∨ (if c then 0x0411 else 0) = 0x0411 := by
    intro c _
    split
    · exact .inr rfl
    · exact .inl rfl
  exact either _

/-- A command that has gathered a conversion's flags and ended. -/
theorem Work.gather_endOf {id flags st d : Nat} {c : Cmd} {w : Work} (found : w.cmd? id = some c) (going : c.done = none) :
    ((w.gather id flags).finishCmd id st d).endOf id = some ⟨st, d, c.conv ||| flags, c.r1, c.r2⟩ :=
  Work.finishCmd_endOf (c := { c with conv := c.conv ||| flags }) (Work.mapCmd_cmd? (fun _ => rfl) found) going

theorem opCopy_endOf {id : Nat} {c : Cmd} {a : CopyAddrs} {w : Work} (running : w.running id 0x20 = some c)
    (ok : w.copyAddrs (w.copyJob c) = .ok a) :
    (opCopy id w).endOf id = some ⟨(w.copyRun (w.copyJob c) a).2.1, 0, c.conv ||| (w.copyRun (w.copyJob c) a).1.flags, c.r1, c.r2⟩ := by
  obtain ⟨found, going⟩ := Dev.running_cmd? running
  rw [opCopy_runs running ok]
  refine Work.gather_endOf ?_ going
  unfold Dev.cmd? at found ⊢
  rw [Work.copyRun_q]
  exact found

/-- The bytes that a raw row reads. -/
theorem raw_bytes (w : Work) (a n : Nat) : ((upto n).map (fun k => (w.byte (a + k)).toNat)).map (BitVec.ofNat 8) = w.read a n := by
  unfold Work.read
  rw [List.map_map]
  exact List.map_congr_left (fun k _ => BitVec.ofNat_toNat ..)

theorem Work.writePieces_one (x a : Nat) (d : List Nat) (w : Work) : w.writePieces x [(a, d)] = w.engWrite x a (d.map (BitVec.ofNat 8)) := rfl

/-- The rows of a copy. -/
def Work.copyRows (j : CopyJob) (a : CopyAddrs) (w : Work) : List RowOut := (upto j.rows).map (fun r => w.copyRow j a (w.scaleSrcOf j.x j.conv) r)

/-- What they count. -/
def convOf (rows : List RowOut) : Conv := rows.foldl (fun k r => k.add r.conv) Conv.none

theorem Work.copyRun_out (j : CopyJob) (a : CopyAddrs) (w : Work) :
    (w.copyRun j a).2.2.out = (w.writePieces j.x ((w.copyRows j a).flatMap (fun r => r.writes))).out := by
  have counted : ∀ (c : Prop) [Decidable c] (k : Conv) (w : Work), (if c then w else w.countConv j.x k).out = w.out := by
    intro c _ k w
    split
    · rfl
    · exact Work.countConv_out _ _ _
  have reported : ∀ (c : Prop) [Decidable c] (k : Conv) (w : Work), (if c then w.hoopReport j.x (dTslot j.conv) k else w).out = w.out := by
    intro c _ k w
    split
    · exact Work.hoopReport_out _ _ _ _
    · rfl
  unfold Work.copyRun
  dsimp only
  rw [reported, counted]
  rfl

theorem Work.copyRun_flags (j : CopyJob) (a : CopyAddrs) (w : Work) : (w.copyRun j a).1.flags = (convOf (w.copyRows j a)).flags |||
    (if (((w.copyRows j a).flatMap (fun r => r.drops)).filter (fun d => decide (0 < d.1))).isEmpty then 0 else fFlush) |||
    (if ((w.copyRows j a).flatMap (fun r => r.drops)).any (fun d => d.2) then fPoisonLost else 0) := rfl

/-- A copy that meets no poison ends with OK. -/
theorem Work.copyRun_clean {j : CopyJob} {a : CopyAddrs} {w : Work} (clean : (convOf (w.copyRows j a)).poisoned = false) :
    (w.copyRun j a).2.1 = 0 := by
  have ok : ∀ b : Bool, (if (convOf (w.copyRows j a)).poisoned && b then 0x0411 else 0) = 0 := by
    intro b
    rw [clean]
    rfl
  exact ok _

/-- A raw copy of one row makes one write. -/
theorem Work.copyRun_raw {j : CopyJob} {a : CopyAddrs} {w : Work} (raw : cSrcFmt j.conv = .raw) (one : j.rows = 1) :
    (w.copyRun j a).1.flags = 0 ∧ (w.copyRun j a).2.1 = 0 ∧
      (w.copyRun j a).2.2.out = (w.write (a.dst.getD 0 0) (w.read (a.src.getD 0 0) j.count)).out := by
  have row : w.copyRow j a (w.scaleSrcOf j.x j.conv) 0 =
      ⟨[(a.dst.getD 0 0, (upto j.count).map (fun k => (w.byte (a.src.getD 0 0 + k)).toNat))], Conv.none, []⟩ := if_pos raw
  have rows : w.copyRows j a =
      [⟨[(a.dst.getD 0 0, (upto j.count).map (fun k => (w.byte (a.src.getD 0 0 + k)).toNat))], Conv.none, []⟩] := by
    unfold Work.copyRows
    rw [one, ← row]
    rfl
  refine ⟨?_, Work.copyRun_clean (by rw [rows]; rfl), ?_⟩
  · have conv : ∀ ws, (convOf [⟨ws, Conv.none, []⟩]).flags = 0 := fun _ => Nat.or_self 0
    have drops : ∀ ws, ([⟨ws, Conv.none, []⟩] : List RowOut).flatMap (fun r => r.drops) = [] := fun _ => rfl
    rw [Work.copyRun_flags, rows, conv, drops]
    rfl
  · rw [Work.copyRun_out, rows]
    refine (congrArg Work.out (Work.writePieces_one _ _ _ _)).trans ?_
    rw [raw_bytes]
    exact Work.engWrite_out _ _ _ _

theorem State.after_endOf (s : State) (f : Work → Work) (id : Nat) : (s.after f).endOf id = (f s.work).endOf id := by
  unfold Dev.endOf Dev.cmd?
  rw [State.after_q]

/-- Settles O18: a fault of the ranges, the status of the run, and a raw row as the one write it makes. -/
theorem copyMovesBytes : Obligations.CopyMovesBytes := by
  unfold Obligations.CopyMovesBytes
  refine ⟨fun id st d c s running fault => ?_, fun id c a s running ok sound => ?_, fun id c a s running ok raw one fits => ?_⟩
  · obtain ⟨found, going⟩ := Dev.running_cmd? running
    have fault' : s.work.copyAddrs (s.work.copyJob c) = .error (st, d) := (State.work_copyAddrs s _).trans fault
    have e := opCopy_error (w := s.work) running fault'
    exact ⟨_, exec_leave (i := .copy id) e rfl, Work.finishCmd_endOf (w := s.work) found going, s.sameMem_leave _, fun _ _ => rfl⟩
  · have ok' : s.work.copyAddrs (s.work.copyJob c) = .ok a := (State.work_copyAddrs s _).trans ok
    have ended := opCopy_endOf (w := s.work) running ok'
    exact ⟨_, _, exec_sound (i := .copy id) sound, (State.after_endOf s (opCopy id) id).trans ended,
      Work.copyRun_status (s.work.copyJob c) a s.work, rfl⟩
  · have ok' : s.work.copyAddrs (s.work.copyJob c) = .ok a := (State.work_copyAddrs s _).trans ok
    have ended := opCopy_endOf (w := s.work) running ok'
    obtain ⟨flags, status, out⟩ := Work.copyRun_raw (j := s.work.copyJob c) (a := a) (w := s.work) raw one
    have count : (s.work.copyJob c).count = bCount c.raw := rfl
    have length : (s.work.read (a.src.getD 0 0) (bCount c.raw)).length = bCount c.raw := Work.read_length _ _ _
    rw [flags, status, Nat.or_zero] at ended
    rw [count] at out
    obtain ⟨next, read, rest⟩ := exec_write (i := .copy id) (s := s)
      ((congrArg Work.out (opCopy_runs (w := s.work) running ok')).trans out) (by rw [length]; exact fits)
    rw [length] at read rest
    refine ⟨_, next, (State.after_endOf s (opCopy id) id).trans ended, fun k hk => (read k hk).trans ?_, rest⟩
    rw [Work.read_getD _ _ hk]
    rfl

end Sys2Proof.Machine

namespace Sys2Proof.Machine

/-! ### What leaves the queues alone: row issue and read events -/

@[simp] theorem Work.setLocks_q (l : List PLock) (w : Work) : (Work.setLocks l w).q = w.q := by rfl

@[simp] theorem Work.mapJob_q (id : Nat) (f : PicotJob → PicotJob) (w : Work) : (Work.mapJob id f w).q = w.q := by rfl

@[simp] theorem Work.mapRow_q (id : Nat) (p : Nat) (f : PRow → PRow) (w : Work) : (Work.mapRow id p f w).q = w.q := by rfl

@[simp] theorem Work.issueRow_q (j : PicotJob) (r : PRow) (w : Work) : (Work.issueRow j r w).q = w.q := by
  unfold Work.issueRow
  (repeat' split) <;> simp [*]

@[simp] theorem Work.issueJob_q (id : Nat) (w : Work) : (w.issueJob id).q = w.q := by
  unfold Work.issueJob
  split
  · rfl
  next j _ =>
  split
  · rw [Work.ite_q, foldl_q]
    · exact ite_self _
    · intro w r
      (repeat' split) <;> simp
  · refine foldl_q _ (fun w r => ?_) _ _
    (repeat' split) <;> simp

@[simp] theorem Work.issueDie_q (d : Nat) (w : Work) : (Work.issueDie d w).q = w.q := by
  unfold Work.issueDie
  simp [*]

@[simp] theorem Work.xqParity_q (inst : Nat) (w : Work) : (Work.xqParity inst w).q = w.q := by
  unfold Work.xqParity
  simp

@[simp] theorem Work.bumpUe_q (n : Nat) (w : Work) : (Work.bumpUe n w).q = w.q := by rfl

@[simp] theorem Work.onchipWord_q (x : Nat) (a : Nat) (res : ReadRes) (w : Work) : (Work.onchipWord x a res w).q = w.q := by
  unfold Work.onchipWord
  split <;> simp

@[simp] theorem Work.readEvents_q (x : Nat) (a : Nat) (res : ReadRes) (w : Work) : (Work.readEvents x a res w).q = w.q := by
  unfold Work.readEvents
  (repeat' split) <;> simp [*]


/-! ### What leaves Picot alone -/

@[simp] theorem Work.ite_picot (c : Prop) [Decidable c] (a b : Work) :
    (if c then a else b).picot = if c then a.picot else b.picot := by
  split <;> rfl

@[simp] theorem foldl_picot {α : Type} (f : Work → α → Work) (h : ∀ w a, (f w a).picot = w.picot) (l : List α) (w : Work) :
    (l.foldl f w).picot = w.picot :=
  List.foldlRecOn l f (motive := fun w' => w'.picot = w.picot) rfl (fun w' same a _ => (h w' a).trans same)

@[simp] theorem Work.mapCmd_picot (id : Nat) (f : Cmd → Cmd) (w : Work) : (w.mapCmd id f).picot = w.picot := by rfl

@[simp] theorem Work.finishCmd_picot (id : Nat) (status : Nat) (detail : Nat) (w : Work) : (Work.finishCmd id status detail w).picot = w.picot := by
  unfold Work.finishCmd
  simp [*]

@[simp] theorem Work.tagBlocks_picot (n : Nat) (lo : Nat) (hi : Nat) (tag : Nat) (w : Work) : (Work.tagBlocks n lo hi tag w).picot = w.picot := by rfl

@[simp] theorem Work.engWrite_picot (x : Nat) (a : Nat) (d : List Byte) (w : Work) : (Work.engWrite x a d w).picot = w.picot := by
  unfold Work.engWrite
  (repeat' split) <;> simp [*]

@[simp] theorem Work.setBlobs_picot (c : Copy) (m : List (Nat × Nat)) (w : Work) : (Work.setBlobs c m w).picot = w.picot := by
  unfold Work.setBlobs
  (repeat' split) <;> simp [*]

@[simp] theorem Work.blobPut_picot (c : Copy) (n : Nat) (off : Nat) (v : Nat) (len : Nat) (w : Work) : (Work.blobPut c n off v len w).picot =
    w.picot := by
  unfold Work.blobPut
  simp

@[simp] theorem Work.xqParity_picot (inst : Nat) (w : Work) : (Work.xqParity inst w).picot = w.picot := by
  unfold Work.xqParity
  simp

@[simp] theorem Work.hoopPut_picot (x : Nat) (t : Nat) (r : Nat) (w : Work) : (Work.hoopPut x t r w).picot = w.picot := by rfl

@[simp] theorem Work.bumpUe_picot (n : Nat) (w : Work) : (Work.bumpUe n w).picot = w.picot := by rfl

@[simp] theorem Work.countConv_picot (x : Nat) (c : Conv) (w : Work) : (Work.countConv x c w).picot = w.picot := by
  unfold Work.countConv
  split <;> simp

@[simp] theorem Work.gather_picot (id : Nat) (flags : Nat) (w : Work) : (Work.gather id flags w).picot = w.picot := by
  unfold Work.gather
  simp

@[simp] theorem Work.hoopReport_picot (x : Nat) (t : Nat) (k : Conv) (w : Work) : (Work.hoopReport x t k w).picot = w.picot := by rfl

@[simp] theorem Work.onchipWord_picot (x : Nat) (a : Nat) (res : ReadRes) (w : Work) : (Work.onchipWord x a res w).picot = w.picot := by
  unfold Work.onchipWord
  split <;> simp

@[simp] theorem Work.readEvents_picot (x : Nat) (a : Nat) (res : ReadRes) (w : Work) : (Work.readEvents x a res w).picot = w.picot := by
  unfold Work.readEvents
  (repeat' split) <;> simp [*]


/-! ### What leaves the objects alone: row issue -/

@[simp] theorem Work.ite_obj (c : Prop) [Decidable c] (a b : Work) :
    (if c then a else b).obj = if c then a.obj else b.obj := by
  split <;> rfl

@[simp] theorem foldl_obj {α : Type} (f : Work → α → Work) (h : ∀ w a, (f w a).obj = w.obj) (l : List α) (w : Work) :
    (l.foldl f w).obj = w.obj :=
  List.foldlRecOn l f (motive := fun w' => w'.obj = w.obj) rfl (fun w' same a _ => (h w' a).trans same)

@[simp] theorem Work.setLocks_obj (l : List PLock) (w : Work) : (Work.setLocks l w).obj = w.obj := by rfl

@[simp] theorem Work.mapJob_obj (id : Nat) (f : PicotJob → PicotJob) (w : Work) : (Work.mapJob id f w).obj = w.obj := by rfl

@[simp] theorem Work.mapRow_obj (id : Nat) (p : Nat) (f : PRow → PRow) (w : Work) : (Work.mapRow id p f w).obj = w.obj := by rfl

@[simp] theorem Work.issueRow_obj (j : PicotJob) (r : PRow) (w : Work) : (Work.issueRow j r w).obj = w.obj := by
  unfold Work.issueRow
  (repeat' split) <;> simp [*]

@[simp] theorem Work.issueJob_obj (id : Nat) (w : Work) : (w.issueJob id).obj = w.obj := by
  unfold Work.issueJob
  split
  · rfl
  next j _ =>
  split
  · rw [Work.ite_obj, foldl_obj]
    · exact ite_self _
    · intro w r
      (repeat' split) <;> simp
  · refine foldl_obj _ (fun w r => ?_) _ _
    (repeat' split) <;> simp

theorem Dev.get_of_obj {w w' : Dev} (h : w'.obj = w.obj) (n : Nat) : w'.get n = w.get n := by
  unfold Dev.get
  rw [h]

/-! ### Jobs and their rows

A row that issues changes its state only; jobs keep their identities and their rows their positions. -/

/-- The jobs in flight with the positions of their rows. -/
def Dev.rowKeys (w : Dev) : List (Nat × List Nat) := w.picot.jobs.map (fun j => (j.id, j.rows.map (fun r => r.p)))

/-- Every row at position p of the command's job is in a state. -/
def Dev.RowsIn (w : Dev) (id p st : Nat) : Prop := ∀ j ∈ w.picot.jobs, j.id = id → ∀ u ∈ j.rows, u.p = p → u.state = st

theorem Dev.RowsIn.congr {w w' : Dev} {id p st : Nat} (h : w'.picot = w.picot) (rows : w.RowsIn id p st) : w'.RowsIn id p st := by
  unfold Dev.RowsIn
  rw [h]
  exact rows

theorem Dev.rowKeys_congr {w w' : Dev} (h : w'.picot.jobs = w.picot.jobs) : w'.rowKeys = w.rowKeys := by
  unfold Dev.rowKeys
  rw [h]

theorem Work.mapRow_jobs (id p : Nat) (f : PRow → PRow) (w : Work) : (w.mapRow id p f).picot.jobs = w.picot.jobs.map (fun j =>
    if j.id = id then { j with rows := j.rows.map (fun r => if r.p = p then f r else r) } else j) := rfl

theorem Work.mapRow_rowKeys {id p : Nat} {f : PRow → PRow} (keeps : ∀ r, (f r).p = r.p) (w : Work) : (w.mapRow id p f).rowKeys = w.rowKeys := by
  unfold Dev.rowKeys
  rw [Work.mapRow_jobs, List.map_map]
  refine List.map_congr_left (fun j _ => ?_)
  by_cases hid : j.id = id
  · simp only [Function.comp, if_pos hid]
    refine congrArg (Prod.mk j.id) ?_
    rw [List.map_map]
    refine List.map_congr_left (fun r _ => ?_)
    show (if r.p = p then f r else r).p = r.p
    split
    · exact keeps r
    · rfl
  · simp only [Function.comp, if_neg hid]

/-- A row at another position, or of another job, keeps its state. -/
theorem Work.mapRow_other {id p id' p' st : Nat} {f : PRow → PRow} {w : Work} (keeps : ∀ r, (f r).p = r.p) (apart : id = id' → p' ≠ p)
    (rows : w.RowsIn id p st) : (w.mapRow id' p' f).RowsIn id p st := by
  intro j hj key u hu at_
  rw [Work.mapRow_jobs] at hj
  obtain ⟨k, hk, rfl⟩ := List.mem_map.mp hj
  by_cases hid : k.id = id'
  · rw [if_pos hid] at key hu
    obtain ⟨v, hv, rfl⟩ := List.mem_map.mp hu
    have other : v.p ≠ p' := fun hp => by
      rw [if_pos hp, keeps] at at_
      exact apart (key.symm.trans hid) (hp.symm.trans at_)
    rw [if_neg other] at at_ ⊢
    exact rows k hk key v hv at_
  · rw [if_neg hid] at key hu
    exact rows k hk key u hu at_

/-- A row that is put in a state is in it. -/
theorem Work.mapRow_puts {id p st : Nat} {f : PRow → PRow} (puts : ∀ r, (f r).state = st) (w : Work) :
    (w.mapRow id p f).RowsIn id p st := by
  intro j hj key u hu at_
  rw [Work.mapRow_jobs] at hj
  obtain ⟨k, hk, rfl⟩ := List.mem_map.mp hj
  by_cases hid : k.id = id
  · rw [if_pos hid] at hu
    obtain ⟨v, hv, rfl⟩ := List.mem_map.mp hu
    by_cases hp : v.p = p
    · rw [if_pos hp]
      exact puts v
    · rw [if_neg hp] at at_
      exact absurd at_ hp
  · rw [if_neg hid] at key
    exact absurd key hid

/-- Issue keeps jobs, positions, and the rows that are neither at its position nor of its job. -/
structure Work.Issued (id : Nat) (w w' : Work) : Prop where
  keys : w'.rowKeys = w.rowKeys
  rows : ∀ {p st}, st ≠ 0 → w.RowsIn id p st → w'.RowsIn id p st

theorem Work.Issued.refl (id : Nat) (w : Work) : w.Issued id w := ⟨rfl, fun _ h => h⟩

theorem Work.Issued.trans {id : Nat} {a b c : Work} (h : a.Issued id b) (h' : b.Issued id c) : a.Issued id c :=
  ⟨h'.keys.trans h.keys, fun live rows => h'.rows live (h.rows live rows)⟩

theorem foldl_issued {id : Nat} {α : Type} {f : Work → α → Work} (l : List α) (w : Work) (h : ∀ (w' : Work), ∀ a ∈ l, w.Issued id w' → w.Issued id (f w' a)) :
    w.Issued id (l.foldl f w) :=
  List.foldlRecOn l f (motive := fun w' => w.Issued id w') (Work.Issued.refl id w) (fun w' same a ha => h w' a ha same)

/-- A row that issues takes its lock where it needs one and changes its state; or nothing happens. -/
theorem Work.issueRow_cases (j : PicotJob) (r : PRow) (w : Work) : w.issueRow j r = w ∨
    ∃ (l : List PLock) (f : PRow → PRow), (∀ r, (f r).p = r.p) ∧ w.issueRow j r = (w.setLocks l).mapRow j.id r.p f := by
  have go : ∃ (l : List PLock) (f : PRow → PRow), (∀ r, (f r).p = r.p) ∧
      (if j.kind = 0 then w else w.setLocks (w.picot.locks ++ [⟨j.die, r.addr, j.id⟩])).mapRow j.id r.p (fun (r : PRow) => { r with state := 2 }) =
        (w.setLocks l).mapRow j.id r.p f := by
    split
    · exact ⟨w.picot.locks, fun (r : PRow) => { r with state := 2 }, fun _ => rfl, rfl⟩
    · exact ⟨_, fun (r : PRow) => { r with state := 2 }, fun _ => rfl, rfl⟩
  unfold Work.issueRow
  dsimp only
  split
  · exact .inr ⟨w.picot.locks, fun (r : PRow) => { r with state := 1, since := w.time }, fun _ => rfl, rfl⟩
  · split
    · split
      · exact .inl rfl
      · exact .inr go
    · exact .inr go

theorem Work.issueRow_keys (j : PicotJob) (r : PRow) (w : Work) : (w.issueRow j r).rowKeys = w.rowKeys := by
  rcases w.issueRow_cases j r with e | ⟨l, f, keeps, e⟩
  · rw [e]
  · rw [e]
    exact (Work.mapRow_rowKeys keeps _).trans (Dev.rowKeys_congr rfl)

theorem Work.issueRow_other {j : PicotJob} {r : PRow} {w : Work} {id p st : Nat} (apart : j.id = id → r.p ≠ p) (rows : w.RowsIn id p st) :
    (w.issueRow j r).RowsIn id p st := by
  rcases w.issueRow_cases j r with e | ⟨l, f, keeps, e⟩
  · rw [e]
    exact rows
  · have locked : (w.setLocks l).RowsIn id p st := rows
    rw [e]
    exact Work.mapRow_other keeps (fun h => apart h.symm) locked

theorem Dev.picotJob?_mem {w : Dev} {id : Nat} {j : PicotJob} (h : w.picotJob? id = some j) : j ∈ w.picot.jobs ∧ j.id = id :=
  ⟨List.mem_of_find?_eq_some h, beq_iff_eq.mp (List.find?_some (p := fun j : PicotJob => j.id == id) h)⟩

/-- A row of a job that has not issued is not at a position whose rows have. -/
theorem Work.issueRow_issued {id id' : Nat} {w w' : Work} {j k : PicotJob} {r : PRow} (job : w.picotJob? id' = some j) (row : r ∈ j.rows)
    (now : w'.picotJob? id' = some k) (waits : r.state = 0) (same : w.Issued id w') : w.Issued id (w'.issueRow k r) := by
  refine ⟨(Work.issueRow_keys k r w').trans same.keys, fun {p st} live rows => Work.issueRow_other (fun key at_ => ?_) (same.rows live rows)⟩
  have jid : j.id = id := (Dev.picotJob?_mem job).2.trans ((Dev.picotJob?_mem now).2.symm.trans key)
  exact live ((rows j (Dev.picotJob?_mem job).1 jid r row at_).symm.trans waits)

theorem mem_insertRow {r a : PRow} {l : List PRow} (h : r ∈ insertRow a l) : r = a ∨ r ∈ l := by
  induction l with
  | nil => exact .inl (List.mem_singleton.mp h)
  | cons b t ih =>
    unfold insertRow at h
    split at h
    · rcases List.mem_cons.mp h with e | h
      · exact .inl e
      · exact .inr h
    · rcases List.mem_cons.mp h with e | h
      · exact .inr (List.mem_cons.mpr (.inl e))
      · exact (ih h).imp_right (List.mem_cons_of_mem _)

theorem mem_sortedRows {r : PRow} {l : List PRow} (h : r ∈ l.foldl (fun l r => insertRow r l) []) : r ∈ l := by
  have all : ∀ (k acc : List PRow), r ∈ k.foldl (fun l r => insertRow r l) acc → r ∈ acc ∨ r ∈ k := by
    intro k
    induction k with
    | nil => exact fun acc h => .inl h
    | cons a t ih =>
      intro acc h
      rcases ih _ h with h | h
      · exact (mem_insertRow h).elim (fun e => .inr (List.mem_cons.mpr (.inl e))) .inl
      · exact .inr (List.mem_cons_of_mem _ h)
  exact (all l [] h).resolve_left (fun h => nomatch h)

theorem Work.issueJob_issued (id id' : Nat) (w : Work) : w.Issued id (w.issueJob id') := by
  have gated : ∀ (c : Prop) [Decidable c] (w' : Work), w.Issued id w' → w.Issued id (if c then w else w') := by
    intro c _ w' h
    split
    · exact .refl id w
    · exact h
  unfold Work.issueJob
  split
  · exact .refl id w
  · next j job =>
    dsimp only
    split
    · refine gated _ _ (foldl_issued _ w (fun w' r hr same => ?_))
      split
      · next k now =>
        split
        · next go => exact Work.issueRow_issued job (mem_sortedRows hr) now go.1 same
        · exact same
      · exact same
    · refine foldl_issued _ w (fun w' r hr same => ?_)
      split
      · next k now =>
        split
        · next go => exact Work.issueRow_issued job hr now go.1 same
        · exact same
      · exact same

theorem Work.issueDie_issued (id d : Nat) (w : Work) : w.Issued id (w.issueDie d) := by
  unfold Work.issueDie
  refine foldl_issued _ w (fun w' j _ same => ?_)
  split
  · exact same.trans (Work.issueJob_issued id j.id w')
  · exact same

/-- Jobs of the same keys. -/
theorem Dev.picotJob?_of_keys {w w' : Dev} (h : w'.rowKeys = w.rowKeys) (id : Nat) :
    (w'.picotJob? id).map (fun j => j.rows.map (fun r => r.p)) = (w.picotJob? id).map (fun j => j.rows.map (fun r => r.p)) := by
  have found : ∀ v : Dev, (v.picotJob? id).map (fun j => j.rows.map (fun r => r.p)) = (v.rowKeys.find? (fun k => k.1 == id)).map (fun k => k.2) := by
    intro v
    unfold Dev.picotJob? Dev.rowKeys
    rw [List.find?_map, Option.map_map]
    rfl
  rw [found, found, h]

theorem Dev.picotJob?_isSome_of_keys {w w' : Dev} (h : w'.rowKeys = w.rowKeys) (id : Nat) :
    (w'.picotJob? id).isSome = (w.picotJob? id).isSome := by
  have e := congrArg Option.isSome (Dev.picotJob?_of_keys h id)
  rwa [Option.isSome_map, Option.isSome_map] at e

/-! ### The end of a Picot command -/

theorem Dev.cmd?_congr {w w' : Dev} (h : w'.q = w.q) (id : Nat) : w'.cmd? id = w.cmd? id := by
  unfold Dev.cmd?
  rw [h]

theorem Dev.endOf_congr {w w' : Dev} (h : w'.q = w.q) (id : Nat) : w'.endOf id = w.endOf id := by
  unfold Dev.endOf
  rw [Dev.cmd?_congr h]

theorem Work.endPicot_endOf {id st d : Nat} {c : Cmd} {w : Work} (found : w.cmd? id = some c) (going : c.done = none) :
    (w.endPicot id st d).endOf id = some ⟨st, d, c.conv, c.r1, c.r2⟩ := by
  unfold Work.endPicot
  dsimp only
  rw [Dev.endOf_congr (Work.issueDie_q _ _)]
  exact Work.finishCmd_endOf found going

/-- A command that has ended has no job. -/
theorem Work.endPicot_job (id st d : Nat) (w : Work) : (w.endPicot id st d).picotJob? id = none := by
  have gone : ((((w.dropLocks id).setJobs ((w.dropLocks id).picot.jobs.filter (fun j => j.id != id))).finishCmd id st d).picotJob? id) = none :=
    List.find?_eq_none.mpr (fun j hj same => by
      have other := (List.mem_filter.mp hj).2
      simp_all)
  have same : ((w.endPicot id st d).picotJob? id).isSome = false := by
    unfold Work.endPicot
    dsimp only
    rw [Dev.picotJob?_isSome_of_keys (Work.issueDie_issued id _ _).keys, gone]
    rfl
  exact Option.isSome_eq_false_iff.mp same |> Option.isNone_iff_eq_none.mp

/-! ### A lock that is granted (R316) -/

theorem opPicotLockGrant_grants {id p : Nat} {j : PicotJob} {r : PRow} {w : Work} (job : w.picotJob? id = some j)
    (row : j.rows.find? (fun r => r.p == p) = some r) (waits : r.state = 1) (free : w.rowLocked j r.addr = false) :
    opPicotLockGrant id p w = ((((w.raiseMax Obj.lockWaitMaxNs (w.since r.since)).bump (Obj.picotLockWaitNs j.ctx) (w.since r.since)).mapRow id p
      (fun (r : PRow) => { r with state := 0 })).issueRow j r).issueJob id := by
  unfold opPicotLockGrant
  rw [job]
  dsimp only
  rw [row]
  dsimp only
  rw [if_neg (by rw [waits, free]; simp)]

/-- A row whose lock is free and that is not streamed is issued. -/
theorem Work.issueRow_free {j : PicotJob} {r : PRow} {w : Work} (free : w.rowLocked j r.addr = false) (kind : j.kind ≠ 1) :
    ∃ l, w.issueRow j r = (w.setLocks l).mapRow j.id r.p (fun (r : PRow) => { r with state := 2 }) := by
  unfold Work.issueRow
  dsimp only
  rw [if_neg (by rw [free]; exact Bool.false_ne_true), if_neg kind]
  split
  · exact ⟨w.picot.locks, rfl⟩
  · exact ⟨_, rfl⟩

theorem opPicotLockGrant_issues {id p : Nat} {j : PicotJob} {r : PRow} {w : Work} (job : w.picotJob? id = some j)
    (row : j.rows.find? (fun r => r.p == p) = some r) (waits : r.state = 1) (free : w.rowLocked j r.addr = false) (kind : j.kind ≠ 1) :
    ((opPicotLockGrant id p w).picotJob? id).any (fun q => q.rows.any (fun r => r.p == p && r.state == 2)) = true := by
  obtain ⟨mem, key⟩ := Dev.picotJob?_mem job
  have at_ : r.p = p := beq_iff_eq.mp (List.find?_some (p := fun r : PRow => r.p == p) row)
  obtain ⟨waiting, hw⟩ : ∃ v : Work, v = ((w.raiseMax Obj.lockWaitMaxNs (w.since r.since)).bump (Obj.picotLockWaitNs j.ctx) (w.since r.since)).mapRow id p
      (fun (r : PRow) => { r with state := 0 }) := ⟨_, rfl⟩
  have keys : waiting.rowKeys = w.rowKeys := by
    rw [hw]
    exact (Work.mapRow_rowKeys (f := fun (r : PRow) => { r with state := 0 }) (fun _ => rfl) _).trans (Dev.rowKeys_congr rfl)
  have free' : waiting.rowLocked j r.addr = false := by
    rw [hw]
    exact free
  obtain ⟨l, issued⟩ := Work.issueRow_free free' kind
  have e : opPicotLockGrant id p w = (waiting.issueRow j r).issueJob id := by
    rw [hw]
    exact opPicotLockGrant_grants job row waits free
  have after := Work.issueJob_issued id id (waiting.issueRow j r)
  have rows : (opPicotLockGrant id p w).RowsIn id p 2 := by
    rw [e]
    refine after.rows (by decide) ?_
    rw [issued, key, at_]
    exact Work.mapRow_puts (f := fun (r : PRow) => { r with state := 2 }) (fun _ => rfl) _
  have keys' : (opPicotLockGrant id p w).rowKeys = w.rowKeys := by
    rw [e]
    exact after.keys.trans ((Work.issueRow_keys j r waiting).trans keys)
  have there := Dev.picotJob?_of_keys keys' id
  rw [job] at there
  obtain ⟨q, now, ps⟩ := Option.map_eq_some_iff.mp there
  obtain ⟨u, hu, hp⟩ := List.mem_map.mp (ps ▸ List.mem_map.mpr ⟨r, List.mem_of_find?_eq_some row, at_⟩ : p ∈ q.rows.map (fun r => r.p))
  have st := rows q (Dev.picotJob?_mem now).1 (Dev.picotJob?_mem now).2 u hu hp
  rw [now]
  exact List.any_eq_true.mpr ⟨u, hu, by rw [hp, st]; simp⟩

theorem opPicotLockGrant_waited {id p : Nat} {j : PicotJob} {r : PRow} {w : Work} (job : w.picotJob? id = some j)
    (row : j.rows.find? (fun r => r.p == p) = some r) (waits : r.state = 1) (free : w.rowLocked j r.addr = false) :
    (opPicotLockGrant id p w).get (Obj.picotLockWaitNs j.ctx) = min (w.get (Obj.picotLockWaitNs j.ctx) + w.since r.since) (maxU 64) := by
  rw [opPicotLockGrant_grants job row waits free, Dev.get_of_obj (Work.issueJob_obj _ _), Dev.get_of_obj (Work.issueRow_obj _ _ _)]
  refine (Work.bump_get_same _ _ _).trans (congrArg (fun v => min (v + w.since r.since) (maxU 64)) ?_)
  exact Work.put_get_other _ _ (by unfold Obj.picotLockWaitNs Obj.lockWaitMaxNs; omega)

/-! ### A row that returns (R317) -/

theorem Work.mapJob_rowsIn {id id' p st : Nat} {f : PicotJob → PicotJob} {w : Work} (keeps : ∀ j, (f j).id = j.id ∧ (f j).rows = j.rows)
    (rows : w.RowsIn id p st) : (w.mapJob id' f).RowsIn id p st := by
  intro j hj key u hu at_
  obtain ⟨k, hk, rfl⟩ := List.mem_map.mp hj
  by_cases hid : k.id = id'
  · rw [if_pos hid] at key hu
    rw [(keeps k).1] at key
    rw [(keeps k).2] at hu
    exact rows k hk key u hu at_
  · rw [if_neg hid] at key hu
    exact rows k hk key u hu at_

theorem Work.endPicot_rowsIn {id id' p st : Nat} (live : st ≠ 0) (status d : Nat) {w : Work} (rows : w.RowsIn id p st) :
    (w.endPicot id' status d).RowsIn id p st := by
  unfold Work.endPicot
  exact (Work.issueDie_issued id _ _).rows live (fun j hj => rows j (List.mem_filter.mp hj).1)

theorem Work.gatherOut_rowsIn {id p st : Nat} {c : Cmd} {j : PicotJob} {o : Nat} {l : List (List Nat)} {w : Work} (rows : w.RowsIn id p st) :
    (w.gatherOut c j o l).RowsIn id p st := by
  have marked : ∀ (b : Prop) [Decidable b] (w' : Work), w'.RowsIn id p st → (if b then w'.mapJob j.id (fun (j : PicotJob) =>
      { j with fail := j.fail.or (some (0x0411, 0)) }) else w').RowsIn id p st := by
    intro b _ w' rows'
    split
    · exact Work.mapJob_rowsIn (f := fun (j : PicotJob) => { j with fail := j.fail.or (some (0x0411, 0)) }) (fun _ => ⟨rfl, rfl⟩) rows'
    · exact rows'
  unfold Work.gatherOut
  dsimp only
  split
  · exact rows.congr (Work.engWrite_picot _ _ _ _)
  · exact marked _ _ (rows.congr (by simp))

theorem Work.gatherStep_rowsIn {id p st : Nat} (live : st ≠ 0) {c : Cmd} {w : Work} (rows : w.RowsIn id p st) : (w.gatherStep c).RowsIn id p st := by
  unfold Work.gatherStep
  split
  · exact rows
  · next j _ =>
    have outs : (j.left.foldl (fun w o =>
        match w.picotJob? c.id with
        | some j =>
          let rows := (upto (gPer c.raw)).map (fun i => j.got.find? (fun g => g.1 == o * gPer c.raw + i))
          if rows.all (fun r => r.isSome) then
            let w := w.gatherOut c j o (rows.map (fun r => match r with | some g => g.2 | none => []))
            w.mapJob c.id (fun (j : PicotJob) =>
              { j with left := j.left.filter (fun q => q != o), got := j.got.filter (fun g => g.1 / gPer c.raw != o) })
          else w
        | none => w) w).RowsIn id p st := by
      refine List.foldlRecOn j.left _ (motive := fun w' : Work => w'.RowsIn id p st) rows (fun w' rows' o _ => ?_)
      split
      · dsimp only
        split
        · exact Work.mapJob_rowsIn (fun _ => ⟨rfl, rfl⟩) (Work.gatherOut_rowsIn rows')
        · exact rows'
      · exact rows'
    dsimp only
    split
    · split
      · split
        · exact Work.endPicot_rowsIn live _ _ outs
        · exact Work.endPicot_rowsIn live _ _ outs
      · exact outs
    · exact outs

theorem Work.rowDone_rowsIn (c : Cmd) (j : PicotJob) (r : PRow) (w : Work) : (w.rowDone c j r).RowsIn j.id r.p 3 := by
  have done : (w.mapRow j.id r.p (fun (r : PRow) => { r with state := 3 })).RowsIn j.id r.p 3 :=
    Work.mapRow_puts (f := fun (r : PRow) => { r with state := 3 }) (fun _ => rfl) w
  unfold Work.rowDone
  dsimp only
  split
  · exact Work.gatherStep_rowsIn (by decide) done
  · split
    · have unlocked : ∀ l, ((w.mapRow j.id r.p (fun (r : PRow) => { r with state := 3 })).setLocks l).RowsIn j.id r.p 3 := fun _ => done
      split
      · split
        · split
          · exact Work.endPicot_rowsIn (by decide) _ _ (unlocked _)
          · exact Work.endPicot_rowsIn (by decide) _ _ (unlocked _)
        · exact (Work.issueDie_issued j.id _ _).rows (by decide) (unlocked _)
      · exact unlocked _
    · exact done

section
variable {id p : Nat} {res : ReadRes} {j : PicotJob} {c : Cmd} {r : PRow} {w : Work} (job : w.picotJob? id = some j) (command : w.cmd? id = some c)
  (row : j.rows.find? (fun r => r.p == p) = some r) (issued : r.state = 2)
include job command row issued

theorem opPicotRowReturn_done : (opPicotRowReturn id p res w).RowsIn id p 3 := by
  have key : j.id = id := (Dev.picotJob?_mem job).2
  have at_ : r.p = p := beq_iff_eq.mp (List.find?_some (p := fun r : PRow => r.p == p) row)
  have done : ∀ w' : Work, (w'.rowDone c j r).RowsIn id p 3 := fun w' => key ▸ at_ ▸ Work.rowDone_rowsIn c j r w'
  unfold opPicotRowReturn
  rw [job, command]
  dsimp only
  rw [row]
  dsimp only
  rw [if_neg (fun h => h issued)]
  split
  · split
    · exact Work.mapJob_rowsIn (fun _ => ⟨rfl, rfl⟩) (Work.mapRow_puts (f := fun (r : PRow) => { r with state := 3 }) (fun _ => rfl) _)
    · intro q hq ended
      have none_ := List.find?_eq_none.mp (Work.endPicot_job id _ _ _) q hq
      exact absurd (beq_iff_eq.mpr ended) none_
  · split
    · exact done _
    · exact done _

theorem opPicotRowReturn_fails {st d : Nat} (fail : readFail r.addr res = some (st, d)) (kind : j.kind ≠ 2) :
    opPicotRowReturn id p res w =
      (((w.readEvents c.ctx r.addr res).bump (Obj.picotRowsRead c.ctx) 1).bump (Obj.picotColdRows c.ctx) (b2n r.cold)).endPicot id st d := by
  unfold opPicotRowReturn
  rw [job, command]
  dsimp only
  rw [row]
  dsimp only
  rw [if_neg (fun h => h issued), fail]
  exact if_neg kind

end

/-- Settles O29: a row's state through the issue that its lock, its return or its command's end allows. -/
theorem picotRowsGoOn : Obligations.PicotRowsGoOn := by
  unfold Obligations.PicotRowsGoOn
  refine ⟨fun id p j r s job row waits free kind small => ?_, fun id p res j c r s job command row issued => ⟨fun sound => ?_, fun st d fail kind going => ?_⟩⟩
  · exact ⟨_, exec_quiet (i := .picotLockGrant id p) (opPicotLockGrant_out id p s.work), s.sameMem_leave _,
      opPicotLockGrant_waited (w := s.work) job row waits free, opPicotLockGrant_issues (w := s.work) job row waits free kind⟩
  · have rows := opPicotRowReturn_done (w := s.work) (res := res) job command row issued
    refine ⟨_, exec_sound (i := .picotRowReturn id p res) sound, fun q found => ?_⟩
    have found' : (opPicotRowReturn id p res s.work).picotJob? id = some q := by
      have same := congrArg (fun d : PicotState => d.jobs.find? (fun j => j.id == id)) (State.after_picot s (opPicotRowReturn id p res))
      exact same.symm.trans found
    exact fun u hu => rows q (Dev.picotJob?_mem found').1 (Dev.picotJob?_mem found').2 u hu
  · have e := opPicotRowReturn_fails (w := s.work) job command row issued fail kind
    refine ⟨_, exec_leave (i := .picotRowReturn id p res) e ((Work.endPicot_out _ _ _ _).trans (Work.readEvents_out _ _ _ _)), s.sameMem_leave _,
      Work.endPicot_job _ _ _ _, ?_⟩
    refine Work.endPicot_endOf ?_ going
    exact (Dev.cmd?_congr (w := s.work.toDev) (Work.readEvents_q _ _ _ _) id).trans command


/-! ### The start of a Picot command (R303, R304, R315) -/

theorem State.work_picotRanges (s : State) (c : Cmd) : s.work.picotRanges c = s.picotRanges c := rfl

/-- A job that joins the others is found. -/
theorem Work.setJobs_listed (l : List PicotJob) {j : PicotJob} {id : Nat} (key : j.id = id) (w : Work) :
    ((w.setJobs (l ++ [j])).picotJob? id).isSome = true :=
  List.find?_isSome.mpr ⟨j, List.mem_append_right _ (List.mem_singleton.mpr rfl), beq_iff_eq.mpr key⟩

section
variable {c : Cmd} {w : Work} {ha ia oa : Nat}

theorem Work.startPicot_fault {st d : Nat} (fault : w.picotRanges c = .error (st, d)) : w.startPicot c = w.finishCmd c.id st d := by
  unfold Work.startPicot
  rw [fault]

variable (ok : w.picotRanges c = .ok (ha, ia, oa))
include ok

theorem Work.startPicot_header {st d : Nat} (fault : headerFault c.raw (w.readNat ha 64) = some (st, d)) :
    w.startPicot c = w.finishCmd c.id st d := by
  unfold Work.startPicot
  rw [ok]
  dsimp only
  rw [fault]

variable (header : headerFault c.raw (w.readNat ha 64) = none)
include header

theorem Work.startPicot_range {p : Nat × Nat} (scatter : gScatter c.raw = true) (batch : cNpb c.raw ≠ 0)
    (bad : (w.indices c ia).find? (fun q => decide (gNrows c.raw ≤ q.2)) = some p) : w.startPicot c = w.finishCmd c.id 0x0217 p.1 := by
  unfold Work.startPicot
  rw [ok]
  dsimp only
  rw [header]
  dsimp only
  rw [if_pos scatter, if_neg batch, if_pos rfl, bad]
  rfl

/-- A command whose checks pass is under way or has ended. -/
theorem Work.startPicot_goes (found : w.cmd? c.id = some c) (going : c.done = none) :
    ((w.startPicot c).picotJob? c.id).isSome = true ∨ ((w.startPicot c).endOf c.id).isSome = true := by
  have ended : ∀ (w' : Work) (c' : Cmd) (st d : Nat), w'.cmd? c.id = some c' → c'.done = none →
      ((w'.finishCmd c.id st d).endOf c.id).isSome = true := fun w' c' st d f g =>
    Option.isSome_iff_exists.mpr ⟨_, Work.finishCmd_endOf f g⟩
  have begun : (w.mapCmd c.id (fun c => { c with begun := true })).cmd? c.id = some { c with begun := true } :=
    Work.mapCmd_cmd? (fun _ => rfl) found
  unfold Work.startPicot
  rw [ok]
  dsimp only
  rw [header]
  dsimp only
  generalize (if gScatter c.raw = true then if cNpb c.raw = 0 then 1 else 2 else 0) = kind
  split
  · exact .inr (ended _ _ _ _ found going)
  · generalize w.picotRows c (w.readNat ha 64) w.time (w.indices c ia) = listed
    obtain ⟨rows, fail⟩ := listed
    dsimp only
    generalize (if kind = 0 then rows.take (rows.length / gPer c.raw * gPer c.raw) else if kind = 2 then mergeRows rows else rows) = rows
    generalize fail.map (fun x => (x.2.1, x.2.2)) = fail
    split
    · split
      · exact .inr (ended _ _ _ _ begun going)
      · exact .inl (Work.setJobs_listed _ rfl _)
    · split
      · split
        · exact .inr (Option.isSome_iff_exists.mpr ⟨_, Work.endPicot_endOf ((Dev.cmd?_congr (Work.setJobs_q _ _) _).trans begun) going⟩)
        · exact .inr (Option.isSome_iff_exists.mpr ⟨_, Work.endPicot_endOf ((Dev.cmd?_congr (Work.setJobs_q _ _) _).trans begun) going⟩)
      · refine .inl ?_
        rw [Dev.picotJob?_isSome_of_keys (Work.issueJob_issued c.id c.id _).keys]
        exact Work.setJobs_listed _ rfl _

end

theorem opPicot_starts {i : Instr} {id op : Nat} {c : Cmd} {w : Work} (kind : (i, op) ∈ [(.gather id, 0x30), (.scatterAdd id, 0x31)])
    (running : w.running id op = some c) (fresh : c.begun = false) : Machine.work i w = w.startPicot c := by
  simp only [List.mem_cons, List.not_mem_nil, or_false, Prod.mk.injEq] at kind
  rcases kind with ⟨rfl, rfl⟩ | ⟨rfl, rfl⟩
  · show opGather id w = _
    unfold opGather
    rw [running]
    exact if_neg (by rw [fresh]; exact Bool.false_ne_true)
  · show opScatterAdd id w = _
    unfold opScatterAdd
    rw [running]
    exact if_neg (by rw [fresh]; exact Bool.false_ne_true)

/-- Settles O28: the checks of a Picot command in their order. -/
theorem picotStarts : Obligations.PicotStarts := by
  unfold Obligations.PicotStarts
  intro i id op c s kind running fresh
  obtain ⟨found, going⟩ := Dev.running_cmd? running
  have key : c.id = id := beq_iff_eq.mp (List.find?_some (p := fun c : Cmd => c.id == id) found)
  have e := opPicot_starts (w := s.work) kind running fresh
  have ends : ∀ st d, s.work.startPicot c = s.work.finishCmd c.id st d →
      ∃ t, exec i s = .next t ∧ s.SameMem t ∧ s.KeepsBut t [] ∧ t.endOf id = some ⟨st, d, c.conv, c.r1, c.r2⟩ := fun st d h => by
    rw [key] at h
    exact ⟨_, exec_leave (e.trans h) rfl, s.sameMem_leave _, fun _ _ => rfl, Work.finishCmd_endOf (w := s.work) found going⟩
  refine ⟨fun st d fault => ends st d (Work.startPicot_fault ((s.work_picotRanges c).trans fault)), fun ha ia oa st d ok fault => ends st d (Work.startPicot_header ((s.work_picotRanges c).trans ok) fault),
    fun ha ia oa p ok header scatter batch bad => ends _ _ (Work.startPicot_range ((s.work_picotRanges c).trans ok) header scatter batch bad), fun ha ia oa ok header => ?_⟩
  have goes := Work.startPicot_goes (w := s.work) ((s.work_picotRanges c).trans ok) header (by rw [key]; exact found) going
  rw [key] at goes
  exact ⟨_, exec_leave e (Work.startPicot_out c s.work), s.sameMem_leave _, goes⟩

end Sys2Proof.Machine

namespace Sys2Proof.Machine

/-! ### What the port and the sequencer keep

The host's configuration of the functions, the object windows, and which resets are under way: few operations change them. -/

/-- The host's configuration of the functions and the object windows. -/
def Dev.hostSide (w : Dev) : PcieState × List Window := (w.pcie, w.dict.windows)

/-- The resets under way, by domain and target. -/
def Dev.underWay (w : Dev) : List (Nat × Nat) := w.rst.runs.map (fun r => (r.dom, r.target))

/-- All of them. -/
def Dev.calm (w : Dev) : (PcieState × List Window) × List (Nat × Nat) := (w.hostSide, w.underWay)

theorem Dev.calm_of {w w' : Dev} (h : w'.pcie = w.pcie) (h' : w'.dict = w.dict) (h'' : w'.rst = w.rst) : w'.calm = w.calm := by
  unfold Dev.calm Dev.hostSide Dev.underWay
  rw [h, h', h'']

theorem Work.Logs.calm {w w' : Work} (h : w.Logs w') : w'.calm = w.calm := Dev.calm_of h.pcie h.dict h.rst

@[simp] theorem Work.mapReset_calm (dom target : Nat) (f : Reset → Reset) (keeps : ∀ r, (f r).dom = r.dom ∧ (f r).target = r.target) (w : Work) :
    (w.mapReset dom target f).calm = w.calm := by
  refine congrArg (Prod.mk w.hostSide) ?_
  unfold Dev.underWay Work.mapReset Work.setRst
  dsimp only
  rw [List.map_map]
  refine List.map_congr_left (fun r _ => ?_)
  simp only [Function.comp]
  split
  · rw [(keeps r).1, (keeps r).2]
  · rfl

/-! ### Operations that keep all of it -/

@[simp] theorem Work.ite_calm (c : Prop) [Decidable c] (a b : Work) :
    (if c then a else b).calm = if c then a.calm else b.calm := by
  split <;> rfl

@[simp] theorem foldl_calm {α : Type} (f : Work → α → Work) (h : ∀ w a, (f w a).calm = w.calm) (l : List α) (w : Work) :
    (l.foldl f w).calm = w.calm :=
  List.foldlRecOn l f (motive := fun w' => w'.calm = w.calm) rfl (fun w' same a _ => (h w' a).trans same)

@[simp] theorem foldl_snd_calm {α β : Type} (f : β × Work → α → β × Work) (h : ∀ p a, (f p a).2.calm = p.2.calm) (l : List α)
    (p : β × Work) : (l.foldl f p).2.calm = p.2.calm :=
  List.foldlRecOn l f (motive := fun p' => p'.2.calm = p.2.calm) rfl (fun p' same a _ => (h p' a).trans same)

@[simp] theorem forUpto_calm (f : Nat → Work → Work) (h : ∀ i w, (f i w).calm = w.calm) (n : Nat) (w : Work) :
    (forUpto f n w).calm = w.calm := by
  induction n with
  | zero => rfl
  | succ n ih => exact (h n _).trans ih

theorem iter_calm (f : Work → Work) (h : ∀ w, (f w).calm = w.calm) (n : Nat) (w : Work) : (iter f n w).calm = w.calm := by
  induction n generalizing w with
  | zero => rfl
  | succ n ih => exact (ih _).trans (h w)

@[simp] theorem Work.setSched_calm (f : SchedState → SchedState) (w : Work) : (w.setSched f).calm = w.calm := by rfl

@[simp] theorem Work.setCmds_calm (l : List Cmd) (w : Work) : (Work.setCmds l w).calm = w.calm := by rfl

@[simp] theorem Work.mapCmd_calm (id : Nat) (f : Cmd → Cmd) (w : Work) : (w.mapCmd id f).calm = w.calm := by rfl

@[simp] theorem Work.setLocks_calm (l : List PLock) (w : Work) : (Work.setLocks l w).calm = w.calm := by rfl

@[simp] theorem Work.dropLocks_calm (id : Nat) (w : Work) : (Work.dropLocks id w).calm = w.calm := by rfl

@[simp] theorem Work.setJobs_calm (l : List PicotJob) (w : Work) : (Work.setJobs l w).calm = w.calm := by rfl

@[simp] theorem Work.finishCmd_calm (id : Nat) (status : Nat) (detail : Nat) (w : Work) : (Work.finishCmd id status detail w).calm = w.calm := by
  unfold Work.finishCmd
  simp [*]

@[simp] theorem Work.mapJob_calm (id : Nat) (f : PicotJob → PicotJob) (w : Work) : (Work.mapJob id f w).calm = w.calm := by rfl

@[simp] theorem Work.mapRow_calm (id : Nat) (p : Nat) (f : PRow → PRow) (w : Work) : (Work.mapRow id p f w).calm = w.calm := by rfl

@[simp] theorem Work.issueRow_calm (j : PicotJob) (r : PRow) (w : Work) : (Work.issueRow j r w).calm = w.calm := by
  unfold Work.issueRow
  (repeat' split) <;> simp [*]

@[simp] theorem Work.issueJob_calm (id : Nat) (w : Work) : (w.issueJob id).calm = w.calm := by
  unfold Work.issueJob
  split
  · rfl
  next j _ =>
  split
  · rw [Work.ite_calm, foldl_calm]
    · exact ite_self _
    · intro w r
      (repeat' split) <;> simp
  · refine foldl_calm _ (fun w r => ?_) _ _
    (repeat' split) <;> simp

@[simp] theorem Work.issueDie_calm (d : Nat) (w : Work) : (Work.issueDie d w).calm = w.calm := by
  unfold Work.issueDie
  simp [*]

@[simp] theorem Work.endPicot_calm (id : Nat) (st : Nat) (d : Nat) (w : Work) : (Work.endPicot id st d w).calm = w.calm := by
  unfold Work.endPicot
  simp

@[simp] theorem Work.put_calm (n : Nat) (v : Nat) (w : Work) : (Work.put n v w).calm = w.calm := by rfl

@[simp] theorem Work.bump_calm (n : Nat) (k : Nat) (w : Work) : (Work.bump n k w).calm = w.calm := by rfl

@[simp] theorem Work.batchRelease_calm (id : Nat) (w : Work) : (Work.batchRelease id w).calm = w.calm := by
  unfold Work.batchRelease
  (repeat' split) <;> simp [*]

@[simp] theorem Work.setLaunches_calm (l : List Launch) (w : Work) : (Work.setLaunches l w).calm = w.calm := by rfl

@[simp] theorem Work.launchStep_calm (cmd : Nat) (w : Work) : (Work.launchStep cmd w).calm = w.calm := by
  unfold Work.launchStep
  (repeat' split) <;> simp [*]

@[simp] theorem Work.mapLaunch_calm (cmd : Nat) (f : Launch → Launch) (w : Work) : (Work.mapLaunch cmd f w).calm = w.calm := by rfl

@[simp] theorem Work.launchFault_calm (cmd : Nat) (idx : Nat) (st : Nat) (detail : Nat) (w : Work) : (Work.launchFault cmd idx st detail w).calm
    = w.calm := by rfl

@[simp] theorem Work.setRuns_calm (l : List SampRun) (w : Work) : (Work.setRuns l w).calm = w.calm := by rfl

@[simp] theorem Work.dropRun_calm (samp : Option Nat) (w : Work) : (Work.dropRun samp w).calm = w.calm := by
  unfold Work.dropRun
  split <;> simp

@[simp] theorem Work.tileGone_calm (cmd : Nat) (w : Work) : (Work.tileGone cmd w).calm = w.calm := by
  unfold Work.tileGone
  simp

@[simp] theorem Work.chainLost_calm (sp : SpillChain) (w : Work) : (Work.chainLost sp w).calm = w.calm := by
  unfold Work.chainLost
  (repeat' split) <;> simp [*]

@[simp] theorem Work.send_calm (m : OutMsg) (w : Work) : (Work.send m w).calm = w.calm := by rfl

@[simp] theorem Work.rateMark_calm (key : Nat) (w : Work) : (Work.rateMark key w).calm = w.calm := by rfl

@[simp] theorem Work.logUnit_calm (n code ctx source detail extra : Nat) (w : Work) : (w.logUnit n code ctx source detail extra).calm = w.calm := by
  rw [(Work.logs_logUnit n code ctx source detail extra w).calm]

@[simp] theorem Work.log1_calm (code : Nat) (ctx : Nat) (source : Nat) (detail : Nat) (extra : Nat) (w : Work) : (Work.log1 code ctx source detail
    extra w).calm = w.calm := by
  unfold Work.log1
  simp

@[simp] theorem Work.event_calm (code : Nat) (ctx : Nat) (source : Nat) (detail : Nat) (w : Work) : (Work.event code ctx source detail w).calm =
    w.calm := by
  unfold Work.event
  simp

@[simp] theorem Work.coreNow_calm (k : Nat) (st : Nat) (x : Nat) (w : Work) : (Work.coreNow k st x w).calm = w.calm := by rfl

@[simp] theorem Work.unfenceCore_calm (k : Nat) (w : Work) : (Work.unfenceCore k w).calm = w.calm := by
  unfold Work.unfenceCore
  split <;> simp

@[simp] theorem Work.becomeOwner_calm (cls c : Nat) (w : Work) : (w.becomeOwner cls c).calm = w.calm := by rfl

@[simp] theorem Work.offerSlice_calm (cls p v2 : Nat) (v3 : Work) : (Work.offerSlice cls p v2 v3).calm = v3.calm := by
  induction v2 generalizing p v3 with
  | zero => exact Work.put_calm _ _ _
  | succ k ih =>
    unfold Work.offerSlice
    split
    · exact Work.put_calm _ _ _
    · split
      · exact (ih _ _).trans (Work.put_calm _ _ _)
      · exact Work.becomeOwner_calm _ _ _

@[simp] theorem Work.handover_calm (cls : Nat) (p : Nat) (w : Work) : (Work.handover cls p w).calm = w.calm := by
  unfold Work.handover
  simp

@[simp] theorem Work.rotateClass_calm (cls : Nat) (w : Work) : (Work.rotateClass cls w).calm = w.calm := by
  unfold Work.rotateClass
  dsimp only
  (repeat' split) <;> simp [*]

@[simp] theorem Work.rotation_calm (w : Work) : (Work.rotation w).calm = w.calm := by
  unfold Work.rotation
  simp

@[simp] theorem Work.settleDebt_calm (s : Section) (w : Work) : (Work.settleDebt s w).calm = w.calm := by
  unfold Work.settleDebt
  dsimp only
  (repeat' split) <;> simp [*]

@[simp] theorem Work.setSections_calm (l : List Section) (w : Work) : (Work.setSections l w).calm = w.calm := by rfl

@[simp] theorem Work.setColls_calm (l : List CollJob) (w : Work) : (Work.setColls l w).calm = w.calm := by rfl

@[simp] theorem Work.collEnd_calm (id : Nat) (w : Work) : (Work.collEnd id w).calm = w.calm := by
  unfold Work.collEnd
  (repeat' split) <;> simp [*]

@[simp] theorem Work.mapColl_calm (id : Nat) (f : CollJob → CollJob) (w : Work) : (Work.mapColl id f w).calm = w.calm := by rfl

@[simp] theorem Work.clearTags_calm (f : Nat → Nat → Bool) (w : Work) : (Work.clearTags f w).calm = w.calm := by rfl

@[simp] theorem Work.tornCheck_calm (j : PicotJob) (w : Work) : (Work.tornCheck j w).calm = w.calm := by
  unfold Work.tornCheck
  split <;> simp

@[simp] theorem Work.picotStop_calm (j : PicotJob) (st : Nat) (det : Nat) (w : Work) : (Work.picotStop j st det w).calm = w.calm := by
  unfold Work.picotStop
  dsimp only
  (repeat' split) <;> simp [*]

@[simp] theorem Work.setNet_calm (f : NetState → NetState) (w : Work) : (w.setNet f).calm = w.calm := by rfl

@[simp] theorem Work.withdraw_calm (user : Nat) (ref : Nat) (w : Work) : (Work.withdraw user ref w).calm = w.calm := by rfl

@[simp] theorem Work.collStop_calm (id : Nat) (st : Nat) (det : Nat) (w : Work) : (Work.collStop id st det w).calm = w.calm := by
  unfold Work.collStop
  dsimp only
  (repeat' split) <;> simp [*]

@[simp] theorem Work.resetEvent_calm (code : Nat) (dom : Nat) (cause : Nat) (target : Nat) (w : Work) : (Work.resetEvent code dom cause target
    w).calm = w.calm := by
  unfold Work.resetEvent
  simp

@[simp] theorem Work.resetSync_calm (w : Work) : (Work.resetSync w).calm = w.calm := by rfl

@[simp] theorem Work.tagBlocks_calm (n : Nat) (lo : Nat) (hi : Nat) (tag : Nat) (w : Work) : (Work.tagBlocks n lo hi tag w).calm = w.calm := by rfl

@[simp] theorem Work.write_calm (a : Nat) (d : List Byte) (w : Work) : (Work.write a d w).calm = w.calm := by
  unfold Work.write
  split <;> simp

@[simp] theorem Work.engWrite_calm (x : Nat) (a : Nat) (d : List Byte) (w : Work) : (Work.engWrite x a d w).calm = w.calm := by
  unfold Work.engWrite
  (repeat' split) <;> simp [*]

@[simp] theorem Work.setBlobs_calm (c : Copy) (m : List (Nat × Nat)) (w : Work) : (Work.setBlobs c m w).calm = w.calm := by
  cases c <;> rfl

@[simp] theorem Work.blobPut_calm (c : Copy) (n : Nat) (off : Nat) (v : Nat) (len : Nat) (w : Work) : (Work.blobPut c n off v len w).calm =
    w.calm := by
  unfold Work.blobPut
  simp

@[simp] theorem Work.putSess_calm (s : Sess) (w : Work) : (Work.putSess s w).calm = w.calm := by rfl

@[simp] theorem Work.mapSess_calm (n : Nat) (f : Sess → Sess) (w : Work) : (Work.mapSess n f w).calm = w.calm := by
  unfold Work.mapSess
  split <;> simp

@[simp] theorem Work.clamped_calm (wr : Writer) (num : Nat) (written : Nat) (held : Nat) (off : Nat) (w : Work) : (Work.clamped wr num written
    held off w).calm = w.calm := by
  unfold Work.clamped
  dsimp only
  split <;> simp

@[simp] theorem Work.clampTo_calm (wr : Writer) (num : Nat) (written : Nat) (held : Nat) (w : Work) : (Work.clampTo wr num written held
    w).calm = w.calm := by
  unfold Work.clampTo
  split <;> simp

@[simp] theorem Work.pendToActive_calm (n : Nat) (w : Work) : (Work.pendToActive n w).calm = w.calm := by rfl

@[simp] theorem Work.blobCopy_calm (src : Copy) (dst : Copy) (n : Nat) (w : Work) : (Work.blobCopy src dst n w).calm = w.calm := by
  unfold Work.blobCopy
  simp

@[simp] theorem Work.groupToActive_calm (scalars : List Nat) (blobs : List Nat) (w : Work) : (Work.groupToActive scalars blobs w).calm =
    w.calm := by
  unfold Work.groupToActive
  simp

@[simp] theorem Work.slotApply_calm (s : Nat) (w : Work) : (Work.slotApply s w).calm = w.calm := by
  unfold Work.slotApply
  dsimp only
  simp [apply_ite]

@[simp] theorem Work.activateSlot_calm (s : Nat) (w : Work) : (Work.activateSlot s w).calm = w.calm := by
  unfold Work.activateSlot
  (repeat' split) <;> simp [*]

@[simp] theorem Work.setPats_calm (l : List Pattern) (w : Work) : (Work.setPats l w).calm = w.calm := by rfl

@[simp] theorem Work.writeNat_calm (a : Nat) (v : Nat) (n : Nat) (w : Work) : (Work.writeNat a v n w).calm = w.calm := by
  unfold Work.writeNat
  simp

@[simp] theorem Work.raise_calm (c : Nat) (v : Nat) (w : Work) : (Work.raise c v w).calm = w.calm := by
  unfold Work.raise
  (repeat' split) <;> simp [*]

@[simp] theorem Work.haltQueue_calm (x : Nat) (q : Nat) (status : Nat) (detail : Nat) (w : Work) : (Work.haltQueue x q status detail w).calm =
    w.calm := by
  unfold Work.haltQueue
  dsimp only
  split <;> simp

@[simp] theorem Work.persist_calm (n : Nat) (w : Work) : (Work.persist n w).calm = w.calm := by rfl

@[simp] theorem Work.hokClosed_calm (s : HokSession) (reason : Nat) (w : Work) : (Work.hokClosed s reason w).calm = w.calm := by
  unfold Work.hokClosed
  simp only [Work.log1_calm]
  rfl

@[simp] theorem Work.setPool_calm (l : List PoolUse) (w : Work) : (Work.setPool l w).calm = w.calm := by rfl

@[simp] theorem Work.arenaApply_calm (w : Work) : (Work.arenaApply w).calm = w.calm := by
  unfold Work.arenaApply
  simp [*]

@[simp] theorem Work.writeSwatch_calm (sw : Swatch) (w : Work) : (Work.writeSwatch sw w).calm = w.calm := by
  unfold Work.writeSwatch
  simp only [Work.put_calm, Work.event_calm]
  rfl

@[simp] theorem Work.trainHalf_calm (h : Nat) (w : Work) : (Work.trainHalf h w).calm = w.calm := by
  unfold Work.trainHalf
  simp

@[simp] theorem Work.swatchStep_calm (dom : Nat) (target : Nat) (w : Work) : (Work.swatchStep dom target w).calm = w.calm := by
  unfold Work.swatchStep
  (repeat' split) <;> simp [*]

@[simp] theorem Work.sampled_calm (k : Nat) (s : Option SwSample) (nbad : Nat) (w : Work) : (Work.sampled k s nbad w).calm = w.calm := by
  unfold Work.sampled
  dsimp only
  (repeat' split) <;> simp_all [apply_ite]

@[simp] theorem Work.setHealth_calm (f : HealthState → HealthState) (w : Work) : (Work.setHealth f w).calm = w.calm := by rfl

@[simp] theorem Work.comparison_calm (v : Nat) (cores : List Nat) (w : Work) : (Work.comparison v cores w).calm = w.calm := by
  unfold Work.comparison
  simp

@[simp] theorem Work.healthTo_calm (st : Nat) (reason : Nat) (w : Work) : (Work.healthTo st reason w).calm = w.calm := by
  unfold Work.healthTo
  split <;> simp

@[simp] theorem Work.tooFew_calm (w : Work) : (Work.tooFew w).calm = w.calm := by
  unfold Work.tooFew
  split <;> simp

@[simp] theorem Work.suspectCheck_calm (reason : Nat) (w : Work) : (Work.suspectCheck reason w).calm = w.calm := by
  unfold Work.suspectCheck
  split <;> simp

@[simp] theorem Work.freeDraw_calm (w : Work) : (Work.freeDraw w).2.calm = w.calm := by rfl

@[simp] theorem Work.engineWords_calm (e : Nat) (w : Work) : (Work.engineWords e w).2.calm = w.calm := by
  unfold Work.engineWords
  simp

@[simp] theorem Work.stateWords_calm (w : Work) : (Work.stateWords w).2.calm = w.calm := by
  unfold Work.stateWords
  simp

@[simp] theorem Work.newSwatch_calm (dom : Nat) (cause : Nat) (target : Nat) (ctxs : List Nat) (cores : List Nat) (dies : List Nat) (w : Work) :
    (Work.newSwatch dom cause target ctxs cores dies w).2.calm = w.calm := by
  unfold Work.newSwatch
  simp

@[simp] theorem Work.setArena_calm (f : ArenaState → ArenaState) (w : Work) : (Work.setArena f w).calm = w.calm := by rfl

@[simp] theorem Work.setPair_calm (f : PairState → PairState) (w : Work) : (Work.setPair f w).calm = w.calm := by rfl

@[simp] theorem Work.warmBuffers_calm (w : Work) : (Work.warmBuffers w).calm = w.calm := by
  unfold Work.warmBuffers
  refine (forUpto_calm _ (fun i w => ?_) _ _).trans rfl
  simp

@[simp] theorem Work.blobClear_calm (n : Nat) (w : Work) : (Work.blobClear n w).calm = w.calm := by rfl

@[simp] theorem Work.attestDrop_calm (x : Nat) (w : Work) : (Work.attestDrop x w).calm = w.calm := by
  unfold Work.attestDrop
  split <;> rfl

@[simp] theorem Work.metroSync_calm (w : Work) : (Work.metroSync w).calm = w.calm := by rfl

@[simp] theorem Work.countOpen_calm (w : Work) : (Work.countOpen w).calm = w.calm := by rfl

@[simp] theorem Work.putPeerSt_calm (n : Nat) (st : Nat) (why : Nat) (w : Work) : (Work.putPeerSt n st why w).calm = w.calm := by rfl

@[simp] theorem Work.endSess_calm (n : Nat) (st : Nat) (why : Nat) (w : Work) : (Work.endSess n st why w).calm = w.calm := by
  unfold Work.endSess
  simp

@[simp] theorem Work.breakQuiet_calm (g : Nat) (w : Work) : (Work.breakQuiet g w).calm = w.calm := by
  unfold Work.breakQuiet
  split <;> simp

@[simp] theorem Work.warmNet_calm (w : Work) : (Work.warmNet w).calm = w.calm := by
  unfold Work.warmNet
  dsimp only
  simp [apply_ite]

@[simp] theorem Work.freeBytes_calm (n : Nat) (w : Work) : (Work.freeBytes n w).2.calm = w.calm := by rfl

@[simp] theorem Work.restWrite_calm (x : Nat) (s : Nat) (d : List Byte) (w : Work) : (Work.restWrite x s d w).2.calm = w.calm := by
  unfold Work.restWrite
  split <;> simp

@[simp] theorem Work.restoreAbort_calm (x : Nat) (w : Work) : (Work.restoreAbort x w).calm = w.calm := by
  unfold Work.restoreAbort
  split <;> simp

@[simp] theorem Work.resumeAdmit_calm (w : Work) : (Work.resumeAdmit w).calm = w.calm := by
  unfold Work.resumeAdmit
  split <;> simp

@[simp] theorem Work.slotQuiet_calm (s : Nat) (w : Work) : (Work.slotQuiet s w).calm = w.calm := by
  unfold Work.slotQuiet
  dsimp only
  (repeat' split) <;> simp [*]

@[simp] theorem Work.setStreams_calm (l : List Stream) (w : Work) : (Work.setStreams l w).calm = w.calm := by rfl

@[simp] theorem Work.mapLoad_calm (f : LoadJob → LoadJob) (w : Work) : (Work.mapLoad f w).calm = w.calm := by rfl

@[simp] theorem Work.setHashes_calm (l : List HashJob) (w : Work) : (Work.setHashes l w).calm = w.calm := by rfl

@[simp] theorem Work.loadOver_calm (st : Nat) (w : Work) : (Work.loadOver st w).calm = w.calm := by
  unfold Work.loadOver
  dsimp only
  (repeat' split) <;> simp [*]

@[simp] theorem Work.queueMsg_calm (m : TxMsg) (w : Work) : (Work.queueMsg m w).calm = w.calm := by rfl

@[simp] theorem Work.tellSucc_calm (j : LoadJob) (w : Work) : (Work.tellSucc j w).calm = w.calm := by
  unfold Work.tellSucc
  simp [*]

@[simp] theorem Work.loadFail_calm (det : Nat) (w : Work) : (Work.loadFail det w).calm = w.calm := by
  unfold Work.loadFail
  (repeat' split) <;> simp [*]

@[simp] theorem Work.lifeReset_calm (w : Work) : (w.lifeReset).calm = w.calm := by
  unfold Work.lifeReset
  dsimp only
  refine (forUpto_calm _ (fun s w => by split <;> simp) _ _).trans ?_
  simp only [Work.resumeAdmit_calm, Work.setStreams_calm, Work.setCmds_calm, Work.setPats_calm]
  refine (forUpto_calm _ (fun s w => by split <;> simp) _ _).trans ?_
  exact Work.loadFail_calm _ w

@[simp] theorem Work.putStream_calm (t : Stream) (w : Work) : (Work.putStream t w).calm = w.calm := by rfl

@[simp] theorem Work.seqSync_calm (x : Nat) (q : Nat) (w : Work) : (Work.seqSync x q w).calm = w.calm := by rfl

@[simp] theorem Work.putSeq_calm (x : Nat) (q : Nat) (v : Option SeqSt) (w : Work) : (Work.putSeq x q v w).calm = w.calm := by rfl

@[simp] theorem Work.blockEntry_calm (x : Nat) (q : Nat) (n : Nat) (v : Nat) (w : Work) : (Work.blockEntry x q n v w).calm = w.calm := by
  unfold Work.blockEntry
  split <;> simp

@[simp] theorem Work.takeBlocks_calm (x : Nat) (q : Nat) (k : Nat) (w : Work) : (Work.takeBlocks x q k w).calm = w.calm := by
  unfold Work.takeBlocks
  split <;> simp

@[simp] theorem Work.freeSeq_calm (x : Nat) (q : Nat) (w : Work) : (Work.freeSeq x q w).calm = w.calm := by
  unfold Work.freeSeq
  split <;> simp

@[simp] theorem Work.setFills_calm (l : List Fill) (w : Work) : (Work.setFills l w).calm = w.calm := by rfl

@[simp] theorem Work.mapFill_calm (id : Nat) (f : Fill → Fill) (w : Work) : (Work.mapFill id f w).calm = w.calm := by rfl

@[simp] theorem Work.freeHeld_calm (b : Nat) (n : Nat) (w : Work) : (Work.freeHeld b n w).calm = w.calm := by rfl

@[simp] theorem Work.issueFill_calm (id : Nat) (v1 : Nat) (v2 : Work) : (Work.issueFill id v1 v2).calm = v2.calm := by
  induction v1 generalizing v2 with
  | zero => rfl
  | succ k ih =>
    unfold Work.issueFill
    (repeat' split) <;> simp [*]

@[simp] theorem Work.issueBuffer_calm (b : Nat) (w : Work) : (Work.issueBuffer b w).calm = w.calm := by
  unfold Work.issueBuffer
  simp [*]

@[simp] theorem Work.passFill_calm (id : Nat) (w : Work) : (Work.passFill id w).calm = w.calm := by
  unfold Work.passFill
  dsimp only
  (repeat' split) <;> simp [*]

@[simp] theorem Work.passFills_calm (x : Nat) (w : Work) : (Work.passFills x w).calm = w.calm := by
  unfold Work.passFills
  simp [*]

@[simp] theorem Work.evtPut_calm (x n v : Nat) (w : Work) : (w.evtPut x n v).calm = w.calm := by
  unfold Work.evtPut
  simp

@[simp] theorem Work.evtAdd_calm (x : Nat) (n : Nat) (k : Nat) (w : Work) : (Work.evtAdd x n k w).calm = w.calm := by
  unfold Work.evtAdd
  simp

@[simp] theorem Work.setGrow_calm (g : Option Grow) (w : Work) : (Work.setGrow g w).calm = w.calm := by rfl

@[simp] theorem Work.growEnd_calm (g : Grow) (w : Work) : (Work.growEnd g w).calm = w.calm := by
  unfold Work.growEnd
  simp

@[simp] theorem Work.spillBlock_calm (x : Nat) (q : Nat) (w : Work) : (Work.spillBlock x q w).calm = w.calm := by
  unfold Work.spillBlock
  dsimp only
  (repeat' split) <;> simp [*]

@[simp] theorem Work.spillMany_calm (g : Grow) (x : Nat) (v2 : Nat) (v3 : Nat) (v4 : Work) : (Work.spillMany g x v2 v3 v4).2.calm = v4.calm := by
  induction v2 generalizing v3 v4 with
  | zero => rfl
  | succ k ih =>
    unfold Work.spillMany
    (repeat' split) <;> simp [*]

@[simp] theorem Work.growGo_calm (v0 : Nat) (v1 : Work) : (Work.growGo v0 v1).calm = v1.calm := by
  induction v0 generalizing v1 with
  | zero => rfl
  | succ k ih =>
    unfold Work.growGo
    dsimp only
    (repeat' split) <;> simp [*]

@[simp] theorem Work.growStep_calm (w : Work) : (Work.growStep w).calm = w.calm := by
  unfold Work.growStep
  split <;> simp

@[simp] theorem Work.mapRestore_calm (x : Nat) (f : Restore → Restore) (w : Work) : (Work.mapRestore x f w).calm = w.calm := by rfl

@[simp] theorem Work.mapRest_calm (x : Nat) (s : Nat) (f : RestShard → RestShard) (w : Work) : (Work.mapRest x s f w).calm = w.calm := by rfl

@[simp] theorem Work.restoreAsk_calm (x : Nat) (v1 : Nat) (v2 : Work) : (Work.restoreAsk x v1 v2).calm = v2.calm := by
  induction v1 generalizing v2 with
  | zero => rfl
  | succ k ih =>
    unfold Work.restoreAsk
    (repeat' split) <;> simp [*]

@[simp] theorem Work.restoreStep_calm (x : Nat) (w : Work) : (Work.restoreStep x w).calm = w.calm := by
  unfold Work.restoreStep
  (repeat' split) <;> simp [*]

@[simp] theorem Work.setSpills_calm (l : List Spill) (w : Work) : (Work.setSpills l w).calm = w.calm := by rfl

@[simp] theorem Work.spillStep_calm (x : Nat) (w : Work) : (Work.spillStep x w).calm = w.calm := by
  unfold Work.spillStep
  split <;> simp

@[simp] theorem Work.dropSlot_calm (s : Option Nat) (w : Work) : (Work.dropSlot s w).calm = w.calm := by
  unfold Work.dropSlot
  dsimp only
  (repeat' split) <;> simp [*]

@[simp] theorem Work.dropAdd_calm (x : Nat) (a : Option Nat) (w : Work) : (Work.dropAdd x a w).calm = w.calm := by
  unfold Work.dropAdd
  split <;> simp

@[simp] theorem Work.streamRelease_calm (x : Nat) (cap : StreamCap) (w : Work) : (Work.streamRelease x cap w).calm = w.calm := by
  unfold Work.streamRelease
  simp

@[simp] theorem Work.idleStreams_calm (x : Nat) (w : Work) : (w.idleStreams x).calm = w.calm := by
  unfold Work.idleStreams
  refine forUpto_calm _ (fun s w => ?_) _ _
  simp only [Work.put_calm, Work.setStreams_calm]
  (repeat' split) <;> simp

@[simp] theorem Work.spillDrop_calm (x : Nat) (w : Work) : (Work.spillDrop x w).calm = w.calm := by rfl

@[simp] theorem Work.spillUndo_calm (sp : Spill) (result : Nat) (w : Work) : (Work.spillUndo sp result w).calm = w.calm := by
  unfold Work.spillUndo
  split <;> simp

@[simp] theorem Work.spillAbort_calm (x : Nat) (w : Work) : (Work.spillAbort x w).calm = w.calm := by
  unfold Work.spillAbort
  split <;> simp

@[simp] theorem Work.hoopRestage_calm (x : Nat) (w : Work) : (Work.hoopRestage x w).calm = w.calm := by
  unfold Work.hoopRestage
  exact foldl_calm (fun w t => w.blobPut .staged (Obj.hoopRecords x) (128 * t) (hRwc (w.hoopRec x t)) 128) (fun w t => by simp) _ w

@[simp] theorem Work.commitsGone_calm (w : Work) : (Work.commitsGone w).calm = w.calm := by
  unfold Work.commitsGone
  refine (foldl_calm _ (fun w n => by simp) _ _).trans ((forUpto_calm _ (fun x w => by simp) _ _).trans ?_)
  rfl

@[simp] theorem Work.raiseDevice_calm (w : Work) : (Work.raiseDevice w).calm = w.calm := by
  unfold Work.raiseDevice
  split <;> simp

@[simp] theorem Work.settleCancel_calm (b : Nat) (w : Work) : (Work.settleCancel b w).calm = w.calm := by
  unfold Work.settleCancel
  simp [*]

@[simp] theorem Work.dropFill_calm (id : Nat) (w : Work) : (Work.dropFill id w).calm = w.calm := by rfl

@[simp] theorem Work.settleFill_calm (id : Nat) (w : Work) : (Work.settleFill id w).calm = w.calm := by
  unfold Work.settleFill
  (repeat' split) <;> simp [*]
  rfl

@[simp] theorem Work.ditchFill_calm (f : Fill) (w : Work) : (Work.ditchFill f w).calm = w.calm := by
  unfold Work.ditchFill
  simp

@[simp] theorem Work.dropPattern_calm (p : Pattern) (w : Work) : (Work.dropPattern p w).calm = w.calm := by
  unfold Work.dropPattern
  simp

@[simp] theorem Work.armStream_calm (x : Nat) (s : Nat) (w : Work) : (Work.armStream x s w).calm = w.calm := by rfl

@[simp] theorem Work.faultNoRecord_calm (x : Nat) (q : Nat) (status : Nat) (detail : Nat) (w : Work) : (Work.faultNoRecord x q status detail
    w).calm = w.calm := by
  unfold Work.faultNoRecord
  simp

@[simp] theorem Work.streamFault_calm (x : Nat) (s : Nat) (st : Nat) (det : Nat) (w : Work) : (Work.streamFault x s st det w).calm = w.calm := by
  unfold Work.streamFault
  simp

@[simp] theorem Work.takeover_calm (x : Nat) (s : Nat) (w : Work) : (Work.takeover x s w).calm = w.calm := by
  unfold Work.takeover
  dsimp only
  (repeat' split) <;> simp [*]

@[simp] theorem Work.streamNext_calm (x : Nat) (s : Nat) (d : Nat) (k : Nat) (w : Work) : (Work.streamNext x s d k w).calm = w.calm := by
  unfold Work.streamNext
  dsimp only
  (repeat' split) <;> simp [*]

@[simp] theorem Work.cancelStream_calm (x : Nat) (s : Nat) (w : Work) : (Work.cancelStream x s w).calm = w.calm := by
  unfold Work.cancelStream
  (repeat' split) <;> simp [*]

@[simp] theorem Work.stopFill_calm (f : Fill) (w : Work) : (Work.stopFill f w).calm = w.calm := by
  unfold Work.stopFill
  (repeat' split) <;> simp [*]

@[simp] theorem Work.cancelBuffer_calm (x : Nat) (b : Nat) (w : Work) : (Work.cancelBuffer x b w).calm = w.calm := by
  unfold Work.cancelBuffer
  simp [*]
  rfl

@[simp] theorem Work.mapMirror_calm (x : Nat) (f : Mirror → Mirror) (w : Work) : (Work.mapMirror x f w).calm = w.calm := by rfl

@[simp] theorem Work.mapMir_calm (x : Nat) (s : Nat) (f : MirShard → MirShard) (w : Work) : (Work.mapMir x s f w).calm = w.calm := by rfl

@[simp] theorem Work.mirrorAbandon_calm (x : Nat) (s : Nat) (w : Work) : (Work.mirrorAbandon x s w).calm = w.calm := by
  unfold Work.mirrorAbandon
  (repeat' split) <;> simp [*]

@[simp] theorem Work.mirrorTell_calm (x : Nat) (w : Work) : (Work.mirrorTell x w).calm = w.calm := by
  unfold Work.mirrorTell
  (repeat' split) <;> simp [*]

@[simp] theorem Work.pairGone_calm (n : Nat) (w : Work) : (Work.pairGone n w).calm = w.calm := by
  unfold Work.pairGone
  dsimp only
  (repeat' split) <;> simp [*]

@[simp] theorem Work.undefine_calm (j : CollJob) (w : Work) : (Work.undefine j w).calm = w.calm := by
  unfold Work.undefine
  dsimp only
  simp [apply_ite]

@[simp] theorem Work.breakGroup_calm (g : Nat) (cause : Nat) (rank : Nat) (orig : Nat) (skip : List Nat) (w : Work) : (Work.breakGroup g cause
    rank orig skip w).calm = w.calm := by
  unfold Work.breakGroup
  dsimp only
  (repeat' split) <;> simp_all [apply_ite]

@[simp] theorem Work.plaitGone_calm (n : Nat) (cause : Nat) (w : Work) : (Work.plaitGone n cause w).calm = w.calm := by
  unfold Work.plaitGone
  dsimp only
  simp [apply_ite]

@[simp] theorem Work.sessOver_calm (n : Nat) (st : Nat) (why : Nat) (w : Work) : (Work.sessOver n st why w).calm = w.calm := by
  unfold Work.sessOver
  (repeat' split) <;> simp [*]

@[simp] theorem Work.forward_calm (v0 : Nat) (v1 : Work) : (Work.forward v0 v1).calm = v1.calm := by
  induction v0 generalizing v1 with
  | zero => rfl
  | succ k ih =>
    unfold Work.forward
    (repeat' split) <;> simp [*]

@[simp] theorem Work.putShard_calm (s : Shard) (w : Work) : (Work.putShard s w).calm = w.calm := by rfl

@[simp] theorem Work.hashAdd_calm (kind : Nat) (ref : Nat) (w : Work) : (Work.hashAdd kind ref w).calm = w.calm := by rfl

@[simp] theorem Work.hashReady_calm (i : Nat) (w : Work) : (Work.hashReady i w).calm = w.calm := by
  unfold Work.hashReady
  split <;> simp

@[simp] theorem Work.nextAttempt_calm (i : Nat) (st : Nat) (w : Work) : (Work.nextAttempt i st w).calm = w.calm := by
  unfold Work.nextAttempt
  (repeat' split) <;> simp [*]

@[simp] theorem Work.issueShard_calm (i : Nat) (w : Work) : (Work.issueShard i w).calm = w.calm := by
  unfold Work.issueShard
  dsimp only
  (repeat' split) <;> simp [*]

@[simp] theorem Work.zeroGaps_calm (j : LoadJob) (w : Work) : (w.zeroGaps j).calm = w.calm := by
  unfold Work.zeroGaps
  refine forUpto_calm _ (fun p w => ?_) _ _
  refine foldl_calm _ (fun w g => ?_) _ _
  dsimp only
  split <;> simp

@[simp] theorem Work.loadDone_calm (j : LoadJob) (w : Work) : (Work.loadDone j w).calm = w.calm := by
  unfold Work.loadDone
  dsimp only
  (repeat' split) <;> simp [*]

@[simp] theorem Work.loadStep_calm (w : Work) : (w.loadStep).calm = w.calm := by
  unfold Work.loadStep
  dsimp only
  split
  · rfl
  split
  · rfl
  · next j _ _ =>
    have shards : ((iter (fun w : Work => forUpto (fun i w => w.issueShard i) j.shards.length w) 4 w).forward
        j.shards.length).calm = w.calm := by
      rw [Work.forward_calm]
      exact iter_calm _ (fun w => by simp) _ _
    split
    · split
      · rw [Work.loadDone_calm]
        exact shards
      · exact shards
    · exact shards

@[simp] theorem Work.hashDrop_calm (kind : Nat) (ref : Nat) (w : Work) : (Work.hashDrop kind ref w).calm = w.calm := by rfl

@[simp] theorem Work.shardMissing_calm (i : Nat) (w : Work) : (Work.shardMissing i w).calm = w.calm := by
  unfold Work.shardMissing
  (repeat' split) <;> simp [*]

@[simp] theorem Work.loaderGone_calm (n : Nat) (w : Work) : (Work.loaderGone n w).calm = w.calm := by
  unfold Work.loaderGone
  (repeat' split) <;> simp [*]

@[simp] theorem Work.sessGone_calm (n : Nat) (st : Nat) (why : Nat) (w : Work) : (Work.sessGone n st why w).calm = w.calm := by
  unfold Work.sessGone
  simp

@[simp] theorem Work.mirrorAbandonAll_calm (x : Nat) (w : Work) : (Work.mirrorAbandonAll x w).calm = w.calm := by
  unfold Work.mirrorAbandonAll
  simp

@[simp] theorem Work.ctxSever_calm (x : Nat) (w : Work) : (Work.ctxSever x w).calm = w.calm := by
  unfold Work.ctxSever
  dsimp only
  (repeat' split) <;> simp_all [apply_ite]

@[simp] theorem Work.portLost_calm (p : Nat) (w : Work) : (Work.portLost p w).calm = w.calm := by
  unfold Work.portLost
  simp

@[simp] theorem Work.clampRates_calm (w : Work) : (Work.clampRates w).calm = w.calm := by
  unfold Work.clampRates
  simp

@[simp] theorem Work.rehome_calm (w : Work) : (w.rehome).calm = w.calm := by
  unfold Work.rehome
  refine foldl_calm _ (fun w s => ?_) _ _
  (repeat' split) <;> simp

@[simp] theorem Work.linkOff_calm (p : Nat) (w : Work) : (Work.linkOff p w).calm = w.calm := by
  unfold Work.linkOff
  split <;> simp

@[simp] theorem Work.sessLostQuiet_calm (n : Nat) (w : Work) : (Work.sessLostQuiet n w).calm = w.calm := by
  unfold Work.sessLostQuiet
  simp

@[simp] theorem Work.streamFail_calm (x : Nat) (s : Nat) (st : Nat) (det : Nat) (t : Stream) (w : Work) : (Work.streamFail x s st det t w).calm
    = w.calm := by
  unfold Work.streamFail
  split <;> simp

@[simp] theorem Work.engineEnd_calm (c : Cmd) (st : Nat) (e : Nat) (w : Work) : (Work.engineEnd c st e w).calm = w.calm := by
  unfold Work.engineEnd
  dsimp only
  (repeat' split) <;> simp_all [apply_ite]

@[simp] theorem Work.disable_calm (x : Nat) (w : Work) : (Work.disable x w).calm = w.calm := by
  unfold Work.disable
  simp [*]
  rfl

@[simp] theorem Work.putCore_calm (c : Core) (w : Work) : (Work.putCore c w).calm = w.calm := by rfl

@[simp] theorem Work.spillMove_calm (k : Nat) (w : Work) : (Work.spillMove k w).calm = w.calm := by
  unfold Work.spillMove
  dsimp only
  (repeat' split) <;> simp [*]

@[simp] theorem Work.chainSave_calm (k : Nat) (w : Work) : (Work.chainSave k w).calm = w.calm := by
  unfold Work.chainSave
  dsimp only
  (repeat' split) <;> simp [*]

@[simp] theorem Work.fenceCore_calm (k : Nat) (w : Work) : (Work.fenceCore k w).calm = w.calm := by
  unfold Work.fenceCore
  dsimp only
  (repeat' split) <;> simp [*]

@[simp] theorem Work.endSection_calm (id : Nat) (w : Work) : (Work.endSection id w).calm = w.calm := by
  unfold Work.endSection
  dsimp only
  (repeat' split) <;> simp [*]

@[simp] theorem Work.sectionCut_calm (s : Section) (w : Work) : (Work.sectionCut s w).calm = w.calm := by
  unfold Work.sectionCut
  dsimp only
  (repeat' split) <;> simp [*]

@[simp] theorem Work.engineFinish_calm (e : Nat) (w : Work) : (Work.engineFinish e w).calm = w.calm := by
  unfold Work.engineFinish
  simp

@[simp] theorem Work.pruneSamples_calm (w : Work) : (Work.pruneSamples w).calm = w.calm := by
  unfold Work.pruneSamples
  simp

@[simp] theorem Work.coreFinish_calm (k : Nat) (ends : List (Nat × Nat × Nat)) (w : Work) : (Work.coreFinish k ends w).calm = w.calm := by
  unfold Work.coreFinish
  dsimp only
  refine (foldl_calm _ (fun w p => ?_) _ _).trans ?_
  · (repeat' split) <;> simp [*]
  · split <;> simp

@[simp] theorem Work.sampleLost_calm (k : Nat) (w : Work) : (Work.sampleLost k w).calm = w.calm := by
  unfold Work.sampleLost
  dsimp only
  (repeat' split) <;> simp [*]

@[simp] theorem Work.coreDetach_calm (k : Nat) (w : Work) : (Work.coreDetach k w).2.calm = w.calm := by
  unfold Work.coreDetach
  dsimp only
  (repeat' split) <;> simp [*]

@[simp] theorem Work.fencesNow_calm (w : Work) : (Work.fencesNow w).calm = w.calm := by
  unfold Work.fencesNow
  dsimp only
  (repeat' split) <;> simp [*]

@[simp] theorem Work.confirm_calm (k bin : Nat) (w : Work) : (Work.confirm k bin w).calm = w.calm := by
  unfold Work.confirm
  dsimp only
  (repeat' split) <;> simp [*]

@[simp] theorem Work.unreproducedIn_calm (k bin : Nat) (cores : List Nat) (w : Work) : (Work.unreproducedIn k bin cores w).calm = w.calm := by
  unfold Work.unreproducedIn
  dsimp only
  (repeat' split) <;> simp [*]

@[simp] theorem Work.warmQueues_calm (w : Work) : (Work.warmQueues w).calm = w.calm := by
  unfold Work.warmQueues
  refine (forUpto_calm _ (fun x w => ?_) _ _).trans rfl
  simp

@[simp] theorem Work.coresStop_calm (cores : List Nat) (w : Work) : (Work.coresStop cores w).calm = w.calm := by
  unfold Work.coresStop
  dsimp only
  (repeat' split) <;> simp [*]

@[simp] theorem Work.warmUnits_calm (w : Work) : (Work.warmUnits w).calm = w.calm := by
  unfold Work.warmUnits
  dsimp only
  (repeat' split) <;> simp [*]

@[simp] theorem Work.newId_calm (w : Work) : (Work.newId w).2.calm = w.calm := by rfl

@[simp] theorem Work.claimSection_calm (kind ref ctx die cls bound : Nat) (w : Work) : (Work.claimSection kind ref ctx die cls bound w).2.calm = w.calm := by
  unfold Work.claimSection
  dsimp only
  (repeat' split) <;> simp [*]

@[simp] theorem Work.claimSamples_calm (cores : List Nat) (w : Work) : (Work.claimSamples cores w).calm = w.calm := by
  unfold Work.claimSamples
  refine foldl_calm _ (fun w k => ?_) _ _
  split <;> simp

@[simp] theorem Work.dropCmd_calm (c : Cmd) (w : Work) : (Work.dropCmd c w).calm = w.calm := by
  unfold Work.dropCmd
  simp

@[simp] theorem Work.ctxStop_calm (x : Nat) (w : Work) : (Work.ctxStop x w).calm = w.calm := by
  unfold Work.ctxStop
  dsimp only
  have queues : ∀ (v : Work) (q : QueueState), ({ v with q := q } : Work).calm = v.calm := fun _ _ => rfl
  rw [Work.rotation_calm, Work.setPair_calm, queues]
  refine (forUpto_calm (fun b w => if w.get (Obj.pbOwner b) = x then w.cancelBuffer x b else w) (fun b w => ?_) 64 _).trans ?_
  · split <;> simp
  rw [Work.idleStreams_calm]
  refine (forUpto_calm _ (fun k w => ?_) 32 _).trans ?_
  · (repeat' split) <;> simp
  simp

@[simp] theorem Work.ctxBegin_calm (x : Nat) (w : Work) : (Work.ctxBegin x w).calm = w.calm := by
  unfold Work.ctxBegin
  dsimp only
  (repeat' split) <;> simp [*]

@[simp] theorem Work.engineStop_calm (e : Nat) (culprit : Option Nat) (w : Work) : (Work.engineStop e culprit w).calm = w.calm := by
  unfold Work.engineStop
  dsimp only
  (repeat' split) <;> simp [*]

@[simp] theorem Work.ioBegin_calm (w : Work) : (Work.ioBegin w).calm = w.calm := by
  unfold Work.ioBegin
  dsimp only
  (repeat' split) <;> simp [*]

/-! ### Operations that begin or end a reset -/

theorem Dev.hostSide_of_calm {w w' : Dev} (h : w'.calm = w.calm) : w'.hostSide = w.hostSide := congrArg Prod.fst h

theorem Dev.underWay_of_calm {w w' : Dev} (h : w'.calm = w.calm) : w'.underWay = w.underWay := congrArg Prod.snd h

theorem Work.dropReset_hostSide (dom target : Nat) (w : Work) : (w.dropReset dom target).hostSide = w.hostSide := rfl

theorem Work.pushReset_calm (r : Reset) (w : Work) : (w.pushReset r).calm = (w.hostSide, w.underWay ++ [(r.dom, r.target)]) := by
  have pushed : (w.setRst (fun q => { q with runs := q.runs ++ [r] })).calm = (w.hostSide, w.underWay ++ [(r.dom, r.target)]) := by
    refine congrArg (Prod.mk w.hostSide) ?_
    unfold Dev.underWay Work.setRst
    rw [List.map_append, List.map_singleton]
  unfold Work.pushReset
  dsimp only
  refine Eq.trans ?_ pushed
  (repeat' split) <;> simp

theorem Work.absorb_hostSide (big : Nat) (r : Reset) (w : Work) : (w.absorb big r).hostSide = w.hostSide := by
  have told : ((w.resetEvent 0x0A06 r.dom r.cause r.target).bump Obj.absorbed 1).hostSide = w.hostSide := Dev.hostSide_of_calm (by simp)
  unfold Work.absorb
  dsimp only
  split
  · exact (Work.dropReset_hostSide _ _ _).trans told
  · split
    · exact (Dev.hostSide_of_calm (Work.engineFinish_calm _ _)).trans ((Work.dropReset_hostSide _ _ _).trans told)
    · exact (Dev.hostSide_of_calm (Work.coreFinish_calm _ _ _)).trans ((Work.dropReset_hostSide _ _ _).trans told)
    · exact (Dev.hostSide_of_calm (by simp)).trans told

theorem Work.dieBegin_hostSide (d : Nat) (ctxs : List Nat) (dev : Bool) (esc : Nat) (w : Work) :
    (w.dieBegin d ctxs dev esc).hostSide = w.hostSide := by
  have queues : ∀ (v : Work) (q : QueueState), ({ v with q := q } : Work).hostSide = v.hostSide := fun _ _ => rfl
  unfold Work.dieBegin
  dsimp only
  refine (Dev.hostSide_of_calm ((Work.claimSamples_calm _ _).trans (Work.lifeReset_calm _))).trans ?_
  refine (List.foldlRecOn _ _ (motive := fun w' : Work => w'.hostSide = w.hostSide) (Dev.hostSide_of_calm (Work.coresStop_calm _ w)) (fun w' same p _ => ?_))
  split
  · rw [queues]
    exact (Dev.hostSide_of_calm (Work.ctxStop_calm p.1 w')).trans same
  · exact (Dev.hostSide_of_calm (Work.ctxBegin_calm _ _)).trans ((congrArg Prod.fst (Work.pushReset_calm _ _)).trans same)

/-- A device warm reset drops the object windows. -/
theorem Work.warmWork_calm (w : Work) : (w.warmWork).calm = ((w.pcie, []), w.underWay) := rfl

theorem Work.warmRest_calm (w : Work) : (w.warmRest).calm = ((w.pcie, []), w.underWay) := by
  have logs : ∀ (u : Work) (l : LogState), ({ u with log := l } : Work).calm = u.calm := fun _ _ => rfl
  unfold Work.warmRest
  dsimp only
  rw [logs]
  exact (foldl_calm _ (fun u s => Work.hokClosed_calm s 4 u) _ _).trans (Work.warmWork_calm w)

theorem Work.warmStop_calm (w : Work) : (w.warmStop).calm = ((w.pcie, []), w.underWay) := by
  obtain ⟨v, hv⟩ : ∃ v, v = (((w.warmUnits).warmBuffers).warmQueues).warmNet := ⟨_, rfl⟩
  have same : v.calm = w.calm := by
    rw [hv]
    simp
  have stop : w.warmStop = v.warmRest := by
    rw [hv]
    rfl
  rw [stop, Work.warmRest_calm, Dev.underWay_of_calm same]
  exact congrArg (fun p => ((p, []), w.underWay)) (congrArg (fun p => p.1.1) same)

theorem Work.warmBegin_calm (w : Work) : (w.warmBegin).calm = ((w.pcie, []), w.underWay) := by
  obtain ⟨v, hv⟩ : ∃ v, v = ((w.setHealth (fun h => { h with left := w.probLeft, leftAt := w.time })).put Obj.bootState 6).raiseDevice := ⟨_, rfl⟩
  have same : v.calm = w.calm := by
    rw [hv]
    simp
  obtain ⟨l, hl⟩ : ∃ l, l = upto 32 := ⟨_, rfl⟩
  have begins : w.warmBegin = ((v.warmStop).commitsGone).claimSamples l := by
    rw [hv, hl]
    rfl
  rw [begins, Work.claimSamples_calm, Work.commitsGone_calm, Work.warmStop_calm, Dev.underWay_of_calm same]
  exact congrArg (fun p => ((p, []), w.underWay)) (congrArg (fun p => p.1.1) same)

/-- The host's configuration stays, and no window comes back. -/
structure Work.HostKept (w w' : Work) : Prop where
  pcie : w'.pcie = w.pcie
  windows : w.dict.windows = [] → w'.dict.windows = []

theorem Work.HostKept.of_hostSide {w w' : Work} (h : w'.hostSide = w.hostSide) : w.HostKept w' :=
  ⟨congrArg Prod.fst h, fun none_ => (congrArg Prod.snd h).trans none_⟩

theorem Work.HostKept.trans {a b c : Work} (h : a.HostKept b) (h' : b.HostKept c) : a.HostKept c :=
  ⟨h'.pcie.trans h.pcie, fun none_ => h'.windows (h.windows none_)⟩

theorem Dev.pcie_of_calm {w : Dev} {c : (PcieState × List Window) × List (Nat × Nat)} (h : w.calm = c) : w.pcie = c.1.1 :=
  congrArg (fun p => p.1.1) h

theorem Dev.windows_of_calm {w : Dev} {c : (PcieState × List Window) × List (Nat × Nat)} (h : w.calm = c) : w.dict.windows = c.1.2 :=
  congrArg (fun p => p.1.2) h

theorem Work.warmBegin_hostKept (w : Work) : w.HostKept w.warmBegin :=
  ⟨Dev.pcie_of_calm (Work.warmBegin_calm w), fun _ => Dev.windows_of_calm (Work.warmBegin_calm w)⟩

/-- The work that a reset's domain begins with. -/
def Work.domainBegin (dom target esc : Nat) (dev : Bool) (culprit : Option Nat) (ctxs cores : List Nat) (w : Work) : Work :=
  match dom with
  | 1 => w.engineStop target culprit
  | 2 =>
    let bin := w.hangBin target
    let (ends, w) := w.coreDetach target
    let w := w.mapReset 2 target (fun r => { r with ends := ends })
    (w.unreproducedIn target bin [target]).claimSamples [target]
  | 3 => (w.ctxBegin target).claimSamples cores
  | 4 => if target < 2 then w.dieBegin target ctxs dev esc else w.ioBegin
  | _ => w.warmBegin

theorem Work.domainBegin_hostKept (dom target esc : Nat) (dev : Bool) (culprit : Option Nat) (ctxs cores : List Nat) (w : Work) :
    w.HostKept (w.domainBegin dom target esc dev culprit ctxs cores) := by
  unfold Work.domainBegin
  split
  · exact .of_hostSide (Dev.hostSide_of_calm (Work.engineStop_calm _ _ _))
  · exact .of_hostSide (Dev.hostSide_of_calm (by simp))
  · exact .of_hostSide (Dev.hostSide_of_calm (by simp))
  · split
    · exact .of_hostSide (Work.dieBegin_hostSide _ _ _ _ _)
    · exact .of_hostSide (Dev.hostSide_of_calm (Work.ioBegin_calm _))
  · exact Work.warmBegin_hostKept w

/-- The contexts that a reset samples. -/
def Dev.resetCtxs (w : Dev) (dom target : Nat) : List Nat :=
  if dom = 3 then [target] else if dom = 4 then w.dieCtxs target else if dom = 5 then upto 16 else []

/-- The cores that it samples. -/
def Dev.resetCores (w : Dev) (dom target : Nat) : List Nat :=
  match dom with
  | 2 => [target]
  | 3 => w.sampleCores target
  | 4 => if target < 2 then dieCores target else []
  | 5 => upto 32
  | _ => []

/-- The swatch that it begins. -/
def Work.resetSwatch (dom target cause : Nat) (w : Work) : Option Swatch × Work :=
  if dom = 1 then (none, w) else
    let (s, w) := w.newSwatch dom cause target (w.resetCtxs dom target) (w.resetCores dom target)
      (if dom = 5 then [0, 1] else if dom = 4 ∧ target < 2 then [target] else [])
    (some s, w)

theorem Work.resetSwatch_calm (dom target cause : Nat) (w : Work) : (w.resetSwatch dom target cause).2.calm = w.calm := by
  unfold Work.resetSwatch
  split
  · rfl
  · have same := Work.newSwatch_calm dom cause target (w.resetCtxs dom target) (w.resetCores dom target)
      (if dom = 5 then [0, 1] else if dom = 4 ∧ target < 2 then [target] else []) w
    revert same
    generalize w.newSwatch dom cause target _ _ _ = p
    exact fun same => same

/-- The reset as it starts. -/
def Work.newReset (dom target cause esc : Nat) (dev : Bool) (culprit : Option Nat) (ctxs cores : List Nat) (sw : Option Swatch) (w : Work) : Reset :=
  { dom := dom, target := target, cause := cause, start := w.time, limit := w.resetLimit dom, esc := esc, dev := dev,
    culprit := culprit, swatch := sw, todo := cores, phase := 0, memAt := 0, ctxs := ctxs, ends := [],
    queues := if dom = 3 then w.heldQueues target else [] }

/-- A reset absorbs those within it, is under way, and its domain's work begins. -/
def Work.resetBegin (r : Reset) (w : Work) : Work :=
  ((((w.rst.runs.filter (fun q => r.contains q.dom q.target)).foldl (fun (w : Work) (q : Reset) => w.absorb r.dom q) w).pushReset r).domainBegin
    r.dom r.target r.esc r.dev r.culprit r.ctxs r.todo).swatchStep r.dom r.target

theorem Work.resetStart_begins (dom target cause esc : Nat) (dev : Bool) (culprit : Option Nat) (w : Work) :
    w.resetStart dom target cause esc dev culprit = (w.resetSwatch dom target cause).2.resetBegin
      ((w.resetSwatch dom target cause).2.newReset dom target cause esc dev culprit (w.resetCtxs dom target) (w.resetCores dom target)
        (w.resetSwatch dom target cause).1) := by
  unfold Work.resetStart
  extract_lets ctxs cores dies
  have hctxs : ctxs = w.resetCtxs dom target := rfl
  have hcores : cores = w.resetCores dom target := rfl
  have hdies : dies = (if dom = 5 then [0, 1] else if dom = 4 ∧ target < 2 then [target] else []) := rfl
  clear_value ctxs cores dies
  subst hctxs hcores hdies
  split
  next sw w' h =>
    have sampled : w.resetSwatch dom target cause = (sw, w') := by
      unfold Work.resetSwatch
      generalize w.newSwatch dom cause target _ _ _ = q at h ⊢
      exact h
    rw [sampled]
    unfold Work.resetBegin Work.domainBegin
    rfl

theorem Work.resetBegin_hostKept (r : Reset) (w : Work) : w.HostKept (w.resetBegin r) := by
  have absorbed : ∀ l : List Reset, (l.foldl (fun (w : Work) (q : Reset) => w.absorb r.dom q) w).hostSide = w.hostSide := fun l =>
    List.foldlRecOn l _ (motive := fun v : Work => v.hostSide = w.hostSide) rfl (fun v same q _ => (Work.absorb_hostSide r.dom q v).trans same)
  have pushed := (congrArg Prod.fst (Work.pushReset_calm r _)).trans (absorbed (w.rst.runs.filter (fun q => r.contains q.dom q.target)))
  unfold Work.resetBegin
  exact (Work.HostKept.of_hostSide pushed).trans
    ((Work.domainBegin_hostKept _ _ _ _ _ _ _ _).trans (.of_hostSide (Dev.hostSide_of_calm (Work.swatchStep_calm _ _ _))))

theorem Work.resetStart_hostKept (dom target cause esc : Nat) (dev : Bool) (culprit : Option Nat) (w : Work) :
    w.HostKept (w.resetStart dom target cause esc dev culprit) := by
  have same := Work.resetSwatch_calm dom target cause w
  rw [Work.resetStart_begins]
  revert same
  generalize w.resetSwatch dom target cause = p
  intro same
  have before : w.HostKept p.2 := .of_hostSide (Dev.hostSide_of_calm same)
  exact before.trans (Work.resetBegin_hostKept _ p.2)

theorem Work.resetAsk_hostKept (dom target cause esc : Nat) (dev : Bool) (culprit : Option Nat) (w : Work) :
    w.HostKept (w.resetAsk dom target cause esc dev culprit) := by
  have asked : ∀ d t : Nat, w.HostKept (if (w.reset? d t).isSome then w
      else if w.rst.runs.any (fun r => r.contains d t) then (w.resetEvent 0x0A06 d cause t).bump Obj.absorbed 1
      else w.resetStart d t cause esc dev culprit) := by
    intro d t
    split
    · exact .of_hostSide rfl
    · split
      · exact .of_hostSide (Dev.hostSide_of_calm (by simp))
      · exact Work.resetStart_hostKept _ _ _ _ _ _ w
  unfold Work.resetAsk
  split
  · exact asked _ _

theorem Work.flrContext_hostKept (c : Nat) (w : Work) : w.HostKept (w.flrContext c) := by
  have asked := Work.resetAsk_hostKept 3 c 8 0 w.devMode none w
  unfold Work.flrContext
  dsimp only
  split
  · exact asked
  · exact asked.trans (.of_hostSide (Dev.hostSide_of_calm (Work.disable_calm _ _)))


/-! ### Completions of host reads (R527, R528) -/

/-- Host memory is one region. -/
theorem regionOf_host {a : Nat} (below : a < 2 ^ 47) : regionOf (2 ^ 47 + a) = some ⟨0x800000000000, 0xFFFFFFFFFFFF⟩ := by
  have skip : ∀ (r : Region) (l : List Region), r.last < 2 ^ 47 →
      (r :: l).find? (fun r => decide (r.first ≤ 2 ^ 47 + a) && decide (2 ^ 47 + a ≤ r.last)) =
        l.find? (fun r => decide (r.first ≤ 2 ^ 47 + a) && decide (2 ^ 47 + a ≤ r.last)) := fun r l h =>
    List.find?_cons_of_neg (fun e => by
      have e' := of_decide_eq_true (Bool.and_eq_true_iff.mp e).2
      omega)
  have inside : (decide (0x800000000000 ≤ 2 ^ 47 + a) && decide (2 ^ 47 + a ≤ 0xFFFFFFFFFFFF)) = true :=
    Bool.and_eq_true_iff.mpr ⟨decide_eq_true (by omega), decide_eq_true (by omega)⟩
  unfold regionOf regions fixedRegions
  simp only [List.cons_append]
  rw [skip _ _ (by decide), skip _ _ (by decide), skip _ _ (by decide), skip _ _ (by decide), skip _ _ (by decide), skip _ _ (by decide)]
  exact List.find?_cons_of_pos inside

theorem mapped_host {a n : Nat} (below : a < 2 ^ 47) (fits : n ≤ 2 ^ 47 - a) : mapped (2 ^ 47 + a) n = true := by
  unfold mapped
  rw [regionOf_host below]
  have fits' : 2 ^ 47 + a + n ≤ 0xFFFFFFFFFFFF + 1 := by
    omega
  exact decide_eq_true fits'

theorem opHostCplRx_data {r : Agent} {a : Nat} {d : List Byte} {w : Work} (reads : w.hostReads r = true) (below : a < 2 ^ 47)
    (fits : d.length ≤ 2 ^ 47 - a) : opHostCplRx r a (.data d) w = w.write (2 ^ 47 + a) d := by
  unfold opHostCplRx
  rw [if_neg (by rw [reads]; exact Bool.noConfusion)]
  dsimp only
  rw [Nat.mod_eq_of_lt below, List.take_of_length_le fits]

theorem opHostCplRx_error {a st : Nat} {w : Work} (reads : w.hostReads .other = true) :
    opHostCplRx .other a (.error st) w = w.bump Obj.hostAccessErrors 1 := by
  unfold opHostCplRx
  rw [if_neg (by rw [reads]; exact Bool.noConfusion)]
  rfl

theorem opHostCplTimeout_counts {a : Nat} {w : Work} (reads : w.hostReads .other = true) (may : w.mayTimeOut .other = true) :
    opHostCplTimeout .other a w = w.bump Obj.hostCplTimeouts 1 := by
  unfold opHostCplTimeout
  rw [if_neg (by rw [reads, may]; simp)]
  rfl

/-! ### Function-level resets and PERST (R530) -/

theorem Work.fnReset_pcie (c : Nat) (w : Work) : (w.fnReset c).pcie = ⟨w.pcie.busMaster.filter (fun f => f != c), w.pcie.msix.filter (fun f => f != c)⟩ := rfl

theorem not_mem_filter_ne (l : List Nat) (c : Nat) : c ∉ l.filter (fun f => f != c) := fun h => by
  simp at h

/-- A list of functions that holds none below a bound. -/
theorem Work.fnReset_off {c i : Nat} {w : Work} (h : c = i ∨ (c ∉ w.pcie.busMaster ∧ c ∉ w.pcie.msix)) :
    c ∉ (w.fnReset i).pcie.busMaster ∧ c ∉ (w.fnReset i).pcie.msix := by
  rcases h with rfl | ⟨h1, h2⟩
  · exact ⟨not_mem_filter_ne _ _, not_mem_filter_ne _ _⟩
  · exact ⟨fun h => h1 (List.mem_filter.mp h).1, fun h => h2 (List.mem_filter.mp h).1⟩

theorem forUpto_fnReset_off {c n : Nat} (w : Work) (below : c < n) :
    c ∉ (forUpto (fun c w => w.fnReset c) n w).pcie.busMaster ∧ c ∉ (forUpto (fun c w => w.fnReset c) n w).pcie.msix := by
  induction n with
  | zero => omega
  | succ n ih => exact Work.fnReset_off ((Nat.lt_succ_iff_lt_or_eq.mp below).symm.imp_right ih)

/-- What a reset of functions leaves alone. -/
theorem forUpto_fnReset_keeps (n : Nat) (w : Work) : (forUpto (fun c w => w.fnReset c) n w).out = w.out ∧
    (forUpto (fun c w => w.fnReset c) n w).dict = w.dict ∧ (forUpto (fun c w => w.fnReset c) n w).obj = w.obj ∧
    (forUpto (fun c w => w.fnReset c) n w).boot = w.boot := by
  induction n with
  | zero => exact ⟨rfl, rfl, rfl, rfl⟩
  | succ n ih => exact ih

theorem Work.flrAll_hostKept (w : Work) : w.HostKept w.flrAll := by
  have all : ∀ n, w.HostKept (forUpto (fun c w => w.flrContext c) n w) := by
    intro n
    induction n with
    | zero => exact .of_hostSide rfl
    | succ n ih => exact ih.trans (Work.flrContext_hostKept n _)
  unfold Work.flrAll
  split
  · exact all 16
  · exact .of_hostSide rfl

theorem Work.flrAll_unready {w : Work} (h : w.ready = false) : w.flrAll = w := if_neg (fun e => Bool.false_ne_true (h.symm.trans e))

theorem Work.allFnReset_off (w : Work) {c : Nat} (below : c < 16) : c ∉ w.allFnReset.pcie.busMaster ∧ c ∉ w.allFnReset.pcie.msix :=
  forUpto_fnReset_off w below

theorem Work.allFnReset_get {n : Nat} (w : Work) (h : n ≠ Obj.numVfs) : w.allFnReset.get n = w.get n := by
  unfold Work.allFnReset
  rw [Work.put_get_other _ _ h, Dev.get_of_obj (forUpto_fnReset_keeps 16 w).2.2.1]

theorem Work.allFnReset_dict (w : Work) : w.allFnReset.dict = w.dict := by
  unfold Work.allFnReset
  rw [Work.put_dict]
  exact (forUpto_fnReset_keeps 16 w).2.1

theorem Work.allFnReset_numVfs (w : Work) : w.allFnReset.get Obj.numVfs = 0 := by
  unfold Work.allFnReset
  exact Work.put_get_same _ _ _

theorem Work.allFnReset_ready (w : Work) : w.allFnReset.ready = w.ready := by
  unfold Dev.ready
  rw [Work.allFnReset_get w (by decide), show w.allFnReset.boot = w.boot from (forUpto_fnReset_keeps 16 w).2.2.2]

theorem opFlrVf_resets {c : Fin 16} {w : Work} (virtual : c ≠ 0) (enabled : w.fnEnabled c = true) (up : w.boot.held = false) :
    opFlrVf c w = if ((w.bump Obj.flrCount 1).fnReset c).ready then ((w.bump Obj.flrCount 1).fnReset c).flrContext c
      else (w.bump Obj.flrCount 1).fnReset c := by
  unfold opFlrVf
  dsimp only
  rw [if_neg]
  rintro (h | h | h)
  · exact virtual (Fin.ext h)
  · exact Bool.false_ne_true (h.symm.trans enabled)
  · exact Bool.false_ne_true (up.symm.trans h)

theorem opFlrVf_off {c : Fin 16} {w : Work} (virtual : c ≠ 0) (enabled : w.fnEnabled c = true) (up : w.boot.held = false) :
    c.val ∉ (opFlrVf c w).pcie.busMaster ∧ c.val ∉ (opFlrVf c w).pcie.msix := by
  have off : c.val ∉ ((w.bump Obj.flrCount 1).fnReset c).pcie.busMaster ∧ c.val ∉ ((w.bump Obj.flrCount 1).fnReset c).pcie.msix :=
    Work.fnReset_off (.inl rfl)
  rw [opFlrVf_resets virtual enabled up]
  split
  · rw [(Work.flrContext_hostKept _ _).pcie]
    exact off
  · exact off

theorem Work.fnReset_ready (c : Nat) (w : Work) : ((w.bump Obj.flrCount 1).fnReset c).ready = w.ready := by
  have state : ((w.bump Obj.flrCount 1).fnReset c).get Obj.bootState = w.get Obj.bootState := Work.bump_get_other _ _ (by decide)
  unfold Dev.ready
  rw [state]
  rfl

theorem opFlrVf_unready {c : Fin 16} {w : Work} (virtual : c ≠ 0) (enabled : w.fnEnabled c = true) (up : w.boot.held = false)
    (stopped : w.ready = false) : opFlrVf c w = (w.bump Obj.flrCount 1).fnReset c := by
  rw [opFlrVf_resets virtual enabled up, if_neg]
  rw [Work.fnReset_ready, stopped]
  exact Bool.false_ne_true

theorem opFlrPf_resets {w : Work} (up : w.boot.held = false) : opFlrPf w = ((w.bump Obj.flrCount 1).allFnReset).flrAll :=
  if_neg (fun h => Bool.false_ne_true (up.symm.trans h))

theorem opPciePerst_resets {w : Work} (up : w.boot.held = false) :
    opPciePerst w = ((w.setDict (fun d => { d with windows := [] })).allFnReset).flrAll :=
  if_neg (fun h => Bool.false_ne_true (up.symm.trans h))

theorem Work.bump_ready (w : Work) : (w.bump Obj.flrCount 1).ready = w.ready := by
  unfold Dev.ready
  rw [Work.bump_get_other _ _ (by decide)]
  rfl

/-- After a reset of all functions none has its bus mastering or its interrupts. -/
theorem Work.flrAll_off (w : Work) {c : Nat} (below : c < 16) :
    c ∉ w.allFnReset.flrAll.pcie.busMaster ∧ c ∉ w.allFnReset.flrAll.pcie.msix := by
  rw [(Work.flrAll_hostKept _).pcie]
  exact w.allFnReset_off below

/-! ### Changes of the link -/

theorem opHostLinkChanged_values {rate : Fin 7} {width : Fin 17} {cfg : HostCfg} {w : Work} (up : w.pcieUp = true) :
    (opHostLinkChanged rate width cfg w).get Obj.hostLinkRate = rate.val ∧ (opHostLinkChanged rate width cfg w).get Obj.hostLinkWidth = width.val ∧
      (opHostLinkChanged rate width cfg w).get Obj.numVfs = (if w.get Obj.bootState = 7 then 0 else cfg.numVfs.val) ∧
      (opHostLinkChanged rate width cfg w).pcie.busMaster = cfg.busMaster.map (fun f => f.val) ∧
      (∀ n, n ∉ Obj.hostLinkRate :: Obj.hostLinkWidth :: Obj.numVfs :: logObjs → (opHostLinkChanged rate width cfg w).get n = w.get n) ∧
      (opHostLinkChanged rate width cfg w).out = w.out := by
  obtain ⟨v, hv⟩ : ∃ v, v = ((w.put Obj.hostLinkRate rate.val).put Obj.hostLinkWidth width.val).hostConfig cfg := ⟨_, rfl⟩
  have state : ((w.put Obj.hostLinkRate rate.val).put Obj.hostLinkWidth width.val).get Obj.bootState = w.get Obj.bootState :=
    (Work.put_get_other _ _ (by decide)).trans (Work.put_get_other _ _ (by decide))
  have set : ∀ n, v.get n = if n = Obj.numVfs then (if w.get Obj.bootState = 7 then 0 else cfg.numVfs.val) else
      ((w.put Obj.hostLinkRate rate.val).put Obj.hostLinkWidth width.val).get n := by
    intro n
    rw [hv, ← state]
    exact Work.put_get _ _ _ _
  have e : opHostLinkChanged rate width cfg w = if (w.get Obj.hostLinkRate == rate.val && w.get Obj.hostLinkWidth == width.val) = true then v
      else v.event 0x0D05 31 0 (rate.val * 256 + width.val) := by
    rw [hv]
    exact if_neg (by rw [up]; exact Bool.noConfusion)
  have get : ∀ n, n ∉ logObjs → (opHostLinkChanged rate width cfg w).get n = v.get n := by
    intro n hn
    rw [e]
    split
    · rfl
    · exact Work.event_get _ _ _ _ _ hn
  refine ⟨?_, ?_, ?_, ?_, fun n hn => ?_, ?_⟩
  · rw [get _ (by decide), set, if_neg (by decide), Work.put_get_other _ _ (by decide), Work.put_get_same]
  · rw [get _ (by decide), set, if_neg (by decide), Work.put_get_same]
  · rw [get _ (by decide), set, if_pos rfl]
  · rw [e]
    split
    · rw [hv]
      rfl
    · rw [Work.event_pcie, hv]
      rfl
  · simp only [List.mem_cons, not_or] at hn
    obtain ⟨h1, h2, h3, h4⟩ := hn
    rw [get _ (by simpa only [not_or, List.mem_cons] using h4), set, if_neg h3, Work.put_get_other _ _ h2, Work.put_get_other _ _ h1]
  · rw [e]
    split
    · rw [hv]
      rfl
    · rw [Work.event_out, hv]
      rfl

/-- Settles O55: the port's own part of each instruction, and what the resets that it asks for leave of the host's configuration. -/
theorem hostPortActs : Obligations.HostPortActs := by
  unfold Obligations.HostPortActs
  refine ⟨fun r a d s reads below fits => ?_, fun r a st s reads => ⟨fun sound => ?_, fun may sound => ?_⟩,
    fun s up => ⟨fun c virtual enabled sound => ?_, fun sound => ?_, fun sound => ?_⟩, fun rate width cfg s linked => ?_⟩
  · have e : opHostCplRx r a (.data d) s.work = s.work.write (2 ^ 47 + a) d := opHostCplRx_data (w := s.work) reads below fits
    obtain ⟨next, read, rest⟩ := exec_write (i := .hostCplRx r a (.data d)) (s := s) (congrArg Work.out e) (mapped_host below fits)
    refine ⟨_, next, fun n _ => ?_, read, rest⟩
    exact (State.after_get _ _ _).trans ((congrArg (fun w : Work => w.get n) e).trans (Work.write_get _ _ _ _))
  · by_cases other : r = .other
    · subst other
      have e := opHostCplRx_error (a := a) (st := st) (w := s.work) reads
      exact ⟨_, exec_leave (i := .hostCplRx .other a (.error st)) e rfl, fun _ => ⟨s.sameMem_leave _, Work.bump_get_same _ _ _⟩⟩
    · exact ⟨_, exec_sound (i := .hostCplRx r a (.error st)) sound, fun h => absurd h other⟩
  · by_cases other : r = .other
    · subst other
      have e := opHostCplTimeout_counts (a := a) (w := s.work) reads may
      exact ⟨_, exec_leave (i := .hostCplTimeout .other a) e rfl, fun _ => ⟨s.sameMem_leave _, Work.bump_get_same _ _ _⟩⟩
    · exact ⟨_, exec_sound (i := .hostCplTimeout r a) sound, fun h => absurd h other⟩
  · obtain ⟨bus, msix⟩ := opFlrVf_off (w := s.work) virtual enabled up
    cases ready : s.ready with
    | false =>
      have e := opFlrVf_unready (w := s.work) virtual enabled up ready
      rw [e] at bus msix
      exact ⟨_, exec_leave (i := .flrVf c) e rfl, bus, msix, fun _ => ⟨s.sameMem_leave _, Work.bump_get_same _ _ _⟩⟩
    | true =>
      refine ⟨_, exec_sound (i := .flrVf c) sound, ?_, ?_, fun h => absurd h.symm Bool.false_ne_true⟩
      · rw [State.after_pcie]
        exact bus
      · rw [State.after_pcie]
        exact msix
  · have e := opFlrPf_resets (w := s.work) up
    cases ready : s.ready with
    | false =>
      have stopped : (s.work.bump Obj.flrCount 1).allFnReset.ready = false :=
        (Work.allFnReset_ready _).trans ((Work.bump_ready s.work).trans ready)
      have e' := e.trans (Work.flrAll_unready stopped)
      refine ⟨_, exec_leave (i := .flrPf) e' (Work.allFnReset_out _), fun c below => Work.allFnReset_off _ below, fun _ => ⟨s.sameMem_leave _,
        Work.allFnReset_numVfs _, ?_⟩⟩
      exact (Work.allFnReset_get _ (by decide)).trans (Work.bump_get_same _ _ _)
    | true =>
      refine ⟨_, exec_sound (i := .flrPf) sound, fun c below => ?_, fun h => absurd h.symm Bool.false_ne_true⟩
      rw [State.after_pcie, show Machine.work .flrPf s.work = _ from e]
      exact Work.flrAll_off _ below
  · have e := opPciePerst_resets (w := s.work) up
    cases ready : s.ready with
    | false =>
      have stopped : (s.work.setDict (fun d => { d with windows := [] })).allFnReset.ready = false :=
        (Work.allFnReset_ready _).trans ready
      have e' := e.trans (Work.flrAll_unready stopped)
      refine ⟨_, exec_leave (i := .pciePerst) e' (Work.allFnReset_out _), fun c below => Work.allFnReset_off _ below, ?_, fun _ => ⟨s.sameMem_leave _,
        Work.allFnReset_numVfs _, Work.allFnReset_get _ (by decide)⟩⟩
      exact congrArg DictState.windows (Work.allFnReset_dict (s.work.setDict (fun d => { d with windows := [] })))
    | true =>
      refine ⟨_, exec_sound (i := .pciePerst) sound, fun c below => ?_, ?_, fun h => absurd h.symm Bool.false_ne_true⟩
      · rw [State.after_pcie, show Machine.work .pciePerst s.work = _ from e]
        exact Work.flrAll_off _ below
      · rw [State.after_dict, show Machine.work .pciePerst s.work = _ from e]
        refine (Work.flrAll_hostKept _).windows ?_
        exact congrArg DictState.windows (Work.allFnReset_dict (s.work.setDict (fun d => { d with windows := [] })))
  · obtain ⟨h1, h2, h3, h4, h5, out⟩ := opHostLinkChanged_values (rate := rate) (width := width) (cfg := cfg) (w := s.work) linked
    exact ⟨_, exec_quiet (i := .hostLinkChanged rate width cfg) out, s.sameMem_leave _, h1, h2, h3, h4, h5⟩


/-! ### What leaves the sections alone -/

@[simp] theorem Work.ite_sections (c : Prop) [Decidable c] (a b : Work) :
    (if c then a else b).sched.sections = if c then a.sched.sections else b.sched.sections := by
  split <;> rfl

@[simp] theorem foldl_sections {α : Type} (f : Work → α → Work) (h : ∀ w a, (f w a).sched.sections = w.sched.sections) (l : List α) (w : Work) :
    (l.foldl f w).sched.sections = w.sched.sections :=
  List.foldlRecOn l f (motive := fun w' => w'.sched.sections = w.sched.sections) rfl (fun w' same a _ => (h w' a).trans same)

@[simp] theorem forUpto_sections (f : Nat → Work → Work) (h : ∀ i w, (f i w).sched.sections = w.sched.sections) (n : Nat) (w : Work) :
    (forUpto f n w).sched.sections = w.sched.sections := by
  induction n with
  | zero => rfl
  | succ n ih => exact (h n _).trans ih

@[simp] theorem Work.mapCmd_sections (id : Nat) (f : Cmd → Cmd) (w : Work) : (w.mapCmd id f).sched.sections = w.sched.sections := by rfl

@[simp] theorem Work.finishCmd_sections (id : Nat) (status : Nat) (detail : Nat) (w : Work) : (Work.finishCmd id status detail w).sched.sections = w.sched.sections := by
  unfold Work.finishCmd
  simp [*]

@[simp] theorem Work.put_sections (n : Nat) (v : Nat) (w : Work) : (Work.put n v w).sched.sections = w.sched.sections := by rfl

@[simp] theorem Work.bump_sections (n : Nat) (k : Nat) (w : Work) : (Work.bump n k w).sched.sections = w.sched.sections := by rfl

@[simp] theorem Work.setLaunches_sections (l : List Launch) (w : Work) : (Work.setLaunches l w).sched.sections = w.sched.sections := by rfl

@[simp] theorem Work.launchStep_sections (cmd : Nat) (w : Work) : (Work.launchStep cmd w).sched.sections = w.sched.sections := by
  unfold Work.launchStep
  (repeat' split) <;> simp [*]

@[simp] theorem Work.mapLaunch_sections (cmd : Nat) (f : Launch → Launch) (w : Work) : (Work.mapLaunch cmd f w).sched.sections = w.sched.sections := by rfl

@[simp] theorem Work.launchFault_sections (cmd : Nat) (idx : Nat) (st : Nat) (detail : Nat) (w : Work) : (Work.launchFault cmd idx st detail w).sched.sections
    = w.sched.sections := by rfl

@[simp] theorem Work.setRuns_sections (l : List SampRun) (w : Work) : (Work.setRuns l w).sched.sections = w.sched.sections := by rfl

@[simp] theorem Work.dropRun_sections (samp : Option Nat) (w : Work) : (Work.dropRun samp w).sched.sections = w.sched.sections := by
  unfold Work.dropRun
  split <;> simp

@[simp] theorem Work.tileGone_sections (cmd : Nat) (w : Work) : (Work.tileGone cmd w).sched.sections = w.sched.sections := by
  unfold Work.tileGone
  simp

@[simp] theorem Work.chainLost_sections (sp : SpillChain) (w : Work) : (Work.chainLost sp w).sched.sections = w.sched.sections := by
  unfold Work.chainLost
  (repeat' split) <;> simp [*]

@[simp] theorem Work.send_sections (m : OutMsg) (w : Work) : (Work.send m w).sched.sections = w.sched.sections := by rfl

@[simp] theorem Work.logUnit_sections (n code ctx source detail extra : Nat) (w : Work) : (w.logUnit n code ctx source detail extra).sched.sections = w.sched.sections := by
  rw [(Work.logs_logUnit n code ctx source detail extra w).sched]

@[simp] theorem Work.log1_sections (code : Nat) (ctx : Nat) (source : Nat) (detail : Nat) (extra : Nat) (w : Work) : (Work.log1 code ctx source detail
    extra w).sched.sections = w.sched.sections := by
  unfold Work.log1
  simp

@[simp] theorem Work.event_sections (code : Nat) (ctx : Nat) (source : Nat) (detail : Nat) (w : Work) : (Work.event code ctx source detail w).sched.sections =
    w.sched.sections := by
  unfold Work.event
  simp

@[simp] theorem Work.coreNow_sections (k : Nat) (st : Nat) (x : Nat) (w : Work) : (Work.coreNow k st x w).sched.sections = w.sched.sections := by rfl

@[simp] theorem Work.unfenceCore_sections (k : Nat) (w : Work) : (Work.unfenceCore k w).sched.sections = w.sched.sections := by
  unfold Work.unfenceCore
  split <;> simp

@[simp] theorem Work.becomeOwner_sections (cls c : Nat) (w : Work) : (w.becomeOwner cls c).sched.sections = w.sched.sections := by
  unfold Work.becomeOwner
  dsimp only
  split <;> rfl

@[simp] theorem Work.offerSlice_sections (cls p v2 : Nat) (v3 : Work) : (Work.offerSlice cls p v2 v3).sched.sections = v3.sched.sections := by
  induction v2 generalizing p v3 with
  | zero => exact Work.put_sections _ _ _
  | succ k ih =>
    unfold Work.offerSlice
    split
    · exact Work.put_sections _ _ _
    · split
      · exact (ih _ _).trans (Work.put_sections _ _ _)
      · exact Work.becomeOwner_sections _ _ _

@[simp] theorem Work.handover_sections (cls : Nat) (p : Nat) (w : Work) : (Work.handover cls p w).sched.sections = w.sched.sections := by
  unfold Work.handover
  simp

@[simp] theorem Work.rotateClass_sections (cls : Nat) (w : Work) : (Work.rotateClass cls w).sched.sections = w.sched.sections := by
  unfold Work.rotateClass
  dsimp only
  (repeat' split) <;> simp [*]

@[simp] theorem Work.rotation_sections (w : Work) : (Work.rotation w).sched.sections = w.sched.sections := by
  unfold Work.rotation
  simp

@[simp] theorem Work.settleDebt_sections (s : Section) (w : Work) : (Work.settleDebt s w).sched.sections = w.sched.sections := by
  unfold Work.settleDebt
  dsimp only
  (repeat' split) <;> simp [*]

@[simp] theorem Work.setRst_sections (f : ResetState → ResetState) (w : Work) : (Work.setRst f w).sched.sections = w.sched.sections := by rfl

@[simp] theorem Work.mapReset_sections (dom : Nat) (target : Nat) (f : Reset → Reset) (w : Work) : (Work.mapReset dom target f w).sched.sections = w.sched.sections
    := by rfl

@[simp] theorem Work.writeSwatch_sections (sw : Swatch) (w : Work) : (Work.writeSwatch sw w).sched.sections = w.sched.sections := by
  unfold Work.writeSwatch
  simp

@[simp] theorem Work.trainHalf_sections (h : Nat) (w : Work) : (Work.trainHalf h w).sched.sections = w.sched.sections := by
  unfold Work.trainHalf
  exact foldl_sections (fun (w : Work) (p : Nat) => w.put (partState p) 1) (fun _ _ => rfl) _ w

@[simp] theorem Work.swatchStep_sections (dom : Nat) (target : Nat) (w : Work) : (Work.swatchStep dom target w).sched.sections = w.sched.sections := by
  unfold Work.swatchStep
  (repeat' split) <;> simp [*]

@[simp] theorem Work.sampled_sections (k : Nat) (s : Option SwSample) (nbad : Nat) (w : Work) : (Work.sampled k s nbad w).sched.sections = w.sched.sections := by
  unfold Work.sampled
  dsimp only
  (repeat' split) <;> simp_all [apply_ite]

@[simp] theorem Work.putCore_sections (c : Core) (w : Work) : (Work.putCore c w).sched.sections = w.sched.sections := by
  rfl

@[simp] theorem Work.chainSave_sections (k : Nat) (w : Work) : (Work.chainSave k w).sched.sections = w.sched.sections := by
  unfold Work.chainSave
  dsimp only
  (repeat' split) <;> simp [*]

@[simp] theorem Work.spillMove_sections (k : Nat) (w : Work) : (Work.spillMove k w).sched.sections = w.sched.sections := by
  unfold Work.spillMove
  dsimp only
  (repeat' split) <;> simp [*]

@[simp] theorem Work.fenceCore_sections (k : Nat) (w : Work) : (Work.fenceCore k w).sched.sections = w.sched.sections := by
  unfold Work.fenceCore
  dsimp only
  (repeat' split) <;> simp [*]

/-! ### Sections that end -/

@[simp] theorem Work.setSections_sections (l : List Section) (w : Work) : (w.setSections l).sched.sections = l := by
  rfl

theorem Work.endSection_sections (id : Nat) (w : Work) : (w.endSection id).sched.sections = w.sched.sections.filter (fun t => t.id != id) := by
  unfold Work.endSection
  split
  · next none_ =>
    refine (List.filter_eq_self.mpr (fun t ht => ?_)).symm
    have other := List.find?_eq_none.mp none_ t ht
    simpa using other
  · next s _ =>
    have settled : (if s.core.isSome && s.kind != 2 then w.settleDebt s else w).sched.sections = w.sched.sections := by
      split
      · exact Work.settleDebt_sections _ _
      · rfl
    rw [← settled]
    generalize (if s.core.isSome && s.kind != 2 then w.settleDebt s else w) = v
    dsimp only
    (repeat' split) <;> simp

/-- Sections that end one after the other: those that stay were there, and have none of their identities. -/
theorem foldl_endSection {l : List Section} {w : Work} {p : Section}
    (h : p ∈ (l.foldl (fun (w : Work) (s : Section) => w.endSection s.id) w).sched.sections) : ∀ q ∈ l, p.id ≠ q.id := by
  have all : ∀ (l : List Section) (w : Work), p ∈ (l.foldl (fun (w : Work) (s : Section) => w.endSection s.id) w).sched.sections →
      p ∈ w.sched.sections ∧ ∀ q ∈ l, p.id ≠ q.id := by
    intro l
    induction l with
    | nil => exact fun w h => ⟨h, fun q hq => nomatch hq⟩
    | cons s r ih =>
      intro w h
      obtain ⟨stays, others⟩ := ih _ h
      rw [Work.endSection_sections] at stays
      obtain ⟨mem, other⟩ := List.mem_filter.mp stays
      refine ⟨mem, fun q hq => ?_⟩
      rcases List.mem_cons.mp hq with rfl | hq
      · simpa using other
      · exact others q hq
  exact (all l w h).2

theorem Work.sampleLost_sections {k : Nat} {w : Work} {q : Section} (mem : q ∈ w.sched.sections) (kind : q.kind = 2) (ref : q.ref = k) :
    ∀ p ∈ (w.sampleLost k).sched.sections, p.id ≠ q.id := by
  intro p hp
  unfold Work.sampleLost at hp
  rw [Work.sampled_sections] at hp
  exact foldl_endSection hp q (List.mem_filter.mpr ⟨mem, by rw [kind, ref]; simp⟩)

theorem opSwatchSampleTimeout_late {k : Fin 32} {q : Section} {w : Work} (on : w.sectionOn k = some q) (kind : q.kind = 2)
    (past : 16000 ≤ w.since q.start) : opSwatchSampleTimeout k w = w.sampleLate q k := by
  unfold opSwatchSampleTimeout
  rw [on]
  exact if_pos ⟨kind, past⟩

/-! ### The end of a reset (R459 to R461, R466) -/

theorem Dev.reset?_none_iff {w : Dev} {dom target : Nat} : w.reset? dom target = none ↔ (dom, target) ∉ w.underWay := by
  unfold Dev.reset? Dev.underWay
  rw [List.find?_eq_none]
  constructor
  · intro h m
    obtain ⟨r, hr, e⟩ := List.mem_map.mp m
    obtain ⟨h1, h2⟩ := Prod.mk.inj e
    exact h r hr (by rw [h1, h2]; simp)
  · intro h r hr e
    simp only [Bool.and_eq_true, beq_iff_eq] at e
    exact h (List.mem_map.mpr ⟨r, hr, by rw [e.1, e.2]⟩)

theorem Dev.reset?_isSome_of_mem {w : Dev} {dom target : Nat} (h : (dom, target) ∈ w.underWay) : (w.reset? dom target).isSome = true := by
  cases e : w.reset? dom target with
  | none => exact absurd h (Dev.reset?_none_iff.mp e)
  | some r => rfl

theorem Work.dropReset_underWay (dom target : Nat) (w : Work) : (dom, target) ∉ (w.dropReset dom target).underWay := by
  intro m
  obtain ⟨r, hr, e⟩ := List.mem_map.mp m
  obtain ⟨h1, h2⟩ := Prod.mk.inj e
  have kept := (List.mem_filter.mp hr).2
  rw [h1, h2] at kept
  simp at kept

theorem Work.lastReset_calm (r : Reset) (w : Work) : (w.lastReset r).calm = w.calm := by
  unfold Work.lastReset
  exact Work.blobPut_calm _ _ _ _ _ _

theorem opResetDone_over {dom target n : Nat} {bad : List (Nat × Nat)} {r : Reset} {w : Work} (found : w.reset? dom target = some r)
    (finished : w.resetOver r = true) : (opResetDone dom target bad n w).reset? dom target = none := by
  have ended : ∀ v : Work, ((((v.dropReset dom target).lastReset r).resetEvent 0x0A02 r.dom r.cause r.target).rotation).reset? dom target = none := by
    intro v
    refine Dev.reset?_none_iff.mpr ?_
    rw [Dev.underWay_of_calm (Work.rotation_calm _), Dev.underWay_of_calm (Work.resetEvent_calm _ _ _ _ _),
      Dev.underWay_of_calm (Work.lastReset_calm _ _)]
    exact Work.dropReset_underWay dom target v
  unfold opResetDone
  rw [found]
  dsimp only
  rw [if_neg (by rw [finished]; exact Bool.noConfusion)]
  exact ended _

/-! ### Limits (R467, R468) -/

theorem opResetLimitExpire_early {dom target : Nat} {r : Reset} {w : Work} (found : w.reset? dom target = some r)
    (early : w.since r.start < r.limit) : opResetLimitExpire dom target w = w := by
  unfold opResetLimitExpire
  rw [found]
  exact if_pos (.inr (.inl early))

section
variable {r : Reset} {w : Work} (limited : r.limit ≠ 0) (past : r.limit ≤ w.since r.start) (free : w.rst.stuck = false)
include limited past free

theorem opResetLimitExpire_warm (found : w.reset? 5 0 = some r) (outer : w.rst.runs.any (fun q => q.contains 5 0) = false) :
    opResetLimitExpire 5 0 w =
      ((w.setRst (fun q => { q with stuck := true })).put Obj.coldReqPending (w.get Obj.coldReqEnable)).event 0x0A07 31 0x9000 0 := by
  unfold opResetLimitExpire
  rw [found]
  dsimp only
  rw [if_neg]
  · rfl
  · rintro (h | h | h | h)
    · exact limited h
    · omega
    · exact Bool.false_ne_true (free.symm.trans h)
    · exact Bool.false_ne_true (outer.symm.trans h)

theorem opResetLimitExpire_die {d : Nat} (found : w.reset? 4 d = some r) (outer : w.rst.runs.any (fun q => q.contains 4 d) = false) :
    opResetLimitExpire 4 d w = w.escalateDie r 3 := by
  unfold opResetLimitExpire
  rw [found]
  dsimp only
  rw [if_neg]
  · rfl
  rintro (h | h | h | h)
  · exact limited h
  · omega
  · exact Bool.false_ne_true (free.symm.trans h)
  · exact Bool.false_ne_true (outer.symm.trans h)

end

theorem Dev.underWay_of_snd {v : Dev} {a : PcieState × List Window} {u : List (Nat × Nat)} (h : v.calm = (a, u)) : v.underWay = u :=
  congrArg Prod.snd h

/-- A device warm reset that starts is under way. -/
theorem Work.resetBegin_warm {r : Reset} (dom : r.dom = 5) (target : r.target = 0) (w : Work) : (5, 0) ∈ (w.resetBegin r).underWay := by
  have begun : ∀ v : Work, (v.domainBegin 5 0 r.esc r.dev r.culprit r.ctxs r.todo).underWay = v.underWay := fun v =>
    Dev.underWay_of_snd (Work.warmBegin_calm v)
  unfold Work.resetBegin
  rw [dom, target, Dev.underWay_of_calm (Work.swatchStep_calm _ _ _), begun, Dev.underWay_of_snd (Work.pushReset_calm r _), dom, target]
  exact List.mem_append_right _ (List.mem_singleton.mpr rfl)

theorem Work.resetAsk_warm_starts (cause esc : Nat) (dev : Bool) (culprit : Option Nat) {w : Work} (none_ : w.reset? 5 0 = none) :
    (5, 0) ∈ (w.resetAsk 5 0 cause esc dev culprit).underWay := by
  have e : w.resetAsk 5 0 cause esc dev culprit = w.resetStart 5 0 cause esc dev culprit := by
    unfold Work.resetAsk
    simp [none_, Reset.contains]
  rw [e, Work.resetStart_begins]
  exact Work.resetBegin_warm rfl rfl _

theorem Work.escalateDie_warm {r : Reset} {w : Work} (none_ : w.reset? 5 0 = none) : (5, 0) ∈ (w.escalateDie r 3).underWay := by
  have told : (w.escalated r 5 0).reset? 5 0 = none := by
    refine Dev.reset?_none_iff.mpr ?_
    have same : (w.escalated r 5 0).calm = w.calm := by
      unfold Work.escalated
      simp
    rw [Dev.underWay_of_calm same]
    exact Dev.reset?_none_iff.mp none_
  unfold Work.escalateDie
  have warm : (r.dev || (3 : Nat) == 3) = true := Bool.or_true _
  simp only [warm, if_true]
  exact Work.resetAsk_warm_starts _ _ _ _ told

theorem State.after_underWay (s : State) (f : Work → Work) : (s.after f).underWay = (f s.work).underWay := by
  unfold Dev.underWay
  rw [State.after_rst]

/-- Settles O47: which resets are under way, through the end, the escalation and the limit of one. -/
theorem resetsEnd : Obligations.ResetsEnd := by
  unfold Obligations.ResetsEnd
  refine ⟨fun dom target n bad r s found finished sound => ?_, fun dom target r s found early => ?_, fun r s found limited past free outer => ?_,
    fun d r s small found limited past free outer none_ sound => ?_, fun k q s on kind ref id past => ?_⟩
  · have done := opResetDone_over (n := n) (bad := bad) (w := s.work) found finished
    refine ⟨_, exec_sound (i := .resetDone dom target bad n) sound, Dev.reset?_none_iff.mpr ?_⟩
    rw [State.after_underWay]
    exact Dev.reset?_none_iff.mp done
  · have e := opResetLimitExpire_early (w := s.work) found early
    exact ⟨_, exec_leave (i := .resetLimitExpire dom target) e rfl, s.sameMem_leave _, fun _ _ => rfl⟩
  · have e := opResetLimitExpire_warm (w := s.work) limited past free found outer
    refine ⟨_, exec_leave (i := .resetLimitExpire 5 0) e (Work.event_out _ _ _ _ _), s.sameMem_leave _, ?_, ?_, fun n hn => ?_⟩
    · exact congrArg ResetState.stuck (Work.event_rst _ _ _ _ _)
    · exact (Work.event_get _ _ _ _ _ (by decide)).trans (Work.put_get_same _ _ _)
    · exact (Work.event_get _ _ _ _ _ (fun m => hn (List.mem_cons_of_mem _ m))).trans
        (Work.put_get_other _ _ (fun e => hn (List.mem_cons.mpr (.inl e))))
  · have e := opResetLimitExpire_die (w := s.work) limited past free found outer
    refine ⟨_, exec_sound (i := .resetLimitExpire 4 d) sound, Dev.reset?_isSome_of_mem ?_⟩
    rw [State.after_underWay, show Machine.work (.resetLimitExpire 4 d) s.work = _ from e]
    exact Work.escalateDie_warm none_
  · have e := opSwatchSampleTimeout_late (w := s.work) on kind past
    have mem : q ∈ s.sched.sections := List.mem_of_find?_eq_some on
    have out := (congrArg Work.out e).symm.trans (opSwatchSampleTimeout_out k s.work)
    refine ⟨_, exec_leave (i := .swatchSampleTimeout k) e out, s.sameMem_leave _, ?_⟩
    refine Work.sampleLost_sections (w := (s.work.bump Obj.sectionOverrunCount 1).log1 0x0314 31 (0x3000 + q.die) k q.bound) ?_ kind ref
    rw [Work.log1_sections]
    exact mem

end Sys2Proof.Machine

namespace Sys2Proof.Machine

/-! ### What leaves the load alone -/

@[simp] theorem Work.ite_job (c : Prop) [Decidable c] (a b : Work) :
    (if c then a else b).life.job = if c then a.life.job else b.life.job := by
  split <;> rfl

@[simp] theorem foldl_job {α : Type} (f : Work → α → Work) (h : ∀ w a, (f w a).life.job = w.life.job) (l : List α) (w : Work) :
    (l.foldl f w).life.job = w.life.job :=
  List.foldlRecOn l f (motive := fun w' => w'.life.job = w.life.job) rfl (fun w' same a _ => (h w' a).trans same)

@[simp] theorem forUpto_job (f : Nat → Work → Work) (h : ∀ i w, (f i w).life.job = w.life.job) (n : Nat) (w : Work) :
    (forUpto f n w).life.job = w.life.job := by
  induction n with
  | zero => rfl
  | succ n ih => exact (h n _).trans ih

@[simp] theorem Work.put_job (n : Nat) (v : Nat) (w : Work) : (Work.put n v w).life.job = w.life.job := by rfl

@[simp] theorem Work.bump_job (n : Nat) (k : Nat) (w : Work) : (Work.bump n k w).life.job = w.life.job := by rfl

@[simp] theorem Work.send_job (m : OutMsg) (w : Work) : (Work.send m w).life.job = w.life.job := by rfl

@[simp] theorem Work.mgmtSend_job (m : OutMsg) (w : Work) : (Work.mgmtSend m w).life.job = w.life.job := by
  unfold Work.mgmtSend
  split <;> simp

@[simp] theorem Work.notifyTx_job (i : Nat) (seq : Nat) (kind : Nat) (body : List Nat) (w : Work) : (Work.notifyTx i seq kind body w).life.job =
    w.life.job := by
  unfold Work.notifyTx
  simp

@[simp] theorem Work.notifyOne_job (i kind : Nat) (body : List Nat) (w : Work) : (w.notifyOne i kind body).2.life.job = w.life.job := by
  rw [(Work.logs_notifyOne w i kind body).life]

@[simp] theorem Work.notifyAll_job (kind : Nat) (body : List Nat) (w : Work) : (w.notifyAll kind body).2.life.job = w.life.job := by
  rw [(Work.logs_notifyAll w kind body).life]

@[simp] theorem Work.rateMark_job (key : Nat) (w : Work) : (Work.rateMark key w).life.job = w.life.job := by rfl

@[simp] theorem Work.logRec_job (code ctx source detail extra : Nat) (w : Work) : (w.logRec code ctx source detail extra).2.life.job = w.life.job := by
  rw [(Work.logs_logRec w code ctx source detail extra).life]

@[simp] theorem Work.logUnit_job (n code ctx source detail extra : Nat) (w : Work) : (w.logUnit n code ctx source detail extra).life.job = w.life.job := by
  rw [(Work.logs_logUnit n code ctx source detail extra w).life]

@[simp] theorem Work.log1_job (code : Nat) (ctx : Nat) (source : Nat) (detail : Nat) (extra : Nat) (w : Work) : (Work.log1 code ctx source detail
    extra w).life.job = w.life.job := by
  unfold Work.log1
  simp

@[simp] theorem Work.event_job (code : Nat) (ctx : Nat) (source : Nat) (detail : Nat) (w : Work) : (Work.event code ctx source detail w).life.job =
    w.life.job := by
  unfold Work.event
  simp

@[simp] theorem Work.setNet_job (f : NetState → NetState) (w : Work) : (w.setNet f).life.job = w.life.job := by rfl

@[simp] theorem Work.tagBlocks_job (n : Nat) (lo : Nat) (hi : Nat) (tag : Nat) (w : Work) : (Work.tagBlocks n lo hi tag w).life.job = w.life.job := by rfl

@[simp] theorem Work.write_job (a : Nat) (d : List Byte) (w : Work) : (Work.write a d w).life.job = w.life.job := by
  unfold Work.write
  split <;> simp

@[simp] theorem Work.engWrite_job (x : Nat) (a : Nat) (d : List Byte) (w : Work) : (Work.engWrite x a d w).life.job = w.life.job := by
  unfold Work.engWrite
  (repeat' split) <;> simp [*]

@[simp] theorem Work.setBlobs_job (c : Copy) (m : List (Nat × Nat)) (w : Work) : (Work.setBlobs c m w).life.job = w.life.job := by
  unfold Work.setBlobs
  (repeat' split) <;> simp [*]

@[simp] theorem Work.blobPut_job (c : Copy) (n : Nat) (off : Nat) (v : Nat) (len : Nat) (w : Work) : (Work.blobPut c n off v len w).life.job =
    w.life.job := by
  unfold Work.blobPut
  simp

@[simp] theorem Work.clamped_job (wr : Writer) (num : Nat) (written : Nat) (held : Nat) (off : Nat) (w : Work) : (Work.clamped wr num written
    held off w).life.job = w.life.job := by
  unfold Work.clamped
  dsimp only
  split <;> simp

@[simp] theorem Work.clampTo_job (wr : Writer) (num : Nat) (written : Nat) (held : Nat) (w : Work) : (Work.clampTo wr num written held
    w).life.job = w.life.job := by
  unfold Work.clampTo
  split <;> simp

@[simp] theorem Work.pendToActive_job (n : Nat) (w : Work) : (Work.pendToActive n w).life.job = w.life.job := by rfl

@[simp] theorem Work.blobCopy_job (src : Copy) (dst : Copy) (n : Nat) (w : Work) : (Work.blobCopy src dst n w).life.job = w.life.job := by
  unfold Work.blobCopy
  simp

@[simp] theorem Work.groupToActive_job (scalars : List Nat) (blobs : List Nat) (w : Work) : (Work.groupToActive scalars blobs w).life.job =
    w.life.job := by
  unfold Work.groupToActive
  simp

@[simp] theorem Work.slotApply_job (s : Nat) (w : Work) : (Work.slotApply s w).life.job = w.life.job := by
  unfold Work.slotApply
  dsimp only
  simp [apply_ite]

@[simp] theorem Work.activateSlot_job (s : Nat) (w : Work) : (Work.activateSlot s w).life.job = w.life.job := by
  unfold Work.activateSlot
  (repeat' split) <;> simp [*]

@[simp] theorem Work.noAction_job (wr : Writer) (num : Nat) (written : Nat) (w : Work) : (Work.noAction wr num written w).life.job = w.life.job := by
  unfold Work.noAction
  simp

@[simp] theorem Work.putP_job (n : Nat) (v : Nat) (w : Work) : (Work.putP n v w).life.job = w.life.job := by rfl

@[simp] theorem Work.stageToPend_job (n : Nat) (w : Work) : (Work.stageToPend n w).life.job = w.life.job := by rfl

@[simp] theorem Work.resumeAdmit_job (w : Work) : (Work.resumeAdmit w).life.job = w.life.job := by
  unfold Work.resumeAdmit
  split <;> simp

@[simp] theorem Work.slotQuiet_job (s : Nat) (w : Work) : (Work.slotQuiet s w).life.job = w.life.job := by
  unfold Work.slotQuiet
  dsimp only
  (repeat' split) <;> simp [*]

@[simp] theorem Work.setHashes_job (l : List HashJob) (w : Work) : (Work.setHashes l w).life.job = w.life.job := by rfl

@[simp] theorem Work.queueMsg_job (m : TxMsg) (w : Work) : (Work.queueMsg m w).life.job = w.life.job := by rfl

@[simp] theorem Work.tellSucc_job (j : LoadJob) (w : Work) : (Work.tellSucc j w).life.job = w.life.job := by
  unfold Work.tellSucc
  simp [*]

@[simp] theorem Work.hashAdd_job (kind : Nat) (ref : Nat) (w : Work) : (Work.hashAdd kind ref w).life.job = w.life.job := by rfl

@[simp] theorem Work.zeroGaps_job (j : LoadJob) (w : Work) : (w.zeroGaps j).life.job = w.life.job := by
  unfold Work.zeroGaps
  refine forUpto_job _ (fun p w => ?_) _ _
  refine foldl_job _ (fun w g => ?_) _ _
  dsimp only
  split <;> simp

@[simp] theorem Work.hashDrop_job (kind : Nat) (ref : Nat) (w : Work) : (Work.hashDrop kind ref w).life.job = w.life.job := by rfl

/-! ### How a load goes on: its identity stays, its shards only advance -/

/-- A shard of a load that goes on: attempts only grow, a shard that is VERIFIED and over stays so, and nothing but a check of its hash
makes one VERIFIED. -/
def Shard.Before (u v : Shard) : Prop :=
  u.att ≤ v.att ∧ (u.st = 2 ∧ u.waits = 4 → v.st = 2 ∧ v.waits = 4) ∧ (u.st ≠ 2 → v.st ≠ 2)

theorem Shard.Before.refl (u : Shard) : u.Before u := ⟨Nat.le_refl _, id, id⟩

theorem Shard.Before.trans {u v x : Shard} (h : u.Before v) (h' : v.Before x) : u.Before x := by
  obtain ⟨att, done, open_⟩ := h
  obtain ⟨att', done', open'⟩ := h'
  exact ⟨Nat.le_trans att att', done' ∘ done, open' ∘ open_⟩

/-- A shard that is not over yet may become any that is not VERIFIED and has as many attempts. -/
theorem Shard.Before.of_open {u v : Shard} (att : u.att ≤ v.att) (busy : u.waits ≠ 4) (open_ : v.st ≠ 2) : u.Before v :=
  ⟨att, fun h => absurd h.2 busy, fun _ => open_⟩

/-- The shard under number k. -/
def LoadJob.shardAt (j : LoadJob) (k : Nat) : Option Shard := j.shards.find? (fun s => s.i == k)

theorem LoadJob.shardAt_index {j : LoadJob} {k : Nat} {u : Shard} (h : j.shardAt k = some u) : u.i = k :=
  beq_iff_eq.mp (List.find?_some (p := fun (s : Shard) => s.i == k) h)

/-- The load is the same one, and once begun stays so. -/
def LoadJob.Same (j j' : LoadJob) : Prop :=
  j'.ctx = j.ctx ∧ j'.sel = j.sel ∧ j'.manifest = j.manifest ∧ (j.phase ≠ 0 → j'.phase ≠ 0)

theorem LoadJob.Same.refl (j : LoadJob) : j.Same j := ⟨rfl, rfl, rfl, id⟩

theorem LoadJob.Same.trans {a b c : LoadJob} (h : a.Same b) (h' : b.Same c) : a.Same c := by
  obtain ⟨ctx, sel, man, begun⟩ := h
  obtain ⟨ctx', sel', man', begun'⟩ := h'
  exact ⟨ctx'.trans ctx, sel'.trans sel, man'.trans man, begun' ∘ begun⟩

/-- The same load, whose shards only advance. -/
def LoadJob.Goes (j j' : LoadJob) : Prop :=
  j.Same j' ∧ ∀ k u, j.shardAt k = some u → ∃ v, j'.shardAt k = some v ∧ u.Before v

theorem LoadJob.Goes.of_shards {j j' : LoadJob} (same : j.Same j') (shards : j'.shards = j.shards) : j.Goes j' :=
  ⟨same, fun k u h => ⟨u, by unfold LoadJob.shardAt at h ⊢; rw [shards, h], .refl u⟩⟩

theorem LoadJob.Goes.refl (j : LoadJob) : j.Goes j := .of_shards (.refl j) rfl

theorem LoadJob.Goes.trans {a b c : LoadJob} (h : a.Goes b) (h' : b.Goes c) : a.Goes c := by
  refine ⟨h.1.trans h'.1, fun k u hu => ?_⟩
  obtain ⟨v, hv, uv⟩ := h.2 k u hu
  obtain ⟨x, hx, vx⟩ := h'.2 k v hv
  exact ⟨x, hx, uv.trans vx⟩

theorem find?_map_index {f : Shard → Shard} (h : ∀ s, (f s).i = s.i) (l : List Shard) (k : Nat) :
    (l.map f).find? (fun s => s.i == k) = (l.find? (fun s => s.i == k)).map f := by
  rw [List.find?_map]
  congr 2
  funext s
  exact congrArg (· == k) (h s)

theorem LoadJob.Goes.of_map {f : Shard → Shard} {j : LoadJob} (index : ∀ s, (f s).i = s.i)
    (later : ∀ k u, j.shardAt k = some u → u.Before (f u)) : j.Goes { j with shards := j.shards.map f } := by
  refine ⟨⟨rfl, rfl, rfl, id⟩, fun k u hu => ⟨f u, ?_, later k u hu⟩⟩
  unfold LoadJob.shardAt at hu ⊢
  rw [find?_map_index index, hu]
  rfl

/-- The load goes on, if there is one. -/
def Work.LoadGoes (w w' : Work) : Prop := ∀ j, w.life.job = some j → ∃ j', w'.life.job = some j' ∧ j.Goes j'

theorem Work.LoadGoes.of_job {w w' : Work} (h : w'.life.job = w.life.job) : w.LoadGoes w' :=
  fun j hj => ⟨j, h.trans hj, .refl j⟩

theorem Work.LoadGoes.refl (w : Work) : w.LoadGoes w := .of_job rfl

theorem Work.LoadGoes.trans {a b c : Work} (h : a.LoadGoes b) (h' : b.LoadGoes c) : a.LoadGoes c := by
  intro j hj
  obtain ⟨j1, h1, g1⟩ := h j hj
  obtain ⟨j2, h2, g2⟩ := h' j1 h1
  exact ⟨j2, h2, g1.trans g2⟩

theorem Work.LoadGoes.of_mapLoad {f : LoadJob → LoadJob} {w : Work} (h : ∀ j, w.life.job = some j → j.Goes (f j)) :
    w.LoadGoes (w.mapLoad f) :=
  fun j hj => ⟨f j, congrArg (Option.map f) hj, h j hj⟩

theorem Work.LoadGoes.iter {f : Work → Work} (h : ∀ w : Work, w.LoadGoes (f w)) (n : Nat) (w : Work) : w.LoadGoes (iter f n w) := by
  induction n generalizing w with
  | zero => exact .refl w
  | succ n ih => exact (h w).trans (ih _)

theorem Work.LoadGoes.forUpto {f : Nat → Work → Work} (h : ∀ (i : Nat) (w : Work), w.LoadGoes (f i w)) (n : Nat) (w : Work) : w.LoadGoes (forUpto f n w) := by
  induction n with
  | zero => exact .refl w
  | succ n ih => exact ih.trans (h n _)

/-! ### Shards by their number -/

theorem Dev.shard?_eq {w : Dev} {j : LoadJob} (h : w.life.job = some j) (k : Nat) : w.shard? k = j.shardAt k := by
  unfold Dev.shard?
  rw [h]
  rfl

theorem Dev.shard?_congr {w w' : Dev} (h : w'.life.job = w.life.job) (k : Nat) : w'.shard? k = w.shard? k := by
  unfold Dev.shard?
  rw [h]

theorem Dev.shard?_index {w : Dev} {k : Nat} {u : Shard} (h : w.shard? k = some u) : u.i = k := by
  unfold Dev.shard? at h
  split at h
  · exact LoadJob.shardAt_index h
  · exact nomatch h

/-- A load that goes on keeps every shard, further on. -/
theorem Work.LoadGoes.shard {w w' : Work} (h : w.LoadGoes w') {k : Nat} {u : Shard} (found : w.shard? k = some u) :
    ∃ v, w'.shard? k = some v ∧ u.Before v := by
  cases e : w.life.job with
  | none =>
    unfold Dev.shard? at found
    rw [e] at found
    exact nomatch found
  | some j =>
    obtain ⟨j', e', goes⟩ := h j e
    obtain ⟨v, hv, before⟩ := goes.2 k u ((Dev.shard?_eq e k).symm.trans found)
    exact ⟨v, (Dev.shard?_eq e' k).trans hv, before⟩

theorem Work.putShard_shards (s : Shard) (w : Work) :
    (w.putShard s).life.job = w.life.job.map (fun j => { j with shards := j.shards.map (fun t => if t.i = s.i then s else t) }) := by
  unfold Work.putShard
  rw [Work.blobPut_job]
  rfl

/-- A shard that is put is the one found under its number, if one was there. -/
theorem Work.putShard_shard? {s u : Shard} {k : Nat} {w : Work} (named : s.i = k) (found : w.shard? k = some u) :
    (w.putShard s).shard? k = some s := by
  have index := (Dev.shard?_index found).trans named.symm
  unfold Dev.shard? at found ⊢
  rw [Work.putShard_shards]
  cases e : w.life.job with
  | none =>
    rw [e] at found
    exact nomatch found
  | some j =>
    rw [e] at found
    refine (find?_map_index (fun t => ?_) _ _).trans ?_
    · split
      · exact Eq.symm ‹_›
      · rfl
    · refine (congrArg (Option.map _) found).trans (congrArg some (if_pos index))

theorem Work.putShard_goes {s u : Shard} {w : Work} (found : w.shard? s.i = some u) (later : u.Before s) : w.LoadGoes (w.putShard s) := by
  intro j hj
  refine ⟨_, (Work.putShard_shards s w).trans (congrArg (Option.map _) hj), .of_map (fun t => ?_) (fun k v hv => ?_)⟩
  · split
    · exact Eq.symm ‹_›
    · rfl
  · split
    · next same =>
      have index : v.i = k := LoadJob.shardAt_index hv
      rw [← index, same, ← Dev.shard?_eq hj, found] at hv
      rw [← Option.some.inj hv]
      exact later
    · exact .refl v

/-! ### Every step of a load lets it go on -/

theorem Work.loadOver_goes (st : Nat) (w : Work) : w.LoadGoes (w.loadOver st) := by
  have stops : ∀ v : Work, v.LoadGoes (v.mapLoad (fun j => { j with phase := 3 })) := fun v =>
    .of_mapLoad (fun j _ => .of_shards ⟨rfl, rfl, rfl, fun _ => by simp⟩ rfl)
  unfold Work.loadOver
  dsimp only
  refine (Work.LoadGoes.of_job (w' := (w.put Obj.loadState st).put Obj.loadCommit 0) rfl).trans ((stops _).trans (.of_job ?_))
  split <;> simp

theorem Work.loadFail_goes (det : Nat) (w : Work) : w.LoadGoes (w.loadFail det) := by
  unfold Work.loadFail
  split
  · exact .refl w
  · next j _ =>
    split
    · exact .refl w
    · have stop : w.LoadGoes (w.mapLoad (fun j => { j with shards := j.shards.map (fun s => if s.st = 2 ∨ s.st = 5 then s else { s with waits := 4 }) })) := by
        refine .of_mapLoad (fun j _ => .of_map (fun s => ?_) (fun k u _ => ?_))
        · split <;> rfl
        · split
          · exact .refl u
          · next h => exact ⟨Nat.le_refl _, fun h' => absurd (.inl h'.1) h, id⟩
      refine stop.trans (.trans (.of_job ?_) (Work.loadOver_goes 4 _))
      split <;> simp

theorem Work.nextAttempt_goes {i st : Nat} {s : Shard} {w : Work} (found : w.shard? i = some s) (busy : s.waits ≠ 4) (open_ : st ≠ 2) :
    w.LoadGoes (w.nextAttempt i st) := by
  have index := Dev.shard?_index found
  unfold Work.nextAttempt
  rw [found]
  split
  · next j s' _ same =>
    obtain rfl := Option.some.inj same
    split
    · refine (Work.putShard_goes (u := s) ?_ ?_).trans (Work.loadFail_goes _ _)
      · exact index ▸ found
      · exact .of_open (Nat.le_refl _) busy (show (5 : Nat) ≠ 2 by decide)
    · have told : ∀ v : Work, ((v.bump Obj.refetchCount 1).event 0x0802 j.ctx 0xC000 (s.att * 65536 + i)).life.job = v.life.job := by
        intro v
        simp
      refine (Work.LoadGoes.of_job (told w)).trans (Work.putShard_goes (u := s) ?_ (.of_open (Nat.le_succ _) busy open_))
      exact (Dev.shard?_congr (told w) _).trans (index ▸ found)
  · exact .refl w

theorem Work.hashReady_goes {i : Nat} {s : Shard} {w : Work} (found : w.shard? i = some s) (busy : s.waits ≠ 4) : w.LoadGoes (w.hashReady i) := by
  have index := Dev.shard?_index found
  unfold Work.hashReady
  rw [found]
  refine (Work.putShard_goes (u := s) (s := { s with waits := 3 }) (index ▸ found) ?_).trans (.of_job (Work.hashAdd_job _ _ _))
  exact ⟨Nat.le_refl _, fun h => absurd h.2 busy, id⟩

theorem Work.issueShard_goes (i : Nat) (w : Work) : w.LoadGoes (w.issueShard i) := by
  unfold Work.issueShard
  split
  · next j s _ found =>
    have index := Dev.shard?_index found
    split
    · exact .refl w
    · next h =>
      have busy : s.waits ≠ 4 := fun e => h (.inr (by rw [e]; decide))
      have begins : ∀ (p f : Bool) (t : Option Nat) (m x e : Nat), w.LoadGoes (w.putShard ⟨s.i, s.entry, 1, s.att, p, t, m, f, x, e⟩) :=
        fun p f t m x e => Work.putShard_goes (u := s) (by rw [index, found]) (.of_open (Nat.le_refl _) busy (show (1 : Nat) ≠ 2 by decide))
      have puts : ∀ (p f : Bool) (t : Option Nat) (m x e : Nat),
          (w.putShard ⟨s.i, s.entry, 1, s.att, p, t, m, f, x, e⟩).shard? i = some ⟨s.i, s.entry, 1, s.att, p, t, m, f, x, e⟩ :=
        fun p f t m x e => Work.putShard_shard? index found
      dsimp only
      split
      · split
        · generalize (i == 0 || _ : Bool) = free
          split
          · exact begins _ _ _ _ _ _
          · exact .refl w
        · refine (begins _ _ _ _ _ _).trans (.of_job (Work.queueMsg_job _ _))
      · split
        · exact Work.nextAttempt_goes found busy (by decide)
        · split
          · exact (begins _ _ _ _ _ _).trans (Work.hashReady_goes (puts _ _ _ _ _ _) busy)
          · split
            · exact begins _ _ _ _ _ _
            · split
              · exact .refl w
              · exact begins _ _ _ _ _ _
  · exact .refl w

theorem Work.forward_goes (n : Nat) (w : Work) : w.LoadGoes (w.forward n) := by
  induction n generalizing w with
  | zero => exact .refl w
  | succ n ih =>
    unfold Work.forward
    split
    · exact .refl w
    · split
      · exact .refl w
      · split
        · split
          · exact .refl w
          · split
            · refine (Work.LoadGoes.of_job (Work.queueMsg_job _ _)).trans (.trans (.of_mapLoad fun j _ => ?_) (ih _))
              exact .of_shards ⟨rfl, rfl, rfl, id⟩ rfl
            · exact .refl w
        · exact .refl w

theorem Work.loadDone_goes (j : LoadJob) (w : Work) : w.LoadGoes (w.loadDone j) := by
  unfold Work.loadDone
  dsimp only
  split
  · refine .trans (.of_job ?_) (Work.loadOver_goes 3 _)
    split <;> simp
  · exact .trans (.of_job (by simp)) (Work.loadOver_goes 3 _)

/-- What a step issues and forwards, before it looks whether the load is done. -/
def Work.loadIssue (n : Nat) (w : Work) : Work :=
  (iter (fun (w : Work) => forUpto (fun i w => w.issueShard i) n w) 4 w).forward n

theorem Work.loadIssue_goes (n : Nat) (w : Work) : w.LoadGoes (w.loadIssue n) :=
  (Work.LoadGoes.iter (fun w => .forUpto Work.issueShard_goes n w) 4 w).trans (Work.forward_goes n _)

theorem Work.loadIssue_out (n : Nat) (w : Work) : (w.loadIssue n).out = w.out := by
  have issued : ∀ w : Work, (forUpto (fun i w => w.issueShard i) n w).out = w.out :=
    fun w => forUpto_out _ (fun i w => Work.issueShard_out i w) n w
  have all : ∀ m (w : Work), (iter (fun (w : Work) => forUpto (fun i w => w.issueShard i) n w) m w).out = w.out := by
    intro m
    induction m with
    | zero => exact fun w => rfl
    | succ m ih => exact fun w => (ih _).trans (issued w)
  exact (Work.forward_out _ _).trans (all 4 w)

/-- The load ends when every shard is VERIFIED. -/
def Work.loadCheck (w : Work) : Work :=
  match w.life.job with
  | some j => if j.phase = 2 ∧ j.shards.all (fun s => s.st == 2) = true then w.loadDone j else w
  | none => w

theorem Work.loadCheck_goes (w : Work) : w.LoadGoes w.loadCheck := by
  unfold Work.loadCheck
  split
  · split
    · exact Work.loadDone_goes _ _
    · exact .refl _
  · exact .refl _

theorem Work.loadCheck_open {k : Nat} {u : Shard} {w : Work} (found : w.shard? k = some u) (open_ : u.st ≠ 2) : w.loadCheck = w := by
  unfold Work.loadCheck
  split
  · next j e =>
    refine if_neg fun h => open_ ?_
    have mem : u ∈ j.shards := List.mem_of_find?_eq_some ((Dev.shard?_eq e k).symm.trans found)
    exact beq_iff_eq.mp (List.all_eq_true.mp h.2 u mem)
  · rfl

theorem Work.loadStep_eq (w : Work) : w.loadStep = w ∨ ∃ n, w.loadStep = (w.loadIssue n).loadCheck := by
  unfold Work.loadStep
  split
  · exact .inl rfl
  · next j _ =>
    split
    · exact .inl rfl
    · exact .inr ⟨j.shards.length, rfl⟩

theorem Work.loadStep_goes (w : Work) : w.LoadGoes w.loadStep := by
  rcases w.loadStep_eq with e | ⟨n, e⟩
  · rw [e]
    exact .refl w
  · rw [e]
    exact (Work.loadIssue_goes n w).trans (Work.loadCheck_goes _)

/-- While a shard is not VERIFIED the load writes nothing. -/
theorem Work.loadStep_out {k : Nat} {u : Shard} {w : Work} (found : w.shard? k = some u) (open_ : u.st ≠ 2) : w.loadStep.out = w.out := by
  rcases w.loadStep_eq with e | ⟨n, e⟩
  · rw [e]
  · obtain ⟨v, found', _, _, open'⟩ := (Work.loadIssue_goes n w).shard found
    rw [e, Work.loadCheck_open found' (open' open_), Work.loadIssue_out]

theorem Work.nextAttempt_att {i st : Nat} {j : LoadJob} {s : Shard} {w : Work} (job : w.life.job = some j) (found : w.shard? i = some s)
    (more : s.att < 3) : ∃ u, (w.nextAttempt i st).shard? i = some u ∧ s.att < u.att ∧ u.st = st := by
  have index := Dev.shard?_index found
  have told : ∀ v : Work, ((v.bump Obj.refetchCount 1).event 0x0802 j.ctx 0xC000 (s.att * 65536 + i)).life.job = v.life.job := by
    intro v
    simp
  have next_ : (w.nextAttempt i st).shard? i =
      some { s with st := st, att := s.att + 1, pred := j.fromPred (s.att + 1), start := none, waits := 0, srcHash := false } := by
    unfold Work.nextAttempt
    rw [job, found]
    refine (congrArg (fun v : Work => v.shard? i) (if_neg (Nat.ne_of_lt more))).trans ?_
    exact Work.putShard_shard? index ((Dev.shard?_congr (told w) i).trans found)
  exact ⟨_, next_, Nat.lt_succ_self _, rfl⟩

/-- A shard that misses an attempt starts its next one: nothing is written, and nothing of it is VERIFIED. -/
theorem Work.shardMissing_next {i : Nat} {j : LoadJob} {s : Shard} {w : Work} (job : w.life.job = some j) (found : w.shard? i = some s)
    (more : s.att < 3) (busy : s.waits ≠ 4) (open_ : s.st ≠ 2) :
    (w.shardMissing i).out = w.out ∧ ∃ u, (w.shardMissing i).shard? i = some u ∧ s.att < u.att := by
  obtain ⟨u, put, att, st⟩ := Work.nextAttempt_att (w := w.hashDrop 0 i) (st := 4) job found more
  have open' : u.st ≠ 2 := by
    rw [st]
    decide
  have e : w.shardMissing i = ((w.hashDrop 0 i).nextAttempt i 4).loadStep := by
    unfold Work.shardMissing
    rw [found]
    exact if_neg (not_or.mpr ⟨busy, open_⟩)
  obtain ⟨v, hv, later, _, _⟩ := (Work.loadStep_goes _).shard put
  rw [e]
  exact ⟨(Work.loadStep_out put open').trans (Work.nextAttempt_out _ _ _), v, hv, by omega⟩

/-- Bytes that land in the destination are written there, and nothing else is. -/
theorem Work.landShard_out {i a : Nat} {d : List Byte} {j : LoadJob} {s : Shard} {w : Work} (job : w.life.job = some j)
    (found : w.shard? i = some s) (dest : w.shardDest j s.entry = .ok a) (busy : s.waits ≠ 4) :
    (w.landShard i d).out = (w.write a d).out := by
  have index := Dev.shard?_index found
  have e : w.landShard i d = ((((w.engWrite j.ctx a d).bump Obj.loadBytes d.length).putShard { s with st := 1 }).hashReady i).loadStep := by
    unfold Work.landShard
    rw [job, found]
    dsimp only
    rw [dest]
  have kept : ((w.engWrite j.ctx a d).bump Obj.loadBytes d.length).life.job = w.life.job := Work.engWrite_job _ _ _ _
  have put : (((w.engWrite j.ctx a d).bump Obj.loadBytes d.length).putShard { s with st := 1 }).shard? i = some { s with st := 1 } :=
    Work.putShard_shard? index ((Dev.shard?_congr kept i).trans found)
  obtain ⟨u, ready, _, _, open_⟩ := (Work.hashReady_goes put busy).shard put
  rw [e, Work.loadStep_out ready (open_ (show (1 : Nat) ≠ 2 by decide)), Work.hashReady_out]
  exact (Work.putShard_out _ _).trans (Work.engWrite_out _ _ _ _)

/-! ### Where a shard lies does not turn on the load's own state -/

theorem Dev.segTable_congr {w w' : Dev} {c : Copy} (h : w'.blobs c = w.blobs c) (x : Nat) : w'.segTable c x = w.segTable c x := by
  unfold Dev.segTable
  simp only [Dev.blobNat_congr h, h]

/-- A device that differs in its loads, its sessions and what it sends. -/
def Dev.elsewhere (l : LifeState) (n : NetState) (m : List OutMsg) (w : Dev) : Dev := { w with life := l, net := n, sent := m }

theorem Dev.shardDest_elsewhere (l : LifeState) (n : NetState) (m : List OutMsg) (w : Dev) (j : LoadJob) (e : Nat) :
    (w.elsewhere l n m).shardDest j e = w.shardDest j e := by
  have table : ∀ c x, (w.elsewhere l n m).segTable c x = w.segTable c x := fun c x =>
    Dev.segTable_congr (by cases c <;> rfl) x
  have now : ∀ x, (w.elsewhere l n m).segNow x = w.segNow x := fun x => table _ x
  have binds : ∀ x segs, (w.elsewhere l n m).bindSegs x none none segs = w.bindSegs x none none segs := fun _ _ => rfl
  have xlates : ∀ x segs a len k, (w.elsewhere l n m).xlate x segs a len k = w.xlate x segs a len k := fun _ _ _ _ _ => rfl
  have reads : ∀ i, (w.elsewhere l n m).get i = w.get i := fun _ => rfl
  unfold Dev.shardDest Dev.loadXlate
  rw [now, binds, xlates, reads]

/-! ### A load that starts (R398, R410) -/

theorem Work.loadInvalid_begun (reason entry : Nat) {j : LoadJob} {w : Work} (job : w.life.job = some j) :
    ∃ j', (w.loadInvalid reason entry).life.job = some j' ∧ j.Same j' ∧ j'.phase ≠ 0 := by
  have told : ∀ v : Work, v.life.job = some j → ∃ j', (v.loadOver 5).life.job = some j' ∧ j.Same j' ∧ j'.phase ≠ 0 := by
    intro v hv
    have stops : (v.loadOver 5).life.job = some { j with phase := 3 } := by
      unfold Work.loadOver
      dsimp only
      have e : ∀ (c : Prop) [Decidable c] (u : Work), (if c then u.resumeAdmit else u).life.job = u.life.job := by
        intro c _ u
        split <;> simp
      have cut : ∀ u : Work, (u.mapLoad (fun j => { j with phase := 3 })).life.job = u.life.job.map (fun j => { j with phase := 3 }) := fun _ => rfl
      rw [e, Work.setHashes_job, cut, Work.put_job, Work.put_job, hv]
      rfl
    exact ⟨_, stops, ⟨rfl, rfl, rfl, fun _ => by simp⟩, by simp⟩
  unfold Work.loadInvalid
  rw [job]
  dsimp only
  refine told _ ?_
  rw [Work.event_job, Work.put_job, job]

theorem Work.loadRun_goes (w : Work) : w.LoadGoes w.loadRun := by
  unfold Work.loadRun
  split
  · exact .refl w
  · have begins : ∀ v : Work, v.LoadGoes (v.mapLoad (fun j => { j with phase := 2 })) := fun v =>
      .of_mapLoad (fun j _ => .of_shards ⟨rfl, rfl, rfl, fun _ => by simp⟩ rfl)
    dsimp only
    refine .trans (.of_job ?_) ((begins _).trans (Work.loadStep_goes _))
    split <;> simp

/-- What a load that a slot may take does, once its manifest is read: its shards are noted, and it runs or waits for a quiet slot. -/
def Work.loadTake (q : LoadJob) (w : Work) : Work :=
  let w := (w.mapLoad (fun _ => q)).put Obj.loadState 2
  let w := q.shards.foldl (fun w s => w.blobPut .active Obj.shardStatus (2 * s.i) (b2n s.pred * 32) 2) w
  if !q.inPlace then w.loadRun else
  let w := (w.put Obj.admitPause 1).event 0x0806 31 0 1
  match w.currentSlot with
  | some c => if w.get (Obj.bindCount c) = 0 then (w.slotQuiet c).loadRun else w
  | none => w.loadRun

theorem Work.loadTake_begun {j q : LoadJob} {w : Work} (job : w.life.job = some j) (begun : q.phase ≠ 0) :
    ∃ j', (w.loadTake q).life.job = some j' ∧ q.Same j' ∧ j'.phase ≠ 0 := by
  have noted : (q.shards.foldl (fun (w : Work) s => w.blobPut .active Obj.shardStatus (2 * s.i) (b2n s.pred * 32) 2)
      ((w.mapLoad (fun _ => q)).put Obj.loadState 2)).life.job = some q := by
    rw [foldl_job _ (fun v s => Work.blobPut_job _ _ _ _ _ v)]
    exact congrArg (Option.map _) job
  have runs : ∀ u : Work, u.life.job = some q → ∃ j', u.loadRun.life.job = some j' ∧ q.Same j' ∧ j'.phase ≠ 0 := by
    intro u hu
    obtain ⟨j', e, same, _⟩ := Work.loadRun_goes u q hu
    exact ⟨j', e, same, same.2.2.2 begun⟩
  unfold Work.loadTake
  dsimp only
  generalize q.shards.foldl _ _ = v at noted ⊢
  have told : ((v.put Obj.admitPause 1).event 0x0806 31 0 1).life.job = some q := by
    rw [Work.event_job, Work.put_job, noted]
  generalize (v.put Obj.admitPause 1).event 0x0806 31 0 1 = u at told ⊢
  split
  · exact runs v noted
  · split
    · split
      · exact runs _ ((Work.slotQuiet_job _ _).trans told)
      · exact ⟨q, told, .refl q, begun⟩
    · exact runs u told

/-- A load that a slot may take begins; one that none may stays the same load. -/
theorem Work.loadTry_same {j : LoadJob} {w : Work} (job : w.life.job = some j) :
    ∃ j', w.loadTry.life.job = some j' ∧ j.Same j' ∧
      (w.pickTarget j.sel ≠ none → (∀ n, n < 3 → w.get (Obj.slotState n) ≠ 4) → j'.phase ≠ 0) := by
  have runs : ∀ v v' : Work, v'.life.job = v.life.job → ∀ q, v.life.job = some q → ∃ j', v'.loadRun.life.job = some j' ∧ q.Same j' := by
    intro v v' same q hq
    obtain ⟨j', e, goes, _⟩ := Work.loadRun_goes v' q (same.trans hq)
    exact ⟨j', e, goes⟩
  have takes : ∀ q : LoadJob, (w.mapLoad (fun _ => q)).life.job = some q := fun q => congrArg (Option.map _) job
  unfold Work.loadTry
  rw [job]
  dsimp only
  split
  · next waits =>
    cases pick : w.pickTarget j.sel with
    | none => exact ⟨j, job, .refl j, fun h => absurd rfl h⟩
    | some k =>
      dsimp only
      split
      · next drain =>
        refine ⟨j, job, .refl j, fun _ none_ => ?_⟩
        obtain ⟨n, hn, drains⟩ := List.any_eq_true.mp drain
        have st := beq_iff_eq.mp (Bool.and_eq_true_iff.mp drains).1
        exact absurd st (none_ n (List.mem_range.mp hn))
      · split
        · obtain ⟨j', e, same, begun⟩ := Work.loadInvalid_begun _ _ (takes { j with target := k })
          exact ⟨j', e, .trans ⟨rfl, rfl, rfl, id⟩ same, fun _ _ => begun⟩
        · next h es _ =>
          obtain ⟨j', e, same, begun⟩ := Work.loadTake_begun (q := { j with
            target := k, hdr := h, shards := es.zipIdx.map (fun p => Shard.mk p.2 p.1 0 0 (({ j with target := k } : LoadJob).fromPred 0) none 0
              (meSrcDigest p.1 && !({ j with target := k } : LoadJob).fromPred 0) 0 0), inPlace := _, phase := 1 }) job Nat.one_ne_zero
          refine ⟨j', e, LoadJob.Same.trans ?_ same, fun _ _ => begun⟩
          exact ⟨rfl, rfl, rfl, fun h => absurd waits h⟩
  · next begun =>
    split
    · obtain ⟨j', e, same⟩ := runs w w rfl j job
      exact ⟨j', e, same, fun _ _ => same.2.2.2 begun⟩
    · exact ⟨j, job, .refl j, fun _ _ => begun⟩

/-! ### Messages of the loader (R402) -/

theorem Work.takeLoader_found {id kind : Nat} {m : InMsg} {w : Work} (found : w.net.inbox.find? (fun m => m.id == id) = some m)
    (loader : m.key / 2 ^ 48 = 0xFFF0) (kinds : bits m.key 46 2 = kind) :
    w.takeLoader id kind = some (m, w.setNet (fun t => { t with inbox := t.inbox.filter (fun q => q.id != id) })) := by
  unfold Work.takeLoader
  rw [found]
  exact if_pos ⟨loader, kinds⟩

theorem Work.setNet_elsewhere (f : NetState → NetState) (w : Work) (j : LoadJob) (e : Nat) : (w.setNet f).shardDest j e = w.shardDest j e :=
  Dev.shardDest_elsewhere w.life (f w.net) w.sent w.toDev j e

theorem Work.hashDrop_elsewhere (k n : Nat) (w : Work) (j : LoadJob) (e : Nat) : (w.hashDrop k n).shardDest j e = w.shardDest j e :=
  Dev.shardDest_elsewhere (w.hashDrop k n).life w.net w.sent w.toDev j e

theorem State.work_shardDest (s : State) (j : LoadJob) (e : Nat) : s.work.shardDest j e = s.shardDest j e :=
  Dev.shardDest_elsewhere s.life s.net [] s.toDev j e

section
variable {id k : Nat} {m : InMsg} {j : LoadJob} {s : Shard} {w : Work}

/-- A shard from the predecessor lands. -/
theorem opLoaderShardRx_out {a : Nat} (found : w.net.inbox.find? (fun m => m.id == id) = some m) (loader : m.key / 2 ^ 48 = 0xFFF0)
    (kinds : bits m.key 46 2 = 0) (names : bits m.key 0 16 = k) (job : w.life.job = some j) (shard : w.shard? k = some s)
    (run : j.phase = 2) (sender : m.n = j.pred) (epoch : j.epochOf m.key = true) (pred : s.pred = true) (waits : s.waits ≤ 1)
    (len : m.data.length = meLen s.entry) (dest : w.shardDest j s.entry = .ok a) : (opLoaderShardRx id w).out = (w.write a m.data).out := by
  have e : opLoaderShardRx id w = (w.setNet (fun t => { t with inbox := t.inbox.filter (fun q => q.id != id) })).landShard k m.data := by
    unfold opLoaderShardRx
    rw [Work.takeLoader_found found loader kinds]
    dsimp only
    rw [names, Work.setNet_job, job, show (w.setNet _).shard? k = some s from shard]
    exact if_pos ⟨run, sender, epoch, pred, waits, len⟩
  have dest' := (Work.setNet_elsewhere (fun t => { t with inbox := t.inbox.filter (fun q => q.id != id) }) w j s.entry).trans dest
  rw [e, Work.landShard_out (w := w.setNet _) (s := s) job shard dest' (by omega)]
  exact Work.write_out_congr (w' := w.setNet _) (w := w) rfl a m.data

/-- A shard that the predecessor cannot give misses its attempt. -/
theorem opLoaderUnavailRx_missing (found : w.net.inbox.find? (fun m => m.id == id) = some m) (loader : m.key / 2 ^ 48 = 0xFFF0)
    (kinds : bits m.key 46 2 = 2) (names : bits m.key 0 16 = k) (job : w.life.job = some j) (shard : w.shard? k = some s)
    (run : j.phase = 2) (sender : m.n = j.pred) (epoch : j.epochOf m.key = true) (pred : s.pred = true) (waits : s.waits ≤ 1) :
    opLoaderUnavailRx id w = (w.setNet (fun t => { t with inbox := t.inbox.filter (fun q => q.id != id) })).shardMissing k := by
  unfold opLoaderUnavailRx
  rw [Work.takeLoader_found found loader kinds]
  dsimp only
  rw [names, Work.setNet_job, job, show (w.setNet _).shard? k = some s from shard]
  exact if_pos ⟨run, sender, epoch, pred, waits⟩

/-- A REFETCH is answered by one message. -/
theorem opLoaderRefetchRx_answers (found : w.net.inbox.find? (fun m => m.id == id) = some m) (loader : m.key / 2 ^ 48 = 0xFFF0)
    (kinds : bits m.key 46 2 = 1) : ∃ q : TxMsg, q.n = m.n ∧ q.user = 2 ∧
      opLoaderRefetchRx id w = (w.setNet (fun t => { t with inbox := t.inbox.filter (fun q => q.id != id) })).queueMsg q := by
  unfold opLoaderRefetchRx
  rw [Work.takeLoader_found found loader kinds]
  dsimp only
  generalize w.setNet _ = v
  have no : ∃ q : TxMsg, q.n = m.n ∧ q.user = 2 ∧ v.queueMsg (msgOf m.n (m.key - 2 ^ 46 + 2 * 2 ^ 46) 2 (bits m.key 0 16) 2
    (List.replicate 8 0#8)) = v.queueMsg q := ⟨_, rfl, rfl, rfl⟩
  split
  · split
    · split
      · exact ⟨_, rfl, rfl, rfl⟩
      · exact no
    · exact no
  · exact no

end

/-! ### A shard's hash (R400) -/

section
variable {k a : Nat} {j : LoadJob} {h : Shard} {w : Work} (job : w.life.job = some j) (shard : w.shard? k = some h) (run : j.phase = 2)
  (more : h.att < 3) (dest : w.shardDest j h.entry = .ok a) (waits : h.waits = 3) (hashing : w.hashing 0 k = true) (own : h.srcHash = false)
include job shard run dest waits hashing own

theorem opShardHashDone_checks : opShardHashDone k w =
    if digestLe (w.read a (meLen h.entry)) = meDigest h.entry then ((w.hashDrop 0 k).putShard { h with st := 2, waits := 4 }).loadStep
    else ((w.hashDrop 0 k).nextAttempt k 3).loadStep := by
  unfold opShardHashDone
  rw [job, shard]
  dsimp only
  rw [if_neg, own, if_neg Bool.false_ne_true, Work.hashDrop_elsewhere, dest]
  · rfl
  · rintro (h1 | h1 | h1)
    · exact h1 run
    · exact h1 waits
    · exact Bool.false_ne_true (h1.symm.trans hashing)

theorem opShardHashDone_verified (fits : digestLe (w.read a (meLen h.entry)) = meDigest h.entry) :
    ∃ u, (opShardHashDone k w).shard? k = some u ∧ u.st = 2 := by
  have put : ((w.hashDrop 0 k).putShard { h with st := 2, waits := 4 }).shard? k = some { h with st := 2, waits := 4 } :=
    Work.putShard_shard? (s := { h with st := 2, waits := 4 }) (w := w.hashDrop 0 k) (Dev.shard?_index shard :) shard
  obtain ⟨u, hu, _, done, _⟩ := (Work.loadStep_goes _).shard put
  rw [opShardHashDone_checks job shard run dest waits hashing own, if_pos fits]
  exact ⟨u, hu, (done ⟨rfl, rfl⟩).1⟩

include more in
theorem opShardHashDone_again (differs : digestLe (w.read a (meLen h.entry)) ≠ meDigest h.entry) :
    ∃ u, (opShardHashDone k w).shard? k = some u ∧ h.att < u.att := by
  obtain ⟨u, put, att, _⟩ := Work.nextAttempt_att (w := w.hashDrop 0 k) (st := 3) job shard more
  obtain ⟨v, hv, later, _, _⟩ := (Work.loadStep_goes _).shard put
  rw [opShardHashDone_checks job shard run dest waits hashing own, if_neg differs]
  exact ⟨v, hv, by omega⟩

end

theorem opShardAttemptTimeout_missing {k t0 : Nat} {j : LoadJob} {h : Shard} {w : Work} (job : w.life.job = some j)
    (shard : w.shard? k = some h) (run : j.phase = 2) (start : h.start = some t0) (waits : h.waits ≤ 1) (past : h.tmo ≤ w.since t0) :
    opShardAttemptTimeout k w = w.shardMissing k := by
  have landing : (h.waits == 0 || h.waits == 1 || h.srcHash) = true := by
    have two : h.waits = 0 ∨ h.waits = 1 := by omega
    rcases two with e | e <;> simp [e]
  unfold opShardAttemptTimeout
  rw [job, shard]
  dsimp only
  rw [start]
  exact if_pos ⟨run, landing, past⟩

/-! ### LOAD_COMMIT (R398) -/

/-- A commit that is taken runs the load that its staged group names. -/
theorem opLoadCommit_loads {wr : Writer} {w : Work} (serves : w.serves wr Obj.loadCommit = true) (reaches : w.reaches wr .priv = true)
    (idle : w.get Obj.loadCommit ≠ 1) : ∃ j, (opLoadCommit wr w).life.job = some j ∧ j.ctx = w.getS Obj.loadCtx ∧
      j.sel = w.getS Obj.loadSlot ∧ j.manifest = w.getS Obj.loadManifest := by
  have held : ∀ n, n ∈ loadGroup → n ≠ Obj.loadCommit →
      (((w.groupToPend loadGroup []).groupToActive loadGroup []).put Obj.loadCommit 1).get n = w.getS n := by
    intro n mem other
    rw [Work.put_get_other _ _ other, Work.groupToActive_get, if_pos mem, Work.groupToPend_getP, if_pos mem]
  have ctx := held Obj.loadCtx (by decide) (by decide)
  have slot := held Obj.loadSlot (by decide) (by decide)
  have man := held Obj.loadManifest (by decide) (by decide)
  unfold opLoadCommit
  rw [Work.gated_takes _ _ _ _ _ serves reaches]
  dsimp only
  rw [if_neg idle]
  generalize ((w.groupToPend loadGroup []).groupToActive loadGroup []).put Obj.loadCommit 1 = v at ctx slot man ⊢
  rw [ctx, slot, man]
  obtain ⟨j, e, ⟨hctx, hsel, hman, _⟩, _⟩ := Work.loadTry_same
    (j := ⟨w.getS Obj.loadCtx, w.getS Obj.loadSlot, 4, v.get Obj.loadMode == 1, v.get Obj.loadPred, v.get Obj.loadSucc,
      w.getS Obj.loadManifest, (upto 4).map (fun p => v.get (Obj.copyAddrP p)), 0, false, 0, [], 0⟩)
    (w := ({ v with life := { v.life with job := some _ } } : Work).put Obj.loadState 1) rfl
  exact ⟨j, e, hctx, hsel, hman⟩

theorem State.after_shard? (s : State) (f : Work → Work) (k : Nat) : (s.after f).shard? k = (f s.work).shard? k :=
  Dev.shard?_congr (congrArg LifeState.job (s.after_life f)) k

/-- Settles O38: a load stays the load that was committed and its shards only advance, so a landed shard's write is the only one. -/
theorem loadsRun : Obligations.LoadsRun := by
  unfold Obligations.LoadsRun
  refine ⟨fun wr s takes => ⟨fun idle sound => ?_, fun busy => ?_⟩, fun j s job waits => ⟨fun none_ => ?_, fun k pick quiet sound => ?_⟩,
    fun k a j h s job shard run dest fits => ⟨fun waits pred => ?_, fun id m found loader kinds names sender epoch pred waits len => ?_⟩,
    fun k a j h s job shard run more => ⟨fun dest waits hashing own sound => ?_, fun t0 start waits open_ past => ?_,
      fun id m found loader kinds names sender epoch pred waits open_ => ?_⟩,
    fun id m s found loader kinds => ?_⟩
  · obtain ⟨j, e, ctx, sel, man⟩ := opLoadCommit_loads (w := s.work) takes.1 takes.2 idle
    refine ⟨_, exec_sound (i := .loadCommit wr) sound, ?_⟩
    rw [State.after_life, show (Machine.work (.loadCommit wr) s.work).life.job = some j from e]
    simp only [Option.any_some, ctx, sel, man, Bool.and_eq_true, beq_iff_eq]
    exact ⟨⟨rfl, rfl⟩, rfl⟩
  · have e : opLoadCommit wr s.work = s.work.noAction wr Obj.loadCommit 1 := by
      refine (Work.gated_takes _ _ _ _ _ takes.1 takes.2).trans (if_pos busy)
    refine ⟨_, exec_leave (i := .loadCommit wr) e (Work.noAction_out _ _ _ _), s.sameMem_leave _, fun n hn => ?_, ?_, ?_⟩
    · exact Work.noAction_get _ _ _ _ hn
    · exact Work.noAction_job _ _ _ _
    · exact Work.clamped_get_count wr Obj.loadCommit 1 _ 0 s.work
  · have e : opLoadStart s.work = s.work := by
      unfold opLoadStart Work.loadTry
      rw [show s.work.life.job = some j from job]
      dsimp only
      rw [if_pos waits, show s.work.pickTarget j.sel = none from none_]
    exact ⟨_, exec_leave (i := .loadStart) e rfl, s.sameMem_leave _, fun _ _ => rfl, rfl⟩
  · obtain ⟨j', e, _, begun⟩ := Work.loadTry_same (w := s.work) job
    refine ⟨_, exec_sound (i := .loadStart) sound, ?_⟩
    rw [State.after_life, show (Machine.work .loadStart s.work).life.job = some j' from e]
    exact bne_iff_ne.mpr (begun (fun h => nomatch h.symm.trans pick) quiet)
  · have e : opShardLanded k s.work = s.work.landShard k (s.work.read h.eng (meLen h.entry)) := by
      unfold opShardLanded
      rw [show s.work.life.job = some j from job, show s.work.shard? k = some h from shard]
      exact if_pos ⟨run, waits, pred⟩
    have out := (congrArg Work.out e).trans (Work.landShard_out (w := s.work) (d := s.work.read h.eng (meLen h.entry)) job shard
      ((s.work_shardDest j h.entry).trans dest) (by omega))
    obtain ⟨next_, at_, off⟩ := exec_write (i := .shardLanded k) out (by rw [Work.read_length]; exact fits)
    rw [Work.read_length] at at_ off
    exact ⟨_, next_, fun b hb => (at_ b hb).trans (Work.read_getD _ _ hb), off⟩
  · have out := opLoaderShardRx_out (w := s.work) found loader kinds names job shard run sender epoch pred waits len
      ((s.work_shardDest j h.entry).trans dest)
    obtain ⟨next_, at_, off⟩ := exec_write (i := .loaderShardRx id) out (by rw [len]; exact fits)
    rw [len] at at_ off
    exact ⟨_, next_, at_, off⟩
  · have dest' := (s.work_shardDest j h.entry).trans dest
    refine ⟨_, exec_sound (i := .shardHashDone k) sound, ?_⟩
    rw [State.after_shard?]
    have verified := opShardHashDone_verified (w := s.work) job shard run dest' waits hashing own
    have again := opShardHashDone_again (w := s.work) job shard run more dest' waits hashing own
    change _ → ∃ u, (Machine.work (.shardHashDone k) s.work).shard? k = some u ∧ _ at verified again
    generalize digestLe (s.work.read a (meLen h.entry)) = digest at verified again ⊢
    split
    · next fits =>
      obtain ⟨u, e, st⟩ := verified fits
      rw [e]
      exact beq_iff_eq.mpr st
    · next differs =>
      obtain ⟨u, e, att⟩ := again differs
      rw [e]
      exact decide_eq_true att
  · have e := opShardAttemptTimeout_missing (w := s.work) job shard run start waits past
    obtain ⟨out, u, hu, att⟩ := Work.shardMissing_next (w := s.work) job shard more (by omega) open_
    refine ⟨_, exec_leave (i := .shardAttemptTimeout k) e out, s.sameMem_leave _, ?_⟩
    rw [State.leave_toDev, hu]
    exact decide_eq_true att
  · have e := opLoaderUnavailRx_missing (w := s.work) found loader kinds names job shard run sender epoch pred waits
    obtain ⟨out, u, hu, att⟩ := Work.shardMissing_next (i := k) (j := j) (s := h)
      (w := s.work.setNet (fun t => { t with inbox := t.inbox.filter (fun q => q.id != id) })) job shard more (by omega) open_
    refine ⟨_, exec_leave (i := .loaderUnavailRx id) e out, s.sameMem_leave _, ?_⟩
    rw [State.leave_toDev, hu]
    exact decide_eq_true att
  · obtain ⟨q, peer, user, e⟩ := opLoaderRefetchRx_answers (w := s.work) found loader kinds
    refine ⟨_, exec_leave (i := .loaderRefetchRx id) e rfl, s.sameMem_leave _, fun _ _ => rfl, fun p hp => ?_, ?_, ?_⟩
    · simpa using (List.mem_filter.mp hp).2
    · exact List.length_append
    · exact List.any_eq_true.mpr ⟨q, List.mem_append_right _ (List.mem_singleton.mpr rfl), by simp [peer, user]⟩

end Sys2Proof.Machine

namespace Sys2Proof.Machine

/-! ### What leaves the sections alone, in full -/

@[simp] theorem Work.setLocks_sections (l : List PLock) (w : Work) : (Work.setLocks l w).sched.sections = w.sched.sections := by rfl

@[simp] theorem Work.dropLocks_sections (id : Nat) (w : Work) : (Work.dropLocks id w).sched.sections = w.sched.sections := by rfl

@[simp] theorem Work.setJobs_sections (l : List PicotJob) (w : Work) : (Work.setJobs l w).sched.sections = w.sched.sections := by rfl

@[simp] theorem Work.mapJob_sections (id : Nat) (f : PicotJob → PicotJob) (w : Work) : (Work.mapJob id f w).sched.sections = w.sched.sections := by rfl

@[simp] theorem Work.mapRow_sections (id : Nat) (p : Nat) (f : PRow → PRow) (w : Work) : (Work.mapRow id p f w).sched.sections = w.sched.sections := by rfl

@[simp] theorem Work.issueRow_sections (j : PicotJob) (r : PRow) (w : Work) : (Work.issueRow j r w).sched.sections = w.sched.sections := by
  unfold Work.issueRow
  (repeat' split) <;> simp [*]

@[simp] theorem Work.issueJob_sections (id : Nat) (w : Work) : (w.issueJob id).sched.sections = w.sched.sections := by
  unfold Work.issueJob
  split
  · rfl
  next j _ =>
  split
  · rw [Work.ite_sections, foldl_sections]
    · exact ite_self _
    · intro w r
      (repeat' split) <;> simp
  · refine foldl_sections _ (fun w r => ?_) _ _
    (repeat' split) <;> simp

@[simp] theorem Work.issueDie_sections (d : Nat) (w : Work) : (Work.issueDie d w).sched.sections = w.sched.sections := by
  unfold Work.issueDie
  simp [*]

@[simp] theorem Work.endPicot_sections (id : Nat) (st : Nat) (d : Nat) (w : Work) : (Work.endPicot id st d w).sched.sections = w.sched.sections := by
  unfold Work.endPicot
  simp

@[simp] theorem Work.batchRelease_sections (id : Nat) (w : Work) : (Work.batchRelease id w).sched.sections = w.sched.sections := by
  unfold Work.batchRelease
  (repeat' split) <;> simp [*]

@[simp] theorem Work.mgmtSend_sections (m : OutMsg) (w : Work) : (Work.mgmtSend m w).sched.sections = w.sched.sections := by
  unfold Work.mgmtSend
  split <;> simp

@[simp] theorem Work.notifyTx_sections (i : Nat) (seq : Nat) (kind : Nat) (body : List Nat) (w : Work) : (Work.notifyTx i seq kind body w).sched.sections =
    w.sched.sections := by
  unfold Work.notifyTx
  simp

@[simp] theorem Work.notifyOne_sections (i kind : Nat) (body : List Nat) (w : Work) : (w.notifyOne i kind body).2.sched.sections = w.sched.sections := by
  rw [(Work.logs_notifyOne w i kind body).sched]

@[simp] theorem Work.notifyAll_sections (kind : Nat) (body : List Nat) (w : Work) : (w.notifyAll kind body).2.sched.sections = w.sched.sections := by
  rw [(Work.logs_notifyAll w kind body).sched]

@[simp] theorem Work.rateMark_sections (key : Nat) (w : Work) : (Work.rateMark key w).sched.sections = w.sched.sections := by rfl

@[simp] theorem Work.logRec_sections (code ctx source detail extra : Nat) (w : Work) : (w.logRec code ctx source detail extra).2.sched.sections = w.sched.sections := by
  rw [(Work.logs_logRec w code ctx source detail extra).sched]

@[simp] theorem Work.setColls_sections (l : List CollJob) (w : Work) : (Work.setColls l w).sched.sections = w.sched.sections := by rfl

@[simp] theorem Work.collEnd_sections (id : Nat) (w : Work) : (Work.collEnd id w).sched.sections = w.sched.sections := by
  unfold Work.collEnd
  (repeat' split) <;> simp [*]

@[simp] theorem Work.mapColl_sections (id : Nat) (f : CollJob → CollJob) (w : Work) : (Work.mapColl id f w).sched.sections = w.sched.sections := by rfl

@[simp] theorem Work.setNet_sections (f : NetState → NetState) (w : Work) : (w.setNet f).sched.sections = w.sched.sections := by rfl

@[simp] theorem Work.tagBlocks_sections (n : Nat) (lo : Nat) (hi : Nat) (tag : Nat) (w : Work) : (Work.tagBlocks n lo hi tag w).sched.sections = w.sched.sections := by rfl

@[simp] theorem Work.write_sections (a : Nat) (d : List Byte) (w : Work) : (Work.write a d w).sched.sections = w.sched.sections := by
  unfold Work.write
  split <;> simp

@[simp] theorem Work.engWrite_sections (x : Nat) (a : Nat) (d : List Byte) (w : Work) : (Work.engWrite x a d w).sched.sections = w.sched.sections := by
  unfold Work.engWrite
  (repeat' split) <;> simp [*]

@[simp] theorem Work.setBlobs_sections (c : Copy) (m : List (Nat × Nat)) (w : Work) : (Work.setBlobs c m w).sched.sections = w.sched.sections := by
  unfold Work.setBlobs
  (repeat' split) <;> simp [*]

@[simp] theorem Work.blobPut_sections (c : Copy) (n : Nat) (off : Nat) (v : Nat) (len : Nat) (w : Work) : (Work.blobPut c n off v len w).sched.sections =
    w.sched.sections := by
  unfold Work.blobPut
  simp

@[simp] theorem Work.freeDraw_sections (w : Work) : (Work.freeDraw w).2.sched.sections = w.sched.sections := by rfl

@[simp] theorem Work.queueMsg_sections (m : TxMsg) (w : Work) : (Work.queueMsg m w).sched.sections = w.sched.sections := by rfl

@[simp] theorem Work.hoopPut_sections (x : Nat) (t : Nat) (r : Nat) (w : Work) : (Work.hoopPut x t r w).sched.sections = w.sched.sections := by rfl

@[simp] theorem Work.bumpUe_sections (n : Nat) (w : Work) : (Work.bumpUe n w).sched.sections = w.sched.sections := by rfl

@[simp] theorem Work.countConv_sections (x : Nat) (c : Conv) (w : Work) : (Work.countConv x c w).sched.sections = w.sched.sections := by
  unfold Work.countConv
  split <;> simp

@[simp] theorem Work.gather_sections (id : Nat) (flags : Nat) (w : Work) : (Work.gather id flags w).sched.sections = w.sched.sections := by
  unfold Work.gather
  simp

@[simp] theorem Work.collConv_sections (j : CollJob) (k : Conv) (w : Work) : (Work.collConv j k w).sched.sections = w.sched.sections := by
  unfold Work.collConv
  dsimp only
  split <;> simp

@[simp] theorem Work.hoopReport_sections (x : Nat) (t : Nat) (k : Conv) (w : Work) : (Work.hoopReport x t k w).sched.sections = w.sched.sections := by rfl

@[simp] theorem Work.toDst_sections (j : CollJob) (c : Cmd) (e : Nat) (lane : Nat) (vals : List Val) (w : Work) : (Work.toDst j c e lane vals
    w).sched.sections = w.sched.sections := by
  unfold Work.toDst
  dsimp only
  (repeat' split) <;> simp [*]

@[simp] theorem Work.wireToDst_sections (j : CollJob) (c : Cmd) (e : Nat) (n : Nat) (bytes : List Nat) (w : Work) : (Work.wireToDst j c e n bytes
    w).sched.sections = w.sched.sections := by
  unfold Work.wireToDst
  dsimp only
  (repeat' split) <;> simp [*]

@[simp] theorem Work.sendChunk_sections (id : Nat) (lv : Nat) (pos : Nat) (round : Nat) (chunk : Nat) (data : List Nat) (src : List (Nat × Nat)) (w : Work)
    : (Work.sendChunk id lv pos round chunk data src w).sched.sections = w.sched.sections := by
  unfold Work.sendChunk
  (repeat' split) <;> simp [*]

@[simp] theorem Work.innerSend_sections (id : Nat) (v1 : Nat) (v2 : Work) : (Work.innerSend id v1 v2).sched.sections = v2.sched.sections := by
  induction v1 generalizing v2 with
  | zero => rfl
  | succ k ih =>
    unfold Work.innerSend
    dsimp only
    (repeat' split) <;> simp [*]

@[simp] theorem Work.sliceGot_sections (id : Nat) (part : Nat) (chunk : Nat) (y : List Nat) (w : Work) : (Work.sliceGot id part chunk y w).sched.sections =
    w.sched.sections := by
  unfold Work.sliceGot
  simp

@[simp] theorem Work.thrumOut_sections (j : CollJob) (e0 : Nat) (vals : List Val) (w : Work) : (Work.thrumOut j e0 vals w).sched.sections = w.sched.sections := by
  unfold Work.thrumOut
  simp

@[simp] theorem Work.compress_sections (j : CollJob) (c : Cmd) (kind : Nat) (e0 : Nat) (vals : List Val) (w : Work) : (Work.compress j c kind e0
    vals w).2.sched.sections = w.sched.sections := by
  unfold Work.compress
  (repeat' split) <;> simp [*]

@[simp] theorem Work.ownPart_sections (j : CollJob) (c : Cmd) (chunk : Nat) (vals : List Val) (w : Work) : (Work.ownPart j c chunk vals
    w).sched.sections = w.sched.sections := by
  unfold Work.ownPart
  dsimp only
  (repeat' split) <;> simp_all [apply_ite]

@[simp] theorem Work.directOwn_sections (id : Nat) (chunk : Nat) (c : Cmd) (w : Work) : (Work.directOwn id chunk c w).sched.sections = w.sched.sections := by
  unfold Work.directOwn
  dsimp only
  (repeat' split) <;> simp [*]

@[simp] theorem Work.postFrom_sections (id : Nat) (lv : Nat) (pos : Nat) (v3 : Nat) (v4 : Work) : (Work.postFrom id lv pos v3 v4).sched.sections = v4.sched.sections := by
  induction v3 generalizing v4 with
  | zero => rfl
  | succ k ih =>
    unfold Work.postFrom
    dsimp only
    (repeat' split) <;> simp [*]

@[simp] theorem Work.postAll_sections (id : Nat) (w : Work) : (Work.postAll id w).sched.sections = w.sched.sections := by
  unfold Work.postAll
  split <;> simp

@[simp] theorem Work.merged_sections (j : CollJob) (c : Cmd) (n : Nat) (wt : Nat) (w : Work) : (Work.merged j c n wt w).sched.sections = w.sched.sections := by
  unfold Work.merged
  split <;> simp

@[simp] theorem Work.directAdd_sections (id : Nat) (pos : Nat) (chunk : Nat) (c : Cmd) (v : List Val) (w : Work) : (Work.directAdd id pos chunk c
    v w).sched.sections = w.sched.sections := by
  unfold Work.directAdd
  dsimp only
  split <;> simp

@[simp] theorem Work.doChunk_sections (id : Nat) (l : Landing) (c : Cmd) (w : Work) : (Work.doChunk id l c w).sched.sections = w.sched.sections := by
  unfold Work.doChunk
  dsimp only
  (repeat' split) <;> simp [*]

@[simp] theorem Work.freeSlot_sections (id : Nat) (l : Landing) (w : Work) : (Work.freeSlot id l w).sched.sections = w.sched.sections := by
  unfold Work.freeSlot
  simp

@[simp] theorem Work.mergeIn_sections (id : Nat) (c : Cmd) (v2 : Nat) (v3 : Nat) (v4 : Work) : (Work.mergeIn id c v2 v3 v4).sched.sections = v4.sched.sections := by
  induction v2 generalizing v3 v4 with
  | zero => rfl
  | succ k ih =>
    unfold Work.mergeIn
    (repeat' split) <;> simp [*]

@[simp] theorem Work.onchipWord_sections (x : Nat) (a : Nat) (res : ReadRes) (w : Work) : (Work.onchipWord x a res w).sched.sections = w.sched.sections := by
  unfold Work.onchipWord
  split <;> simp

@[simp] theorem Work.sampleCore_sections (k : Nat) (bad : List Nat) (w : Work) : (Work.sampleCore k bad w).2.sched.sections = w.sched.sections := by rfl

/-! ### What leaves the next identity alone -/

@[simp] theorem Work.mapCmd_nextId (id : Nat) (f : Cmd → Cmd) (w : Work) : (w.mapCmd id f).nextId = w.nextId := by rfl

@[simp] theorem Work.finishCmd_nextId (id : Nat) (status : Nat) (detail : Nat) (w : Work) : (Work.finishCmd id status detail w).nextId = w.nextId := by
  unfold Work.finishCmd
  simp [*]

@[simp] theorem Work.setLaunches_nextId (l : List Launch) (w : Work) : (Work.setLaunches l w).nextId = w.nextId := by rfl

@[simp] theorem Work.launchStep_nextId (cmd : Nat) (w : Work) : (Work.launchStep cmd w).nextId = w.nextId := by
  unfold Work.launchStep
  (repeat' split) <;> simp [*]

@[simp] theorem Work.mapLaunch_nextId (cmd : Nat) (f : Launch → Launch) (w : Work) : (Work.mapLaunch cmd f w).nextId = w.nextId := by rfl

@[simp] theorem Work.launchFault_nextId (cmd : Nat) (idx : Nat) (st : Nat) (detail : Nat) (w : Work) : (Work.launchFault cmd idx st detail w).nextId
    = w.nextId := by rfl

@[simp] theorem Work.setRuns_nextId (l : List SampRun) (w : Work) : (Work.setRuns l w).nextId = w.nextId := by rfl

@[simp] theorem Work.dropRun_nextId (samp : Option Nat) (w : Work) : (Work.dropRun samp w).nextId = w.nextId := by
  unfold Work.dropRun
  split <;> simp

@[simp] theorem Work.tileGone_nextId (cmd : Nat) (w : Work) : (Work.tileGone cmd w).nextId = w.nextId := by
  unfold Work.tileGone
  simp

@[simp] theorem Work.chainLost_nextId (sp : SpillChain) (w : Work) : (Work.chainLost sp w).nextId = w.nextId := by
  unfold Work.chainLost
  (repeat' split) <;> simp [*]

@[simp] theorem Work.mgmtSend_nextId (m : OutMsg) (w : Work) : (Work.mgmtSend m w).nextId = w.nextId := by
  unfold Work.mgmtSend
  split <;> simp

@[simp] theorem Work.notifyTx_nextId (i : Nat) (seq : Nat) (kind : Nat) (body : List Nat) (w : Work) : (Work.notifyTx i seq kind body w).nextId =
    w.nextId := by
  unfold Work.notifyTx
  simp

@[simp] theorem Work.notifyOne_nextId (i kind : Nat) (body : List Nat) (w : Work) : (w.notifyOne i kind body).2.nextId = w.nextId := by
  rw [(Work.logs_notifyOne w i kind body).nextId]

@[simp] theorem Work.notifyAll_nextId (kind : Nat) (body : List Nat) (w : Work) : (w.notifyAll kind body).2.nextId = w.nextId := by
  rw [(Work.logs_notifyAll w kind body).nextId]

@[simp] theorem Work.rateMark_nextId (key : Nat) (w : Work) : (Work.rateMark key w).nextId = w.nextId := by rfl

@[simp] theorem Work.logRec_nextId (code ctx source detail extra : Nat) (w : Work) : (w.logRec code ctx source detail extra).2.nextId = w.nextId := by
  rw [(Work.logs_logRec w code ctx source detail extra).nextId]

@[simp] theorem Work.logUnit_nextId (n code ctx source detail extra : Nat) (w : Work) : (w.logUnit n code ctx source detail extra).nextId = w.nextId := by
  rw [(Work.logs_logUnit n code ctx source detail extra w).nextId]

@[simp] theorem Work.coreNow_nextId (k : Nat) (st : Nat) (x : Nat) (w : Work) : (Work.coreNow k st x w).nextId = w.nextId := by rfl

@[simp] theorem Work.unfenceCore_nextId (k : Nat) (w : Work) : (Work.unfenceCore k w).nextId = w.nextId := by
  unfold Work.unfenceCore
  split <;> simp

@[simp] theorem Work.becomeOwner_nextId (cls c : Nat) (w : Work) : (w.becomeOwner cls c).nextId = w.nextId := by rfl

@[simp] theorem Work.offerSlice_nextId (cls p v2 : Nat) (v3 : Work) : (Work.offerSlice cls p v2 v3).nextId = v3.nextId := by
  induction v2 generalizing p v3 with
  | zero => exact Work.put_nextId _ _ _
  | succ k ih =>
    unfold Work.offerSlice
    split
    · exact Work.put_nextId _ _ _
    · split
      · exact (ih _ _).trans (Work.put_nextId _ _ _)
      · exact Work.becomeOwner_nextId _ _ _

@[simp] theorem Work.handover_nextId (cls : Nat) (p : Nat) (w : Work) : (Work.handover cls p w).nextId = w.nextId := by
  unfold Work.handover
  simp

@[simp] theorem Work.rotateClass_nextId (cls : Nat) (w : Work) : (Work.rotateClass cls w).nextId = w.nextId := by
  unfold Work.rotateClass
  dsimp only
  (repeat' split) <;> simp [*]

@[simp] theorem Work.rotation_nextId (w : Work) : (Work.rotation w).nextId = w.nextId := by
  unfold Work.rotation
  simp

@[simp] theorem Work.settleDebt_nextId (s : Section) (w : Work) : (Work.settleDebt s w).nextId = w.nextId := by
  unfold Work.settleDebt
  dsimp only
  (repeat' split) <;> simp [*]

@[simp] theorem Work.setSections_nextId (l : List Section) (w : Work) : (Work.setSections l w).nextId = w.nextId := by rfl

/-! ### Slices (R130, R131) -/

/-- What the rotation of the slices writes: an owner, or the debt of a context. -/
def SliceObj (n : Nat) : Prop := n = Obj.lcOwner ∨ n = Obj.beOwner ∨ ∃ x, x < 16 ∧ n = Obj.debtNs x

theorem ownerObj_slice (cls : Nat) : SliceObj (ownerObj cls) := by
  unfold ownerObj
  split
  · exact .inl rfl
  · exact .inr (.inl rfl)

theorem debtNs_slice {x : Nat} (h : x < 16) : SliceObj (Obj.debtNs x) := .inr (.inr ⟨x, h, rfl⟩)

theorem Work.put_get_slice {m n v : Nat} {w : Work} (slice : SliceObj m) (hn : ¬SliceObj n) : (w.put m v).get n = w.get n :=
  Work.put_get_other _ _ (fun e => hn (e ▸ slice))

theorem Work.becomeOwner_get {cls c n : Nat} {w : Work} (hc : c < 16) (hn : ¬SliceObj n) : (w.becomeOwner cls c).get n = w.get n :=
  (Work.put_get_slice (debtNs_slice hc) hn).trans (Work.put_get_slice (ownerObj_slice cls) hn)

/-- The candidates of a handover are contexts. -/
theorem find?_candidate {p c : Nat} {f : Nat → Bool} (h : ((upto 16).map (fun i => (p + 1 + i) % 16)).find? f = some c) :
    c < 16 ∧ f c = true := by
  obtain ⟨i, _, rfl⟩ := List.mem_map.mp (List.mem_of_find?_eq_some h)
  exact ⟨Nat.mod_lt _ (by decide), List.find?_some h⟩

theorem Work.offerSlice_get (cls p k n : Nat) (w : Work) (hn : ¬SliceObj n) : (w.offerSlice cls p k).get n = w.get n := by
  induction k generalizing p w with
  | zero => exact Work.put_get_slice (ownerObj_slice cls) hn
  | succ k ih =>
    unfold Work.offerSlice
    split
    · exact Work.put_get_slice (ownerObj_slice cls) hn
    · next c found =>
      obtain ⟨hc, _⟩ := find?_candidate found
      split
      · exact (ih _ _).trans (Work.put_get_slice (debtNs_slice hc) hn)
      · exact Work.becomeOwner_get hc hn

theorem Work.rotateClass_get (cls n : Nat) (w : Work) (hn : ¬SliceObj n) : (w.rotateClass cls).get n = w.get n := by
  unfold Work.rotateClass
  dsimp only
  split
  · split
    · exact Work.offerSlice_get _ _ _ _ _ hn
    · rfl
  · split
    · rfl
    · exact Work.offerSlice_get _ _ _ _ _ hn

theorem Work.rotation_get (n : Nat) (w : Work) (hn : ¬SliceObj n) : w.rotation.get n = w.get n :=
  (Work.rotateClass_get 1 n _ hn).trans (Work.rotateClass_get 0 n w hn)

/-- Whether a context takes part turns on the schedule and on its state alone. -/
theorem Dev.inRotation_congr {w w' : Dev} (cls x : Nat) (state : w'.get (Obj.ctxState x) = w.get (Obj.ctxState x))
    (launches : w'.sched.launches = w.sched.launches) (cores : w'.sched.cores = w.sched.cores)
    (sections : w'.sched.sections = w.sched.sections) (runs : w'.sched.runs = w.sched.runs) : w'.inRotation cls x = w.inRotation cls x := by
  unfold Dev.inRotation
  rw [state, launches, cores, sections, runs]

theorem ctxState_not_slice (x : Nat) : ¬SliceObj (Obj.ctxState x) := by
  rintro (h | h | ⟨y, hy, h⟩)
  all_goals
    unfold Obj.ctxState at h
  · unfold Obj.lcOwner at h
    omega
  · unfold Obj.beOwner at h
    omega
  · unfold Obj.debtNs at h
    omega

/-- The class has no owner, or one that takes part. -/
def Dev.Passes (w : Dev) (cls : Nat) (o : Nat) : Prop := o = 0xFF ∨ o < 16 ∧ w.inRotation cls o = true

theorem Work.offerSlice_passes (cls p k : Nat) (w : Work) : w.Passes cls ((w.offerSlice cls p k).owner cls) := by
  induction k generalizing p w with
  | zero => exact .inl (Work.put_get_same _ _ _)
  | succ k ih =>
    unfold Work.offerSlice
    split
    · exact .inl (Work.put_get_same _ _ _)
    · next c found =>
      obtain ⟨hc, takes⟩ := find?_candidate found
      split
      · have same : ∀ x, (w.put (Obj.debtNs c) (w.get (Obj.debtNs c) - w.sliceNs cls)).inRotation cls x = w.inRotation cls x := fun x =>
          Dev.inRotation_congr cls x (Work.put_get_slice (debtNs_slice hc) (ctxState_not_slice x)) rfl rfl rfl rfl
        have rest := ih c (w.put (Obj.debtNs c) (w.get (Obj.debtNs c) - w.sliceNs cls))
        unfold Dev.Passes at rest ⊢
        rwa [same] at rest
      · have owner : (w.becomeOwner cls c).owner cls = c := by
          refine (Work.put_get_other _ _ ?_).trans (Work.put_get_same _ _ _)
          unfold ownerObj Obj.debtNs Obj.lcOwner Obj.beOwner
          split <;> omega
        rw [owner]
        exact .inr ⟨hc, takes⟩

theorem opSliceExpire_passes {be : Bool} {w : Work} (held : w.owner (b2n be) ≠ 0xFF)
    (past : (if be then w.sched.lenBe else w.sched.lenLc) ≤ w.since (if be then w.sched.sinceBe else w.sched.sinceLc)) :
    w.Passes (b2n be) ((opSliceExpire be w).owner (b2n be)) := by
  have spent : ¬(w.owner (b2n be) = 0xFF ∨
      w.since (if be then (w.sched.sinceBe, w.sched.lenBe) else (w.sched.sinceLc, w.sched.lenLc)).1 <
        (if be then (w.sched.sinceBe, w.sched.lenBe) else (w.sched.sinceLc, w.sched.lenLc)).2) := by
    cases be
    · exact not_or.mpr ⟨held, Nat.not_lt.mpr past⟩
    · exact not_or.mpr ⟨held, Nat.not_lt.mpr past⟩
  have noted : ∀ (c : Prop) [Decidable c] (l : List Overrun) (p : Nat),
      w.Passes (b2n be) (((if c then w.setSched (fun s => { s with overruns := l }) else w).handover (b2n be) p).owner (b2n be)) := by
    intro c _ l p
    split
    · exact Work.offerSlice_passes (b2n be) p 400 (w.setSched (fun s => { s with overruns := l }))
    · exact Work.offerSlice_passes (b2n be) p 400 w
  unfold opSliceExpire
  dsimp only
  rw [if_neg spent]
  exact noted _ _ _

theorem opSliceExpire_early {be : Bool} {w : Work}
    (early : w.since (if be then w.sched.sinceBe else w.sched.sinceLc) < (if be then w.sched.lenBe else w.sched.lenLc)) :
    opSliceExpire be w = w := by
  unfold opSliceExpire
  dsimp only
  refine if_pos (.inr ?_)
  cases be
  · exact early
  · exact early

/-! ### Sections that start and end (R133 to R136) -/

section
variable {k id : Nat} {q : Section} {w : Work}

/-- A core whose choice is a section takes it. -/
theorem Work.sectionPick_takes (idle : w.coreSt k = 0) (free : w.fencedCore k = false) (choice : w.choose k = some (.sect id, false))
    (first : w.firstIdle k (.sect id) = true) :
    w.sectionPick k = ((w.putCore { w.core k with chain := none, again := none }).grant k id).rotation := by
  unfold Work.sectionPick
  rw [if_neg (by rw [idle]; decide), if_neg (by rw [idle, free]; simp), choice]
  dsimp only
  rw [if_neg (fun h => Bool.false_ne_true (h.2.symm.trans first))]
  rfl

theorem Work.grant_sections (k id : Nat) (w : Work) : (w.grant k id).sched.sections =
    w.sched.sections.map (fun (s : Section) =>
      if s.id = id then { s with core := some k, start := w.time, cls := if w.coreSt k = 4 then 4 else s.cls } else s) := Work.coreNow_sections _ _ _ _

/-- A granted section runs on its core from now on. -/
theorem opSectionGrant_starts {k : Fin 32} (idle : w.coreSt k = 0) (free : w.fencedCore k = false)
    (choice : w.choose k = some (.sect id, false)) (first : w.firstIdle k (.sect id) = true)
    (found : w.sched.sections.find? (fun q => q.id == id) = some q) :
    ((opSectionGrant k w).sched.sections.any (fun q => q.id == id && q.core == some k.val && q.start == w.time)) = true := by
  have granted : (w.sectionPick k.val).sched.sections.any (fun q => q.id == id && q.core == some k.val && q.start == w.time) = true := by
    rw [Work.sectionPick_takes idle free choice first, Work.rotation_sections, Work.grant_sections, Work.putCore_sections]
    refine List.any_eq_true.mpr ⟨_, List.mem_map.mpr ⟨q, List.mem_of_find?_eq_some found, rfl⟩, ?_⟩
    have named : q.id = id := beq_iff_eq.mp (List.find?_some (p := fun (q : Section) => q.id == id) found)
    rw [if_pos named]
    simp [named]
    rfl
  have same : (opSectionGrant k w).sched.sections = (w.sectionPick k.val).sched.sections := by
    unfold opSectionGrant
    dsimp only
    split
    · split
      · exact Work.issueJob_sections _ _
      · rfl
    · rfl
  rw [same]
  exact granted

theorem Work.collSection_sections {j : CollJob} {c : Cmd} {p : Section} (h : p ∈ (w.collSection j c).sched.sections) :
    p ∈ w.sched.sections ∨ p.id = w.nextId := by
  unfold Work.collSection at h
  split at h
  · exact .inl h
  · have added : ∀ v : Work, (v.claimSection 0 j.id j.ctx c.home c.cls (cNpb c.raw)).2.sched.sections =
        v.sched.sections ++ [⟨v.nextId, 0, j.id, j.ctx, c.home, c.cls, cNpb c.raw, v.time, none, 0, false⟩] := fun v =>
      Work.rotation_sections _
    dsimp only at h
    rw [Work.mapColl_sections, added] at h
    rcases List.mem_append.mp h with h | h
    · exact .inl h
    · exact .inr (by rw [List.mem_singleton.mp h])

/-- The section that a COLL's merge may claim next is a new one. -/
theorem Work.collSectionEnd_sections {bound freq : Nat} {p : Section} (h : p ∈ (w.collSectionEnd id bound freq).sched.sections) :
    p ∈ w.sched.sections ∨ p.id = w.nextId := by
  unfold Work.collSectionEnd at h
  split at h
  · next j c _ _ =>
    dsimp only at h
    have merged : ∀ (b : Prop) [Decidable b] (v : Work),
        (if b then v else v.mergeIn id c 4096 (8 * bound * freq / 10)).sched.sections = v.sched.sections ∧
        (if b then v else v.mergeIn id c 4096 (8 * bound * freq / 10)).nextId = v.nextId := by
      intro b _ v
      split
      · exact ⟨rfl, rfl⟩
      · exact ⟨Work.mergeIn_sections _ _ _ _ _, congrArg (fun b => b.2.2) (Work.mergeIn_book _ _ _ _ _)⟩
    obtain ⟨sections, nextId⟩ := merged (c.done.isSome || j.fail.any (fun f => f.1 == 0x0710)) ((w.bump (Obj.sections j.ctx) 1).mapColl id (fun (q : CollJob) => { q with sect := none }))
    generalize (if (c.done.isSome || j.fail.any (fun f => f.1 == 0x0710)) = true then _ else _ : Work) = v at h sections nextId
    have here : p ∈ v.sched.sections ∨ p.id = v.nextId := by
      split at h
      · split at h
        · exact Work.collSection_sections h
        · rw [Work.collEnd_sections] at h
          exact .inl h
      · exact .inl h
    rw [sections, nextId] at here
    exact here
  · exact .inl h

end

@[simp] theorem Work.putCore_nextId (c : Core) (w : Work) : (w.putCore c).nextId = w.nextId := rfl

@[simp] theorem Work.chainSave_nextId (k : Nat) (w : Work) : (w.chainSave k).nextId = w.nextId := by
  unfold Work.chainSave
  dsimp only
  split <;> simp

@[simp] theorem Work.spillMove_nextId (k : Nat) (w : Work) : (w.spillMove k).nextId = w.nextId := by
  unfold Work.spillMove
  dsimp only
  (repeat' split) <;> simp

@[simp] theorem Work.fenceCore_nextId (k : Nat) (w : Work) : (w.fenceCore k).nextId = w.nextId := by
  unfold Work.fenceCore
  dsimp only
  split <;> simp

theorem Work.endSection_nextId (id : Nat) (w : Work) : (w.endSection id).nextId = w.nextId := by
  unfold Work.endSection
  split
  · rfl
  · next s _ =>
    have settled : (if s.core.isSome && s.kind != 2 then w.settleDebt s else w).nextId = w.nextId := by
      split <;> simp
    rw [← settled]
    generalize (if s.core.isSome && s.kind != 2 then w.settleDebt s else w) = v
    dsimp only
    (repeat' split) <;> simp

/-- A section that ends is gone: what may come is another one (R133). -/
theorem opSectionEnd_ends {id k : Nat} {bad : List Nat} {q : Section} {w : Work}
    (found : w.sched.sections.find? (fun q => q.id == id) = some q) (runs : q.core = some k) (old : id < w.nextId)
    (batch : q.kind = 1 → w.batchOver q.ref = true) : ∀ p ∈ (opSectionEnd id bad w).sched.sections, p.id ≠ id := by
  have ended : ∀ p ∈ (w.endSection id).sched.sections, p.id ≠ id := by
    intro p hp
    rw [Work.endSection_sections] at hp
    simpa using (List.mem_filter.mp hp).2
  have named : q.id = id := beq_iff_eq.mp (List.find?_some (p := fun (q : Section) => q.id == id) found)
  intro p hp
  unfold opSectionEnd at hp
  rw [found] at hp
  dsimp only at hp
  rw [runs] at hp
  dsimp only at hp
  split at hp
  · rcases Work.collSectionEnd_sections hp with h | h
    · exact ended p h
    · rw [Work.endSection_nextId] at h
      omega
  · next one =>
    rw [if_pos (batch one), Work.batchRelease_sections] at hp
    exact ended p hp
  · have words : ∀ (l : List Nat) (v : Work), (l.foldl (fun (w : Work) (b : Nat) =>
        w.onchipWord 31 (windowBase k + 4096 * b) .uncorrectable) v).sched.sections = v.sched.sections := fun l v =>
      foldl_sections (fun (w : Work) (b : Nat) => w.onchipWord 31 (windowBase k + 4096 * b) .uncorrectable)
        (fun w b => Work.onchipWord_sections _ _ _ w) l v
    unfold Work.sampleEnd at hp
    dsimp only at hp
    rw [Work.sampled_sections, Work.endSection_sections, words, Work.sampleCore_sections, named] at hp
    simpa using (List.mem_filter.mp hp).2

/-! ### Sections past twice their bound (R136) -/

theorem Dev.plaitSource_congr {w w' : Dev} (blob : w'.blob = w.blob) (net : w'.net = w.net) (g : Nat) : w'.plaitSource g = w.plaitSource g := by
  have nat : ∀ n off len, w'.blobNat .active n off len = w.blobNat .active n off len := fun n off len => Dev.blobNat_congr (c := .active) blob n off len
  have sess : ∀ m, w'.sess? m = w.sess? m := fun m => by
    unfold Dev.sess?
    rw [net]
  unfold Dev.plaitSource Dev.member Dev.groupE Dev.groupIn
  simp only [nat, sess]

theorem Dev.sectionOwner_congr {w w' : Dev} (blob : w'.blob = w.blob) (net : w'.net = w.net) (q : w'.q = w.q)
    (pb : ∀ b, w'.get (Obj.pbBase b) = w.get (Obj.pbBase b)) (s : Section) : w'.sectionOwner s = w.sectionOwner s := by
  have runs : ∀ c, w'.cmdInstance c = w.cmdInstance c := by
    intro c
    unfold Dev.cmdInstance Dev.instanceOf
    simp only [pb, Dev.plaitSource_congr blob net]
    rfl
  unfold Dev.sectionOwner
  rw [Dev.cmd?_congr q]
  simp only [runs]

/-- Marked as past twice its bound. -/
def Work.markOverran (id : Nat) (w : Work) : Work :=
  w.setSections (w.sched.sections.map (fun (t : Section) => if t.id = id then { t with overran := true } else t))

/-- A section past twice its bound is counted and marked; in a reset of its engine that is all. -/
theorem opSectionOverrun_marks {id k : Nat} {q : Section} {w : Work} (found : w.sched.sections.find? (fun q => q.id == id) = some q)
    (runs : q.core = some k) (kind : q.kind ≠ 2) (fresh : q.overran = false) (past : w.sectionDue q ≤ w.time)
    (held : ∀ e, w.sectionOwner q = some e → w.instReset e = true) :
    opSectionOverrun id w = ((w.markOverran id).bump Obj.sectionOverrunCount 1).log1 0x0314 q.ctx (0x3000 + q.die) k q.bound := by
  unfold opSectionOverrun
  rw [found]
  dsimp only
  rw [runs]
  dsimp only
  rw [if_neg (by rw [fresh]; exact not_or.mpr ⟨Bool.false_ne_true, Nat.not_lt.mpr past⟩), if_neg kind]
  have stays : ∀ v : Work, v.sectionOwner q = w.sectionOwner q → (∀ e, v.instReset e = w.instReset e) →
      (match v.sectionOwner q with | some e => if v.instReset e then v else v.fire 1 e 2 (some q.ref) | none => v) = v := by
    intro v owner reset
    rw [owner]
    split
    · next e he => exact if_pos ((reset e).trans (held e he))
    · rfl
  have told := Work.logs_log1 ((w.markOverran id).bump Obj.sectionOverrunCount 1) 0x0314 q.ctx (0x3000 + q.die) k q.bound
  have pb : ∀ b, (((w.markOverran id).bump Obj.sectionOverrunCount 1).log1 0x0314 q.ctx (0x3000 + q.die) k q.bound).get (Obj.pbBase b) =
      w.get (Obj.pbBase b) := by
    intro b
    refine (told.get _ ?_).trans (Work.put_get_other _ _ ?_)
    · unfold logObjs Obj.pbBase Obj.logNextSeq Obj.logOldestSeq Obj.logDropped Obj.notifyLost Obj.mgmtTxFrames
      simp only [List.mem_cons, List.not_mem_nil, or_false, not_or]
      omega
    · unfold Obj.pbBase Obj.sectionOverrunCount
      omega
  have owner := Dev.sectionOwner_congr (w := w.toDev) told.blob told.net told.q pb q
  have reset : ∀ e, (((w.markOverran id).bump Obj.sectionOverrunCount 1).log1 0x0314 q.ctx (0x3000 + q.die) k q.bound).instReset e =
      w.instReset e := by
    intro e
    unfold Dev.instReset
    rw [told.rst]
    rfl
  exact stays _ owner reset

/-! ### Fences (R140, R141) -/

/-- A core is idle, or FENCED where it is fenced already. -/
def Dev.Idles (w : Dev) (f : Nat → Bool) : Prop :=
  ∀ k, k < 32 → w.coreSt k = (if f k then 4 else 0) ∧ (w.core k).chain = none ∧ (w.core k).spill = none

theorem Work.putCore_core (c : Core) (w : Work) (k : Nat) : (w.putCore c).core k = c ∨ (w.putCore c).core k = w.core k := by
  show (w.sched.cores.set c.k c).getD k _ = c ∨ (w.sched.cores.set c.k c).getD k _ = w.sched.cores.getD k _
  rw [List.getD_eq_getElem?_getD, List.getD_eq_getElem?_getD, List.getElem?_set]
  split
  · split
    · exact .inl rfl
    · next same long =>
      refine .inr ?_
      rw [List.getElem?_eq_none (by omega)]
  · exact .inr rfl

/-- A fenced core with nothing to save is FENCED at once. -/
theorem Work.fenceCore_idle {k : Nat} {w : Work} (chain : (w.core k).chain = none) (spill : (w.core k).spill = none) :
    w.fenceCore k = ((w.putCore { w.core k with chain := none, again := none }).coreNow k 4 0xFF).event 0x0301 31 (0x1000 + k) k := by
  have still : w.spillMove k = w := by
    unfold Work.spillMove
    dsimp only
    rw [spill]
  have over_ : w.chainGoesOn k = false := by
    unfold Dev.chainGoesOn
    dsimp only
    rw [chain]
  unfold Work.fenceCore
  dsimp only
  rw [still, over_]
  rfl

theorem Work.coreNow_state (k st x : Nat) (w : Work) (j : Nat) : (w.coreNow k st x).coreSt j = if j = k then st else w.coreSt j := by
  have ctx : Obj.coreState j ≠ Obj.coreCtx k := by
    unfold Obj.coreState Obj.coreCtx
    omega
  refine (Work.put_get_other _ _ ctx).trans ?_
  split
  · next e =>
    rw [e]
    exact Work.put_get_same _ _ _
  · next other =>
    refine Work.put_get_other _ _ (fun e => other ?_)
    unfold Obj.coreState at e
    omega

theorem coreState_not_log {j : Nat} (h : j < 32) : Obj.coreState j ∉ logObjs := by
  unfold logObjs Obj.coreState Obj.logNextSeq Obj.logOldestSeq Obj.logDropped Obj.notifyLost Obj.mgmtTxFrames
  simp only [List.mem_cons, List.not_mem_nil, or_false, not_or]
  omega

theorem coreNow_get {k st x n : Nat} {w : Work} (state : n ≠ Obj.coreState k) (ctx : n ≠ Obj.coreCtx k) : (w.coreNow k st x).get n = w.get n :=
  (Work.put_get_other _ _ ctx).trans (Work.put_get_other _ _ state)

/-- One step of the fences, for core k. -/
def Work.fenceStep (k : Nat) (w : Work) : Work :=
  if (w.unfenceCore k).fencedCore k && ((w.unfenceCore k).coreSt k == 0 || (w.unfenceCore k).atBoundary k) then (w.unfenceCore k).fenceCore k
  else w.unfenceCore k

theorem Work.fencesNow_eq (w : Work) : w.fencesNow = forUpto Work.fenceStep 32 w := rfl

/-- The cores below n are as their fences say, and the others idle. -/
structure Dev.FencedTo (w : Dev) (fw sw n : Nat) : Prop where
  fenceFw : w.get Obj.fenceFw = fw
  fenceSw : w.get Obj.fenceSw = sw
  idles : w.Idles (fun k => decide (k < n) && bitOf (fw ||| sw) k)

theorem Dev.FencedTo.fenced {w : Dev} {fw sw n : Nat} (h : w.FencedTo fw sw n) (k : Nat) : w.fencedCore k = bitOf (fw ||| sw) k := by
  unfold Dev.fencedCore Dev.fencedBits
  rw [h.fenceFw, h.fenceSw]

theorem Work.fenceStep_fences {w : Work} {fw sw n : Nat} (h : w.FencedTo fw sw n) (small : n < 32) : (w.fenceStep n).FencedTo fw sw (n + 1) := by
  obtain ⟨st, chain, spill⟩ := h.idles n small
  have idle : w.coreSt n = 0 := by
    rw [st]
    simp
  have kept : w.unfenceCore n = w := by
    unfold Work.unfenceCore
    rw [idle]
    rfl
  have others : ∀ k, k ≠ n → (decide (k < n + 1) && bitOf (fw ||| sw) k) = (decide (k < n) && bitOf (fw ||| sw) k) := by
    intro k other
    rw [show decide (k < n + 1) = decide (k < n) from decide_eq_decide.mpr (by omega)]
  unfold Work.fenceStep
  rw [kept, h.fenced, idle]
  cases bit : bitOf (fw ||| sw) n with
  | false =>
    refine ⟨h.fenceFw, h.fenceSw, fun k hk => ?_⟩
    obtain ⟨st', rest⟩ := h.idles k hk
    refine ⟨st'.trans ?_, rest⟩
    by_cases e : k = n
    · simp [e, bit]
    · simp only [others k e]
  | true =>
    have told := Work.logs_event ((w.putCore { w.core n with chain := none, again := none }).coreNow n 4 0xFF) 0x0301 31 (0x1000 + n) n
    have fenced : (if true && (0 == 0 || w.atBoundary n) then w.fenceCore n else w) = w.fenceCore n := if_pos rfl
    rw [fenced, Work.fenceCore_idle chain spill]
    refine ⟨(told.get _ (by decide)).trans ((coreNow_get ?_ ?_).trans h.fenceFw),
      (told.get _ (by decide)).trans ((coreNow_get ?_ ?_).trans h.fenceSw), fun k hk => ⟨?_, ?_⟩⟩
    · unfold Obj.fenceFw Obj.coreState
      omega
    · unfold Obj.fenceFw Obj.coreCtx
      omega
    · unfold Obj.fenceSw Obj.coreState
      omega
    · unfold Obj.fenceSw Obj.coreCtx
      omega
    · refine (told.get _ (coreState_not_log hk)).trans ((Work.coreNow_state _ _ _ _ _).trans ?_)
      by_cases e : k = n
      · simp [e, bit]
      · rw [if_neg e]
        simp only [others k e]
        exact (h.idles k hk).1
    · have core : ∀ v : Work, v.sched = (w.putCore { w.core n with chain := none, again := none }).sched →
          v.core k = { w.core n with chain := none, again := none } ∨ v.core k = w.core k := by
        intro v hv
        unfold Dev.core
        rw [hv]
        exact Work.putCore_core _ w k
      rcases core _ told.sched with e | e
      · rw [e]
        exact ⟨rfl, spill⟩
      · rw [e]
        exact (h.idles k hk).2

theorem Work.fencesNow_fences {w : Work} {fw sw : Nat} (h : w.FencedTo fw sw 0) : w.fencesNow.FencedTo fw sw 32 := by
  have upTo : ∀ n, n ≤ 32 → (forUpto Work.fenceStep n w).FencedTo fw sw n := by
    intro n
    induction n with
    | zero => exact fun _ => h
    | succ n ih => exact fun small => Work.fenceStep_fences (ih (by omega)) (by omega)
  exact upTo 32 (Nat.le_refl 32)

theorem not_slice {n : Nat} (lc : n ≠ 0x300030) (be : n ≠ 0x300031) (debt : n < 0x320000 ∨ 0x330000 ≤ n) : ¬SliceObj n := by
  rintro (h | h | ⟨x, hx, h⟩)
  · exact lc h
  · exact be h
  · unfold Obj.debtNs at h
    omega

/-- The value of FENCE_SW that is held. -/
def Dev.fenceHeld (w : Dev) (v : Nat) : Nat := fenceClamp (w.get Obj.fenceFw) (fenceClamp (w.get Obj.fenceFw) (v % 2 ^ 32) 0) 1

/-- With every core idle the fences that are held are in force at once. -/
theorem opFenceSw_fences {wr : Writer} {v : Nat} {w : Work} (serves : w.serves wr Obj.fenceSw = true) (reaches : w.reaches wr .host = true)
    (idle : ∀ k, k < 32 → w.get (Obj.coreState k) = 0 ∧ (w.core k).chain = none ∧ (w.core k).spill = none) :
    ∃ u : Work, opFenceSw wr v w = u.rotation ∧ u.FencedTo (w.get Obj.fenceFw) (w.fenceHeld v) 32 := by
  have told := Work.clamps_clampTo wr Obj.fenceSw (v % 2 ^ 32) (w.fenceHeld v) w
  refine ⟨((w.clampTo wr Obj.fenceSw (v % 2 ^ 32) (w.fenceHeld v)).put Obj.fenceSw (w.fenceHeld v)).fencesNow,
    Work.gated_takes _ _ _ _ _ serves reaches, Work.fencesNow_fences ⟨?_, Work.put_get_same _ _ _, fun k hk => ⟨?_, ?_⟩⟩⟩
  · exact (Work.put_get_other _ _ (by decide)).trans (told.get _ (by decide))
  · refine (Work.put_get_other _ _ ?_).trans ((told.get _ ?_).trans ((idle k hk).1.trans ?_))
    · unfold Obj.coreState Obj.fenceSw
      omega
    · refine fun m => (List.mem_cons.mp m).elim ?_ (coreState_not_log hk)
      unfold Obj.coreState Obj.clampCount
      omega
    · simp
  · obtain ⟨_, rest⟩ := idle k hk
    have same : ((w.clampTo wr Obj.fenceSw (v % 2 ^ 32) (w.fenceHeld v)).put Obj.fenceSw (w.fenceHeld v)).core k = w.core k := by
      unfold Dev.core
      rw [show ((w.clampTo wr Obj.fenceSw (v % 2 ^ 32) (w.fenceHeld v)).put Obj.fenceSw (w.fenceHeld v)).sched = w.sched from told.sched]
    rw [same]
    exact rest

/-- Settles O27: the handover's candidates, the section that a core takes, those that end, and the fences core by core. -/
theorem coresAreShared : Obligations.CoresAreShared := by
  unfold Obligations.CoresAreShared
  refine ⟨fun be s => ⟨fun held past => ?_, fun early => ?_⟩, fun k id q s idle free choice first found sound => ?_,
    fun id k bad q s found runs old batch sound => ?_, fun id k q s found runs kind fresh past held => ?_, fun wr v s takes idle => ?_⟩
  · exact ⟨_, exec_quiet (i := .sliceExpire be) (opSliceExpire_out be s.work), s.sameMem_leave _, opSliceExpire_passes (w := s.work) held past⟩
  · have e := opSliceExpire_early (w := s.work) early
    exact ⟨_, exec_leave (i := .sliceExpire be) e rfl, s.sameMem_leave _, fun _ _ => rfl⟩
  · refine ⟨_, exec_sound (i := .sectionGrant k) sound, ?_⟩
    rw [State.after_sched]
    exact opSectionGrant_starts (w := s.work) idle free choice first found
  · refine ⟨_, exec_sound (i := .sectionEnd id bad) sound, ?_⟩
    rw [State.after_sched]
    exact opSectionEnd_ends (w := s.work) found runs old batch
  · have e := opSectionOverrun_marks (w := s.work) found runs kind fresh past held
    have out : (((s.work.markOverran id).bump Obj.sectionOverrunCount 1).log1 0x0314 q.ctx (0x3000 + q.die) k q.bound).out = s.work.out :=
      (Work.logs_log1 _ _ _ _ _ _).out
    refine ⟨_, exec_leave (i := .sectionOverrun id) e out, s.sameMem_leave _, ?_, ?_⟩
    · exact (Work.log1_get _ _ _ _ _ _ (by decide)).trans (Work.bump_get_same _ _ _)
    · rw [State.leave_toDev, Work.log1_sections]
      have named : q.id = id := beq_iff_eq.mp (List.find?_some (p := fun (q : Section) => q.id == id) found)
      refine List.any_eq_true.mpr ⟨_, List.mem_map.mpr ⟨q, List.mem_of_find?_eq_some found, rfl⟩, ?_⟩
      rw [if_pos named]
      simp [named]
  · obtain ⟨u, e, fences⟩ := opFenceSw_fences (w := s.work) (v := v) takes.1 takes.2 idle
    have out := (congrArg Work.out e).symm.trans (opFenceSw_out wr v s.work)
    have kept : ∀ n, ¬SliceObj n → (s.leave u.rotation).get n = u.get n := fun n hn => Work.rotation_get n u hn
    have held : (s.leave u.rotation).get Obj.fenceSw = s.work.fenceHeld v := (kept _ (not_slice (by decide) (by decide) (by decide))).trans fences.fenceSw
    have fw : (s.leave u.rotation).get Obj.fenceFw = s.get Obj.fenceFw := (kept _ (not_slice (by decide) (by decide) (by decide))).trans fences.fenceFw
    refine ⟨_, exec_leave (i := .fenceSw wr v) e out, s.sameMem_leave _, held, fun k hk => ?_⟩
    have bit : (s.leave u.rotation).fencedCore k = bitOf (s.get Obj.fenceFw ||| s.work.fenceHeld v) k := by
      unfold Dev.fencedCore Dev.fencedBits
      rw [held, fw]
    have coreState : ¬SliceObj (Obj.coreState k) := by
      unfold Obj.coreState
      exact not_slice (by omega) (by omega) (by omega)
    rw [bit]
    refine (kept _ coreState).trans ((fences.idles k hk).1.trans ?_)
    simp [hk]
    rfl

end Sys2Proof.Machine

namespace Sys2Proof.Machine

/-! ### What leaves the cores alone -/

@[simp] theorem Work.ite_cores (c : Prop) [Decidable c] (a b : Work) :
    (if c then a else b).sched.cores = if c then a.sched.cores else b.sched.cores := by
  split <;> rfl

@[simp] theorem foldl_cores {α : Type} (f : Work → α → Work) (h : ∀ w a, (f w a).sched.cores = w.sched.cores) (l : List α) (w : Work) :
    (l.foldl f w).sched.cores = w.sched.cores :=
  List.foldlRecOn l f (motive := fun w' => w'.sched.cores = w.sched.cores) rfl (fun w' same a _ => (h w' a).trans same)

@[simp] theorem Work.mapCmd_cores (id : Nat) (f : Cmd → Cmd) (w : Work) : (w.mapCmd id f).sched.cores = w.sched.cores := by rfl

@[simp] theorem Work.finishCmd_cores (id : Nat) (status : Nat) (detail : Nat) (w : Work) : (Work.finishCmd id status detail w).sched.cores = w.sched.cores := by
  unfold Work.finishCmd
  simp [*]

@[simp] theorem Work.put_cores (n : Nat) (v : Nat) (w : Work) : (Work.put n v w).sched.cores = w.sched.cores := by rfl

@[simp] theorem Work.bump_cores (n : Nat) (k : Nat) (w : Work) : (Work.bump n k w).sched.cores = w.sched.cores := by rfl

@[simp] theorem Work.setLaunches_cores (l : List Launch) (w : Work) : (Work.setLaunches l w).sched.cores = w.sched.cores := by rfl

@[simp] theorem Work.launchStep_cores (cmd : Nat) (w : Work) : (Work.launchStep cmd w).sched.cores = w.sched.cores := by
  unfold Work.launchStep
  (repeat' split) <;> simp [*]

@[simp] theorem Work.mapLaunch_cores (cmd : Nat) (f : Launch → Launch) (w : Work) : (Work.mapLaunch cmd f w).sched.cores = w.sched.cores := by rfl

@[simp] theorem Work.launchFault_cores (cmd : Nat) (idx : Nat) (st : Nat) (detail : Nat) (w : Work) : (Work.launchFault cmd idx st detail w).sched.cores
    = w.sched.cores := by rfl

@[simp] theorem Work.setRuns_cores (l : List SampRun) (w : Work) : (Work.setRuns l w).sched.cores = w.sched.cores := by rfl

@[simp] theorem Work.dropRun_cores (samp : Option Nat) (w : Work) : (Work.dropRun samp w).sched.cores = w.sched.cores := by
  unfold Work.dropRun
  split <;> simp

@[simp] theorem Work.tileGone_cores (cmd : Nat) (w : Work) : (Work.tileGone cmd w).sched.cores = w.sched.cores := by
  unfold Work.tileGone
  simp

@[simp] theorem Work.send_cores (m : OutMsg) (w : Work) : (Work.send m w).sched.cores = w.sched.cores := by rfl

@[simp] theorem Work.mgmtSend_cores (m : OutMsg) (w : Work) : (Work.mgmtSend m w).sched.cores = w.sched.cores := by
  unfold Work.mgmtSend
  split <;> simp

@[simp] theorem Work.notifyTx_cores (i : Nat) (seq : Nat) (kind : Nat) (body : List Nat) (w : Work) : (Work.notifyTx i seq kind body w).sched.cores =
    w.sched.cores := by
  unfold Work.notifyTx
  simp

@[simp] theorem Work.notifyOne_cores (i kind : Nat) (body : List Nat) (w : Work) : (w.notifyOne i kind body).2.sched.cores = w.sched.cores := by
  rw [(Work.logs_notifyOne w i kind body).sched]

@[simp] theorem Work.notifyAll_cores (kind : Nat) (body : List Nat) (w : Work) : (w.notifyAll kind body).2.sched.cores = w.sched.cores := by
  rw [(Work.logs_notifyAll w kind body).sched]

@[simp] theorem Work.rateMark_cores (key : Nat) (w : Work) : (Work.rateMark key w).sched.cores = w.sched.cores := by rfl

@[simp] theorem Work.logRec_cores (code ctx source detail extra : Nat) (w : Work) : (w.logRec code ctx source detail extra).2.sched.cores = w.sched.cores := by
  rw [(Work.logs_logRec w code ctx source detail extra).sched]

@[simp] theorem Work.logUnit_cores (n code ctx source detail extra : Nat) (w : Work) : (w.logUnit n code ctx source detail extra).sched.cores = w.sched.cores := by
  rw [(Work.logs_logUnit n code ctx source detail extra w).sched]

@[simp] theorem Work.log1_cores (code : Nat) (ctx : Nat) (source : Nat) (detail : Nat) (extra : Nat) (w : Work) : (Work.log1 code ctx source detail
    extra w).sched.cores = w.sched.cores := by
  unfold Work.log1
  simp

@[simp] theorem Work.event_cores (code : Nat) (ctx : Nat) (source : Nat) (detail : Nat) (w : Work) : (Work.event code ctx source detail w).sched.cores =
    w.sched.cores := by
  unfold Work.event
  simp

@[simp] theorem Work.coreNow_cores (k : Nat) (st : Nat) (x : Nat) (w : Work) : (Work.coreNow k st x w).sched.cores = w.sched.cores := by rfl

@[simp] theorem Work.becomeOwner_cores (cls c : Nat) (w : Work) : (w.becomeOwner cls c).sched.cores = w.sched.cores := by
  unfold Work.becomeOwner
  dsimp only
  split <;> rfl

@[simp] theorem Work.offerSlice_cores (cls p v2 : Nat) (v3 : Work) : (Work.offerSlice cls p v2 v3).sched.cores = v3.sched.cores := by
  induction v2 generalizing p v3 with
  | zero => exact Work.put_cores _ _ _
  | succ k ih =>
    unfold Work.offerSlice
    split
    · exact Work.put_cores _ _ _
    · split
      · exact (ih _ _).trans (Work.put_cores _ _ _)
      · exact Work.becomeOwner_cores _ _ _

@[simp] theorem Work.handover_cores (cls : Nat) (p : Nat) (w : Work) : (Work.handover cls p w).sched.cores = w.sched.cores := by
  unfold Work.handover
  simp

@[simp] theorem Work.rotateClass_cores (cls : Nat) (w : Work) : (Work.rotateClass cls w).sched.cores = w.sched.cores := by
  unfold Work.rotateClass
  dsimp only
  (repeat' split) <;> simp [*]

@[simp] theorem Work.rotation_cores (w : Work) : (Work.rotation w).sched.cores = w.sched.cores := by
  unfold Work.rotation
  simp

@[simp] theorem Work.tagBlocks_cores (n : Nat) (lo : Nat) (hi : Nat) (tag : Nat) (w : Work) : (Work.tagBlocks n lo hi tag w).sched.cores = w.sched.cores := by rfl

@[simp] theorem Work.write_cores (a : Nat) (d : List Byte) (w : Work) : (Work.write a d w).sched.cores = w.sched.cores := by
  unfold Work.write
  split <;> simp

@[simp] theorem Work.engWrite_cores (x : Nat) (a : Nat) (d : List Byte) (w : Work) : (Work.engWrite x a d w).sched.cores = w.sched.cores := by
  unfold Work.engWrite
  (repeat' split) <;> simp [*]

@[simp] theorem Work.setBlobs_cores (c : Copy) (m : List (Nat × Nat)) (w : Work) : (Work.setBlobs c m w).sched.cores = w.sched.cores := by
  unfold Work.setBlobs
  (repeat' split) <;> simp [*]

@[simp] theorem Work.blobPut_cores (c : Copy) (n : Nat) (off : Nat) (v : Nat) (len : Nat) (w : Work) : (Work.blobPut c n off v len w).sched.cores =
    w.sched.cores := by
  unfold Work.blobPut
  simp

@[simp] theorem Work.eventLimited_cores (key : Nat) (gap : Nat) (code : Nat) (ctx : Nat) (source : Nat) (detail : Nat) (w : Work) :
    (Work.eventLimited key gap code ctx source detail w).sched.cores = w.sched.cores := by
  unfold Work.eventLimited
  split <;> simp

@[simp] theorem Work.xqParity_cores (inst : Nat) (w : Work) : (Work.xqParity inst w).sched.cores = w.sched.cores := by
  unfold Work.xqParity
  simp

@[simp] theorem Work.hoopPut_cores (x : Nat) (t : Nat) (r : Nat) (w : Work) : (Work.hoopPut x t r w).sched.cores = w.sched.cores := by rfl

@[simp] theorem Work.raiseMax_cores (n : Nat) (v : Nat) (w : Work) : (Work.raiseMax n v w).sched.cores = w.sched.cores := by rfl

@[simp] theorem Work.noteWait_cores (t : Tile) (w : Work) : (Work.noteWait t w).sched.cores = w.sched.cores := by
  unfold Work.noteWait
  split <;> simp

@[simp] theorem Work.takeTile_cores (t : Tile) (w : Work) : (Work.takeTile t w).sched.cores = w.sched.cores := by
  unfold Work.takeTile
  simp

@[simp] theorem Work.bumpUe_cores (n : Nat) (w : Work) : (Work.bumpUe n w).sched.cores = w.sched.cores := by rfl

@[simp] theorem Work.countConv_cores (x : Nat) (c : Conv) (w : Work) : (Work.countConv x c w).sched.cores = w.sched.cores := by
  unfold Work.countConv
  split <;> simp

@[simp] theorem Work.gather_cores (id : Nat) (flags : Nat) (w : Work) : (Work.gather id flags w).sched.cores = w.sched.cores := by
  unfold Work.gather
  simp

@[simp] theorem Work.hoopReport_cores (x : Nat) (t : Nat) (k : Conv) (w : Work) : (Work.hoopReport x t k w).sched.cores = w.sched.cores := by rfl

@[simp] theorem Work.countRun_cores (k : Nat) (t : Tile) (r : TileRun) (s : Stalls) (own : Bool) (np : Nat) (pc : Nat) (nc : Nat) (w : Work) :
    (Work.countRun k t r s own np pc nc w).sched.cores = w.sched.cores := by
  unfold Work.countRun
  dsimp only
  (repeat' split) <;> simp [*]

@[simp] theorem Work.onchipWord_cores (x : Nat) (a : Nat) (res : ReadRes) (w : Work) : (Work.onchipWord x a res w).sched.cores = w.sched.cores := by
  unfold Work.onchipWord
  split <;> simp

@[simp] theorem Work.readEvents_cores (x : Nat) (a : Nat) (res : ReadRes) (w : Work) : (Work.readEvents x a res w).sched.cores = w.sched.cores := by
  unfold Work.readEvents
  (repeat' split) <;> simp [*]

@[simp] theorem Work.noteDispatch_cores (k : Nat) (t : Tile) (w : Work) : (Work.noteDispatch k t w).sched.cores = w.sched.cores := by
  unfold Work.noteDispatch
  dsimp only
  (repeat' split) <;> simp [*]

@[simp] theorem Work.runTime_cores (k : Nat) (t : Tile) (samp : Bool) (w : Work) : (Work.runTime k t samp w).sched.cores = w.sched.cores := by
  unfold Work.runTime
  simp [*]

@[simp] theorem Work.wideEntry_cores (t : Tile) (e : List Nat) (w : Work) : (Work.wideEntry t e w).sched.cores = w.sched.cores := by
  unfold Work.wideEntry
  dsimp only
  (repeat' split) <;> simp [*]

@[simp] theorem Work.tileComplete_cores (s : OutStore) (w : Work) : (Work.tileComplete s w).sched.cores = w.sched.cores := by
  unfold Work.tileComplete
  dsimp only
  (repeat' split) <;> simp [*]


/-! ### The cores under their numbers (R120) -/

/-- 32 cores, each under its own number. -/
def Dev.Numbered (w : Dev) : Prop := w.sched.cores.length = 32 ∧ ∀ k, k < 32 → (w.core k).k = k

theorem Dev.core_congr {w w' : Dev} (h : w'.sched.cores = w.sched.cores) (k : Nat) : w'.core k = w.core k := by
  unfold Dev.core
  rw [h]

theorem Dev.Numbered.of_cores {w w' : Dev} (h : w.Numbered) (same : w'.sched.cores = w.sched.cores) : w'.Numbered := by
  obtain ⟨all, own⟩ := h
  exact ⟨by rw [same, all], fun k hk => by rw [Dev.core_congr same, own k hk]⟩

theorem State.Sound.numbered {s : State} (h : s.Sound) : s.Numbered := ⟨h.1, h.2.1⟩

theorem Work.putCore_core_same {c : Core} {k : Nat} {w : Work} (h : w.Numbered) (own : c.k = k) (small : k < 32) : (w.putCore c).core k = c := by
  show (w.sched.cores.set c.k c).getD k _ = c
  rw [List.getD_eq_getElem?_getD, own, List.getElem?_set_self (by rw [h.1]; exact small)]
  rfl

theorem Work.putCore_core_other {c : Core} {k : Nat} {w : Work} (other : c.k ≠ k) : (w.putCore c).core k = w.core k := by
  show (w.sched.cores.set c.k c).getD k _ = w.sched.cores.getD k _
  rw [List.getD_eq_getElem?_getD, List.getD_eq_getElem?_getD, List.getElem?_set_ne other]

theorem Dev.Numbered.putCore {w : Work} (h : w.Numbered) (c : Core) : (w.putCore c).Numbered := by
  refine ⟨(List.length_set ..).trans h.1, fun k hk => ?_⟩
  by_cases own : c.k = k
  · rw [Work.putCore_core_same h own hk, own]
  · rw [Work.putCore_core_other own, h.2 k hk]

theorem Work.spareBlocks_numbered {w : Work} (h : w.Numbered) (k off len : Nat) : (w.spareBlocks k off len).Numbered := by
  unfold Work.spareBlocks
  dsimp only
  split
  · exact h
  · split
    · exact h
    · exact h.putCore _

theorem Work.windowWrite_numbered {w : Work} (h : w.Numbered) (k x id off : Nat) (d : List Nat) : (w.windowWrite k x id off d).Numbered := by
  unfold Work.windowWrite
  dsimp only
  split
  · exact h
  · exact (Work.spareBlocks_numbered h k off d.length).of_cores (by simp)

/-- Core k holds no tile. -/
def Work.Freed (w : Work) (k : Nat) : Prop := w.Numbered ∧ (w.core k).tile = none

theorem Work.Freed.of_cores {w w' : Work} {k : Nat} (h : w.Freed k) (same : w'.sched.cores = w.sched.cores) : w'.Freed k :=
  ⟨h.1.of_cores same, by rw [Dev.core_congr same, h.2]⟩

theorem Work.Freed.rotation {w : Work} {k : Nat} (h : w.Freed k) : w.rotation.Freed k := h.of_cores (Work.rotation_cores w)

theorem Work.coreFree_freed {w : Work} {k : Nat} (h : w.Numbered) (small : k < 32) : (w.coreFree k).Freed k := by
  have put := Work.putCore_core_same (c := { w.core k with tile := none, snap := [], prog := [], slots0 := [], chans0 := [] }) h (h.2 k small) small
  exact ⟨(h.putCore _).of_cores rfl, congrArg Core.tile put⟩

/-- A freed core that is put back without a tile stays free. -/
theorem Work.Freed.putCore {w : Work} {k : Nat} (h : w.Freed k) (small : k < 32) {c : Core} (own : c.k = (w.core k).k) (tile : c.tile = (w.core k).tile) :
    (w.putCore c).Freed k := by
  refine ⟨h.1.putCore c, ?_⟩
  rw [Work.putCore_core_same h.1 (own.trans (h.1.2 k small)) small, tile, h.2]

theorem Work.chainEnd_freed {w : Work} {k : Nat} (h : w.Freed k) (small : k < 32) (c : Chain) : (w.chainEnd k c).Freed k := by
  have held := h.putCore small (c := { w.core k with chain := some c }) rfl rfl
  unfold Work.chainEnd
  dsimp only
  generalize w.putCore { w.core k with chain := some c } = v at held ⊢
  split
  · exact held
  · have gone := held.putCore small (c := { v.core k with chain := none, again := none }) rfl rfl
    split
    · exact gone.of_cores (by simp)
    · split
      · split
        · exact gone.of_cores rfl
        · exact gone
      · exact gone


theorem opTileEnd_freed {k : Fin 32} {st : Stalls} {flips : List (Nat × Nat)} {l : Tile} {h : Chain} {w : Work} (num : w.Numbered)
    (runs : w.coreSt k = 2) (tile : (w.core k).tile = some l) (chain : (w.core k).chain = some h)
    (short : (w.tileRun (w.core k) l h 64 (2 ^ 24) (2 ^ 24)).cycles (if feedLocal k l then { st with feed := 0 } else st) ≤ 720) :
    (opTileEnd k st flips w).Freed k := by
  unfold opTileEnd
  extract_lets k' c w0
  split
  · next t h' ht hc =>
    obtain rfl : l = t := Option.some.inj (tile.symm.trans ht)
    obtain rfl : h = h' := Option.some.inj (chain.symm.trans hc)
    split
    · exact absurd runs ‹_›
    · extract_lets st' r own np wRun wRep src1 ovf slots ps live src2 dig h1 wAgain wFreed c2 wWin imgs probe wProbe wCmd wCount h2 wOut src3 wBad
        wFault pieces wEnd status
      have reported : wRep.sched.cores = w.sched.cores := by
        have ran : wRun.sched.cores = w.sched.cores := (Work.runTime_cores _ _ _ _).trans (Work.countRun_cores _ _ _ _ _ _ _ _ _)
        show (if own then _ else _ : Work).sched.cores = _
        split
        · exact (foldl_cores (fun (w : Work) (p : Nat × Conv) => w.hoopReport l.ctx p.1 p.2) (fun w p => Work.hoopReport_cores _ _ _ w) _ _).trans ran
        · exact ran
      have numRep : wRep.Numbered := num.of_cores reported
      have freedAgain : wFreed.Freed k := by
        refine Work.coreFree_freed (numRep.of_cores ?_) k.isLt
        show (if own then _ else _ : Work).sched.cores = _
        split <;> simp
      have numWin : wWin.Numbered :=
        List.foldlRecOn ps _ (motive := fun v : Work => v.Numbered) numRep (fun v hv p _ => Work.windowWrite_numbered hv _ _ _ _ _)
      have counted : wCount.sched.cores = wWin.sched.cores := by
        have probed : wProbe.sched.cores = wWin.sched.cores := by
          show (if own && probe then _ else _ : Work).sched.cores = _
          split <;> simp
        have cmds : wCmd.sched.cores = wProbe.sched.cores := by
          show (if own then _ else _ : Work).sched.cores = _
          split <;> simp
        refine Eq.trans ?_ (cmds.trans probed)
        show (if own then _ else _ : Work).sched.cores = _
        split <;> simp
      have freedOut : wOut.Freed k := Work.coreFree_freed (numWin.of_cores counted) k.isLt
      have freedEnd : wEnd.Freed k := Work.chainEnd_freed freedOut k.isLt h2
      split
      · exact absurd ‹_› (Nat.not_lt.mpr short)
      · split
        · refine .rotation (Work.coreFree_freed ?_ k.isLt)
          refine Dev.Numbered.of_cores ?_ (Work.dropRun_cores _ _)
          exact numRep.putCore _
        · split
          · refine .rotation ?_
            exact freedAgain.putCore k.isLt rfl rfl
          · split
            · have freedBad : wBad.Freed k := freedOut.putCore k.isLt rfl rfl
              refine .rotation (freedBad.of_cores ?_)
              show (match h.samp with | some id => _ | none => _ : Work).sched.cores = _
              split <;> simp
            · split
              · exact freedEnd.rotation
              · show Work.Freed (if pieces.isEmpty then _ else _) k
                split
                · exact .rotation (freedEnd.of_cores (Work.tileComplete_cores _ _))
                · exact .rotation (freedEnd.of_cores rfl)
  · next none_ => exact absurd chain (none_ l h tile)

/-- A tile past its 720 cycles is not ended: the watchdog cuts it. -/
theorem opTileEnd_late {k : Fin 32} {st : Stalls} {flips : List (Nat × Nat)} {l : Tile} {h : Chain} {w : Work}
    (runs : w.coreSt k = 2) (tile : (w.core k).tile = some l) (chain : (w.core k).chain = some h)
    (late : 720 < (w.tileRun (w.core k) l h 64 (2 ^ 24) (2 ^ 24)).cycles (if feedLocal k l then { st with feed := 0 } else st)) :
    opTileEnd k st flips w = w := by
  unfold opTileEnd
  extract_lets k' c w0
  split
  · next t h' ht hc =>
    obtain rfl : l = t := Option.some.inj (tile.symm.trans ht)
    obtain rfl : h = h' := Option.some.inj (chain.symm.trans hc)
    split
    · rfl
    · exact if_pos late
  · rfl

/-- Core k holds neither a tile nor a chain. -/
def Work.Dropped (w : Work) (k : Nat) : Prop := (w.core k).tile = none ∧ (w.core k).chain = none

theorem Work.Dropped.of_cores {w w' : Work} {k : Nat} (h : w.Dropped k) (same : w'.sched.cores = w.sched.cores) : w'.Dropped k := by
  unfold Work.Dropped
  rw [Dev.core_congr same]
  exact h

theorem Work.coreFree_dropped {w : Work} {k : Nat} (h : w.Numbered) (small : k < 32) (chain : (w.core k).chain = none) :
    (w.coreFree k).Dropped k := by
  have put := Work.putCore_core_same (c := { w.core k with tile := none, snap := [], prog := [], slots0 := [], chans0 := [] }) h (h.2 k small) small
  exact ⟨congrArg Core.tile put, (congrArg Core.chain put).trans chain⟩

/-- A tile that the watchdog cuts leaves its core, and so does its chain (R118). -/
theorem opTileOverrun_dropped {k : Fin 32} {st : Stalls} {l : Tile} {h : Chain} {w : Work} (num : w.Numbered)
    (runs : w.coreSt k = 2) (tile : (w.core k).tile = some l) (chain : (w.core k).chain = some h)
    (late : 720 < (w.tileRun (w.core k) l h 64 (2 ^ 24) (2 ^ 24)).cycles (if feedLocal k l then { st with feed := 0 } else st)) :
    (opTileOverrun k st w).Dropped k := by
  unfold opTileOverrun
  extract_lets k' c w0
  split
  · next t h' ht hc =>
    obtain rfl : l = t := Option.some.inj (tile.symm.trans ht)
    obtain rfl : h = h' := Option.some.inj (chain.symm.trans hc)
    split
    · exact absurd runs ‹_›
    · extract_lets st' full u per np dc cut own wRun wConv wOver wTold src wChain wFree wFault
      split
      · exact absurd ‹_› (Nat.not_le.mpr late)
      · have told : wTold.sched.cores = w.sched.cores := by
          have ran : wRun.sched.cores = w.sched.cores := (Work.runTime_cores _ _ _ _).trans (Work.countRun_cores _ _ _ _ _ _ _ _ _)
          have conv : wConv.sched.cores = wRun.sched.cores := by
            show (if own then _ else _ : Work).sched.cores = _
            split <;> simp
          have counted : wOver.sched.cores = wConv.sched.cores := by
            show (if own then _ else _ : Work).sched.cores = _
            split <;> simp
          exact (Work.event_cores _ _ _ _ _).trans (counted.trans (conv.trans ran))
        have numTold : wTold.Numbered := num.of_cores told
        have chainless : (wChain.core k).chain = none :=
          congrArg Core.chain (Work.putCore_core_same (c := { wTold.core k with chain := none, again := none }) numTold (numTold.2 k k.isLt) k.isLt)
        have dropped : wFree.Dropped k := Work.coreFree_dropped (numTold.putCore _) k.isLt chainless
        refine dropped.of_cores ((Work.rotation_cores _).trans ?_)
        show (match h.samp with | some id => _ | none => _ : Work).sched.cores = _
        split <;> simp
  · next none_ => exact absurd chain (none_ l h tile)


/-! ### Tiles that start (R121 to R123) -/

theorem Work.loadSpan_numbered {w : Work} (h : w.Numbered) (k : Nat) (t : Tile) (chain a n : Nat) : (w.loadSpan k t chain a n).Numbered := by
  unfold Work.loadSpan
  dsimp only
  split
  · exact h
  · exact Work.windowWrite_numbered h _ _ _ _ _

theorem Work.spareBlocks_time (k off len : Nat) (w : Work) : (w.spareBlocks k off len).time = w.time := by
  unfold Work.spareBlocks
  dsimp only
  (repeat' split) <;> rfl

theorem Work.loadSpan_time (k : Nat) (t : Tile) (chain a n : Nat) (w : Work) : (w.loadSpan k t chain a n).time = w.time := by
  unfold Work.loadSpan Work.windowWrite
  dsimp only
  split
  · rfl
  · split
    · rfl
    · exact (Work.write_time _ _ _).trans (Work.spareBlocks_time _ _ _ _)

/-- Core k has executed its tile since t. -/
def Work.Executes (w : Work) (k t : Nat) : Prop := (w.core k).execAt = t ∧ (w.core k).tile.isSome = true

theorem Work.Executes.of_cores {w w' : Work} {k t : Nat} (h : w.Executes k t) (same : w'.sched.cores = w.sched.cores) : w'.Executes k t := by
  unfold Work.Executes
  rw [Dev.core_congr same]
  exact h


section
variable {k : Fin 32} {l : Tile} {h : Chain} {w : Work} (num : w.Numbered) (loads : w.coreSt k = 1) (tile : (w.core k).tile = some l)
  (chain : (w.core k).chain = some h)
include num loads tile chain

/-- A loaded tile executes from now on. -/
theorem opTileStart_executes : (opTileStart k none w).Executes k w.time := by
  have begins : ∀ (v : Work) (c : Core) (x : Nat), v.Numbered → c.k = k → c.execAt = w.time → c.tile.isSome = true →
      ((v.putCore c).coreNow k 2 x).Executes k w.time := by
    intro v c x hv own at_ holds
    have put : ((v.putCore c).coreNow k 2 x).core k = c :=
      (Dev.core_congr (Work.coreNow_cores _ _ _ _) k).trans (Work.putCore_core_same hv own k.isLt)
    unfold Work.Executes
    rw [put]
    exact ⟨at_, holds⟩
  unfold opTileStart
  extract_lets k' c
  split
  · next t h' ht hc =>
    obtain rfl : l = t := Option.some.inj (tile.symm.trans ht)
    obtain rfl : h = h' := Option.some.inj (chain.symm.trans hc)
    split
    · exact absurd loads ‹_›
    · show Work.Executes (if c.level ≠ 0 then _ else _) k w.time
      split
      · exact begins w _ _ num (num.2 k k.isLt) rfl (congrArg Option.isSome tile)
      · extract_lets wLoad prev prog caps t ins src dig cLoad cRun wRun
        have numLoad : wLoad.Numbered := Work.loadSpan_numbered (Work.loadSpan_numbered num _ _ _ _ _) _ _ _ _ _
        have time : wLoad.time = w.time := (Work.loadSpan_time _ _ _ _ _ _).trans (Work.loadSpan_time _ _ _ _ _ _)
        have runs : wRun.Executes k w.time := begins wLoad cRun _ numLoad (numLoad.2 k k.isLt) time rfl
        split
        · exact runs
        · exact runs.of_cores (Work.noteDispatch_cores _ _ _)
  · next none_ => exact absurd chain (none_ l h tile)

omit num in
/-- A tile whose load meets an uncorrectable word fails. -/
theorem opTileStart_fails (a : Nat) : ∃ st d, opTileStart k (some (a, .uncorrectable)) w =
    (w.readEvents l.ctx a .uncorrectable).tileLoadFail k l h.samp st d := by
  have fails : ∃ st d, readFail a .uncorrectable = some (st, d) := by
    unfold readFail
    dsimp only
    split <;> exact ⟨_, _, rfl⟩
  obtain ⟨st, d, fail⟩ := fails
  refine ⟨st, d, ?_⟩
  unfold opTileStart
  dsimp only
  rw [tile, chain]
  dsimp only
  rw [if_neg (not_not_intro loads), fail]

/-- It leaves its core. -/
theorem opTileStart_lost (a : Nat) : ((opTileStart k (some (a, .uncorrectable)) w).core k).tile = none := by
  have left : ∀ (v : Work) (st d : Nat), v.Numbered → (v.tileLoadFail k l h.samp st d).Freed k := by
    intro v st d hv
    unfold Work.tileLoadFail
    dsimp only
    have freed := Work.coreFree_freed (hv.putCore { v.core k with chain := none, again := none }) k.isLt
    refine .rotation ?_
    split
    · exact freed.of_cores (Work.dropRun_cores _ _)
    · exact freed.of_cores (by simp)
  obtain ⟨st, d, e⟩ := opTileStart_fails loads tile chain a
  rw [e]
  exact (left _ st d (num.of_cores (Work.readEvents_cores _ _ _ _))).2

end

/-! ### Cores that take a tile (R120) -/

/-- Core k has begun tile l at t, and saves nothing. -/
def Work.Begins (w : Work) (k : Nat) (l : Tile) (t : Nat) : Prop :=
  (w.core k).tile = some l ∧ (w.core k).level = 0 ∧ (w.core k).since = t ∧ (w.core k).spill = none

theorem Work.Begins.of_cores {w w' : Work} {k t : Nat} {l : Tile} (h : w.Begins k l t) (same : w'.sched.cores = w.sched.cores) : w'.Begins k l t := by
  unfold Work.Begins
  rw [Dev.core_congr same]
  exact h

theorem Work.beginTile_begins {k : Nat} {l : Tile} {c : Chain} {w : Work} (num : w.Numbered) (small : k < 32) (spill : (w.core k).spill = none) :
    (w.beginTile k l 0 c).Begins k l w.time := by
  have put := Work.putCore_core_same (c := { w.core k with
    tile := some l, level := 0, chain := some { c with idx := l.idx }, again := none, since := w.time }) num (num.2 k small) small
  have here : (w.beginTile k l 0 c).core k = _ := (Dev.core_congr (Work.coreNow_cores _ _ _ _) k).trans put
  unfold Work.Begins
  rw [here]
  exact ⟨rfl, rfl, rfl, spill⟩

theorem Work.takeTile_time (l : Tile) (w : Work) : (w.takeTile l).time = w.time := by
  unfold Work.takeTile Work.noteWait
  split <;> rfl

/-- Core k drops its chain and takes tile l in a new one. -/
def Work.takes (k : Nat) (l : Tile) (w : Work) : Work :=
  let v := w.putCore { w.core k with chain := none, again := none }
  (((v.newChain k l none).2.takeTile l).beginTile k l 0 (v.newChain k l none).1).rotation

theorem Work.takes_begins {k : Nat} {l : Tile} {w : Work} (num : w.Numbered) (small : k < 32) (spill : (w.core k).spill = none) :
    (w.takes k l).Begins k l w.time := by
  have taken : ∀ v : Work, v.Numbered → (v.core k).spill = none →
      (((v.newChain k l none).2.takeTile l).beginTile k l 0 (v.newChain k l none).1).Begins k l v.time := by
    intro v hv none_
    have same : ((v.newChain k l none).2.takeTile l).sched.cores = v.sched.cores := Work.takeTile_cores _ _
    have begun := Work.beginTile_begins (l := l) (c := (v.newChain k l none).1) (hv.of_cores same) small
      (by rw [Dev.core_congr same, none_])
    rwa [Work.takeTile_time] at begun
  have dropped := Work.putCore_core_same (c := { w.core k with chain := none, again := none }) num (num.2 k small) small
  refine Work.Begins.of_cores ?_ (Work.rotation_cores _)
  exact taken (w.putCore { w.core k with chain := none, again := none }) (num.putCore _) (by rw [dropped, spill])

theorem Work.takes_out (k : Nat) (l : Tile) (w : Work) : (w.takes k l).out = w.out := by
  unfold Work.takes
  dsimp only
  rw [Work.rotation_out]
  refine Eq.trans (b := (((w.putCore { w.core k with chain := none, again := none }).newChain k l none).2.takeTile l).out) rfl ?_
  unfold Work.takeTile Work.noteWait
  split <;> rfl

/-- An idle core whose choice is a tile takes it. -/
theorem opCoreAssign_takes {k : Fin 32} {a b : Bool} {l : Tile} {w : Work} (num : w.Numbered) (idle : w.coreSt k = 0)
    (free : w.fencedCore k = false) (choice : w.choose k = some (.tile l, false)) (first : w.firstIdle k (.tile l) = true)
    (spill : (w.core k).spill = none) : opCoreAssign k a b w = w.takes k l := by
  have pick : w.corePick k = w.takes k l := by
    unfold Work.corePick
    rw [if_neg (by rw [idle]; simp), if_neg (by rw [free]; exact Bool.false_ne_true), choice]
    dsimp only
    rw [if_neg (fun h => Bool.false_ne_true (h.2.symm.trans first))]
    rfl
  have held : (w.core k).spill.isSome = false := by
    rw [spill]
    rfl
  have now : ((w.takes k l).core k).spill.isSome = false := by
    obtain ⟨_, _, _, none_⟩ := Work.takes_begins (l := l) num k.isLt spill
    rw [none_]
    rfl
  unfold opCoreAssign
  dsimp only
  rw [pick, held, now]
  rfl

/-! ### What the rotation leaves alone -/

@[simp] theorem Work.becomeOwner_q (cls c : Nat) (w : Work) : (w.becomeOwner cls c).q = w.q := by rfl

@[simp] theorem Work.offerSlice_q (cls p v2 : Nat) (v3 : Work) : (Work.offerSlice cls p v2 v3).q = v3.q := by
  induction v2 generalizing p v3 with
  | zero => exact Work.put_q _ _ _
  | succ k ih =>
    unfold Work.offerSlice
    split
    · exact Work.put_q _ _ _
    · split
      · exact (ih _ _).trans (Work.put_q _ _ _)
      · exact Work.becomeOwner_q _ _ _

@[simp] theorem Work.handover_q (cls : Nat) (p : Nat) (w : Work) : (Work.handover cls p w).q = w.q := by
  unfold Work.handover
  simp

@[simp] theorem Work.rotateClass_q (cls : Nat) (w : Work) : (Work.rotateClass cls w).q = w.q := by
  unfold Work.rotateClass
  dsimp only
  (repeat' split) <;> simp [*]

@[simp] theorem Work.rotation_q (w : Work) : (Work.rotation w).q = w.q := by
  unfold Work.rotation
  simp

@[simp] theorem Work.put_launches (n : Nat) (v : Nat) (w : Work) : (Work.put n v w).sched.launches = w.sched.launches := by rfl

@[simp] theorem Work.becomeOwner_launches (cls c : Nat) (w : Work) : (w.becomeOwner cls c).sched.launches = w.sched.launches := by
  unfold Work.becomeOwner
  dsimp only
  split <;> rfl

@[simp] theorem Work.offerSlice_launches (cls p v2 : Nat) (v3 : Work) : (Work.offerSlice cls p v2 v3).sched.launches = v3.sched.launches := by
  induction v2 generalizing p v3 with
  | zero => exact Work.put_launches _ _ _
  | succ k ih =>
    unfold Work.offerSlice
    split
    · exact Work.put_launches _ _ _
    · split
      · exact (ih _ _).trans (Work.put_launches _ _ _)
      · exact Work.becomeOwner_launches _ _ _

@[simp] theorem Work.handover_launches (cls : Nat) (p : Nat) (w : Work) : (Work.handover cls p w).sched.launches = w.sched.launches := by
  unfold Work.handover
  simp

@[simp] theorem Work.rotateClass_launches (cls : Nat) (w : Work) : (Work.rotateClass cls w).sched.launches = w.sched.launches := by
  unfold Work.rotateClass
  dsimp only
  (repeat' split) <;> simp [*]

@[simp] theorem Work.rotation_launches (w : Work) : (Work.rotation w).sched.launches = w.sched.launches := by
  unfold Work.rotation
  simp

/-! ### Launches (R94, R114) -/

/-- What TILE_LAUNCH does to a command that has not begun. -/
theorem opTileLaunch_releases {id : Nat} {c : Cmd} {ts : List Tile} {f : Option (Nat × Nat × Nat)} {w : Work}
    (runs : w.running id 0x10 = some c) (fresh : c.begun = false) (released : w.releaseFrom c (tlTcount c.raw) 0 ⟨[], []⟩ 0 false = (ts, f)) :
    opTileLaunch id w = (((w.mapCmd id (fun c => { c with begun := true })).setLaunches
      (w.sched.launches ++ [⟨id, c.ctx, linkTiles ts, 0, f⟩])).launchStep id).rotation := by
  unfold opTileLaunch
  rw [runs]
  dsimp only
  rw [fresh, released]
  rfl

theorem Dev.launch?_append {w : Dev} {id x : Nat} {ts : List Tile} {f : Option (Nat × Nat × Nat)} {l : List Launch} (none_ : w.launch? id = none)
    (e : l = w.sched.launches ++ [⟨id, x, ts, 0, f⟩]) : l.find? (fun l => l.cmd == id) = some ⟨id, x, ts, 0, f⟩ := by
  unfold Dev.launch? at none_
  rw [e, List.find?_append, none_]
  simp

theorem linkTiles_isEmpty {ts : List Tile} (h : ts ≠ []) : (linkTiles ts).isEmpty = false := by
  cases ts with
  | nil => exact absurd rfl h
  | cons t r => rfl

section
variable {id : Nat} {c : Cmd} {w : Work} (runs : w.running id 0x10 = some c) (fresh : c.begun = false) (none_ : w.launch? id = none)
include runs fresh none_

/-- A launch whose tiles all pass holds them. -/
theorem opTileLaunch_holds {ts : List Tile} (released : w.releaseFrom c (tlTcount c.raw) 0 ⟨[], []⟩ 0 false = (ts, none)) (some_ : ts ≠ []) :
    (opTileLaunch id w).endOf id = none ∧ (opTileLaunch id w).launch? id = some ⟨id, c.ctx, linkTiles ts, 0, none⟩ := by
  obtain ⟨found, going⟩ := Dev.running_cmd? runs
  have begun := Work.mapCmd_cmd? (f := fun (c : Cmd) => { c with begun := true }) (fun _ => rfl) found
  have held : ((w.mapCmd id (fun c => { c with begun := true })).setLaunches (w.sched.launches ++ [⟨id, c.ctx, linkTiles ts, 0, none⟩])).launch? id =
      some ⟨id, c.ctx, linkTiles ts, 0, none⟩ := Dev.launch?_append none_ rfl
  rw [opTileLaunch_releases runs fresh released]
  have stays : ∀ v : Work, v.launch? id = some ⟨id, c.ctx, linkTiles ts, 0, none⟩ → v.launchStep id = v := by
    intro v hv
    unfold Work.launchStep
    rw [hv]
    exact if_neg (by rw [linkTiles_isEmpty some_]; exact Bool.false_ne_true)
  rw [stays _ held]
  refine ⟨?_, ?_⟩
  · unfold Dev.endOf
    rw [Dev.cmd?_congr (Work.rotation_q _)]
    exact (congrArg (fun o => match o with | some c => c.done | none => none) begun).trans going
  · unfold Dev.launch?
    rw [Work.rotation_launches]
    exact held

/-- A launch whose first tile fails ends with its check. -/
theorem opTileLaunch_fails {k st d : Nat} (released : w.releaseFrom c (tlTcount c.raw) 0 ⟨[], []⟩ 0 false = ([], some (k, st, d))) :
    (opTileLaunch id w).endOf id = some ⟨st, d, c.conv, c.r1, c.r2⟩ ∧ (opTileLaunch id w).launch? id = none := by
  obtain ⟨found, going⟩ := Dev.running_cmd? runs
  have begun := Work.mapCmd_cmd? (f := fun (c : Cmd) => { c with begun := true }) (fun _ => rfl) found
  have held : ((w.mapCmd id (fun c => { c with begun := true })).setLaunches
      (w.sched.launches ++ [⟨id, c.ctx, linkTiles [], 0, some (k, st, d)⟩])).launch? id = some ⟨id, c.ctx, [], 0, some (k, st, d)⟩ :=
    Dev.launch?_append none_ rfl
  have ends : ∀ v : Work, v.launch? id = some ⟨id, c.ctx, [], 0, some (k, st, d)⟩ →
      v.launchStep id = (v.setLaunches (v.sched.launches.filter (fun x => x.cmd != id))).finishCmd id st d := by
    intro v hv
    unfold Work.launchStep
    rw [hv]
    rfl
  rw [opTileLaunch_releases runs fresh released, ends _ held]
  refine ⟨?_, ?_⟩
  · have done := Work.finishCmd_endOf (id := id) (st := st) (d := d) begun going
    unfold Dev.endOf at done ⊢
    rw [Dev.cmd?_congr (Work.rotation_q _)]
    exact done
  · unfold Dev.launch?
    rw [Work.rotation_launches]
    refine List.find?_eq_none.mpr (fun l hl => ?_)
    have other := (List.mem_filter.mp hl).2
    simpa using other

end

/-! ### What leaves the stores alone -/

@[simp] theorem foldl_stores {α : Type} (f : Work → α → Work) (h : ∀ w a, (f w a).sched.stores = w.sched.stores) (l : List α) (w : Work) :
    (l.foldl f w).sched.stores = w.sched.stores :=
  List.foldlRecOn l f (motive := fun w' => w'.sched.stores = w.sched.stores) rfl (fun w' same a _ => (h w' a).trans same)

@[simp] theorem Work.mapCmd_stores (id : Nat) (f : Cmd → Cmd) (w : Work) : (w.mapCmd id f).sched.stores = w.sched.stores := by rfl

@[simp] theorem Work.finishCmd_stores (id : Nat) (status : Nat) (detail : Nat) (w : Work) : (Work.finishCmd id status detail w).sched.stores = w.sched.stores := by
  unfold Work.finishCmd
  simp [*]

@[simp] theorem Work.put_stores (n : Nat) (v : Nat) (w : Work) : (Work.put n v w).sched.stores = w.sched.stores := by rfl

@[simp] theorem Work.bump_stores (n : Nat) (k : Nat) (w : Work) : (Work.bump n k w).sched.stores = w.sched.stores := by rfl

@[simp] theorem Work.setLaunches_stores (l : List Launch) (w : Work) : (Work.setLaunches l w).sched.stores = w.sched.stores := by rfl

@[simp] theorem Work.launchStep_stores (cmd : Nat) (w : Work) : (Work.launchStep cmd w).sched.stores = w.sched.stores := by
  unfold Work.launchStep
  (repeat' split) <;> simp [*]

@[simp] theorem Work.mapLaunch_stores (cmd : Nat) (f : Launch → Launch) (w : Work) : (Work.mapLaunch cmd f w).sched.stores = w.sched.stores := by rfl

@[simp] theorem Work.launchFault_stores (cmd : Nat) (idx : Nat) (st : Nat) (detail : Nat) (w : Work) : (Work.launchFault cmd idx st detail w).sched.stores
    = w.sched.stores := by rfl

@[simp] theorem Work.tileGone_stores (cmd : Nat) (w : Work) : (Work.tileGone cmd w).sched.stores = w.sched.stores := by
  unfold Work.tileGone
  simp

@[simp] theorem Work.becomeOwner_stores (cls c : Nat) (w : Work) : (w.becomeOwner cls c).sched.stores = w.sched.stores := by
  unfold Work.becomeOwner
  dsimp only
  split <;> rfl

@[simp] theorem Work.offerSlice_stores (cls p v2 : Nat) (v3 : Work) : (Work.offerSlice cls p v2 v3).sched.stores = v3.sched.stores := by
  induction v2 generalizing p v3 with
  | zero => exact Work.put_stores _ _ _
  | succ k ih =>
    unfold Work.offerSlice
    split
    · exact Work.put_stores _ _ _
    · split
      · exact (ih _ _).trans (Work.put_stores _ _ _)
      · exact Work.becomeOwner_stores _ _ _

@[simp] theorem Work.handover_stores (cls : Nat) (p : Nat) (w : Work) : (Work.handover cls p w).sched.stores = w.sched.stores := by
  unfold Work.handover
  simp

@[simp] theorem Work.rotateClass_stores (cls : Nat) (w : Work) : (Work.rotateClass cls w).sched.stores = w.sched.stores := by
  unfold Work.rotateClass
  dsimp only
  (repeat' split) <;> simp [*]

@[simp] theorem Work.rotation_stores (w : Work) : (Work.rotation w).sched.stores = w.sched.stores := by
  unfold Work.rotation
  simp

@[simp] theorem Work.tagBlocks_stores (n : Nat) (lo : Nat) (hi : Nat) (tag : Nat) (w : Work) : (Work.tagBlocks n lo hi tag w).sched.stores = w.sched.stores := by rfl

@[simp] theorem Work.write_stores (a : Nat) (d : List Byte) (w : Work) : (Work.write a d w).sched.stores = w.sched.stores := by
  unfold Work.write
  split <;> simp

@[simp] theorem Work.engWrite_stores (x : Nat) (a : Nat) (d : List Byte) (w : Work) : (Work.engWrite x a d w).sched.stores = w.sched.stores := by
  unfold Work.engWrite
  (repeat' split) <;> simp [*]

@[simp] theorem Work.wideEntry_stores (t : Tile) (e : List Nat) (w : Work) : (Work.wideEntry t e w).sched.stores = w.sched.stores := by
  unfold Work.wideEntry
  dsimp only
  (repeat' split) <;> simp [*]

/-! ### Stores (R115) -/

/-- A finished tile's store writes its pieces and its images, and leaves the other stores. -/
theorem Work.tileComplete_rest (o : OutStore) (w : Work) :
    (w.tileComplete o).out = (o.images.foldl (fun (w : Work) e => w.wideEntry o.tile e)
      (o.writes.foldl (fun (w : Work) p => w.engWrite o.tile.ctx p.1 (p.2.map (BitVec.ofNat 8))) w)).out ∧
    (w.tileComplete o).sched.stores = w.sched.stores := by
  unfold Work.tileComplete
  extract_lets t wWrites wImages wCore wDefer wFault
  have wrote : wWrites.sched.stores = w.sched.stores :=
    foldl_stores (fun (w : Work) (p : Nat × List Nat) => w.engWrite t.ctx p.1 (p.2.map (BitVec.ofNat 8))) (fun w p => Work.engWrite_stores _ _ _ w) _ _
  have images : wImages.sched.stores = wWrites.sched.stores :=
    foldl_stores (fun (w : Work) e => w.wideEntry t e) (fun w e => Work.wideEntry_stores _ _ w) _ _
  have deferred : wDefer.out = wCore.out ∧ wDefer.sched.stores = wCore.sched.stores := by
    show (if t.defer then _ else _ : Work).out = _ ∧ (if t.defer then _ else _ : Work).sched.stores = _
    split
    · exact ⟨rfl, rfl⟩
    · exact ⟨rfl, rfl⟩
  have faults : wFault.out = wDefer.out ∧ wFault.sched.stores = wDefer.sched.stores := by
    show (if o.status = 0 then _ else _ : Work).out = _ ∧ (if o.status = 0 then _ else _ : Work).sched.stores = _
    split
    · exact ⟨rfl, rfl⟩
    · exact ⟨Work.launchFault_out _ _ _ _ _, Work.launchFault_stores _ _ _ _ _⟩
  exact ⟨(Work.rotation_out _).trans ((Work.tileGone_out _ _).trans (faults.1.trans deferred.1)),
    (Work.rotation_stores _).trans ((Work.tileGone_stores _ _).trans (faults.2.trans (deferred.2.trans (images.trans wrote))))⟩

theorem opTileStoreDone_out {id a : Nat} {d : List Nat} {o : OutStore} {w : Work} (found : w.sched.stores.find? (fun o => o.id == id) = some o)
    (writes : o.writes = [(a, d)]) (images : o.images = []) :
    (opTileStoreDone id w).out = (w.write a (d.map (BitVec.ofNat 8))).out := by
  unfold opTileStoreDone
  rw [found]
  dsimp only
  rw [(Work.tileComplete_rest _ _).1, writes, images]
  exact (Work.engWrite_out _ _ _ _).trans (Work.write_out_congr (w' := w.setSched _) (w := w) rfl _ _)

theorem opTileStoreDone_gone {id : Nat} {o : OutStore} {w : Work} (found : w.sched.stores.find? (fun o => o.id == id) = some o) :
    ∀ q ∈ (opTileStoreDone id w).sched.stores, q.id ≠ id := by
  intro q hq
  unfold opTileStoreDone at hq
  rw [found] at hq
  dsimp only at hq
  rw [(Work.tileComplete_rest _ _).2] at hq
  simpa using (List.mem_filter.mp hq).2

/-- Settles O26: what a launch holds, the tile that a core takes, the one that executes, ends or is cut, and the bytes of a store. -/
theorem tilesRun : Obligations.TilesRun := by
  unfold Obligations.TilesRun
  refine ⟨fun id c s runs fresh none_ => ⟨fun ts released some_ => ?_, fun k st d released => ?_⟩,
    fun k a b l s sound idle free choice first spill => ?_, fun k l h s sound loads tile chain => ⟨fun mapped_ => ?_, fun a => ?_⟩,
    fun k y flips l h n s sound runs tile chain cycles => ⟨fun short mapped_ => ?_, fun late => ⟨?_, ?_⟩⟩,
    fun id a d o s found writes images fits => ?_⟩
  · obtain ⟨going, held⟩ := opTileLaunch_holds (w := s.work) runs fresh none_ released some_
    exact ⟨_, exec_quiet (i := .tileLaunch id) (opTileLaunch_out id s.work), s.sameMem_leave _, going, held⟩
  · obtain ⟨ended, gone⟩ := opTileLaunch_fails (w := s.work) runs fresh none_ released
    exact ⟨_, exec_quiet (i := .tileLaunch id) (opTileLaunch_out id s.work), s.sameMem_leave _, ended, gone⟩
  · have e := opCoreAssign_takes (a := a) (b := b) (w := s.work) sound.numbered idle free choice first spill
    obtain ⟨tile, level, since, _⟩ := Work.takes_begins (l := l) (w := s.work) sound.numbered k.isLt spill
    exact ⟨_, exec_leave (i := .coreAssign k a b) e (Work.takes_out _ _ _), s.sameMem_leave _, tile, level, since⟩
  · have done := opTileStart_executes (w := s.work) sound.numbered loads tile chain
    refine ⟨_, exec_sound (i := .tileStart k none) mapped_, ?_⟩
    rw [Dev.core_congr (congrArg SchedState.cores (s.after_sched _))]
    exact done
  · obtain ⟨st, d, e⟩ := opTileStart_fails (w := s.work) loads tile chain a
    have out := (congrArg Work.out e).trans ((Work.tileLoadFail_out _ _ _ _ _ _).trans (Work.readEvents_out _ _ _ _))
    exact ⟨_, exec_quiet (i := .tileStart k (some (a, .uncorrectable))) out, s.sameMem_leave _,
      opTileStart_lost (w := s.work) sound.numbered loads tile chain a⟩
  · have done := opTileEnd_freed (flips := flips) (w := s.work) sound.numbered runs tile chain (cycles ▸ short)
    refine ⟨_, exec_sound (i := .tileEnd k y.feed y.wait y.drain flips) mapped_, ?_⟩
    rw [Dev.core_congr (congrArg SchedState.cores (s.after_sched _))]
    exact done.2
  · have e := opTileEnd_late (flips := flips) (w := s.work) runs tile chain (cycles ▸ late)
    exact ⟨_, exec_leave (i := .tileEnd k y.feed y.wait y.drain flips) e rfl, fun _ _ => rfl, s.sameMem_leave _⟩
  · obtain ⟨tile', chain'⟩ := opTileOverrun_dropped (w := s.work) sound.numbered runs tile chain (cycles ▸ late)
    exact ⟨_, exec_quiet (i := .tileOverrun k y.feed y.wait y.drain) (opTileOverrun_out k _ s.work), s.sameMem_leave _, tile', chain'⟩
  · have out := opTileStoreDone_out (w := s.work) found writes images
    obtain ⟨next_, at_, off⟩ := exec_write (i := .tileStoreDone id) out (by rw [List.length_map]; exact fits)
    rw [List.length_map] at at_ off
    refine ⟨_, next_, ?_, fun k hk => (at_ k hk).trans ?_, off⟩
    · rw [State.after_sched]
      exact opTileStoreDone_gone (w := s.work) found
    · rw [List.getD_eq_getElem?_getD, List.getElem?_map, List.getD_eq_getElem?_getD, List.getElem?_eq_getElem hk]
      rfl

end Sys2Proof.Machine

namespace Sys2Proof.Machine

/-! ### The break of a group: what it writes (R388) -/

/-- A group that breaks: its state and its loss are noted and told. -/
def Work.broken (g cause rank : Nat) (w : Work) : Work :=
  let x := gvCtx (w.groupE g)
  let det := cause * 2 ^ 28 + rank % 2 ^ 17
  let src := w.plaitSource g
  let w := (w.blobPut .active Obj.groupState g 2 1).blobPut .active Obj.groupLost (4 * g) det 4
  ((w.event 0x0701 x src g).event 0x0710 x src det).bump (Obj.peerLostCount x) 1

/-- The break of a group writes what its COLLs leave undefined, read from the tables as they stand after the group's state has changed. -/
theorem Work.breakGroup_out {g cause rank orig : Nat} {skip : List Nat} {w : Work} (ready : w.groupSt g = 1) :
    (w.breakGroup g cause rank orig skip).out =
      (((w.broken g cause rank).plait.jobs.filter (fun j => j.names g)).foldl (fun (w : Work) j =>
        (w.undefine j).collStop j.id 0x0710 (cause * 2 ^ 28 + rank % 2 ^ 17)) (w.broken g cause rank)).out := by
  unfold Work.breakGroup
  rw [if_neg (not_not_intro ready)]
  extract_lets e x det src wState wTold wJobs body es
  split
  · rfl
  · exact foldl_out _ (fun w n => by split <;> simp) _ _

/-! ### A group number past the group table -/

/-- A COLL whose outer group number runs past the group table: the bytes of its entry are those of GROUP_STATE. -/
def farJob : CollJob :=
  { id := 5, ctx := 0, group := 2 ^ 28, inner := 4, op := 3, desc := 2 ^ 288, seq := 0, cap := 0, src := 0, dst := 0x1000, ss := 0, ds := 0,
    tin := 0, tout := 0, work := 0, rx := [⟨0, 0, 0, 1, 0, 0, 0⟩], tx := [], slots := [], acc := [], wire := [], inSent := 0, start := 0,
    first := 0, exch := [], sect := none, fail := none }

/-- Its inner group 4 is READY, and a notice that breaks that group has come. -/
def farState : State :=
  { State.reset with
    mem := [(0x1004, BitVec.ofNat 8 (Config.freeValue 0 + 1))]
    blob := [(blobKey Obj.groupState 4, 1)]
    plait := { jobs := [farJob], lastSeq := [] }
    net := { NetState.reset with inbox := [⟨1, 0, abortKey 4, []⟩] } }

/-- Before the break one element at 0x1000 is open. -/
theorem farState_openRanges : farState.openRanges farJob = [(0x1000, 4)] := by decide +kernel

/-- A notice that names a READY group breaks it for cause 3. -/
theorem Work.notice_breaks {id g : Nat} {m : InMsg} {w : Work} (found : w.net.inbox.find? (fun m => m.id == id) = some m)
    (key : m.key = abortKey g) (small : g < 1024) (ready : w.groupSt g = 1) :
    ∃ skip, opPlaitAbortNoticeRx id w =
      (w.unbox id).breakGroup g 3 (leNat (m.data.take 4)) (leNat ((m.data.drop 4).take 4)) skip := by
  have e : m.key / 2 ^ 48 = g := by rw [key]; unfold abortKey; omega
  unfold opPlaitAbortNoticeRx
  rw [found]
  dsimp only
  rw [e, if_neg (by omega : ¬ (m.key ≠ abortKey g ∨ 1023 < g))]
  split
  case isTrue lost => exact absurd (ready.symm.trans lost) (by decide)
  case isFalse => exact ⟨_, rfl⟩

/-- The work after the notice is taken and group 4 is marked as broken. -/
def farBroken : Work := (farState.work.unbox 1).broken 4 3 0

/-- After it, another one is: the entry of the outer group has changed with GROUP_STATE. -/
theorem farBroken_openRanges : farBroken.openRanges farJob = [(0x1004, 4)] := by decide +kernel

theorem farBroken_free : farBroken.free = 0 := by decide +kernel

theorem farBroken_jobs : farBroken.plait.jobs = [farJob] := by decide +kernel

theorem farBroken_out : farBroken.out = farState.work.out := by decide +kernel

/-- A COLL whose one open range lies outside the host's windows writes that range. -/
theorem Work.undefine_one {j : CollJob} {a n : Nat} {w : Work} (one : w.openRanges j = [(a, n)]) (dev : isHost a = false) :
    (w.undefine j).out = (w.write a (w.freeBytes n).1).out := by
  unfold Work.undefine
  rw [one, List.foldl_cons, List.foldl_nil, if_neg (by simp [dev])]
  exact (Work.engWrite_out _ _ _ _).trans (Work.write_out_congr (w := w) (w' := (w.freeBytes n).2) rfl _ _)

/-- The break of group 4 writes one element, at the place that opened with the break. -/
theorem farState_out :
    (opPlaitAbortNoticeRx 1 farState.work).out = (farState.work.write 0x1004 (farBroken.freeBytes 4).1).out := by
  have found : farState.work.net.inbox.find? (fun m => m.id == 1) = some ⟨1, 0, abortKey 4, []⟩ := by decide +kernel
  obtain ⟨skip, e⟩ := Work.notice_breaks found rfl (by decide) (by decide +kernel)
  have ready : (farState.work.unbox 1).groupSt 4 = 1 := by decide +kernel
  have jobs : farBroken.plait.jobs.filter (fun j => j.names 4) = [farJob] := by decide +kernel
  rw [e, Work.breakGroup_out ready]
  change ((farBroken.plait.jobs.filter (fun j => j.names 4)).foldl (fun (w : Work) j =>
    (w.undefine j).collStop j.id 0x0710 (3 * 2 ^ 28 + 0 % 2 ^ 17)) farBroken).out = _
  rw [jobs, List.foldl_cons, List.foldl_nil, Work.collStop_out, Work.undefine_one farBroken_openRanges (by decide)]
  exact Work.write_out_congr farBroken_out _ _

/-- One byte of farState's memory differs from the first free value. -/
theorem farState_byte : farState.byte 0x1004 ≠ BitVec.ofNat 8 (Config.freeValue 0) := by
  have read : farState.byte 0x1004 = BitVec.ofNat 8 (Config.freeValue 0 + 1) := rfl
  rw [read]
  intro h
  have h := congrArg BitVec.toNat h
  rw [BitVec.toNat_ofNat, BitVec.toNat_ofNat] at h
  omega

/-- Refutes O31, in its clause on abort notices: what a break leaves undefined is read after the broken group's state has changed
(Work.breakGroup), and the statement names the ranges open before it. The two differ for a COLL whose group number lies past the group
table, so that the bytes of its entry are those of GROUP_STATE. The statement speaks of every state; no reachable one is known to hold
such a COLL, as its start checks the number. -/
theorem not_collectivesGoOn : ¬ Obligations.CollectivesGoOn := by
  unfold Obligations.CollectivesGoOn
  intro h
  obtain ⟨_, _, notice⟩ := h
  have fits : mapped 0x1004 (farBroken.freeBytes 4).1.length = true := by decide +kernel
  obtain ⟨next, read, _⟩ := exec_write (i := .plaitAbortNoticeRx 1) (s := farState) farState_out fits
  have sound : (opPlaitAbortNoticeRx 1 farState.work).Sound := by
    unfold Work.Sound
    rw [farState_out]
    exact Work.write_sound farState.work_sound fits
  obtain ⟨t, e, _, _, frame⟩ :=
    (notice 1 4 ⟨1, 0, abortKey 4, []⟩ farState (by decide +kernel) rfl (by decide)).1 (by decide +kernel) sound
  obtain rfl : farState.after (Machine.work (.plaitAbortNoticeRx 1)) = t := by injection next.symm.trans e
  have stays := frame 0x1004 (by
    intro q hq _ r hr
    obtain rfl : q = farJob := List.mem_singleton.mp hq
    rw [farState_openRanges] at hr
    obtain rfl : r = (0x1000, 4) := List.mem_singleton.mp hr
    exact .inr (by decide))
  have freed := read 0 (by decide +kernel)
  exact farState_byte (stays.symm.trans (freed.trans (by rfl)))

end Sys2Proof.Machine
